-- ==== Sys2Proof/Word.lean ====
section
/-! DEFINITION. The word types of the LW128's structures (R4): bytes, 32-bit register words and 64-bit Baluf words. -/
namespace Sys2Proof

/-- One byte of a buffer, of MRAM, of engine memory or of a data structure. -/
abbrev Byte := BitVec 8
/-- A register word, or one Baluf instruction word. -/
abbrev W32 := BitVec 32
/-- A Baluf general register (R262). -/
abbrev W64 := BitVec 64
/-- A Baluf vector register: 32 byte lanes (R262, R272). -/
abbrev W256 := BitVec 256
/-- The check bits or the error mask of one 64 + 16 bit protected word (R324). -/
abbrev W80 := BitVec 80

end Sys2Proof
end

