-- ==== Sys2Proof/Syntax.lean ====
section
/-! DEFINITION. The commands of the LW128: one constructor per row of the spec's table of operations and events, and
the operand types they carry. An operand is what comes from outside the block (a host's queue entry, a pin, a sensor,
an accessor's address and data) or the outcome of a physical process that no rule of the spec determines. -/
namespace Sys2Proof

/-- Who makes a register access: an engine by its index of Table 1.2, or the management path (R26, R487). -/
inductive Acc | eng (idx : Nat) | mgmt
  deriving DecidableEq, Repr

/-- A submission queue entry as the fetch unit takes it, with the host buffer it points at (R83, R93). `sgl` is the
total length its descriptors describe and `desc` how many there are. -/
structure Sqe where
  opc : Nat
  cid : Nat := 0
  nsid : Nat := 0
  cdw10 : Nat := 0
  cdw11 : Nat := 0
  cdw12 : Nat := 0
  cdw13 : Nat := 0
  cdw14 : Nat := 0
  cdw15 : Nat := 0
  data : List Byte := []
  sgl : Nat := 0
  desc : Nat := 1
  deriving DecidableEq, Repr

/-- What reaches the device from outside at one tick of the 8 us timebase (R34, R42, R419, R442): milliseconds the
always-on oscillator counted since the last tick, whether SE1 publishes by step 3, the ADC means of the frame as scaled
(i_in in A and v_bus in V as Q16.16 numbers, the hold-up capacitor in mV, the board temperature in 0.1 degree C) and the
readings of the die sensors in degrees C, and the ASPM state (0 L0, 1 L1, 2 L1.1, 3 L1.2) that the link of each port has entered
(R74). -/
structure TickIn where
  aonMs : Nat := 0
  onTime : Bool := true
  iin : Int := 0
  vbus : Int := 0
  vhu : Nat := 0
  tbrd : Int := 250
  dies : List Int := []
  pm : List Nat := []
  deriving DecidableEq, Repr

/-- A request to the management endpoint (Tables 3.10 and 18, R450, R486). `port` numbers 0 SMBus, 1 and 2 PCIe; a register
access carries the SPDM secured session it arrives in. -/
inductive MiReq
  | readDs (typ port ctrl : Nat)
  | healthPoll (clear : Bool)
  | ctrlPoll (start max : Nat)
  | cfgGet (id port : Nat)
  | cfgSet (id port val : Nat)
  | vpdRead (off len : Nat)
  | vpdWrite (off : Nat) (data : List Byte)
  | reset
  | shutdown
  | tunnel (fn : Nat) (sqe : Sqe)
  | coldConfirm
  | regRead (sess : Nat) (addr : W32) (count : Nat)
  | regWrite (sess : Nat) (addr val : W32)
  deriving DecidableEq, Repr

/-- What the training and handshake of one flash channel find (R195 to R208, R222): the interface its dies train to (0 no
open eye, 1 NV-DDR3, 2 NV-LPDDR4), the lowest highest rate code among its LUNs, the LUNs that fail the split handshake,
those of another die type, without a supported interface, of an unsupported geometry, and absent. -/
structure ChanIn where
  ch : Nat
  mode : Nat := 2
  code : Nat := 2
  fails : List Nat := []
  mixed : List Nat := []
  noif : List Nat := []
  geom : List Nat := []
  gone : List Nat := []
  deriving DecidableEq, Repr

/-- What a start-up finds (R1, R195, R198, R344, R347, R359, R390, R471, R481, R509, R515). -/
structure StartIn where
  /-- TEST_EN is high: the core is held in reset -/
  testEn : Bool := false
  /-- units whose self-test fails -/
  bad : List Nat := []
  /-- SRAM rows that fail the March test: unit, bank, row -/
  rows : List (Nat × Nat × Nat) := []
  /-- soft fuse entries that fail their CRC, by position -/
  badFuses : List Nat := []
  /-- channels whose training finds other than a full NV-LPDDR4 channel -/
  chans : List ChanIn := []
  /-- the DRAM fitted disagrees with the OEM configuration block, or a subchannel is absent -/
  dramBad : Bool := false
  /-- subchannels that fail training at FSP1 and at FSP0 -/
  bad1 : List Nat := []
  bad0 : List Nat := []
  /-- trained eyes: subchannel, set point x 16 + strobe, write width and delay, read width and delay -/
  eyes : List (Nat × Nat × Nat × Nat × Nat × Nat) := []
  /-- key slots whose MRAM copy fails its check -/
  keyBad : List Nat := []
  /-- known-answer tests that fail: cluster and pipeline -/
  kat : List (Nat × Nat) := []
  /-- dies exchanged: channel, LUN, and its factory bad chunks -/
  dies : List (Nat × Nat × List Nat) := []
  /-- LUN indexes in use per channel, at most 32 (a `gone` LUN of a channel's entry is one not fitted), and chunks of 8 MiB per
  LUN, at most 32,768, as the parameter pages give them; the reference build's where nothing else is said -/
  luns : Nat := 16
  perLun : Nat := 32768
  /-- QLC pages of an erase block, as the parameter pages give them -/
  blkPages : Nat := 128
  /-- factory bad chunks, as the first start-up reads their marks: channel, LUN, chunk -/
  marks : List (Nat × Nat × Nat) := []
  /-- a bad-block table page is lost in both copies: its channel, LUN and chunks -/
  lost : List (Nat × Nat × List Nat) := []
  /-- grown bad-block records that fail their CRC, by position -/
  badGrown : List Nat := []
  /-- logbook records that fail their CRC -/
  torn : Nat := 0
  /-- the journal scan ends at a bad record with this many records kept -/
  jnlBad : Option Nat := none
  deriving DecidableEq, Repr

/-- A job for a cipher cluster: its priority (Table 13.3), key slot and 16-byte blocks, and the traffic class, tenant and FSN
of the work it serves (R49, R54, R375). -/
structure JobIn where
  prio : Nat
  slot : Nat
  blocks : Nat
  cls : Nat := 0
  tid : Nat := 0
  fsn : Nat := 0
  deriving DecidableEq, Repr

/-- A command on the block's command queue: one row of the table of operations and events each. -/
inductive Instr
  /-- PLAIN_REGISTER_WRITE (R6): A write to an internal register that has no row of its own stores or drops each field by its type and stated range. -/
  | plainRegisterWrite (acc : Acc) (addr val : W32)
  /-- RC_READ (R6): A read of an RC field returns its value and then clears it. -/
  | rcRead (acc : Acc) (addr : W32)
  /-- LO_READ_LATCH (R70): A read of a LO register latches the matching HI half for the reading accessor. Where `host` is a function and a size, the read is that function's, of so many bytes at offset `addr` of its BAR0 (R79, R101, R490). -/
  | loReadLatch (acc : Acc) (addr : W32) (host : Option (Nat × Nat))
  /-- OFF_UNIT_ACCESS (R24): An access to an off, drowsing or retired unit's window returns 0xBADD_0000 OR the address, drops writes and sets ACC_FAULT. a write where `val` gives a value, else a read -/
  | offUnitAccess (acc : Acc) (addr : W32) (val : Option W32)
  /-- BROADCAST_READ (R27): A read with select 0xFFF returns the broadcast pattern and sets ACC_FAULT. -/
  | broadcastRead (acc : Acc) (addr : W32)
  /-- UNASSIGNED_OFFSET_ACCESS (R485): An access to an offset that names no register reads zero, drops writes and sets ACC_FAULT without a trap. a write where `val` gives a value, else a read -/
  | unassignedOffsetAccess (acc : Acc) (addr : W32) (val : Option W32)
  /-- FENCE (R19): The command port FENCE operation stops a unit taking work, moves its work and sets STATE FENCED and OWN_F2. `acc` writes it for `unit`. -/
  | fence (acc : Acc) (unit arg : Nat)
  /-- UNIT_RESET (R514): The command port UNIT_RESET operation resets a fenced unit, clears its F0 to F2 flags and runs its self-test. -/
  | unitReset (acc : Acc) (unit arg : Nat)
  /-- DRAIN (R19): The command port DRAIN operation makes a unit refuse new work and finish work in flight. -/
  | drain (acc : Acc) (unit arg : Nat)
  /-- RESUME (R19): The command port RESUME operation returns a draining unit to UP. -/
  | resume (acc : Acc) (unit arg : Nat)
  /-- ADOPT (R31): The command port ADOPT operation makes an ME take on a sibling group's operation lists. -/
  | adopt (acc : Acc) (unit arg : Nat)
  /-- RELEASE (R19): The command port RELEASE operation returns an adopted group to its own ME. -/
  | release (acc : Acc) (unit arg : Nat)
  /-- SELFTEST (R19): The command port SELFTEST operation runs a fenced or draining unit's self-test. -/
  | selftest (acc : Acc) (unit arg : Nat)
  /-- RETIRE (R19): The command port RETIRE operation sets a fenced unit RETIRED and records it in MRAM. -/
  | retire (acc : Acc) (unit arg : Nat)
  /-- UNIT_OPERATION_COMPLETE (R19): A running command port operation finishes, sets its CODE and sets DONE. `pass` is the outcome of the unit's self-test, `tr` what a channel's training finds. -/
  | unitOperationComplete (unit : Nat) (pass : Bool) (tr : ChanIn)
  /-- DRAIN_TIMEOUT (R19): A DRAIN not finished within 64 frames completes with DRAIN_TIMEOUT and the unit returns to UP. -/
  | drainTimeout (unit : Nat)
  /-- UNIT_POWER_REQUEST (R401): A write of SYS_UNIT_PWR.REQ through the unit port powers a unit up, wakes it or powers it down, or is dropped. `val` is the word written; `inEntry`, that it met the group's drowse entry under way (R409); `bad` are the LUNs (channel, LUN) that fail PING as a group wakes. -/
  | unitPowerRequest (acc : Acc) (unit : Nat) (val : W32) (inEntry : Bool) (bad : List (Nat × Nat))
  /-- FRAME_TICK (R42): Each tick of the 8 us timebase advances the frame number, puts grants and lists in force and runs the frame pipeline. -/
  | frameTick (i : TickIn)
  /-- LIST_COMMIT (R209): An ME commits a channel's operation list by writing its bit in GRP_LIST_CTL.COMMIT and the sequencer checks the entries. `g` is the group whose GRP_LIST_CTL is written, `late` whether the write missed its frame. -/
  | listCommit (g : Nat) (mask : Nat) (late : Bool)
  /-- APPLY (R51): A write of FRM_CTL.APPLY judges the staged class shares and accepts or refuses them. -/
  | apply
  /-- WEIGHT_WRITE (R57): A write of FRM_LED_CFG.WEIGHT sets a tenant's weight from step 4 of the next frame, or is refused when zero. `val` is the word written to FRM_LED_CFG. -/
  | weightWrite (acc : Acc) (val : W32)
  /-- PERST_ASSERT (R73): Assertion of PERST0# or PERST1# resets its port, functions and virtual functions. -/
  | perstAssert (port : Nat)
  /-- PERST_DEASSERT (R72): Deassertion of PERST# samples BIFUR and starts link training. `strap` is the BIFUR strap. -/
  | perstDeassert (port : Nat) (strap : Bool)
  /-- LINK_TRAINED (R72): A port completes training at the highest common rate and width and takes its DMA credit. What the partner offers. -/
  | linkTrained (port gen width : Nat) (flit : Bool)
  /-- LINK_RETRAIN (R76): A port retrains to another rate or width, pausing DMA and taking a new credit at the next step 4. -/
  | linkRetrain (port gen width : Nat) (flit : Bool)
  /-- LINK_DOWN (R76): A link-down on a port acts as a controller reset of every function on that port. -/
  | linkDown (port : Nat)
  /-- HOST_TRANSFER_FAILURE (R77): A completion timeout, unsupported request or poisoned TLP fails the owning command with Data Transfer Error. -/
  | hostTransferFailure (fsn : Nat)
  /-- DOORBELL_WRITE (R82): A host doorbell write updates a queue's tail or head. `cq`: the doorbell is a completion queue's head. -/
  | doorbellWrite (fn q : Nat) (cq : Bool) (val : Nat)
  /-- COMMAND_FETCH (R36): The fetch unit fetches a command and assigns it the next FSN. `sqe` is the entry the host wrote. -/
  | commandFetch (fn sq : Nat) (sqe : Sqe)
  /-- DELETE_IO_SQ (R82): Delete I/O SQ aborts or finishes the queue's fetched commands and then deletes it. -/
  | deleteIoSq (fsn : Nat)
  /-- DELETE_IO_CQ (R84): Delete I/O CQ deletes a completion queue per NVMe. -/
  | deleteIoCq (fsn : Nat)
  /-- CREATE_IO_SQ (R84): Create I/O SQ creates a submission queue within the assigned queue pairs. -/
  | createIoSq (fsn : Nat)
  /-- CREATE_IO_CQ (R84): Create I/O CQ creates a completion queue within the assigned queue pairs. -/
  | createIoCq (fsn : Nat)
  /-- GET_LOG_PAGE (R90): Get Log Page returns one of the supported log pages. -/
  | getLogPage (fsn : Nat)
  /-- IDENTIFY (R84): Identify returns the structure named by CNS. -/
  | identify (fsn : Nat)
  /-- ABORT (R84): Abort stops a command that has not passed landing commit or media admission. -/
  | abort (fsn : Nat)
  /-- SET_FEATURES (R86): Set Features changes a supported feature within its range. -/
  | setFeatures (fsn : Nat)
  /-- GET_FEATURES (R86): Get Features returns the value of a supported feature. -/
  | getFeatures (fsn : Nat)
  /-- ASYNCHRONOUS_EVENT_REQUEST (R88): An Asynchronous Event Request waits for an enabled event to post. -/
  | asynchronousEventRequest (fsn : Nat)
  /-- NAMESPACE_MANAGEMENT (R140): Namespace Management creates or deletes a namespace with its granules, quota and key slot. -/
  | namespaceManagement (fsn : Nat)
  /-- NAMESPACE_ATTACHMENT (R84): Namespace Attachment attaches or detaches a namespace. -/
  | namespaceAttachment (fsn : Nat)
  /-- FIRMWARE_COMMIT (R473): Firmware Commit checks a package, writes the slot and activates it per its commit action. -/
  | firmwareCommit (fsn : Nat)
  /-- FIRMWARE_IMAGE_DOWNLOAD (R84): Firmware Image Download transfers part of a package. -/
  | firmwareImageDownload (fsn : Nat)
  /-- DEVICE_SELF_TEST (R84): Device Self-test runs a short or extended self-test. -/
  | deviceSelfTest (fsn : Nat)
  /-- DIRECTIVE_SEND (R84): Directive Send handles the Identify directive only. -/
  | directiveSend (fsn : Nat)
  /-- DIRECTIVE_RECEIVE (R84): Directive Receive handles the Identify directive only. -/
  | directiveReceive (fsn : Nat)
  /-- VIRTUALIZATION_MANAGEMENT (R79): Virtualization Management assigns flexible queue pairs and vectors within the limits. -/
  | virtualizationManagement (fsn : Nat)
  /-- NVME_MI_SEND (R84): NVMe-MI Send carries a management command in band. -/
  | nvmeMiSend (fsn : Nat)
  /-- NVME_MI_RECEIVE (R84): NVMe-MI Receive carries a management command in band and returns data. -/
  | nvmeMiReceive (fsn : Nat)
  /-- FORMAT_NVM (R383): Format NVM formats a namespace, with user-data or cryptographic erase. -/
  | formatNvm (fsn : Nat)
  /-- SECURITY_SEND (R394): Security Send carries discovery or SPDM messages. -/
  | securitySend (fsn : Nat)
  /-- SECURITY_RECEIVE (R394): Security Receive returns discovery or SPDM responses. -/
  | securityReceive (fsn : Nat)
  /-- SANITIZE_BLOCK_ERASE (R84): Sanitize with block erase erases all user data. -/
  | sanitizeBlockErase (fsn : Nat)
  /-- SANITIZE_CRYPTO_ERASE (R383): Sanitize with crypto erase replaces every namespace key. -/
  | sanitizeCryptoErase (fsn : Nat)
  /-- PROGRAM_LOAD (R303): Program Load transfers a Wejor container, verifies it and gives it a handle. -/
  | programLoad (fsn : Nat)
  /-- PROGRAM_BIND (R308): Program Bind binds a loaded program to a namespace's scans or a hook. -/
  | programBind (fsn : Nat)
  /-- PROGRAM_UNBIND (R308): Program Bind with UNBIND removes a binding. -/
  | programUnbind (fsn : Nat)
  /-- PROGRAM_REPLACE (R310): Program Replace verifies a new container and replaces a bound program under the same handle. -/
  | programReplace (fsn : Nat)
  /-- PROGRAM_UNLOAD (R311): Program Unload frees a program, forcibly removing its bindings when FORCE is set. -/
  | programUnload (fsn : Nat)
  /-- PROGRAM_INVENTORY_READ (R312): Program Inventory Read returns 64-byte records of the programs the ring may see. -/
  | programInventoryRead (fsn : Nat)
  /-- KEY_BLOB_INSTALL (R386): Key Blob Import with ACTION 0 unwraps a key into a slot. -/
  | keyBlobInstall (fsn : Nat)
  /-- KEY_ROTATION (R381): Key Blob Import with ACTION 1 makes the new key CURRENT and the old one PREVIOUS and sets ROT_WSN. -/
  | keyRotation (fsn : Nat)
  /-- KEY_SLOT_ZEROISE (R386): Key Blob Import with ACTION 2 zeroises and frees a general slot. -/
  | keySlotZeroise (fsn : Nat)
  /-- UNIT_COMMAND (R476): Unit Command carries one command port operation from a PF and returns its result. -/
  | unitCommand (fsn : Nat)
  /-- FLUSH (R117): Flush covers writes completed before its fetch and completes at once or when they are on media. -/
  | flush (fsn : Nat)
  /-- WRITE (R110): Write takes its lock or zone place, reserves landing space and lands its data. -/
  | write (fsn : Nat)
  /-- READ (R107): Read looks up each block and returns its data from the slice or the media. `lost` and `crc` are the blocks, counted from the first, that can be neither decoded nor rebuilt, and that fail the egress CRC. -/
  | read (fsn : Nat) (lost crc : List Nat)
  /-- COMPARE (R85): Compare reads blocks and compares them with host data. -/
  | compare (fsn : Nat) (lost crc : List Nat)
  /-- WRITE_ZEROES (R111): Write Zeroes commits as soon as its lock is granted with its blocks mapped to ZERO. -/
  | writeZeroes (fsn : Nat)
  /-- DATASET_MANAGEMENT (R153): Dataset Management deallocate unmaps whole coarse units and, where the pool allows, partial ones. -/
  | datasetManagement (fsn : Nat)
  /-- VERIFY (R85): Verify reads, decodes and CRC-checks blocks without transfer. -/
  | verify (fsn : Nat) (lost crc : List Nat)
  /-- COPY (R111): Copy reads source ranges into the destination's reserved sectors and commits. -/
  | copy (fsn : Nat) (lost crc : List Nat)
  /-- ZONE_CLOSE (R142): Zone Management Send Close moves an open zone to Closed after earlier writes. -/
  | zoneClose (fsn : Nat)
  /-- ZONE_FINISH (R145): Zone Management Send Finish closes the line's parity and moves the zone to Full. -/
  | zoneFinish (fsn : Nat)
  /-- ZONE_OPEN (R142): Zone Management Send Open explicitly opens a zone. -/
  | zoneOpen (fsn : Nat)
  /-- ZONE_RESET (R146): Zone Management Send Reset sets the write pointer to ZSLBA and unmaps the zone in one cycle. -/
  | zoneReset (fsn : Nat)
  /-- ZONE_OFFLINE (R141): Zone Management Send Offline is refused for one zone and changes nothing with Select All. -/
  | zoneOffline (fsn : Nat)
  /-- ZONE_MANAGEMENT_RECEIVE (R141): Zone Management Receive reports zone states and write pointers. -/
  | zoneManagementReceive (fsn : Nat)
  /-- ZONE_APPEND (R144): Zone Append reserves space in a zone and is given its LBA at landing commit. -/
  | zoneAppend (fsn : Nat)
  /-- SCAN (R313): Scan queues a near-data scan of a namespace under a bound tenant program. -/
  | scan (fsn : Nat)
  /-- SCAN_CANCEL (R318): Scan Cancel ends a named scan at its next step boundary with END 3. -/
  | scanCancel (fsn : Nat)
  /-- CONTROLLER_RESET (R121): Clearing CC.EN aborts every outstanding command of that controller. -/
  | controllerReset (fn : Nat)
  /-- FUNCTION_LEVEL_RESET (R121): A function-level reset aborts the commands of the function and, for a PF, its VFs. -/
  | functionLevelReset (fn : Nat)
  /-- NVM_SUBSYSTEM_RESET (R464): An NVM subsystem reset takes links down and resets every function, keeping engines, DRAM and service level. -/
  | nvmSubsystemReset
  /-- CONTROLLER_SHUTDOWN (R124): CC.SHN completes every outstanding command and then reports shutdown complete. -/
  | controllerShutdown (fn : Nat)
  /-- READ_NVME_MI_DATA_STRUCTURE (R96): The endpoint returns an NVMe-MI data structure. `path` 0 is SMBus, 1 and 2 the PCIe ports' VDM -/
  | readNvmeMiDataStructure (path typ port ctrl : Nat)
  /-- NVM_SUBSYSTEM_HEALTH_STATUS_POLL (R96): The endpoint answers the subsystem health poll from the always-on domain. -/
  | nvmSubsystemHealthStatusPoll (path : Nat) (clear : Bool)
  /-- CONTROLLER_HEALTH_STATUS_POLL (R96): The endpoint reports health of all controllers. -/
  | controllerHealthStatusPoll (path start max : Nat)
  /-- CONFIGURATION_GET (R96): The endpoint returns a management configuration value. -/
  | configurationGet (path id port : Nat)
  /-- CONFIGURATION_SET (R96): The endpoint sets the SMBus frequency, health change or transmission unit. -/
  | configurationSet (path id port val : Nat)
  /-- VPD_READ (R96): The endpoint reads the VPD in MRAM. -/
  | vpdRead (path off len : Nat)
  /-- VPD_WRITE (R96): The endpoint writes the VPD in MRAM. -/
  | vpdWrite (path off : Nat) (data : List Byte)
  /-- NVME_MI_RESET (R96): The NVMe-MI Reset command performs an NVM subsystem reset. -/
  | nvmeMiReset (path : Nat)
  /-- NVME_MI_SHUTDOWN (R189): The NVMe-MI Shutdown command shuts down every controller. -/
  | nvmeMiShutdown (path : Nat)
  /-- ADMIN_COMMAND_TUNNEL (R97): A tunnelled admin command takes an FSN and executes at ring O in FSN order. -/
  | adminCommandTunnel (path fn : Nat) (sqe : Sqe)
  /-- COLD_RESET_CONFIRM (R450): Cold Reset Confirm arms the REG_CYCLE cycle of a halted device with REG_CYCLE wired. -/
  | coldResetConfirm (path : Nat)
  /-- REGISTER_READ (R486): The NVMe-MI Register Read command reads 1 to 64 consecutive internal registers. `sess` is the SPDM session, 0 none -/
  | registerRead (path sess : Nat) (addr : W32) (count : Nat)
  /-- REGISTER_WRITE (R486): The NVMe-MI Register Write command writes one internal register. -/
  | registerWrite (path sess : Nat) (addr val : W32)
  /-- SMBUS_WAKE_PACKET (R99): An MCTP packet to the wake address in PS3 or PS4 starts a wake and is then served. `inEntry` and `ms` as in PS_EXIT -/
  | smbusWakePacket (addr : Nat) (req : MiReq) (inEntry : Bool) (ms : Nat)
  /-- GET_VERSION (R394): SPDM GET_VERSION is answered. -/
  | getVersion
  /-- GET_CAPABILITIES (R394): SPDM GET_CAPABILITIES is answered. -/
  | getCapabilities
  /-- NEGOTIATE_ALGORITHMS (R394): SPDM NEGOTIATE_ALGORITHMS settles ML-DSA-44, ML-KEM-768, SHA3-256 and AES-256-GCM. -/
  | negotiateAlgorithms
  /-- GET_DIGESTS (R394): SPDM GET_DIGESTS returns certificate chain digests. -/
  | getDigests
  /-- GET_CERTIFICATE (R394): SPDM GET_CERTIFICATE returns the DeviceID to Alias chain. -/
  | getCertificate (off len : Nat)
  /-- CHALLENGE (R394): SPDM CHALLENGE is answered with an Alias signature. -/
  | challenge (nonce : List Byte)
  /-- GET_MEASUREMENTS (R394): SPDM GET_MEASUREMENTS returns the measurement records signed over the requester's nonce. -/
  | getMeasurements (nonce : List Byte)
  /-- KEY_EXCHANGE (R394): SPDM KEY_EXCHANGE starts a secured session. -/
  | keyExchange (data : List Byte)
  /-- FINISH (R394): SPDM FINISH completes session establishment. `auth` is the hash of the key that authenticated the requester. -/
  | finish (sess : Nat) (auth : List Byte)
  /-- END_SESSION (R394): SPDM END_SESSION ends a secured session. -/
  | endSession (sess : Nat)
  /-- HEARTBEAT (R394): SPDM HEARTBEAT keeps a session alive. -/
  | heartbeat (sess : Nat)
  /-- KEY_UPDATE (R394): SPDM KEY_UPDATE updates session keys. -/
  | keyUpdate (sess : Nat)
  /-- SET_KIK (R384): The SET_KIK provisioning message installs or replaces the key import key. -/
  | setKik (sess : Nat) (key : List Byte)
  /-- CLEAR_KIK (R384): The CLEAR_KIK provisioning message zeroises the key import key. -/
  | clearKik (sess : Nat)
  /-- SET_OPKH (R384): The SET_OPKH provisioning message sets the operator program key hash. -/
  | setOpkh (sess : Nat) (hash : List Byte)
  /-- GET_STATE (R384): The GET_STATE provisioning message returns SEC_STAT. -/
  | getState (sess : Nat)
  /-- RANGE_LOCK_GRANT (R106): A waiting command is granted all its range-lock entries in FSN order once no conflict remains and entries are free. -/
  | rangeLockGrant (fsn : Nat)
  /-- LANDING_ADMIT (R109): A write is admitted to host DMA once space for all its sectors is reserved in one slice of its quadrant. `seg` and `wr` are what the PLACE_SEG hook (a LUN) and the PLACE_WRITE hook (quadrant, stream) returned. -/
  | landingAdmit (fsn : Nat) (seg : Option Nat) (wr : Option (Nat × Nat))
  /-- LANDING_COMMIT (R110): In the cycle the last sector lands, the WSN is assigned, the map points at the slice, the lock is released and the completion queued. -/
  | landingCommit (fsn : Nat)
  /-- UNIT_HOLD_GRANT (R168): A merged write is granted its unit holds in FSN order and begins its fill reads. -/
  | unitHoldGrant (fsn : Nat)
  /-- JOURNAL_GROUP_CLOSE (R114): Once every sector of a group is programmed, its journal group is written to MRAM and closed with a CRC. `gid` is the journal group that closes. -/
  | journalGroupClose (gid : Nat)
  /-- ENGINE_SWAP (R474): During activation the next engine's image is replaced at a frame boundary once its step and the previous swap end. `faults`: the engine's self-test, or the image it starts, fails -/
  | engineSwap (faults : Bool)
  /-- WARM_RESTART (R463): A package needing reset aborts commands, drains, shuts down cleanly and restarts the core. -/
  | warmRestart
  /-- ZONE_OFFLINING (R158): When SPARE reaches GUARD the device takes Empty zones of the quadrant Offline one at a time. -/
  | zoneOfflining (q : Nat)
  /-- READ_ONLY_TRANSITION (R161): When SPARE falls to FLOOR every namespace becomes read-only at the start of a frame. -/
  | readOnlyTransition (q : Nat)
  /-- FINE_DEMOTION (R169): The ME copies a cold fine record's sectors and commits a coarse entry if unchanged. `unit` is a coarse unit. -/
  | fineDemotion (unit : Nat)
  /-- FOLD (R177): Folding moves SLC program units to their QLC positions when SLC use passes its level. -/
  | fold (q : Nat)
  /-- GC_VICTIM_SELECTION (R180): While free segments are below GC_START the ME chooses a victim through the VICTIM hook or the default. `hook` is what the VICTIM hook returned, none where it trapped. -/
  | gcVictimSelection (q : Nat) (hook : Option Nat)
  /-- GC_COPY (R182): GC copies each valid coarse unit of the victim and commits entries that still name the source. `hook` and `seg` are what the DEST and PLACE_SEG hooks returned; `lost` are the sectors of the unit that cannot be rebuilt. -/
  | gcCopy (unit : Nat) (hook seg : Option Nat) (lost : List Nat)
  /-- VICTIM_ERASE (R183): A victim's chunks are erased once every destination line's parity and GC group has closed. -/
  | victimErase (seg : Nat)
  /-- JOURNAL_PAGE_FLUSH (R187): A whole journal page is copied from the MRAM ring to the flash journal and its ring space freed. -/
  | journalPageFlush
  /-- CHECKPOINT_SWEEP (R188): The device writes every changed map page to the SYS area within each PERIOD and records CKPT records. -/
  | checkpointSweep
  /-- MAP_PAGE_REBUILD (R192): An uncorrectable map page is rebuilt from its checkpoint and later journal records. -/
  | mapPageRebuild (page : Nat)
  /-- REBUILD_BY_SCAN (R193): An unreadable checkpoint page's range is rebuilt by scanning sector metadata for the highest WSN. -/
  | rebuildByScan (q page : Nat)
  /-- LIST_READ (R211): A READ list entry reads codewords from the named planes. `i` is the entry's place in the list. -/
  | listRead (ch i : Nat)
  /-- STREAM_OPEN (R216): A STREAM_OPEN entry opens a streaming read on a LUN. -/
  | streamOpen (ch i : Nat)
  /-- STREAM_EXT (R216): A STREAM_EXT entry reads the next page of the stream. -/
  | streamExt (ch i : Nat)
  /-- STREAM_CLOSE (R216): A STREAM_CLOSE entry closes the stream with 3Fh. -/
  | streamClose (ch i : Nat)
  /-- PROG_SLC (R211): A PROG_SLC entry loads and programs SLC pages from landing sectors. -/
  | progSlc (ch i : Nat)
  /-- PROG_QLC (R211): A PROG_QLC entry loads and programs a 256 KiB QLC unit from landing sectors. -/
  | progQlc (ch i : Nat)
  /-- ERASE_SLC (R252): An ERASE_SLC entry erases an aligned SLC block group after its intent is journaled. -/
  | eraseSlc (ch i : Nat)
  /-- ERASE_QLC (R252): An ERASE_QLC entry erases an aligned QLC block group after its intent is journaled. -/
  | eraseQlc (ch i : Nat)
  /-- GET_FEAT (R200): A GET_FEAT entry reads four die feature bytes. -/
  | getFeat (ch i : Nat)
  /-- SET_FEAT (R200): A SET_FEAT entry writes a die feature with D5h. -/
  | setFeat (ch i : Nat)
  /-- END (R209): An END entry ends the list. -/
  | endEntry (ch : Nat)
  /-- ENTRY_COMPLETION (R213): A list entry completes and writes an 8-byte record to the group's completion ring. `fail` and `die` are what the die reports. -/
  | entryCompletion (ch seq : Nat) (fail : Bool) (die : Nat)
  /-- OPERATION_TIMEOUT (R214): An array operation not ready within twice its charged time completes with TIMEOUT and the LUN is reset. -/
  | operationTimeout (ch seq : Nat)
  /-- CA_PARITY_ERROR (R204): A die reports a discarded CA word and the sequencer resynchronises and reissues the sequence. -/
  | caParityError (ch i : Nat)
  /-- PROGRAM_SUSPEND (R218): The sequencer suspends a running program or erase for an urgent eligible read. `done`: the die finished before it took the suspension. -/
  | programSuspend (ch lun : Nat) (done : Bool)
  /-- SUSPEND_RESUME (R220): The sequencer resumes the suspended operation when the window ends or the reads are done. -/
  | suspendResume (ch lun : Nat)
  /-- RECALIBRATION (R224): A due recalibration runs ZQ short, eye and CA centring on a channel. `shift` and `eye` are what the calibration measured, `moved` that the die temperature has moved by TDELTA since the last one. -/
  | recalibration (ch shift : Nat) (eye moved : Bool)
  /-- RECALIBRATION_START (R482): A write of FCH_CAL.START makes recalibration due on the selected channels. -/
  | recalibrationStart (acc : Acc) (val : W32)
  /-- CODEWORD_DECODE (R233): The decoder finishes a codeword and reports OK, EARLY, FAIL or ERASED in the decode ring. `zeros` counts the zero bits of an erased page, `fixed` the bits the decoder corrected (none: it failed), `iter` its iterations, `erasures` the erased slots of the stripe. -/
  | codewordDecode (ch lun page cw retry tag zeros : Nat) (fixed : Option Nat) (iter erasures : Nat)
  /-- SLC_LINE_CLOSE (R241): An SLC line closes SLC_CLOSE frames after its first unit. -/
  | slcLineClose (q stripe line : Nat)
  /-- CHUNK_RELOCATION (R245): The ME copies a failing chunk's units to a free chunk of the same channel and commits them. `fails` is how many candidates failed. -/
  | chunkRelocation (ch lun chunk fails : Nat) (operator : Bool)
  /-- FLASH_PATROL (R255): Each quadrant patrols every programmed chunk once per LAP days. -/
  | flashPatrol (q : Nat)
  /-- REFRESH (R256): A queued chunk is relocated and erased, or retired when refreshed twice in a lap. -/
  | refresh (ch lun chunk fails : Nat)
  /-- WEAR_LEVEL_CHECK (R257): Every 10 minutes a channel with wear spread above 0.1 offers its least-worn segment as a GC victim. -/
  | wearLevelCheck (q : Nat)
  /-- ADD (R264): ADD writes a + b to d. `e` is the engine index (Table 1.2) that executes it. -/
  | add (e : Nat)
  /-- SUB (R264): SUB writes a − b to d. -/
  | sub (e : Nat)
  /-- AND (R264): AND writes a & b. -/
  | and (e : Nat)
  /-- OR (R264): OR writes a | b. -/
  | or (e : Nat)
  /-- XOR (R264): XOR writes a ^ b. -/
  | xor (e : Nat)
  /-- ANDN (R264): ANDN writes a & ~b. -/
  | andn (e : Nat)
  /-- SLL (R264): SLL shifts a left. -/
  | sll (e : Nat)
  /-- SRL (R264): SRL shifts a right with zero fill. -/
  | srl (e : Nat)
  /-- SRA (R264): SRA shifts a right with sign fill. -/
  | sra (e : Nat)
  /-- ROR (R264): ROR rotates a right. -/
  | ror (e : Nat)
  /-- SLT (R264): SLT sets d to 1 if a < b signed. -/
  | slt (e : Nat)
  /-- SLTU (R264): SLTU sets d to 1 if a < b unsigned. -/
  | sltu (e : Nat)
  /-- MIN (R264): MIN writes the signed minimum. -/
  | min (e : Nat)
  /-- MAX (R264): MAX writes the signed maximum. -/
  | max (e : Nat)
  /-- MINU (R264): MINU writes the unsigned minimum. -/
  | minu (e : Nat)
  /-- MAXU (R264): MAXU writes the unsigned maximum. -/
  | maxu (e : Nat)
  /-- ADDW (R264): ADDW writes the sign-extended 32-bit sum. -/
  | addw (e : Nat)
  /-- SUBW (R264): SUBW writes the sign-extended 32-bit difference. -/
  | subw (e : Nat)
  /-- MUL (R264): MUL writes the low 64 bits of the product. -/
  | mul (e : Nat)
  /-- MULH (R264): MULH writes the high 64 bits of the signed product. -/
  | mulh (e : Nat)
  /-- MULHU (R264): MULHU writes the high 64 bits of the unsigned product. -/
  | mulhu (e : Nat)
  /-- DIV (R265): DIV writes the signed quotient without trapping. -/
  | div (e : Nat)
  /-- DIVU (R265): DIVU writes the unsigned quotient without trapping. -/
  | divu (e : Nat)
  /-- REM (R265): REM writes the signed remainder. -/
  | rem (e : Nat)
  /-- REMU (R265): REMU writes the unsigned remainder. -/
  | remu (e : Nat)
  /-- CLZ (R264): CLZ counts leading zero bits. -/
  | clz (e : Nat)
  /-- CTZ (R264): CTZ counts trailing zero bits. -/
  | ctz (e : Nat)
  /-- POPC (R264): POPC counts set bits. -/
  | popc (e : Nat)
  /-- BSWAP (R264): BSWAP reverses the eight bytes. -/
  | bswap (e : Nat)
  /-- CRC32C (R264): CRC32C updates a CRC-32C state with 8 bytes. -/
  | crc32c (e : Nat)
  /-- ADDI (R264): ADDI adds a sign-extended immediate. -/
  | addi (e : Nat)
  /-- ANDI (R264): ANDI ands a zero-extended immediate. -/
  | andi (e : Nat)
  /-- ORI (R264): ORI ors a zero-extended immediate. -/
  | ori (e : Nat)
  /-- XORI (R264): XORI xors a zero-extended immediate. -/
  | xori (e : Nat)
  /-- SLTI (R264): SLTI compares with a signed immediate. -/
  | slti (e : Nat)
  /-- SLTIU (R264): SLTIU compares with an immediate unsigned. -/
  | sltiu (e : Nat)
  /-- SHI (R264): SHI shifts or rotates by an immediate amount. -/
  | shi (e : Nat)
  /-- LUI (R264): LUI loads a shifted immediate. -/
  | lui (e : Nat)
  /-- SHLORI (R264): SHLORI shifts a left 16 and ors an immediate. -/
  | shlori (e : Nat)
  /-- LB (R266): LB loads a sign-extended byte. -/
  | lb (e : Nat)
  /-- LBU (R266): LBU loads a zero-extended byte. -/
  | lbu (e : Nat)
  /-- LH (R266): LH loads a sign-extended halfword. -/
  | lh (e : Nat)
  /-- LHU (R266): LHU loads a zero-extended halfword. -/
  | lhu (e : Nat)
  /-- LW (R266): LW loads a sign-extended word, also from register space in ring V. -/
  | lw (e : Nat)
  /-- LWU (R266): LWU loads a zero-extended word. -/
  | lwu (e : Nat)
  /-- LD (R266): LD loads a doubleword. -/
  | ld (e : Nat)
  /-- SB (R267): SB stores a byte. -/
  | sb (e : Nat)
  /-- SH (R267): SH stores a halfword. -/
  | sh (e : Nat)
  /-- SW (R267): SW stores a word, also to register space in ring V. -/
  | sw (e : Nat)
  /-- SD (R267): SD stores a doubleword and clears any poison. -/
  | sd (e : Nat)
  /-- BEQ (R268): BEQ branches if a equals b. -/
  | beq (e : Nat)
  /-- BNE (R268): BNE branches if a differs from b. -/
  | bne (e : Nat)
  /-- BLT (R268): BLT branches if a < b signed. -/
  | blt (e : Nat)
  /-- BGE (R268): BGE branches if a >= b signed. -/
  | bge (e : Nat)
  /-- BLTU (R268): BLTU branches if a < b unsigned. -/
  | bltu (e : Nat)
  /-- BGEU (R268): BGEU branches if a >= b unsigned. -/
  | bgeu (e : Nat)
  /-- J (R268): J jumps to pc + 4 × offset. -/
  | j (e : Nat)
  /-- JAL (R268): JAL jumps and writes the link to w31. -/
  | jal (e : Nat)
  /-- JALR (R268): JALR jumps to w[a] and writes the link to d. -/
  | jalr (e : Nat)
  /-- LOOPI (R269): LOOPI sets up a hardware loop with an immediate count. -/
  | loopi (e : Nat)
  /-- LOOP (R269): LOOP sets up a hardware loop with a register count. -/
  | loop (e : Nat)
  /-- SIN (R271): SIN takes 1 to 8 bytes from the input stream. -/
  | sin (e : Nat)
  /-- SOUT (R271): SOUT appends 1 to 8 bytes to the output stream. -/
  | sout (e : Nat)
  /-- SSKIP (R271): SSKIP drops input bytes. -/
  | sskip (e : Nat)
  /-- VAND (R273): VAND ands two vectors. -/
  | vand (e : Nat)
  /-- VOR (R273): VOR ors two vectors. -/
  | vor (e : Nat)
  /-- VXOR (R273): VXOR xors two vectors. -/
  | vxor (e : Nat)
  /-- VANDN (R273): VANDN computes va & ~vb. -/
  | vandn (e : Nat)
  /-- VADD (R273): VADD adds elementwise. -/
  | vadd (e : Nat)
  /-- VSUB (R273): VSUB subtracts elementwise. -/
  | vsub (e : Nat)
  /-- VMINU (R273): VMINU takes the unsigned elementwise minimum. -/
  | vminu (e : Nat)
  /-- VMAXU (R273): VMAXU takes the unsigned elementwise maximum. -/
  | vmaxu (e : Nat)
  /-- VCMPEQ (R273): VCMPEQ sets elements equal in both vectors to all ones. -/
  | vcmpeq (e : Nat)
  /-- VCMPGTU (R273): VCMPGTU compares elements unsigned. -/
  | vcmpgtu (e : Nat)
  /-- VCMPGT (R273): VCMPGT compares elements signed. -/
  | vcmpgt (e : Nat)
  /-- VSHUF (R273): VSHUF shuffles bytes by an index vector. -/
  | vshuf (e : Nat)
  /-- VBSL (R273): VBSL selects bits under a mask. -/
  | vbsl (e : Nat)
  /-- VSPLAT (R273): VSPLAT replicates a scalar element. -/
  | vsplat (e : Nat)
  /-- VMOVW (R273): VMOVW moves a doubleword lane to a w register. -/
  | vmovw (e : Nat)
  /-- VINS (R273): VINS inserts a w register into a doubleword lane. -/
  | vins (e : Nat)
  /-- VMASK (R273): VMASK gathers the top bits of each byte. -/
  | vmask (e : Nat)
  /-- VPOPC (R273): VPOPC counts set bits of a vector. -/
  | vpopc (e : Nat)
  /-- VFIRST (R273): VFIRST finds the first byte with its top bit set. -/
  | vfirst (e : Nat)
  /-- VCRC (R273): VCRC updates a CRC-32C state with 32 bytes. -/
  | vcrc (e : Nat)
  /-- VLD (R273): VLD loads 32 aligned bytes. -/
  | vld (e : Nat)
  /-- VST (R273): VST stores 32 aligned bytes. -/
  | vst (e : Nat)
  /-- VSIN (R273): VSIN takes 32 bytes from the input stream. -/
  | vsin (e : Nat)
  /-- VSOUT (R273): VSOUT appends 32 bytes to the output. -/
  | vsout (e : Nat)
  /-- VSOUTM (R273): VSOUTM appends the masked bytes of a vector. -/
  | vsoutm (e : Nat)
  /-- YIELD (R287): YIELD ends the step, performs its transfers, releases its output and returns to ring V. -/
  | yield (e : Nat)
  /-- EXIT (R287): EXIT ends the invocation with its result. -/
  | exit (e : Nat)
  /-- BALUF_FENCE (R283): FENCE waits until every earlier store and transfer is visible to every engine. -/
  | balufFence (e : Nat)
  /-- XWAIT (R282): XWAIT performs the pending transfers and waits for them. -/
  | xwait (e : Nat)
  /-- ENTER (R286): ENTER switches to the program bank at PRING and starts a step. -/
  | enter (e : Nat)
  /-- TRET (R292): TRET returns from a ring V trap. -/
  | tret (e : Nat)
  /-- MFP (R262): MFP reads a program-bank register. -/
  | mfp (e : Nat)
  /-- MTP (R262): MTP writes a program-bank register. -/
  | mtp (e : Nat)
  /-- XFER (R281): XFER queues a copy between local memory and DRAM for the step's end. -/
  | xfer (e : Nat)
  /-- CAS (R283): CAS compares and swaps 8 bytes atomically. -/
  | cas (e : Nat)
  /-- AMOADD (R283): AMOADD adds to 8 bytes atomically. -/
  | amoadd (e : Nat)
  /-- CSRR (R293): CSRR reads a CSR permitted to the ring. -/
  | csrr (e : Nat)
  /-- CSRW (R293): CSRW writes a CSR permitted to the ring. -/
  | csrw (e : Nat)
  /-- SCAN_RESIDENT (R315): A queued scan becomes resident on its FE once a region and SCRATCH quota are free. -/
  | scanResident (fsn : Nat)
  /-- SCAN_STEP (R316): A resident scan's INIT, SLAB or FINAL step is entered when admitted and its slab is ready. `lost` and `crc` are the blocks of the slab that cannot be rebuilt and that fail the egress CRC. -/
  | scanStep (fsn : Nat) (lost crc : List Nat)
  /-- QOS_HOOK (R319): Every QOS_PER periods the QOS hook runs and its weights are applied on result 0. `res` is the hook's answer: its count and the tenants and weights it names; none where it trapped. -/
  | qosHook (res : Option (Nat × List (Nat × Nat)))
  /-- HOOK_DEADLINE_MISS (R320): A hook that misses its deadline takes its default and raises LATE. -/
  | hookDeadlineMiss (hook q : Nat)
  /-- SRAM_PATROL (R340): The patrol reads every word of every powered SRAM bank once per SRAM_LAP. -/
  | sramPatrol
  /-- DRAM_PATROL (R340): The patrol reads every DRAM word once per DRAM_LAP. -/
  | dramPatrol
  /-- DECLARE (R334): A write of MEMP_DEV_CFG.DECLARE declares a DDR5 device failed. `val` is the word written to MEMP_DEV_CFG. -/
  | declare (val : W32)
  /-- HARD_FAULT_REPAIR (R338): A word reaching three corrections is repaired by a spare row or withheld for post-package repair. `entry` is the repeat table's entry. -/
  | hardFaultRepair (entry : Nat)
  /-- PASS_START (R342): A write of MEMP_PASS_CTL.START starts an on-demand pass or is rejected. -/
  | passStart
  /-- PASS_STOP (R342): A write of MEMP_PASS_CTL.STOP ends the running pass with CODE STOPPED. -/
  | passStop
  /-- PASS_DONE (R342): An on-demand pass ends and raises PASS_DONE with its summary. -/
  | passDone
  /-- FLIP_ARM (R345): A write of MEMP_FLIP_CTL.ARM arms the flip masks for the next write to the target. -/
  | flipArm
  /-- DRAM_REQUEST (R353): A request to DRAM enters its QoS port and is issued by urgency, port virtual time and age. `ns` nanoseconds pass; `req` is an arriving request (port, DRAM offset, 64-byte lines, tenant); `slot` is a subchannel whose bus then takes its next request. -/
  | dramRequest (ns : Nat) (req : Option (Nat × Nat × Nat × Nat)) (slot : Option Nat)
  /-- DRAM_REFRESH (R355): A due all-bank refresh is issued, postponed under urgency, or forced at 8 owed. -/
  | dramRefresh (sub rank : Nat)
  /-- SELF_REFRESH_ENTRY (R357): A subchannel idle for SR_IDLE frames or entering PS4 repays refreshes and enters self-refresh. -/
  | selfRefreshEntry (sub : Nat)
  /-- SET_POINT_REQUEST (R361): A write of DRC_FSP.TARGET requests a DRAM set point. `val` is the word written to DRC_FSP. -/
  | setPointRequest (val : W32)
  /-- SET_POINT_CHANGE (R361): The subchannels switch set point one at a time and raise FSP_DONE. -/
  | setPointChange
  /-- DRAM_TRACKING (R362): Every PERIOD ms each subchannel moves its delays one step toward the measured centre. `centres` are the measured write and read centres, strobe by strobe. -/
  | dramTracking (sub : Nat) (centres : List (Nat × Nat))
  /-- POST_PACKAGE_REPAIR (R363): At a bank quiesce the controller repairs a row by soft post-package repair. `ok` is whether the device took the repair. -/
  | postPackageRepair (ok : Bool)
  /-- EVACUATION_START (R364): A write of DRC_EVAC.START, or a second failed device, starts evacuation of a subchannel. `val` is the word written to DRC_EVAC, none where the controller starts it. -/
  | evacuationStart (val : Option W32)
  /-- EVAC_DONE (R367): When the last staged chunk is written the subchannel leaves the interleave and is retired. -/
  | evacDone
  /-- CIPHER_JOB (R375): A queued cipher job takes the first free pipeline by priority. `done` are the pipelines whose jobs ended, `job` a new job (priority, slot, blocks), `blk` and `stall` the blocks a suspended job had done and the cycles it stalled. -/
  | cipherJob (cc : Nat) (done : List Nat) (job : Option JobIn) (blk stall : Nat)
  /-- KNOWN_ANSWER_TEST (R371): Each second each pipeline runs XTS, GCM and KW known-answer tests and is fenced on failure. -/
  | knownAnswerTest (cc pipe : Nat) (pass : Bool)
  /-- DRBG_RESEED (R373): After 4,096 generate requests the DRBG reseeds from the entropy source. -/
  | drbgReseed (cc : Nat)
  /-- ENTROPY_BLOCK (R374): An entropy block is health-tested and discarded with TRNG_BAD on failure. `pass` is the outcome of the block's health tests. -/
  | entropyBlock (cc : Nat) (pass : Bool)
  /-- REKEY_PASS (R382): A rotating conventional namespace's old sectors are rewritten under CURRENT and PREVIOUS zeroised. -/
  | rekeyPass (nsid : Nat)
  /-- ALARM (R388): An alarm source stops the clusters, zeroises the keys and raises F3. `src` holds the sources as SEC_ALARM.SRC has them. -/
  | alarm (src : Nat)
  /-- FORCE (R387): A write of SEC_ALARM_CTL.FORCE raises the SOFT alarm. -/
  | force (acc : Acc) (val : W32)
  /-- RAISE (R392): A write of SEC_SVN_CTL.RAISE raises the fused counters to the running images' SVNs. -/
  | raise (val : W32)
  /-- REVOKE (R392): A write of SEC_REVOKE blows a vendor key revoke fuse. -/
  | revoke (acc : Acc) (val : W32)
  /-- START_UP (R471): The core leaves reset and the service engines boot, train and load the device. -/
  | startUp (i : StartIn)
  /-- BROWN_OUT (R399): A rail leaving its range holds the core in reset without a drain. -/
  | brownOut
  /-- REFCLK_LOSS (R507): A REFCLK outside ±1 % for 2 us or longer is treated as a brown-out. -/
  | refclkLoss
  /-- DROWSE_ENTRY (R402): A group idle for IDLE frames with AUTO set drowses. -/
  | drowseEntry (group : Nat)
  /-- GROUP_WAKE (R403): Work or a power request for a drowsing group wakes it and restarts its channels. `bad` are the LUNs that fail PING; `inEntry` is whether the wake met an entry under way. -/
  | groupWake (group : Nat) (bad : List (Nat × Nat)) (inEntry : Bool)
  /-- AUTONOMOUS_POWER_STATE_TRANSITION (R406): When PWR_IDLE reaches the idle time the device enters the target non-operational state. -/
  | autonomousPowerStateTransition
  /-- POWER_STATE_EXIT (R408): PCIe activity, an SMBus wake packet or WAKE_N wakes the device from PS3 or PS4. `src` 0 and 1 are the ports, 2 the SMBus wake address, 3 WAKE_N; `ms` operating milliseconds passed in PS4. -/
  | powerStateExit (src : Nat) (inEntry : Bool) (ms : Nat)
  /-- HOUSEKEEPING_EXCURSION (R407): In permissive mode the device leaves its non-operational state every PERIOD minutes to run housekeeping. -/
  | housekeepingExcursion
  /-- PFAIL (R411): PFAIL_N low for at least 1 us commits the device to a drain. -/
  | pfail
  /-- POWER_RESTART (R412): After a drain, PFAIL_N high for 100 ms with rails in range restarts the device. -/
  | powerRestart
  /-- HOLD_UP_TEST (R414): Every PERIOD hours a hold-up test asserts HU_TEST_N and watches the bank voltage fall. -/
  | holdUpTest
  /-- HOLD_UP_TEST_START (R414): A write of PWR_HU_CTL.START runs a hold-up test now. -/
  | holdUpTestStart
  /-- HOLD_UP_TEST_END (R414): A hold-up test ends, computes capacitance and hold time, and judges health. -/
  | holdUpTestEnd
  /-- HOLD_UP_VOLTAGE_LOW (R416): The bank voltage below the last test's final value for 125 frames judges hold-up degraded. -/
  | holdUpVoltageLow
  /-- POWER_MEAN_CHECK (R428): Every 125 frames a mean input power above the cap plus TOL raises OVER. -/
  | powerMeanCheck
  /-- THERMAL_LOOP (R432): Every second SE1 lowers or raises the thermal cap from the temperature error. -/
  | thermalLoop
  /-- GOVERNOR_FALLBACK (R435): At the eighth consecutive missed publish the scheduler uses the fallback budget. -/
  | governorFallback
  /-- FALLBACK_EXIT (R435): After 125 on-time publishes fallback ends with integrators zeroed and a ramp. -/
  | fallbackExit
  /-- GOVERNOR_REVERT (R436): A residual or saturation lasting 125 frames reloads the default matrix. -/
  | governorRevert
  /-- SWAP (R437): PWR_GOV_CTL.SWAP copies the shadow matrix into the active bank at the next step 3. -/
  | swap
  /-- SAVE (R437): PWR_GOV_CTL.SAVE writes the active matrix to MRAM. -/
  | save
  /-- DEFAULT (R437): PWR_GOV_CTL.DEFAULT loads the OEM default matrix into the shadow bank. -/
  | matDefault
  /-- TRACE_START (R438): A write of PWR_TRC_CTL.START arms or restarts the trace capture. -/
  | traceStart
  /-- TRACE_STOP (R438): A write of PWR_TRC_CTL.STOP forces the trigger. -/
  | traceStop
  /-- TRC_DONE (R438): After 4,096 − PRE further samples the capture stops and raises TRC_DONE. -/
  | trcDone
  /-- FAULT_COLLECT (R444): The fault collector takes an event and applies its class outcomes. -/
  | faultCollect
  /-- FAULT_PULSE_END (R445): The FAULT_N pulse ends and the pin follows HOLD. -/
  | faultPulseEnd
  /-- JUNCTION_OVER_TEMPERATURE (R442): A sensor above TJ_F2 for 125 frames or TJ_F3 for 1,250 frames raises 0x0210 or 0x0306. Die sensors 0 to 3 lie in the quadrants, sensor 4 in the front end. -/
  | junctionOverTemperature (sensor : Nat)
  /-- REG_CYCLE_ASSERT (R450): With the confirm armed and PERST0# low for 100 ms the device asserts REG_CYCLE. -/
  | regCycleAssert
  /-- REG_CYCLE_RELEASE (R450): After WIDTH ms REG_CYCLE is released and the arm cleared. -/
  | regCycleRelease
  /-- COLD_RESET_ARM_EXPIRY (R450): An armed confirm not used within 10 s lapses. -/
  | coldResetArmExpiry
  /-- DEVICE_TIME_MARK (R451): When operating milliseconds reach the last mark a new mark is written 1,000 ms ahead. -/
  | deviceTimeMark
  /-- LOG_RECORD_SUBMIT (R455): A write of LOG_WCTL.GO submits LOG_WBUF as a logbook record or drops it. `val` is the word written to LOG_WCTL. -/
  | logRecordSubmit (acc : Acc) (val : W32)
  /-- REPEAT_RECORD (R454): At the end of each second a REPEAT record counts F0 events beyond the rate limit. -/
  | repeatRecord
  /-- HEALTH_EVALUATION (R459): Every operating hour SE2 evaluates the 15 monitors and the device EOL. `ring` is the slowdown d of the worst ring-oscillator pair of each quadrant, in 1/2^32. -/
  | healthEvaluation (ring : List Int)
  /-- LOG_RD_DATA_READ (R458): A read of LOG_RD_DATA returns four ring bytes and advances LOG_RD_OFF by 4. -/
  | logRdDataRead (acc : Acc)
  /-- LEVEL_RISE (R468): When a level's conditions hold the service level rises and event 0x01 is posted. `step` is 1 Tin, 2 Bronze, 3 writes accepted, 4 Steel. -/
  | levelRise (step : Nat)
  /-- LEVEL_BOUND_MISSED (R470): A level not reached within its bound raises LATE_BRONZE or LATE_STEEL. -/
  | levelBoundMissed
  /-- RETIRE_CLEAR (R481): A write of SYS_RETIRE_CLR.GO removes a unit's RETIRED record for the next start-up. -/
  | retireClear (acc : Acc) (unit : Nat)
  /-- BYPASS (R509): The JTAG BYPASS instruction selects the bypass register. -/
  | bypass
  /-- IDCODE (R509): The JTAG IDCODE instruction returns the device identification code. -/
  | idcode
  /-- SAMPLE_PRELOAD (R509): The JTAG SAMPLE/PRELOAD instruction samples the pins without disturbing them. `pins` is what PRELOAD shifts in. -/
  | samplePreload (pins : List (Nat × Bool))
  /-- EXTEST (R509): The JTAG EXTEST instruction drives the pins only while TEST_EN holds the core in reset. `pins` is what the boundary register holds. -/
  | extest (pins : List (Nat × Bool))
  /-- EXTEST_PULSE (R509): The JTAG EXTEST_PULSE instruction tests AC-coupled lanes while TEST_EN holds reset. `pins` is what the boundary register holds. -/
  | extestPulse (pins : List (Nat × Bool))
  /-- EXTEST_TRAIN (R509): The JTAG EXTEST_TRAIN instruction tests AC-coupled lanes with a pulse train while TEST_EN holds reset. `pins` is what the boundary register holds. -/
  | extestTrain (pins : List (Nat × Bool))
  /-- CLAMP (R509): The JTAG CLAMP instruction holds the pins while TEST_EN holds reset. -/
  | clamp
  /-- HIGHZ (R509): The JTAG HIGHZ instruction floats the pins while TEST_EN holds reset. -/
  | highz
  /-- DEBUG_ACCESS_PORT (R486): The JTAG debug access port reaches the registers kept readable during a halt, as the management path. a write where `val` gives a value, else a read -/
  | debugAccessPort (addr : W32) (val : Option W32)
  /-- WAKE_N_DEASSERT (R410): WAKE_N going high lets idleness count again and enters a PS3 or PS4 state that the host set while WAKE_N was low. -/
  | wakeNDeassert
  /-- VDD_AON_LOSS (R451): Loss of VDD_AON stops the operating-millisecond count so that it resumes at the MRAM mark, loses the trace buffers, and releases an asserted REG_CYCLE. -/
  | vddAonLoss
  /-- MR4_READ (R355): At least every 32 ms the controller reads MR4 and halves or restores the refresh interval, setting or clearing DRC_SC_STAT.HOT. `hot` is what MR4 says: above 85 degrees C. -/
  | mr4Read (sub : Nat) (hot : Bool)
  /-- CONTROLLER_ENABLE (R78): A host write setting CC.EN enables a function's controller and its admin queue, so HIF_FN_STAT.EN reads 1. -/
  | controllerEnable (fn sqSize cqSize : Nat)
  /-- MALFORMED_MCTP_PACKET (R95): An MCTP packet that fails its integrity check or is malformed is discarded and raises HIF_EVT.MI_ERR. -/
  | malformedMctpPacket
  /-- EVACUATION_FIRST_PHASE_END (R365): The first phase of an evacuation ends, either starting the chunk copy or ending with NOSPACE and its MRAM record removed. -/
  | evacuationFirstPhaseEnd
  deriving DecidableEq, Repr

end Sys2Proof
end

