-- ==== Sys2Proof/Config.lean ====
section
/-! DEFINITION. What an implementation fixes and what the spec leaves open: fuse and OEM values, cryptographic
primitives, and the free values. Each is an opaque constant: no proof can see what it is. -/
namespace Sys2Proof

/-- SYS_ID_MAJOR, from the on-die fuses (R10). -/
opaque Config.fuseSYSIDMAJOR : Nat
/-- SYS_ID_MINOR, from the on-die fuses (R10). -/
opaque Config.fuseSYSIDMINOR : Nat
/-- PWR_HU_BRD0_VMIN, from the OEM configuration block (R10). -/
opaque Config.oemPWRHUBRD0VMIN : Nat
/-- PWR_HU_BRD0_ITEST, from the OEM configuration block (R10). -/
opaque Config.oemPWRHUBRD0ITEST : Nat
/-- PWR_HU_BRD1_EFF, from the OEM configuration block (R10). -/
opaque Config.oemPWRHUBRD1EFF : Nat
/-- PWR_GOV_CAP_BOARD, from the OEM configuration block (R10). -/
opaque Config.oemPWRGOVCAPBOARD : Nat
/-- PWR_GOV_NOTCH_EN, from the OEM configuration block (R10). -/
opaque Config.oemPWRGOVNOTCHEN : Nat
/-- PWR_GOV_NOTCH_Q, from the OEM configuration block (R10). -/
opaque Config.oemPWRGOVNOTCHQ : Nat
/-- PWR_GOV_NOTCH_F0, from the OEM configuration block (R10). -/
opaque Config.oemPWRGOVNOTCHF0 : Nat
/-- FLT_REGC_WIRED, from the OEM configuration block (R10). -/
opaque Config.oemFLTREGCWIRED : Nat
/-- DRC_SC_CFG_RDIMM, from the OEM configuration block (R10). -/
opaque Config.oemDRCSCCFGRDIMM : Nat
/-- DRC_SC_CFG_RANKS, from the OEM configuration block (R10). -/
opaque Config.oemDRCSCCFGRANKS : Nat
/-- DRC_SC_CFG_DENSITY, from the OEM configuration block (R10). -/
opaque Config.oemDRCSCCFGDENSITY : Nat
/-- SEC_STAT_POKH, from the on-die fuses (R10). -/
opaque Config.fuseSECSTATPOKH : Nat
/-- SEC_STAT_REVOKED, from the on-die fuses (R10). -/
opaque Config.fuseSECSTATREVOKED : Nat

/-- The fields of CAP that the spec does not give (Table 3.1, Table 3.4). -/
opaque Config.capRest : Nat

/-- The SMBus address in the OEM configuration block, 0 where the block leaves it unset (R95). -/
opaque Config.oemSmbus : Nat
/-- The SMBus address of the management endpoint (R95). -/
def Config.smbusAddr : Nat := if Config.oemSmbus % 128 = 0 then 0x1D else Config.oemSmbus % 128
/-- The wake address in the OEM configuration block, 0 where the block leaves it unset (Table 3.15). -/
opaque Config.oemWake : Nat
/-- HIF_MI_CFG_WAKE_ADDR at reset: the SMBus address where the OEM configuration block leaves it unset (R10, Table 3.15). -/
def Config.oemHIFMICFGWAKEADDR : Nat := if Config.oemWake % 128 = 0 then Config.smbusAddr else Config.oemWake % 128

/-- PF0's TotalVFs in the split configuration, from the OEM configuration block (R78). -/
opaque Config.pf0Vfs : Nat

/-- Factory fuse entries, as 8-byte numbers, and how many there are (R336, R339). -/
opaque Config.factoryFuse : Nat → Nat
opaque Config.factoryFuses : Nat

/-- The n-th value drawn from the DRBG (R372). -/
opaque Config.drbg : Nat → Nat

/-- Fused SVN counters per engine kind at manufacture: 0 SE, 1 HE, 2 ME, 3 FE (R392). -/
opaque Config.fuseSvn : Nat → Nat

/-- The fused vendor key hashes VPKH0 to VPKH3 (R390). -/
opaque Config.vpkh : Nat → List Byte

/-- The fused provisioning key hash POKH (R384). -/
opaque Config.pokh : List Byte

/-- The package manufactured in firmware slot 1, which is read-only (Table 3.2, R390, R472). -/
opaque Config.factoryPkg : List Byte

/-- SHA3-256 (FIPS 202): uninterpreted. -/
opaque Config.sha3 : List Byte → List Byte

/-- ML-DSA-44 verification (FIPS 204) of a signature over a digest under a public key: uninterpreted. -/
opaque Config.mldsa : List Byte → List Byte → List Byte → Bool

/-- KMAC256 (SP 800-185) of a key, a message and a customisation string, with 256 bits of output (R393): uninterpreted. -/
opaque Config.kmac : List Byte → List Byte → List Byte → List Byte

/-- The ML-DSA-44 public key of the key pair generated from a seed, and the signature over a digest with its private key (R393, FIPS 204):
uninterpreted. -/
opaque Config.mldsaPub : List Byte → List Byte
opaque Config.mldsaSign : List Byte → List Byte → List Byte

/-- The fused unique device secret UDS (R389). -/
opaque Config.uds : List Byte

/-- The DeviceID certificate that Tuivia issued at manufacture (R393). -/
opaque Config.deviceCert : List Byte

/-- The part to be signed of an X.509 certificate of a public key with M0 and M1 in an extension, and the certificate of a signed part
and its signature (R393): the spec does not lay them out. -/
opaque Config.x509Body : List Byte → List Byte → List Byte → List Byte
opaque Config.x509 : List Byte → List Byte → List Byte

/-- Digest of the OEM configuration block (Table 13.10). -/
opaque Config.oemDigest : List Byte

/-- AES-256-GCM decryption under key material, IV, additional data, ciphertext and tag: the plaintext when the tag
passes (R302, R385): uninterpreted. -/
opaque Config.gcmOpen : Nat → List Byte → List Byte → List Byte → List Byte → Option (List Byte)

/-- AES-256-XTS of a sector under key material, by its tweak (R369, IEEE 1619): uninterpreted. -/
opaque Config.xts : Nat → Nat → List Byte → List Byte

/-- AES-KW unwrap (SP 800-38F) under key material: the plaintext when the integrity check passes (R385). -/
opaque Config.kwUnwrap : Nat → List Byte → Option (List Byte)

/-- The ring-oscillator slowdown at which an engine's ageing limit is reached, in 1/2^32 (R459). -/
opaque Config.dLim : Nat

/-- The manufacturer code of the JTAG identification code (R509). -/
opaque Config.jtagMaker : Nat

/-- The OEM default matrix of the governor, entry 12 x row + column as a 32-bit word (R422, Table 15.3). -/
opaque Config.oemMatrix : Nat → Nat

/-- The notch coefficients b0 (= b2), b1 (= a1) and a2 as Q16.16 numbers for a PWR_GOV_NOTCH word (R424): real numbers
whose rounding the spec does not state. -/
opaque Config.notchCoef : Nat → Nat → Int

/-- Bit n of the 15-bit maximal-length PRBS (R439): the spec does not state its polynomial. -/
opaque Config.prbs : Nat → Bool

/-- The set of the map cache's line store that holds a line (R172): the spec does not state the mapping. -/
opaque Config.mapSet : Nat → Nat

/-- Byte `i` of the free value number `n`: what the spec leaves undefined where bytes result. -/
opaque Config.freeByte : Nat → Nat → Byte
/-- The free value number `n` where a number results. -/
opaque Config.freeNat : Nat → Nat

end Sys2Proof
end

