-- ==== Sys2Proof/Machine/SMap.lean ====
section
/-! DEFINITION. Finite maps from natural numbers, as plain data in one canonical form: keys strictly rising, and no
entry equal to what an unlisted key reads as (the default its reader and writer name). Every register field, memory,
table and ledger of the model is held in one of these. -/
namespace Sys2Proof.Machine

/-- A sparse map: the listed keys in rising order. -/
structure SMap (α : Type) where
  items : List (Nat × α) := []
  deriving DecidableEq, Repr

/-- The value listed at a key. -/
def lookupL {α : Type} (k : Nat) : List (Nat × α) → Option α
  | [] => none
  | (k', v) :: t => if k = k' then some v else lookupL k t

/-- List a value at a key, keeping the order. -/
def insertL {α : Type} (k : Nat) (v : α) : List (Nat × α) → List (Nat × α)
  | [] => [(k, v)]
  | (k', v') :: t =>
    if k = k' then (k, v) :: t else if k < k' then (k, v) :: (k', v') :: t else (k', v') :: insertL k v t

/-- Remove a key. -/
def eraseL {α : Type} (k : Nat) : List (Nat × α) → List (Nat × α)
  | [] => []
  | (k', v') :: t => if k = k' then eraseL k t else (k', v') :: eraseL k t

/-- The listed value of a key, if any. -/
def SMap.find {α : Type} (m : SMap α) (k : Nat) : Option α := lookupL k m.items

/-- What a key reads as: its listed value, else the default. -/
def SMap.get {α : Type} (m : SMap α) (d : α) (k : Nat) : α := (m.find k).getD d

/-- List a value. -/
def SMap.put {α : Type} (m : SMap α) (k : Nat) (v : α) : SMap α := ⟨insertL k v m.items⟩

/-- Unlist a key. -/
def SMap.del {α : Type} (m : SMap α) (k : Nat) : SMap α := ⟨eraseL k m.items⟩

/-- Write a key: the default value removes the entry, so that equal maps are equal data. -/
def SMap.set {α : Type} [DecidableEq α] (m : SMap α) (d : α) (k : Nat) (v : α) : SMap α :=
  if v = d then m.del k else m.put k v

/-- Read, change and write back one key. -/
def SMap.upd {α : Type} [DecidableEq α] (m : SMap α) (d : α) (k : Nat) (f : α → α) : SMap α :=
  m.set d k (f (m.get d k))

/-- Keep the entries whose key satisfies a test. -/
def SMap.keep {α : Type} (m : SMap α) (p : Nat → Bool) : SMap α := ⟨m.items.filter (fun e => p e.1)⟩

/-- Keep the entries whose key and value satisfy a test. -/
def SMap.keepKV {α : Type} (m : SMap α) (p : Nat → α → Bool) : SMap α := ⟨m.items.filter (fun e => p e.1 e.2)⟩

/-- Change every listed value. -/
def SMap.mapV {α : Type} (m : SMap α) (f : Nat → α → α) : SMap α := ⟨m.items.map (fun e => (e.1, f e.1 e.2))⟩

/-- The listed keys. -/
def SMap.keys {α : Type} (m : SMap α) : List Nat := m.items.map (·.1)

/-- The listed values. -/
def SMap.vals {α : Type} (m : SMap α) : List α := m.items.map (·.2)

/-- How many entries are listed. -/
def SMap.size {α : Type} (m : SMap α) : Nat := m.items.length

/-- Keys strictly rising. -/
def risingL {α : Type} : List (Nat × α) → Bool
  | [] => true
  | [_] => true
  | (a, _) :: (b, v) :: t => decide (a < b) && risingL ((b, v) :: t)

/-- The canonical form for a default: keys strictly rising, no entry equal to the default. -/
def SMap.wf {α : Type} [DecidableEq α] (m : SMap α) (d : α) : Bool :=
  risingL m.items && m.items.all (fun e => decide (e.2 ≠ d))

/-- Write a list of consecutive values from a key upwards. -/
def SMap.setRange {α : Type} [DecidableEq α] (m : SMap α) (d : α) (k : Nat) : List α → SMap α
  | [] => m
  | v :: t => (m.set d k v).setRange d (k + 1) t

/-- Read `n` consecutive values from a key upwards. -/
def SMap.getRange {α : Type} (m : SMap α) (d : α) (k n : Nat) : List α :=
  (List.range n).map (fun i => m.get d (k + i))

/-- The same change at each of a list of keys. -/
def SMap.setAll {α : Type} [DecidableEq α] (m : SMap α) (d : α) (ks : List Nat) (v : α) : SMap α :=
  ks.foldl (fun m k => m.set d k v) m

end Sys2Proof.Machine
end

