-- ==== Sys2Proof/Machine/RegTable.lean ====
section
/-! DEFINITION. The register field maps of the spec: one constant per field of every register of Table 18.5
(address, bits, type of Table 0.3, source of the reset value, reset value, range whose breach drops the write), and
the table of registers. Written from the register tables of the chapters that Table 18.5 names. -/
namespace Sys2Proof.Machine

/-- Register field types (R6, Table 0.3). -/
inductive FTy | ro | rw | w1c | w1s | rc | wo
  deriving DecidableEq, Repr

/-- Where a field's reset value comes from (R10, R491): `unit` values are presented by the unit itself. -/
inductive Src | silicon | fuse | oem | mram | unit
  deriving DecidableEq, Repr

/-- One field of one register: address, bits, type, source and value of reset, and the range that drops a write. -/
structure Fld where
  reg : Nat
  hi : Nat
  lo : Nat
  ty : FTy
  src : Src
  reset : Nat
  lim : Option (Nat × Nat)
  deriving DecidableEq, Repr

/-- Width of a field in bits: a field lies within the 32 bits of its register (R4). -/
def Fld.width (f : Fld) : Nat := min f.hi 31 + 1 - f.lo

/-- The same field of the register `4 * i` bytes further on (register arrays). -/
def Fld.at (f : Fld) (i : Nat) : Fld := { f with reg := f.reg + 4 * i }

/-- One register of Table 18.5: its address, whether it is held per accessor (R487), its fields. -/
structure Reg where
  addr : Nat
  per : Bool
  flds : List Fld
  deriving DecidableEq, Repr

def F.SYS_ID_PART : Fld := ⟨0, 31, 16, .ro, .silicon, 296, none⟩
def F.SYS_ID_MAJOR : Fld := ⟨0, 7, 4, .ro, .fuse, (Config.fuseSYSIDMAJOR % 16), none⟩
def F.SYS_ID_MINOR : Fld := ⟨0, 3, 0, .ro, .fuse, (Config.fuseSYSIDMINOR % 16), none⟩
def F.SYS_UNIT_SEL_UNIT : Fld := ⟨256, 15, 0, .rw, .silicon, 0, none⟩
def F.SYS_UNIT_DESC_ADDR : Fld := ⟨260, 31, 16, .ro, .unit, 0, none⟩
def F.SYS_UNIT_DESC_CHILDREN : Fld := ⟨260, 15, 8, .ro, .unit, 0, none⟩
def F.SYS_UNIT_DESC_OWNPWR : Fld := ⟨260, 4, 4, .ro, .unit, 0, none⟩
def F.SYS_UNIT_DESC_IFVER : Fld := ⟨260, 3, 0, .ro, .silicon, 1, none⟩
def F.SYS_UNIT_STAT_SERVER : Fld := ⟨264, 27, 16, .ro, .unit, 0, none⟩
def F.SYS_UNIT_STAT_CHILD_UP : Fld := ⟨264, 15, 8, .ro, .unit, 0, none⟩
def F.SYS_UNIT_STAT_CLK_ON : Fld := ⟨264, 7, 7, .ro, .silicon, 1, none⟩
def F.SYS_UNIT_STAT_PWR_ON : Fld := ⟨264, 6, 6, .ro, .silicon, 1, none⟩
def F.SYS_UNIT_STAT_BUSY : Fld := ⟨264, 5, 5, .ro, .silicon, 0, none⟩
def F.SYS_UNIT_STAT_ADOPTED : Fld := ⟨264, 4, 4, .ro, .silicon, 0, none⟩
def F.SYS_UNIT_STAT_STATE : Fld := ⟨264, 2, 0, .ro, .silicon, 2, none⟩
def F.SYS_UNIT_ERR_SUB : Fld := ⟨268, 11, 8, .ro, .silicon, 0, none⟩
def F.SYS_UNIT_ERR_FENCED_BELOW : Fld := ⟨268, 4, 4, .ro, .silicon, 0, none⟩
def F.SYS_UNIT_ERR_OWN_F3 : Fld := ⟨268, 3, 3, .ro, .silicon, 0, none⟩
def F.SYS_UNIT_ERR_OWN_F2 : Fld := ⟨268, 2, 2, .w1c, .silicon, 0, none⟩
def F.SYS_UNIT_ERR_OWN_F1 : Fld := ⟨268, 1, 1, .w1c, .silicon, 0, none⟩
def F.SYS_UNIT_ERR_OWN_F0 : Fld := ⟨268, 0, 0, .w1c, .silicon, 0, none⟩
def F.SYS_UNIT_ECNT_LO_F1_CNT : Fld := ⟨272, 31, 16, .ro, .silicon, 0, none⟩
def F.SYS_UNIT_ECNT_LO_F0_CNT : Fld := ⟨272, 15, 0, .ro, .silicon, 0, none⟩
def F.SYS_UNIT_ECNT_HI_F3_CNT : Fld := ⟨276, 31, 16, .ro, .silicon, 0, none⟩
def F.SYS_UNIT_ECNT_HI_F2_CNT : Fld := ⟨276, 15, 0, .ro, .silicon, 0, none⟩
def F.SYS_UNIT_CMD_OP : Fld := ⟨280, 31, 24, .wo, .silicon, 0, none⟩
def F.SYS_UNIT_CMD_ARG : Fld := ⟨280, 15, 0, .wo, .silicon, 0, none⟩
def F.SYS_UNIT_CRES_DONE : Fld := ⟨284, 31, 31, .ro, .silicon, 1, none⟩
def F.SYS_UNIT_CRES_LAST_OP : Fld := ⟨284, 23, 16, .ro, .silicon, 0, none⟩
def F.SYS_UNIT_CRES_CODE : Fld := ⟨284, 7, 0, .ro, .silicon, 0, none⟩
def F.SYS_UNIT_PWR_REF_CNT : Fld := ⟨288, 31, 16, .ro, .silicon, 0, none⟩
def F.SYS_UNIT_PWR_REFUSED : Fld := ⟨288, 12, 12, .w1c, .silicon, 0, none⟩
def F.SYS_UNIT_PWR_CUR : Fld := ⟨288, 9, 8, .ro, .silicon, 2, none⟩
def F.SYS_UNIT_PWR_AUTO : Fld := ⟨288, 4, 4, .rw, .silicon, 1, none⟩
def F.SYS_UNIT_PWR_REQ : Fld := ⟨288, 1, 0, .rw, .silicon, 2, none⟩
def F.SYS_UNIT_CHILD0_ADDR : Fld := ⟨320, 15, 0, .ro, .unit, 0, none⟩
def F.SYS_UNIT_CHILD1_ADDR : Fld := ⟨324, 15, 0, .ro, .unit, 0, none⟩
def F.SYS_UNIT_CHILD2_ADDR : Fld := ⟨328, 15, 0, .ro, .unit, 0, none⟩
def F.SYS_UNIT_CHILD3_ADDR : Fld := ⟨332, 15, 0, .ro, .unit, 0, none⟩
def F.SYS_UNIT_CHILD4_ADDR : Fld := ⟨336, 15, 0, .ro, .unit, 0, none⟩
def F.SYS_UNIT_CHILD5_ADDR : Fld := ⟨340, 15, 0, .ro, .unit, 0, none⟩
def F.SYS_UNIT_CHILD6_ADDR : Fld := ⟨344, 15, 0, .ro, .unit, 0, none⟩
def F.SYS_UNIT_CHILD7_ADDR : Fld := ⟨348, 15, 0, .ro, .unit, 0, none⟩
def F.SYS_UNIT_CHILD8_ADDR : Fld := ⟨352, 15, 0, .ro, .unit, 0, none⟩
def F.SYS_UNIT_CHILD9_ADDR : Fld := ⟨356, 15, 0, .ro, .unit, 0, none⟩
def F.SYS_UNIT_CHILD10_ADDR : Fld := ⟨360, 15, 0, .ro, .unit, 0, none⟩
def F.SYS_UNIT_CHILD11_ADDR : Fld := ⟨364, 15, 0, .ro, .unit, 0, none⟩
def F.SYS_UNIT_CHILD12_ADDR : Fld := ⟨368, 15, 0, .ro, .unit, 0, none⟩
def F.SYS_UNIT_CHILD13_ADDR : Fld := ⟨372, 15, 0, .ro, .unit, 0, none⟩
def F.SYS_UNIT_CHILD14_ADDR : Fld := ⟨376, 15, 0, .ro, .unit, 0, none⟩
def F.SYS_UNIT_CHILD15_ADDR : Fld := ⟨380, 15, 0, .ro, .unit, 0, none⟩
def F.SYS_ACC_STAT_CMD_REJ : Fld := ⟨384, 1, 1, .w1c, .silicon, 0, none⟩
def F.SYS_ACC_STAT_ACC_FAULT : Fld := ⟨384, 0, 0, .w1c, .silicon, 0, none⟩
def F.SYS_ACC_CNT_REJ_CNT : Fld := ⟨388, 31, 16, .ro, .silicon, 0, none⟩
def F.SYS_ACC_CNT_OFF_CNT : Fld := ⟨388, 15, 0, .ro, .silicon, 0, none⟩
def F.SYS_ACC_ADDR_ADDR : Fld := ⟨392, 31, 0, .ro, .silicon, 0, none⟩
def F.SYS_RST_CAUSE_PREV_END : Fld := ⟨512, 7, 4, .ro, .mram, 0, none⟩
def F.SYS_RST_CAUSE_WARM : Fld := ⟨512, 3, 3, .ro, .mram, 0, none⟩
def F.SYS_RST_CAUSE_SLOT : Fld := ⟨512, 2, 0, .ro, .silicon, 0, none⟩
def F.SYS_LEVEL_WRITES : Fld := ⟨516, 5, 5, .ro, .silicon, 0, none⟩
def F.SYS_LEVEL_CLEAN : Fld := ⟨516, 4, 4, .ro, .mram, 0, none⟩
def F.SYS_LEVEL_LEVEL : Fld := ⟨516, 1, 0, .ro, .silicon, 0, none⟩
def F.SYS_LEVEL_T0_BRONZE : Fld := ⟨520, 31, 16, .ro, .silicon, 0, none⟩
def F.SYS_LEVEL_T0_TIN : Fld := ⟨520, 15, 0, .ro, .silicon, 0, none⟩
def F.SYS_LEVEL_T1_WRITES : Fld := ⟨524, 31, 16, .ro, .silicon, 0, none⟩
def F.SYS_LEVEL_T1_STEEL : Fld := ⟨524, 15, 0, .ro, .silicon, 0, none⟩
def F.SYS_ACT_ACTIVE : Fld := ⟨528, 31, 31, .ro, .silicon, 0, none⟩
def F.SYS_ACT_DONE : Fld := ⟨528, 23, 16, .ro, .silicon, 0, none⟩
def F.SYS_ACT_SKIPPED : Fld := ⟨528, 15, 8, .ro, .silicon, 0, none⟩
def F.SYS_ACT_CUR : Fld := ⟨528, 5, 0, .ro, .silicon, 63, none⟩
def F.SYS_RETIRE_CLR_GO : Fld := ⟨532, 31, 31, .wo, .silicon, 0, none⟩
def F.SYS_RETIRE_CLR_UNIT : Fld := ⟨532, 15, 0, .rw, .silicon, 0, none⟩
def F.SYS_EVT_LATE_STEEL : Fld := ⟨536, 2, 2, .w1c, .silicon, 0, none⟩
def F.SYS_EVT_LATE_BRONZE : Fld := ⟨536, 1, 1, .w1c, .silicon, 0, none⟩
def F.SYS_EVT_ACT_SKIP : Fld := ⟨536, 0, 0, .w1c, .silicon, 0, none⟩
def F.SYS_EVT_CNT0_BRZ_CNT : Fld := ⟨540, 31, 16, .ro, .silicon, 0, none⟩
def F.SYS_EVT_CNT0_SKIP_CNT : Fld := ⟨540, 15, 0, .ro, .silicon, 0, none⟩
def F.SYS_EVT_CNT1_STL_CNT : Fld := ⟨544, 15, 0, .ro, .silicon, 0, none⟩
def F.FRM_CTL_APPLY : Fld := ⟨1048576, 0, 0, .wo, .silicon, 0, none⟩
def F.FRM_STAT_DRAIN : Fld := ⟨1048580, 9, 9, .ro, .silicon, 0, none⟩
def F.FRM_STAT_GC_EMERG : Fld := ⟨1048580, 8, 8, .ro, .silicon, 0, none⟩
def F.FRM_STAT_APPLY_PEND : Fld := ⟨1048580, 0, 0, .ro, .silicon, 0, none⟩
def F.FRM_NUM_LO_NUM : Fld := ⟨1048584, 31, 0, .ro, .unit, 0, none⟩
def F.FRM_NUM_HI_NUM : Fld := ⟨1048588, 15, 0, .ro, .unit, 0, none⟩
def F.FRM_EVT_URG3 : Fld := ⟨1048592, 2, 2, .w1c, .silicon, 0, none⟩
def F.FRM_EVT_CFG_ERR : Fld := ⟨1048592, 1, 1, .w1c, .silicon, 0, none⟩
def F.FRM_EVT_LATE_LIST : Fld := ⟨1048592, 0, 0, .w1c, .silicon, 0, none⟩
def F.FRM_EVT_CNT0_CFG_ERR_CNT : Fld := ⟨1048596, 31, 16, .ro, .silicon, 0, none⟩
def F.FRM_EVT_CNT0_LATE_CNT : Fld := ⟨1048596, 15, 0, .ro, .silicon, 0, none⟩
def F.FRM_EVT_CNT1_URG3_CNT : Fld := ⟨1048600, 15, 0, .ro, .silicon, 0, none⟩
def F.FRM_CLS_SHARE0_SCAN : Fld := ⟨1048608, 31, 24, .rw, .silicon, 16, some (0, 255)⟩
def F.FRM_CLS_SHARE0_SCRUB : Fld := ⟨1048608, 23, 16, .rw, .silicon, 8, some (0, 255)⟩
def F.FRM_CLS_SHARE0_GC : Fld := ⟨1048608, 15, 8, .rw, .silicon, 48, some (0, 255)⟩
def F.FRM_CLS_SHARE0_HOST : Fld := ⟨1048608, 7, 0, .rw, .silicon, 176, some (0, 255)⟩
def F.FRM_CLS_SHARE1_GC_EMERG : Fld := ⟨1048612, 15, 8, .rw, .silicon, 128, some (0, 255)⟩
def F.FRM_CLS_SHARE1_JOURNAL : Fld := ⟨1048612, 7, 0, .rw, .silicon, 8, some (8, 255)⟩
def F.FRM_SUSP_EN : Fld := ⟨1048616, 8, 8, .rw, .silicon, 1, none⟩
def F.FRM_SUSP_WIN : Fld := ⟨1048616, 5, 0, .rw, .silicon, 12, some (4, 32)⟩
def F.FRM_ENG_RSV_RSV_CYC : Fld := ⟨1048620, 12, 0, .rw, .silicon, 2000, some (1000, 4000)⟩
def F.FRM_MISS_A_MISS : Fld := ⟨1048624, 31, 0, .rc, .silicon, 0, none⟩
def F.FRM_MISS_B_MISS : Fld := ⟨1048628, 31, 0, .rc, .silicon, 0, none⟩
def F.FRM_MISS_C_MISS : Fld := ⟨1048632, 31, 0, .rc, .silicon, 0, none⟩
def F.FRM_LED_IDX_RES : Fld := ⟨1048640, 13, 12, .rw, .silicon, 0, none⟩
def F.FRM_LED_IDX_TID : Fld := ⟨1048640, 11, 0, .rw, .silicon, 0, none⟩
def F.FRM_LED_CFG_BACKLOG : Fld := ⟨1048644, 16, 16, .ro, .silicon, 0, none⟩
def F.FRM_LED_CFG_WEIGHT : Fld := ⟨1048644, 15, 0, .rw, .silicon, 256, some (1, 65535)⟩
def F.FRM_LED_VT_LO_VT : Fld := ⟨1048648, 31, 0, .ro, .silicon, 0, none⟩
def F.FRM_LED_VT_HI_VT : Fld := ⟨1048652, 31, 0, .ro, .silicon, 0, none⟩
def F.FRM_LED_VMIN_LO_VMIN : Fld := ⟨1048656, 31, 0, .ro, .silicon, 0, none⟩
def F.FRM_LED_VMIN_HI_VMIN : Fld := ⟨1048660, 31, 0, .ro, .silicon, 0, none⟩
def F.FRM_MAP_STAT_REBUILD : Fld := ⟨1048832, 3, 3, .ro, .silicon, 0, none⟩
def F.FRM_MAP_STAT_LOADED : Fld := ⟨1048832, 2, 2, .ro, .silicon, 0, none⟩
def F.FRM_MAP_STAT_TAIL_DONE : Fld := ⟨1048832, 1, 1, .ro, .silicon, 0, none⟩
def F.FRM_MAP_STAT_INDEX_DONE : Fld := ⟨1048832, 0, 0, .ro, .silicon, 0, none⟩
def F.FRM_MAP_PROMO_WIN : Fld := ⟨1048836, 15, 8, .rw, .silicon, 16, some (1, 255)⟩
def F.FRM_MAP_PROMO_THRESH : Fld := ⟨1048836, 7, 0, .rw, .silicon, 4, some (1, 255)⟩
def F.FRM_MAP_DEMO_COLD : Fld := ⟨1048840, 7, 0, .rw, .silicon, 8, some (1, 255)⟩
def F.FRM_MAP_FINE_FREE_FREE : Fld := ⟨1048844, 29, 0, .ro, .unit, 0, none⟩
def F.FRM_MAP_FINE_CFG_LOW : Fld := ⟨1048848, 31, 16, .rw, .silicon, 128, some (1, 8192)⟩
def F.FRM_MAP_FINE_CFG_POIS : Fld := ⟨1048848, 15, 0, .rw, .silicon, 16, some (1, 4096)⟩
def F.FRM_MAP_HIT_CNT : Fld := ⟨1048852, 31, 0, .rc, .silicon, 0, none⟩
def F.FRM_MAP_MISS_CNT : Fld := ⟨1048856, 31, 0, .rc, .silicon, 0, none⟩
def F.FRM_MAP_EVT_REBUILD : Fld := ⟨1048860, 2, 2, .w1c, .silicon, 0, none⟩
def F.FRM_MAP_EVT_POOL : Fld := ⟨1048860, 1, 1, .w1c, .silicon, 0, none⟩
def F.FRM_MAP_EVT_LOW : Fld := ⟨1048860, 0, 0, .w1c, .silicon, 0, none⟩
def F.FRM_MAP_EVT_CNT0_POOL_CNT : Fld := ⟨1048864, 31, 16, .ro, .silicon, 0, none⟩
def F.FRM_MAP_EVT_CNT0_LOW_CNT : Fld := ⟨1048864, 15, 0, .ro, .silicon, 0, none⟩
def F.FRM_MAP_EVT_CNT1_REB_CNT : Fld := ⟨1048868, 15, 0, .ro, .silicon, 0, none⟩
def F.PWR_STATE_WAKE_SRC : Fld := ⟨2097152, 11, 8, .ro, .silicon, 0, none⟩
def F.PWR_STATE_TRANS : Fld := ⟨2097152, 7, 7, .ro, .silicon, 0, none⟩
def F.PWR_STATE_LAST_OP : Fld := ⟨2097152, 6, 4, .ro, .silicon, 0, none⟩
def F.PWR_STATE_HOST : Fld := ⟨2097152, 3, 3, .ro, .silicon, 0, none⟩
def F.PWR_STATE_CUR : Fld := ⟨2097152, 2, 0, .ro, .silicon, 0, none⟩
def F.PWR_IDLE_FRAMES : Fld := ⟨2097156, 31, 0, .ro, .silicon, 0, none⟩
def F.PWR_DROWSE_IDLE : Fld := ⟨2097160, 15, 0, .rw, .silicon, 1250, some (16, 65535)⟩
def F.PWR_GRP_DROWSY : Fld := ⟨2097164, 15, 0, .ro, .silicon, 0, none⟩
def F.PWR_HK_PERIOD : Fld := ⟨2097168, 7, 0, .rw, .silicon, 60, some (1, 255)⟩
def F.PWR_EVT_RAIL : Fld := ⟨2097172, 6, 6, .w1c, .silicon, 0, none⟩
def F.PWR_EVT_HU_INVALID : Fld := ⟨2097172, 5, 5, .w1c, .silicon, 0, none⟩
def F.PWR_EVT_HU_OK : Fld := ⟨2097172, 4, 4, .w1c, .silicon, 0, none⟩
def F.PWR_EVT_HU_DEG : Fld := ⟨2097172, 3, 3, .w1c, .silicon, 0, none⟩
def F.PWR_EVT_PFAIL : Fld := ⟨2097172, 2, 2, .w1c, .mram, 0, none⟩
def F.PWR_EVT_WAKE_ENTRY : Fld := ⟨2097172, 0, 0, .w1c, .silicon, 0, none⟩
def F.PWR_EVT_CNT0_PFAIL_CNT : Fld := ⟨2097176, 31, 16, .ro, .silicon, 0, none⟩
def F.PWR_EVT_CNT0_WE_CNT : Fld := ⟨2097176, 15, 0, .ro, .silicon, 0, none⟩
def F.PWR_EVT_CNT1_OK_CNT : Fld := ⟨2097180, 31, 16, .ro, .silicon, 0, none⟩
def F.PWR_EVT_CNT1_DEG_CNT : Fld := ⟨2097180, 15, 0, .ro, .silicon, 0, none⟩
def F.PWR_EVT_CNT2_RAIL_CNT : Fld := ⟨2097184, 31, 16, .ro, .silicon, 0, none⟩
def F.PWR_EVT_CNT2_INV_CNT : Fld := ⟨2097184, 15, 0, .ro, .silicon, 0, none⟩
def F.PWR_HU_CFG_PERIOD : Fld := ⟨2097200, 31, 24, .rw, .silicon, 24, some (1, 168)⟩
def F.PWR_HU_CFG_DROP : Fld := ⟨2097200, 23, 16, .rw, .silicon, 50, some (10, 100)⟩
def F.PWR_HU_CFG_MIN : Fld := ⟨2097200, 15, 0, .rw, .silicon, 500, some (500, 5000)⟩
def F.PWR_HU_BRD0_VMIN : Fld := ⟨2097204, 31, 16, .ro, .oem, (Config.oemPWRHUBRD0VMIN % 65536), none⟩
def F.PWR_HU_BRD0_ITEST : Fld := ⟨2097204, 15, 0, .ro, .oem, (Config.oemPWRHUBRD0ITEST % 65536), none⟩
def F.PWR_HU_BRD1_EFF : Fld := ⟨2097208, 7, 0, .ro, .oem, (Config.oemPWRHUBRD1EFF % 256), none⟩
def F.PWR_HU_CTL_START : Fld := ⟨2097212, 0, 0, .wo, .silicon, 0, none⟩
def F.PWR_HU_STAT_HEALTHY : Fld := ⟨2097216, 31, 31, .ro, .silicon, 0, none⟩
def F.PWR_HU_STAT_TESTING : Fld := ⟨2097216, 30, 30, .ro, .silicon, 0, none⟩
def F.PWR_HU_STAT_RESULT : Fld := ⟨2097216, 29, 28, .ro, .silicon, 0, none⟩
def F.PWR_HU_STAT_HOLD : Fld := ⟨2097216, 15, 0, .ro, .silicon, 0, none⟩
def F.PWR_HU_CAP_CAP : Fld := ⟨2097220, 23, 0, .ro, .silicon, 0, none⟩
def F.PWR_GOV_CTL_SWAP : Fld := ⟨2097408, 31, 31, .wo, .silicon, 0, none⟩
def F.PWR_GOV_CTL_SAVE : Fld := ⟨2097408, 30, 30, .wo, .silicon, 0, none⟩
def F.PWR_GOV_CTL_DEFAULT : Fld := ⟨2097408, 29, 29, .wo, .silicon, 0, none⟩
def F.PWR_GOV_CTL_THERM_EN : Fld := ⟨2097408, 0, 0, .rw, .silicon, 1, none⟩
def F.PWR_GOV_STAT_DRAIN : Fld := ⟨2097412, 31, 31, .ro, .silicon, 0, none⟩
def F.PWR_GOV_STAT_RAMP : Fld := ⟨2097412, 30, 30, .ro, .silicon, 0, none⟩
def F.PWR_GOV_STAT_CLAMP : Fld := ⟨2097412, 29, 29, .ro, .silicon, 0, none⟩
def F.PWR_GOV_STAT_FALLBACK : Fld := ⟨2097412, 28, 28, .ro, .silicon, 0, none⟩
def F.PWR_GOV_STAT_REVERTED : Fld := ⟨2097412, 27, 27, .ro, .silicon, 0, none⟩
def F.PWR_GOV_STAT_SWAP_PEND : Fld := ⟨2097412, 26, 26, .ro, .silicon, 0, none⟩
def F.PWR_GOV_STAT_LIMIT : Fld := ⟨2097412, 25, 24, .ro, .silicon, 0, none⟩
def F.PWR_GOV_STAT_PIN : Fld := ⟨2097412, 15, 0, .ro, .silicon, 0, none⟩
def F.PWR_GOV_CAP_BOARD : Fld := ⟨2097416, 15, 0, .rw, .oem, (Config.oemPWRGOVCAPBOARD % 65536), some (50, 1100)⟩
def F.PWR_GOV_REF_CAP : Fld := ⟨2097420, 31, 16, .ro, .silicon, 0, none⟩
def F.PWR_GOV_REF_REF : Fld := ⟨2097420, 15, 0, .ro, .silicon, 0, none⟩
def F.PWR_GOV_RAMP_SLEW : Fld := ⟨2097424, 15, 0, .rw, .silicon, 50, some (1, 10000)⟩
def F.PWR_GOV_NOTCH_EN : Fld := ⟨2097428, 31, 31, .rw, .oem, (Config.oemPWRGOVNOTCHEN % 2), none⟩
def F.PWR_GOV_NOTCH_Q : Fld := ⟨2097428, 20, 12, .rw, .oem, (Config.oemPWRGOVNOTCHQ % 512), some (8, 256)⟩
def F.PWR_GOV_NOTCH_F0 : Fld := ⟨2097428, 11, 0, .rw, .oem, (Config.oemPWRGOVNOTCHF0 % 4096), some (100, 3000)⟩
def F.PWR_GOV_THERM0_TJ_LIM : Fld := ⟨2097432, 15, 8, .rw, .silicon, 100, some (70, 105)⟩
def F.PWR_GOV_THERM0_TB_LIM : Fld := ⟨2097432, 7, 0, .rw, .silicon, 85, some (40, 100)⟩
def F.PWR_GOV_THERM1_K : Fld := ⟨2097436, 31, 24, .rw, .silicon, 20, some (1, 255)⟩
def F.PWR_GOV_THERM1_RISE : Fld := ⟨2097436, 23, 16, .rw, .silicon, 10, some (1, 255)⟩
def F.PWR_GOV_THERM1_MIN : Fld := ⟨2097436, 15, 0, .rw, .silicon, 200, some (100, 1100)⟩
def F.PWR_GOV_BUDGET_BASE : Fld := ⟨2097440, 31, 16, .ro, .silicon, 0, none⟩
def F.PWR_GOV_BUDGET_BUDGET : Fld := ⟨2097440, 15, 0, .ro, .silicon, 0, none⟩
def F.PWR_GOV_FB_FB : Fld := ⟨2097444, 15, 0, .rw, .silicon, 2000, some (500, 20000)⟩
def F.PWR_GOV_GUARD_RESID_MAX : Fld := ⟨2097448, 31, 16, .rw, .silicon, 1000, some (100, 10000)⟩
def F.PWR_GOV_GUARD_TOL : Fld := ⟨2097448, 7, 0, .rw, .silicon, 10, some (1, 100)⟩
def F.PWR_GOV_INJ_MODE : Fld := ⟨2097452, 31, 30, .rw, .silicon, 0, none⟩
def F.PWR_GOV_INJ_PERIOD : Fld := ⟨2097452, 29, 16, .rw, .silicon, 1, some (1, 16383)⟩
def F.PWR_GOV_INJ_AMP : Fld := ⟨2097452, 15, 0, .rw, .silicon, 0, some (0, 5000)⟩
def F.PWR_OPC0_RD_QLC : Fld := ⟨2097456, 31, 16, .rw, .silicon, 70, some (1, 65535)⟩
def F.PWR_OPC0_RD_SLC : Fld := ⟨2097456, 15, 0, .rw, .silicon, 60, some (1, 65535)⟩
def F.PWR_OPC1_PG_QLC : Fld := ⟨2097460, 31, 16, .rw, .silicon, 40, some (1, 65535)⟩
def F.PWR_OPC1_PG_SLC : Fld := ⟨2097460, 15, 0, .rw, .silicon, 50, some (1, 65535)⟩
def F.PWR_OPC2_ER_QLC : Fld := ⟨2097464, 31, 16, .rw, .silicon, 30, some (1, 65535)⟩
def F.PWR_OPC2_ER_SLC : Fld := ⟨2097464, 15, 0, .rw, .silicon, 30, some (1, 65535)⟩
def F.PWR_OPC3_FEAT : Fld := ⟨2097468, 31, 16, .rw, .silicon, 10, some (1, 65535)⟩
def F.PWR_OPC3_STREAM : Fld := ⟨2097468, 15, 0, .rw, .silicon, 60, some (1, 65535)⟩
def F.PWR_MEAS0_VBUS : Fld := ⟨2097472, 31, 16, .ro, .silicon, 0, none⟩
def F.PWR_MEAS0_IIN : Fld := ⟨2097472, 15, 0, .ro, .silicon, 0, none⟩
def F.PWR_MEAS1_VHU : Fld := ⟨2097476, 31, 16, .ro, .silicon, 0, none⟩
def F.PWR_MEAS1_TBRD : Fld := ⟨2097476, 15, 0, .ro, .silicon, 0, none⟩
def F.PWR_GOV_MIDX_BANK : Fld := ⟨2097488, 7, 7, .rw, .silicon, 0, none⟩
def F.PWR_GOV_MIDX_ENTRY : Fld := ⟨2097488, 6, 0, .rw, .silicon, 0, some (0, 95)⟩
def F.PWR_GOV_MDATA_COEF : Fld := ⟨2097492, 31, 0, .rw, .mram, 0, none⟩
def F.PWR_GOV_XIDX_NODE : Fld := ⟨2097496, 4, 0, .rw, .silicon, 0, some (0, 28)⟩
def F.PWR_GOV_XDATA_VALUE : Fld := ⟨2097500, 31, 0, .ro, .silicon, 0, none⟩
def F.PWR_GOV_EVT_REVERT : Fld := ⟨2097504, 4, 4, .w1c, .silicon, 0, none⟩
def F.PWR_GOV_EVT_MISS : Fld := ⟨2097504, 3, 3, .w1c, .silicon, 0, none⟩
def F.PWR_GOV_EVT_OVER : Fld := ⟨2097504, 2, 2, .w1c, .silicon, 0, none⟩
def F.PWR_GOV_EVT_THERM : Fld := ⟨2097504, 1, 1, .w1c, .silicon, 0, none⟩
def F.PWR_GOV_EVT_TRC_DONE : Fld := ⟨2097504, 0, 0, .w1c, .silicon, 0, none⟩
def F.PWR_GOV_EVT_CNT0_OVER_CNT : Fld := ⟨2097508, 31, 16, .ro, .silicon, 0, none⟩
def F.PWR_GOV_EVT_CNT0_TRC_CNT : Fld := ⟨2097508, 15, 0, .ro, .silicon, 0, none⟩
def F.PWR_GOV_EVT_CNT1_MISS_CNT : Fld := ⟨2097512, 31, 16, .ro, .silicon, 0, none⟩
def F.PWR_GOV_EVT_CNT1_THERM_CNT : Fld := ⟨2097512, 15, 0, .ro, .silicon, 0, none⟩
def F.PWR_GOV_EVT_CNT2_REV_CNT : Fld := ⟨2097516, 15, 0, .ro, .silicon, 0, none⟩
def F.PWR_TRC_CTL_START : Fld := ⟨2097536, 31, 31, .wo, .silicon, 0, none⟩
def F.PWR_TRC_CTL_STOP : Fld := ⟨2097536, 30, 30, .wo, .silicon, 0, none⟩
def F.PWR_TRC_CTL_TRIG : Fld := ⟨2097536, 29, 28, .rw, .silicon, 0, none⟩
def F.PWR_TRC_CTL_PRE : Fld := ⟨2097536, 27, 16, .rw, .silicon, 0, some (0, 4095)⟩
def F.PWR_TRC_CTL_DEC : Fld := ⟨2097536, 7, 0, .rw, .silicon, 1, some (1, 255)⟩
def F.PWR_TRC_SEL_NODE3 : Fld := ⟨2097540, 31, 24, .rw, .silicon, 0, some (0, 28)⟩
def F.PWR_TRC_SEL_NODE2 : Fld := ⟨2097540, 23, 16, .rw, .silicon, 0, some (0, 28)⟩
def F.PWR_TRC_SEL_NODE1 : Fld := ⟨2097540, 15, 8, .rw, .silicon, 0, some (0, 28)⟩
def F.PWR_TRC_SEL_NODE0 : Fld := ⟨2097540, 7, 0, .rw, .silicon, 0, some (0, 28)⟩
def F.PWR_TRC_STAT_ARMED : Fld := ⟨2097544, 31, 31, .ro, .silicon, 0, none⟩
def F.PWR_TRC_STAT_TRIGGERED : Fld := ⟨2097544, 30, 30, .ro, .silicon, 0, none⟩
def F.PWR_TRC_STAT_DONE : Fld := ⟨2097544, 29, 29, .ro, .silicon, 0, none⟩
def F.PWR_TRC_STAT_WPTR : Fld := ⟨2097544, 11, 0, .ro, .silicon, 0, none⟩
def F.PWR_TRC_IDX_BUF : Fld := ⟨2097548, 13, 12, .rw, .silicon, 0, some (0, 3)⟩
def F.PWR_TRC_IDX_SAMPLE : Fld := ⟨2097548, 11, 0, .rw, .silicon, 0, none⟩
def F.PWR_TRC_DATA_VALUE : Fld := ⟨2097552, 31, 0, .ro, .silicon, 0, none⟩
def F.FLT_STAT_HALTED : Fld := ⟨3145728, 31, 31, .ro, .silicon, 0, none⟩
def F.FLT_STAT_ARMED : Fld := ⟨3145728, 30, 30, .ro, .silicon, 0, none⟩
def F.FLT_STAT_FENCED : Fld := ⟨3145728, 23, 16, .ro, .silicon, 0, none⟩
def F.FLT_EVT_F3 : Fld := ⟨3145732, 3, 3, .ro, .silicon, 0, none⟩
def F.FLT_EVT_F2 : Fld := ⟨3145732, 2, 2, .w1c, .silicon, 0, none⟩
def F.FLT_EVT_F1 : Fld := ⟨3145732, 1, 1, .w1c, .silicon, 0, none⟩
def F.FLT_EVT_F0 : Fld := ⟨3145732, 0, 0, .w1c, .silicon, 0, none⟩
def F.FLT_EVT_CNT0_F1_CNT : Fld := ⟨3145736, 31, 16, .ro, .silicon, 0, none⟩
def F.FLT_EVT_CNT0_F0_CNT : Fld := ⟨3145736, 15, 0, .ro, .silicon, 0, none⟩
def F.FLT_EVT_CNT1_F3_CNT : Fld := ⟨3145740, 31, 16, .ro, .silicon, 0, none⟩
def F.FLT_EVT_CNT1_F2_CNT : Fld := ⟨3145740, 15, 0, .ro, .silicon, 0, none⟩
def F.FLT_PIN_LEVEL : Fld := ⟨3145744, 31, 31, .ro, .silicon, 0, none⟩
def F.FLT_PIN_PULSE : Fld := ⟨3145744, 30, 30, .ro, .silicon, 0, none⟩
def F.FLT_PIN_HOLD : Fld := ⟨3145744, 16, 16, .rw, .silicon, 0, none⟩
def F.FLT_PIN_WIDTH : Fld := ⟨3145744, 7, 0, .rw, .silicon, 10, some (1, 100)⟩
def F.FLT_F1_MASK_MASK : Fld := ⟨3145748, 9, 0, .rw, .silicon, 1023, none⟩
def F.FLT_THERM_TJ_F2 : Fld := ⟨3145752, 15, 8, .rw, .silicon, 108, some (106, 112)⟩
def F.FLT_THERM_TJ_F3 : Fld := ⟨3145752, 7, 0, .rw, .silicon, 115, some (113, 120)⟩
def F.FLT_REGC_WIRED : Fld := ⟨3145756, 16, 16, .ro, .oem, (Config.oemFLTREGCWIRED % 2), none⟩
def F.FLT_REGC_WIDTH : Fld := ⟨3145756, 9, 0, .rw, .silicon, 200, some (50, 1000)⟩
def F.FLT_HIST_STAT_TOTAL : Fld := ⟨3145760, 31, 16, .ro, .mram, 0, none⟩
def F.FLT_HIST_STAT_COUNT : Fld := ⟨3145760, 4, 0, .ro, .mram, 0, none⟩
def F.FLT_HIST_IDX_ENTRY : Fld := ⟨3145764, 3, 0, .rw, .silicon, 0, none⟩
def F.FLT_HIST_D0_DATA : Fld := ⟨3145792, 31, 0, .ro, .mram, 0, none⟩
def F.FLT_HIST_D1_DATA : Fld := ⟨3145796, 31, 0, .ro, .mram, 0, none⟩
def F.FLT_HIST_D2_DATA : Fld := ⟨3145800, 31, 0, .ro, .mram, 0, none⟩
def F.FLT_HIST_D3_DATA : Fld := ⟨3145804, 31, 0, .ro, .mram, 0, none⟩
def F.FLT_HIST_D4_DATA : Fld := ⟨3145808, 31, 0, .ro, .mram, 0, none⟩
def F.FLT_HIST_D5_DATA : Fld := ⟨3145812, 31, 0, .ro, .mram, 0, none⟩
def F.FLT_HIST_D6_DATA : Fld := ⟨3145816, 31, 0, .ro, .mram, 0, none⟩
def F.FLT_HIST_D7_DATA : Fld := ⟨3145820, 31, 0, .ro, .mram, 0, none⟩
def F.FLT_FIRST_CTL_CAPT_CNT : Fld := ⟨3145824, 31, 16, .ro, .mram, 0, none⟩
def F.FLT_FIRST_CTL_VALID : Fld := ⟨3145824, 0, 0, .w1c, .mram, 0, none⟩
def F.FLT_FIRST_D0_DATA : Fld := ⟨3145856, 31, 0, .ro, .mram, 0, none⟩
def F.FLT_FIRST_D1_DATA : Fld := ⟨3145860, 31, 0, .ro, .mram, 0, none⟩
def F.FLT_FIRST_D2_DATA : Fld := ⟨3145864, 31, 0, .ro, .mram, 0, none⟩
def F.FLT_FIRST_D3_DATA : Fld := ⟨3145868, 31, 0, .ro, .mram, 0, none⟩
def F.FLT_FIRST_D4_DATA : Fld := ⟨3145872, 31, 0, .ro, .mram, 0, none⟩
def F.FLT_FIRST_D5_DATA : Fld := ⟨3145876, 31, 0, .ro, .mram, 0, none⟩
def F.FLT_FIRST_D6_DATA : Fld := ⟨3145880, 31, 0, .ro, .mram, 0, none⟩
def F.FLT_FIRST_D7_DATA : Fld := ⟨3145884, 31, 0, .ro, .mram, 0, none⟩
def F.FLT_EOL_HOURS : Fld := ⟨3145888, 31, 0, .ro, .silicon, 4294967295, none⟩
def F.FLT_HLT_IDX_MON : Fld := ⟨3145892, 3, 0, .rw, .silicon, 0, some (0, 14)⟩
def F.FLT_HLT_MARGIN_MARGIN : Fld := ⟨3145896, 15, 0, .ro, .silicon, 0, none⟩
def F.FLT_HLT_EOL_HOURS : Fld := ⟨3145900, 31, 0, .ro, .silicon, 4294967295, none⟩
def F.LOG_BASE_OFFSET : Fld := ⟨4194304, 31, 0, .ro, .silicon, 16777216, none⟩
def F.LOG_HEAD_OFF : Fld := ⟨4194308, 22, 0, .ro, .mram, 0, none⟩
def F.LOG_TAIL_OFF : Fld := ⟨4194312, 22, 0, .ro, .mram, 0, none⟩
def F.LOG_SEQ_LO_SEQ : Fld := ⟨4194316, 31, 0, .ro, .mram, 0, none⟩
def F.LOG_SEQ_HI_SEQ : Fld := ⟨4194320, 31, 0, .ro, .mram, 0, none⟩
def F.LOG_CFG_TRACE_EN : Fld := ⟨4194324, 8, 8, .rw, .silicon, 1, none⟩
def F.LOG_CFG_F0_RATE : Fld := ⟨4194324, 7, 0, .rw, .silicon, 1, some (1, 255)⟩
def F.LOG_EVT_SNAP_LOST : Fld := ⟨4194328, 2, 2, .w1c, .silicon, 0, none⟩
def F.LOG_EVT_WDROP : Fld := ⟨4194328, 1, 1, .w1c, .silicon, 0, none⟩
def F.LOG_EVT_CRC_SKIP : Fld := ⟨4194328, 0, 0, .w1c, .silicon, 0, none⟩
def F.LOG_EVT_CNT0_DROP_CNT : Fld := ⟨4194332, 31, 16, .ro, .silicon, 0, none⟩
def F.LOG_EVT_CNT0_SKIP_CNT : Fld := ⟨4194332, 15, 0, .ro, .silicon, 0, none⟩
def F.LOG_WCTL_BUSY : Fld := ⟨4194336, 31, 31, .ro, .silicon, 0, none⟩
def F.LOG_WCTL_GO : Fld := ⟨4194336, 16, 16, .wo, .silicon, 0, none⟩
def F.LOG_WCTL_CLASS : Fld := ⟨4194336, 15, 15, .wo, .silicon, 0, none⟩
def F.LOG_WCTL_TYPE : Fld := ⟨4194336, 14, 8, .wo, .silicon, 0, none⟩
def F.LOG_WCTL_LEN8 : Fld := ⟨4194336, 7, 0, .wo, .silicon, 0, none⟩
def F.LOG_RD_OFF_OFF : Fld := ⟨4194340, 22, 0, .rw, .silicon, 0, none⟩
def F.LOG_RD_DATA_DATA : Fld := ⟨4194344, 31, 0, .ro, .silicon, 0, none⟩
def F.LOG_EVT_CNT1_LOST_CNT : Fld := ⟨4194348, 15, 0, .ro, .silicon, 0, none⟩
def F.HIF_CFG_BIFUR : Fld := ⟨5242880, 8, 8, .ro, .mram, 0, none⟩
def F.HIF_CFG_MAX_GEN : Fld := ⟨5242880, 6, 4, .rw, .silicon, 7, some (1, 7)⟩
def F.HIF_CFG_MAX_WIDTH : Fld := ⟨5242880, 2, 0, .rw, .silicon, 4, some (0, 4)⟩
def F.HIF_EVT_MI_ERR : Fld := ⟨5242884, 3, 3, .w1c, .silicon, 0, none⟩
def F.HIF_EVT_INV_DB : Fld := ⟨5242884, 2, 2, .w1c, .silicon, 0, none⟩
def F.HIF_EVT_RETRAIN : Fld := ⟨5242884, 1, 1, .w1c, .silicon, 0, none⟩
def F.HIF_EVT_LINK_DOWN : Fld := ⟨5242884, 0, 0, .w1c, .silicon, 0, none⟩
def F.HIF_EVT_CNT0_RETRAIN_CNT : Fld := ⟨5242888, 31, 16, .ro, .silicon, 0, none⟩
def F.HIF_EVT_CNT0_DOWN_CNT : Fld := ⟨5242888, 15, 0, .ro, .silicon, 0, none⟩
def F.HIF_EVT_CNT1_MI_CNT : Fld := ⟨5242892, 31, 16, .ro, .silicon, 0, none⟩
def F.HIF_EVT_CNT1_DB_CNT : Fld := ⟨5242892, 15, 0, .ro, .silicon, 0, none⟩
def F.HIF_P0_LINK_CREDIT : Fld := ⟨5242912, 31, 10, .ro, .silicon, 0, none⟩
def F.HIF_P0_LINK_PM : Fld := ⟨5242912, 9, 8, .ro, .silicon, 0, none⟩
def F.HIF_P0_LINK_FLIT : Fld := ⟨5242912, 7, 7, .ro, .silicon, 0, none⟩
def F.HIF_P0_LINK_WIDTH : Fld := ⟨5242912, 6, 4, .ro, .silicon, 0, none⟩
def F.HIF_P0_LINK_GEN : Fld := ⟨5242912, 3, 1, .ro, .silicon, 0, none⟩
def F.HIF_P0_LINK_UP : Fld := ⟨5242912, 0, 0, .ro, .silicon, 0, none⟩
def F.HIF_P1_LINK_CREDIT : Fld := ⟨5242916, 31, 10, .ro, .silicon, 0, none⟩
def F.HIF_P1_LINK_PM : Fld := ⟨5242916, 9, 8, .ro, .silicon, 0, none⟩
def F.HIF_P1_LINK_FLIT : Fld := ⟨5242916, 7, 7, .ro, .silicon, 0, none⟩
def F.HIF_P1_LINK_WIDTH : Fld := ⟨5242916, 6, 4, .ro, .silicon, 0, none⟩
def F.HIF_P1_LINK_GEN : Fld := ⟨5242916, 3, 1, .ro, .silicon, 0, none⟩
def F.HIF_P1_LINK_UP : Fld := ⟨5242916, 0, 0, .ro, .silicon, 0, none⟩
def F.HIF_QP_POOL_FREE : Fld := ⟨5242928, 15, 0, .ro, .unit, 0, none⟩
def F.HIF_FN_IDX_FN : Fld := ⟨5242944, 10, 0, .rw, .silicon, 0, none⟩
def F.HIF_FN_STAT_EN : Fld := ⟨5242948, 31, 31, .ro, .silicon, 0, none⟩
def F.HIF_FN_STAT_PORT : Fld := ⟨5242948, 30, 30, .ro, .silicon, 0, none⟩
def F.HIF_FN_STAT_QP : Fld := ⟨5242948, 28, 16, .ro, .silicon, 0, none⟩
def F.HIF_FN_STAT_TID : Fld := ⟨5242948, 11, 0, .ro, .silicon, 0, none⟩
def F.HIF_MI_CFG_VDM_EN : Fld := ⟨5242960, 16, 16, .rw, .silicon, 1, none⟩
def F.HIF_MI_CFG_SMB_FREQ : Fld := ⟨5242960, 13, 12, .ro, .silicon, 0, none⟩
def F.HIF_MI_CFG_WAKE_ADDR : Fld := ⟨5242960, 6, 0, .rw, .oem, (Config.oemHIFMICFGWAKEADDR % 128), none⟩
def F.RLT_STAT_WAITING : Fld := ⟨6291456, 28, 16, .ro, .silicon, 0, none⟩
def F.RLT_STAT_USED : Fld := ⟨6291456, 12, 0, .ro, .silicon, 0, none⟩
def F.RLT_HWM_HWM : Fld := ⟨6291460, 12, 0, .rc, .silicon, 0, none⟩
def F.RLT_EVT_CONFLICT : Fld := ⟨6291464, 1, 1, .w1c, .silicon, 0, none⟩
def F.RLT_EVT_FULL : Fld := ⟨6291464, 0, 0, .w1c, .silicon, 0, none⟩
def F.RLT_EVT_CNT_CONF_CNT : Fld := ⟨6291468, 31, 16, .ro, .silicon, 0, none⟩
def F.RLT_EVT_CNT_FULL_CNT : Fld := ⟨6291468, 15, 0, .ro, .silicon, 0, none⟩
def F.RLT_OLD_LO_FSN : Fld := ⟨6291472, 31, 0, .ro, .silicon, 0, none⟩
def F.RLT_OLD_HI_FSN : Fld := ⟨6291476, 31, 0, .ro, .silicon, 0, none⟩
def F.LND_SEL_IDX : Fld := ⟨7340032, 11, 0, .rw, .silicon, 0, none⟩
def F.LND_STAT_HOLDUP_OK : Fld := ⟨7340036, 31, 31, .ro, .silicon, 0, none⟩
def F.LND_STAT_CATCHUP : Fld := ⟨7340036, 30, 30, .ro, .silicon, 0, none⟩
def F.LND_STAT_FREE : Fld := ⟨7340036, 27, 16, .ro, .silicon, 3072, none⟩
def F.LND_STAT_HELD : Fld := ⟨7340036, 11, 0, .ro, .silicon, 0, none⟩
def F.LND_CFG_GC_RSV : Fld := ⟨7340040, 11, 0, .rw, .silicon, 256, some (64, 1024)⟩
def F.LND_EVT_DISCARD : Fld := ⟨7340044, 1, 1, .w1c, .silicon, 0, none⟩
def F.LND_EVT_FULL : Fld := ⟨7340044, 0, 0, .w1c, .silicon, 0, none⟩
def F.LND_EVT_CNT_DISC_CNT : Fld := ⟨7340048, 31, 16, .ro, .silicon, 0, none⟩
def F.LND_EVT_CNT_FULL_CNT : Fld := ⟨7340048, 15, 0, .ro, .silicon, 0, none⟩
def F.LND_WSN_LO_WSN : Fld := ⟨7340052, 31, 0, .ro, .silicon, 0, none⟩
def F.LND_WSN_HI_WSN : Fld := ⟨7340056, 31, 0, .ro, .silicon, 0, none⟩
def F.FCH_SEL_IDX : Fld := ⟨8388608, 11, 0, .rw, .silicon, 0, none⟩
def F.FCH_CFG_MIX : Fld := ⟨8388612, 4, 4, .rw, .silicon, 0, none⟩
def F.FCH_CFG_SPLIT_EN : Fld := ⟨8388612, 3, 3, .rw, .silicon, 1, none⟩
def F.FCH_CFG_SPLIT_MAX : Fld := ⟨8388612, 2, 0, .rw, .silicon, 2, some (0, 2)⟩
def F.FCH_STAT_STREAMS : Fld := ⟨8388616, 9, 8, .ro, .silicon, 0, none⟩
def F.FCH_STAT_CAL : Fld := ⟨8388616, 7, 7, .ro, .silicon, 0, none⟩
def F.FCH_STAT_RATE : Fld := ⟨8388616, 6, 4, .ro, .silicon, 0, none⟩
def F.FCH_STAT_MODE : Fld := ⟨8388616, 1, 0, .ro, .silicon, 0, none⟩
def F.FCH_LUN_IDX_LUN : Fld := ⟨8388620, 4, 0, .rw, .silicon, 0, none⟩
def F.FCH_LUN_STAT_SUSP : Fld := ⟨8388624, 7, 4, .ro, .silicon, 0, none⟩
def F.FCH_LUN_STAT_SUSPENDED : Fld := ⟨8388624, 3, 3, .ro, .silicon, 0, none⟩
def F.FCH_LUN_STAT_BUSY : Fld := ⟨8388624, 2, 2, .ro, .silicon, 0, none⟩
def F.FCH_LUN_STAT_STATE : Fld := ⟨8388624, 1, 0, .ro, .silicon, 0, none⟩
def F.FCH_OPT0_RD_QLC : Fld := ⟨8388640, 31, 16, .rw, .silicon, 60, some (1, 20000)⟩
def F.FCH_OPT0_RD_SLC : Fld := ⟨8388640, 15, 0, .rw, .silicon, 20, some (1, 20000)⟩
def F.FCH_OPT1_PG_QLC : Fld := ⟨8388644, 31, 16, .rw, .silicon, 3000, some (1, 20000)⟩
def F.FCH_OPT1_PG_SLC : Fld := ⟨8388644, 15, 0, .rw, .silicon, 200, some (1, 20000)⟩
def F.FCH_OPT2_ER_QLC : Fld := ⟨8388648, 31, 16, .rw, .silicon, 10000, some (1, 20000)⟩
def F.FCH_OPT2_ER_SLC : Fld := ⟨8388648, 15, 0, .rw, .silicon, 3000, some (1, 20000)⟩
def F.FCH_OPT3_TSUSP : Fld := ⟨8388652, 7, 0, .rw, .silicon, 30, some (1, 255)⟩
def F.FCH_PROF0_ER_RES : Fld := ⟨8388656, 31, 24, .rw, .silicon, 0, none⟩
def F.FCH_PROF0_ER_SUSP : Fld := ⟨8388656, 23, 16, .rw, .silicon, 0, none⟩
def F.FCH_PROF0_PG_RES : Fld := ⟨8388656, 15, 8, .rw, .silicon, 0, none⟩
def F.FCH_PROF0_PG_SUSP : Fld := ⟨8388656, 7, 0, .rw, .silicon, 0, none⟩
def F.FCH_PROF1_RETRY_FA : Fld := ⟨8388660, 15, 8, .rw, .silicon, 0, none⟩
def F.FCH_PROF1_SLC_PFX : Fld := ⟨8388660, 7, 0, .rw, .silicon, 0, none⟩
def F.FCH_PROF2_IPR : Fld := ⟨8388664, 11, 11, .rw, .silicon, 0, none⟩
def F.FCH_PROF2_SUSP_BIT : Fld := ⟨8388664, 10, 8, .rw, .silicon, 0, none⟩
def F.FCH_PROF2_QLC_LOAD : Fld := ⟨8388664, 7, 0, .rw, .silicon, 0, none⟩
def F.FCH_CAL_START : Fld := ⟨8388672, 31, 31, .wo, .silicon, 0, none⟩
def F.FCH_CAL_SHIFT_MAX : Fld := ⟨8388672, 21, 16, .rw, .silicon, 8, some (1, 32)⟩
def F.FCH_CAL_TDELTA : Fld := ⟨8388672, 15, 8, .rw, .silicon, 10, some (2, 40)⟩
def F.FCH_CAL_PERIOD : Fld := ⟨8388672, 7, 0, .rw, .silicon, 60, some (1, 255)⟩
def F.FCH_EVT_GEOM : Fld := ⟨8388676, 5, 5, .w1c, .silicon, 0, none⟩
def F.FCH_EVT_NOIF : Fld := ⟨8388676, 4, 4, .w1c, .silicon, 0, none⟩
def F.FCH_EVT_MIXED : Fld := ⟨8388676, 3, 3, .w1c, .silicon, 0, none⟩
def F.FCH_EVT_CAL_SHIFT : Fld := ⟨8388676, 2, 2, .w1c, .silicon, 0, none⟩
def F.FCH_EVT_CA_PAR : Fld := ⟨8388676, 1, 1, .w1c, .silicon, 0, none⟩
def F.FCH_EVT_TIMEOUT : Fld := ⟨8388676, 0, 0, .w1c, .silicon, 0, none⟩
def F.FCH_EVT_CNT0_CAPAR_CNT : Fld := ⟨8388680, 31, 16, .ro, .silicon, 0, none⟩
def F.FCH_EVT_CNT0_TOUT_CNT : Fld := ⟨8388680, 15, 0, .ro, .silicon, 0, none⟩
def F.FCH_EVT_CNT1_SHIFT_CNT : Fld := ⟨8388684, 31, 16, .ro, .silicon, 0, none⟩
def F.FCH_EVT_CNT1_IF_CNT : Fld := ⟨8388684, 15, 0, .ro, .silicon, 0, none⟩
def F.FCH_CHUNK_GOOD_GOOD : Fld := ⟨8388688, 23, 0, .ro, .unit, 0, none⟩
def F.FCH_CHUNK_GROWN_GROWN : Fld := ⟨8388692, 23, 0, .ro, .unit, 0, none⟩
def F.FCH_EVT_CNT2_GEOM_CNT : Fld := ⟨8388696, 31, 16, .ro, .silicon, 0, none⟩
def F.FCH_EVT_CNT2_MIXED_CNT : Fld := ⟨8388696, 15, 0, .ro, .silicon, 0, none⟩
def F.FCH_RTY1_P4 : Fld := ⟨8388868, 31, 24, .rw, .silicon, 0, none⟩
def F.FCH_RTY1_P3 : Fld := ⟨8388868, 23, 16, .rw, .silicon, 0, none⟩
def F.FCH_RTY1_P2 : Fld := ⟨8388868, 15, 8, .rw, .silicon, 0, none⟩
def F.FCH_RTY1_P1 : Fld := ⟨8388868, 7, 0, .rw, .silicon, 0, none⟩
def F.FCH_RTY2_P4 : Fld := ⟨8388872, 31, 24, .rw, .silicon, 0, none⟩
def F.FCH_RTY2_P3 : Fld := ⟨8388872, 23, 16, .rw, .silicon, 0, none⟩
def F.FCH_RTY2_P2 : Fld := ⟨8388872, 15, 8, .rw, .silicon, 0, none⟩
def F.FCH_RTY2_P1 : Fld := ⟨8388872, 7, 0, .rw, .silicon, 0, none⟩
def F.FCH_RTY3_P4 : Fld := ⟨8388876, 31, 24, .rw, .silicon, 0, none⟩
def F.FCH_RTY3_P3 : Fld := ⟨8388876, 23, 16, .rw, .silicon, 0, none⟩
def F.FCH_RTY3_P2 : Fld := ⟨8388876, 15, 8, .rw, .silicon, 0, none⟩
def F.FCH_RTY3_P1 : Fld := ⟨8388876, 7, 0, .rw, .silicon, 0, none⟩
def F.FCH_RTY4_P4 : Fld := ⟨8388880, 31, 24, .rw, .silicon, 0, none⟩
def F.FCH_RTY4_P3 : Fld := ⟨8388880, 23, 16, .rw, .silicon, 0, none⟩
def F.FCH_RTY4_P2 : Fld := ⟨8388880, 15, 8, .rw, .silicon, 0, none⟩
def F.FCH_RTY4_P1 : Fld := ⟨8388880, 7, 0, .rw, .silicon, 0, none⟩
def F.FCH_RTY5_P4 : Fld := ⟨8388884, 31, 24, .rw, .silicon, 0, none⟩
def F.FCH_RTY5_P3 : Fld := ⟨8388884, 23, 16, .rw, .silicon, 0, none⟩
def F.FCH_RTY5_P2 : Fld := ⟨8388884, 15, 8, .rw, .silicon, 0, none⟩
def F.FCH_RTY5_P1 : Fld := ⟨8388884, 7, 0, .rw, .silicon, 0, none⟩
def F.FCH_RTY6_P4 : Fld := ⟨8388888, 31, 24, .rw, .silicon, 0, none⟩
def F.FCH_RTY6_P3 : Fld := ⟨8388888, 23, 16, .rw, .silicon, 0, none⟩
def F.FCH_RTY6_P2 : Fld := ⟨8388888, 15, 8, .rw, .silicon, 0, none⟩
def F.FCH_RTY6_P1 : Fld := ⟨8388888, 7, 0, .rw, .silicon, 0, none⟩
def F.FCH_RTY7_P4 : Fld := ⟨8388892, 31, 24, .rw, .silicon, 0, none⟩
def F.FCH_RTY7_P3 : Fld := ⟨8388892, 23, 16, .rw, .silicon, 0, none⟩
def F.FCH_RTY7_P2 : Fld := ⟨8388892, 15, 8, .rw, .silicon, 0, none⟩
def F.FCH_RTY7_P1 : Fld := ⟨8388892, 7, 0, .rw, .silicon, 0, none⟩
def F.FCH_RTY8_P4 : Fld := ⟨8388896, 31, 24, .rw, .silicon, 0, none⟩
def F.FCH_RTY8_P3 : Fld := ⟨8388896, 23, 16, .rw, .silicon, 0, none⟩
def F.FCH_RTY8_P2 : Fld := ⟨8388896, 15, 8, .rw, .silicon, 0, none⟩
def F.FCH_RTY8_P1 : Fld := ⟨8388896, 7, 0, .rw, .silicon, 0, none⟩
def F.FCH_RTY9_P4 : Fld := ⟨8388900, 31, 24, .rw, .silicon, 0, none⟩
def F.FCH_RTY9_P3 : Fld := ⟨8388900, 23, 16, .rw, .silicon, 0, none⟩
def F.FCH_RTY9_P2 : Fld := ⟨8388900, 15, 8, .rw, .silicon, 0, none⟩
def F.FCH_RTY9_P1 : Fld := ⟨8388900, 7, 0, .rw, .silicon, 0, none⟩
def F.FCH_RTY10_P4 : Fld := ⟨8388904, 31, 24, .rw, .silicon, 0, none⟩
def F.FCH_RTY10_P3 : Fld := ⟨8388904, 23, 16, .rw, .silicon, 0, none⟩
def F.FCH_RTY10_P2 : Fld := ⟨8388904, 15, 8, .rw, .silicon, 0, none⟩
def F.FCH_RTY10_P1 : Fld := ⟨8388904, 7, 0, .rw, .silicon, 0, none⟩
def F.FCH_RTY11_P4 : Fld := ⟨8388908, 31, 24, .rw, .silicon, 0, none⟩
def F.FCH_RTY11_P3 : Fld := ⟨8388908, 23, 16, .rw, .silicon, 0, none⟩
def F.FCH_RTY11_P2 : Fld := ⟨8388908, 15, 8, .rw, .silicon, 0, none⟩
def F.FCH_RTY11_P1 : Fld := ⟨8388908, 7, 0, .rw, .silicon, 0, none⟩
def F.FCH_RTY12_P4 : Fld := ⟨8388912, 31, 24, .rw, .silicon, 0, none⟩
def F.FCH_RTY12_P3 : Fld := ⟨8388912, 23, 16, .rw, .silicon, 0, none⟩
def F.FCH_RTY12_P2 : Fld := ⟨8388912, 15, 8, .rw, .silicon, 0, none⟩
def F.FCH_RTY12_P1 : Fld := ⟨8388912, 7, 0, .rw, .silicon, 0, none⟩
def F.FCH_RTY13_P4 : Fld := ⟨8388916, 31, 24, .rw, .silicon, 0, none⟩
def F.FCH_RTY13_P3 : Fld := ⟨8388916, 23, 16, .rw, .silicon, 0, none⟩
def F.FCH_RTY13_P2 : Fld := ⟨8388916, 15, 8, .rw, .silicon, 0, none⟩
def F.FCH_RTY13_P1 : Fld := ⟨8388916, 7, 0, .rw, .silicon, 0, none⟩
def F.FCH_RTY14_P4 : Fld := ⟨8388920, 31, 24, .rw, .silicon, 0, none⟩
def F.FCH_RTY14_P3 : Fld := ⟨8388920, 23, 16, .rw, .silicon, 0, none⟩
def F.FCH_RTY14_P2 : Fld := ⟨8388920, 15, 8, .rw, .silicon, 0, none⟩
def F.FCH_RTY14_P1 : Fld := ⟨8388920, 7, 0, .rw, .silicon, 0, none⟩
def F.FCH_RTY15_P4 : Fld := ⟨8388924, 31, 24, .rw, .silicon, 0, none⟩
def F.FCH_RTY15_P3 : Fld := ⟨8388924, 23, 16, .rw, .silicon, 0, none⟩
def F.FCH_RTY15_P2 : Fld := ⟨8388924, 15, 8, .rw, .silicon, 0, none⟩
def F.FCH_RTY15_P1 : Fld := ⟨8388924, 7, 0, .rw, .silicon, 0, none⟩
def F.GRP_SEL_IDX : Fld := ⟨9437184, 11, 0, .rw, .silicon, 0, none⟩
def F.GRP_LIST_CTL_BUF : Fld := ⟨9437188, 8, 8, .ro, .silicon, 0, none⟩
def F.GRP_LIST_CTL_COMMIT : Fld := ⟨9437188, 7, 0, .w1s, .silicon, 0, none⟩
def F.GRP_CQ_HEAD_HEAD : Fld := ⟨9437192, 9, 0, .rw, .silicon, 0, none⟩
def F.GRP_CQ_TAIL_TAIL : Fld := ⟨9437196, 9, 0, .ro, .silicon, 0, none⟩
def F.GRP_EVT_CQ_FULL : Fld := ⟨9437200, 1, 1, .w1c, .silicon, 0, none⟩
def F.GRP_EVT_LATE : Fld := ⟨9437200, 0, 0, .w1c, .silicon, 0, none⟩
def F.GRP_EVT_CNT_FULL_CNT : Fld := ⟨9437204, 31, 16, .ro, .silicon, 0, none⟩
def F.GRP_EVT_CNT_LATE_CNT : Fld := ⟨9437204, 15, 0, .ro, .silicon, 0, none⟩
def F.GRP_DR_HEAD_HEAD : Fld := ⟨9437208, 9, 0, .rw, .silicon, 0, none⟩
def F.GRP_DR_TAIL_TAIL : Fld := ⟨9437212, 9, 0, .ro, .silicon, 0, none⟩
def F.GRP_LDPC_CFG_ERS_MAX : Fld := ⟨9437216, 23, 16, .rw, .silicon, 48, some (0, 255)⟩
def F.GRP_LDPC_CFG_EW : Fld := ⟨9437216, 8, 0, .rw, .silicon, 120, some (16, 180)⟩
def F.GRP_LDPC_EVT_DR_FULL : Fld := ⟨9437220, 2, 2, .w1c, .silicon, 0, none⟩
def F.GRP_LDPC_EVT_FAIL : Fld := ⟨9437220, 1, 1, .w1c, .silicon, 0, none⟩
def F.GRP_LDPC_EVT_EARLY : Fld := ⟨9437220, 0, 0, .w1c, .silicon, 0, none⟩
def F.GRP_LDPC_CNT0_FAIL_CNT : Fld := ⟨9437224, 31, 16, .ro, .silicon, 0, none⟩
def F.GRP_LDPC_CNT0_EARLY_CNT : Fld := ⟨9437224, 15, 0, .ro, .silicon, 0, none⟩
def F.GRP_LDPC_CNT1_FULL_CNT : Fld := ⟨9437228, 15, 0, .ro, .silicon, 0, none⟩
def F.QD_SEL_IDX : Fld := ⟨10485760, 11, 0, .rw, .silicon, 0, none⟩
def F.QD_SEG_FORM_FORM : Fld := ⟨10486016, 23, 0, .ro, .unit, 0, none⟩
def F.QD_SEG_PROM_PROM : Fld := ⟨10486020, 23, 0, .ro, .unit, 0, none⟩
def F.QD_SEG_SPARE_SPARE : Fld := ⟨10486024, 23, 0, .ro, .unit, 0, none⟩
def F.QD_SEG_GUARD_GUARD : Fld := ⟨10486028, 23, 0, .ro, .unit, 0, none⟩
def F.QD_CAP_STAT_AT_FLOOR : Fld := ⟨10486032, 1, 1, .ro, .silicon, 0, none⟩
def F.QD_CAP_STAT_AT_GUARD : Fld := ⟨10486032, 0, 0, .ro, .silicon, 0, none⟩
def F.QD_CAP_EVT_RDONLY : Fld := ⟨10486036, 1, 1, .w1c, .silicon, 0, none⟩
def F.QD_CAP_EVT_OFFLINE : Fld := ⟨10486036, 0, 0, .w1c, .silicon, 0, none⟩
def F.QD_CAP_CNT_RO_CNT : Fld := ⟨10486040, 31, 16, .ro, .silicon, 0, none⟩
def F.QD_CAP_CNT_OFF_CNT : Fld := ⟨10486040, 15, 0, .ro, .silicon, 0, none⟩
def F.QD_SLC_BUDGET_BUDGET : Fld := ⟨10486272, 23, 0, .ro, .unit, 0, none⟩
def F.QD_SLC_USED_USED : Fld := ⟨10486276, 23, 0, .ro, .unit, 0, none⟩
def F.QD_SEG_FREE_FREE : Fld := ⟨10486280, 23, 0, .ro, .unit, 0, none⟩
def F.QD_GC_CFG0_GC_START : Fld := ⟨10486284, 31, 16, .rw, .silicon, 2048, some (2, 65535)⟩
def F.QD_GC_CFG0_GC_LOW : Fld := ⟨10486284, 15, 0, .rw, .silicon, 512, some (1, 65534)⟩
def F.QD_GC_CFG1_GC_RSV : Fld := ⟨10486288, 31, 16, .rw, .silicon, 128, some (1, 65533)⟩
def F.QD_GC_CFG1_FOLD_START : Fld := ⟨10486288, 7, 0, .rw, .silicon, 128, some (16, 240)⟩
def F.QD_GC_STAT_FOLD : Fld := ⟨10486292, 2, 2, .ro, .silicon, 0, none⟩
def F.QD_GC_STAT_EMERG : Fld := ⟨10486292, 1, 1, .ro, .silicon, 0, none⟩
def F.QD_GC_STAT_ACTIVE : Fld := ⟨10486292, 0, 0, .ro, .silicon, 0, none⟩
def F.QD_GC_EVT_SLC_FULL : Fld := ⟨10486296, 1, 1, .w1c, .silicon, 0, none⟩
def F.QD_GC_EVT_HOOK : Fld := ⟨10486296, 0, 0, .w1c, .silicon, 0, none⟩
def F.QD_GC_CNT_SLC_CNT : Fld := ⟨10486300, 31, 16, .ro, .silicon, 0, none⟩
def F.QD_GC_CNT_HOOK_CNT : Fld := ⟨10486300, 15, 0, .ro, .silicon, 0, none⟩
def F.QD_PAR_CFG_SLC_CLOSE : Fld := ⟨10486528, 13, 8, .rw, .silicon, 16, some (2, 63)⟩
def F.QD_PAR_CFG_ACC_MAX : Fld := ⟨10486528, 5, 0, .rw, .silicon, 16, some (4, 32)⟩
def F.QD_PAR_STAT_TWO : Fld := ⟨10486532, 31, 31, .ro, .silicon, 0, none⟩
def F.QD_PAR_STAT_DEGRADED : Fld := ⟨10486532, 23, 8, .ro, .silicon, 0, none⟩
def F.QD_PAR_STAT_ACC_USED : Fld := ⟨10486532, 5, 0, .ro, .silicon, 0, none⟩
def F.QD_MED_CFG_LAP : Fld := ⟨10486536, 31, 24, .rw, .silicon, 7, some (1, 60)⟩
def F.QD_MED_CFG_DISTURB : Fld := ⟨10486536, 23, 8, .rw, .silicon, 96, some (1, 65535)⟩
def F.QD_MED_CFG_REFRESH_EW : Fld := ⟨10486536, 7, 0, .rw, .silicon, 8, some (1, 255)⟩
def F.QD_WEAR_CFG_RATED_SLC : Fld := ⟨10486540, 31, 16, .rw, .silicon, 60000, some (1000, 65535)⟩
def F.QD_WEAR_CFG_RATED_QLC : Fld := ⟨10486540, 15, 0, .rw, .silicon, 3000, some (100, 65535)⟩
def F.QD_WEAR_MAX : Fld := ⟨10486544, 31, 16, .ro, .unit, 0, none⟩
def F.QD_WEAR_AVG : Fld := ⟨10486544, 15, 0, .ro, .unit, 0, none⟩
def F.QD_MED_EVT_TWO_ERASE : Fld := ⟨10486548, 3, 3, .w1c, .silicon, 0, none⟩
def F.QD_MED_EVT_POISON : Fld := ⟨10486548, 2, 2, .w1c, .silicon, 0, none⟩
def F.QD_MED_EVT_RETIRE : Fld := ⟨10486548, 1, 1, .w1c, .silicon, 0, none⟩
def F.QD_MED_EVT_REFRESH : Fld := ⟨10486548, 0, 0, .w1c, .silicon, 0, none⟩
def F.QD_MED_CNT0_RETIRE_CNT : Fld := ⟨10486552, 31, 16, .ro, .silicon, 0, none⟩
def F.QD_MED_CNT0_REFRESH_CNT : Fld := ⟨10486552, 15, 0, .ro, .silicon, 0, none⟩
def F.QD_MED_CNT1_TWO_CNT : Fld := ⟨10486556, 31, 16, .ro, .silicon, 0, none⟩
def F.QD_MED_CNT1_POISON_CNT : Fld := ⟨10486556, 15, 0, .ro, .silicon, 0, none⟩
def F.ENG_SEL_IDX : Fld := ⟨11534336, 11, 0, .rw, .silicon, 0, none⟩
def F.ENG_STAT_CYC_LAST : Fld := ⟨11534340, 29, 16, .ro, .silicon, 0, none⟩
def F.ENG_STAT_STEPS_LAST : Fld := ⟨11534340, 15, 8, .ro, .silicon, 0, none⟩
def F.ENG_STAT_PROG : Fld := ⟨11534340, 2, 2, .ro, .silicon, 0, none⟩
def F.ENG_STAT_RING : Fld := ⟨11534340, 1, 0, .ro, .silicon, 0, none⟩
def F.ENG_IMG_BUILD : Fld := ⟨11534344, 31, 16, .ro, .unit, 0, none⟩
def F.ENG_IMG_SVN : Fld := ⟨11534344, 7, 0, .ro, .unit, 0, none⟩
def F.ENG_TRAPS_TRAPS : Fld := ⟨11534348, 31, 0, .rc, .silicon, 0, none⟩
def F.DRC_SEL_IDX : Fld := ⟨12582912, 11, 0, .rw, .silicon, 0, none⟩
def F.DRC_SC_CFG_RDIMM : Fld := ⟨12582916, 8, 8, .ro, .oem, (Config.oemDRCSCCFGRDIMM % 2), none⟩
def F.DRC_SC_CFG_RANKS : Fld := ⟨12582916, 5, 4, .ro, .oem, (Config.oemDRCSCCFGRANKS % 4), none⟩
def F.DRC_SC_CFG_DENSITY : Fld := ⟨12582916, 0, 0, .ro, .oem, (Config.oemDRCSCCFGDENSITY % 2), none⟩
def F.DRC_SC_STAT_PPR : Fld := ⟨12582920, 31, 24, .ro, .mram, 0, none⟩
def F.DRC_SC_STAT_HOT : Fld := ⟨12582920, 13, 13, .ro, .silicon, 0, none⟩
def F.DRC_SC_STAT_FSP : Fld := ⟨12582920, 12, 12, .ro, .silicon, 1, none⟩
def F.DRC_SC_STAT_OWED : Fld := ⟨12582920, 11, 8, .ro, .silicon, 0, none⟩
def F.DRC_SC_STAT_PHASE : Fld := ⟨12582920, 3, 0, .ro, .silicon, 0, none⟩
def F.DRC_SC_EYE_IDX_FSP : Fld := ⟨12582924, 4, 4, .rw, .silicon, 0, none⟩
def F.DRC_SC_EYE_IDX_STROBE : Fld := ⟨12582924, 3, 0, .rw, .silicon, 0, some (0, 9)⟩
def F.DRC_SC_EYE_WR_WIDTH : Fld := ⟨12582928, 31, 24, .ro, .silicon, 0, none⟩
def F.DRC_SC_EYE_WR_DLY : Fld := ⟨12582928, 23, 16, .ro, .silicon, 0, none⟩
def F.DRC_SC_EYE_RD_WIDTH : Fld := ⟨12582928, 15, 8, .ro, .silicon, 0, none⟩
def F.DRC_SC_EYE_RD_DLY : Fld := ⟨12582928, 7, 0, .ro, .silicon, 0, none⟩
def F.DRC_SC_EVT_TRAIN_FAIL : Fld := ⟨12582932, 4, 4, .w1c, .silicon, 0, none⟩
def F.DRC_SC_EVT_PPR_FAIL : Fld := ⟨12582932, 3, 3, .w1c, .silicon, 0, none⟩
def F.DRC_SC_EVT_PPR_DONE : Fld := ⟨12582932, 2, 2, .w1c, .silicon, 0, none⟩
def F.DRC_SC_EVT_TRACK : Fld := ⟨12582932, 1, 1, .w1c, .silicon, 0, none⟩
def F.DRC_SC_EVT_REF_FORCE : Fld := ⟨12582932, 0, 0, .w1c, .silicon, 0, none⟩
def F.DRC_SC_EVT_CNT0_TRACK_CNT : Fld := ⟨12582936, 31, 16, .ro, .silicon, 0, none⟩
def F.DRC_SC_EVT_CNT0_FORCE_CNT : Fld := ⟨12582936, 15, 0, .ro, .silicon, 0, none⟩
def F.DRC_SC_EVT_CNT1_PFAIL_CNT : Fld := ⟨12582940, 31, 16, .ro, .silicon, 0, none⟩
def F.DRC_SC_EVT_CNT1_PDONE_CNT : Fld := ⟨12582940, 15, 0, .ro, .silicon, 0, none⟩
def F.DRC_SC_EVT_CNT2_TFAIL_CNT : Fld := ⟨12582944, 15, 0, .ro, .silicon, 0, none⟩
def F.DRC_CFG_MIN_EYE : Fld := ⟨12583936, 23, 16, .rw, .silicon, 16, some (8, 64)⟩
def F.DRC_CFG_SR_IDLE : Fld := ⟨12583936, 15, 8, .rw, .silicon, 0, some (0, 255)⟩
def F.DRC_CFG_POSTPONE : Fld := ⟨12583936, 4, 4, .rw, .silicon, 1, none⟩
def F.DRC_CFG_GRAIN : Fld := ⟨12583936, 3, 0, .rw, .mram, 8, some (6, 14)⟩
def F.DRC_STAT_ACTIVE : Fld := ⟨12583940, 31, 24, .ro, .silicon, 0, none⟩
def F.DRC_STAT_N : Fld := ⟨12583940, 23, 20, .ro, .silicon, 0, none⟩
def F.DRC_STAT_FSP0_OK : Fld := ⟨12583940, 19, 19, .ro, .silicon, 0, none⟩
def F.DRC_STAT_FSP : Fld := ⟨12583940, 18, 18, .ro, .silicon, 1, none⟩
def F.DRC_STAT_FSP_PEND : Fld := ⟨12583940, 17, 17, .ro, .silicon, 0, none⟩
def F.DRC_STAT_SWEEP : Fld := ⟨12583940, 16, 16, .ro, .silicon, 0, none⟩
def F.DRC_STAT_EVAC : Fld := ⟨12583940, 15, 15, .ro, .silicon, 0, none⟩
def F.DRC_FSP_TARGET : Fld := ⟨12583944, 0, 0, .wo, .silicon, 0, none⟩
def F.DRC_TRACK_MAX : Fld := ⟨12583948, 15, 8, .rw, .silicon, 16, some (4, 64)⟩
def F.DRC_TRACK_PERIOD : Fld := ⟨12583948, 7, 0, .rw, .silicon, 1, some (1, 255)⟩
def F.DRC_EVAC_START : Fld := ⟨12583952, 31, 31, .wo, .silicon, 0, none⟩
def F.DRC_EVAC_SUB : Fld := ⟨12583952, 2, 0, .rw, .silicon, 0, none⟩
def F.DRC_EVAC_STAT_CODE : Fld := ⟨12583956, 31, 29, .ro, .silicon, 0, none⟩
def F.DRC_EVAC_STAT_LEFT : Fld := ⟨12583956, 25, 0, .ro, .silicon, 0, none⟩
def F.DRC_ROWKEY_KEY : Fld := ⟨12583960, 16, 0, .ro, .unit, 0, none⟩
def F.DRC_EVT_SC_FAIL : Fld := ⟨12583964, 3, 3, .w1c, .silicon, 0, none⟩
def F.DRC_EVT_FSP0_BAD : Fld := ⟨12583964, 2, 2, .w1c, .silicon, 0, none⟩
def F.DRC_EVT_EVAC_DONE : Fld := ⟨12583964, 1, 1, .w1c, .silicon, 0, none⟩
def F.DRC_EVT_FSP_DONE : Fld := ⟨12583964, 0, 0, .w1c, .silicon, 0, none⟩
def F.DRC_EVT_CNT0_EVAC_CNT : Fld := ⟨12583968, 31, 16, .ro, .silicon, 0, none⟩
def F.DRC_EVT_CNT0_FSP_CNT : Fld := ⟨12583968, 15, 0, .ro, .silicon, 0, none⟩
def F.DRC_EVT_CNT1_SCF_CNT : Fld := ⟨12583972, 31, 16, .ro, .silicon, 0, none⟩
def F.DRC_EVT_CNT1_BAD_CNT : Fld := ⟨12583972, 15, 0, .ro, .silicon, 0, none⟩
def F.DRC_QOS_IDX_PORT : Fld := ⟨12583984, 3, 0, .rw, .silicon, 0, none⟩
def F.DRC_QOS_TGT_FLOOR : Fld := ⟨12583988, 29, 28, .rw, .silicon, 0, some (0, 3)⟩
def F.DRC_QOS_TGT_SHARE : Fld := ⟨12583988, 27, 20, .rw, .unit, 0, some (1, 255)⟩
def F.DRC_QOS_TGT_TARGET : Fld := ⟨12583988, 19, 0, .rw, .unit, 0, some (100, 1000000)⟩
def F.DRC_QOS_STAT_URG : Fld := ⟨12583992, 17, 16, .ro, .silicon, 0, none⟩
def F.DRC_QOS_STAT_QUEUED : Fld := ⟨12583992, 15, 0, .ro, .silicon, 0, none⟩
def F.DRC_QOS_LATE_LATE : Fld := ⟨12583996, 31, 0, .rc, .silicon, 0, none⟩
def F.MEMP_CTL_DRAM_EN : Fld := ⟨13631488, 1, 1, .rw, .silicon, 1, none⟩
def F.MEMP_CTL_SRAM_EN : Fld := ⟨13631488, 0, 0, .rw, .silicon, 1, none⟩
def F.MEMP_STAT_ERASURE : Fld := ⟨13631492, 11, 8, .ro, .mram, 0, none⟩
def F.MEMP_STAT_PASS_BUSY : Fld := ⟨13631492, 0, 0, .ro, .silicon, 0, none⟩
def F.MEMP_SCRUB_CFG_SRAM_LAP : Fld := ⟨13631496, 23, 16, .rw, .silicon, 10, some (2, 255)⟩
def F.MEMP_SCRUB_CFG_DRAM_LAP : Fld := ⟨13631496, 10, 0, .rw, .silicon, 240, some (30, 1440)⟩
def F.MEMP_LAP_SRAM : Fld := ⟨13631500, 31, 16, .ro, .silicon, 0, none⟩
def F.MEMP_LAP_DRAM : Fld := ⟨13631500, 15, 0, .ro, .silicon, 0, none⟩
def F.MEMP_EVT_FLIP_DONE : Fld := ⟨13631504, 10, 10, .w1c, .silicon, 0, none⟩
def F.MEMP_EVT_PASS_REJ : Fld := ⟨13631504, 9, 9, .w1c, .silicon, 0, none⟩
def F.MEMP_EVT_PASS_DONE : Fld := ⟨13631504, 8, 8, .w1c, .silicon, 0, none⟩
def F.MEMP_EVT_REP_OVF : Fld := ⟨13631504, 7, 7, .w1c, .silicon, 0, none⟩
def F.MEMP_EVT_DEVFAIL : Fld := ⟨13631504, 6, 6, .w1c, .silicon, 0, none⟩
def F.MEMP_EVT_NOSPARE : Fld := ⟨13631504, 5, 5, .w1c, .silicon, 0, none⟩
def F.MEMP_EVT_HARD : Fld := ⟨13631504, 4, 4, .w1c, .silicon, 0, none⟩
def F.MEMP_EVT_POIS_USE : Fld := ⟨13631504, 3, 3, .w1c, .silicon, 0, none⟩
def F.MEMP_EVT_POIS_NEW : Fld := ⟨13631504, 2, 2, .w1c, .silicon, 0, none⟩
def F.MEMP_EVT_UNCORR : Fld := ⟨13631504, 1, 1, .w1c, .silicon, 0, none⟩
def F.MEMP_EVT_CORR : Fld := ⟨13631504, 0, 0, .w1c, .silicon, 0, none⟩
def F.MEMP_EVT_CNT0_UNCORR_CNT : Fld := ⟨13631508, 31, 16, .ro, .silicon, 0, none⟩
def F.MEMP_EVT_CNT0_CORR_CNT : Fld := ⟨13631508, 15, 0, .ro, .silicon, 0, none⟩
def F.MEMP_EVT_CNT1_PUSE_CNT : Fld := ⟨13631512, 31, 16, .ro, .silicon, 0, none⟩
def F.MEMP_EVT_CNT1_PNEW_CNT : Fld := ⟨13631512, 15, 0, .ro, .silicon, 0, none⟩
def F.MEMP_EVT_CNT2_NOSP_CNT : Fld := ⟨13631516, 31, 16, .ro, .silicon, 0, none⟩
def F.MEMP_EVT_CNT2_HARD_CNT : Fld := ⟨13631516, 15, 0, .ro, .silicon, 0, none⟩
def F.MEMP_EVT_CNT3_OVF_CNT : Fld := ⟨13631520, 31, 16, .ro, .silicon, 0, none⟩
def F.MEMP_EVT_CNT3_DEV_CNT : Fld := ⟨13631520, 15, 0, .ro, .silicon, 0, none⟩
def F.MEMP_EVT_CNT4_REJ_CNT : Fld := ⟨13631524, 31, 16, .ro, .silicon, 0, none⟩
def F.MEMP_EVT_CNT4_DONE_CNT : Fld := ⟨13631524, 15, 0, .ro, .silicon, 0, none⟩
def F.MEMP_EVT_CNT5_FLIP_CNT : Fld := ⟨13631528, 15, 0, .ro, .silicon, 0, none⟩
def F.MEMP_DEV_CFG_DECLARE : Fld := ⟨13631536, 31, 31, .wo, .silicon, 0, none⟩
def F.MEMP_DEV_CFG_SUB : Fld := ⟨13631536, 26, 24, .rw, .silicon, 0, some (0, 7)⟩
def F.MEMP_DEV_CFG_DEV : Fld := ⟨13631536, 23, 20, .rw, .silicon, 0, some (0, 9)⟩
def F.MEMP_DEV_CFG_AUTO : Fld := ⟨13631536, 16, 16, .rw, .silicon, 1, none⟩
def F.MEMP_DEV_CFG_THRESH : Fld := ⟨13631536, 15, 0, .rw, .silicon, 256, some (16, 65535)⟩
def F.MEMP_DEV_STAT_FAILED_D0 : Fld := ⟨13631540, 3, 0, .ro, .mram, 0, none⟩
def F.MEMP_DEV_STAT_FAILED_D1 : Fld := ⟨13631540, 7, 4, .ro, .mram, 0, none⟩
def F.MEMP_DEV_STAT_FAILED_D2 : Fld := ⟨13631540, 11, 8, .ro, .mram, 0, none⟩
def F.MEMP_DEV_STAT_FAILED_D3 : Fld := ⟨13631540, 15, 12, .ro, .mram, 0, none⟩
def F.MEMP_DEV_STAT_FAILED_D4 : Fld := ⟨13631540, 19, 16, .ro, .mram, 0, none⟩
def F.MEMP_DEV_STAT_FAILED_D5 : Fld := ⟨13631540, 23, 20, .ro, .mram, 0, none⟩
def F.MEMP_DEV_STAT_FAILED_D6 : Fld := ⟨13631540, 27, 24, .ro, .mram, 0, none⟩
def F.MEMP_DEV_STAT_FAILED_D7 : Fld := ⟨13631540, 31, 28, .ro, .mram, 0, none⟩
def F.MEMP_PASS_CTL_START : Fld := ⟨13631552, 31, 31, .wo, .silicon, 0, none⟩
def F.MEMP_PASS_CTL_STOP : Fld := ⟨13631552, 30, 30, .wo, .silicon, 0, none⟩
def F.MEMP_PASS_STAT_BUSY : Fld := ⟨13631556, 31, 31, .ro, .silicon, 0, none⟩
def F.MEMP_PASS_STAT_CODE : Fld := ⟨13631556, 30, 27, .ro, .silicon, 0, none⟩
def F.MEMP_PASS_STAT_DONE : Fld := ⟨13631556, 26, 0, .ro, .silicon, 0, none⟩
def F.MEMP_PASS_ADDR_LO_ADDR : Fld := ⟨13631560, 31, 0, .rw, .silicon, 0, none⟩
def F.MEMP_PASS_ADDR_HI_ADDR : Fld := ⟨13631564, 31, 0, .rw, .silicon, 0, none⟩
def F.MEMP_PASS_LEN_PAGES : Fld := ⟨13631568, 26, 0, .rw, .silicon, 1, some (1, 67108864)⟩
def F.MEMP_PASS_SUM0_CORR : Fld := ⟨13631572, 31, 16, .ro, .silicon, 0, none⟩
def F.MEMP_PASS_SUM0_UNCORR : Fld := ⟨13631572, 15, 0, .ro, .silicon, 0, none⟩
def F.MEMP_PASS_SUM1_POIS_FOUND : Fld := ⟨13631576, 31, 16, .ro, .silicon, 0, none⟩
def F.MEMP_PASS_SUM1_POIS_NEW : Fld := ⟨13631576, 15, 0, .ro, .silicon, 0, none⟩
def F.MEMP_PASS_FIRST_LO_ADDR : Fld := ⟨13631580, 31, 0, .ro, .silicon, 4294967295, none⟩
def F.MEMP_PASS_FIRST_HI_ADDR : Fld := ⟨13631584, 31, 0, .ro, .silicon, 4294967295, none⟩
def F.MEMP_REP_IDX_ENTRY : Fld := ⟨13631616, 7, 0, .rw, .silicon, 0, some (0, 255)⟩
def F.MEMP_REP_ADDR_LO_ADDR : Fld := ⟨13631620, 31, 0, .ro, .silicon, 0, none⟩
def F.MEMP_REP_ADDR_HI_ADDR : Fld := ⟨13631624, 31, 0, .ro, .silicon, 0, none⟩
def F.MEMP_REP_INFO_COUNT : Fld := ⟨13631628, 25, 24, .ro, .silicon, 0, none⟩
def F.MEMP_REP_INFO_FIRST_LAP : Fld := ⟨13631628, 23, 8, .ro, .silicon, 0, none⟩
def F.MEMP_REP_INFO_STATE : Fld := ⟨13631628, 1, 0, .ro, .silicon, 0, none⟩
def F.MEMP_FUSE_STAT_SOFT : Fld := ⟨13631648, 26, 16, .ro, .mram, 0, none⟩
def F.MEMP_FUSE_STAT_FACTORY : Fld := ⟨13631648, 10, 0, .ro, .mram, 0, none⟩
def F.MEMP_FUSE_IDX_ENTRY : Fld := ⟨13631652, 10, 0, .rw, .silicon, 0, none⟩
def F.MEMP_FUSE_LO_BYTES : Fld := ⟨13631656, 31, 0, .ro, .mram, 0, none⟩
def F.MEMP_FUSE_HI_BYTES : Fld := ⟨13631660, 31, 0, .ro, .mram, 0, none⟩
def F.MEMP_FLIP_CTL_ARM : Fld := ⟨13631680, 0, 0, .rw, .silicon, 0, none⟩
def F.MEMP_FLIP_ADDR_LO_ADDR : Fld := ⟨13631684, 31, 0, .rw, .silicon, 0, none⟩
def F.MEMP_FLIP_ADDR_HI_ADDR : Fld := ⟨13631688, 31, 0, .rw, .silicon, 0, none⟩
def F.MEMP_FLIP_D_LO_MASK : Fld := ⟨13631692, 31, 0, .rw, .silicon, 0, none⟩
def F.MEMP_FLIP_D_HI_MASK : Fld := ⟨13631696, 31, 0, .rw, .silicon, 0, none⟩
def F.MEMP_FLIP_C_MASK : Fld := ⟨13631700, 15, 0, .rw, .silicon, 0, none⟩
def F.CC_SEL_IDX : Fld := ⟨14680064, 11, 0, .rw, .silicon, 0, none⟩
def F.CC_STAT_PIPES_UP : Fld := ⟨14680068, 20, 16, .ro, .silicon, 16, none⟩
def F.CC_STAT_SUSP : Fld := ⟨14680068, 12, 8, .ro, .silicon, 0, none⟩
def F.CC_STAT_QUEUED : Fld := ⟨14680068, 3, 0, .ro, .silicon, 0, none⟩
def F.CC_PIPE_UP : Fld := ⟨14680072, 15, 0, .ro, .silicon, 65535, none⟩
def F.CC_RNG_POOL : Fld := ⟨14680076, 23, 16, .ro, .silicon, 64, none⟩
def F.CC_RNG_RUN : Fld := ⟨14680076, 4, 0, .ro, .silicon, 0, none⟩
def F.CC_EVT_KAT_FAIL : Fld := ⟨14680080, 2, 2, .w1c, .silicon, 0, none⟩
def F.CC_EVT_TRNG_BAD : Fld := ⟨14680080, 1, 1, .w1c, .silicon, 0, none⟩
def F.CC_EVT_RNG_STALL : Fld := ⟨14680080, 0, 0, .w1c, .silicon, 0, none⟩
def F.CC_EVT_CNT0_TRNG_CNT : Fld := ⟨14680084, 31, 16, .ro, .silicon, 0, none⟩
def F.CC_EVT_CNT0_STALL_CNT : Fld := ⟨14680084, 15, 0, .ro, .silicon, 0, none⟩
def F.CC_EVT_CNT1_KAT_CNT : Fld := ⟨14680088, 15, 0, .ro, .silicon, 0, none⟩
def F.CC_STALL_CYCLES : Fld := ⟨14680092, 31, 0, .rc, .silicon, 0, none⟩
def F.SEC_STAT_ZEROISED : Fld := ⟨15728640, 31, 31, .ro, .mram, 0, none⟩
def F.SEC_STAT_KIK : Fld := ⟨15728640, 30, 30, .ro, .mram, 0, none⟩
def F.SEC_STAT_OPKH : Fld := ⟨15728640, 29, 29, .ro, .mram, 0, none⟩
def F.SEC_STAT_POKH : Fld := ⟨15728640, 28, 28, .ro, .fuse, (Config.fuseSECSTATPOKH % 2), none⟩
def F.SEC_STAT_BOOT : Fld := ⟨15728640, 25, 24, .ro, .silicon, 0, none⟩
def F.SEC_STAT_VKEY : Fld := ⟨15728640, 21, 20, .ro, .silicon, 0, none⟩
def F.SEC_STAT_REVOKED : Fld := ⟨15728640, 19, 16, .ro, .fuse, (Config.fuseSECSTATREVOKED % 16), none⟩
def F.SEC_ALARM_SRC : Fld := ⟨15728644, 7, 0, .ro, .mram, 0, none⟩
def F.SEC_ALARM_CTL_FORCE : Fld := ⟨15728648, 0, 0, .wo, .silicon, 0, none⟩
def F.SEC_SVN_FE : Fld := ⟨15728652, 31, 24, .ro, .mram, 0, none⟩
def F.SEC_SVN_ME : Fld := ⟨15728652, 23, 16, .ro, .mram, 0, none⟩
def F.SEC_SVN_HE : Fld := ⟨15728652, 15, 8, .ro, .mram, 0, none⟩
def F.SEC_SVN_SE : Fld := ⟨15728652, 7, 0, .ro, .mram, 0, none⟩
def F.SEC_SVN_CTL_RAISE : Fld := ⟨15728656, 31, 31, .wo, .silicon, 0, none⟩
def F.SEC_SVN_CTL_AUTO : Fld := ⟨15728656, 0, 0, .rw, .silicon, 1, none⟩
def F.SEC_KEYS_GENERAL : Fld := ⟨15728660, 31, 16, .ro, .mram, 0, none⟩
def F.SEC_KEYS_NS : Fld := ⟨15728660, 12, 0, .ro, .mram, 0, none⟩
def F.SEC_SLOT_IDX_SLOT : Fld := ⟨15728664, 15, 0, .rw, .silicon, 0, none⟩
def F.SEC_SLOT_STAT_OWNER : Fld := ⟨15728668, 31, 20, .ro, .silicon, 0, none⟩
def F.SEC_SLOT_STAT_OWNER_O : Fld := ⟨15728668, 19, 19, .ro, .silicon, 0, none⟩
def F.SEC_SLOT_STAT_KIND : Fld := ⟨15728668, 18, 16, .ro, .silicon, 0, none⟩
def F.SEC_SLOT_STAT_STATE : Fld := ⟨15728668, 15, 14, .ro, .silicon, 0, none⟩
def F.SEC_SLOT_WSN_LO_ROT_WSN : Fld := ⟨15728672, 31, 0, .ro, .silicon, 0, none⟩
def F.SEC_SLOT_WSN_HI_ROT_WSN : Fld := ⟨15728676, 31, 0, .ro, .silicon, 0, none⟩
def F.SEC_EVT_ROLLBACK : Fld := ⟨15728680, 3, 3, .w1c, .silicon, 0, none⟩
def F.SEC_EVT_BLOB_REJ : Fld := ⟨15728680, 2, 2, .w1c, .silicon, 0, none⟩
def F.SEC_EVT_PROV : Fld := ⟨15728680, 1, 1, .w1c, .silicon, 0, none⟩
def F.SEC_EVT_RELOAD : Fld := ⟨15728680, 0, 0, .w1c, .silicon, 0, none⟩
def F.SEC_EVT_CNT0_PROV_CNT : Fld := ⟨15728684, 31, 16, .ro, .silicon, 0, none⟩
def F.SEC_EVT_CNT0_REL_CNT : Fld := ⟨15728684, 15, 0, .ro, .silicon, 0, none⟩
def F.SEC_REVOKE_KEY : Fld := ⟨15728688, 3, 0, .w1s, .mram, 0, none⟩
def F.SEC_EVT_CNT1_RB_CNT : Fld := ⟨15728692, 31, 16, .ro, .silicon, 0, none⟩
def F.SEC_EVT_CNT1_REJ_CNT : Fld := ⟨15728692, 15, 0, .ro, .silicon, 0, none⟩
def F.MRC_JNL_POS_LO_POS : Fld := ⟨16777472, 31, 0, .ro, .mram, 0, none⟩
def F.MRC_JNL_POS_HI_POS : Fld := ⟨16777476, 31, 0, .ro, .mram, 0, none⟩
def F.MRC_JNL_STAT_CLEAN : Fld := ⟨16777480, 31, 31, .ro, .mram, 0, none⟩
def F.MRC_JNL_STAT_OCC : Fld := ⟨16777480, 14, 0, .ro, .mram, 0, none⟩
def F.MRC_JNL_CKPT_SWEEP : Fld := ⟨16777484, 31, 16, .ro, .mram, 0, none⟩
def F.MRC_JNL_CKPT_PERIOD : Fld := ⟨16777484, 4, 0, .rw, .silicon, 8, some (2, 16)⟩
def F.MRC_JNL_EVT_SKIP : Fld := ⟨16777488, 1, 1, .w1c, .silicon, 0, none⟩
def F.MRC_JNL_EVT_FULL : Fld := ⟨16777488, 0, 0, .w1c, .silicon, 0, none⟩
def F.MRC_JNL_EVT_CNT_SKIP_CNT : Fld := ⟨16777492, 31, 16, .ro, .silicon, 0, none⟩
def F.MRC_JNL_EVT_CNT_FULL_CNT : Fld := ⟨16777492, 15, 0, .ro, .silicon, 0, none⟩
def F.PRG_CFG_T_SIGN : Fld := ⟨17825792, 16, 16, .rw, .silicon, 0, none⟩
def F.PRG_CFG_QOS_PER : Fld := ⟨17825792, 7, 0, .rw, .silicon, 16, some (1, 255)⟩
def F.PRG_STAT_T_LOADED : Fld := ⟨17825796, 26, 16, .ro, .silicon, 0, none⟩
def F.PRG_STAT_O_LOADED : Fld := ⟨17825796, 6, 0, .ro, .silicon, 0, none⟩
def F.PRG_OSVN_SVN : Fld := ⟨17825800, 31, 0, .ro, .mram, 0, none⟩
def F.PRG_TQUOTA_PAGES : Fld := ⟨17825804, 19, 0, .rw, .silicon, 65536, some (256, 1048575)⟩
def F.PRG_VRES_OFFSET : Fld := ⟨17825808, 31, 8, .ro, .silicon, 0, none⟩
def F.PRG_VRES_CODE : Fld := ⟨17825808, 7, 0, .ro, .silicon, 0, none⟩
def F.PRG_EVT_SUSP : Fld := ⟨17825812, 4, 4, .w1c, .silicon, 0, none⟩
def F.PRG_EVT_LATE : Fld := ⟨17825812, 3, 3, .w1c, .silicon, 0, none⟩
def F.PRG_EVT_REPL : Fld := ⟨17825812, 2, 2, .w1c, .silicon, 0, none⟩
def F.PRG_EVT_TRAP : Fld := ⟨17825812, 1, 1, .w1c, .silicon, 0, none⟩
def F.PRG_EVT_REJECT : Fld := ⟨17825812, 0, 0, .w1c, .silicon, 0, none⟩
def F.PRG_EVT_CNT0_TRAP_CNT : Fld := ⟨17825816, 31, 16, .ro, .silicon, 0, none⟩
def F.PRG_EVT_CNT0_REJ_CNT : Fld := ⟨17825816, 15, 0, .ro, .silicon, 0, none⟩
def F.PRG_EVT_CNT1_LATE_CNT : Fld := ⟨17825820, 31, 16, .ro, .silicon, 0, none⟩
def F.PRG_EVT_CNT1_REPL_CNT : Fld := ⟨17825820, 15, 0, .ro, .silicon, 0, none⟩
def F.PRG_EVT_CNT2_SUSP_CNT : Fld := ⟨17825824, 15, 0, .ro, .silicon, 0, none⟩
def F.PRG_FE_IDX_FE : Fld := ⟨17825828, 3, 0, .rw, .silicon, 0, none⟩
def F.PRG_FE_STAT_QUEUED : Fld := ⟨17825832, 31, 16, .ro, .silicon, 0, none⟩
def F.PRG_FE_STAT_RESIDENT : Fld := ⟨17825832, 2, 0, .ro, .silicon, 0, none⟩

/-- Registers of Table 18.5, part 0. -/
def regs0 : List Reg :=
  [⟨0, false, [F.SYS_ID_PART, F.SYS_ID_MAJOR, F.SYS_ID_MINOR]⟩,
   ⟨256, true, [F.SYS_UNIT_SEL_UNIT]⟩,
   ⟨260, false, [F.SYS_UNIT_DESC_ADDR, F.SYS_UNIT_DESC_CHILDREN, F.SYS_UNIT_DESC_OWNPWR, F.SYS_UNIT_DESC_IFVER]⟩,
   ⟨264, false, [F.SYS_UNIT_STAT_SERVER, F.SYS_UNIT_STAT_CHILD_UP, F.SYS_UNIT_STAT_CLK_ON, F.SYS_UNIT_STAT_PWR_ON, F.SYS_UNIT_STAT_BUSY, F.SYS_UNIT_STAT_ADOPTED, F.SYS_UNIT_STAT_STATE]⟩,
   ⟨268, false, [F.SYS_UNIT_ERR_SUB, F.SYS_UNIT_ERR_FENCED_BELOW, F.SYS_UNIT_ERR_OWN_F3, F.SYS_UNIT_ERR_OWN_F2, F.SYS_UNIT_ERR_OWN_F1, F.SYS_UNIT_ERR_OWN_F0]⟩,
   ⟨272, false, [F.SYS_UNIT_ECNT_LO_F1_CNT, F.SYS_UNIT_ECNT_LO_F0_CNT]⟩,
   ⟨276, false, [F.SYS_UNIT_ECNT_HI_F3_CNT, F.SYS_UNIT_ECNT_HI_F2_CNT]⟩,
   ⟨280, false, [F.SYS_UNIT_CMD_OP, F.SYS_UNIT_CMD_ARG]⟩,
   ⟨284, false, [F.SYS_UNIT_CRES_DONE, F.SYS_UNIT_CRES_LAST_OP, F.SYS_UNIT_CRES_CODE]⟩,
   ⟨288, false, [F.SYS_UNIT_PWR_REF_CNT, F.SYS_UNIT_PWR_REFUSED, F.SYS_UNIT_PWR_CUR, F.SYS_UNIT_PWR_AUTO, F.SYS_UNIT_PWR_REQ]⟩,
   ⟨320, false, [F.SYS_UNIT_CHILD0_ADDR]⟩,
   ⟨324, false, [F.SYS_UNIT_CHILD1_ADDR]⟩,
   ⟨328, false, [F.SYS_UNIT_CHILD2_ADDR]⟩,
   ⟨332, false, [F.SYS_UNIT_CHILD3_ADDR]⟩,
   ⟨336, false, [F.SYS_UNIT_CHILD4_ADDR]⟩,
   ⟨340, false, [F.SYS_UNIT_CHILD5_ADDR]⟩,
   ⟨344, false, [F.SYS_UNIT_CHILD6_ADDR]⟩,
   ⟨348, false, [F.SYS_UNIT_CHILD7_ADDR]⟩,
   ⟨352, false, [F.SYS_UNIT_CHILD8_ADDR]⟩,
   ⟨356, false, [F.SYS_UNIT_CHILD9_ADDR]⟩,
   ⟨360, false, [F.SYS_UNIT_CHILD10_ADDR]⟩,
   ⟨364, false, [F.SYS_UNIT_CHILD11_ADDR]⟩,
   ⟨368, false, [F.SYS_UNIT_CHILD12_ADDR]⟩,
   ⟨372, false, [F.SYS_UNIT_CHILD13_ADDR]⟩,
   ⟨376, false, [F.SYS_UNIT_CHILD14_ADDR]⟩,
   ⟨380, false, [F.SYS_UNIT_CHILD15_ADDR]⟩,
   ⟨384, true, [F.SYS_ACC_STAT_CMD_REJ, F.SYS_ACC_STAT_ACC_FAULT]⟩,
   ⟨388, true, [F.SYS_ACC_CNT_REJ_CNT, F.SYS_ACC_CNT_OFF_CNT]⟩,
   ⟨392, true, [F.SYS_ACC_ADDR_ADDR]⟩,
   ⟨512, false, [F.SYS_RST_CAUSE_PREV_END, F.SYS_RST_CAUSE_WARM, F.SYS_RST_CAUSE_SLOT]⟩,
   ⟨516, false, [F.SYS_LEVEL_WRITES, F.SYS_LEVEL_CLEAN, F.SYS_LEVEL_LEVEL]⟩,
   ⟨520, false, [F.SYS_LEVEL_T0_BRONZE, F.SYS_LEVEL_T0_TIN]⟩,
   ⟨524, false, [F.SYS_LEVEL_T1_WRITES, F.SYS_LEVEL_T1_STEEL]⟩,
   ⟨528, false, [F.SYS_ACT_ACTIVE, F.SYS_ACT_DONE, F.SYS_ACT_SKIPPED, F.SYS_ACT_CUR]⟩,
   ⟨532, false, [F.SYS_RETIRE_CLR_GO, F.SYS_RETIRE_CLR_UNIT]⟩,
   ⟨536, false, [F.SYS_EVT_LATE_STEEL, F.SYS_EVT_LATE_BRONZE, F.SYS_EVT_ACT_SKIP]⟩,
   ⟨540, false, [F.SYS_EVT_CNT0_BRZ_CNT, F.SYS_EVT_CNT0_SKIP_CNT]⟩,
   ⟨544, false, [F.SYS_EVT_CNT1_STL_CNT]⟩,
   ⟨1048576, false, [F.FRM_CTL_APPLY]⟩,
   ⟨1048580, false, [F.FRM_STAT_DRAIN, F.FRM_STAT_GC_EMERG, F.FRM_STAT_APPLY_PEND]⟩]

/-- Registers of Table 18.5, part 1. -/
def regs1 : List Reg :=
  [⟨1048584, false, [F.FRM_NUM_LO_NUM]⟩,
   ⟨1048588, false, [F.FRM_NUM_HI_NUM]⟩,
   ⟨1048592, false, [F.FRM_EVT_URG3, F.FRM_EVT_CFG_ERR, F.FRM_EVT_LATE_LIST]⟩,
   ⟨1048596, false, [F.FRM_EVT_CNT0_CFG_ERR_CNT, F.FRM_EVT_CNT0_LATE_CNT]⟩,
   ⟨1048600, false, [F.FRM_EVT_CNT1_URG3_CNT]⟩,
   ⟨1048608, false, [F.FRM_CLS_SHARE0_SCAN, F.FRM_CLS_SHARE0_SCRUB, F.FRM_CLS_SHARE0_GC, F.FRM_CLS_SHARE0_HOST]⟩,
   ⟨1048612, false, [F.FRM_CLS_SHARE1_GC_EMERG, F.FRM_CLS_SHARE1_JOURNAL]⟩,
   ⟨1048616, false, [F.FRM_SUSP_EN, F.FRM_SUSP_WIN]⟩,
   ⟨1048620, false, [F.FRM_ENG_RSV_RSV_CYC]⟩,
   ⟨1048624, false, [F.FRM_MISS_A_MISS]⟩,
   ⟨1048628, false, [F.FRM_MISS_B_MISS]⟩,
   ⟨1048632, false, [F.FRM_MISS_C_MISS]⟩,
   ⟨1048640, true, [F.FRM_LED_IDX_RES, F.FRM_LED_IDX_TID]⟩,
   ⟨1048644, false, [F.FRM_LED_CFG_BACKLOG, F.FRM_LED_CFG_WEIGHT]⟩,
   ⟨1048648, false, [F.FRM_LED_VT_LO_VT]⟩,
   ⟨1048652, false, [F.FRM_LED_VT_HI_VT]⟩,
   ⟨1048656, false, [F.FRM_LED_VMIN_LO_VMIN]⟩,
   ⟨1048660, false, [F.FRM_LED_VMIN_HI_VMIN]⟩,
   ⟨1048832, false, [F.FRM_MAP_STAT_REBUILD, F.FRM_MAP_STAT_LOADED, F.FRM_MAP_STAT_TAIL_DONE, F.FRM_MAP_STAT_INDEX_DONE]⟩,
   ⟨1048836, false, [F.FRM_MAP_PROMO_WIN, F.FRM_MAP_PROMO_THRESH]⟩,
   ⟨1048840, false, [F.FRM_MAP_DEMO_COLD]⟩,
   ⟨1048844, false, [F.FRM_MAP_FINE_FREE_FREE]⟩,
   ⟨1048848, false, [F.FRM_MAP_FINE_CFG_LOW, F.FRM_MAP_FINE_CFG_POIS]⟩,
   ⟨1048852, false, [F.FRM_MAP_HIT_CNT]⟩,
   ⟨1048856, false, [F.FRM_MAP_MISS_CNT]⟩,
   ⟨1048860, false, [F.FRM_MAP_EVT_REBUILD, F.FRM_MAP_EVT_POOL, F.FRM_MAP_EVT_LOW]⟩,
   ⟨1048864, false, [F.FRM_MAP_EVT_CNT0_POOL_CNT, F.FRM_MAP_EVT_CNT0_LOW_CNT]⟩,
   ⟨1048868, false, [F.FRM_MAP_EVT_CNT1_REB_CNT]⟩,
   ⟨2097152, false, [F.PWR_STATE_WAKE_SRC, F.PWR_STATE_TRANS, F.PWR_STATE_LAST_OP, F.PWR_STATE_HOST, F.PWR_STATE_CUR]⟩,
   ⟨2097156, false, [F.PWR_IDLE_FRAMES]⟩,
   ⟨2097160, false, [F.PWR_DROWSE_IDLE]⟩,
   ⟨2097164, false, [F.PWR_GRP_DROWSY]⟩,
   ⟨2097168, false, [F.PWR_HK_PERIOD]⟩,
   ⟨2097172, false, [F.PWR_EVT_RAIL, F.PWR_EVT_HU_INVALID, F.PWR_EVT_HU_OK, F.PWR_EVT_HU_DEG, F.PWR_EVT_PFAIL, F.PWR_EVT_WAKE_ENTRY]⟩,
   ⟨2097176, false, [F.PWR_EVT_CNT0_PFAIL_CNT, F.PWR_EVT_CNT0_WE_CNT]⟩,
   ⟨2097180, false, [F.PWR_EVT_CNT1_OK_CNT, F.PWR_EVT_CNT1_DEG_CNT]⟩,
   ⟨2097184, false, [F.PWR_EVT_CNT2_RAIL_CNT, F.PWR_EVT_CNT2_INV_CNT]⟩,
   ⟨2097188, false, []⟩,
   ⟨2097200, false, [F.PWR_HU_CFG_PERIOD, F.PWR_HU_CFG_DROP, F.PWR_HU_CFG_MIN]⟩,
   ⟨2097204, false, [F.PWR_HU_BRD0_VMIN, F.PWR_HU_BRD0_ITEST]⟩]

/-- Registers of Table 18.5, part 2. -/
def regs2 : List Reg :=
  [⟨2097208, false, [F.PWR_HU_BRD1_EFF]⟩,
   ⟨2097212, false, [F.PWR_HU_CTL_START]⟩,
   ⟨2097216, false, [F.PWR_HU_STAT_HEALTHY, F.PWR_HU_STAT_TESTING, F.PWR_HU_STAT_RESULT, F.PWR_HU_STAT_HOLD]⟩,
   ⟨2097220, false, [F.PWR_HU_CAP_CAP]⟩,
   ⟨2097408, false, [F.PWR_GOV_CTL_SWAP, F.PWR_GOV_CTL_SAVE, F.PWR_GOV_CTL_DEFAULT, F.PWR_GOV_CTL_THERM_EN]⟩,
   ⟨2097412, false, [F.PWR_GOV_STAT_DRAIN, F.PWR_GOV_STAT_RAMP, F.PWR_GOV_STAT_CLAMP, F.PWR_GOV_STAT_FALLBACK, F.PWR_GOV_STAT_REVERTED, F.PWR_GOV_STAT_SWAP_PEND, F.PWR_GOV_STAT_LIMIT, F.PWR_GOV_STAT_PIN]⟩,
   ⟨2097416, false, [F.PWR_GOV_CAP_BOARD]⟩,
   ⟨2097420, false, [F.PWR_GOV_REF_CAP, F.PWR_GOV_REF_REF]⟩,
   ⟨2097424, false, [F.PWR_GOV_RAMP_SLEW]⟩,
   ⟨2097428, false, [F.PWR_GOV_NOTCH_EN, F.PWR_GOV_NOTCH_Q, F.PWR_GOV_NOTCH_F0]⟩,
   ⟨2097432, false, [F.PWR_GOV_THERM0_TJ_LIM, F.PWR_GOV_THERM0_TB_LIM]⟩,
   ⟨2097436, false, [F.PWR_GOV_THERM1_K, F.PWR_GOV_THERM1_RISE, F.PWR_GOV_THERM1_MIN]⟩,
   ⟨2097440, false, [F.PWR_GOV_BUDGET_BASE, F.PWR_GOV_BUDGET_BUDGET]⟩,
   ⟨2097444, false, [F.PWR_GOV_FB_FB]⟩,
   ⟨2097448, false, [F.PWR_GOV_GUARD_RESID_MAX, F.PWR_GOV_GUARD_TOL]⟩,
   ⟨2097452, false, [F.PWR_GOV_INJ_MODE, F.PWR_GOV_INJ_PERIOD, F.PWR_GOV_INJ_AMP]⟩,
   ⟨2097456, false, [F.PWR_OPC0_RD_QLC, F.PWR_OPC0_RD_SLC]⟩,
   ⟨2097460, false, [F.PWR_OPC1_PG_QLC, F.PWR_OPC1_PG_SLC]⟩,
   ⟨2097464, false, [F.PWR_OPC2_ER_QLC, F.PWR_OPC2_ER_SLC]⟩,
   ⟨2097468, false, [F.PWR_OPC3_FEAT, F.PWR_OPC3_STREAM]⟩,
   ⟨2097472, false, [F.PWR_MEAS0_VBUS, F.PWR_MEAS0_IIN]⟩,
   ⟨2097476, false, [F.PWR_MEAS1_VHU, F.PWR_MEAS1_TBRD]⟩,
   ⟨2097488, true, [F.PWR_GOV_MIDX_BANK, F.PWR_GOV_MIDX_ENTRY]⟩,
   ⟨2097492, false, [F.PWR_GOV_MDATA_COEF]⟩,
   ⟨2097496, true, [F.PWR_GOV_XIDX_NODE]⟩,
   ⟨2097500, false, [F.PWR_GOV_XDATA_VALUE]⟩,
   ⟨2097504, false, [F.PWR_GOV_EVT_REVERT, F.PWR_GOV_EVT_MISS, F.PWR_GOV_EVT_OVER, F.PWR_GOV_EVT_THERM, F.PWR_GOV_EVT_TRC_DONE]⟩,
   ⟨2097508, false, [F.PWR_GOV_EVT_CNT0_OVER_CNT, F.PWR_GOV_EVT_CNT0_TRC_CNT]⟩,
   ⟨2097512, false, [F.PWR_GOV_EVT_CNT1_MISS_CNT, F.PWR_GOV_EVT_CNT1_THERM_CNT]⟩,
   ⟨2097516, false, [F.PWR_GOV_EVT_CNT2_REV_CNT]⟩,
   ⟨2097536, false, [F.PWR_TRC_CTL_START, F.PWR_TRC_CTL_STOP, F.PWR_TRC_CTL_TRIG, F.PWR_TRC_CTL_PRE, F.PWR_TRC_CTL_DEC]⟩,
   ⟨2097540, false, [F.PWR_TRC_SEL_NODE3, F.PWR_TRC_SEL_NODE2, F.PWR_TRC_SEL_NODE1, F.PWR_TRC_SEL_NODE0]⟩,
   ⟨2097544, false, [F.PWR_TRC_STAT_ARMED, F.PWR_TRC_STAT_TRIGGERED, F.PWR_TRC_STAT_DONE, F.PWR_TRC_STAT_WPTR]⟩,
   ⟨2097548, true, [F.PWR_TRC_IDX_BUF, F.PWR_TRC_IDX_SAMPLE]⟩,
   ⟨2097552, false, [F.PWR_TRC_DATA_VALUE]⟩,
   ⟨3145728, false, [F.FLT_STAT_HALTED, F.FLT_STAT_ARMED, F.FLT_STAT_FENCED]⟩,
   ⟨3145732, false, [F.FLT_EVT_F3, F.FLT_EVT_F2, F.FLT_EVT_F1, F.FLT_EVT_F0]⟩,
   ⟨3145736, false, [F.FLT_EVT_CNT0_F1_CNT, F.FLT_EVT_CNT0_F0_CNT]⟩,
   ⟨3145740, false, [F.FLT_EVT_CNT1_F3_CNT, F.FLT_EVT_CNT1_F2_CNT]⟩,
   ⟨3145744, false, [F.FLT_PIN_LEVEL, F.FLT_PIN_PULSE, F.FLT_PIN_HOLD, F.FLT_PIN_WIDTH]⟩]

/-- Registers of Table 18.5, part 3. -/
def regs3 : List Reg :=
  [⟨3145748, false, [F.FLT_F1_MASK_MASK]⟩,
   ⟨3145752, false, [F.FLT_THERM_TJ_F2, F.FLT_THERM_TJ_F3]⟩,
   ⟨3145756, false, [F.FLT_REGC_WIRED, F.FLT_REGC_WIDTH]⟩,
   ⟨3145760, false, [F.FLT_HIST_STAT_TOTAL, F.FLT_HIST_STAT_COUNT]⟩,
   ⟨3145764, true, [F.FLT_HIST_IDX_ENTRY]⟩,
   ⟨3145792, false, [F.FLT_HIST_D0_DATA]⟩,
   ⟨3145796, false, [F.FLT_HIST_D1_DATA]⟩,
   ⟨3145800, false, [F.FLT_HIST_D2_DATA]⟩,
   ⟨3145804, false, [F.FLT_HIST_D3_DATA]⟩,
   ⟨3145808, false, [F.FLT_HIST_D4_DATA]⟩,
   ⟨3145812, false, [F.FLT_HIST_D5_DATA]⟩,
   ⟨3145816, false, [F.FLT_HIST_D6_DATA]⟩,
   ⟨3145820, false, [F.FLT_HIST_D7_DATA]⟩,
   ⟨3145824, false, [F.FLT_FIRST_CTL_CAPT_CNT, F.FLT_FIRST_CTL_VALID]⟩,
   ⟨3145856, false, [F.FLT_FIRST_D0_DATA]⟩,
   ⟨3145860, false, [F.FLT_FIRST_D1_DATA]⟩,
   ⟨3145864, false, [F.FLT_FIRST_D2_DATA]⟩,
   ⟨3145868, false, [F.FLT_FIRST_D3_DATA]⟩,
   ⟨3145872, false, [F.FLT_FIRST_D4_DATA]⟩,
   ⟨3145876, false, [F.FLT_FIRST_D5_DATA]⟩,
   ⟨3145880, false, [F.FLT_FIRST_D6_DATA]⟩,
   ⟨3145884, false, [F.FLT_FIRST_D7_DATA]⟩,
   ⟨3145888, false, [F.FLT_EOL_HOURS]⟩,
   ⟨3145892, true, [F.FLT_HLT_IDX_MON]⟩,
   ⟨3145896, false, [F.FLT_HLT_MARGIN_MARGIN]⟩,
   ⟨3145900, false, [F.FLT_HLT_EOL_HOURS]⟩,
   ⟨4194304, false, [F.LOG_BASE_OFFSET]⟩,
   ⟨4194308, false, [F.LOG_HEAD_OFF]⟩,
   ⟨4194312, false, [F.LOG_TAIL_OFF]⟩,
   ⟨4194316, false, [F.LOG_SEQ_LO_SEQ]⟩,
   ⟨4194320, false, [F.LOG_SEQ_HI_SEQ]⟩,
   ⟨4194324, false, [F.LOG_CFG_TRACE_EN, F.LOG_CFG_F0_RATE]⟩,
   ⟨4194328, false, [F.LOG_EVT_SNAP_LOST, F.LOG_EVT_WDROP, F.LOG_EVT_CRC_SKIP]⟩,
   ⟨4194332, false, [F.LOG_EVT_CNT0_DROP_CNT, F.LOG_EVT_CNT0_SKIP_CNT]⟩,
   ⟨4194336, true, [F.LOG_WCTL_BUSY, F.LOG_WCTL_GO, F.LOG_WCTL_CLASS, F.LOG_WCTL_TYPE, F.LOG_WCTL_LEN8]⟩,
   ⟨4194340, true, [F.LOG_RD_OFF_OFF]⟩,
   ⟨4194344, false, [F.LOG_RD_DATA_DATA]⟩,
   ⟨4194348, false, [F.LOG_EVT_CNT1_LOST_CNT]⟩,
   ⟨5242880, false, [F.HIF_CFG_BIFUR, F.HIF_CFG_MAX_GEN, F.HIF_CFG_MAX_WIDTH]⟩,
   ⟨5242884, false, [F.HIF_EVT_MI_ERR, F.HIF_EVT_INV_DB, F.HIF_EVT_RETRAIN, F.HIF_EVT_LINK_DOWN]⟩]

/-- Registers of Table 18.5, part 4. -/
def regs4 : List Reg :=
  [⟨5242888, false, [F.HIF_EVT_CNT0_RETRAIN_CNT, F.HIF_EVT_CNT0_DOWN_CNT]⟩,
   ⟨5242892, false, [F.HIF_EVT_CNT1_MI_CNT, F.HIF_EVT_CNT1_DB_CNT]⟩,
   ⟨5242912, false, [F.HIF_P0_LINK_CREDIT, F.HIF_P0_LINK_PM, F.HIF_P0_LINK_FLIT, F.HIF_P0_LINK_WIDTH, F.HIF_P0_LINK_GEN, F.HIF_P0_LINK_UP]⟩,
   ⟨5242916, false, [F.HIF_P1_LINK_CREDIT, F.HIF_P1_LINK_PM, F.HIF_P1_LINK_FLIT, F.HIF_P1_LINK_WIDTH, F.HIF_P1_LINK_GEN, F.HIF_P1_LINK_UP]⟩,
   ⟨5242928, false, [F.HIF_QP_POOL_FREE]⟩,
   ⟨5242944, true, [F.HIF_FN_IDX_FN]⟩,
   ⟨5242948, false, [F.HIF_FN_STAT_EN, F.HIF_FN_STAT_PORT, F.HIF_FN_STAT_QP, F.HIF_FN_STAT_TID]⟩,
   ⟨5242960, false, [F.HIF_MI_CFG_VDM_EN, F.HIF_MI_CFG_SMB_FREQ, F.HIF_MI_CFG_WAKE_ADDR]⟩,
   ⟨6291456, false, [F.RLT_STAT_WAITING, F.RLT_STAT_USED]⟩,
   ⟨6291460, false, [F.RLT_HWM_HWM]⟩,
   ⟨6291464, false, [F.RLT_EVT_CONFLICT, F.RLT_EVT_FULL]⟩,
   ⟨6291468, false, [F.RLT_EVT_CNT_CONF_CNT, F.RLT_EVT_CNT_FULL_CNT]⟩,
   ⟨6291472, false, [F.RLT_OLD_LO_FSN]⟩,
   ⟨6291476, false, [F.RLT_OLD_HI_FSN]⟩,
   ⟨7340032, true, [F.LND_SEL_IDX]⟩,
   ⟨7340036, false, [F.LND_STAT_HOLDUP_OK, F.LND_STAT_CATCHUP, F.LND_STAT_FREE, F.LND_STAT_HELD]⟩,
   ⟨7340040, false, [F.LND_CFG_GC_RSV]⟩,
   ⟨7340044, false, [F.LND_EVT_DISCARD, F.LND_EVT_FULL]⟩,
   ⟨7340048, false, [F.LND_EVT_CNT_DISC_CNT, F.LND_EVT_CNT_FULL_CNT]⟩,
   ⟨7340052, false, [F.LND_WSN_LO_WSN]⟩,
   ⟨7340056, false, [F.LND_WSN_HI_WSN]⟩,
   ⟨8388608, true, [F.FCH_SEL_IDX]⟩,
   ⟨8388612, false, [F.FCH_CFG_MIX, F.FCH_CFG_SPLIT_EN, F.FCH_CFG_SPLIT_MAX]⟩,
   ⟨8388616, false, [F.FCH_STAT_STREAMS, F.FCH_STAT_CAL, F.FCH_STAT_RATE, F.FCH_STAT_MODE]⟩,
   ⟨8388620, true, [F.FCH_LUN_IDX_LUN]⟩,
   ⟨8388624, false, [F.FCH_LUN_STAT_SUSP, F.FCH_LUN_STAT_SUSPENDED, F.FCH_LUN_STAT_BUSY, F.FCH_LUN_STAT_STATE]⟩,
   ⟨8388640, false, [F.FCH_OPT0_RD_QLC, F.FCH_OPT0_RD_SLC]⟩,
   ⟨8388644, false, [F.FCH_OPT1_PG_QLC, F.FCH_OPT1_PG_SLC]⟩,
   ⟨8388648, false, [F.FCH_OPT2_ER_QLC, F.FCH_OPT2_ER_SLC]⟩,
   ⟨8388652, false, [F.FCH_OPT3_TSUSP]⟩,
   ⟨8388656, false, [F.FCH_PROF0_ER_RES, F.FCH_PROF0_ER_SUSP, F.FCH_PROF0_PG_RES, F.FCH_PROF0_PG_SUSP]⟩,
   ⟨8388660, false, [F.FCH_PROF1_RETRY_FA, F.FCH_PROF1_SLC_PFX]⟩,
   ⟨8388664, false, [F.FCH_PROF2_IPR, F.FCH_PROF2_SUSP_BIT, F.FCH_PROF2_QLC_LOAD]⟩,
   ⟨8388672, false, [F.FCH_CAL_START, F.FCH_CAL_SHIFT_MAX, F.FCH_CAL_TDELTA, F.FCH_CAL_PERIOD]⟩,
   ⟨8388676, false, [F.FCH_EVT_GEOM, F.FCH_EVT_NOIF, F.FCH_EVT_MIXED, F.FCH_EVT_CAL_SHIFT, F.FCH_EVT_CA_PAR, F.FCH_EVT_TIMEOUT]⟩,
   ⟨8388680, false, [F.FCH_EVT_CNT0_CAPAR_CNT, F.FCH_EVT_CNT0_TOUT_CNT]⟩,
   ⟨8388684, false, [F.FCH_EVT_CNT1_SHIFT_CNT, F.FCH_EVT_CNT1_IF_CNT]⟩,
   ⟨8388688, false, [F.FCH_CHUNK_GOOD_GOOD]⟩,
   ⟨8388692, false, [F.FCH_CHUNK_GROWN_GROWN]⟩,
   ⟨8388696, false, [F.FCH_EVT_CNT2_GEOM_CNT, F.FCH_EVT_CNT2_MIXED_CNT]⟩]

/-- Registers of Table 18.5, part 5. -/
def regs5 : List Reg :=
  [⟨8388864, false, []⟩,
   ⟨8388868, false, [F.FCH_RTY1_P4, F.FCH_RTY1_P3, F.FCH_RTY1_P2, F.FCH_RTY1_P1]⟩,
   ⟨8388872, false, [F.FCH_RTY2_P4, F.FCH_RTY2_P3, F.FCH_RTY2_P2, F.FCH_RTY2_P1]⟩,
   ⟨8388876, false, [F.FCH_RTY3_P4, F.FCH_RTY3_P3, F.FCH_RTY3_P2, F.FCH_RTY3_P1]⟩,
   ⟨8388880, false, [F.FCH_RTY4_P4, F.FCH_RTY4_P3, F.FCH_RTY4_P2, F.FCH_RTY4_P1]⟩,
   ⟨8388884, false, [F.FCH_RTY5_P4, F.FCH_RTY5_P3, F.FCH_RTY5_P2, F.FCH_RTY5_P1]⟩,
   ⟨8388888, false, [F.FCH_RTY6_P4, F.FCH_RTY6_P3, F.FCH_RTY6_P2, F.FCH_RTY6_P1]⟩,
   ⟨8388892, false, [F.FCH_RTY7_P4, F.FCH_RTY7_P3, F.FCH_RTY7_P2, F.FCH_RTY7_P1]⟩,
   ⟨8388896, false, [F.FCH_RTY8_P4, F.FCH_RTY8_P3, F.FCH_RTY8_P2, F.FCH_RTY8_P1]⟩,
   ⟨8388900, false, [F.FCH_RTY9_P4, F.FCH_RTY9_P3, F.FCH_RTY9_P2, F.FCH_RTY9_P1]⟩,
   ⟨8388904, false, [F.FCH_RTY10_P4, F.FCH_RTY10_P3, F.FCH_RTY10_P2, F.FCH_RTY10_P1]⟩,
   ⟨8388908, false, [F.FCH_RTY11_P4, F.FCH_RTY11_P3, F.FCH_RTY11_P2, F.FCH_RTY11_P1]⟩,
   ⟨8388912, false, [F.FCH_RTY12_P4, F.FCH_RTY12_P3, F.FCH_RTY12_P2, F.FCH_RTY12_P1]⟩,
   ⟨8388916, false, [F.FCH_RTY13_P4, F.FCH_RTY13_P3, F.FCH_RTY13_P2, F.FCH_RTY13_P1]⟩,
   ⟨8388920, false, [F.FCH_RTY14_P4, F.FCH_RTY14_P3, F.FCH_RTY14_P2, F.FCH_RTY14_P1]⟩,
   ⟨8388924, false, [F.FCH_RTY15_P4, F.FCH_RTY15_P3, F.FCH_RTY15_P2, F.FCH_RTY15_P1]⟩,
   ⟨9437184, true, [F.GRP_SEL_IDX]⟩,
   ⟨9437188, false, [F.GRP_LIST_CTL_BUF, F.GRP_LIST_CTL_COMMIT]⟩,
   ⟨9437192, false, [F.GRP_CQ_HEAD_HEAD]⟩,
   ⟨9437196, false, [F.GRP_CQ_TAIL_TAIL]⟩,
   ⟨9437200, false, [F.GRP_EVT_CQ_FULL, F.GRP_EVT_LATE]⟩,
   ⟨9437204, false, [F.GRP_EVT_CNT_FULL_CNT, F.GRP_EVT_CNT_LATE_CNT]⟩,
   ⟨9437208, false, [F.GRP_DR_HEAD_HEAD]⟩,
   ⟨9437212, false, [F.GRP_DR_TAIL_TAIL]⟩,
   ⟨9437216, false, [F.GRP_LDPC_CFG_ERS_MAX, F.GRP_LDPC_CFG_EW]⟩,
   ⟨9437220, false, [F.GRP_LDPC_EVT_DR_FULL, F.GRP_LDPC_EVT_FAIL, F.GRP_LDPC_EVT_EARLY]⟩,
   ⟨9437224, false, [F.GRP_LDPC_CNT0_FAIL_CNT, F.GRP_LDPC_CNT0_EARLY_CNT]⟩,
   ⟨9437228, false, [F.GRP_LDPC_CNT1_FULL_CNT]⟩,
   ⟨10485760, true, [F.QD_SEL_IDX]⟩,
   ⟨10486016, false, [F.QD_SEG_FORM_FORM]⟩,
   ⟨10486020, false, [F.QD_SEG_PROM_PROM]⟩,
   ⟨10486024, false, [F.QD_SEG_SPARE_SPARE]⟩,
   ⟨10486028, false, [F.QD_SEG_GUARD_GUARD]⟩,
   ⟨10486032, false, [F.QD_CAP_STAT_AT_FLOOR, F.QD_CAP_STAT_AT_GUARD]⟩,
   ⟨10486036, false, [F.QD_CAP_EVT_RDONLY, F.QD_CAP_EVT_OFFLINE]⟩,
   ⟨10486040, false, [F.QD_CAP_CNT_RO_CNT, F.QD_CAP_CNT_OFF_CNT]⟩,
   ⟨10486272, false, [F.QD_SLC_BUDGET_BUDGET]⟩,
   ⟨10486276, false, [F.QD_SLC_USED_USED]⟩,
   ⟨10486280, false, [F.QD_SEG_FREE_FREE]⟩,
   ⟨10486284, false, [F.QD_GC_CFG0_GC_START, F.QD_GC_CFG0_GC_LOW]⟩]

/-- Registers of Table 18.5, part 6. -/
def regs6 : List Reg :=
  [⟨10486288, false, [F.QD_GC_CFG1_GC_RSV, F.QD_GC_CFG1_FOLD_START]⟩,
   ⟨10486292, false, [F.QD_GC_STAT_FOLD, F.QD_GC_STAT_EMERG, F.QD_GC_STAT_ACTIVE]⟩,
   ⟨10486296, false, [F.QD_GC_EVT_SLC_FULL, F.QD_GC_EVT_HOOK]⟩,
   ⟨10486300, false, [F.QD_GC_CNT_SLC_CNT, F.QD_GC_CNT_HOOK_CNT]⟩,
   ⟨10486528, false, [F.QD_PAR_CFG_SLC_CLOSE, F.QD_PAR_CFG_ACC_MAX]⟩,
   ⟨10486532, false, [F.QD_PAR_STAT_TWO, F.QD_PAR_STAT_DEGRADED, F.QD_PAR_STAT_ACC_USED]⟩,
   ⟨10486536, false, [F.QD_MED_CFG_LAP, F.QD_MED_CFG_DISTURB, F.QD_MED_CFG_REFRESH_EW]⟩,
   ⟨10486540, false, [F.QD_WEAR_CFG_RATED_SLC, F.QD_WEAR_CFG_RATED_QLC]⟩,
   ⟨10486544, false, [F.QD_WEAR_MAX, F.QD_WEAR_AVG]⟩,
   ⟨10486548, false, [F.QD_MED_EVT_TWO_ERASE, F.QD_MED_EVT_POISON, F.QD_MED_EVT_RETIRE, F.QD_MED_EVT_REFRESH]⟩,
   ⟨10486552, false, [F.QD_MED_CNT0_RETIRE_CNT, F.QD_MED_CNT0_REFRESH_CNT]⟩,
   ⟨10486556, false, [F.QD_MED_CNT1_TWO_CNT, F.QD_MED_CNT1_POISON_CNT]⟩,
   ⟨11534336, true, [F.ENG_SEL_IDX]⟩,
   ⟨11534340, false, [F.ENG_STAT_CYC_LAST, F.ENG_STAT_STEPS_LAST, F.ENG_STAT_PROG, F.ENG_STAT_RING]⟩,
   ⟨11534344, false, [F.ENG_IMG_BUILD, F.ENG_IMG_SVN]⟩,
   ⟨11534348, false, [F.ENG_TRAPS_TRAPS]⟩,
   ⟨12582912, true, [F.DRC_SEL_IDX]⟩,
   ⟨12582916, false, [F.DRC_SC_CFG_RDIMM, F.DRC_SC_CFG_RANKS, F.DRC_SC_CFG_DENSITY]⟩,
   ⟨12582920, false, [F.DRC_SC_STAT_PPR, F.DRC_SC_STAT_HOT, F.DRC_SC_STAT_FSP, F.DRC_SC_STAT_OWED, F.DRC_SC_STAT_PHASE]⟩,
   ⟨12582924, true, [F.DRC_SC_EYE_IDX_FSP, F.DRC_SC_EYE_IDX_STROBE]⟩,
   ⟨12582928, false, [F.DRC_SC_EYE_WR_WIDTH, F.DRC_SC_EYE_WR_DLY, F.DRC_SC_EYE_RD_WIDTH, F.DRC_SC_EYE_RD_DLY]⟩,
   ⟨12582932, false, [F.DRC_SC_EVT_TRAIN_FAIL, F.DRC_SC_EVT_PPR_FAIL, F.DRC_SC_EVT_PPR_DONE, F.DRC_SC_EVT_TRACK, F.DRC_SC_EVT_REF_FORCE]⟩,
   ⟨12582936, false, [F.DRC_SC_EVT_CNT0_TRACK_CNT, F.DRC_SC_EVT_CNT0_FORCE_CNT]⟩,
   ⟨12582940, false, [F.DRC_SC_EVT_CNT1_PFAIL_CNT, F.DRC_SC_EVT_CNT1_PDONE_CNT]⟩,
   ⟨12582944, false, [F.DRC_SC_EVT_CNT2_TFAIL_CNT]⟩,
   ⟨12583936, false, [F.DRC_CFG_MIN_EYE, F.DRC_CFG_SR_IDLE, F.DRC_CFG_POSTPONE, F.DRC_CFG_GRAIN]⟩,
   ⟨12583940, false, [F.DRC_STAT_ACTIVE, F.DRC_STAT_N, F.DRC_STAT_FSP0_OK, F.DRC_STAT_FSP, F.DRC_STAT_FSP_PEND, F.DRC_STAT_SWEEP, F.DRC_STAT_EVAC]⟩,
   ⟨12583944, false, [F.DRC_FSP_TARGET]⟩,
   ⟨12583948, false, [F.DRC_TRACK_MAX, F.DRC_TRACK_PERIOD]⟩,
   ⟨12583952, false, [F.DRC_EVAC_START, F.DRC_EVAC_SUB]⟩,
   ⟨12583956, false, [F.DRC_EVAC_STAT_CODE, F.DRC_EVAC_STAT_LEFT]⟩,
   ⟨12583960, false, [F.DRC_ROWKEY_KEY]⟩,
   ⟨12583964, false, [F.DRC_EVT_SC_FAIL, F.DRC_EVT_FSP0_BAD, F.DRC_EVT_EVAC_DONE, F.DRC_EVT_FSP_DONE]⟩,
   ⟨12583968, false, [F.DRC_EVT_CNT0_EVAC_CNT, F.DRC_EVT_CNT0_FSP_CNT]⟩,
   ⟨12583972, false, [F.DRC_EVT_CNT1_SCF_CNT, F.DRC_EVT_CNT1_BAD_CNT]⟩,
   ⟨12583984, true, [F.DRC_QOS_IDX_PORT]⟩,
   ⟨12583988, false, [F.DRC_QOS_TGT_FLOOR, F.DRC_QOS_TGT_SHARE, F.DRC_QOS_TGT_TARGET]⟩,
   ⟨12583992, false, [F.DRC_QOS_STAT_URG, F.DRC_QOS_STAT_QUEUED]⟩,
   ⟨12583996, false, [F.DRC_QOS_LATE_LATE]⟩,
   ⟨13631488, false, [F.MEMP_CTL_DRAM_EN, F.MEMP_CTL_SRAM_EN]⟩]

/-- Registers of Table 18.5, part 7. -/
def regs7 : List Reg :=
  [⟨13631492, false, [F.MEMP_STAT_ERASURE, F.MEMP_STAT_PASS_BUSY]⟩,
   ⟨13631496, false, [F.MEMP_SCRUB_CFG_SRAM_LAP, F.MEMP_SCRUB_CFG_DRAM_LAP]⟩,
   ⟨13631500, false, [F.MEMP_LAP_SRAM, F.MEMP_LAP_DRAM]⟩,
   ⟨13631504, false, [F.MEMP_EVT_FLIP_DONE, F.MEMP_EVT_PASS_REJ, F.MEMP_EVT_PASS_DONE, F.MEMP_EVT_REP_OVF, F.MEMP_EVT_DEVFAIL, F.MEMP_EVT_NOSPARE, F.MEMP_EVT_HARD, F.MEMP_EVT_POIS_USE, F.MEMP_EVT_POIS_NEW, F.MEMP_EVT_UNCORR, F.MEMP_EVT_CORR]⟩,
   ⟨13631508, false, [F.MEMP_EVT_CNT0_UNCORR_CNT, F.MEMP_EVT_CNT0_CORR_CNT]⟩,
   ⟨13631512, false, [F.MEMP_EVT_CNT1_PUSE_CNT, F.MEMP_EVT_CNT1_PNEW_CNT]⟩,
   ⟨13631516, false, [F.MEMP_EVT_CNT2_NOSP_CNT, F.MEMP_EVT_CNT2_HARD_CNT]⟩,
   ⟨13631520, false, [F.MEMP_EVT_CNT3_OVF_CNT, F.MEMP_EVT_CNT3_DEV_CNT]⟩,
   ⟨13631524, false, [F.MEMP_EVT_CNT4_REJ_CNT, F.MEMP_EVT_CNT4_DONE_CNT]⟩,
   ⟨13631528, false, [F.MEMP_EVT_CNT5_FLIP_CNT]⟩,
   ⟨13631536, false, [F.MEMP_DEV_CFG_DECLARE, F.MEMP_DEV_CFG_SUB, F.MEMP_DEV_CFG_DEV, F.MEMP_DEV_CFG_AUTO, F.MEMP_DEV_CFG_THRESH]⟩,
   ⟨13631540, false, [F.MEMP_DEV_STAT_FAILED_D0, F.MEMP_DEV_STAT_FAILED_D1, F.MEMP_DEV_STAT_FAILED_D2, F.MEMP_DEV_STAT_FAILED_D3, F.MEMP_DEV_STAT_FAILED_D4, F.MEMP_DEV_STAT_FAILED_D5, F.MEMP_DEV_STAT_FAILED_D6, F.MEMP_DEV_STAT_FAILED_D7]⟩,
   ⟨13631552, false, [F.MEMP_PASS_CTL_START, F.MEMP_PASS_CTL_STOP]⟩,
   ⟨13631556, false, [F.MEMP_PASS_STAT_BUSY, F.MEMP_PASS_STAT_CODE, F.MEMP_PASS_STAT_DONE]⟩,
   ⟨13631560, false, [F.MEMP_PASS_ADDR_LO_ADDR]⟩,
   ⟨13631564, false, [F.MEMP_PASS_ADDR_HI_ADDR]⟩,
   ⟨13631568, false, [F.MEMP_PASS_LEN_PAGES]⟩,
   ⟨13631572, false, [F.MEMP_PASS_SUM0_CORR, F.MEMP_PASS_SUM0_UNCORR]⟩,
   ⟨13631576, false, [F.MEMP_PASS_SUM1_POIS_FOUND, F.MEMP_PASS_SUM1_POIS_NEW]⟩,
   ⟨13631580, false, [F.MEMP_PASS_FIRST_LO_ADDR]⟩,
   ⟨13631584, false, [F.MEMP_PASS_FIRST_HI_ADDR]⟩,
   ⟨13631616, true, [F.MEMP_REP_IDX_ENTRY]⟩,
   ⟨13631620, false, [F.MEMP_REP_ADDR_LO_ADDR]⟩,
   ⟨13631624, false, [F.MEMP_REP_ADDR_HI_ADDR]⟩,
   ⟨13631628, false, [F.MEMP_REP_INFO_COUNT, F.MEMP_REP_INFO_FIRST_LAP, F.MEMP_REP_INFO_STATE]⟩,
   ⟨13631648, false, [F.MEMP_FUSE_STAT_SOFT, F.MEMP_FUSE_STAT_FACTORY]⟩,
   ⟨13631652, true, [F.MEMP_FUSE_IDX_ENTRY]⟩,
   ⟨13631656, false, [F.MEMP_FUSE_LO_BYTES]⟩,
   ⟨13631660, false, [F.MEMP_FUSE_HI_BYTES]⟩,
   ⟨13631680, false, [F.MEMP_FLIP_CTL_ARM]⟩,
   ⟨13631684, false, [F.MEMP_FLIP_ADDR_LO_ADDR]⟩,
   ⟨13631688, false, [F.MEMP_FLIP_ADDR_HI_ADDR]⟩,
   ⟨13631692, false, [F.MEMP_FLIP_D_LO_MASK]⟩,
   ⟨13631696, false, [F.MEMP_FLIP_D_HI_MASK]⟩,
   ⟨13631700, false, [F.MEMP_FLIP_C_MASK]⟩,
   ⟨14680064, true, [F.CC_SEL_IDX]⟩,
   ⟨14680068, false, [F.CC_STAT_PIPES_UP, F.CC_STAT_SUSP, F.CC_STAT_QUEUED]⟩,
   ⟨14680072, false, [F.CC_PIPE_UP]⟩,
   ⟨14680076, false, [F.CC_RNG_POOL, F.CC_RNG_RUN]⟩,
   ⟨14680080, false, [F.CC_EVT_KAT_FAIL, F.CC_EVT_TRNG_BAD, F.CC_EVT_RNG_STALL]⟩]

/-- Registers of Table 18.5, part 8. -/
def regs8 : List Reg :=
  [⟨14680084, false, [F.CC_EVT_CNT0_TRNG_CNT, F.CC_EVT_CNT0_STALL_CNT]⟩,
   ⟨14680088, false, [F.CC_EVT_CNT1_KAT_CNT]⟩,
   ⟨14680092, false, [F.CC_STALL_CYCLES]⟩,
   ⟨15728640, false, [F.SEC_STAT_ZEROISED, F.SEC_STAT_KIK, F.SEC_STAT_OPKH, F.SEC_STAT_POKH, F.SEC_STAT_BOOT, F.SEC_STAT_VKEY, F.SEC_STAT_REVOKED]⟩,
   ⟨15728644, false, [F.SEC_ALARM_SRC]⟩,
   ⟨15728648, false, [F.SEC_ALARM_CTL_FORCE]⟩,
   ⟨15728652, false, [F.SEC_SVN_FE, F.SEC_SVN_ME, F.SEC_SVN_HE, F.SEC_SVN_SE]⟩,
   ⟨15728656, false, [F.SEC_SVN_CTL_RAISE, F.SEC_SVN_CTL_AUTO]⟩,
   ⟨15728660, false, [F.SEC_KEYS_GENERAL, F.SEC_KEYS_NS]⟩,
   ⟨15728664, true, [F.SEC_SLOT_IDX_SLOT]⟩,
   ⟨15728668, false, [F.SEC_SLOT_STAT_OWNER, F.SEC_SLOT_STAT_OWNER_O, F.SEC_SLOT_STAT_KIND, F.SEC_SLOT_STAT_STATE]⟩,
   ⟨15728672, false, [F.SEC_SLOT_WSN_LO_ROT_WSN]⟩,
   ⟨15728676, false, [F.SEC_SLOT_WSN_HI_ROT_WSN]⟩,
   ⟨15728680, false, [F.SEC_EVT_ROLLBACK, F.SEC_EVT_BLOB_REJ, F.SEC_EVT_PROV, F.SEC_EVT_RELOAD]⟩,
   ⟨15728684, false, [F.SEC_EVT_CNT0_PROV_CNT, F.SEC_EVT_CNT0_REL_CNT]⟩,
   ⟨15728688, false, [F.SEC_REVOKE_KEY]⟩,
   ⟨15728692, false, [F.SEC_EVT_CNT1_RB_CNT, F.SEC_EVT_CNT1_REJ_CNT]⟩,
   ⟨16777472, false, [F.MRC_JNL_POS_LO_POS]⟩,
   ⟨16777476, false, [F.MRC_JNL_POS_HI_POS]⟩,
   ⟨16777480, false, [F.MRC_JNL_STAT_CLEAN, F.MRC_JNL_STAT_OCC]⟩,
   ⟨16777484, false, [F.MRC_JNL_CKPT_SWEEP, F.MRC_JNL_CKPT_PERIOD]⟩,
   ⟨16777488, false, [F.MRC_JNL_EVT_SKIP, F.MRC_JNL_EVT_FULL]⟩,
   ⟨16777492, false, [F.MRC_JNL_EVT_CNT_SKIP_CNT, F.MRC_JNL_EVT_CNT_FULL_CNT]⟩,
   ⟨17825792, false, [F.PRG_CFG_T_SIGN, F.PRG_CFG_QOS_PER]⟩,
   ⟨17825796, false, [F.PRG_STAT_T_LOADED, F.PRG_STAT_O_LOADED]⟩,
   ⟨17825800, false, [F.PRG_OSVN_SVN]⟩,
   ⟨17825804, false, [F.PRG_TQUOTA_PAGES]⟩,
   ⟨17825808, false, [F.PRG_VRES_OFFSET, F.PRG_VRES_CODE]⟩,
   ⟨17825812, false, [F.PRG_EVT_SUSP, F.PRG_EVT_LATE, F.PRG_EVT_REPL, F.PRG_EVT_TRAP, F.PRG_EVT_REJECT]⟩,
   ⟨17825816, false, [F.PRG_EVT_CNT0_TRAP_CNT, F.PRG_EVT_CNT0_REJ_CNT]⟩,
   ⟨17825820, false, [F.PRG_EVT_CNT1_LATE_CNT, F.PRG_EVT_CNT1_REPL_CNT]⟩,
   ⟨17825824, false, [F.PRG_EVT_CNT2_SUSP_CNT]⟩,
   ⟨17825828, true, [F.PRG_FE_IDX_FE]⟩,
   ⟨17825832, false, [F.PRG_FE_STAT_QUEUED, F.PRG_FE_STAT_RESIDENT]⟩]

/-- Every internal register of Table 18.5 that has a field map (R491). -/
def regTable : List Reg :=
  regs0 ++ regs1 ++ regs2 ++ regs3 ++ regs4 ++ regs5 ++ regs6 ++ regs7 ++ regs8

/-- The register at an address, if Table 18.5 names one (R485). -/
def regAt (a : Nat) : Option Reg := regTable.find? (fun r => r.addr == a)

end Sys2Proof.Machine
end

