-- ==== Sys2Proof/Machine/TypesCore.lean ====
section
/-! DEFINITION. Plain-data types of the unit tree, the fault collector, the logbook, device time and the scheduler
(chapters 1, 2 and 16 of the spec). Every field's docstring names its rule and its reset value. -/
namespace Sys2Proof.Machine

/-- STATE of a unit (Table 1.7). -/
inductive UState | off | drowse | up | draining | fenced | resetting | selftest | retired
  deriving DecidableEq, Repr

/-- The encoding of STATE (Table 1.7). -/
def UState.code : UState → Nat
  | .off => 0 | .drowse => 1 | .up => 2 | .draining => 3 | .fenced => 4 | .resetting => 5 | .selftest => 6
  | .retired => 7

/-- Command port operations (Table 1.11). -/
inductive UOp | fence | unitReset | drain | resume | adopt | release | selftest | retire
  deriving DecidableEq, Repr

/-- What a unit presents at the unit port (R12, Tables 1.6 to 1.12). -/
structure UnitSt where
  /-- STATE [2:0]: for a group the state a command port operation set (R28); Table 1.7; reset UP -/
  st : UState := .up
  /-- OWN_F0; Table 1.8; reset 0 -/
  own0 : Bool := false
  /-- OWN_F1; Table 1.8; reset 0 -/
  own1 : Bool := false
  /-- OWN_F2; Table 1.8; reset 0 -/
  own2 : Bool := false
  /-- OWN_F3, cleared only by a power cycle; Table 1.8; reset 0 -/
  own3 : Bool := false
  /-- F0_CNT, 16 bits; Table 1.9; reset 0 -/
  cnt0 : Nat := 0
  /-- F1_CNT, 16 bits; Table 1.9; reset 0 -/
  cnt1 : Nat := 0
  /-- F2_CNT, 16 bits; Table 1.9; reset 0 -/
  cnt2 : Nat := 0
  /-- F3_CNT, 16 bits; Table 1.9; reset 0 -/
  cnt3 : Nat := 0
  /-- The running command port operation and its argument (BUSY is 1 while there is one); R19, R20; reset none -/
  run : Option (UOp × Nat) := none
  /-- Frame in which the running operation began; R19 (DRAIN_TIMEOUT after 64 frames); reset 0 -/
  runAt : Nat := 0
  /-- A power-down that drains: the power requested and the frame of its request; R21; reset none -/
  pdown : Option (Nat × Nat) := none
  /-- Fsn of the Unit Command that started the running operation, if one did; R480; reset none -/
  runFsn : Option Nat := none
  /-- LAST_OP [7:0]; Table 1.10; reset 0 -/
  lastOp : Nat := 0
  /-- CODE [7:0]; Table 1.10; reset 0 -/
  code : Nat := 0
  /-- SYS_UNIT_PWR.REQ [1:0]; Table 1.12; reset 2 -/
  req : Nat := 2
  /-- SYS_UNIT_PWR.CUR [1:0]; Table 1.12; reset 2 -/
  cur : Nat := 2
  /-- SYS_UNIT_PWR.AUTO; Table 1.12; reset 1 -/
  auto : Bool := true
  /-- SYS_UNIT_PWR.REFUSED; Table 1.12; reset 0 -/
  refused : Bool := false
  /-- SYS_UNIT_PWR.REF_CNT, 16 bits; Table 1.12; reset 0 -/
  refCnt : Nat := 0
  /-- Group only: the ME index 0 to 15 serving it when a sibling adopted it (ADOPTED), none for its own ME; Table 1.7,
  R28, R31; reset none -/
  adopter : Option Nat := none
  deriving DecidableEq, Repr

/-- An event on its way to the fault collector (R444), with its order stamp (R38). -/
structure FaultEv where
  stamp : Nat
  unit : Nat
  code : Nat
  detail : Nat
  fsn : Nat
  deriving DecidableEq, Repr

/-- One entry of the fault history and the first-error capture (Table 16.3). -/
structure HistEnt where
  stamp : Nat
  unit : Nat
  code : Nat
  pcc : Nat
  detail : Nat
  fsn : Nat
  deriving DecidableEq, Repr

/-- One health monitor's last evaluation (Table 16.7, R460). -/
structure Monitor where
  margin : Nat := 0
  eol : Nat := 0xFFFFFFFF
  deriving DecidableEq, Repr

/-- The safe halt (R448, Table 16.4). -/
structure Halt where
  /-- frame in which the collector took the F3 event -/
  frame : Nat
  code : Nat
  /-- steps of Table 16.4 done: 1 to 4 -/
  step : Nat
  /-- quadrants drained, bit q (HALT record) -/
  drained : Nat
  /-- committed landing sectors lost (R449) -/
  lost : Nat
  /-- a cipher alarm: step 3 is skipped (Table 16.4) -/
  alarm : Bool
  deriving DecidableEq, Repr

/-- The fault collector, FAULT_N, REG_CYCLE and health (chapter 16). -/
structure FltSt where
  /-- events raised and not yet taken; R444; reset empty -/
  queue : List FaultEv := []
  /-- fault history, newest first, at most 16 (MRAM); R447; reset empty (blank MRAM) -/
  hist : List HistEnt := []
  /-- FLT_HIST_STAT.TOTAL, 16 bits (MRAM); Table 16.10; reset 0 -/
  total : Nat := 0
  /-- first-error capture, present while VALID (MRAM); R447; reset none -/
  first : Option HistEnt := none
  /-- FLT_FIRST_CTL.CAPT_CNT, 16 bits (MRAM); Table 16.10; reset 0 -/
  captCnt : Nat := 0
  /-- the entry latched per accessor by a read of FLT_HIST_D0 (key: accessor index); Table 16.10; reset none -/
  histLatch : SMap (Option HistEnt) := {}
  /-- a FAULT_N pulse is running (FLT_PIN.PULSE); R445; reset 0 -/
  pulse : Bool := false
  /-- width of the running pulse in 0.1 ms; R445; reset 0 -/
  pulseW : Nat := 0
  /-- an F3 event holds the pin until the power cycle; R446; reset 0 -/
  f3pin : Bool := false
  /-- the safe halt; R448; reset none -/
  halt : Option Halt := none
  /-- Cold Reset Confirm armed (FLT_STAT.ARMED); R450; reset 0 -/
  armed : Bool := false
  /-- REG_CYCLE asserted; R450; reset 0 -/
  regc : Bool := false
  /-- VDD_CORE fell while REG_CYCLE was asserted; R450; reset 0 -/
  regcFell : Bool := false
  /-- consecutive frames a die sensor read above TJ_F2, per sensor; R442; reset 0 -/
  tjF2 : SMap Nat := {}
  /-- consecutive frames a die sensor read above TJ_F3, per sensor; R442; reset 0 -/
  tjF3 : SMap Nat := {}
  /-- the 15 monitors' margins and EOLs of the last hourly evaluation; R459; reset margin 0, EOL all ones -/
  mons : SMap Monitor := {}
  /-- device EOL in operating hours (FLT_EOL); R459; reset 0xFFFF_FFFF -/
  eol : Nat := 0xFFFFFFFF
  /-- limiting monitor's index; R460; reset 0 -/
  limMon : Nat := 0
  /-- device EOL of the last HEALTH record; R454; reset 0xFFFF_FFFF -/
  eolLogged : Nat := 0xFFFFFFFF
  /-- operating hour of the last HEALTH record; R454; reset 0 -/
  healthHour : Nat := 0
  /-- Percentage Used of the last evaluation; R258, R460; reset 0 -/
  pctUsed : Nat := 0
  /-- hourly health samples, newest first, at most 720 (MRAM): operating hour, AVG of the four quadrants in 1/1,000, FORM
  of the four quadrants, SRAM hard faults, DRAM pages withheld; R459; reset none -/
  samples : List (Nat × List Nat) := []
  /-- valid hold-up capacitances, newest first (MRAM): operating milliseconds of the test, capacitance in uF; R459; reset
  none -/
  caps : List (Nat × Nat) := []
  /-- operating hour of the last evaluation; R459; reset 0 -/
  evalHour : Nat := 0
  deriving DecidableEq, Repr

/-- A controller's logbook snapshot (R457). -/
structure Snap where
  /-- S: SEQ of the newest host-visible record -/
  top : Nat
  /-- ring offset, length and SEQ of each host-visible record, oldest first -/
  recs : List (Nat × Nat × Nat)
  /-- a record was overwritten before its bytes were transferred (R458) -/
  lost : Bool
  /-- bytes of the page transferred so far -/
  sent : Nat
  deriving DecidableEq, Repr

/-- A record submission waiting for the collector (R455). -/
structure LogSub where
  acc : Nat
  cls : Nat
  typ : Nat
  unit : Nat
  stamp : Nat
  body : List Byte
  deriving DecidableEq, Repr

/-- The logbook (R453 to R458); the ring's bytes are in MRAM. -/
structure LogSt where
  /-- LOG_HEAD.OFF, 23 bits (MRAM); Table 16.11; reset 0 -/
  head : Nat := 0
  /-- LOG_TAIL.OFF, 23 bits (MRAM); Table 16.11; reset 0 -/
  tail : Nat := 0
  /-- ring bytes between LOG_TAIL and LOG_HEAD (the model's own, to tell empty from full); R453; reset 0 -/
  used : Nat := 0
  /-- LOG_SEQ: SEQ of the next record, 64 bits (MRAM); R453; reset 1 -/
  seq : Nat := 1
  /-- F0 FAULT records written in this second, per code and unit (key code x 65536 + unit); R454; reset 0 -/
  f0w : SMap Nat := {}
  /-- F0 events of this second not written, per code and unit; R454; reset 0 -/
  f0n : SMap Nat := {}
  /-- LOG_CFG.F0_RATE in force in this second; R461; reset 1 -/
  rate : Nat := 1
  /-- snapshots held, per controller, 0x10000 for the management path; R457; reset none -/
  snaps : SMap (Option Snap) := {}
  /-- submissions not yet published (LOG_WCTL.BUSY of the accessor is 1); R455; reset empty -/
  subs : List LogSub := []
  deriving DecidableEq, Repr

/-- Device time and the frame number (R38, R451, R452). -/
structure TimeSt where
  /-- frame number, 48 bits; R40; reset 0 (first start-up) -/
  frame : Nat := 0
  /-- last frame number held before the timebase stopped; R451; reset 0 -/
  lastFrame : Nat := 0
  /-- operating milliseconds, 48 bits; R451; reset 0 -/
  ms : Nat := 0
  /-- operating-millisecond mark (MRAM); R451; reset 1000 -/
  mark : Nat := 1000
  /-- power-cycle count, 32 bits (MRAM); R452; reset 0 -/
  pcc : Nat := 0
  /-- last host time set (Timestamp feature) and the operating milliseconds then; R89; reset none -/
  host : Option (Nat × Nat) := none
  /-- VDD_AON was lost since the last start-up; R451; reset 0 -/
  aonLost : Bool := false
  deriving DecidableEq, Repr

/-- The five class shares and GC_EMERG (R49, R51). -/
structure Shares where
  host : Nat := 176
  gc : Nat := 48
  scrub : Nat := 8
  scan : Nat := 16
  journal : Nat := 8
  emerg : Nat := 128
  deriving DecidableEq, Repr

/-- One ledger entry: a tenant's weight and its four virtual times and backlog marks (R53). -/
structure Ledger where
  weight : Nat := 256
  vt0 : Nat := 0
  vt1 : Nat := 0
  vt2 : Nat := 0
  vt3 : Nat := 0
  /-- BACKLOG per resource kind at the latest step 2, bit r -/
  backlog : Nat := 0
  deriving DecidableEq, Repr

/-- A request at an arbiter (R47, R49, R54): its class 0 host I/O, 1 GC, 2 scrub, 3 scan, 4 journal, its tenant and FSN for
classes 0 and 3, its urgency, its order stamp for the other classes, and what it stands for. -/
structure Rq where
  cls : Nat := 0
  tid : Nat := 0
  fsn : Nat := 0
  urg : Nat := 0
  stamp : Nat := 0
  id : Nat := 0
  deriving DecidableEq, Repr

/-- The grant tables of a frame (R42 step 4, Table 2.1): host DMA bytes of the two ports, cipher bytes of each cluster,
cycles for program steps of each engine. -/
structure Grants where
  dma0 : Nat := 0
  dma1 : Nat := 0
  cc : Nat := 1760000
  eng : Nat := 14000
  deriving DecidableEq, Repr

/-- The scheduler (chapter 2). -/
structure SchedSt where
  /-- class shares in force; R51, Table 2.5; reset 176, 48, 8, 16, 8, emergency 128 -/
  shares : Shares := {}
  /-- accepted share set awaiting its first frame (FRM_STAT.APPLY_PEND); R51; reset none -/
  pendShares : Option Shares := none
  /-- GC emergency shares in force (FRM_STAT.GC_EMERG); R52; reset 0 -/
  emerg : Bool := false
  /-- GC emergency as step 2 of this frame found it; R52; reset 0 -/
  emergSeen : Bool := false
  /-- drain grants in force (FRM_STAT.DRAIN); R45; reset 0 -/
  drain : Bool := false
  /-- tenant ledger; R53; reset weight 256, VT 0 -/
  ledger : SMap Ledger := {}
  /-- VMIN per resource kind, 64 bits; R55; reset 0 -/
  vmin : SMap Nat := {}
  /-- charges made since the latest step 2 by each arbiter: ((arbiter x 4,096 + tid) x 4 + kind) to the sum, 64 bits; R54;
  reset 0 -/
  charges : SMap Nat := {}
  /-- tenant and kind pairs with a ready request in this frame (key tid x 4 + kind); R55; reset 0 -/
  ready : SMap Nat := {}
  /-- weights written and not yet in force (key TID): weight and frames left; R57; reset none -/
  pendW : SMap (Option (Nat × Nat)) := {}
  /-- class virtual times per arbiter (key arbiter x 8 + class), 64 bits; R49; reset 0 -/
  classVt : SMap Nat := {}
  /-- classes that had a ready request when an arbiter last looked, bit k for class k (key arbiter); R50; reset none -/
  classOn : SMap Nat := {}
  /-- grant tables published at step 4 for the next frame; R42, Table 2.2; reset none -/
  grants : Option Grants := none
  /-- current budget published for the next frame in mA, none when step 3 missed; R44; reset none -/
  budget : Option Nat := none
  /-- current budget in force in mA; R44; reset 0 -/
  budgetNow : Nat := 0
  /-- LUN current admitted in this frame in 0.1 mA; R426; reset 0 -/
  lunUsed : Nat := 0
  /-- host DMA bytes left in this frame per port; R75; reset 0 -/
  dmaLeft : SMap Nat := {}
  /-- cipher bytes granted to each cluster in this frame; R41, Table 2.1; reset 1,760,000 -/
  ccGrant : Nat := 1760000
  /-- cipher bytes that each cluster has started in this frame; R41; reset 0 -/
  ccUsed : SMap Nat := {}
  /-- cycles granted to program steps on each engine in this frame; R42, R68; reset 14,000 (16,000 less the reset value of
  RSV_CYC) -/
  cycGrant : Nat := 14000
  /-- cycles that program steps have used in this frame, per engine; R68; reset 0 -/
  cycUsed : SMap Nat := {}
  /-- ring O and T steps begun in this frame per engine; Table 18.3; reset 0 -/
  steps : SMap Nat := {}
  deriving DecidableEq, Repr

end Sys2Proof.Machine
end

