-- ==== Sys2Proof/Machine/TypesHost.lean ====
section
/-! DEFINITION. Plain-data types of the host front end, the range-lock table, namespaces and zones, the map, the
landing buffer and the journal (chapters 3 to 6 of the spec). -/
namespace Sys2Proof.Machine

/-- One PCIe port (R72 to R76, Table 3.14). -/
structure PortSt where
  /-- PERST# asserted; R73; reset 1 (asserted until the board deasserts it) -/
  perst : Bool := true
  /-- UP; Table 3.14; reset 0 -/
  up : Bool := false
  /-- GEN, 0 when down; Table 3.14; reset 0 -/
  gen : Nat := 0
  /-- WIDTH as HIF_CFG.MAX_WIDTH; Table 3.14; reset 0 -/
  width : Nat := 0
  /-- FLIT mode in use; Table 3.14; reset 0 -/
  flit : Bool := false
  /-- PM link state; Table 3.14; reset 0 -/
  pm : Nat := 0
  /-- CREDIT in use, DMA bytes per frame / 64; R75; reset 0 -/
  credit : Nat := 0
  /-- credit that takes effect at the next step 4; R76; reset none -/
  credPend : Option Nat := none
  deriving DecidableEq, Repr

/-- What the block sends outside. -/
inductive Sent
  /-- a completion posted: function, submission queue, completion queue, CID, status SCT x 256 + SC, DNR, CRD, DW0,
  DW1 and the data transferred to the host -/
  | cqe (fn sq cq cid st : Nat) (dnr : Bool) (crd dw0 dw1 : Nat) (data : List Byte)
  /-- the answer to a register read: accessor index, address, value -/
  | reg (acc addr val : Nat)
  /-- an error response to a register access -/
  | busErr (acc addr : Nat)
  /-- an NVMe-MI response: opcode, status, data -/
  | mi (op st : Nat) (data : List Byte)
  /-- an SPDM response: code, data -/
  | spdm (code : Nat) (data : List Byte)
  /-- a JTAG instruction's answer: instruction, data register -/
  | jtag (ins val : Nat)
  /-- a pin driven: number of Table 19 row (0 FAULT_N, 1 REG_CYCLE, 2 HU_TEST_N), level -/
  | pin (pin : Nat) (lvl : Bool)
  deriving DecidableEq, Repr

/-- A submission queue (R79, R82). -/
structure Sq where
  size : Nat
  cq : Nat
  head : Nat := 0
  tail : Nat := 0
  /-- a Delete I/O SQ has begun: nothing more is fetched from it (R82) -/
  deleting : Bool := false
  deriving DecidableEq, Repr

/-- A completion queue. -/
structure Cq where
  size : Nat
  head : Nat := 0
  deriving DecidableEq, Repr

/-- An asynchronous event waiting for a request: type, information, log page. -/
structure Aen where
  typ : Nat
  info : Nat
  lid : Nat
  deriving DecidableEq, Repr

/-- One NVMe controller (function): 0 PF0, 1 PF1, 2 to 1,025 VF1 to VF1,024. -/
structure Ctrl where
  /-- CC.EN; R78, row CONTROLLER_ENABLE; reset 0 -/
  en : Bool := false
  /-- CSTS.CFS; R448; reset 0 -/
  cfs : Bool := false
  /-- CSTS.SHST: 0 normal, 1 in progress, 2 complete; R124; reset 0 -/
  shst : Nat := 0
  /-- submission queues by queue id, 0 the admin queue; R79; reset none -/
  sqs : SMap (Option Sq) := {}
  /-- completion queues by queue id; R79; reset none -/
  cqs : SMap (Option Cq) := {}
  /-- volatile write cache setting WCE; R87; reset 1 -/
  wce : Bool := true
  /-- current feature values set since the last controller reset (key FID + 256 x selector); R86; reset: saved or default value -/
  feats : SMap (Option Nat) := {}
  /-- Asynchronous Event Requests outstanding, oldest first (FSN); R88; reset empty -/
  aers : List Nat := []
  /-- events waiting for a request; R88; reset empty -/
  aens : List Aen := []
  /-- host has read the changed namespace list up to here: namespaces changed since; Table 3.6; reset empty -/
  changedNs : List Nat := []
  /-- zones changed since read: (nsid, zone); Table 3.6 page 0xBF; reset empty -/
  changedZones : List (Nat × Nat) := []
  /-- the queue last fetched from and the commands taken from it in its turn; R81; reset none taken -/
  rrQ : Nat := 0
  rrN : Nat := 0
  /-- VW_TIME_HI latched by a read of VW_TIME_LO; R101; reset 0 -/
  vwHi : Nat := 0
  deriving DecidableEq, Repr

/-- A map entry (Table 6.1). -/
inductive Ent
  | media (ch lun page cw : Nat)
  | landing (slice sec : Nat)
  | fine (rec : Nat)
  | unmapped | zero | poison
  deriving DecidableEq, Repr

/-- How far an outstanding command has come. -/
inductive Phase
  /-- fetched, not yet executed -/
  | fetched
  /-- waits for its range-lock entries (R106) -/
  | lockWait
  /-- holds its entries, or needs none, and waits for admission to landing space or to its zone (R109, R142) -/
  | admitWait
  /-- landing space reserved, host DMA in progress (R109) -/
  | landing
  /-- committed; waits for media, as FUA (R116) -/
  | fuaWait
  /-- read admitted to media, running (Table 3.2) -/
  | reading
  /-- a Flush waiting under PRESENT 1 (R117) -/
  | flushWait
  /-- an Asynchronous Event Request waiting for an event -/
  | aerWait
  /-- Format NVM or Sanitize begun, Firmware Commit activating, Unit Command running, or scan queued or running -/
  | running
  deriving DecidableEq, Repr

/-- An outstanding command. -/
structure Cmd where
  fsn : Nat
  fn : Nat
  sq : Nat
  sqe : Sqe
  /-- tunnelled from the management endpoint (R97) -/
  tunnel : Bool := false
  /-- frame of its fetch (R59) -/
  frame : Nat := 0
  ph : Phase := .fetched
  /-- urgency 0 to 3 (R59) -/
  urg : Nat := 0
  /-- landing slice and sectors reserved for it, in block order (R109) -/
  slice : Nat := 0
  secs : List Nat := []
  /-- sectors still to arrive (R110) -/
  left : Nat := 0
  /-- how each coarse unit of the write is mapped at commit: unit, mode (0 whole, 1 fine, 2 promote, 3 merge), first
  sector of a whole or merged unit (R166 to R168) -/
  plan : List (Nat × Nat × Nat) := []
  /-- landing sector of each block, in block order -/
  place : List Nat := []
  /-- newly allocated blocks counted at admission (R157) -/
  newBlk : Nat := 0
  /-- journal groups of the command not yet closed (R116) -/
  groups : List Nat := []
  /-- quadrant of its data (R150) -/
  quad : Nat := 0
  /-- writes a Flush still waits for: FSNs (R117) -/
  cover : List Nat := []
  /-- the functions' queues are gone: no completion is posted (R121) -/
  mute : Bool := false
  /-- final position of the first block of a write outside zones (R134, R150) -/
  dest : Option Nat := none
  /-- zone status read at admission or block list for the completion -/
  dw0 : Nat := 0
  /-- the map entries that a read's lookup returned, in block order (R171, R178) -/
  found : List Ent := []
  /-- a scan that has ended and whose results go out: status, DW0, DW1 (R317) -/
  fin : Option (Nat × Nat × Nat) := none
  /-- an append's reservation: the zone block at which it starts (R144, R150) -/
  apAt : Nat := 0
  /-- final position of the first sector that a write outside zones places in a further segment (R148) -/
  dest2 : Option Nat := none
  /-- it has been judged for admission once: its partial units are counted (R167), and outside zones its stream is chosen (R148) -/
  tried : Bool := false
  stream : Nat := 0
  /-- blocks placed in its stream since the last KIND 1 codeword before its own (R83) -/
  since : Nat := 0
  /-- PRG_CFG.T_SIGN at its fetch (R323) -/
  tsign : Bool := false
  deriving DecidableEq, Repr

/-- One range-lock entry, held or waited for (R104 to R106). -/
structure Lock where
  fsn : Nat
  ns : Nat
  lo : Nat
  hi : Nat
  excl : Bool
  held : Bool
  deriving DecidableEq, Repr

/-- The host front end (chapter 3). -/
structure HifSt where
  /-- BIFUR strap sampled at PERST# deassertion; R72; reset 0 -/
  bifur : Bool := false
  /-- ports P0 and P1; Table 3.14; reset down -/
  p0 : PortSt := {}
  p1 : PortSt := {}
  /-- controllers by function number; R78; reset disabled -/
  ctrls : SMap Ctrl := {}
  /-- the HE that serves each submission queue, plus 1 (key function x 65,536 + queue); R29, R30; reset none -/
  heQ : SMap Nat := {}
  /-- FSN of the next fetched command, 64 bits; R36; reset 1 -/
  fsn : Nat := 1
  /-- outstanding commands, in FSN order; R121; reset empty -/
  cmds : List Cmd := []
  /-- FSNs of writes whose completion was posted and whose data is not yet all on media, with their namespace; R117;
  reset empty -/
  posted : List (Nat × Nat) := []
  /-- flexible queue pairs assigned per function; R79; reset 0 -/
  flexQ : SMap Nat := {}
  /-- flexible vectors assigned per function; R79; reset 0 -/
  flexV : SMap Nat := {}
  /-- VFs brought online by Virtualization Management; R79; reset offline -/
  online : SMap Bool := {}
  /-- saved feature values (MRAM), key function x 2^32 + feature key: FID + 256 x the selector of a threshold, vector, handle or namespace; R86; reset none -/
  saved : SMap (Option Nat) := {}
  /-- default tenant of each controller (MRAM, feature 0xC1); R80; reset 0 -/
  defTid : SMap Nat := {}
  /-- fetch stopped on every function (halt, drain); R448; reset 0 -/
  fetchStop : Bool := false
  /-- error log entries per controller, newest first: (error count, queue, CID, status); Table 3.6; reset empty -/
  errLog : SMap (List (Nat × Nat × Nat × Nat)) := {}
  /-- SMART critical warning bits; R160, R444; reset 0 -/
  smart : Nat := 0
  /-- VPD bytes (MRAM); Table 3.10; reset 0 -/
  vpd : SMap Byte := {}
  /-- MCTP transmission units set by Configuration Set (port 0 SMBus, 1 and 2 PCIe); R95; reset 64 -/
  mtu : SMap Nat := {}
  /-- health status change flags not yet read; Table 3.10; reset 0 -/
  mhs : Nat := 0
  /-- management requests held until a wake completes, oldest first: path (0 SMBus, 1 and 2 PCIe) and request; R99;
  reset none -/
  held : List (Nat × MiReq) := []
  /-- device self-test: running kind and result of the last; Table 3.2; reset none -/
  dst : Nat := 0
  dstLast : Nat := 0
  /-- FDP enabled (MRAM); R86, R149; reset 0 -/
  fdp : Bool := false
  /-- FDP events logged, newest first: (quadrant from, handle); R152; reset empty -/
  fdpEvents : List (Nat × Nat) := []
  deriving DecidableEq, Repr

/-- Zone states (Table 5.4; the codes of Table 6.4). -/
inductive ZState | empty | impOpen | expOpen | closed | full | offline
  deriving DecidableEq, Repr

/-- One zone (R138, R142). -/
structure Zone where
  /-- state; Table 5.4; reset Empty -/
  st : ZState := .empty
  /-- write pointer in blocks from ZSLBA; R143; reset 0 -/
  wp : Nat := 0
  /-- blocks of appends admitted and not committed; R144; reset 0 -/
  apRes : Nat := 0
  deriving DecidableEq, Repr

/-- One namespace (MRAM). -/
structure Ns where
  nsze : Nat
  ncap : Nat
  /-- LBA format index 6m + s (R135) -/
  fmt : Nat := 0
  zoned : Bool := false
  /-- protection type 0, 1 or 3, and metadata carried as an extended LBA (R83) -/
  pi : Nat := 0
  mset : Bool := false
  /-- the protection information stands in the first bytes of the metadata -/
  pip : Bool := false
  /-- active-zone quota (R139) -/
  quota : Nat := 0
  /-- global granules, in namespace order (R163) -/
  granules : List Nat := []
  /-- key slot (chapter 13) -/
  slot : Nat := 0
  /-- tenant and latency class 0 A to 3 D (feature 0xC0); R80 -/
  bind : Option (Nat × Nat) := none
  /-- functions it is attached to -/
  attach : List Nat := []
  /-- the reclaim unit handle of each placement handle given at creation (R149) -/
  ruhs : List Nat := [0]
  /-- blocks allocated (NUSE); R157 -/
  nuse : Nat := 0
  /-- newly allocated blocks of writes admitted and not committed; R157 -/
  resv : Nat := 0
  deriving DecidableEq, Repr

/-- Placement handles of a namespace (R149). -/
def Ns.handles (n : Ns) : Nat := n.ruhs.length

/-- A fine record (R165). -/
structure Fine where
  ents : List Ent
  owner : Nat
  writes : Nat
  frame : Nat
  deriving DecidableEq, Repr

/-- The heat of one coarse unit (R167). -/
structure Heat where
  unit : Nat := 0
  count : Nat := 0
  start : Nat := 0
  deriving DecidableEq, Repr

/-- The sector metadata that travels with a sector (Table 8.1). -/
structure SMeta where
  /-- KIND: 0 host sector, 1 host metadata codeword, 2 system or checkpoint page -/
  kind : Nat := 0
  ns : Nat := 0
  key : Nat := 0
  wsn : Nat := 0
  /-- flagged unwritten by a merge fill (R168) -/
  unwritten : Bool := false
  /-- TID, the tenant of the namespace at the write, and ZOFF, the block's offset from ZSLBA -/
  tid : Nat := 0
  zoff : Nat := 0
  deriving DecidableEq, Repr

/-- One sector held in a landing slice. -/
structure LSec where
  /-- the command that reserved it, 0 for GC, fold and demotion copies -/
  fsn : Nat
  /-- arrived (R110) -/
  here : Bool := false
  /-- committed (R110) -/
  done : Bool := false
  /-- programmed (R112) -/
  prog : Bool := false
  /-- media location of its program, once issued -/
  loc : Option Nat := none
  /-- journal group it belongs to -/
  group : Nat := 0
  info : SMeta := {}
  data : List Byte := []
  /-- committed before a hold-up degradation and not yet programmed (R119) -/
  catchup : Bool := false
  /-- ciphertext of a copy (GC, fold, demotion) under this key material, moved unchanged (R177, R182); none: plaintext -/
  key : Option Nat := none
  /-- its final position, segment x 65,536 + sector of its data units (R134, R150); none for a fill and a demotion copy -/
  dest : Option Nat := none
  deriving DecidableEq, Repr

/-- A journal record (R185). -/
structure JRec where
  typ : Nat
  sub : Nat
  a : Nat
  b : Nat
  deriving DecidableEq, Repr

/-- A journal group not yet closed (R114, R186). -/
structure JGroup where
  id : Nat
  /-- group kind: 0 host, 1 GC, 2 fold, 3 demote, 4 system -/
  kind : Nat
  fsn : Nat
  ns : Nat
  wsn : Nat
  /-- source segment for kinds 1 and 2 -/
  src : Nat := 0
  /-- landing sectors of the group (slice x 4096 + sector) -/
  secs : List Nat := []
  /-- the records between OPEN and CLOSE that do not depend on the programmed location -/
  recs : List JRec := []
  /-- copies of kinds 1 to 3: key, the source entry it must still name, landing sector (R169, R177, R182) -/
  moves : List (Nat × Ent × Nat) := []
  /-- found the ring full and waits, recorded (R187) -/
  waited : Bool := false
  deriving DecidableEq, Repr

/-- The journal and the checkpoints (R185 to R193). -/
structure JnlSt where
  /-- groups not yet closed, in the order their commands committed; R114; reset empty -/
  groups : List JGroup := []
  /-- next group number (the model's own); reset 1 -/
  nextId : Nat := 1
  /-- retained journal records, oldest first, with their journal position; R187; reset empty -/
  recs : List (Nat × JRec) := []
  /-- records in the MRAM ring not yet flushed to the flash journal; R187; reset 0 -/
  ring : Nat := 0
  /-- journal position, bytes since format, 64 bits; R187; reset 0 -/
  pos : Nat := 0
  /-- flash journal pages retained: journal position of each; R187; reset empty -/
  pages : List Nat := []
  /-- MRC_JNL_STAT.CLEAN (MRAM); R189; reset 1 (no unclean shutdown before the first start-up) -/
  clean : Bool := true
  /-- completed sweeps, 16 bits (MRAM); Table 6.7; reset 0 -/
  sweeps : Nat := 0
  /-- journal position of the start of the latest completed sweep; R188; reset 0 -/
  sweepPos : Nat := 0
  /-- checkpointed coarse entries, fine records and zones (SYS area); R188; reset none -/
  ckpt : SMap Ent := {}
  ckFine : SMap (Option Fine) := {}
  ckZones : SMap Zone := {}
  /-- pages changed since their last checkpoint; R188; reset empty -/
  dirty : SMap Bool := {}
  /-- internal groups that found the ring full, oldest first; R187; reset none -/
  wait : List (List JRec) := []
  /-- the sector metadata of the checkpoint pages (SYS area), key area x 2^40 + page: 0 coarse map, 1 fine pool, 2 validity bitmap,
  3 segment table; R188; reset none -/
  ckPages : SMap (Option SMeta) := {}
  /-- frame of the latest sweep; R188; reset 0 -/
  sweepAt : Nat := 0
  /-- the PERIOD that governs the sweep in progress, in seconds; R194; reset 8 -/
  period : Nat := 8
  deriving DecidableEq, Repr

/-- The map, its fine pool, heat table and unit holds (R163 to R172). -/
structure MapSt where
  /-- coarse entries by global coarse index; R163; reset UNMAPPED -/
  coarse : SMap Ent := {}
  /-- fine records by index; R165; reset free -/
  fine : SMap (Option Fine) := {}
  /-- records in the fine pool, set at format; R165, Table 6.2; reset 536,870,912 (64 GiB, the reference build) -/
  pool : Nat := 536870912
  /-- poison reserve records in use; R170; reset 0 -/
  poisUsed : Nat := 0
  /-- heat table; R167; reset empty -/
  heat : SMap Heat := {}
  /-- unit holds: FSN, coarse units, held; R168; reset empty -/
  holds : List (Nat × List Nat × Bool) := []
  /-- lines of the coarse region held in the map cache, most recent first; R172; reset empty -/
  cache : List Nat := []
  /-- INDEX_DONE, TAIL_DONE, LOADED, REBUILD of FRM_MAP_STAT; Table 6.6; reset 0 -/
  indexDone : Bool := false
  tailDone : Bool := false
  loaded : Bool := false
  rebuild : Bool := false
  /-- granules assigned to namespaces; R163; reset empty -/
  granUsed : SMap Bool := {}
  /-- FRM_MAP_FINE_FREE stood below LOW at the last change; R194; reset 0 -/
  low : Bool := false
  /-- map pages found uncorrectable whose rebuild lookups wait for; R172, R192; reset none -/
  bad : SMap Bool := {}
  /-- map pages not yet in DRAM after a start-up; R191; reset none -/
  unloaded : SMap Bool := {}
  /-- the journal index: the newest entry of each key, until the map is loaded; R190, R191; reset empty -/
  index : SMap Ent := {}
  /-- the page that a rebuild by scan covers; R193; reset none -/
  scanPage : Option Nat := none
  /-- records demoted in this frame per quadrant; R169; reset 0 -/
  demoted : SMap Nat := {}
  deriving DecidableEq, Repr

/-- The landing buffer (R109 to R120). -/
structure LndSt where
  /-- sectors in use, key slice x 4096 + sector; R109; reset free -/
  secs : SMap (Option LSec) := {}
  /-- WSN of the next commit, 64 bits; R37; reset 1 -/
  wsn : Nat := 1
  /-- WSN high-water mark in MRAM; R37; reset 2^20 + 1 -/
  mark : Nat := 1048577
  /-- WSN of the latest commit per slice (LND_WSN); Table 4.10; reset 0 -/
  last : SMap Nat := {}
  /-- writes waiting for landing space, per quadrant, FSN order; R109; reset empty -/
  waits : List Nat := []
  /-- FSNs discarded by a power failure with sectors in a slice, for DISC_CNT at start-up (key slice); R132;
  reset 0 -/
  lostDisc : SMap Nat := {}
  deriving DecidableEq, Repr

end Sys2Proof.Machine
end

