-- ==== Sys2Proof/Machine/TypesMedia.lean ====
section
/-! DEFINITION. Plain-data types of the flash channels, the media behind them, segments, streams and stripe parity
(chapters 5, 7 and 8 of the spec). -/
namespace Sys2Proof.Machine

/-- A programmed codeword as the media hold it: its sector metadata, and its data, which for a host sector is the
ciphertext of `data` under the key material numbered `key` (0: stored in clear). -/
structure MSec where
  info : SMeta
  data : List Byte
  key : Nat := 0
  /-- final position of a staged sector, segment x 65,536 + sector of its data units (R134) -/
  dest : Option Nat := none
  /-- its journal group has closed: the validity bit that a rebuild by scan looks at (R114, R190, R193) -/
  closed : Bool := false
  deriving DecidableEq, Repr

/-- The chunk record (R251) and what the ME keeps of a chunk. -/
structure Chunk where
  /-- QLC erases, saturating at 65,535; R251; reset 0 -/
  qe : Nat := 0
  /-- SLC erases, saturating at 65,535; R251; reset 0 -/
  se : Nat := 0
  /-- 0 good, 1 factory bad, 2 grown bad, 3 system; R251; reset 0 -/
  st : Nat := 0
  /-- retry hint; R236; reset 0 -/
  hint : Nat := 0
  /-- reads since the last erase; R251, R256; reset 0 -/
  reads : Nat := 0
  /-- EARLY reports in the current lap; R234, R256; reset 0 -/
  early : Nat := 0
  /-- refreshes in the current lap; R256; reset 0 -/
  refr : Nat := 0
  /-- queued for refresh; R256; reset 0 -/
  queued : Bool := false
  /-- belongs to a segment, an SLC stripe or the system area; R257; reset free -/
  used : Bool := false
  /-- erased and checked since its last program (R254); reset 0 -/
  checked : Bool := false
  /-- failed erased-state checks since its last program (R254); reset 0 -/
  fails : Nat := 0
  /-- ERASE_INTENT journaled without a later ERASE_DONE (R252, R253); reset 0 -/
  intent : Bool := false
  /-- blocks in SLC mode since their last erase (R196); reset 0 -/
  slc : Bool := false
  /-- retired by the position being an erasure after a failed relocation (R245); reset 0 -/
  lost : Bool := false
  /-- lines of its segment whose unit it does not hold: programmed while its channel was fenced, or lost with its die (R479, R481);
  reset none -/
  missed : List Nat := []
  /-- erased and not programmed since (R175, R254); reset 0 -/
  fresh : Bool := false
  /-- codewords of the erased-state check that decoded as ERASED: bit (block x 2 + last page) x 4 + codeword; R254; reset 0 -/
  seen : Nat := 0
  deriving DecidableEq, Repr

/-- A grown bad-block record (Table 8.6). -/
structure Grown where
  stamp : Nat
  ch : Nat
  lun : Nat
  chunk : Nat
  reason : Nat
  /-- 0 relocating, 1 retired -/
  state : Nat
  qe : Nat
  se : Nat
  deriving DecidableEq, Repr

/-- A segment in use (R133). -/
structure Seg where
  /-- chunk at each of the 32 positions: LUN x 65,536 + chunk index -/
  chunks : List Nat := []
  /-- 0 zone, 1 conventional stream, 2 FDP reclaim unit, 3 GC stream -/
  kind : Nat := 0
  /-- device milliseconds at its last program (R180) -/
  last : Nat := 0
  /-- open to a stream -/
  isOpen : Bool := true
  /-- QLC lines whose parity is closed (R134) -/
  closed : List Nat := []
  /-- chosen as GC victim, copies done (R180, R183) -/
  victim : Bool := false
  /-- lines that hold copies of its sectors, segment x 32 + line; R183; reset none -/
  into : List Nat := []
  /-- given up by a Zone Reset, a delete or a format: held until no read is outstanding in it, then erased (R146, R178) -/
  dead : Bool := false
  deriving DecidableEq, Repr

/-- A stream: its open segment and the sectors placed in it (R148). -/
structure Stream where
  seg : Option Nat := none
  pos : Nat := 0
  /-- host blocks placed since the last KIND 1 codeword, with 8 and with 64 bytes of metadata (R83) -/
  m8 : Nat := 0
  m64 : Nat := 0
  deriving DecidableEq, Repr

/-- A stripe parity accumulator (R239, R241). -/
structure PAcc where
  quad : Nat
  seg : Nat
  line : Nat
  /-- SLC line, 32 sectors; else QLC line, 128 sectors -/
  slc : Bool := false
  /-- landing slice that holds it -/
  slice : Nat := 0
  /-- frame of its last use -/
  used : Nat := 0
  /-- frame of its first unit -/
  first : Nat := 0
  /-- data positions programmed -/
  units : Nat := 0
  /-- the positions programmed, none for an SLC line; R239 -/
  pos : List Nat := []
  /-- spilled to SLC (R240) -/
  spilled : Bool := false
  /-- running P and Q, one codeword for each slot; R238, R239 -/
  p : List (List Byte) := []
  q : List (List Byte) := []
  deriving DecidableEq, Repr

/-- A list entry (Table 7.5). -/
structure Entry where
  op : Nat
  lun : Nat
  planes : Nat
  retry : Nat
  cw : Nat
  page : Nat
  buf : Nat
  tid : Nat
  cls : Nat
  urg : Bool
  seq : Nat
  /-- admitted by the scheduler for this frame (R41, R426) -/
  adm : Bool := false
  /-- a read listed once again after a timeout (R247) -/
  again : Bool := false
  deriving DecidableEq, Repr

/-- An array operation running or suspended on a LUN (R63, R218). -/
structure RunOp where
  e : Entry
  /-- frame of issue or last resume (R63) -/
  start : Nat
  /-- suspensions so far (R63) -/
  susp : Nat := 0
  /-- suspended since this frame (R63) -/
  since : Option Nat := none
  /-- window of the suspension in progress (R67) -/
  win : Nat := 0
  /-- current admitted, in 0.1 mA (R426) -/
  cur : Nat := 0
  /-- LUN time charged, in us (R46) -/
  time : Nat := 0
  deriving DecidableEq, Repr

/-- What a LUN keeps of the split-mode CA lane (R201 to R206). -/
structure DieCa where
  /-- armed at the handshake (P1 bit 7), and so following the CA lane; R205; reset 0 -/
  armed : Bool := false
  /-- words of the sequence received last or under way; R202; reset empty -/
  seq : List Nat := []
  /-- the rest of the sequence is discarded until the next SYNC; R204; reset 0 -/
  drop : Bool := false
  /-- status bit 2: a word discarded for bad parity since the last status slot; R204; reset 0 -/
  bad : Bool := false
  /-- words counted as parity errors; R202, R204; reset 0 -/
  errs : Nat := 0
  /-- a DOUT (1) or DIN (2) whose length word is still to come; Table 7.3; reset 0 -/
  burst : Nat := 0
  deriving DecidableEq, Repr

/-- A data burst on DQ (R203, R211). -/
structure Burst where
  lun : Nat
  /-- driven by the die (DOUT), else by the controller (DIN) -/
  out : Bool
  /-- announced length in units of 256 bytes -/
  units : Nat
  /-- bytes not yet moved -/
  left : Nat
  /-- SEQ of its entry -/
  seq : Nat
  deriving DecidableEq, Repr

/-- One LUN (FCH_LUN_STAT). -/
structure Lun where
  /-- 0 absent, 1 in service, 2 out of service, 3 retired (retired in MRAM); Table 7.10; reset 0 -/
  st : Nat := 0
  /-- running or suspended program or erase, and running reads -/
  run : List RunOp := []
  /-- open stream: last page and planes (R216) -/
  stream : Option (Nat × Nat) := none
  /-- frames of timeouts in the last 64 frames (R247) -/
  touts : List Nat := []
  /-- read-retry level last set, and the value of its FCH_RTY register that P1 to P4 were set from (R235, R260) -/
  level : Nat := 0
  levelP : Nat := 0
  /-- its view of the CA lane (R201 to R206); reset not armed -/
  ca : DieCa := {}
  deriving DecidableEq, Repr

/-- The die profile and channel configuration in force since the last handshake (R226). -/
structure Prof where
  mix : Bool := false
  splitEn : Bool := true
  splitMax : Nat := 2
  erRes : Nat := 0
  erSusp : Nat := 0
  pgRes : Nat := 0
  pgSusp : Nat := 0
  retryFa : Nat := 0
  slcPfx : Nat := 0
  ipr : Bool := false
  suspBit : Nat := 0
  qlcLoad : Nat := 0
  deriving DecidableEq, Repr

/-- One channel sequencer (chapter 7). -/
structure Chan where
  /-- profile in force; R226; reset values of FCH_CFG and FCH_PROF -/
  prof : Prof := {}
  /-- frame of the last recalibration or training; R223; reset 0 -/
  calLast : Nat := 0
  /-- MODE: 0 untrained, 1 NV-DDR3, 2 NV-LPDDR4 conforming, 3 split; Table 7.10; reset 0 -/
  mode : Nat := 0
  /-- RATE; Table 7.10; reset 0 -/
  rate : Nat := 0
  /-- recalibration running since this frame (FCH_STAT.CAL); R223; reset none -/
  cal : Option Nat := none
  /-- recalibration due since this frame; R223; reset none -/
  due : Option Nat := none
  /-- entries of this frame's list not yet issued; R211; reset empty -/
  list : List Entry := []
  /-- entries committed for the next frame; R209; reset none -/
  next : Option (List Entry) := none
  /-- frames that recorded CA_ERR; R204; reset empty -/
  caErr : List Nat := []
  /-- sequences reissued for the entry being resent (R204); reset 0 -/
  caTries : Nat := 0
  /-- CE# of every die held low; R201; reset high -/
  ceLow : Bool := false
  /-- RE runs; R201, R206; reset still -/
  re : Bool := false
  /-- CA words sent in this frame, oldest first, idle words apart; R201, R202; reset none -/
  lane : List Nat := []
  /-- command and address cycles of this frame in conforming mode: LUN, 1 command or 2 address, value; R199; reset none -/
  bus : List (Nat × Nat × Nat) := []
  /-- bytes of read data that DQ has moved in this frame, with what earlier frames left over; R203, R211; reset 0 -/
  rdBytes : Nat := 0
  /-- CA words sent since the last SYNC; Table 7.3; reset 0 -/
  sinceSync : Nat := 0
  /-- data bursts announced and not ended, the one under way first; R203, R211; reset none -/
  dq : List Burst := []
  /-- status slots returned in this frame: LUN and byte; R203; reset none -/
  slots : List (Nat × Nat) := []
  /-- reads completed in this frame and before, the last 64: their codewords are in the decoder; R213, R236; reset none -/
  decoding : List Entry := []
  /-- entries that the ME lists again with its next list (R236, R247); reset none -/
  relist : List Entry := []
  deriving DecidableEq, Repr

/-- Media, segments and parity. -/
structure MedSt where
  /-- programmed codewords by location ((CH x 32 + LUN) x 2^24 + page) x 4 + codeword; R228; reset erased -/
  secs : SMap (Option MSec) := {}
  /-- parity codewords by location: bytes 0 to 4,127, or the shorter run of them that is not zero; R238; reset erased -/
  parity : SMap (List Byte) := {}
  /-- chunk records by (CH x 32 + LUN) x 65,536 + chunk; R251; reset good, no erases -/
  chunks : SMap Chunk := {}
  /-- LUNs by CH x 32 + LUN; Table 7.10; reset absent -/
  luns : SMap Lun := {}
  /-- channel sequencers by channel; chapter 7; reset untrained -/
  chans : SMap Chan := {}
  /-- segments in use by quadrant x 2^20 + segment number; R133; reset free -/
  segs : SMap (Option Seg) := {}
  /-- the segment of each zone's k-th segment, key (NSID x 2^24 + zone) x 32 + k, plus 1; R138; reset none -/
  zseg : SMap Nat := {}
  /-- streams: quadrant x 4,096 + stream (0 to 63 conventional, 64 to 191 FDP handles, 192 to 199 GC); R148 -/
  streams : SMap Stream := {}
  /-- the quadrant that received a tenant's last conventional data and the sectors it took there; Table 5.6 -/
  lastQ : SMap (Option (Nat × Nat)) := {}
  /-- parity accumulators held; R239; reset none -/
  accs : List PAcc := []
  /-- open SLC lines: quadrant, stripe (LUN x 65,536 + chunk), line, frame of its first unit, units; R241; reset none -/
  slcLines : List (Nat × Nat × Nat × Nat × Nat) := []
  /-- completion records waiting for ring space, per group (two words each); R213; reset none -/
  cqWait : SMap (List (Nat × Nat)) := {}
  /-- decode records waiting for ring space, per group; R233; reset none -/
  drWait : SMap (List (Nat × Nat)) := {}
  /-- chunks retired since format, per channel (FCH_CHUNK_GROWN); R248; reset 0 -/
  grownCnt : SMap Nat := {}
  /-- SLC program units staged and not folded, per quadrant, in units of 64 KiB; R174; reset 0 -/
  slcUnits : SMap Nat := {}
  /-- SLC budget per quadrant in segment equivalents; R174; reset computed at step 2 -/
  budget : SMap Nat := {}
  /-- staged SLC units awaiting fold, oldest first: location of their first codeword and plane mask; R177; reset empty -/
  staged : List (Nat × Nat) := []
  /-- folding runs in the quadrant (bit q); R177; reset 0 -/
  folding : Nat := 0
  /-- GC runs in the quadrant (bit q); R179; reset 0 -/
  gcOn : Nat := 0
  /-- frame of the last host write per quadrant; R177; reset 0 -/
  lastWr : SMap Nat := {}
  /-- staging stopped at the budget (bit q); R176; reset 0 -/
  slcStop : Nat := 0
  /-- candidates passed over for current: channel, entry (SEQ apart) and consecutive frames; R426; reset none -/
  passed : List (Nat × Entry × Nat) := []
  /-- the chunk records as their latest SYS-area copy holds them; R251; reset none -/
  ckChunks : SMap Chunk := {}
  /-- grown bad-block ring (MRAM), oldest first; R250; reset empty -/
  grown : List Grown := []
  /-- retired records moved to the SYS-area grown list; R250; reset empty -/
  grownSys : List Grown := []
  /-- factory table built (SYS area not blank); R249; reset 0 -/
  sysBuilt : Bool := false
  /-- segments a wear-level check offers first as victim (quadrant x 2^20 + segment); R257; reset empty -/
  offer : List Nat := []
  /-- KIND 1 codewords staged as their host blocks commit, by final position, segment x 65,536 + sector of its data units; R83, R137;
  reset none -/
  hostMeta : SMap (Option MSec) := {}
  /-- zones taken Offline (key quadrant x 2) and read-only transitions (+ 1) not yet shown; R162; reset 0 -/
  capPend : SMap Nat := {}
  /-- patrol lap number per quadrant; R255; reset 0 -/
  lap : SMap Nat := {}
  /-- capacity counts shown since the latest step 2, per quadrant x 8 + index (0 FORM, 1 PROM, 2 SPARE, 3 FREE,
  4 AT_GUARD, 5 AT_FLOOR, 6 USED, 7 EMERG); R162; reset computed at step 2 -/
  shown : SMap Nat := {}
  /-- dies identified and LUNs of the build in service (Table 7.10 STATE 1 where no record says otherwise); R195, R471;
  reset 0 -/
  ident : Bool := false
  /-- LUN geometry found at identification: chunks per LUN, at most 32,768; R1, R198; reset 32,768 (the reference build) -/
  perLun : Nat := 32768
  /-- LUN indexes in use per channel, at most 32; R1, R195; reset 16 (the reference build) -/
  lunsCh : Nat := 16
  /-- QLC pages of an erase block found at identification; R196, R198; reset 128 (the reference build) -/
  blkPages : Nat := 128
  deriving DecidableEq, Repr

end Sys2Proof.Machine
end

