-- ==== Sys2Proof/Machine/TypesMem.lean ====
section
/-! DEFINITION. Plain-data types of the protected words, their repair, and the DRAM controller (chapters 11 and 12 of the
spec). -/
namespace Sys2Proof.Machine

/-- One entry of the repeat table (R337). -/
structure RepEnt where
  /-- memory location address of the word (Table 11.9) -/
  addr : Nat
  /-- corrections, 1 to 3 -/
  count : Nat
  /-- lap of its first correction, counted in that memory's laps -/
  lap : Nat
  /-- 1 counting, 2 repair pending, 3 repaired (MEMP_REP_INFO.STATE) -/
  st : Nat
  deriving DecidableEq, Repr

/-- A fuse entry (Table 11.6). -/
structure Fuse where
  unit : Nat
  bank : Nat
  spare : Nat
  row : Nat
  source : Nat
  deriving DecidableEq, Repr

/-- An on-demand pass (R342). -/
structure Pass where
  /-- memory location address of its next word -/
  addr : Nat
  /-- 4 KiB pages still to read -/
  left : Nat
  deriving DecidableEq, Repr

/-- Protected words (chapter 11). -/
structure MempSt where
  /-- protected words of SRAM and DRAM by memory location address / 8: data [63:0], check bits [79:64]; for arrays whose
  content another field holds (landing slices, map cache, the DRAM regions of the map), the bits in error; R324, R341;
  reset zeros with valid check bits -/
  words : SMap Nat := {}
  /-- repeat table by entry, 0 to 255; R337; reset empty -/
  rep : SMap (Option RepEnt) := {}
  /-- soft fuses (MRAM), oldest first; R339; reset none -/
  soft : List Fuse := []
  /-- completed SRAM laps, 16 bits; R340; reset 0 -/
  lapS : Nat := 0
  /-- completed DRAM laps, 16 bits; R340; reset 0 -/
  lapD : Nat := 0
  /-- corrections attributed in this DRAM lap, key subchannel x 16 + device; R334; reset 0 -/
  attr : SMap Nat := {}
  /-- failed device of each subchannel plus 1, 0 none (MRAM); R334, Table 11.10; reset none -/
  failed : SMap Nat := {}
  /-- running pass; R342; reset none -/
  pass : Option Pass := none
  /-- MEMP_PASS_STAT.CODE and DONE; Table 11.10; reset 0 -/
  passCode : Nat := 0
  passDone : Nat := 0
  /-- MEMP_PASS_SUM0 and SUM1: corrections, uncorrectable, poisoned found, newly poisoned; reset 0 -/
  sumCorr : Nat := 0
  sumUnc : Nat := 0
  sumFound : Nat := 0
  sumNew : Nat := 0
  /-- MEMP_PASS_FIRST; reset all ones -/
  first : Nat := 0xFFFFFFFFFFFFFFFF
  /-- DRAM pages withheld from the allocator; R338; reset none -/
  withheld : List Nat := []
  /-- landing sectors and map cache rows removed for want of a spare: memory location address of the row; R338; reset
  none -/
  removed : List Nat := []
  deriving DecidableEq, Repr

/-- A request in a DRAM QoS port (R353). -/
structure DReq where
  /-- port 0 to 11 (Table 12.3) -/
  port : Nat
  /-- subchannel and rank it goes to -/
  sub : Nat
  rank : Nat := 0
  /-- bank of the rank, and the number of the 64-byte line (R351, R363) -/
  bank : Nat := 0
  line : Nat := 0
  /-- 64-byte lines -/
  lines : Nat := 1
  /-- tenant, for port 4 -/
  tid : Nat := 0
  /-- target in force when it arrived, ns; R354 -/
  target : Nat := 0
  /-- age in ns -/
  age : Nat := 0
  /-- urgency 0 to 3 -/
  urg : Nat := 0
  deriving DecidableEq, Repr

/-- One DRAM subchannel (Table 12.6). -/
structure Sub where
  /-- PHASE; Table 12.6; reset 0 -/
  phase : Nat := 0
  /-- HOT; R355; reset 0 -/
  hot : Bool := false
  /-- set point in force; Table 12.6; reset 1 -/
  fsp : Nat := 1
  /-- refreshes owed by rank 0 and rank 1, 0 to 8; R355; reset 0 -/
  owed0 : Nat := 0
  owed1 : Nat := 0
  /-- frames without a request; R357; reset 0 -/
  idle : Nat := 0
  /-- eyes, key set point x 16 + strobe: write width, write delay, read width, read delay; R359; reset 0 -/
  eyes : SMap (Nat × Nat × Nat × Nat) := {}
  /-- swept centres, same key: write delay, read delay; R362; reset 0 -/
  centre : SMap (Nat × Nat) := {}
  /-- millisecond at which its fill after training ends; R344; reset 0 -/
  filledAt : Nat := 0
  /-- rows repaired (MRAM); Table 12.6; reset 0 -/
  ppr : Nat := 0
  deriving DecidableEq, Repr

/-- An evacuation (R364 to R367). -/
structure Evac where
  sub : Nat
  /-- 1 clearing the top, 2 copying chunks -/
  phase : Nat := 1
  /-- chunks from S = (N - 1) x (N - 2) on still to copy, in descending order (the watermark lies above them) -/
  left : Nat := 0
  deriving DecidableEq, Repr

/-- The DRAM controller (chapter 12). -/
structure DramSt where
  /-- subchannels; Table 12.6; reset PHASE 0 -/
  subs : SMap Sub := {}
  /-- the interleave, ascending; R349; reset empty until training -/
  active : List Nat := []
  /-- interleave grain in force (MRAM GRAIN at the start-up); R350; reset 8 -/
  grain : Nat := 8
  /-- row key; R349; reset 0 (drawn at start-up) -/
  rowkey : Nat := 0
  /-- DRC_STAT.FSP0_OK; Table 12.7; reset 0 -/
  fsp0ok : Bool := false
  /-- DRC_STAT.FSP; Table 12.7; reset 1 -/
  fsp : Nat := 1
  /-- set point requested and not yet taken up; R361; reset none -/
  want : Option Nat := none
  /-- running evacuation; R364; reset none -/
  evac : Option Evac := none
  /-- recorded evacuation (MRAM); R364, R367; reset none -/
  evacRec : Option Nat := none
  /-- subchannel of a controller-started evacuation that waits; R364; reset none -/
  evacWait : Option Nat := none
  /-- DRC_EVAC_STAT.CODE; Table 12.7; reset 0 -/
  evacCode : Nat := 0
  /-- queued requests, oldest first; R353; reset empty -/
  reqs : List DReq := []
  /-- port virtual times; R353; reset 0 -/
  vt : SMap Nat := {}
  /-- rows sent for post-package repair: memory location address; R363; reset none -/
  repairs : List Nat := []
  /-- repairs done and recorded (MRAM); R363; reset none -/
  repaired : List Nat := []
  deriving DecidableEq, Repr

end Sys2Proof.Machine
end

