-- ==== Sys2Proof/Machine/TypesProg.lean ====
section
/-! DEFINITION. Plain-data types of the engines, the program store, bindings and near-data scans (chapters 9 and 10 of
the spec). -/
namespace Sys2Proof.Machine

/-- One level of hardware loop: byte addresses of the body's first and last instruction, iterations left (0: inactive);
R269, Table 9.15. -/
structure Lvl where
  start : Nat := 0
  fin : Nat := 0
  remain : Nat := 0
  deriving DecidableEq, Repr

/-- A pending transfer: physical source, physical destination, bytes (R281, R282). -/
structure Xfer where
  src : Nat
  dst : Nat
  len : Nat
  deriving DecidableEq, Repr

/-- One Baluf engine (Tables 9.1, 9.14, 9.15). Its local memory is in the protected words. -/
structure Eng where
  /-- w1 to w31 of the V bank; R261; reset 0 -/
  vw : SMap W64 := {}
  /-- w1 to w31 of the program bank; R261; reset 0 -/
  pw : SMap W64 := {}
  /-- pc of the V bank; R261; reset 0 -/
  vpc : Nat := 0
  /-- pc of the program bank; R261; reset 0 -/
  ppc : Nat := 0
  /-- loop levels of the V bank, outer and inner; R269; reset inactive -/
  v0 : Lvl := {}
  v1 : Lvl := {}
  /-- loop levels of the program bank, LPS0 and LPS1; R269; reset inactive -/
  p0 : Lvl := {}
  p1 : Lvl := {}
  /-- u0 to u15 (FE); R261; reset 0 -/
  u : SMap W256 := {}
  /-- RING; Table 9.14; reset 0 -/
  ring : Nat := 0
  /-- TID; Table 9.14; reset 0 -/
  tid : Nat := 0
  /-- frame in which the step began; R284; reset 0 -/
  frame : Nat := 0
  /-- BUDGET; R285; reset 0 -/
  budget : Nat := 0
  /-- STEPMAX; R284; reset 4,000 -/
  stepmax : Nat := 4000
  /-- PRING; Table 9.14; reset 1 -/
  pring : Nat := 1
  /-- WIN0 to WIN7 as 64-bit words; Table 9.15; reset 0 -/
  wins : SMap Nat := {}
  /-- CODEB and CODEL; Table 9.14; reset 0 -/
  codeb : Nat := 0
  codel : Nat := 0
  /-- TRAPCAUSE; Table 9.14; reset 0 -/
  cause : Nat := 0
  /-- TRAPPC; reset 0 -/
  trappc : Nat := 0
  /-- TRAPVAL; reset 0 -/
  trapval : Nat := 0
  /-- TVEC; reset 0 -/
  tvec : Nat := 0
  /-- TSTAT [2:1] ring at the trap; reset 0 -/
  tring : Nat := 0
  /-- TSTAT [0] NEST; reset 0 -/
  nest : Bool := false
  /-- V bank's loop levels saved by a ring V trap; R290; reset inactive -/
  s0 : Lvl := {}
  s1 : Lvl := {}
  /-- engine cycles of instructions issued since the latest tick; CYCLE, R284; reset 0 -/
  cyc : Nat := 0
  /-- frame in which the engine left reset; CYCLE; reset 0 -/
  born : Nat := 0
  /-- pending transfers, oldest first; R282; reset none -/
  xfers : List Xfer := []
  /-- ring V's pending transfers while a step runs (R286); reset none -/
  vxfers : List Xfer := []
  /-- STRIN.ATT and LAST; Table 9.15; reset 0 -/
  inAtt : Bool := false
  inLast : Bool := false
  /-- input bytes of the slab not yet consumed (STRIN.REMAIN is their number); R271; reset none -/
  inp : List Byte := []
  /-- stream offsets of the poisoned 8-byte words of the slab; R330, R331; reset none -/
  inBad : List Nat := []
  /-- STRPOS; Table 9.14; reset 0 -/
  strpos : Nat := 0
  /-- STROUT.ATT; Table 9.15; reset 0 -/
  outAtt : Bool := false
  /-- STROUT.ROOM; Table 9.15; reset 0 -/
  room : Nat := 0
  /-- output bytes appended in the step, not yet released; R272; reset none -/
  outp : List Byte := []
  /-- FSN of the scan whose step the engine runs; R316; reset none -/
  scan : Option Nat := none
  /-- ENG_IMG.BUILD and SVN of the running image; Table 18.3; reset as the image loaded at start-up -/
  build : Nat := 0
  svn : Nat := 0
  deriving DecidableEq, Repr

/-- A loaded program's image (R296 to R299, R312). -/
structure Prog where
  ring : Nat
  engines : Nat
  tid : Nat := 0
  stepmax : Nat
  progid : List Byte := []
  version : Nat := 0
  svn : Nat := 0
  /-- CODE section (plaintext) -/
  code : List Byte := []
  /-- DATA section (plaintext) -/
  data : List Byte := []
  /-- entry records: KIND and OFFSET -/
  entries : List (Nat × Nat) := []
  /-- window records: USE, RIGHTS, PAGES; empty without WINDOWS -/
  wins : List (Nat × Nat × Nat) := []
  /-- largest verified step bound, 0 for ring O (R312) -/
  bound : Nat := 0
  /-- key slot of a sealed program (R379); none when not sealed -/
  sealSlot : Option Nat := none
  /-- traps since load (R312) -/
  traps : Nat := 0
  /-- order stamp of the load (R312) -/
  stamp : Nat := 0
  /-- draining after Replace or FORCE (R312) -/
  draining : Bool := false
  /-- SHA3-256 of the container loaded (Table 13.10) -/
  digest : List Byte := []
  /-- DRAM page at which its STATE windows begin (R298, R310) -/
  statePage : Nat := 0
  deriving DecidableEq, Repr

/-- A binding (R308). -/
structure Bind where
  handle : Nat
  /-- 0x01 scans, 0x10 to 0x14 hooks -/
  target : Nat
  nsid : Nat
  /-- quadrant 0 to 3, or 0xFF -/
  scope : Nat
  /-- frames of its trap defaults in the last 1,024 frames (R320) -/
  defaults : List Nat := []
  /-- suspended (R320) -/
  susp : Bool := false
  deriving DecidableEq, Repr

/-- One scan, queued or resident on an FE (R313 to R318). -/
structure Scan where
  fsn : Nat
  fe : Nat
  /-- a step of it is running or has run -/
  started : Bool := false
  resident : Bool := false
  /-- handle and the image it runs (R309) -/
  handle : Nat := 0
  prog : Prog := { ring := 2, engines := 4, stepmax := 500 }
  nsid : Nat := 0
  /-- slab bytes (Table 10.10) -/
  slab : Nat := 4096
  room : Nat := 8
  /-- PARAM -/
  param : List Nat := []
  /-- ranges: SLBA and blocks -/
  ranges : List (Nat × Nat) := []
  /-- RLEN -/
  rlen : Nat := 4096
  /-- results released so far -/
  result : List Byte := []
  /-- stage of its next step: 0 INIT, 1 SLAB, 2 FINAL, 3 ended -/
  stage : Nat := 0
  /-- range of the next slab and its first block in it -/
  rng : Nat := 0
  blk : Nat := 0
  /-- stream offset of the next slab -/
  pos : Nat := 0
  /-- steps run, saturating -/
  steps : Nat := 0
  /-- a Scan Cancel waits for its next step boundary: FSN of the Cancel -/
  cancel : Option Nat := none
  /-- region of the FE's local memory, 0 to 3 (R315) -/
  region : Nat := 0
  /-- SCRATCH pages it holds, and their DRAM offset (R315) -/
  scratch : Nat := 0
  scrBase : Nat := 0
  /-- the program bank, loop levels and u registers between its steps (R316, R321) -/
  w : SMap W64 := {}
  l0 : Lvl := {}
  l1 : Lvl := {}
  u : SMap W256 := {}
  deriving DecidableEq, Repr

/-- Engines, programs, bindings and scans (chapters 9 and 10). -/
structure PrgSt where
  /-- engines by index of Table 1.2; Table 9.1; reset per Table 9.1 -/
  engs : SMap Eng := {}
  /-- loaded programs by handle (SYS area); R295; reset none -/
  progs : SMap (Option Prog) := {}
  /-- bindings (MRAM), oldest first; R308; reset none -/
  binds : List Bind := []
  /-- scans queued or running; R314; reset none -/
  scans : List Scan := []
  /-- PRG_OSVN (MRAM); R301; reset 0 -/
  osvn : Nat := 0
  /-- PRG_VRES; R307; reset 0 -/
  vres : Nat := 0
  /-- images that hooks still run until the next frame boundary, after a Replace (handle and old image); R310; reset none -/
  pending : List (Nat × Prog) := []
  /-- frame in which the present QOS period began; R319; reset 0 -/
  qosStart : Nat := 0
  /-- QOS_PER in force in the present period; R323; reset 16 -/
  qosPer : Nat := 16
  /-- inputs of the latest invocation of each hook, 0 PLACE_SEG to 4 QOS: w1 to w5 and window 7; Table 10.12; reset none -/
  hookIn : SMap (Option (List Nat × List Byte)) := {}
  deriving DecidableEq, Repr

end Sys2Proof.Machine
end

