-- ==== Sys2Proof/Machine/TypesSys.lean ====
section
/-! DEFINITION. Plain-data types of the power controller, the governor, bring-up and the service levels (chapters 14,
15, 17 and 19 of the spec). -/
namespace Sys2Proof.Machine

/-- A running hold-up test (R414). -/
structure HuTest where
  /-- sum of the 16 samples before the test, in mV (16 x v0) -/
  sum : Nat
  /-- samples taken -/
  n : Nat := 0
  /-- the last sample, mV -/
  v : Nat := 0
  /-- a sample exceeded v0 -/
  above : Bool := false
  /-- the loop of R414 has ended -/
  stop : Bool := false
  /-- PWR_HU_CFG.DROP and MIN as the test began (R418) -/
  drop : Nat := 50
  min : Nat := 500
  deriving DecidableEq, Repr

/-- Power controller (chapter 14). -/
structure PwrSt where
  /-- VWC.PRESENT: hold-up judged degraded; R87, R416; reset 1 (degraded until the first test judges it) -/
  present : Bool := true
  /-- PWR_STATE.CUR; Table 14.8; reset 0 -/
  cur : Nat := 0
  /-- PWR_STATE.LAST_OP; Table 14.8; reset 0 -/
  lastOp : Nat := 0
  /-- PWR_STATE.HOST; Table 14.8; reset 0 -/
  host : Bool := false
  /-- PS3 or PS4 set by the host and not yet entered; R406; reset none -/
  want : Option Nat := none
  /-- PWR_STATE.WAKE_SRC; Table 14.8; reset 0 -/
  wakeSrc : Nat := 0
  /-- WAKE_N held low; R410; reset 0 (high) -/
  wakeLow : Bool := false
  /-- PWR_IDLE; R406; reset 0 -/
  idle : Nat := 0
  /-- Set Features Power Management waiting for their cap to be in force (FSN); R405, R430; reset none -/
  pmWait : List Nat := []
  /-- idle frames of each group; R402; reset 0 -/
  grpIdle : SMap Nat := {}
  /-- operating milliseconds at which the non-operational state was entered or last left for housekeeping; R407; reset 0 -/
  hkMs : Nat := 0
  /-- a housekeeping excursion runs: the state to return to; R407; reset none -/
  hk : Option Nat := none
  /-- PFAIL_N committed a drain that no tick has put in force; R411; reset 0 -/
  pfail : Bool := false
  /-- frame at which the drain grants came in force; R411; reset none -/
  drainAt : Option Nat := none
  /-- committed sectors and open journal groups as the drain began; Table 16.6; reset 0 -/
  drainSecs : Nat := 0
  drainGrps : Nat := 0
  /-- the drain is complete: the core is held in reset until the restart of R412; reset 0 -/
  drained : Bool := false
  /-- power-fail mark in MRAM (R413); reset 0 -/
  mark : Bool := false
  /-- VDD_CORE has been absent since the last start-up; R452; reset 1 (the power-on that the reset is) -/
  cold : Bool := true
  /-- running hold-up test; R414; reset none -/
  test : Option HuTest := none
  /-- PWR_HU_STAT.RESULT; Table 14.8; reset 0 -/
  result : Nat := 0
  /-- a valid test has been made since start-up; R416; reset 0 -/
  valid : Bool := false
  /-- a test has ended since start-up; R417; reset 0 -/
  tested : Bool := false
  /-- capacitance of the last valid test in uF, as a fraction; R414; reset 0 -/
  capN : Nat := 0
  capD : Nat := 1
  /-- final voltage of the last valid test, mV; R416; reset 0 -/
  vfin : Nat := 0
  /-- operating milliseconds at the end of the last test; R414; reset 0 -/
  testMs : Nat := 0
  /-- the last 16 hold-up voltage samples, newest first, mV; R414; reset none -/
  samples : List Nat := []
  /-- voltage at the start of the present spell within 1 %, and its frames; R417; reset 0 -/
  steadyV : Nat := 0
  steadyN : Nat := 0
  /-- consecutive frames below the last test's final voltage; R416; reset 0 -/
  lowN : Nat := 0
  deriving DecidableEq, Repr

/-- One key slot (R378, Table 13.4). Key material is named by a number: 2 x its bytes + 1 when imported, an even number
of its own for each key drawn from the DRBG. -/
structure Slot where
  /-- CURRENT key, or the one key of a general slot; none when the slot is empty -/
  cur : Option Nat := none
  /-- PREVIOUS key during a rotation -/
  prev : Option Nat := none
  /-- ROT_WSN: sectors of lower WSN are under PREVIOUS (R380) -/
  rotWsn : Nat := 0
  /-- KIND: 0 empty, 1 XTS, 2 GCM, 3 KEK (Table 13.13) -/
  kind : Nat := 0
  /-- owner of a general slot: a TID, or none for ring O and the device -/
  owner : Option Nat := none
  /-- last COUNTER imported (R385, R386) -/
  ctr : Nat := 0
  /-- the rekey pass runs (STATE 2, R382) -/
  rekey : Bool := false
  deriving DecidableEq, Repr

/-- A cipher job (R375). -/
structure CJob where
  id : Nat
  /-- priority 0 to 3 (Table 13.3) -/
  prio : Nat
  slot : Nat
  /-- 16-byte blocks, at most 4,096 (one 64 KiB segment) -/
  blocks : Nat
  /-- blocks done when it was suspended (R376) -/
  done : Nat := 0
  /-- traffic class, tenant and FSN of the work it serves (R49, R54) -/
  cls : Nat := 0
  tid : Nat := 0
  fsn : Nat := 0
  /-- frame in which it was queued (Table 13.3) -/
  born : Nat := 0
  deriving DecidableEq, Repr

/-- One pipeline of a cluster (R376). -/
structure Pipe where
  run : Option CJob := none
  /-- the pipeline's one suspend record -/
  susp : Option CJob := none
  /-- order in which its job started -/
  since : Nat := 0
  deriving DecidableEq, Repr

/-- One cipher cluster (R370 to R377, Table 13.12). -/
structure Cc where
  /-- UP: working pipelines; reset 0xFFFF -/
  up : Nat := 0xFFFF
  pipes : SMap Pipe := {}
  /-- queued jobs, oldest first; reset empty -/
  queue : List CJob := []
  /-- POOL: seeds ready; reset 64 -/
  pool : Nat := 64
  /-- RUN: consecutive failed entropy blocks; reset 0 -/
  bad : Nat := 0
  /-- generate requests since the last reseed (R373); reset 0 -/
  gens : Nat := 0
  /-- bytes of priority 1 work started in this frame (R375); reset 0 -/
  prio1 : Nat := 0
  /-- key cache: slots whose keys it holds, the latest used first, at most 256 (R370); reset none -/
  cache : List Nat := []
  /-- jobs queued so far (the model's own numbers); reset 0 -/
  jobs : Nat := 0
  /-- jobs started (the model's own order); reset 0 -/
  starts : Nat := 0
  deriving DecidableEq, Repr

/-- An SPDM secured session (R394, R384): session number, over MCTP (else in band), established by FINISH, and the hash
of the key that authenticated the requester. -/
structure Sess where
  id : Nat
  mctp : Bool
  up : Bool := false
  auth : Option (List Byte) := none
  deriving DecidableEq, Repr

/-- The digest record of a running image (Table 13.10). -/
structure Img where
  svn : Nat := 0
  version : Nat := 0
  digest : List Byte := []
  code : List Byte := []
  data : List Byte := []
  start : Nat := 0
  deriving DecidableEq, Repr

/-- Keys and trust (chapter 13). -/
structure SecSt where
  /-- key slots (MRAM copies and store); R378; reset empty -/
  slots : SMap Slot := {}
  /-- keys drawn from the DRBG so far (the model's own); reset 0 -/
  drawn : Nat := 0
  /-- key import key, as 2 x its value + 1 (MRAM); R384; reset absent -/
  kik : Option Nat := none
  /-- key-store nonce: number of the DRBG draw it holds (MRAM); R388; reset 0 -/
  nonce : Nat := 0
  /-- operator program key hash (MRAM); R300; reset unset -/
  opkh : Option (List Byte) := none
  /-- SEC_ALARM.SRC (MRAM); Table 13.13; reset 0 -/
  alarm : Nat := 0
  /-- SEC_STAT.ZEROISED (MRAM); R389; reset 0 -/
  zeroised : Bool := false
  /-- an alarm stands in this power-on: clusters stopped; R388; reset 0 -/
  stopped : Bool := false
  /-- SEC_STAT.BOOT; R390; reset 0 -/
  boot : Nat := 0
  /-- SEC_STAT.VKEY; R390; reset 0 -/
  vkey : Nat := 0
  /-- thermometer counters blown above the fuses of manufacture, per engine kind (0 SE, 1 HE, 2 ME, 3 FE); R392; reset 0 -/
  svn : SMap Nat := {}
  /-- revoke fuses blown since manufacture; R392; reset 0 -/
  revoked : Nat := 0
  /-- running images per engine kind (0 SE, 1 HE, 2 ME, 3 FE); R395, R475; reset none -/
  imgs : SMap (Option Img) := {}
  /-- secrets and identity derived at the latest start-up: CDI0, CDI1, storage wrap key, Alias seed; R393; reset none -/
  cdi0 : List Byte := []
  cdi1 : List Byte := []
  wrap : List Byte := []
  alias_ : List Byte := []
  /-- the UDS is locked until the next power-up; R393; reset no -/
  udsLock : Bool := false
  /-- certificate chain of slot 0, from DeviceID to Alias; R393, R394; reset none -/
  chain : List Byte := []
  /-- cipher clusters; R370; reset per Table 13.12 -/
  ccs : SMap Cc := {}
  /-- SPDM connection, per path (0 MCTP, 1 + function in band): 0 none, 1 version, 2 capabilities, 3 algorithms; R394 -/
  conn : SMap Nat := {}
  /-- sessions; R394; reset none -/
  sessions : List Sess := []
  nextSess : Nat := 1
  /-- response waiting for Security Receive, per function; R394; reset none -/
  resp : SMap (List Byte) := {}
  /-- Evidence page instance per function; R395; reset none -/
  evidence : SMap (List Byte) := {}
  deriving DecidableEq, Repr

/-- The governor (chapter 15). Quantities in A, V and W are signed Q16.16 numbers (R421). -/
structure GovSt where
  /-- thermal cap in 0.1 W; R432; reset 1,100 (the state cap of PS0) -/
  therm : Nat := 1100
  /-- the thermal cap was set to MIN by R442 and no thermal step has run since; reset 0 -/
  thermJ : Bool := false
  /-- the thermal cap stands below the state cap; R432; reset 0 -/
  thermLow : Bool := false
  /-- frame of the last thermal step; R432; reset 0 -/
  thermAt : Nat := 0
  /-- cap in force, 0.1 W (PWR_GOV_REF.CAP); R429; reset 0 -/
  cap : Nat := 0
  /-- which cap is least (PWR_GOV_STAT.LIMIT), as the latest step 3 found; R429; reset 0 -/
  lim : Nat := 0
  /-- the reference r in 1/65,536,000 W; R430; reset 0 -/
  rk : Nat := 0
  /-- STAT.RAMP; R430; reset 0 -/
  ramp : Bool := false
  /-- states x1 to x6; Table 15.1; reset 0 -/
  x1 : Int := 0
  x2 : Int := 0
  x3 : Int := 0
  x4 : Int := 0
  x5 : Int := 0
  x6 : Int := 0
  /-- active matrix, where it differs from the OEM default (key 12 x row + column); R437; reset OEM default -/
  act : SMap (Option Nat) := {}
  /-- shadow matrix; R437; reset OEM default -/
  shadow : SMap (Option Nat) := {}
  /-- saved start-up matrix (MRAM); R437; reset none -/
  saved : Option (SMap (Option Nat)) := none
  /-- STAT.SWAP_PEND; R437; reset 0 -/
  swap : Bool := false
  /-- i_in and v_bus latched; R419; reset 0 -/
  iin : Int := 0
  vbus : Int := 0
  /-- hold-up capacitor voltage, mV; R419; reset 0 -/
  vhu : Nat := 0
  /-- board temperature, 0.1 degree C; R419; reset 0 -/
  tbrd : Int := 0
  /-- die sensor readings, degrees C; R432; reset none -/
  dies : List Int := []
  /-- i_pred of the frame before; Table 15.1; reset 0 -/
  ipred : Int := 0
  /-- p_in of the last 16 frames, newest first; R430; reset none -/
  pins : List Int := []
  /-- sum and count of p_in in the present window of 125 frames, and the mean of the last complete one; R428; reset 0 -/
  winSum : Int := 0
  winCnt : Nat := 0
  winMean : Option Int := none
  /-- notch history u(F-1), u(F-2), u_n(F-1), u_n(F-2); R424; reset 0 -/
  u1 : Int := 0
  u2 : Int := 0
  y1 : Int := 0
  y2 : Int := 0
  /-- EN as the last frame found it; R424; reset 0 -/
  notch : Bool := false
  /-- injection MODE in force and frames since it took effect; R439; reset 0 -/
  injMode : Nat := 0
  injN : Nat := 0
  /-- STAT.CLAMP; R425; reset 0 -/
  clamp : Bool := false
  /-- base in mA (PWR_GOV_BUDGET.BASE); R425; reset 0 -/
  base : Int := 0
  /-- B last published, mA; R425; reset 0 -/
  bud : Nat := 0
  /-- STAT.DRAIN; R433; reset 0 -/
  drain : Bool := false
  /-- C_d in 0.1 W and base_d in A; R433; reset 0 -/
  cd : Nat := 0
  based : Int := 0
  /-- consecutive missed and on-time publishes; R435; reset 0 -/
  miss : Nat := 0
  onTime : Nat := 0
  /-- STAT.FALLBACK; R435; reset 0 -/
  fallback : Bool := false
  /-- STAT.REVERTED; R436; reset 0 -/
  reverted : Bool := false
  /-- consecutive frames of a residual above RESID_MAX and of row 6 saturated; R436; reset 0 -/
  residN : Nat := 0
  satN : Nat := 0
  /-- the 29 nodes of the latest frame; Table 15.5; reset none -/
  nodes : List Int := []
  /-- PWR_TRC_STAT.ARMED, TRIGGERED, DONE and WPTR; R438; reset 0 -/
  armed : Bool := false
  trig : Bool := false
  done : Bool := false
  wptr : Nat := 0
  /-- samples recorded since START; R438; reset 0 -/
  trcN : Nat := 0
  /-- samples still to record after the trigger; R438; reset 0 -/
  trcLeft : Nat := 0
  /-- frames since the last sample; R438; reset 0 -/
  trcDec : Nat := 0
  /-- trace buffers, key buffer x 4,096 + place (always-on domain); R438; reset 0 -/
  trc : SMap Nat := {}
  deriving DecidableEq, Repr

/-- A running activation (R474). -/
structure Act where
  /-- engines still to swap, in order -/
  todo : List Nat
  /-- engine whose swap runs -/
  cur : Option Nat := none
  /-- its swap has begun, at a frame boundary (R474) -/
  begun : Bool := false
  done : Nat := 0
  skipped : Nat := 0
  /-- groups of the ME, or queues (65,536 times the function and the queue) of the HE, being swapped that a sibling serves
  meanwhile (Table 4.5) -/
  moved : List Nat := []
  /-- Firmware Commit that waits for it -/
  fsn : Option Nat := none
  deriving DecidableEq, Repr

/-- Bring-up and service levels (chapter 17). -/
structure LvlSt where
  /-- service level: 0 below Tin, 1 Tin, 2 Bronze, 3 Steel; Table 3.11, R467; reset 0 -/
  level : Nat := 0
  /-- level in force at the start of this frame; R92; reset 0 -/
  levelF : Nat := 0
  /-- all namespaces read-only (MRAM); R160; reset 0 -/
  rdonly : Bool := false
  /-- quadrants whose read-only transition takes effect at the next frame (bit q); R161; reset 0 -/
  roPend : Nat := 0
  /-- writes accepted (SYS_LEVEL.WRITES); Table 17.2; reset 0 -/
  writes : Bool := false
  /-- the core runs: it left reset and is not held after a drain or brown-out; R398, R412; reset 0 -/
  core : Bool := false
  /-- operating milliseconds at the first deassertion of PERST0# after the start-up; R466; reset none -/
  perst0 : Option Nat := none
  /-- operating milliseconds when the core left reset; R466; reset 0 -/
  left : Nat := 0
  /-- SYS_LEVEL_T0.TIN, BRONZE and SYS_LEVEL_T1.WRITES, STEEL; Table 17.10; reset 0 -/
  tin : Nat := 0
  bronze : Nat := 0
  wrAt : Nat := 0
  steel : Nat := 0
  /-- LATE_BRONZE and LATE_STEEL raised in this climb; R470; reset 0 -/
  lateB : Bool := false
  lateS : Bool := false
  /-- held at Tin by R173 or R360; R470; reset 0 -/
  heldTin : Bool := false
  /-- SYS_RST_CAUSE.PREV_END (MRAM); Table 16.6; reset 0 -/
  prevEnd : Nat := 0
  /-- how the power-on in progress will have ended (MRAM): 0 clean, 1 unclean, 2 drain, 3 brown-out, 4 REG_CYCLE,
  5 halted; reset 0 -/
  endNow : Nat := 0
  /-- SYS_RST_CAUSE.WARM; R463; reset 0 -/
  warm : Bool := false
  /-- SYS_RST_CAUSE.SLOT; Table 17.10; reset 0 -/
  slot : Nat := 0
  /-- SYS_LEVEL.CLEAN (MRAM): the last shutdown was clean; reset 1 -/
  lastClean : Bool := true
  /-- firmware slots 1 to 4: the package bytes; R472; reset empty -/
  fwSlots : SMap (List Byte) := {}
  /-- committed slot; R473; reset 1 -/
  committed : Nat := 1
  /-- slot of a package pending behind the next NVM subsystem reset; R473; reset none -/
  pendFw : Option Nat := none
  /-- running activation; R474; reset none -/
  act : Option Act := none
  /-- a warm restart is in progress; R463; reset 0 -/
  warmRun : Bool := false
  /-- units whose RETIRED record the next start-up clears; R481; reset none -/
  retClr : List Nat := []
  /-- bytes of the firmware package downloaded so far; R391; reset empty -/
  fwBuf : SMap Byte := {}
  /-- function that downloads it -/
  fwOwner : Nat := 0
  /-- bytes it reaches so far; reset 0 -/
  fwLen : Nat := 0
  /-- slot whose package runs: the slot booted, or the one last activated; R474, R475; reset 0 -/
  active : Nat := 0
  /-- SYS_ACT.DONE and SKIPPED of the last activation; Table 17.10; reset 0 -/
  actDone : Nat := 0
  actSkip : Nat := 0
  /-- JTAG: the instruction last selected (Table 19, R509); reset IDCODE 1 -/
  jtag : Nat := 1
  /-- TEST_EN holds the core in reset; R509; reset 0 -/
  testEn : Bool := false
  /-- boundary register contents that PRELOAD loaded, pin by pin (pin number of Table 19, level); R509; reset none -/
  bsr : List (Nat × Bool) := []
  deriving DecidableEq, Repr

end Sys2Proof.Machine
end

