-- ==== Sys2Proof/Machine/State.lean ====
section
/-! DEFINITION. The state of the LW128 as plain data, the reasons a step can stop, and the state after reset. -/
namespace Sys2Proof.Machine

/-- Why a step stops without a next state. No command of the spec stops the block, so there is no such reason: no
constructor, and no command raises one. -/
inductive Fault
  deriving DecidableEq, Repr

/-- Why a command is refused. -/
inductive Refusal
  /-- Raised by the dispatch of a command that has no meaning yet. Safe: no effect is claimed. -/
  | notModelled (mnemonic : String)
  deriving DecidableEq, Repr


/-- The state of the block: its registers and everything behind them, its queue of waiting commands, and what it has
sent outside. -/
structure State where
  /-- commands waiting, first in first out; reset empty -/
  pending : List Instr := []
  /-- what the block has sent outside, newest first (the model's own record); reset empty -/
  outbox : List Sent := []
  /-- counter of free values drawn (the model's own); reset 0 -/
  free : Nat := 0
  /-- counter of DRBG values drawn (the model's own); R372; reset 0 -/
  drbg : Nat := 0
  /-- register fields not at their reset value, keyed by register, index and low bit; R6, R10; reset per Table 18.5 -/
  fields : SMap Nat := {}
  /-- register fields as the latest step 2 found them, for those that take effect there; R42, R194, R226, R260, R440; reset values -/
  eff2 : SMap Nat := {}
  /-- register fields as the latest step 4 found them (PWR_OPC); R440; reset values -/
  eff4 : SMap Nat := {}
  /-- HI halves latched per accessor (key accessor x 2^32 + register); R70, R487; reset 0 -/
  hiLatch : SMap Nat := {}
  /-- the unit interface of every unit, by unit address; R12; reset UP -/
  units : SMap UnitSt := {}
  /-- units whose RETIRED record stands in MRAM; R19, R515; reset none -/
  retRec : List Nat := []
  /-- frame and next local count of the last stamp per source; R39; reset 0 -/
  stamps : SMap (Nat × Nat) := {}
  /-- device time and frame number; R38, R451; reset 0 -/
  time : TimeSt := {}
  /-- fault collector, FAULT_N, REG_CYCLE and health; chapter 16; reset empty -/
  flt : FltSt := {}
  /-- logbook; R453; reset empty -/
  log : LogSt := {}
  /-- MRAM bytes, 32 MiB; R453; reset 0 -/
  mram : SMap Byte := {}
  /-- scheduler; chapter 2; reset per chapter 2 -/
  sched : SchedSt := {}
  /-- host front end; chapter 3; reset per chapter 3 -/
  hif : HifSt := {}
  /-- range-lock entries held and waited for; R105; reset empty -/
  locks : List Lock := []
  /-- namespaces by NSID (MRAM); R140; reset none -/
  nss : SMap (Option Ns) := {}
  /-- zones, key NSID x 2^24 + zone; Table 5.4; reset Empty -/
  zones : SMap Zone := {}
  /-- logical map; chapter 6; reset UNMAPPED -/
  map : MapSt := {}
  /-- landing buffer; chapter 4; reset empty -/
  lnd : LndSt := {}
  /-- journal and checkpoints; chapter 6; reset empty -/
  jnl : JnlSt := {}
  /-- power controller; chapter 14 -/
  pwr : PwrSt := {}
  /-- bring-up and service levels; chapter 17 -/
  lvl : LvlSt := {}
  /-- programs, bindings and scans; chapter 10; reset none -/
  prg : PrgSt := {}
  /-- governor; chapter 15 -/
  gov : GovSt := {}
  /-- flash channels, media, segments and parity; chapters 5, 7, 8 -/
  med : MedSt := {}
  /-- keys, boot and alarms; chapter 13 -/
  sec : SecSt := {}
  /-- protected words, repair and scrubbing; chapter 11 -/
  memp : MempSt := {}
  /-- DRAM controller; chapter 12 -/
  dram : DramSt := {}
  deriving DecidableEq, Repr

/-- The outcome of a command. -/
abbrev Out := Host.Outcome State Fault Refusal

/-- Change the part `pending` of the state. -/
def State.onPending (s : State) (f : List Instr → List Instr) : State := { s with pending := f s.pending }

/-- Change the part `outbox` of the state. -/
def State.onOutbox (s : State) (f : List Sent → List Sent) : State := { s with outbox := f s.outbox }

/-- Change the part `free` of the state. -/
def State.onFree (s : State) (f : Nat → Nat) : State := { s with free := f s.free }

/-- Change the part `drbg` of the state. -/
def State.onDrbg (s : State) (f : Nat → Nat) : State := { s with drbg := f s.drbg }

/-- Change the part `fields` of the state. -/
def State.onFields (s : State) (f : SMap Nat → SMap Nat) : State := { s with fields := f s.fields }

/-- Change the part `eff2` of the state. -/
def State.onEff2 (s : State) (f : SMap Nat → SMap Nat) : State := { s with eff2 := f s.eff2 }

/-- Change the part `eff4` of the state. -/
def State.onEff4 (s : State) (f : SMap Nat → SMap Nat) : State := { s with eff4 := f s.eff4 }

/-- Change the part `hiLatch` of the state. -/
def State.onHiLatch (s : State) (f : SMap Nat → SMap Nat) : State := { s with hiLatch := f s.hiLatch }

/-- Change the part `units` of the state. -/
def State.onUnits (s : State) (f : SMap UnitSt → SMap UnitSt) : State := { s with units := f s.units }

/-- Change the part `retRec` of the state. -/
def State.onRetRec (s : State) (f : List Nat → List Nat) : State := { s with retRec := f s.retRec }

/-- Change the part `stamps` of the state. -/
def State.onStamps (s : State) (f : SMap (Nat × Nat) → SMap (Nat × Nat)) : State := { s with stamps := f s.stamps }

/-- Change the part `time` of the state. -/
def State.onTime (s : State) (f : TimeSt → TimeSt) : State := { s with time := f s.time }

/-- Change the part `flt` of the state. -/
def State.onFlt (s : State) (f : FltSt → FltSt) : State := { s with flt := f s.flt }

/-- Change the part `log` of the state. -/
def State.onLog (s : State) (f : LogSt → LogSt) : State := { s with log := f s.log }

/-- Change the part `mram` of the state. -/
def State.onMram (s : State) (f : SMap Byte → SMap Byte) : State := { s with mram := f s.mram }

/-- Change the part `sched` of the state. -/
def State.onSched (s : State) (f : SchedSt → SchedSt) : State := { s with sched := f s.sched }

/-- Change the part `hif` of the state. -/
def State.onHif (s : State) (f : HifSt → HifSt) : State := { s with hif := f s.hif }

/-- Change the part `locks` of the state. -/
def State.onLocks (s : State) (f : List Lock → List Lock) : State := { s with locks := f s.locks }

/-- Change the part `nss` of the state. -/
def State.onNss (s : State) (f : SMap (Option Ns) → SMap (Option Ns)) : State := { s with nss := f s.nss }

/-- Change the part `zones` of the state. -/
def State.onZones (s : State) (f : SMap Zone → SMap Zone) : State := { s with zones := f s.zones }

/-- Change the part `map` of the state. -/
def State.onMap (s : State) (f : MapSt → MapSt) : State := { s with map := f s.map }

/-- Change the part `lnd` of the state. -/
def State.onLnd (s : State) (f : LndSt → LndSt) : State := { s with lnd := f s.lnd }

/-- Change the part `jnl` of the state. -/
def State.onJnl (s : State) (f : JnlSt → JnlSt) : State := { s with jnl := f s.jnl }

/-- Change the part `pwr` of the state. -/
def State.onPwr (s : State) (f : PwrSt → PwrSt) : State := { s with pwr := f s.pwr }

/-- Change the part `lvl` of the state. -/
def State.onLvl (s : State) (f : LvlSt → LvlSt) : State := { s with lvl := f s.lvl }

/-- Change the part `prg` of the state. -/
def State.onPrg (s : State) (f : PrgSt → PrgSt) : State := { s with prg := f s.prg }

/-- Change the part `gov` of the state. -/
def State.onGov (s : State) (f : GovSt → GovSt) : State := { s with gov := f s.gov }

/-- Change the part `med` of the state. -/
def State.onMed (s : State) (f : MedSt → MedSt) : State := { s with med := f s.med }

/-- Change the part `sec` of the state. -/
def State.onSec (s : State) (f : SecSt → SecSt) : State := { s with sec := f s.sec }

/-- Change the part `memp` of the state. -/
def State.onMemp (s : State) (f : MempSt → MempSt) : State := { s with memp := f s.memp }

/-- Change the part `dram` of the state. -/
def State.onDram (s : State) (f : DramSt → DramSt) : State := { s with dram := f s.dram }

/-- The state right after reset: every part at its reset value, an empty queue, nothing sent. -/
def State.reset : State := {}

end Sys2Proof.Machine
end

