-- ==== Sys2Proof/Machine/Ops.lean ====
section
/-! DEFINITION. The named operations every family of commands shares: register fields and event flags, byte order and
CRC-32C, order stamps and raising a fault event, the logbook writer, controllers, completions and asynchronous events. -/
namespace Sys2Proof.Machine

/-! ### Bits, bytes and CRC -/

/-- Bits [hi:lo] of a number (R4). -/
def bits (v hi lo : Nat) : Nat := (v / 2 ^ lo) % 2 ^ (hi + 1 - lo)

/-- Bit k of a number. -/
def bitOf (v k : Nat) : Bool := v.testBit k

/-- 1 for true. -/
def b2n (b : Bool) : Nat := if b then 1 else 0

/-- Set or clear bit k. -/
def putBit (v k : Nat) (b : Bool) : Nat := if v.testBit k then (if b then v else v - 2 ^ k) else (if b then v + 2 ^ k else v)

/-- `n` bytes of a number, least significant first (R4). -/
def leBytes : Nat → Nat → List Byte
  | 0, _ => []
  | n + 1, v => BitVec.ofNat 8 v :: leBytes n (v / 256)

/-- The number that bytes spell, least significant first (R4). -/
def ofLe : List Byte → Nat
  | [] => 0
  | b :: t => b.toNat + 256 * ofLe t

/-- The little-endian number at byte offset `o` of `n` bytes. -/
def leAt (d : List Byte) (o n : Nat) : Nat := ofLe ((d.drop o).take n)

/-- `n` zero bytes. -/
def zeros (n : Nat) : List Byte := List.replicate n 0

/-- A list of bytes padded with zeros to a length. -/
def padTo (n : Nat) (d : List Byte) : List Byte := d ++ zeros (n - d.length)

/-- One bit of CRC-32C (Castagnoli polynomial, reflected). -/
def crcBit (c : Nat) : Nat := if c % 2 = 1 then (c / 2) ^^^ 0x82F63B78 else c / 2

/-- One byte of CRC-32C. -/
def crcByte (c : Nat) (b : Byte) : Nat :=
  crcBit (crcBit (crcBit (crcBit (crcBit (crcBit (crcBit (crcBit (c ^^^ b.toNat))))))))

/-- CRC-32C of a byte string. -/
def crc32c (d : List Byte) : Nat := (d.foldl crcByte 0xFFFFFFFF) ^^^ 0xFFFFFFFF

/-- Division rounded up. -/
def cdiv (a b : Nat) : Nat := (a + b - 1) / b

/-- A 16-bit event count after one more event (R8). -/
def inc16 (n : Nat) : Nat := (n + 1) % 65536

/-- A count after `n` more, saturating at 0xFFFF_FFFF. -/
def sat32 (n : Nat) : Nat := min n 0xFFFFFFFF

/-! ### Register fields -/

/-- The key of one field of one copy of a register: `u` is the unit a window selects, or the accessor of a per-accessor
register, or 0. -/
def fkey (f : Fld) (u : Nat) : Nat := (f.reg * 4096 + u) * 32 + f.lo

/-- The value of a field. -/
def State.getF (s : State) (f : Fld) (u : Nat := 0) : Nat := s.fields.get f.reset (fkey f u)

/-- The value of a field as the latest step 2 found it (R42). -/
def State.get2 (s : State) (f : Fld) (u : Nat := 0) : Nat := s.eff2.get f.reset (fkey f u)

/-- The value of a field as the latest step 4 found it (R42). -/
def State.get4 (s : State) (f : Fld) (u : Nat := 0) : Nat := s.eff4.get f.reset (fkey f u)

/-- A field that is one bit, as a truth value. -/
def State.flag (s : State) (f : Fld) (u : Nat := 0) : Bool := s.getF f u != 0

/-- Set a field, to its width. -/
def State.setF (s : State) (f : Fld) (v : Nat) (u : Nat := 0) : State :=
  s.onFields fun m => m.set f.reset (fkey f u) (v % 2 ^ f.width)

/-- Set a one-bit field. -/
def State.setFlag (s : State) (f : Fld) (b : Bool) (u : Nat := 0) : State := s.setF f (b2n b) u

/-- A setting event of a W1C flag: the flag is set and the 16-bit count beside it advances (R8). -/
def State.raiseEvt (s : State) (f cnt : Fld) (u : Nat := 0) : State :=
  (s.setF f 1 u).setF cnt (inc16 (s.getF cnt u)) u

/-- One event counted in a saturating 32-bit count. -/
def State.bump (s : State) (f : Fld) (u : Nat := 0) : State := s.setF f (sat32 (s.getF f u + 1)) u

/-- The value a written word gives a field. -/
def Fld.of (f : Fld) (v : Nat) : Nat := bits v f.hi f.lo

/-- A written word keeps to a field's stated range (R7). -/
def Fld.fits (f : Fld) (v : Nat) : Bool :=
  match f.lim with
  | some (a, b) => decide (a ≤ f.of v) && decide (f.of v ≤ b)
  | none => true

/-- One field of a written word stored by its type (R6): RW takes its bits, W1C clears where 1 is written, W1S sets where
1 is written; RO, RC and WO fields store nothing. -/
def State.storeFld (s : State) (f : Fld) (u v : Nat) : State :=
  match f.ty with
  | .rw => s.setF f (f.of v) u
  | .w1c => if f.of v = 0 then s else s.setF f (s.getF f u &&& (2 ^ f.width - 1 - f.of v)) u
  | .w1s => s.setF f (s.getF f u ||| f.of v) u
  | _ => s

/-- A write to the fields of a register (R6, R7): none, nothing stored, when a value lies outside a stated range; HIF_CFG, of
which R102 names one field, is dropped whole as well (DESIGN CHOICE, assumption 124). -/
def State.storeReg (s : State) (r : Reg) (u v : Nat) : Option State :=
  if r.flds.all (fun f => f.ty != .rw || f.fits v) then some (r.flds.foldl (fun s f => s.storeFld f u v) s) else none

/-- A write to the register at an address, dropped when out of range or where no register is. -/
def State.storeAt (s : State) (addr u v : Nat) : State :=
  match regAt addr with
  | some r => (s.storeReg r u v).getD s
  | none => s

/-- The copy index of an accessor: its engine index of Table 1.2, 0xFFF for the management path (R487). -/
def accIdx : Acc → Nat
  | .eng i => i % 4096
  | .mgmt => 0xFFF

/-! ### Free values -/

/-- A fresh free value: the counter read, and the state with it advanced. -/
def State.nextFree (s : State) : State := s.onFree (· + 1)

/-- Draw a DRBG value (R372): the counter read, and the state with it advanced. -/
def State.nextDrbg (s : State) : State := s.onDrbg (· + 1)

/-- Send something outside. -/
def State.send (s : State) (o : Sent) : State := s.onOutbox (o :: ·)

/-! ### The unit tree -/

/-- Kind of a unit address (R13). -/
def uKind (a : Nat) : Nat := a / 4096 % 16

/-- Index of a unit address within its kind (R13). -/
def uIdx (a : Nat) : Nat := a % 4096

/-- An engine index of Table 1.2. -/
def isEngine (i : Nat) : Bool :=
  decide (i ≤ 0x00B) || (decide (0x010 ≤ i) && decide (i ≤ 0x01F)) || (decide (0x020 ≤ i) && decide (i ≤ 0x02F)) ||
  (decide (0x030 ≤ i) && decide (i ≤ 0x033))

/-- The address names a unit of Table 1.2. -/
def isUnit (a : Nat) : Bool :=
  decide (a < 65536) &&
  match uKind a with
  | 0 => uIdx a == 0
  | 1 => decide (uIdx a < 4)
  | 2 => decide (uIdx a < 16)
  | 3 => decide (uIdx a < 128)
  | 4 => isEngine (uIdx a)
  | 5 => decide (uIdx a < 4)
  | 6 => decide (uIdx a < 8)
  | 7 => decide (uIdx a < 16)
  | 8 => uIdx a == 0
  | 9 => decide (uIdx a < 8)
  | _ => false

/-- Unit addresses by kind. -/
def uChip : Nat := 0
def uQuad (q : Nat) : Nat := 0x1000 + q
def uGroup (n : Nat) : Nat := 0x2000 + n
def uChan (c : Nat) : Nat := 0x3000 + c
def uEng (i : Nat) : Nat := 0x4000 + i
def uCC (q : Nat) : Nat := 0x5000 + q
def uDram (n : Nat) : Nat := 0x6000 + n
def uLnd (n : Nat) : Nat := 0x7000 + n
def uFront : Nat := 0x8000
def uSvc (n : Nat) : Nat := 0x9000 + n

/-- Engine indices. -/
def eHE (n : Nat) : Nat := n
def eME (n : Nat) : Nat := 0x10 + n
def eFE (n : Nat) : Nat := 0x20 + n
def eSE (n : Nat) : Nat := 0x30 + n

/-- The child list of a unit, in order (Table 1.3). -/
def uChildren (a : Nat) : List Nat :=
  match uKind a with
  | 0 => (List.range 4).map uQuad ++ [uFront] ++ (List.range 8).map uSvc
  | 1 => (List.range 4).map (fun g => uGroup (4 * uIdx a + g)) ++ [uCC (uIdx a)]
  | 2 => (List.range 8).map (fun k => uChan (8 * uIdx a + k)) ++ [uEng (eME (uIdx a)), uEng (eFE (uIdx a)), uLnd (uIdx a)]
  | 8 => (List.range 12).map (fun n => uEng (eHE n))
  | 9 => if uIdx a = 0 then (List.range 4).map (fun n => uEng (eSE n))
         else if uIdx a = 1 then (List.range 8).map uDram else []
  | _ => []

/-- The parent of a unit (Table 1.3); the chip is its own. -/
def uParent (a : Nat) : Nat :=
  match uKind a with
  | 2 => uQuad (uIdx a / 4)
  | 3 => uGroup (uIdx a / 8)
  | 4 => if uIdx a < 0x10 then uFront else if uIdx a < 0x30 then uGroup (uIdx a % 16) else uSvc 0
  | 5 => uQuad (uIdx a)
  | 6 => uSvc 1
  | 7 => uGroup (uIdx a)
  | _ => uChip

/-- What a unit presents. -/
def State.unit (s : State) (a : Nat) : UnitSt := s.units.get {} a

/-- Change what a unit presents. -/
def State.onUnit (s : State) (a : Nat) (f : UnitSt → UnitSt) : State := s.onUnits fun m => m.upd {} a f

/-! ### Order stamps and fault events -/

/-- The source number of a unit in an order stamp (R38). -/
def stampSrc (unit : Nat) : Nat := uKind unit * 256 + uIdx unit % 256

/-- The frame and local count of the next stamp of a source: a 17th event of a frame takes count 0 of the next frame,
with later events queued behind it (R39). -/
def stampSlot (now : Nat) (last : Nat × Nat) : Nat × Nat :=
  if last.1 < now then (now, 0) else if last.2 < 16 then last else (last.1 + 1, 0)

/-- An order stamp: frame in [63:16], source in [15:4], local count in [3:0] (R38). -/
def stampOf (frame src cnt : Nat) : Nat := frame % 2 ^ 48 * 65536 + src % 4096 * 16 + cnt % 16

/-- The stamp the source would emit now. -/
def State.stampNow (s : State) (unit : Nat) : Nat :=
  let p := stampSlot s.time.frame (s.stamps.get (0, 0) (stampSrc unit))
  stampOf p.1 (stampSrc unit) p.2

/-- Take the stamp of a source. -/
def State.takeStamp (s : State) (unit : Nat) : State :=
  s.onStamps fun m =>
    let p := stampSlot s.time.frame (m.get (0, 0) (stampSrc unit))
    m.set (0, 0) (stampSrc unit) (p.1, p.2 + 1)

/-- The class of a fault code (R441). -/
def faultClass (code : Nat) : Nat := code / 256

/-- Does an event assert FAULT_N (R445)? F2 and F3 always, F1 where the kind of its source is clear in FLT_F1_MASK. -/
def State.pinsFault (s : State) (code unit : Nat) : Bool :=
  decide (2 ≤ faultClass code) || (faultClass code == 1 && !(s.getF F.FLT_F1_MASK_MASK).testBit (uKind unit))

/-- Assert FAULT_N for WIDTH, from the event, at the WIDTH in force (R445); an F3 event holds the pin (R446). -/
def State.assertFault (s : State) (code : Nat) : State :=
  (s.onFlt fun f => { f with pulse := true, pulseW := s.getF F.FLT_PIN_WIDTH, f3pin := f.f3pin || decide (faultClass code = 3) }).send
    (.pin 0 true)

/-- A unit raises a fault event: stamped, its FAULT_N assertion on the direct path, and queued for the collector
(R38, R39, R444, R445). -/
def State.raiseFault (s : State) (code unit : Nat) (detail : Nat := 0) (fsn : Nat := 0) : State :=
  let ev : FaultEv := { stamp := s.stampNow unit, unit := unit, code := code, detail := detail, fsn := fsn }
  let s := s.takeStamp unit
  let s := if s.pinsFault code unit then s.assertFault code else s
  s.onFlt fun f => { f with queue := f.queue ++ [ev] }

/-- The device is halted (R448). -/
def State.halted (s : State) : Bool := s.flt.halt.isSome

/-! ### The logbook writer -/

/-- Bytes of the logbook ring (R453). -/
def logRing : Nat := 8388608

/-- The ring's offset in MRAM (LOG_BASE). -/
def logBase : Nat := 0x1000000

/-- A byte of the ring. -/
def State.logByte (s : State) (off : Nat) : Byte := s.mram.get 0 (logBase + off % logRing)

/-- Bytes of a snapshot page before the record at a ring offset ends. -/
def snapEnd : List (Nat × Nat × Nat) → Nat → Nat → Nat
  | [], _, acc => acc
  | (o, l, _) :: t, off, acc => if o = off then acc + l else snapEnd t off (acc + l)

/-- A record at a ring offset is overwritten: a snapshot that holds it untransferred is lost (R458). -/
def Snap.overwrite (sn : Snap) (off : Nat) : Snap :=
  if sn.recs.any (fun r => r.1 == off) && decide (sn.sent < snapEnd sn.recs off 64) then { sn with lost := true } else sn

/-- Overwrite oldest records until `n` bytes are free; LOG_TAIL follows them (R453). -/
def State.logRoom (s : State) (n : Nat) : Nat → State
  | 0 => s
  | fuel + 1 =>
    if s.log.used + n ≤ logRing then s
    else
      let len := 8 * (s.logByte s.log.tail).toNat
      let off := s.log.tail
      (s.onLog fun l => { l with
          tail := (off + len) % logRing
          used := l.used - len
          snaps := l.snaps.mapV fun _ o => o.map (·.overwrite off) }).logRoom n fuel

/-- Store record bytes at LOG_HEAD and move LOG_HEAD past them. -/
def State.logPut (s : State) (d : List Byte) : State :=
  (s.onMram fun m => m.setRange 0 (logBase + s.log.head) d).onLog fun l =>
    { l with head := (l.head + d.length) % logRing, used := l.used + d.length }

/-- The header of a record (Table 16.5). -/
def logHeader (len8 cls typ unit pcc seq stamp : Nat) : List Byte :=
  leBytes 1 len8 ++ leBytes 1 (cls * 128 + typ) ++ leBytes 2 unit ++ leBytes 4 pcc ++ leBytes 8 seq ++ leBytes 8 stamp

/-- Fill the space left at the ring's end with a PAD record when a record would be split (R453). -/
def State.logPad (s : State) (len : Nat) : State :=
  let gap := logRing - s.log.head
  if gap < len then (s.logRoom gap 64).logPut (padTo gap (leBytes 1 (gap / 8))) else s

/-- Write one record (R453): class, type, source unit, stamp, and body, padded with zeros to `len` - 4, with the
CRC-32C in its last four bytes. -/
def State.logWrite (s : State) (cls typ unit stamp len : Nat) (body : List Byte) : State :=
  let s := s.logPad len
  let s := s.logRoom len 64
  let d := padTo (len - 4) (logHeader (len / 8) cls typ unit s.time.pcc s.log.seq stamp ++ body)
  let s := s.logPut (d ++ leBytes 4 (crc32c d))
  s.onLog fun l => { l with seq := l.seq + 1 }

/-- Write a record stamped by a unit now. -/
def State.logRec (s : State) (cls typ unit len : Nat) (body : List Byte) : State :=
  (s.takeStamp unit).logWrite cls typ unit (s.stampNow unit) len body

/-- A STATE record (Table 16.6): kind, from, to. -/
def State.logState (s : State) (kind frm dst : Nat) : State :=
  s.logRec 0 5 (uSvc 4) 40 (leBytes 1 kind ++ leBytes 1 frm ++ leBytes 1 dst)

/-! ### Controllers, completions and asynchronous events -/

/-- A controller. -/
def State.ctrl (s : State) (fn : Nat) : Ctrl := s.hif.ctrls.get {} fn

/-- A health status change flag of the management endpoint (Table 3.10; the bits of NVMe-MI): 0 ready, 1 fatal status,
2 shutdown status, 6 namespaces, 7 firmware activated. -/
def State.miChange (s : State) (k : Nat) : State := s.onHif fun h => { h with mhs := putBit h.mhs k true }

/-- Change a controller. -/
def State.onCtrl (s : State) (fn : Nat) (f : Ctrl → Ctrl) : State :=
  s.onHif fun h => { h with ctrls := h.ctrls.upd {} fn f }

/-- An outstanding command by its FSN. -/
def State.cmd (s : State) (fsn : Nat) : Option Cmd := s.hif.cmds.find? (fun c => c.fsn == fsn)

/-- Change an outstanding command. -/
def State.onCmd (s : State) (fsn : Nat) (f : Cmd → Cmd) : State :=
  s.onHif fun h => { h with cmds := h.cmds.map fun c => if c.fsn = fsn then f c else c }

/-- Forget an outstanding command and release its range-lock entries and unit holds. -/
def State.dropCmd (s : State) (fsn : Nat) : State :=
  ((s.onHif fun h => { h with cmds := h.cmds.filter (fun c => c.fsn != fsn) }).onLocks
    (fun l => l.filter (fun e => e.fsn != fsn))).onMap fun m => { m with holds := m.holds.filter (fun e => e.1 != fsn) }

/-- Release a command's range-lock entries only. -/
def State.unlock (s : State) (fsn : Nat) : State := s.onLocks (fun l => l.filter (fun e => e.fsn != fsn))

/-- NVMe statuses as SCT x 256 + SC (Table 3.7 and NVMe). -/
def stOk : Nat := 0x000
def stInvalidOpcode : Nat := 0x001
def stInvalidField : Nat := 0x002
def stTransferError : Nat := 0x004
def stAbortRequested : Nat := 0x007
def stSqDeleted : Nat := 0x008
def stInvalidNs : Nat := 0x00B
def stSequence : Nat := 0x00C
def stSglCount : Nat := 0x00E
def stSglLength : Nat := 0x00F
def stWriteProtected : Nat := 0x020
def stLbaRange : Nat := 0x080
def stCapacity : Nat := 0x081
def stNotReady : Nat := 0x082
def stCqInvalid : Nat := 0x100
def stQidInvalid : Nat := 0x101
def stQueueSize : Nat := 0x102
def stAbortLimit : Nat := 0x103
def stVector : Nat := 0x108
def stSecondaryState : Nat := 0x120
def stResourceId : Nat := 0x122
def stCtrlList : Nat := 0x11C
def stAerLimit : Nat := 0x105
def stFwSlot : Nat := 0x106
def stFwImage : Nat := 0x107
def stQueueDeletion : Nat := 0x10C
def stFeatureNotSaveable : Nat := 0x10D
def stNsAttached : Nat := 0x118
def stNsNotAttached : Nat := 0x11A
def stNsCapacity : Nat := 0x115
def stNsIdUnavailable : Nat := 0x116
def stSelfTestRunning : Nat := 0x11D
def stInvalidFormat : Nat := 0x10A
def stFwNeedsReset : Nat := 0x110
def stInvalidCtrl : Nat := 0x11F
def stZoneBoundary : Nat := 0x1B8
def stZoneFull : Nat := 0x1B9
def stZoneReadOnly : Nat := 0x1BA
def stZoneOffline : Nat := 0x1BB
def stZoneInvalidWrite : Nat := 0x1BC
def stZoneTooManyActive : Nat := 0x1BD
def stZoneTooManyOpen : Nat := 0x1BE
def stZoneTransition : Nat := 0x1BF
def stUnrecovered : Nat := 0x281
def stGuard : Nat := 0x282
def stAppTag : Nat := 0x283
def stRefTag : Nat := 0x284
def stCompare : Nat := 0x285
def stScanLost : Nat := 0x700
def stProgNotLoaded : Nat := 0x701
def stProgTrap : Nat := 0x702
def stProgRejected : Nat := 0x703
def stKeyUnavailable : Nat := 0x704
def stNotBound : Nat := 0x705
def stRing : Nat := 0x706

/-- DNR of a status (R91): 1 on every error but the two abort statuses and Namespace Not Ready. -/
def dnrOf (st : Nat) : Bool := st != stOk && st != stAbortRequested && st != stSqDeleted && st != stNotReady

/-- CRD of a status: 1 with Namespace Not Ready (Table 3.7). -/
def crdOf (st : Nat) : Nat := if st = stNotReady then 1 else 0

/-- DW3 of a completion with its status field: SC, SCT, CRD and DNR (NVMe, R91). -/
def cqeStatus (st : Nat) : Nat := 2 ^ 17 * (st % 2048 + crdOf st * 2 ^ 11 + b2n (dnrOf st) * 2 ^ 14)

/-- The completion queue of a submission queue. -/
def State.cqOf (s : State) (fn sq : Nat) : Nat :=
  match (s.ctrl fn).sqs.get none sq with | some q => q.cq | none => 0

/-- No completion is posted from step 2 of a halt on (Table 16.4). -/
def State.postsStopped (s : State) : Bool := match s.flt.halt with | some h => decide (2 ≤ h.step) | none => false

/-- Ticks after which a read of a latency class misses its target (Table 2.8), none for class D. -/
def classTarget : Nat → Option Nat
  | 0 => some 100 | 1 => some 250 | 2 => some 1250 | _ => none

/-- The miss count of a latency class. -/
def missFld : Nat → Fld
  | 0 => F.FRM_MISS_A_MISS | 1 => F.FRM_MISS_B_MISS | _ => F.FRM_MISS_C_MISS

/-- Opcode of a read in the sense of R59. -/
def isReadOp (opc : Nat) : Bool := opc == 0x02 || opc == 0x05 || opc == 0x0C

/-- A read completed after its target adds one to the miss count of its class (R61). -/
def State.countMiss (s : State) (c : Cmd) : State :=
  if c.sq ≠ 0 ∧ isReadOp c.sqe.opc then
    match (s.nss.get none c.sqe.nsid).bind (·.bind) with
    | some (_, cls) =>
      match classTarget cls with
      | some t => if t ≤ s.time.frame - c.frame then s.bump (missFld cls) else s
      | none => s
    | none => s
  else s

/-- A failed command enters a controller's error log of 64 entries. -/
def errEnter (sq cid st : Nat) (l : List (Nat × Nat × Nat × Nat)) : List (Nat × Nat × Nat × Nat) :=
  (((l.head?.map (·.1)).getD 0 + 1, sq, cid, st) :: l).take 64

/-- Post the completion of an outstanding command: the host sees the entry (or the tunnel its response), the command
and its locks are gone, and a failed command leaves an error log entry. -/
def State.complete (s : State) (fsn st : Nat) (dw0 : Nat := 0) (data : List Byte := []) (dw1 : Nat := 0) : State :=
  match s.cmd fsn with
  | none => s
  | some c =>
    let s := s.countMiss c
    let s := if st ≠ stOk then s.onHif fun h => { h with errLog := h.errLog.upd [] c.fn (errEnter c.sq c.sqe.cid st) } else s
    let s := s.dropCmd fsn
    if c.mute || (s.postsStopped && !c.tunnel) then s
    else if c.tunnel then s.send (.mi 0xF0 st (leBytes 4 dw0 ++ leBytes 4 dw1 ++ leBytes 4 (cqeStatus st) ++ data))
    else s.send (.cqe c.fn c.sq (s.cqOf c.fn c.sq) c.sqe.cid st (dnrOf st) (crdOf st) dw0 dw1 data)

/-- A feature's value: as set, else as saved, else the default 0 (R86). -/
def State.feat (s : State) (fn fid : Nat) : Nat :=
  match (s.ctrl fn).feats.get none fid with
  | some v => v
  | none => (s.hif.saved.get none (fn * 2 ^ 32 + fid)).getD 0

/-- Is an asynchronous event enabled on a controller? Vendor events by bits 29 to 31 of Asynchronous Event
Configuration (R88), SMART and notices by the bits NVMe gives them, errors always. -/
def State.aenEnabled (s : State) (fn : Nat) (a : Aen) : Bool :=
  match a.typ with
  | 7 => (s.feat fn 0x0B).testBit (29 + a.info)
  | 2 => (s.feat fn 0x0B).testBit (if a.info = 0xEF then 27 else 8 + a.info)
  | _ => true

/-- DW0 of an asynchronous event's completion (NVMe). -/
def Aen.dw0 (a : Aen) : Nat := a.typ + 256 * a.info + 65536 * a.lid

/-- An asynchronous event for one controller: it completes the oldest request, or waits for one (R88). -/
def State.aenTo (s : State) (fn : Nat) (a : Aen) : State :=
  if s.aenEnabled fn a then
    match (s.ctrl fn).aers with
    | [] => s.onCtrl fn fun c => { c with aens := c.aens ++ [a] }
    | r :: t => (s.onCtrl fn fun c => { c with aers := t }).complete r stOk a.dw0
  else s

/-- The functions whose controller is enabled. -/
def State.enabledFns (s : State) : List Nat := (s.hif.ctrls.items.filter (fun e => e.2.en)).map (·.1)

/-- An asynchronous event for every enabled controller. -/
def State.aenAll (s : State) (a : Aen) : State := s.enabledFns.foldl (fun s fn => s.aenTo fn a) s

/-- The namespace of an NSID. -/
def State.ns (s : State) (n : Nat) : Option Ns := s.nss.get none n

/-- Change a namespace. -/
def State.onNs (s : State) (n : Nat) (f : Ns → Ns) : State :=
  s.onNss fun m => match m.get none n with | some x => m.set none n (some (f x)) | none => m

/-- Charge work to a tenant for a resource kind (R46, R54): the charge waits for the next step 2. -/
def State.charge (s : State) (arb tid kind work : Nat) : State :=
  s.onSched fun c =>
    let w := (c.ledger.get {} tid).weight
    { c with charges := c.charges.upd 0 ((arb * 4096 + tid) * 4 + kind) fun v => (v + cdiv (work * 65536) w) % 2 ^ 64 }

/-- A tenant has a ready request for a resource kind in this frame (R55). -/
def State.markReady (s : State) (tid kind : Nat) : State :=
  s.onSched fun c => { c with ready := c.ready.set 0 (tid * 4 + kind) 1 }

end Sys2Proof.Machine
end

