-- ==== Sys2Proof/Machine/Units.lean ====
section
/-! DEFINITION. The unit tree: STATE as a unit presents it, the unit port's registers, command port operations, and the
movement of work when a unit fails (chapter 1; R12 to R31, R480, R514). -/
namespace Sys2Proof.Machine

/-! ### STATE -/

/-- Heads its own power domain (Table 14.2). -/
def ownPwr (a : Nat) : Bool :=
  match uKind a with
  | 2 => true
  | 4 => decide (uIdx a < 0x10)
  | 5 => true
  | 6 => true
  | 7 => true
  | 8 => true
  | 9 => true
  | _ => false

/-- The unit that heads the power domain of a unit (R400): a group for its channels, ME and FE, service unit 0 for the
SEs, the unit itself where it has its own domain. -/
def domainOf (a : Nat) : Nat := if ownPwr a then a else uParent a

/-- The ME (0 to 15) that serves a group (Table 1.7 SERVER, R28). -/
def State.serverMe (s : State) (n : Nat) : Nat := (s.unit (uGroup n)).adopter.getD n

/-- The groups an ME serves. -/
def State.servedBy (s : State) (me : Nat) : List Nat := (List.range 16).filter (fun n => s.serverMe n == me)

/-- An ME able to serve: not
fenced, retired, resetting or under self-test, and its domain not off. -/
def State.meServes (s : State) (me : Nat) : Bool :=
  (match (s.unit (uEng (eME me))).st with
   | .up => true | .draining => true | .drowse => true | _ => false) && (s.unit (uGroup me)).cur != 0

/-- Some ME of a quadrant is able to serve its groups (R28). -/
def State.quadServed (s : State) (q : Nat) : Bool := (List.range 4).any fun k => s.meServes (4 * q + k)

/-- The image of an engine is being swapped (R474, Table 4.5). -/
def State.swapping (s : State) (e : Nat) : Bool :=
  match s.lvl.act with | some a => a.begun && a.cur == some e | none => false

/-- Every channel of a group is FENCED or RETIRED (R28). -/
def State.chansOut (s : State) (n : Nat) : Bool :=
  (List.range 8).all fun k =>
    match (s.unit (uChan (8 * n + k))).st with | .fenced => true | .retired => true | _ => false

/-- Present power of a unit's domain (SYS_UNIT_PWR.CUR); a landing slice is in retention while its group drowses
(R400). -/
def State.curPwr (s : State) (a : Nat) : Nat :=
  let c := (s.unit (domainOf a)).cur
  if uKind a = 7 then (if c = 0 then 0 else if (s.unit (uGroup (uIdx a))).cur = 1 then 1 else c) else c

/-- STATE of a unit (Table 1.7, R28). -/
def State.unitState (s : State) (a : Nat) : UState :=
  let u := s.unit a
  if uKind a = 2 then
    match u.st with
    | .up =>
      if !s.quadServed (uIdx a / 4) || s.chansOut (uIdx a) then .fenced
      else if u.cur = 1 then .drowse else if u.cur = 0 then .off else .up
    | st => st
  else
    match u.st with
    | .up => if s.curPwr a = 0 then .off else if s.curPwr a = 1 then .drowse else .up
    | st => st

/-- A unit whose own register window is not reached: clock or power off, DROWSE or RETIRED (R24). -/
def State.unitOff (s : State) (a : Nat) : Bool :=
  match s.unitState a with
  | .off => true | .drowse => true | .retired => true | _ => decide (s.curPwr a ≠ 2)

/-- The unit or any unit below it is FENCED (R18); the tree is four levels deep. -/
def State.fencedBelow (s : State) : Nat → Nat → Bool
  | 0, a => s.unitState a == .fenced
  | n + 1, a => s.unitState a == .fenced || (uChildren a).any (fun c => s.fencedBelow n c)

/-- OWN flags of a unit as bits 3 to 0. -/
def UnitSt.own (u : UnitSt) : Nat := b2n u.own0 + 2 * b2n u.own1 + 4 * b2n u.own2 + 8 * b2n u.own3

/-- SUB: the OR of OWN and SUB of all children (R17). -/
def State.subFlags (s : State) : Nat → Nat → Nat
  | 0, _ => 0
  | n + 1, a => (uChildren a).foldl (fun acc c => acc ||| (s.unit c).own ||| s.subFlags n c) 0

/-- Units in STATE FENCED (FLT_STAT.FENCED). -/
def State.fencedUnits (s : State) : List Nat :=
  ((s.units.keys ++ (List.range 16).map uGroup).eraseDups).filter (fun a => s.unitState a == .fenced)

/-! ### The unit port's registers -/

/-- SYS_UNIT_DESC (Table 1.6). -/
def unitDesc (a : Nat) : Nat := a * 65536 + (uChildren a).length * 256 + b2n (ownPwr a) * 16 + 1

/-- SERVER (Table 1.7): for a group the engine index of the ME serving it, else 0xFFF. -/
def State.server (s : State) (a : Nat) : Nat := if uKind a = 2 then eME (s.serverMe (uIdx a)) else 0xFFF

/-- SYS_UNIT_STAT (Table 1.7). -/
def State.unitStat (s : State) (a : Nat) : Nat :=
  s.server a * 65536 + ((uChildren a).filter (fun c => s.unitState c == .up)).length * 256 +
  b2n (decide (s.curPwr a = 2)) * 128 + b2n (decide (s.curPwr a ≠ 0)) * 64 + b2n (s.unit a).run.isSome * 32 +
  b2n (uKind a == 2 && (s.unit a).adopter.isSome) * 16 + (s.unitState a).code

/-- SYS_UNIT_ERR (Table 1.8). -/
def State.unitErr (s : State) (a : Nat) : Nat :=
  s.subFlags 4 a * 256 + b2n (s.fencedBelow 4 a) * 16 + (s.unit a).own

/-- SYS_UNIT_CRES (Table 1.10). -/
def State.unitCres (s : State) (a : Nat) : Nat :=
  let u := s.unit a
  b2n u.run.isNone * 2 ^ 31 + u.lastOp * 65536 + u.code

/-- SYS_UNIT_PWR (Table 1.12, R21). -/
def State.unitPwr (s : State) (a : Nat) : Nat :=
  let u := s.unit a
  let d := s.unit (domainOf a)
  u.refCnt * 65536 + b2n u.refused * 4096 + s.curPwr a * 256 + b2n d.auto * 16 + d.req

/-- SYS_UNIT_CHILDi (R22). -/
def unitChild (a i : Nat) : Nat := (uChildren a).getD i 0xFFFF

/-! ### Movement of work -/

/-- UP MEs of a quadrant. -/
def State.upMes (s : State) (q : Nat) : List Nat :=
  ((List.range 4).map (4 * q + ·)).filter (fun m => s.unitState (uEng (eME m)) == .up)

/-- The ME that takes a failed ME's group: the UP ME of the quadrant serving the fewest groups, lowest index on a tie
(Table 1.14). -/
def State.adopterFor (s : State) (q failed : Nat) : Option Nat :=
  ((s.upMes q).filter (· ≠ failed)).foldl (fun best m =>
    match best with
    | none => some m
    | some b => if (s.servedBy m).length < (s.servedBy b).length then some m else some b) none

/-- One group of a failed ME moves to a sibling; each adoption is an F2 event of the failed ME (R31). -/
def State.adoptFrom (s : State) (failed g : Nat) : State :=
  match s.adopterFor (failed / 4) failed with
  | some m => (s.onUnit (uGroup g) fun u => { u with adopter := if m = g then none else some m }).raiseFault 0x0202 (uEng (eME failed)) g
  | none => s

/-- Work of a failed ME (Table 1.14): its groups move to siblings, or with all four MEs of the quadrant failed the LW128
raises F3. With siblings that are able but not UP the groups wait for one (`adoptOrphans`). -/
def State.moveMe (s : State) (n : Nat) : State :=
  if s.quadServed (n / 4) then (s.servedBy n).foldl (fun s g => s.adoptFrom n g) s
  else s.raiseFault 0x0302 (uQuad (n / 4))

/-- Groups left with a failed ME move as soon as a sibling is UP (R29, R31). -/
def State.adoptOrphans (s : State) : State :=
  (List.range 16).foldl (fun s g => if s.meServes (s.serverMe g) then s else s.adoptFrom (s.serverMe g) g) s

/-- The UP FE with the shortest scan queue, same quadrant first (Table 1.14); of FEs equal in both the lowest index
(DESIGN CHOICE, assumption 99: the table gives a tie rule for MEs only). -/
def State.feFor (s : State) (n : Nat) : Option Nat :=
  let up := ((List.range 16).filter (fun f => s.unitState (uEng (eFE f)) == .up && f != n))
  let cost := fun f => (if f / 4 = n / 4 then 0 else 100000) + (s.prg.scans.filter (fun c => c.fe == f)).length
  up.foldl (fun best f => match best with
    | none => some f
    | some b => if cost f < cost b then some f else some b) none

/-- Work of a failed FE: queued scans move, a scan running on it completes with Scan Engine Lost (Table 1.14). -/
def State.moveFe (s : State) (n : Nat) : State :=
  let running := s.prg.scans.filter (fun c => c.fe == n && c.started)
  let s := running.foldl (fun s c => s.complete c.fsn stScanLost) s
  let s := s.onPrg fun p => { p with scans := p.scans.filter (fun c => !(c.fe == n && c.started)) }
  (s.prg.scans.filter (fun c => c.fe == n)).foldl (fun s c =>
    match s.feFor n with
    | some f => s.onPrg fun p => { p with scans := p.scans.map fun x => if x.fsn = c.fsn then { x with fe := f, resident := false } else x }
    | none => s) s

/-- The HE that serves a submission queue (R29, R30); a queue that none has been given yet counts for HE0. -/
def State.heOf (s : State) (fn q : Nat) : Nat := s.hif.heQ.get 0 (fn * 65536 + q) - 1

/-- Submission queues that exist, function and queue. -/
def State.queues (s : State) : List (Nat × Nat) :=
  s.hif.ctrls.items.flatMap fun e => (e.2.sqs.items.filter (·.2.isSome)).map fun x => (e.1, x.1)

/-- The present load of an HE: outstanding commands of the queues it serves, and after them the queues (R29). -/
def State.heLoad (s : State) (n : Nat) : Nat :=
  (s.hif.cmds.filter fun c => s.heOf c.fn c.sq == n).length * 65536 + (s.queues.filter fun q => s.heOf q.1 q.2 == n).length

/-- The UP HE with the least load, lowest index on a tie (R29; DESIGN CHOICE, assumption 65: Table 1.14 names no rule but the
proportion to present load). -/
def State.heFor (s : State) (but : Nat) : Option Nat :=
  ((List.range 12).filter fun n => n != but && s.unitState (uEng (eHE n)) == .up && !s.swapping (eHE n)).foldl (fun best n =>
    match best with
    | none => some n
    | some b => if s.heLoad n < s.heLoad b then some n else some b) none

/-- Give a submission queue to the HE of least load other than `but` (12: to any). -/
def State.giveQueue (s : State) (but : Nat) (q : Nat × Nat) : State :=
  match s.heFor but with
  | some n => s.onHif fun h => { h with heQ := h.heQ.set 0 (q.1 * 65536 + q.2) (n + 1) }
  | none => s

/-- Queues of a failed HE move to the other UP HEs, spread by their present load (Table 1.14). -/
def State.moveHe (s : State) (n : Nat) : State :=
  (s.queues.filter fun q => s.heOf q.1 q.2 == n).foldl (fun s q => s.giveQueue n q) s

/-- Queues left with an HE that is out find another one as soon as one is UP (R29). -/
def State.moveQueues (s : State) : State :=
  (List.range 12).foldl (fun s n => match s.unitState (uEng (eHE n)) with
    | .fenced => s.moveHe n | .retired => s.moveHe n | .off => s.moveHe n | _ => s) s

/-- Work of a fenced unit moves as Table 1.14 states (R29). -/
def State.moveWork (s : State) (a : Nat) : State :=
  match uKind a with
  | 4 =>
    let i := uIdx a
    if i < 0x10 then s.moveHe i
    else if i < 0x20 then s.moveMe (i - 0x10)
    else if i < 0x30 then s.moveFe (i - 0x20)
    else if i = 0x31 then s
    else s.raiseFault 0x0304 a
  | 5 => s.raiseFault 0x0303 a
  | _ => s

/-- A fence: the unit stops, its work moves, STATE FENCED (R29, R443). -/
def State.fenceUnit (s : State) (a : Nat) : State :=
  (s.onUnit a fun u => { u with st := .fenced }).moveWork a

/-! ### Command port -/

/-- The operation of an OP code (Table 1.11). -/
def opOf : Nat → Option UOp
  | 1 => some .fence | 2 => some .unitReset | 3 => some .drain | 4 => some .resume
  | 5 => some .adopt | 6 => some .release | 7 => some .selftest | 8 => some .retire
  | _ => none

/-- The OP code of an operation (Table 1.11). -/
def UOp.code : UOp → Nat
  | .fence => 1 | .unitReset => 2 | .drain => 3 | .resume => 4 | .adopt => 5 | .release => 6 | .selftest => 7 | .retire => 8

/-- STATEs in which an operation is legal (Table 1.11). -/
def UOp.legalIn : UOp → UState → Bool
  | .fence, st => st == .up || st == .drowse || st == .draining
  | .unitReset, st => st == .fenced
  | .drain, st => st == .up
  | .resume, st => st == .draining
  | .adopt, st => st == .up
  | .release, st => st == .up
  | .selftest, st => st == .fenced || st == .draining
  | .retire, st => st == .fenced

/-- A FENCE or RETIRE that would leave no HE UP, no FE UP, or a quadrant with no ME UP (R19, R480). -/
def State.lastUp (s : State) (a : Nat) : Bool :=
  let i := uIdx a
  if uKind a ≠ 4 then false
  else if i < 0x10 then !((List.range 12).any fun n => n != i && s.unitState (uEng n) == .up)
  else if i < 0x20 then ((s.upMes ((i - 0x10) / 4)).filter (· ≠ i - 0x10)).isEmpty
  else if i < 0x30 then !((List.range 16).any fun n => eFE n != i && s.unitState (uEng (eFE n)) == .up)
  else false

/-- An ME's engine index. -/
def isMe (a : Nat) : Bool := uKind a == 4 && decide (0x10 ≤ uIdx a) && decide (uIdx a < 0x20)

/-- Another channel of the quadrant is RETIRED (R479). -/
def State.otherRetired (s : State) (c : Nat) : Bool :=
  (List.range 32).any fun k => 32 * (c / 32) + k != c && (s.unit (uChan (32 * (c / 32) + k))).st == .retired

/-- How an operation is judged when it is written (R19): the CODE with which it completes at once, or none when it
starts. Codes: 2 ILLEGAL, 3 WRONG_STATE. DESIGN CHOICE (assumption 101): of the two ILLEGAL is judged first, and an ADOPT
or RELEASE addressed to a unit that is no ME is ILLEGAL. -/
def State.judgeOp (s : State) (a : Nat) (op : UOp) (arg : Nat) : Option Nat :=
  let me := uIdx a - 0x10
  let g := arg - 0x2000
  match op with
  | .adopt =>
    if !isMe a || !(decide (0x2000 ≤ arg) && decide (arg < 0x2010)) || g / 4 ≠ me / 4 then some 2
    else if !op.legalIn (s.unitState a) then some 3
    else if s.serverMe g = me ∨ 4 ≤ (s.servedBy me).length then some 3 else none
  | .release =>
    if !isMe a || !(decide (0x2000 ≤ arg) && decide (arg < 0x2010)) || s.serverMe g ≠ me then some 2
    else if !op.legalIn (s.unitState a) then some 3
    else if s.unitState (uEng (eME g)) ≠ .up then some 3 else none
  | _ =>
    if uKind a = 0 ∨ uKind a = 1 ∨ uKind a = 8 ∨ uKind a = 9 then some 2
    else if arg ≠ 0 then some 2
    else if !op.legalIn (s.unitState a) then some 3
    else if op = .retire ∧ uKind a = 3 ∧ s.otherRetired (uIdx a) then some 3
    else if (op = .fence ∨ op = .retire) ∧ s.lastUp a then some 3
    else none

/-- The window block of a unit kind (Table 18.1): base of its register window. -/
def windowBase : Nat → Option Nat
  | 1 => some 0xA00000
  | 2 => some 0x900000
  | 3 => some 0x800000
  | 4 => some 0xB00000
  | 5 => some 0xE00000
  | 6 => some 0xC00000
  | 7 => some 0x700000
  | _ => none

/-- Is a field key a field of the window of a unit, or a per-accessor copy of an engine (R487)? -/
def ownField (a key : Nat) : Bool :=
  let lo := key / 32
  let reg := lo / 4096
  let u := lo % 4096
  match windowBase (uKind a) with
  | none => false
  | some b =>
    (decide (b ≤ reg) && decide (reg < b + 0x100000) && u == uIdx a &&
      !((regAt reg).map (·.per)).getD false && !(uKind a == 6 && decide (b + 0x400 ≤ reg))) ||
    (uKind a == 4 && u == uIdx a && ((regAt reg).map (·.per)).getD false)

/-- The start of UNIT_RESET: OWN_F0 to F2 and their counts clear and the unit's registers take their reset values
(R514); OWN_F3 and F3_CNT stay. -/
def State.unitResetRegs (s : State) (a : Nat) : State :=
  let s := s.onFields fun m => m.keep (fun k => !ownField a k)
  s.onUnit a fun u => { u with own0 := false, own1 := false, own2 := false, cnt0 := 0, cnt1 := 0, cnt2 := 0,
                               req := 2, auto := true, cur := 2, refused := false, refCnt := 0, pdown := none }

/-- Writes whose reserved sectors a slice's reset has taken wait for admission again, in FSN order (R29, R109). -/
def Cmd.unplace (c : Cmd) (n : Nat) : Cmd := if c.ph == .landing && c.slice == n then { c with ph := .admitWait, secs := [] } else c

/-- The state that a unit's own registers show takes its reset value as UNIT_RESET begins (R514, R487): a group's rings, a
channel's sequencer and the operations on its LUNs, an engine and its accessor copies, a cluster, a subchannel but for its
count of repaired rows (MRAM), a landing slice's sectors. -/
def State.unitResetParts (s : State) (a : Nat) : State :=
  let i := uIdx a
  match uKind a with
  | 2 => s.onMed fun m => { m with cqWait := m.cqWait.set [] i [], drWait := m.drWait.set [] i [] }
  | 3 => s.onMed fun m =>
    { m with chans := m.chans.set {} i {}, luns := m.luns.mapV fun k l => if k / 32 = i then { l with run := [], stream := none } else l }
  | 4 =>
    let s := s.onPrg fun p => { p with engs := p.engs.upd {} i fun g => { build := g.build, svn := g.svn } }
    let s := s.onHiLatch fun m => m.keep fun k => k / 2 ^ 32 != i
    s.onFlt fun f => { f with histLatch := f.histLatch.set none i none }
  | 5 => s.onSec fun x => { x with ccs := x.ccs.set {} i {} }
  | 6 => s.onDram fun d => { d with subs := d.subs.upd {} i fun x => { ppr := x.ppr } }
  | 7 =>
    let s := s.onHif fun h => { h with cmds := h.cmds.map (·.unplace i) }
    s.onLnd fun l => { l with secs := l.secs.keep (fun k => k / 4096 != i), last := l.last.set 0 i 0 }
  | _ => s

/-- The effect of an operation as it starts (Table 1.11). -/
def State.beginOp (s : State) (a : Nat) (op : UOp) (arg : Nat) : State :=
  match op with
  | .fence => (s.raiseFault 0x0201 a).fenceUnit a
  | .unitReset => ((s.unitResetRegs a).unitResetParts a).onUnit a fun u => { u with st := .resetting }
  | .drain => s.onUnit a fun u => { u with st := .draining }
  | .resume => s.onUnit a fun u => { u with st := .up }
  | .adopt => s.onUnit arg fun u => { u with adopter := if uIdx a - 0x10 = arg - 0x2000 then none else some (uIdx a - 0x10) }
  | .release => s.onUnit arg fun u => { u with adopter := none }
  | .selftest => s.onUnit a fun u => { u with st := .selftest }
  | .retire => (s.onUnit a fun u => { u with st := .retired }).onRetRec fun l => if a ∈ l then l else a :: l

/-- An operation written to the command port of a unit that is not BUSY (R19): judged, and completed at once or
started. `fsn` is the Unit Command that carries it, if one does. -/
def State.issueOp (s : State) (a : Nat) (op : UOp) (arg : Nat) (fsn : Option Nat := none) : State :=
  match s.judgeOp a op arg with
  | some c => s.onUnit a fun u => { u with lastOp := op.code, code := c }
  | none =>
    let before := (s.unit a).st
    (s.beginOp a op arg).onUnit a fun u =>
      { u with lastOp := op.code, code := 0, run := some (op, if before = .draining then 1 else 0), runFsn := fsn,
               runAt := s.time.frame }

/-- An accessor's access met an off unit, a non-unit or a broadcast read: ACC_FAULT, OFF_CNT and SYS_ACC_ADDR (R24). -/
def State.accFault (s : State) (acc : Acc) (addr : Nat) : State :=
  (s.raiseEvt F.SYS_ACC_STAT_ACC_FAULT F.SYS_ACC_CNT_OFF_CNT (accIdx acc)).setF F.SYS_ACC_ADDR_ADDR addr (accIdx acc)

/-- A command port write by an accessor (R19, R20): OP [31:24], ARG [15:0]. -/
def State.writeUnitCmd (s : State) (acc : Acc) (a op arg : Nat) : State :=
  if !isUnit a then s.accFault acc 0x118
  else if (s.unit a).run.isSome then s.raiseEvt F.SYS_ACC_STAT_CMD_REJ F.SYS_ACC_CNT_REJ_CNT (accIdx acc)
  else
    match opOf op with
    | some o => s.issueOp a o arg
    | none => s.onUnit a fun u => { u with lastOp := op % 256, code := 2 }

/-- The fault code of a unit that fails its self-test (R344): the front end, a service unit or a landing slice raises
F3. -/
def selfTestCode (a : Nat) : Nat := if uKind a = 7 ∨ uKind a = 8 ∨ uKind a = 9 then 0x0304 else 0x020C

/-- The end of a running operation (R19, R514): its CODE set, DONE 1. `pass` is the self-test's outcome. -/
def State.endOp (s : State) (a : Nat) (pass : Bool) : State :=
  match (s.unit a).run with
  | none => s
  | some (op, drained) =>
    let s := s.onUnit a fun u => { u with run := none, code := 0 }
    match op with
    | .unitReset =>
      if pass then s.onUnit a fun u => { u with st := .up }
      else (s.onUnit a fun u => { u with st := .fenced, code := 4 }).raiseFault (selfTestCode a) a
    | .selftest =>
      let s := s.onUnit a fun u => { u with st := if drained = 1 then .draining else .fenced }
      if pass then s else (s.onUnit a fun u => { u with code := 4 }).raiseFault (selfTestCode a) a
    | _ => s

/-- A DRAIN not finished within 64 frames: CODE DRAIN_TIMEOUT and STATE UP again (Table 1.11). -/
def State.drainTimeout (s : State) (a : Nat) : State :=
  match (s.unit a).run with
  | some (.drain, _) =>
    if (s.unit a).runAt + 64 ≤ s.time.frame then s.onUnit a fun u => { u with run := none, code := 1, st := .up } else s
  | _ => s

/-- A Unit Command whose operation is done completes with SYS_UNIT_CRES in DW0 and SYS_UNIT_STAT in DW1 (R476). -/
def State.finishUnitCmd (s : State) (a : Nat) : State :=
  match (s.unit a).runFsn with
  | some fsn =>
    if (s.unit a).run.isNone then
      (s.complete fsn stOk (s.unitCres a) [] (s.unitStat a)).onUnit a fun u => { u with runFsn := none }
    else s
  | none => s

/-! ### Meanings -/

/-- A command port operation row: a write of SYS_UNIT_CMD through the port of the unit an accessor selects; an address that
names no unit is answered as R16 states. -/
def unitOpRow (acc : Acc) (unit arg op : Nat) (s : State) : Out := .next (s.writeUnitCmd acc unit op arg)

/-- FENCE (R19, Table 1.11 OP 0x01). -/
def execFence (acc : Acc) (unit arg : Nat) (s : State) : Out := unitOpRow acc unit arg 1 s
/-- UNIT_RESET (R19, R514, OP 0x02). -/
def execUnitReset (acc : Acc) (unit arg : Nat) (s : State) : Out := unitOpRow acc unit arg 2 s
/-- DRAIN (R19, OP 0x03). -/
def execDrain (acc : Acc) (unit arg : Nat) (s : State) : Out := unitOpRow acc unit arg 3 s
/-- RESUME (R19, OP 0x04). -/
def execResume (acc : Acc) (unit arg : Nat) (s : State) : Out := unitOpRow acc unit arg 4 s
/-- ADOPT (R19, R31, OP 0x05). -/
def execAdopt (acc : Acc) (unit arg : Nat) (s : State) : Out := unitOpRow acc unit arg 5 s
/-- RELEASE (R19, OP 0x06). -/
def execRelease (acc : Acc) (unit arg : Nat) (s : State) : Out := unitOpRow acc unit arg 6 s
/-- SELFTEST (R19, OP 0x07). -/
def execSelftest (acc : Acc) (unit arg : Nat) (s : State) : Out := unitOpRow acc unit arg 7 s
/-- RETIRE (R19, OP 0x08). -/
def execRetire (acc : Acc) (unit arg : Nat) (s : State) : Out := unitOpRow acc unit arg 8 s

/-- A DRAIN times out (R19). -/
def execDrainTimeout (unit : Nat) (s : State) : Out :=
  .next ((s.drainTimeout unit).finishUnitCmd unit)

end Sys2Proof.Machine
end

