-- ==== Sys2Proof/Machine/Faults.lean ====
section
/-! DEFINITION. The fault collector and its classes, FAULT_N, the fault history, REG_CYCLE, device time marks and the
logbook's submissions (chapter 16; R441 to R458). -/
namespace Sys2Proof.Machine

/-! ### The classes (Table 16.2) -/

/-- SYS_UNIT_ERR: OWN_Fk set and Fk_CNT advanced (Table 16.2). -/
def UnitSt.own_ (u : UnitSt) (k : Nat) : UnitSt :=
  match k with
  | 0 => { u with own0 := true, cnt0 := inc16 u.cnt0 }
  | 1 => { u with own1 := true, cnt1 := inc16 u.cnt1 }
  | 2 => { u with own2 := true, cnt2 := inc16 u.cnt2 }
  | _ => { u with own3 := true, cnt3 := inc16 u.cnt3 }

/-- FLT_EVT.Fk and its count (Table 16.10). -/
def State.evtClass (s : State) (k : Nat) : State :=
  match k with
  | 0 => s.raiseEvt F.FLT_EVT_F0 F.FLT_EVT_CNT0_F0_CNT
  | 1 => s.raiseEvt F.FLT_EVT_F1 F.FLT_EVT_CNT0_F1_CNT
  | 2 => s.raiseEvt F.FLT_EVT_F2 F.FLT_EVT_CNT1_F2_CNT
  | _ => s.raiseEvt F.FLT_EVT_F3 F.FLT_EVT_CNT1_F3_CNT

/-- The history entry of an event (Table 16.3). -/
def State.histEnt (s : State) (e : FaultEv) : HistEnt :=
  { stamp := e.stamp, unit := e.unit, code := e.code, pcc := s.time.pcc, detail := e.detail, fsn := e.fsn }

/-- The 32 bytes of a history entry (Table 16.3). -/
def HistEnt.bytes (h : HistEnt) : List Byte :=
  leBytes 8 h.stamp ++ leBytes 2 h.unit ++ leBytes 2 h.code ++ leBytes 4 h.pcc ++ leBytes 8 h.detail ++ leBytes 8 h.fsn

/-- History queue: the event enters at 0 and pushes out entry 15 (R447). -/
def FltSt.enter (f : FltSt) (h : HistEnt) : FltSt :=
  { f with hist := (h :: f.hist).take 16, total := inc16 f.total }

/-- First-error capture: the first F2 or F3 event while VALID is 0 (R447). -/
def FltSt.capture (f : FltSt) (h : HistEnt) : FltSt :=
  match f.first with
  | some _ => f
  | none => { f with first := some h, captCnt := inc16 f.captCnt }

/-- Body of a FAULT record (Table 16.6). -/
def faultBody (e : FaultEv) : List Byte := leBytes 2 e.code ++ zeros 6 ++ leBytes 8 e.detail ++ leBytes 8 e.fsn

/-- FAULT record of an F0 event: class 1, at most F0_RATE per code and unit in each second, none with TRACE_EN 0; the
rest are counted for the REPEAT record (R454). -/
def State.logF0 (s : State) (e : FaultEv) : State :=
  let k := e.code * 65536 + e.unit
  if s.getF F.LOG_CFG_TRACE_EN = 1 ∧ s.log.f0w.get 0 k < s.log.rate then
    (s.logWrite 1 1 e.unit e.stamp 56 (faultBody e)).onLog fun l => { l with f0w := l.f0w.upd 0 k (· + 1) }
  else s.onLog fun l => { l with f0n := l.f0n.upd 0 k (· + 1) }

/-- A unit is FENCED, a subchannel is in erasure mode, or a quadrant has two positions lost (R444). -/
def State.degradedDevice (s : State) : Bool :=
  !s.fencedUnits.isEmpty || s.getF F.MEMP_STAT_ERASURE != 0 ||
  (List.range 4).any (fun q => s.flag F.QD_PAR_STAT_TWO q)

/-- SMART critical warning, NVM subsystem reliability bit (R444). -/
def State.setReliability (s : State) : State :=
  if s.degradedDevice then s.onHif fun h => { h with smart := putBit h.smart 2 true } else s

/-- The reliability bit clears when none of its conditions holds (R444). -/
def State.clearReliability (s : State) : State :=
  if s.degradedDevice then s else s.onHif fun h => { h with smart := putBit h.smart 2 false }

/-- Step 1 of the safe halt (Table 16.4): FLT_STAT.HALTED and VW_STAT.F3 set, fetch stops on every function. -/
def State.beginHalt (s : State) (code : Nat) : State :=
  if s.halted then s
  else (s.onFlt fun f => { f with halt := some { frame := s.time.frame, code := code, step := 1, drained := 0, lost := 0, alarm := code = 0x0301 } }).onHif
    fun h => { h with fetchStop := true }

/-- All the outcomes of Table 16.2 for one event, as the collector takes it (R444). -/
def State.takeFault (s : State) (e : FaultEv) : State :=
  let k := faultClass e.code
  let s := s.onUnit e.unit (·.own_ k)
  let s := s.evtClass k
  if k = 0 then s.logF0 e
  else
    let h := s.histEnt e
    let s := s.onFlt (·.enter h)
    let s := if 2 ≤ k then s.onFlt (·.capture h) else s
    let s := s.logWrite 0 1 e.unit e.stamp 56 (faultBody e)
    let s := s.setReliability
    let s := if 2 ≤ k then s.aenAll { typ := 7, info := 2, lid := 0xC2 } else s
    if k = 3 then s.beginHalt e.code else s

/-- Publish one submitted record (R455); class 1 records other than REPEAT are not written with TRACE_EN 0. -/
def State.publishSub (s : State) (b : LogSub) : State :=
  if b.cls = 1 ∧ b.typ ≠ 8 ∧ s.getF F.LOG_CFG_TRACE_EN = 0 then s
  else s.logWrite b.cls b.typ b.unit b.stamp (b.body.length + 28) b.body

/-- The collector publishes the submissions waiting; BUSY clears (R455). -/
def State.publishSubs (s : State) : State :=
  (s.log.subs.foldl (fun s b => s.publishSub b) s).onLog fun l => { l with subs := [] }

/-- The first queued event whose stamped frame has come (R39, R444). -/
def State.nextFault (s : State) : Option FaultEv := s.flt.queue.find? (fun e => decide (e.stamp / 65536 ≤ s.time.frame))

/-- FAULT_COLLECT (R444): the collector takes the oldest event whose frame has come, and publishes the records
submitted to it. -/
def State.collect (s : State) : State :=
  let s := s.clearReliability
  match s.nextFault with
  | some e => ((s.onFlt fun f => { f with queue := f.queue.erase e }).takeFault e).publishSubs
  | none => s.publishSubs

def execFaultCollect (s : State) : Out := .next s.collect

/-! ### FAULT_N -/

/-- FAULT_N asserted (FLT_PIN.LEVEL): held by an F3 event, by a pulse, or by HOLD when no pulse runs (R445, R446); released while the
core is in reset (R504). -/
def State.faultPin (s : State) : Bool := s.lvl.core && (s.flt.f3pin || s.flt.pulse || s.flag F.FLT_PIN_HOLD)

/-- The core is held in reset, and FAULT_N is released (R504). -/
def State.coreDown (s : State) : State :=
  let pin := s.faultPin
  let s := s.onLvl fun l => { l with core := false }
  if pin then s.send (.pin 0 false) else s

/-- FAULT_PULSE_END (R445): the pulse ends and the pin follows HOLD. -/
def State.endPulse (s : State) : State :=
  if s.flt.pulse then
    let s := s.onFlt fun f => { f with pulse := false, pulseW := 0 }
    s.send (.pin 0 s.faultPin)
  else s

def execFaultPulseEnd (s : State) : Out := .next s.endPulse

/-! ### Junction temperature -/

/-- The unit a die sensor belongs to (R442): sensors 0 to 3 lie in the quadrants, sensor 4 in the front end. -/
def sensorUnit (k : Nat) : Nat := if k < 4 then uQuad k else uFront

/-- One frame's reading of a die sensor counted against both limits (R442). -/
def State.countTj (s : State) (k : Nat) (t : Int) : State :=
  s.onFlt fun f =>
    { f with tjF2 := f.tjF2.set 0 k (if t > (s.getF F.FLT_THERM_TJ_F2 : Int) then f.tjF2.get 0 k + 1 else 0)
             tjF3 := f.tjF3.set 0 k (if t > (s.getF F.FLT_THERM_TJ_F3 : Int) then f.tjF3.get 0 k + 1 else 0) }

/-- JUNCTION_OVER_TEMPERATURE (R442): 125 frames above TJ_F2 raise 0x0210 and set the thermal cap to MIN; 1,250 frames
above TJ_F3 raise 0x0306. -/
def State.junction (s : State) (k : Nat) : State :=
  let s := if 125 ≤ s.flt.tjF2.get 0 k then
      ((s.raiseFault 0x0210 (sensorUnit k)).onGov fun g => { g with therm := s.getF F.PWR_GOV_THERM1_MIN, thermJ := true }).onFlt fun f =>
        { f with tjF2 := f.tjF2.set 0 k 0 }
    else s
  if 1250 ≤ s.flt.tjF3.get 0 k then
    (s.raiseFault 0x0306 (sensorUnit k)).onFlt fun f => { f with tjF3 := f.tjF3.set 0 k 0 }
  else s

def execJunctionOverTemperature (sensor : Nat) (s : State) : Out := .next (s.junction sensor)

/-! ### REG_CYCLE (R450) -/

/-- REG_CYCLE_ASSERT: armed, halted, wired, and PERST0# low (for 100 ms, as the command says). -/
def State.regCycle (s : State) : State :=
  if s.flt.armed ∧ s.halted ∧ s.getF F.FLT_REGC_WIRED = 1 ∧ s.hif.p0.perst then
    (s.onFlt fun f => { f with regc := true, regcFell := false }).send (.pin 1 true)
  else s

def execRegCycleAssert (s : State) : Out := .next s.regCycle

/-- REG_CYCLE_RELEASE: after WIDTH ms the pin is released; where VDD_CORE stayed in range the arm is cleared and the
device stays halted. -/
def State.regRelease (s : State) : State :=
  if s.flt.regc then
    (s.onFlt fun f => { f with regc := false, armed := if f.regcFell then f.armed else false }).send (.pin 1 false)
  else s

def execRegCycleRelease (s : State) : Out := .next s.regRelease

/-- COLD_RESET_ARM_EXPIRY: an armed confirm lapses after 10 s. -/
def State.armExpiry (s : State) : State := if s.flt.regc then s else s.onFlt fun f => { f with armed := false }

def execColdResetArmExpiry (s : State) : Out := .next s.armExpiry

/-! ### Device time -/

/-- DEVICE_TIME_MARK (R451): operating milliseconds reach the last mark; a new mark is written 1,000 ms ahead. -/
def State.timeMark (s : State) : State :=
  s.onTime fun t => { t with ms := t.mark, mark := t.mark + 1000 }

def execDeviceTimeMark (s : State) : Out := .next s.timeMark

/-- Operating milliseconds counted by the always-on oscillator; the count does not pass its mark before the mark is
rewritten (R451). -/
def TimeSt.countMs (t : TimeSt) (d : Nat) : TimeSt := { t with ms := min (t.ms + d) t.mark }

/-! ### Logbook submissions -/

/-- Key of a word of an accessor's LOG_WBUF in the register fields. -/
def wbufFld (i : Nat) : Fld := ⟨0x400100 + 4 * i, 31, 0, .rw, .silicon, 0, none⟩

/-- The bytes of an accessor's LOG_WBUF. -/
def State.wbuf (s : State) (acc n : Nat) : List Byte :=
  ((List.range 57).flatMap (fun i => leBytes 4 (s.getF (wbufFld i) acc))).take n

/-- A record's unit: the engine, or the front end for the management path (R455). -/
def accUnit : Acc → Nat
  | .eng i => uEng i
  | .mgmt => uFront

/-- A write of LOG_WCTL (R455): without GO nothing; a reserved or forbidden TYPE, LEN8 outside 4 to 32, or BUSY drops
the submission and raises WDROP. -/
def State.logSubmit (s : State) (acc : Acc) (v : Nat) : State :=
  let typ := bits v 14 8
  let len8 := bits v 7 0
  if bits v 16 16 = 0 then s
  else if typ < 2 ∨ 9 < typ ∨ len8 < 4 ∨ 32 < len8 ∨ s.log.subs.any (fun b => b.acc == accIdx acc) then
    s.raiseEvt F.LOG_EVT_WDROP F.LOG_EVT_CNT0_DROP_CNT
  else
    let u := accUnit acc
    let b : LogSub := { acc := accIdx acc, cls := bits v 15 15, typ := typ, unit := u, stamp := s.stampNow u,
                        body := s.wbuf (accIdx acc) (8 * len8 - 28) }
    (s.takeStamp u).onLog fun l => { l with subs := l.subs ++ [b] }

def execLogRecordSubmit (acc : Acc) (val : W32) (s : State) : Out := .next (s.logSubmit acc val.toNat)

/-- One REPEAT record (Table 16.6): CODE, and the events of the second that were not recorded. -/
def State.logRepeat (s : State) (key n : Nat) : State :=
  s.logRec 1 8 (key % 65536) 40 (leBytes 2 (key / 65536) ++ zeros 2 ++ leBytes 4 n)

/-- REPEAT_RECORD (R454): at the end of a second, one REPEAT record per code and unit with events beyond the limit;
counting begins again at the F0_RATE then written (R461). -/
def State.endSecond (s : State) : State :=
  (s.log.f0n.items.foldl (fun s e => s.logRepeat e.1 e.2) s).onLog fun l =>
    { l with f0w := {}, f0n := {}, rate := s.getF F.LOG_CFG_F0_RATE }

def execRepeatRecord (s : State) : Out := .next s.endSecond

/-- LOG_RD_DATA (Table 16.11): four ring bytes at the accessor's LOG_RD_OFF, which advances by 4, wrapping at 8 MiB. -/
def State.logRdData (s : State) (acc : Nat) : Nat × State :=
  let off := s.getF F.LOG_RD_OFF_OFF acc
  (ofLe ((List.range 4).map fun i => s.logByte (off + i)), s.setF F.LOG_RD_OFF_OFF ((off + 4) % logRing) acc)

def execLogRdDataRead (acc : Acc) (s : State) : Out :=
  let r := s.logRdData (accIdx acc)
  .next (r.2.send (.reg (accIdx acc) 0x400028 r.1))

end Sys2Proof.Machine
end

