-- ==== Sys2Proof/Machine/Sched.lean ====
section
/-! DEFINITION. The scheduler: class shares, the tenant ledger, arbitration, urgency, and the budget of engine cycles
(chapter 2; R46 to R71). -/
namespace Sys2Proof.Machine

/-! ### Class shares -/

/-- The staged share set (Table 2.12). -/
def State.staged (s : State) : Shares :=
  { host := s.getF F.FRM_CLS_SHARE0_HOST, gc := s.getF F.FRM_CLS_SHARE0_GC, scrub := s.getF F.FRM_CLS_SHARE0_SCRUB,
    scan := s.getF F.FRM_CLS_SHARE0_SCAN, journal := s.getF F.FRM_CLS_SHARE1_JOURNAL, emerg := s.getF F.FRM_CLS_SHARE1_GC_EMERG }

/-- A share set that APPLY accepts (R51). -/
def Shares.ok (x : Shares) : Bool :=
  x.host + x.gc + x.scrub + x.scan + x.journal == 256 && decide (8 ≤ x.journal) && decide (x.emerg ≤ x.host + x.gc)

/-- A configuration write or share set was refused (FRM_EVT.CFG_ERR). -/
def State.cfgErr (s : State) : State := s.raiseEvt F.FRM_EVT_CFG_ERR F.FRM_EVT_CNT0_CFG_ERR_CNT

/-- APPLY (R51): an accepted set is pending and replaces an earlier pending one; a refused set changes neither. -/
def State.applyShares (s : State) : State :=
  if s.staged.ok then s.onSched fun c => { c with pendShares := some s.staged } else s.cfgErr

def execApply (s : State) : Out := .next s.applyShares

/-- The share of a class in force: 0 host I/O, 1 GC, 2 scrub, 3 scan, 4 journal; with the GC emergency shares (R52). -/
def SchedSt.share (c : SchedSt) (k : Nat) : Nat :=
  match k with
  | 0 => if c.emerg then c.shares.host + c.shares.gc - c.shares.emerg else c.shares.host
  | 1 => if c.emerg then c.shares.emerg else c.shares.gc
  | 2 => c.shares.scrub
  | 3 => c.shares.scan
  | _ => c.shares.journal

/-- Virtual times compare by their signed difference modulo 2^64 (R56). -/
def vtLt (a b : Nat) : Bool := decide (2 ^ 63 ≤ (a + (2 ^ 64 - b % 2 ^ 64)) % 2 ^ 64)

/-- The later of two virtual times. -/
def vtMax (a b : Nat) : Nat := if vtLt a b then b else a

/-- An arbiter's pick of a class among those with a ready request: classes of non-zero share before classes of share 0,
then the lowest class virtual time, then the order host I/O, GC, scrub, scan, journal (R49, R50). -/
def SchedSt.pickClass (c : SchedSt) (arb : Nat) (ready : List Nat) : Option Nat :=
  let pos := ready.filter (fun k => c.share k != 0)
  let cand := if pos.isEmpty then ready else pos
  cand.foldl (fun best k => match best with
    | none => some k
    | some b => if vtLt (c.classVt.get 0 (arb * 8 + k)) (c.classVt.get 0 (arb * 8 + b)) then some k else some b) none

/-- The charge of a class: work x 256 / share, rounded up, as if the share were 1 where it is 0 (R49, R50). -/
def SchedSt.chargeClass (c : SchedSt) (arb k work : Nat) : SchedSt :=
  { c with classVt := c.classVt.upd 0 (arb * 8 + k) fun v => (v + cdiv (work * 256) (max 1 (c.share k))) % 2 ^ 64 }

/-- A class whose request becomes ready again brings back no credit: its virtual time rises to the lowest among the
other ready classes of its kind (R50). -/
def SchedSt.returnClass (c : SchedSt) (arb k : Nat) (ready : List Nat) : SchedSt :=
  let same := ready.filter (fun j => j != k && ((c.share j == 0) == (c.share k == 0)))
  match same with
  | [] => c
  | j :: t =>
    let lo := t.foldl (fun m x => if vtLt (c.classVt.get 0 (arb * 8 + x)) m then c.classVt.get 0 (arb * 8 + x) else m) (c.classVt.get 0 (arb * 8 + j))
    { c with classVt := c.classVt.upd 0 (arb * 8 + k) fun v => vtMax v lo }

/-! ### The tenant ledger -/

/-- The stored virtual time of a ledger entry for a resource kind. -/
def Ledger.vt (l : Ledger) : Nat → Nat
  | 0 => l.vt0 | 1 => l.vt1 | 2 => l.vt2 | _ => l.vt3

/-- Store a virtual time. -/
def Ledger.setVt (l : Ledger) (r v : Nat) : Ledger :=
  match r with
  | 0 => { l with vt0 := v } | 1 => { l with vt1 := v } | 2 => { l with vt2 := v } | _ => { l with vt3 := v }

/-- A tenant's VT for a kind as of the latest step 2: a tenant not backlogged stands at VMIN at least (R55). -/
def SchedSt.vt (c : SchedSt) (tid r : Nat) : Nat :=
  let l := c.ledger.get {} tid
  if l.backlog.testBit r then l.vt r else vtMax (l.vt r) (c.vmin.get 0 r)

/-- The VT an arbiter compares: as of the latest step 2 plus the charges it has itself made since (R54). -/
def SchedSt.vtNow (c : SchedSt) (arb tid r : Nat) : Nat := (c.vt tid r + c.charges.get 0 ((arb * 4096 + tid) * 4 + r)) % 2 ^ 64

/-- All charges to a tenant and kind since the latest step 2, whichever arbiter made them (R54). -/
def SchedSt.chargesOf (c : SchedSt) (key : Nat) : Nat :=
  (c.charges.items.filter fun e => e.1 % 16384 == key).foldl (fun n e => n + e.2) 0

/-- Step 2 for one tenant and kind: charges of all arbiters folded in, backlog marked (R54, R55). -/
def SchedSt.foldOne (c : SchedSt) (key : Nat) : SchedSt :=
  let tid := key / 4
  let r := key % 4
  let v := (c.vt tid r + c.chargesOf key) % 2 ^ 64
  { c with ledger := c.ledger.upd {} tid fun l => { l.setVt r v with backlog := putBit l.backlog r (c.ready.get 0 key == 1) } }

/-- The tenants and kinds that step 2 touches: charged, ready, or backlogged before. -/
def SchedSt.foldKeys (c : SchedSt) : List Nat :=
  let old := c.ledger.items.flatMap fun (e : Nat × Ledger) => (List.range 4).filterMap fun r =>
    if e.2.backlog.testBit r then some (e.1 * 4 + r) else none
  (c.charges.keys.map (· % 16384) ++ c.ready.keys ++ old).eraseDups

/-- VMIN of a kind: the lowest VT among backlogged tenants, else its previous value (R55). -/
def SchedSt.newVmin (c : SchedSt) (r : Nat) : Nat :=
  let bl := (c.ledger.items.filter (fun e => e.2.backlog.testBit r)).map (fun e => e.2.vt r)
  match bl with
  | [] => c.vmin.get 0 r
  | v :: t => t.foldl (fun m x => if vtLt x m then x else m) v

/-- LEDGER_FOLD, step 2 (R54, R55). -/
def SchedSt.foldLedger (c : SchedSt) : SchedSt :=
  let c := c.foldKeys.foldl SchedSt.foldOne c
  let c := { c with charges := {}, ready := {} }
  { c with vmin := (List.range 4).foldl (fun m r => m.set 0 r (c.newVmin r)) c.vmin }

/-- A tenant's weight as the window shows it: the last value written (R57). -/
def SchedSt.weightShown (c : SchedSt) (tid : Nat) : Nat :=
  match c.pendW.get none tid with | some (w, _) => w | none => (c.ledger.get {} tid).weight

/-- WEIGHT_WRITE (R57): 0 is dropped with CFG_ERR; another value takes effect at step 4 of the next frame. -/
def State.weightWrite (s : State) (acc w : Nat) : State :=
  if w = 0 then s.cfgErr
  else s.onSched fun c => { c with pendW := c.pendW.set none (s.getF F.FRM_LED_IDX_TID acc) (some (w, 1)) }

def execWeightWrite (acc : Acc) (val : W32) (s : State) : Out := .next (s.weightWrite (accIdx acc) (val.toNat % 65536))

/-- Step 4: weights written in the frame before take effect (R57). -/
def SchedSt.weightsEffect (c : SchedSt) : SchedSt :=
  c.pendW.items.foldl (fun c e => match e.2 with
    | some (w, _) => { c with ledger := c.ledger.upd {} e.1 fun l => { l with weight := w } }
    | none => c) { c with pendW := {} }

/-- Step 4: a pending share set takes effect, and the emergency shares follow what step 2 found (R51, R52). -/
def SchedSt.sharesEffect (c : SchedSt) : SchedSt :=
  { c with shares := c.pendShares.getD c.shares, pendShares := none, emerg := c.emergSeen }

/-! ### Urgency -/

/-- Ages at which a read of a latency class reaches urgency 1, 2 and 3 (Table 2.8). -/
def urgSteps : Nat → Option (Nat × Nat × Nat)
  | 0 => some (50, 75, 100) | 1 => some (125, 188, 250) | 2 => some (625, 938, 1250) | _ => none

/-- The urgency of an age (R59). -/
def urgOf (cls age : Nat) : Nat :=
  match urgSteps cls with
  | some (a, b, c) => if c ≤ age then 3 else if b ≤ age then 2 else if a ≤ age then 1 else 0
  | none => 0

/-- The latency class of a command's namespace, as it is bound now: a Namespace Binding that changes while the read is
outstanding is followed from then on (R59; DESIGN CHOICE, assumption 102: the rule does not say). -/
def State.classOf (s : State) (c : Cmd) : Nat := (((s.ns c.sqe.nsid).bind (·.bind)).map (·.2)).getD 3

/-- URGENCY_RAISE at a tick (R59, R61): urgency never falls; reaching 3 raises URG3. -/
def State.raiseUrgency (s : State) : State :=
  s.hif.cmds.foldl (fun s c =>
    if c.sq ≠ 0 ∧ isReadOp c.sqe.opc then
      let u := max c.urg (urgOf (s.classOf c) (s.time.frame - c.frame))
      let s := if u = 3 ∧ c.urg < 3 then s.raiseEvt F.FRM_EVT_URG3 F.FRM_EVT_CNT1_URG3_CNT else s
      s.onCmd c.fsn fun x => { x with urg := u }
    else s) s

/-- Eligibility of a tenant at an arbiter (R60): its VT is at most VMIN + M x 65,536 / weight, M the arbiter's maximal
operation. -/
def SchedSt.eligible (c : SchedSt) (arb tid r m : Nat) : Bool :=
  !vtLt ((c.vmin.get 0 r + m * 65536 / (c.ledger.get {} tid).weight) % 2 ^ 64) (c.vtNow arb tid r)

/-! ### Arbiters (R47, R49, R54, R60, Table 2.4) -/

/-- The arbiters: host DMA and queue fetch of a port, the cipher of a cluster, landing-slice admission of a group, the steps of
an engine, a channel, the DRAM controller's port of the FEs. Each orders by the resource kind of Table 2.4. -/
def arbDma (p : Nat) : Nat := p
def arbFetch (p : Nat) : Nat := 2 + p
def arbCc (q : Nat) : Nat := 4 + q
def arbGroup (n : Nat) : Nat := 8 + n
def arbDram : Nat := 24
def arbEng (e : Nat) : Nat := 32 + e
def arbChan (ch : Nat) : Nat := 128 + ch

/-- Classes with a request in a list. -/
def classesOf (l : List Rq) : List Nat := (List.range 5).filter fun k => l.any fun x => x.cls == k

/-- The least of a list by a strict order, the first on a tie. -/
def leastBy (lt : Rq → Rq → Bool) (l : List Rq) : Option Rq :=
  l.foldl (fun best x => match best with | none => some x | some b => if lt x b then some x else some b) none

/-- Within host I/O and scan: the lowest VT, the lower FSN on a tie (R54); a read of urgency 1 or more of that tenant goes ahead
of the tenant's other requests (R60). -/
def SchedSt.pickTenant (c : SchedSt) (arb r : Nat) (l : List Rq) : Option Rq :=
  let less := fun (x y : Rq) =>
    vtLt (c.vtNow arb x.tid r) (c.vtNow arb y.tid r) || (c.vtNow arb x.tid r == c.vtNow arb y.tid r && decide (x.fsn < y.fsn))
  match leastBy less l with
  | none => none
  | some w =>
    match leastBy (fun x y => decide (x.fsn < y.fsn)) (l.filter fun x => x.tid == w.tid && decide (1 ≤ x.urg)) with
    | some u => some u
    | none => some w

/-- What an arbiter picks among the ready requests: an eligible read of urgency 3, then 2, the lower FSN first (R60); else of
the class it picks (R49, R50) by the ledger, or by the lowest order stamp. `r` is its resource kind and `m` its maximal
operation (Table 2.4). -/
def SchedSt.pick (c : SchedSt) (arb r m : Nat) (l : List Rq) : Option Rq :=
  let more := fun (x y : Rq) => decide (y.urg < x.urg) || (x.urg == y.urg && decide (x.fsn < y.fsn))
  match leastBy more (l.filter fun x => x.cls == 0 && decide (2 ≤ x.urg) && c.eligible arb x.tid r m) with
  | some u => some u
  | none =>
    match c.pickClass arb (classesOf l) with
    | none => none
    | some k =>
      let lk := l.filter fun x => x.cls == k
      if k = 0 ∨ k = 3 then c.pickTenant arb r lk else leastBy (fun x y => decide (x.stamp < y.stamp)) lk

/-- Classes that have become ready at an arbiter since it last looked bring back no credit (R50). -/
def SchedSt.arrive (c : SchedSt) (arb : Nat) (ready : List Nat) : SchedSt :=
  let old := c.classOn.get 0 arb
  let c := (ready.filter fun k => !old.testBit k).foldl (fun c k => c.returnClass arb k ready) c
  { c with classOn := c.classOn.set 0 arb (ready.foldl (fun m k => putBit m k true) 0) }

/-- The requests ready at an arbiter, looked at (R50). -/
def State.lookAt (s : State) (arb : Nat) (l : List Rq) : State := s.onSched fun c => c.arrive arb (classesOf l)

/-- An operation admitted at an arbiter: its class, and in host I/O and scan its tenant, who had a ready request, are charged
its whole work (R46, R49, R54, R55). -/
def State.chargeAt (s : State) (arb r cls tid work : Nat) : State :=
  let s := if cls = 0 ∨ cls = 3 then (s.charge arb tid r work).markReady tid r else s
  s.onSched fun c => c.chargeClass arb cls work

/-- The tenant a command is charged to: its namespace's, else the controller's default tenant (R80). -/
def State.tenantOf (s : State) (c : Cmd) : Nat :=
  match (s.ns c.sqe.nsid).bind (·.bind) with
  | some (t, _) => t
  | none => s.hif.defTid.get 0 c.fn

/-! ### Host DMA grants -/

/-- The port that carries a function (R78): in the x16 configuration P0. -/
def State.portOf (s : State) (fn : Nat) : Nat :=
  if !s.hif.bifur then 0 else if fn = 0 then 0 else if fn = 1 then 1 else if fn - 1 ≤ Config.pf0Vfs then 0 else 1

/-- A port. -/
def State.port (s : State) (p : Nat) : PortSt := if p = 0 then s.hif.p0 else s.hif.p1

/-- A command with sectors still to cross the host link: a write that lands, a read whose data goes out, a scan whose result
does. A Copy moves no data over the link. -/
def Cmd.moves (c : Cmd) : Bool :=
  decide (0 < c.left) && ((c.ph == .landing && c.sqe.opc != 0x19) || c.ph == .reading || (c.ph == .running && c.sqe.opc == 0x83))

/-- The requests at a port's host DMA arbiter. -/
def State.dmaReqs (s : State) (p : Nat) : List Rq :=
  (s.hif.cmds.filter fun c => c.moves && s.portOf c.fn == p).map fun c =>
    { cls := if c.sqe.opc = 0x83 then 3 else 0, tid := s.tenantOf c, fsn := c.fsn, urg := c.urg, id := c.fsn }

/-- Sectors of one 64 KiB segment. -/
def dmaSeg : Nat := 16

/-- Grant DMA segments on a port until its credit for the frame is used (R41, R47, R75): each segment, at most 64 KiB, is
charged to its class and tenant. -/
def State.grantDma (s : State) (p : Nat) : Nat → State
  | 0 => s
  | fuel + 1 =>
    let l := s.dmaReqs p
    let s := s.lookAt (arbDma p) l
    match (s.sched.pick (arbDma p) 1 1024 l).bind (fun x => (s.cmd x.id).map fun c => (x, c)) with
    | none => s
    | some (x, c) =>
      let n := min dmaSeg c.left
      let left := s.sched.dmaLeft.get 0 p
      if left < n * 4096 then s
      else
        let s := (s.chargeAt (arbDma p) 1 x.cls x.tid (n * 64)).onSched fun y => { y with dmaLeft := y.dmaLeft.set 0 p (left - n * 4096) }
        (s.onCmd c.fsn fun y => { y with left := y.left - n }).grantDma p fuel

/-- Grants published at step 4 for the next frame (R42, Table 2.1): none of DMA or of engine cycles in a drain or the halt. -/
def State.publishGrants (s : State) : State :=
  let off := s.sched.drain || s.halted
  s.onSched fun c => { c with grants := some { dma0 := if off then 0 else s.hif.p0.credit * 64, dma1 := if off then 0 else s.hif.p1.credit * 64,
                                               eng := if off then 0 else 16000 - s.getF F.FRM_ENG_RSV_RSV_CYC } }

/-- The tick puts the grants published for its frame in force (R41, R42); in a drain or the halt those of DMA and engine cycles
are discarded (R45, R448). -/
def State.takeGrants (s : State) : State :=
  let off := s.sched.drain || s.halted
  let g := if off then { dma0 := 0, dma1 := 0, eng := 0 } else s.sched.grants.getD { dma0 := 0, dma1 := 0 }
  s.onSched fun c => { c with dmaLeft := (c.dmaLeft.set 0 0 g.dma0).set 0 1 g.dma1, ccGrant := g.cc, cycGrant := g.eng, grants := none,
                              ccUsed := {} }

/-- Submission queues of a port's enabled controllers with entries to fetch, function and queue (R80, R81); an HE that is UP
serves each (R29). -/
def State.fetchable (s : State) (p : Nat) : List (Nat × Nat) :=
  s.queues.filter fun q => (s.ctrl q.1).en && s.portOf q.1 == p && s.unitState (uEng (eHE (s.heOf q.1 q.2))) == .up &&
    (match (s.ctrl q.1).sqs.get none q.2 with | some k => !k.deleting && k.head != k.tail | none => false)

/-- Every tenant with a ready request, by resource kind (R55): LUN time for list entries and reads, host DMA for fetches and
transfers, cipher for jobs, engine cycles for scans. -/
def State.readyTenants (s : State) : List (Nat × Nat) :=
  ((s.fetchable 0 ++ s.fetchable 1).map fun q => (s.hif.defTid.get 0 q.1, 1)) ++
  ((s.dmaReqs 0 ++ s.dmaReqs 1).map fun x => (x.tid, 1)) ++
  ((s.hif.cmds.filter fun c => c.ph == .admitWait).map fun c => (s.tenantOf c, 1)) ++
  (s.med.chans.vals.flatMap fun c => (c.list.filter fun e => e.cls == 0 || e.cls == 3).map fun e => (e.tid, 0)) ++
  (s.sec.ccs.vals.flatMap fun c => (c.queue.filter fun j => j.cls == 0 || j.cls == 3).map fun j => (j.tid, 2)) ++
  (s.prg.scans.filter (·.resident)).map fun c => (c.prog.tid, 3)

/-- Mark them (R55). -/
def State.markAllReady (s : State) : State := s.readyTenants.foldl (fun s x => s.markReady x.1 x.2) s

/-! ### Engine cycles -/

/-- Cycles of an engine's frame left for ring O and T steps: those granted less those used (R41, R68). -/
def State.cycLeft (s : State) (e : Nat) : Nat := s.sched.cycGrant - s.sched.cycUsed.get 0 e

end Sys2Proof.Machine
end

