-- ==== Sys2Proof/Machine/Words.lean ====
section
/-! DEFINITION. Map entries and lookups, the row and column code of every SRAM and DRAM word, where each word stands and what it holds,
poison, repeated corrections, and the map walker (chapters 6 and 11; R163 to R165, R171, R172, R324 to R337). -/
namespace Sys2Proof.Machine

/-! ### Logical space and map entries -/

/-- Blocks of a granule, a coarse unit (R163). -/
def granBlocks : Nat := 262144

/-- The global coarse index of a block (R163). -/
def Ns.coarse (n : Ns) (lba : Nat) : Nat := n.granules.getD (lba / granBlocks) 0 * 16384 + lba / 16 % 16384

/-- The global key of a block (R163). -/
def Ns.key (n : Ns) (lba : Nat) : Nat := n.coarse lba * 16 + lba % 16

/-- The 40-bit encoding of a map entry (R164, Table 6.1). -/
def Ent.encode : Ent → Nat
  | .media ch lun page cw => ch * 2 ^ 31 + lun * 2 ^ 26 + page * 4 + cw
  | .landing sl sec => 2 ^ 38 + sl * 4096 + sec
  | .fine r => 2 * 2 ^ 38 + r
  | .unmapped => 3 * 2 ^ 38
  | .zero => 3 * 2 ^ 38 + 1
  | .poison => 3 * 2 ^ 38 + 2

/-- The entry a 40-bit word encodes, none for a reserved word (Table 6.1). -/
def Ent.decode (v : Nat) : Option Ent :=
  match bits v 39 38 with
  | 0 => some (.media (bits v 37 31) (bits v 30 26) (bits v 25 2) (bits v 1 0))
  | 1 => if bits v 37 16 = 0 ∧ bits v 11 0 < 3072 then some (.landing (bits v 15 12) (bits v 11 0)) else none
  | 2 => if bits v 37 29 = 0 then some (.fine (bits v 28 0)) else none
  | _ => match bits v 37 0 with
    | 0 => some .unmapped | 1 => some .zero | 2 => some .poison | _ => none

/-- The entry of sector k of a coarse unit whose coarse entry is `e` (R164). -/
def Ent.sector (e : Ent) (k : Nat) : Ent :=
  match e with
  | .media ch lun page _ => .media ch lun (page + k / 4) (k % 4)
  | .landing sl sec => .landing sl (sec + k)
  | e => e

/-- The coarse entry of a unit. -/
def State.coarse (s : State) (u : Nat) : Ent := s.map.coarse.get .unmapped u

/-- The fine record of an index. -/
def State.fineRec (s : State) (r : Nat) : Option Fine := s.map.fine.get none r

/-- LOOKUP (R171): granule and coarse entry, and the fine record where the coarse entry is of kind fine. -/
def State.lookup (s : State) (key : Nat) : Ent :=
  match s.coarse (key / 16) with
  | .fine r => match s.fineRec r with
    | some f => f.ents.getD (key % 16) .unmapped
    | none => .unmapped
  | e => e.sector (key % 16)

/-- The DRAM lines a lookup reads (R165, R171, R172): line 2n for the coarse region's line n, both where the 5-byte entry
straddles two, and line 4r + 1 or 4r + 3 for the halves of fine record r. -/
def State.walkLines (s : State) (key : Nat) : List Nat :=
  let u := key / 16
  let k := 5 * (key % 16)
  [2 * (5 * u / 64), 2 * ((5 * u + 4) / 64)] ++
  (match s.coarse u with | .fine r => [2 * (2 * r + k / 64) + 1, 2 * (2 * r + (k + 4) / 64) + 1] | _ => [])

/-- A line used in the map cache becomes the most recent; one filled into a full set of 16 ways takes the place of its
least recent (R172). -/
def useLine (sets : Nat) (cache : List Nat) (l : Nat) : List Nat :=
  if cache.contains l then l :: cache.erase l
  else if cache.length < 16 then l :: cache
  else
    let set := cache.filter (fun x => Config.mapSet x % max sets 1 == Config.mapSet l % max sets 1)
    if set.length < 16 then l :: cache else l :: cache.erase (set.getLastD l)

/-! ### The code (R324, R325) -/

/-- Set bits of the low n bits of a number. -/
def popN : Nat → Nat → Nat
  | 0, _ => 0
  | n + 1, v => v % 2 + popN n (v / 2)

/-- Byte r of a word. -/
def byteOf (d r : Nat) : Nat := d / 2 ^ (8 * r) % 256

/-- Row parities RP: bit r is the parity of byte r. -/
def rowPar (d : Nat) : Nat := (List.range 8).foldl (fun a r => a + popN 8 (byteOf d r) % 2 * 2 ^ r) 0

/-- Column parities CP: the XOR of the eight bytes. -/
def colPar (d : Nat) : Nat := (List.range 8).foldl (fun a r => a ^^^ byteOf d r) 0

/-- The 16 check bits of a word. -/
def checkBits (d : Nat) : Nat := colPar d * 256 + rowPar d

/-- The protected word of a data word. -/
def protect (d : Nat) : Nat := d % 2 ^ 64 + checkBits (d % 2 ^ 64) * 2 ^ 64

/-- A poisoned word: its data, and the inverse of the check bits over it (R329). -/
def poisonWord (d : Nat) : Nat := d % 2 ^ 64 + (0xFFFF - checkBits (d % 2 ^ 64)) * 2 ^ 64

/-- How a protected word decodes (Table 11.1): a correction names the DDR5 device it is attributed to (R334) and the
word it leaves. -/
inductive WCls
  | clean (data : Nat)
  | corr (data dev fixed : Nat)
  | poisoned
  | uncorr
  deriving DecidableEq, Repr

/-- The lowest set bit of a byte. -/
def lowBit (v : Nat) : Nat := ((List.range 8).find? (fun k => v.testBit k)).getD 0

/-- Syndromes of a protected word: SR and SC (R325). -/
def syndromes (w : Nat) : Nat × Nat :=
  let d := w % 2 ^ 64
  (rowPar d ^^^ w / 2 ^ 64 % 256, colPar d ^^^ w / 2 ^ 72 % 256)

/-- The decoder (R325, Table 11.1): the first matching row. -/
def decodeWord (w : Nat) : WCls :=
  let d := w % 2 ^ 64
  let sr := (syndromes w).1
  let sc := (syndromes w).2
  if sr = 0 ∧ sc = 0 then .clean d
  else if 7 ≤ popN 8 sr ∧ 7 ≤ popN 8 sc then .poisoned
  else if popN 8 sr = 1 ∧ popN 8 sc = 1 then .corr (d ^^^ 2 ^ (8 * lowBit sr + lowBit sc)) (lowBit sr) (protect (d ^^^ 2 ^ (8 * lowBit sr + lowBit sc)))
  else if popN 8 sr = 1 ∧ sc = 0 then .corr d 8 (protect d)
  else if sr = 0 ∧ popN 8 sc = 1 then .corr d 9 (protect d)
  else .uncorr

/-- A word with byte n replaced. -/
def putByteOf (d n b : Nat) : Nat := d - byteOf d n * 2 ^ (8 * n) + b % 256 * 2 ^ (8 * n)

/-- The decoder in erasure mode, with device `dev` failed (R335): nothing is corrected. -/
def decodeErased (dev w : Nat) : WCls :=
  let d := w % 2 ^ 64
  let judge := fun (data syn : Nat) => if syn = 0 then WCls.clean data else if 7 ≤ popN 8 syn then .poisoned else .uncorr
  if dev = 8 then judge d (syndromes w).2
  else if dev = 9 then judge d (syndromes w).1
  else
    let rest := (List.range 8).foldl (fun a r => if r = dev then a else a ^^^ byteOf d r) (w / 2 ^ 72 % 256)
    let d' := putByteOf d dev rest
    judge d' (rowPar d' ^^^ w / 2 ^ 64 % 256)

/-! ### Places (Table 11.9, R349) -/

/-- Memory location addresses of a DRAM offset and of a unit's SRAM. -/
def dramLoc (off : Nat) : Nat := off
def sramLoc (unit off : Nat) : Nat := 2 ^ 62 + unit * 2 ^ 32 + off

/-- SPACE, unit and offset of a memory location address. -/
def locSpace (a : Nat) : Nat := a / 2 ^ 62 % 4
def locUnit (a : Nat) : Nat := a / 2 ^ 32 % 65536
def locOff (a : Nat) : Nat := if locSpace a = 0 then a % 2 ^ 38 else a % 2 ^ 32

/-- Data capacity of a subchannel (Table 12.1). -/
def State.subBytes (s : State) : Nat :=
  s.getF F.DRC_SC_CFG_RANKS * (if s.getF F.DRC_SC_CFG_DENSITY = 1 then 2 ^ 35 else 2 ^ 34)

/-- Milliseconds that the fill of a subchannel takes: 1.5 s for 32 GiB, the bound of R344, and in proportion (DESIGN CHOICE, assumption
129). -/
def State.fillMs (s : State) : Nat := s.subBytes * 1500 / 2 ^ 35

/-- Fitted size (R348). -/
def State.dramSize (s : State) : Nat := s.dram.active.length * s.subBytes

/-- The subchannel of a DRAM offset (R349). -/
def State.subOf (s : State) (off : Nat) : Nat :=
  let n := s.dram.active.length
  let c := off / 2 ^ s.dram.grain
  match s.dram.evac with
  | some e =>
    if e.phase = 2 ∧ (n - 1) * (n - 2) + e.left ≤ c then (s.dram.active.filter (· != e.sub)).getD (c % max 1 (n - 1)) 0
    else s.dram.active.getD (c % max 1 n) 0
  | none => s.dram.active.getD (c % max 1 n) 0

/-- The unit that owns a word: its subchannel, or the SRAM's owner. -/
def State.locOwner (s : State) (a : Nat) : Nat := if locSpace a = 0 then uDram (s.subOf (locOff a)) else locUnit a

/-- Bytes of SRAM named by offset in a unit: local memory, landing slices, the map cache (Table 11.9, R336). -/
def sramBytes (unit : Nat) : Nat :=
  if uKind unit = 4 then (if 0x30 ≤ uIdx unit then 524288 else 262144)
  else if uKind unit = 7 then 48 * 262144
  else if unit = uFront then 128 * 262144 else 0

/-- A memory location address names a word: in range, a multiple of 8 (Table 11.9); arrays at 0x8000_0000 and above are a
unit's own. -/
def State.locOk (s : State) (a : Nat) : Bool :=
  a % 8 == 0 && decide (a < 2 ^ 64) &&
  (if locSpace a = 0 then decide (a < s.dramSize)
   else if locSpace a = 1 then isUnit (locUnit a) && decide (a / 2 ^ 48 % 2 ^ 14 = 0) && (decide (locOff a < sramBytes (locUnit a)) || decide (2 ^ 31 ≤ locOff a))
   else decide (locSpace a = 2) && isUnit (locUnit a))

/-! ### The layout of DRAM (Table 6.2) -/

/-- Raw segments of a quadrant: the chunks of one channel. -/
def State.raw (s : State) : Nat := s.med.lunsCh * s.med.perLun

/-- Bytes of the coarse map, the bitmap, the segment table and the fine pool, laid out in the order of Table 6.2. -/
def State.mapRegion (s : State) : Nat := 4 * s.raw * 2 ^ 28 / 65536 * 5
def State.bitmapEnd (s : State) : Nat := s.mapRegion + 4 * s.raw * 2 ^ 28 / 32768
def State.segTabEnd (s : State) : Nat := s.bitmapEnd + 4 * s.raw * 64
def State.poolEnd (s : State) : Nat := s.segTabEnd + s.map.pool * 128

/-- Base of the near-data scratch: policy state and program windows take 8 GiB (Table 6.2). -/
def State.scratchBase (s : State) : Nat := s.poolEnd + 2 ^ 33

/-- The word's content is held by another part of the state: its stored bits are the bits in error. -/
def State.shadowed (s : State) (a : Nat) : Bool :=
  if locSpace a = 0 then decide (locOff a < s.poolEnd) || (decide (s.scratchBase ≤ locOff a) && decide (locOff a < s.scratchBase + 2 ^ 32) && decide (s.lvl.level < 3))
  else uKind (locUnit a) != 4 || decide (2 ^ 31 ≤ locOff a)

/-- The 40-bit entry of a coarse unit. -/
def State.coarseBits (s : State) (u : Nat) : Nat := (s.coarse u).encode

/-- Bits of a word that begin `n` bits into a row of 40-bit entries (R164, R165). -/
def packed (f : Nat → Nat) (n : Nat) : Nat :=
  let e := n / 40
  (f e + f (e + 1) * 2 ^ 40 + f (e + 2) * 2 ^ 80) / 2 ^ (n % 40) % 2 ^ 64

/-- Word w of the 16 of a fine record as its 128 bytes hold it: the entries, the owner at byte 80, the write count at byte 88 and the
frame at byte 92 (R165). -/
def Fine.word (f : Fine) (w : Nat) : Nat :=
  if w < 10 then packed (fun e => if e < 16 then (f.ents.getD e .unmapped).encode else 0) (64 * w)
  else if w = 10 then f.owner % 2 ^ 40
  else if w = 11 then f.writes % 2 ^ 32 + f.frame % 2 ^ 32 * 2 ^ 32
  else if w = 12 then f.frame / 2 ^ 32 % 2 ^ 16 else 0

/-- The data that a word holds where another field of the state holds its content: a coarse entry (R164), a fine record (R165), a
sector of a landing slice. The spec does not lay out the other such arrays; their words read as zero (DESIGN CHOICE, assumption 28). -/
def State.shadow (s : State) (a : Nat) : Nat :=
  let off := locOff a
  if locSpace a = 0 then
    if off < s.mapRegion then packed s.coarseBits (8 * off)
    else if s.segTabEnd ≤ off ∧ off < s.poolEnd then
      match s.fineRec ((off - s.segTabEnd) / 128) with
      | some f => f.word ((off - s.segTabEnd) % 128 / 8)
      | none => 0
    else 0
  else if uKind (locUnit a) = 7 ∧ off < sramBytes (locUnit a) then
    match s.lnd.secs.get none (uIdx (locUnit a) * 4096 + off / 4096) with
    | some x => leAt x.data (off % 4096) 8
    | none => 0
  else 0

/-! ### Reading and writing words -/

/-- The 80 bits of a word; where another field holds its content, the content with the bits in error. -/
def State.word (s : State) (a : Nat) : Nat :=
  let w := s.memp.words.get 0 (a / 8)
  if s.shadowed a then protect (s.shadow a) ^^^ w else w

/-- How a stored word decodes: in erasure mode where its subchannel has a failed device (R325, R335). -/
def State.wordCls (s : State) (a : Nat) : WCls :=
  let dev := if locSpace a = 0 then s.memp.failed.get 0 (s.subOf (locOff a)) else 0
  if dev = 0 then decodeWord (s.word a) else decodeErased (dev - 1) (s.word a)

/-- A flip is armed for a word (R345). -/
def State.flipHits (s : State) (a : Nat) : Bool :=
  s.flag F.MEMP_FLIP_CTL_ARM && s.getF F.MEMP_FLIP_ADDR_LO_ADDR + s.getF F.MEMP_FLIP_ADDR_HI_ADDR * 2 ^ 32 == a / 8 * 8

/-- The armed masks as 80 bits. -/
def State.flipMask (s : State) : Nat :=
  s.getF F.MEMP_FLIP_D_LO_MASK + s.getF F.MEMP_FLIP_D_HI_MASK * 2 ^ 32 + s.getF F.MEMP_FLIP_C_MASK * 2 ^ 64

/-- Store 80 bits in a word: every write, write-back, poison mark and fill passes here, and an armed flip alters it, clears
ARM and raises FLIP_DONE (R345). -/
def State.storeWord (s : State) (a w : Nat) : State :=
  let w := if s.shadowed a then w ^^^ protect (s.shadow a) else w
  if s.flipHits a then
    ((s.onMemp fun m => { m with words := m.words.set 0 (a / 8) (w ^^^ s.flipMask) }).setF F.MEMP_FLIP_CTL_ARM 0).raiseEvt F.MEMP_EVT_FLIP_DONE F.MEMP_EVT_CNT5_FLIP_CNT
  else s.onMemp fun m => { m with words := m.words.set 0 (a / 8) w }

/-- A word whose content another field holds is written with that content: no bit is in error. -/
def State.healWord (s : State) (a : Nat) : State := s.storeWord a (protect (s.shadow a))

/-- Part of a word changed with the field that holds its content: an armed flip of it fires (R345). -/
def State.wroteWord (s : State) (a : Nat) : State := if s.flipHits a then s.storeWord a (s.word a) else s

/-- A sector of a landing slice has been written whole: its words hold it without error (R267), but for an armed flip. -/
def State.wroteSector (s : State) (slice sec : Nat) : State :=
  let a := sramLoc (uLnd slice) (4096 * sec)
  let s := s.onMemp fun m => { m with words := m.words.keep fun k => !(decide (a / 8 ≤ k) && decide (k < a / 8 + 512)) }
  let f := s.getF F.MEMP_FLIP_ADDR_LO_ADDR + s.getF F.MEMP_FLIP_ADDR_HI_ADDR * 2 ^ 32
  if a ≤ f ∧ f < a + 4096 then s.wroteWord (f / 8 * 8) else s

/-- A full 64-bit write: fresh check bits, any poison cleared (R267, Table 11.3). -/
def State.writeWord (s : State) (a d : Nat) : State := s.storeWord a (protect d)

/-! ### Repeated corrections (R337), device failure (R334) -/

/-- The lap count of a word's memory. -/
def State.lapOf (s : State) (a : Nat) : Nat := if locSpace a = 0 then s.memp.lapD else s.memp.lapS

/-- An entry 16 laps old or more. -/
def State.repExpired (s : State) (e : RepEnt) : Bool := decide (16 ≤ (s.lapOf e.addr + 65536 - e.lap) % 65536) && e.st != 2

/-- The repeat entry of a word. -/
def State.repFind (s : State) (a : Nat) : Option (Nat × RepEnt) :=
  (s.memp.rep.items.filterMap fun x => x.2.map fun e => (x.1, e)).find? fun x => x.2.addr == a && !s.repExpired x.2

/-- The entry a new correction takes: an empty or expired one, else one of count 1 with the oldest first lap. -/
def State.repSlot (s : State) : Option Nat :=
  match (List.range 256).find? (fun i => match s.memp.rep.get none i with | some e => s.repExpired e | none => true) with
  | some i => some i
  | none =>
    ((s.memp.rep.items.filterMap fun x => x.2.bind fun e => if e.count = 1 then some (x.1, (s.lapOf e.addr + 65536 - e.lap) % 65536) else none).foldl
      (fun (b : Option (Nat × Nat)) x => match b with | none => some x | some y => if y.2 < x.2 then some x else some y) none).map (·.1)

/-- Record a correction in the repeat table: the third declares a hard fault (R337). -/
def State.repNote (s : State) (a : Nat) : State :=
  match s.repFind a with
  | some (i, e) =>
    if e.st = 2 ∨ e.st = 3 then s
    else
      let c := e.count + 1
      let s := s.onMemp fun m => { m with rep := m.rep.set none i (some { e with count := c, st := if 3 ≤ c then 2 else 1 }) }
      if 3 ≤ c then s.raiseEvt F.MEMP_EVT_HARD F.MEMP_EVT_CNT2_HARD_CNT else s
  | none =>
    match s.repSlot with
    | some i => s.onMemp fun m => { m with rep := m.rep.set none i (some { addr := a, count := 1, lap := s.lapOf a, st := 1 }) }
    | none => s.raiseEvt F.MEMP_EVT_REP_OVF F.MEMP_EVT_CNT3_OVF_CNT

/-- Subchannels in erasure mode (MEMP_STAT.ERASURE). -/
def State.erasures (s : State) : Nat := (s.memp.failed.items.filter (fun e => e.2 != 0)).length

/-- A device is declared failed: erasure mode, DEVFAIL as an F2 event of the subchannel (R334). A subchannel already in
erasure mode, or a device above 9, is not declared (R346). -/
def State.declareFailed (s : State) (sub dev : Nat) : State :=
  if s.memp.failed.get 0 sub ≠ 0 ∨ 9 < dev ∨ 8 ≤ sub then s
  else
    let s := s.onMemp fun m => { m with failed := m.failed.set 0 sub (dev + 1) }
    let s := s.setF F.MEMP_STAT_ERASURE s.erasures
    (s.raiseEvt F.MEMP_EVT_DEVFAIL F.MEMP_EVT_CNT3_DEV_CNT).raiseFault 0x0205 (uDram sub) dev

/-- A DRAM correction attributed to its device; at THRESH in one lap with AUTO the device is declared failed (R334). -/
def State.attribute_ (s : State) (a dev : Nat) : State :=
  if locSpace a ≠ 0 then s
  else
    let sub := s.subOf (locOff a)
    let n := s.memp.attr.get 0 (sub * 16 + dev) + 1
    let s := s.onMemp fun m => { m with attr := m.attr.set 0 (sub * 16 + dev) n }
    if s.flag F.MEMP_DEV_CFG_AUTO ∧ s.getF F.MEMP_DEV_CFG_THRESH ≤ n then
      if s.memp.failed.get 0 sub = 0 then s.declareFailed sub dev
      else if s.dram.evacWait = some sub then s
      else (s.raiseFault 0x0205 (uDram sub) dev).onDram fun d => { d with evacWait := some sub }
    else s

/-- A correction written back (R328): CORR, an F0 event of the unit, the repeat table, the device. -/
def State.writeBack (s : State) (a dev fixed : Nat) : State :=
  let s := s.storeWord a fixed
  let s := s.raiseEvt F.MEMP_EVT_CORR F.MEMP_EVT_CNT0_CORR_CNT
  let s := s.raiseFault 0x0001 (s.locOwner a) a
  (s.repNote a).attribute_ a dev

/-- A word is poisoned (R329, R330): its data bits as read, POIS_NEW, an F1 event of the unit. -/
def State.poisonAt (s : State) (a : Nat) : State :=
  let s := s.storeWord a (poisonWord (s.word a))
  (s.raiseEvt F.MEMP_EVT_POIS_NEW F.MEMP_EVT_CNT1_PNEW_CNT).raiseFault 0x0107 (s.locOwner a) a

/-- An uncorrectable word is read: UNCORR; the DRAM controller is the first agent to move one of DRAM, forwards it poisoned and records
an F1 event of its subchannel (R330). -/
def State.foundBad (s : State) (a : Nat) : State :=
  let s := s.raiseEvt F.MEMP_EVT_UNCORR F.MEMP_EVT_CNT0_UNCORR_CNT
  if locSpace a = 0 then (s.raiseEvt F.MEMP_EVT_POIS_NEW F.MEMP_EVT_CNT1_PNEW_CNT).raiseFault 0x0107 (s.locOwner a) a else s

/-- A consumer's read of a word (R325, R331, Table 11.3): its data, a correction written back; none where the word is
poisoned or uncorrectable, POIS_USE and an F1 event of the consumer. -/
def State.loadWord (s : State) (a consumer : Nat) : Option Nat × State :=
  match s.wordCls a with
  | .clean d => (some d, s)
  | .corr d dev fixed => (some d, s.writeBack a dev fixed)
  | .poisoned => (none, (s.raiseEvt F.MEMP_EVT_POIS_USE F.MEMP_EVT_CNT1_PUSE_CNT).raiseFault 0x0108 consumer a)
  | .uncorr => (none, ((s.foundBad a).raiseEvt F.MEMP_EVT_POIS_USE F.MEMP_EVT_CNT1_PUSE_CNT).raiseFault 0x0108 consumer a)

/-- Read a whole sector of a landing slice: whether every word delivers its data, and the state with the corrections written back and
the words that do not deliver recorded for their consumer (R328, R331). Every word not listed is without error. -/
def State.readSector (s : State) (slice sec consumer : Nat) : Bool × State :=
  let a := sramLoc (uLnd slice) (4096 * sec)
  ((s.memp.words.keys.map (· * 8)).filter fun w => decide (a ≤ w) && decide (w < a + 4096)).foldl
    (fun r w => let o := r.2.loadWord w consumer; (r.1 && o.1.isSome, o.2)) (true, s)

/-- Is a word delivered by a read (clean or corrected)? -/
def State.wordReads (s : State) (a : Nat) : Bool :=
  match s.wordCls a with | .clean _ => true | .corr _ _ _ => true | _ => false

/-- The data of a word as a read delivers it, zero where it delivers none. -/
def State.wordData (s : State) (a : Nat) : Nat :=
  match s.wordCls a with | .clean d => d | .corr d _ _ => d | _ => 0

/-- An agent that moves a word (R330): its protected word as it arrives, poisoned where it does not decode. -/
def State.movedWord (s : State) (a : Nat) : Nat :=
  match s.wordCls a with
  | .clean d => protect d
  | .corr _ _ f => f
  | _ => poisonWord (s.word a)

/-! ### The fabric (R327, R345) -/

/-- A flip is armed for the next word that a unit sends (R345, Table 11.9). -/
def State.fabricHits (s : State) (src : Nat) : Bool :=
  s.flag F.MEMP_FLIP_CTL_ARM && s.getF F.MEMP_FLIP_ADDR_HI_ADDR / 2 ^ 30 == 2 && s.getF F.MEMP_FLIP_ADDR_HI_ADDR % 65536 == src

/-- A data word crosses the fabric from one unit to another: as its receiving port delivers it, none where it arrives poisoned. An armed
flip alters it on the link; the port corrects a single bit, an F0 event of the receiving unit, and forwards an uncorrectable word poisoned,
an F1 event (R327, R330, R345). -/
def State.fabric (s : State) (src dst d : Nat) : Option Nat × State :=
  if s.fabricHits src then
    let a := s.getF F.MEMP_FLIP_ADDR_LO_ADDR + s.getF F.MEMP_FLIP_ADDR_HI_ADDR * 2 ^ 32
    let t := (s.setF F.MEMP_FLIP_CTL_ARM 0).raiseEvt F.MEMP_EVT_FLIP_DONE F.MEMP_EVT_CNT5_FLIP_CNT
    match decodeWord (protect d ^^^ s.flipMask) with
    | .clean d' => (some d', t)
    | .corr d' _ _ => (some d', t.raiseFault 0x0001 dst a)
    | .poisoned => (none, t)
    | .uncorr => (none, ((t.raiseEvt F.MEMP_EVT_UNCORR F.MEMP_EVT_CNT0_UNCORR_CNT).raiseEvt F.MEMP_EVT_POIS_NEW F.MEMP_EVT_CNT1_PNEW_CNT).raiseFault 0x0107 dst a)
  else (some d, s)

/-- A word written by another unit than its owner crosses the fabric first; one that arrives poisoned is stored so (R327, R330). -/
def State.sendWord (s : State) (src dst a d : Nat) : State :=
  match s.fabric src dst d with
  | (some d', t) => t.writeWord a d'
  | (none, t) => t.storeWord a (poisonWord d)

/-! ### The map walker (R171, R172, R191) -/

/-- The words of a line of the coarse region (2n) or of the fine pool (2n + 1). -/
def State.lineWords (s : State) (l : Nat) : List Nat :=
  (List.range 8).map fun i => dramLoc (8 * i + (if l % 2 = 0 then 64 * (l / 2) else s.segTabEnd + 64 * (l / 2)))

/-- A line is read from DRAM: corrections are written back; one with an uncorrectable word is not filled (R172). -/
def State.readLine (s : State) (l : Nat) : Bool × State :=
  ((s.lineWords l).filter fun a => (s.memp.words.find (a / 8)).isSome).foldl (fun r a =>
    match r.2.wordCls a with
    | .clean _ => r
    | .corr _ dev fixed => (r.1, r.2.writeBack a dev fixed)
    | _ => (false, r.2.raiseEvt F.MEMP_EVT_UNCORR F.MEMP_EVT_CNT0_UNCORR_CNT)) (true, s)

/-- Sets of the line store: what the granule tables, the heat table and the unit holds leave of 32 MiB, in sets of 16 lines of 64
bytes (R172). -/
def State.mapSets (s : State) : Nat := (31457280 - 4 * s.raw) / 1024

/-- The map page of a key (R188): 3,072 coarse entries. -/
def mapPage (key : Nat) : Nat := key / 16 / 3072

/-- The map walker looks one sector up: a hit where the cache holds every line the lookup reads (R171). A line that cannot be filled
leaves its page waiting for a rebuild (R172, R192); a page not yet loaded is brought in (R191). -/
def State.walk (s : State) (key : Nat) : State :=
  let ls := s.walkLines key
  let miss := ls.filter fun l => !s.map.cache.contains l
  let r := miss.foldl (fun (a : List Nat × State) l =>
    let o := a.2.readLine l
    (if o.1 then a.1 else l :: a.1, o.2)) ([], s)
  let sets := s.mapSets
  let s := r.2.onMap fun m =>
    { m with cache := (ls.filter fun l => !r.1.contains l).foldl (useLine sets) m.cache
             bad := if r.1.isEmpty then m.bad else m.bad.set false (mapPage key) true
             unloaded := m.unloaded.set false (mapPage key) false
             index := if m.unloaded.get false (mapPage key) then m.index.keep fun k => mapPage k != mapPage key else m.index }
  s.bump (if miss.isEmpty then F.FRM_MAP_HIT_CNT else F.FRM_MAP_MISS_CNT)

/-- Lookups of these keys, one by one. -/
def State.walkAll (s : State) (keys : List Nat) : State := keys.foldl State.walk s

/-- No key lies on a page whose rebuild lookups wait for (R172, R192, R193). -/
def State.pagesOk (s : State) (keys : List Nat) : Bool :=
  keys.all fun k => !s.map.bad.get false (mapPage k) && s.map.scanPage != some (mapPage k)

end Sys2Proof.Machine
end

