-- ==== Sys2Proof/Machine/Map.lean ====
section
/-! DEFINITION. The logical space, map entries and lookups, capacity counts, segments and streams (chapters 5 and 6;
R133 to R138, R148 to R167, R174 to R181). -/
namespace Sys2Proof.Machine

/-! ### The map -/

/-- All 16 sector entries of a coarse unit. -/
def State.unitEnts (s : State) (u : Nat) : List Ent := (List.range 16).map fun k => s.lookup (u * 16 + k)

/-- A unit is promoted: its coarse entry is of kind fine. -/
def State.isFine (s : State) (u : Nat) : Bool := match s.coarse u with | .fine _ => true | _ => false

/-- Free fine records (FRM_MAP_FINE_FREE, R165). -/
def State.fineFree (s : State) : Nat := s.map.pool - s.map.fine.size

/-- Records of the poison reserve (R170). -/
def State.poisReserve (s : State) : Nat := s.get2 F.FRM_MAP_FINE_CFG_POIS * 4096

/-- Records that writes admitted and not committed will take when their units are promoted (R167). -/
def State.promPending (s : State) : Nat :=
  ((s.hif.cmds.flatMap fun c => if c.ph = .landing then
    (c.plan.filter fun p => p.2.1 == 2 && !s.isFine p.1).map (·.1) else []).eraseDups).length

/-- Free records beyond the poison reserve and those already promised (R167, R170). -/
def State.poolRoom (s : State) : Nat := s.fineFree - s.promPending - s.poisReserve

/-- The pool holds more free records than the poison reserve (R167). -/
def State.poolHasRoom (s : State) : Bool := decide (0 < s.poolRoom)

/-- The lowest index not listed. -/
def freshKey (ks : List Nat) : Nat := ((List.range (ks.length + 1)).find? (fun n => !ks.contains n)).getD 0

/-- FRM_MAP_EVT.LOW is raised as FREE falls below LOW x 65,536 (Table 6.6). -/
def State.checkLow (s : State) : State :=
  let low := decide (s.fineFree < s.get2 F.FRM_MAP_FINE_CFG_LOW * 65536)
  let s := if low && !s.map.low then s.raiseEvt F.FRM_MAP_EVT_LOW F.FRM_MAP_EVT_CNT0_LOW_CNT else s
  s.onMap fun m => { m with low := low }

/-- The DRAM words that hold a unit's coarse entry and its fine record (R164, R165). -/
def State.unitWords (s : State) (u : Nat) : List Nat :=
  [dramLoc (5 * u / 8 * 8), dramLoc ((5 * u + 4) / 8 * 8)].eraseDups ++
  (match s.coarse u with | .fine r => (List.range 16).map fun i => dramLoc (s.segTabEnd + 128 * r + 8 * i) | _ => [])

/-- A unit's entries have changed: its words are written (R171, R345) and its checkpoint page is marked changed, 3,072 entries a page
(R188). -/
def State.dirtyUnit (s : State) (u : Nat) : State :=
  ((s.unitWords u).foldl State.wroteWord s).onJnl fun j => { j with dirty := j.dirty.set false (u / 3072) true }

/-- Set a coarse entry; a fine record it replaces is freed (R166). -/
def State.setCoarse (s : State) (u : Nat) (e : Ent) : State :=
  let s := match s.coarse u with
    | .fine r => s.onMap fun m => { m with fine := m.fine.set none r none }
    | _ => s
  ((s.onMap fun m => { m with coarse := m.coarse.set .unmapped u e }).dirtyUnit u).checkLow

/-- Promote a coarse unit to a fine record holding its present entries (R167). -/
def State.promote (s : State) (u : Nat) : State :=
  let r := freshKey s.map.fine.keys
  let f : Fine := { ents := s.unitEnts u, owner := u, writes := 0, frame := s.time.frame }
  ((s.onMap fun m => { m with fine := m.fine.set none r (some f), coarse := m.coarse.set .unmapped u (.fine r) }).dirtyUnit u).checkLow

/-- Set one sector entry of a promoted unit. -/
def State.setFine (s : State) (key : Nat) (e : Ent) : State :=
  match s.coarse (key / 16) with
  | .fine r => (s.onMap fun m => { m with fine := m.fine.upd none r fun o => o.map fun f => { f with ents := f.ents.set (key % 16) e } }).dirtyUnit (key / 16)
  | _ => s

/-- A write touched a promoted unit: its write count, saturating, and frame (R165). -/
def State.touchFine (s : State) (u : Nat) : State :=
  match s.coarse u with
  | .fine r => (s.onMap fun m => { m with fine := m.fine.upd none r fun o => o.map fun f => { f with writes := sat32 (f.writes + 1), frame := s.time.frame } }).dirtyUnit u
  | _ => s

/-- Mark a sector POISON (R170): its unit is promoted from the reserve; with the reserve empty the whole coarse entry
becomes POISON as an F2 event of the map walker. -/
def State.markPoison (s : State) (key : Nat) : State :=
  let u := key / 16
  match s.coarse u with
  | .fine _ => s.setFine key .poison
  | _ =>
    if 0 < s.fineFree then (s.promote u).setFine key .poison
    else (s.setCoarse u .poison).raiseFault 0x020B (uSvc 1) u

/-- Replace every sector entry of a key equal to `old` by `new`, keeping a coarse-mapped unit coarse only when it is
replaced whole. -/
def State.moveKey (s : State) (key : Nat) (old new : Ent) : State :=
  if s.lookup key = old then
    match s.coarse (key / 16) with
    | .fine _ => s.setFine key new
    | _ => s
  else s

/-- The heat-table index of a coarse unit (R167). -/
def heatIdx (u : Nat) : Nat := (u % 131072) ^^^ (u / 131072 % 131072)

/-- Count one partial write of a unit in its heat entry: a new unit displaces the old one, and a window that has passed
begins again (R167). -/
def State.heatBump (s : State) (u : Nat) : State :=
  let win := s.get2 F.FRM_MAP_PROMO_WIN * 1024
  s.onMap fun m =>
    let h := m.heat.get {} (heatIdx u)
    let h' : Heat := if h.unit = u ∧ h.count ≠ 0 ∧ s.time.frame - h.start < win then { h with count := h.count + 1 }
      else { unit := u, count := 1, start := s.time.frame }
    { m with heat := m.heat.set {} (heatIdx u) h' }

/-- The heat of a unit. -/
def State.heatOf (s : State) (u : Nat) : Nat :=
  let h := s.map.heat.get {} (heatIdx u)
  if h.unit = u then h.count else 0

/-- How a partial write of a unit is treated, after it has been counted: 1 its fine entries, 2 promotion at commit,
3 merge (R167). -/
def State.partialMode (s : State) (u : Nat) : Nat :=
  match s.coarse u with
  | .fine _ => 1
  | _ => if s.get2 F.FRM_MAP_PROMO_THRESH ≤ s.heatOf u ∧ s.poolHasRoom then 2 else 3

/-! ### Zones -/

/-- Host data units per segment, by metadata size index m (R137). -/
def hostUnits (m : Nat) : Nat := if m = 0 then 960 else if m = 1 then 958 else 945

/-- Metadata size index of a format (R135). -/
def fmtMeta (f : Nat) : Nat := f / 6

/-- Metadata bytes of a format. -/
def fmtMetaBytes (f : Nat) : Nat := if fmtMeta f = 0 then 0 else if fmtMeta f = 1 then 8 else 64

/-- Segments of a zone (Table 5.2). -/
def zoneSegs (f : Nat) : Nat := 2 ^ (f % 6)

/-- ZSZE in blocks (Table 5.2). -/
def zsze (f : Nat) : Nat := 65536 * zoneSegs f

/-- ZCAP in blocks (R136, Table 5.2): the host blocks of the zone's segments. -/
def zcap (f : Nat) : Nat := zoneSegs f * (64 * hostUnits (fmtMeta f))

/-- The key of a zone. -/
def zkey (nsid z : Nat) : Nat := nsid * 2 ^ 24 + z

/-- A zone. -/
def State.zone (s : State) (nsid z : Nat) : Zone := s.zones.get {} (zkey nsid z)

/-- Change a zone. -/
def State.onZone (s : State) (nsid z : Nat) (f : Zone → Zone) : State := s.onZones fun m => m.upd {} (zkey nsid z) f

/-- Zones of a namespace. -/
def Ns.zones (n : Ns) : Nat := n.nsze / zsze n.fmt

/-- The quadrant of a zone (R138). -/
def zoneQuad (nsid z : Nat) : Nat := (z + nsid) % 4

/-- Active zones of a namespace (R139). -/
def State.activeZones (s : State) (nsid : Nat) : Nat :=
  (s.zones.items.filter (fun e => e.1 / 2 ^ 24 == nsid && (e.2.st == .impOpen || e.2.st == .expOpen || e.2.st == .closed))).length

/-- A zone state that holds an active resource (Table 5.4). -/
def ZState.active : ZState → Bool
  | .impOpen => true | .expOpen => true | .closed => true | _ => false

/-- The journal's code of a zone state (Table 6.4). -/
def ZState.code : ZState → Nat
  | .empty => 0 | .impOpen => 1 | .expOpen => 2 | .closed => 3 | .full => 4 | .offline => 6

/-- The ZNS code of a zone state in a report. -/
def ZState.zns : ZState → Nat
  | .empty => 1 | .impOpen => 2 | .expOpen => 3 | .closed => 4 | .full => 14 | .offline => 15

/-! ### Positions (R134) -/

/-- The position (0 to 31) of the data unit of rank k in line l. -/
def unitPos (l k : Nat) : Nat :=
  let p := 2 * (l % 16)
  if k < p then k else k + 2

/-- The channel of data unit u of a segment of quadrant q. -/
def unitChan (q u : Nat) : Nat := 32 * q + unitPos (u / 30) (u % 30)

/-- The segment of a zone and the data unit in it that hold zone block b (R137). -/
def zoneUnit (f b : Nat) : Nat × Nat := (b / (64 * hostUnits (fmtMeta f)), b % (64 * hostUnits (fmtMeta f)) / 64)

/-- Sectors of a segment's data units. -/
def segSectors : Nat := 61440

/-- The i-th sector from a final position of a stream: in its segment, or beyond its end in the stream's next one (R134, R148). -/
def destAt (d d2 : Option Nat) (i : Nat) : Option Nat :=
  d.bind fun b => if b % 65536 + i < segSectors then some (b + i) else d2.map (· + (b % 65536 + i - segSectors))

/-- The final position of zone block b, in the segment the zone was given for it (R134, R137, R138). -/
def State.zoneDest (s : State) (nsid z f b : Nat) : Option Nat :=
  let per := 64 * hostUnits (fmtMeta f)
  match s.med.zseg.get 0 (zkey nsid z * 32 + b / per) with
  | 0 => none
  | g + 1 => some (g * 65536 + b % per)

/-! ### Chunks, LUNs and capacity -/

/-- The key of a LUN, a chunk, a media location. -/
def lunKey (ch lun : Nat) : Nat := ch * 32 + lun
def chunkKey (ch lun chunk : Nat) : Nat := lunKey ch lun * 65536 + chunk
def mloc (ch lun page cw : Nat) : Nat := (lunKey ch lun * 2 ^ 24 + page) * 4 + cw

/-- 16 KiB pages of a chunk of 8 MiB (R133). -/
def chunkPages : Nat := 512

/-- A LUN: in service once identified, within the build's LUNs per channel, unless recorded otherwise. -/
def State.lunDflt (s : State) (lun : Nat) : Lun := { st := if s.med.ident && decide (lun < s.med.lunsCh) then 1 else 0 }

def State.lun (s : State) (ch lun : Nat) : Lun := s.med.luns.get (s.lunDflt lun) (lunKey ch lun)

/-- Change a LUN. -/
def State.onLun (s : State) (ch lun : Nat) (f : Lun → Lun) : State :=
  s.onMed fun m => { m with luns := m.luns.upd (s.lunDflt lun) (lunKey ch lun) f }

/-- A chunk record. -/
def State.chunk (s : State) (k : Nat) : Chunk := s.med.chunks.get {} k

/-- Change a chunk record. -/
def State.onChunk (s : State) (k : Nat) (f : Chunk → Chunk) : State :=
  s.onMed fun m => { m with chunks := m.chunks.upd {} k f }

/-- LUNs of a channel out of service or retired. -/
def State.lunsOut (s : State) (ch : Nat) : List Nat :=
  (List.range s.med.lunsCh).filter (fun l => (s.lun ch l).st == 2 || (s.lun ch l).st == 3)

/-- Good chunks of a channel, in use or free (FCH_CHUNK_GOOD). -/
def State.goodChunks (s : State) (ch : Nat) : Nat :=
  let out := s.lunsOut ch
  let bad := (s.med.chunks.items.filter (fun e => e.1 / 65536 / 32 == ch && (e.2.st == 1 || e.2.st == 2) && !out.contains (e.1 / 65536 % 32))).length
  s.raw - out.length * s.med.perLun - bad

/-- FORM (Table 5.7, R479): the least good chunks of the quadrant's channels that are not RETIRED. -/
def State.form (s : State) (q : Nat) : Nat :=
  let cs := ((List.range 32).map (32 * q + ·)).filter (fun c => (s.unit (uChan c)).st != .retired)
  cs.foldl (fun m c => min m (s.goodChunks c)) s.raw

/-- SYS, GUARD, FLOOR and the SLC floor (Table 5.7). -/
def State.sysSegs (s : State) : Nat := cdiv (s.raw * 5) 1000
def State.guard (s : State) : Nat := cdiv (s.raw * 5) 1000
def floorSegs : Nat := 64
def State.slcFloor (s : State) : Nat := cdiv (s.raw * 25) 10000

/-- Zones of a namespace bound to a quadrant. -/
def Ns.zonesIn (n : Ns) (nsid q : Nat) : Nat := ((List.range 4).filter fun r => (r + nsid) % 4 == q).foldl (fun a r => a + (n.zones + 3 - r) / 4) 0

/-- Zones of a namespace bound to a quadrant that are Offline. -/
def State.zonesOff (s : State) (nsid q : Nat) : Nat :=
  (s.zones.items.filter (fun e => e.1 / 2 ^ 24 == nsid && zoneQuad nsid (e.1 % 2 ^ 24) == q && e.2.st == .offline)).length

/-- Host blocks of one segment without metadata. -/
def segBlocks : Nat := 61440

/-- What one namespace promises in a quadrant (Table 5.7). -/
def State.promNs (s : State) (nsid q : Nat) (n : Ns) : Nat :=
  if n.zoned then (n.zonesIn nsid q - s.zonesOff nsid q) * zoneSegs n.fmt else cdiv (n.ncap * 9) (4 * 8 * segBlocks)

/-- PROM (Table 5.7). -/
def State.prom (s : State) (q : Nat) : Nat :=
  s.nss.items.foldl (fun a e => match e.2 with | some n => a + s.promNs e.1 q n | none => a) s.slcFloor

/-- TNVMCAP and UNVMCAP in bytes (R155): 240 MiB for each segment of FORM - SYS - 2 % of raw - the SLC floor, and what of it is not
promised. 2 % of the raw segments is rounded up, as the table rounds its other shares (DESIGN CHOICE, assumption 107). -/
def State.capSegs (s : State) (q : Nat) : Nat := s.form q - s.sysSegs - cdiv (s.raw * 2) 100 - s.slcFloor
def State.totalCap (s : State) : Nat := 251658240 * (List.range 4).foldl (fun a q => a + s.capSegs q) 0
def State.unallocCap (s : State) : Nat := 251658240 * (List.range 4).foldl (fun a q => a + (s.capSegs q - (s.prom q - s.slcFloor))) 0

/-- SPARE (Table 5.7). -/
def State.spare (s : State) (q : Nat) : Nat := s.form q - s.sysSegs - s.prom q


/-- SLC in use, in segment equivalents of 64 MiB of data (R174). -/
def State.slcUsed (s : State) (q : Nat) : Nat := cdiv (s.med.slcUnits.get 0 q) 1024

/-! ### Segments and streams -/

/-- The segment that holds a media location, if one does. -/
def State.segOf (s : State) (ch lun page : Nat) : Option Nat :=
  (s.med.segs.items.find? fun e => e.1 / 2 ^ 20 == ch / 32 &&
    (match e.2 with | some g => g.chunks.getD (ch % 32) 0xFFFFFFFF == lun * 65536 + page / chunkPages | none => false)).map (·.1)

/-- Does an entry name a location in a segment? -/
def State.entIn (s : State) (seg : Nat) (e : Ent) : Bool :=
  match e with
  | .media ch lun page _ => s.segOf ch lun page == some seg
  | _ => false

/-- Valid sectors of a segment (R180): the map entries that name it. -/
def State.segValid (s : State) (seg : Nat) : Nat :=
  s.map.coarse.items.foldl (fun a e => match e.2 with
    | .fine r => a + (match s.fineRec r with | some f => (f.ents.filter (s.entIn seg)).length | none => 0)
    | x => if s.entIn seg x then a + 16 else a) 0

/-- The media entry of a location number. -/
def locEnt (loc : Nat) : Ent := .media (loc / 4 / 2 ^ 24 / 32) (loc / 4 / 2 ^ 24 % 32) (loc / 4 % 2 ^ 24) (loc % 4)

/-- Sectors on their way to a segment: landed for it, or staged in SLC for it and still named by the map (R134). -/
def State.segDue (s : State) (seg : Nat) : Bool :=
  s.lnd.secs.items.any (fun e => (e.2.bind (·.dest)).any fun d => d / 65536 == seg) ||
  s.med.secs.items.any (fun e => match e.2 with
    | some x => x.dest.any (fun d => d / 65536 == seg) && s.lookup x.info.key == locEnt e.1
    | none => false)

/-- A segment holds data or is open to a stream (R174, R179). -/
def State.segLive (s : State) (seg : Nat) (g : Seg) : Bool := g.isOpen || decide (0 < s.segValid seg) || s.segDue seg

/-- U of a quadrant: segments holding data or open to a stream (R174). -/
def State.segsUsed (s : State) (q : Nat) : Nat :=
  (s.med.segs.items.filter fun e => e.1 / 2 ^ 20 == q && (match e.2 with | some g => s.segLive e.1 g | none => false)).length

/-- Free segments (R179): formable, without valid data, open to no stream. -/
def State.segFree (s : State) (q : Nat) : Nat := s.form q - s.segsUsed q

/-- SLC budget of a quadrant (R174). -/
def State.slcBudget (s : State) (q : Nat) : Nat :=
  let usable := s.form q - s.sysSegs
  max s.slcFloor (s.raw * 6 * (usable - s.segsUsed q) / (100 * max usable 1))

/-- A segment is given up: it is closed to its stream, and erased once nothing reads it and no data is on its way there (R146, R178,
R179). -/
def State.freeSeg (s : State) (g : Nat) : State :=
  s.onMed fun m => { m with segs := m.segs.upd none g fun o => o.map fun (x : Seg) => { x with isOpen := false, dead := true } }

/-- Wear of a chunk as a fraction with denominator RATED_QLC x RATED_SLC (R257). -/
def State.wearNum (s : State) (q : Nat) (c : Chunk) : Nat :=
  c.qe * s.get2 F.QD_WEAR_CFG_RATED_SLC q + c.se * s.get2 F.QD_WEAR_CFG_RATED_QLC q

/-- A good free chunk. -/
def Chunk.free (c : Chunk) : Bool := c.st == 0 && !c.used && !c.lost

/-- The good free chunk of a LUN with the lowest wear, lowest index on a tie (R257). -/
def State.pickChunk (s : State) (ch lun : Nat) : Option Nat :=
  let listed := s.med.chunks.items.filter (fun e => e.1 / 65536 == lunKey ch lun)
  let fresh := freshKey (listed.map (fun e => e.1 % 65536))
  let cand := (listed.filter (fun e => e.2.free)).map (fun e => (s.wearNum (ch / 32) e.2, e.1 % 65536)) ++
    (if fresh < s.med.perLun then [(0, fresh)] else [])
  (cand.foldl (fun best c => match best with
    | none => some c
    | some b => if c.1 < b.1 ∨ (c.1 = b.1 ∧ c.2 < b.2) then some c else some b) none).map (·.2)

/-- The good free chunk of a channel with the lowest wear, then lowest LUN, then lowest index (R245). -/
def State.pickChunkCh (s : State) (ch : Nat) : Option (Nat × Nat) :=
  ((List.range s.med.lunsCh).filter (fun l => (s.lun ch l).st == 1)).foldl (fun best l =>
    match s.pickChunk ch l with
    | none => best
    | some k => match best with
      | none => some (l, k)
      | some (bl, bk) =>
        if s.wearNum (ch / 32) (s.chunk (chunkKey ch l k)) < s.wearNum (ch / 32) (s.chunk (chunkKey ch bl bk)) then some (l, k) else best) none

/-- Free chunks of one LUN. -/
def State.freeOn (s : State) (ch lun : Nat) : Nat :=
  if (s.lun ch lun).st = 1 then
    s.med.perLun - (s.med.chunks.items.filter (fun e => e.1 / 65536 == lunKey ch lun && !e.2.free)).length
  else 0

/-- Free chunks of the least-free channel of a die stripe. -/
def State.stripeFree (s : State) (q lun : Nat) : Nat :=
  (List.range 32).foldl (fun m p => min m (s.freeOn (32 * q + p) lun)) s.med.perLun

/-- Default die stripe of a new segment (Table 5.6). -/
def State.dfltStripe (s : State) (q : Nat) : Nat :=
  ((List.range s.med.lunsCh).foldl (fun (b : Nat × Nat) l => if b.1 < s.stripeFree q l then (s.stripeFree q l, l) else b) (0, 0)).2

/-- The chunks of a new segment on a die stripe: each on its own channel, on the chosen LUN where it has one free, else
where the channel has (R133, R257). -/
def State.segChunks (s : State) (q lun : Nat) : List Nat :=
  (List.range 32).map fun p =>
    match s.pickChunk (32 * q + p) lun with
    | some k => if (s.lun (32 * q + p) lun).st = 1 then lun * 65536 + k else 0xFFFFFFFF
    | none => match s.pickChunkCh (32 * q + p) with
      | some (l, k) => l * 65536 + k
      | none => 0xFFFFFFFF

/-- The binding that serves a hook in a quadrant (R308, R319): 0 PLACE_SEG, 1 PLACE_WRITE, 2 VICTIM, 3 DEST, 4 QOS. A
suspended binding takes its default at once (R320). -/
def State.hookBind (s : State) (h q : Nat) : Option Bind :=
  s.prg.binds.find? fun b => b.target == 0x10 + h && (b.scope == q || b.scope == 0xFF) && !b.susp

/-- The handle bound to a hook. -/
def State.hookHandle (s : State) (h q : Nat) : Option Nat := (s.hookBind h q).map (·.handle)

/-- A hook's or placement choice replaced by the default: PRG_EVT.REPL, an F1 event of the program (R151, R180, R320). -/
def State.replacedChoice (s : State) (q handle : Nat) : State :=
  (s.raiseEvt F.PRG_EVT_REPL F.PRG_EVT_CNT1_REPL_CNT).raiseFault 0x0104 (uEng (eME ((s.upMes q).headD (4 * q)))) handle

/-- A binding's trap default at a frame, those of the last 1,024 frames kept (R320). -/
def Bind.trapped (b : Bind) (f : Nat) : Bind := { b with defaults := (f :: b.defaults).filter (fun x => decide (f < x + 1024)) }

/-- The engine a hook runs on (Table 10.12): PLACE_WRITE and QOS on an HE, the others on the lowest-index UP ME. -/
def State.hookEng (s : State) (target q : Nat) : Nat :=
  if target = 0x11 ∨ target = 0x14 then ((List.range 12).find? fun n => s.unitState (uEng (eHE n)) == .up).getD 0
  else eME ((s.upMes q).headD (4 * q))

/-- A program by its handle. -/
def State.prog (s : State) (h : Nat) : Option Prog := s.prg.progs.get none h

/-- The image a hook of a handle runs: the old one until the frame boundary after a Replace (R310). -/
def State.hookProg (s : State) (h : Nat) : Option Prog :=
  match s.prg.pending.find? (fun e => e.1 == h) with
  | some e => some e.2
  | none => s.prog h

/-- The step bound the scheduler admits a step by (R68, R306): for ring O, STEPMAX. -/
def Prog.needCyc (p : Prog) : Nat := if p.ring = 1 then p.stepmax else p.bound

/-- A bound hook's step fits what its engine's frame has left (R68); without a hook nothing runs. Where it does not fit, the
invocation waits. -/
def State.hookFits (s : State) (h q : Nat) : Bool :=
  match s.hookBind h q with
  | some b => match s.hookProg b.handle with
    | some p => decide (p.needCyc ≤ s.cycLeft (s.hookEng b.target q))
    | none => true
  | none => true

/-- A bound hook has run on its engine (R69, R319): its inputs w1 to w5 and window 7 are those of Table 10.12, and its cycles, which
the spec does not state for a program not named, count in the engine's frame: a free value of at most STEPMAX. -/
def State.hookRan (s : State) (h q : Nat) (w : List Nat) (win : List Byte) : State :=
  match s.hookBind h q with
  | none => s
  | some b =>
    let e := s.hookEng b.target q
    let used := Config.freeNat s.free % (((s.hookProg b.handle).map (·.stepmax)).getD 0 + 1)
    ((s.nextFree.onPrg fun p => { p with hookIn := p.hookIn.set none h (some (w, win)) }).onSched fun c =>
      { c with cycUsed := c.cycUsed.set 0 e (c.cycUsed.get 0 e + used), steps := c.steps.set 0 e (c.steps.get 0 e + 1) })

/-- A hook that gave no result trapped: PRG_EVT.TRAP, its default; the 16th such default of a binding within 1,024 frames
suspends it (R289, R320). -/
def State.hookTrap (s : State) (b : Bind) (q : Nat) : State :=
  let b' := b.trapped s.time.frame
  let susp := decide (16 ≤ b'.defaults.length)
  let s := (s.raiseEvt F.PRG_EVT_TRAP F.PRG_EVT_CNT0_TRAP_CNT).replacedChoice q b.handle
  let s := s.bump F.ENG_TRAPS_TRAPS (s.hookEng b.target q)
  let s := s.onPrg fun p => { p with binds := p.binds.map (fun x => if x = b then { b' with susp := susp } else x),
                                     progs := p.progs.upd none b.handle fun o => o.map fun (x : Prog) => { x with traps := x.traps + 1 } }
  if susp then s.raiseEvt F.PRG_EVT_SUSP F.PRG_EVT_CNT2_SUSP_CNT else s

/-- What window 7 of PLACE_SEG holds (Table 10.12): for each LUN index the free chunks in its least-free channel, the average wear of its
chunks in 1/1,000, and the open segments with a chunk on it. -/
def State.segInput (s : State) (q : Nat) : List Byte :=
  (List.range 32).flatMap fun l =>
    let rated := s.get2 F.QD_WEAR_CFG_RATED_QLC q * s.get2 F.QD_WEAR_CFG_RATED_SLC q
    let wear := (s.med.chunks.items.filter fun e => e.1 / 65536 / 32 / 32 == q && e.1 / 65536 % 32 == l).foldl (fun a e => a + s.wearNum q e.2) 0
    let opens := (s.med.segs.items.filter fun e => e.1 / 2 ^ 20 == q && (match e.2 with | some g => g.isOpen && g.chunks.any (fun c => c / 65536 == l) | none => false)).length
    leBytes 4 (if l < s.med.lunsCh then s.stripeFree q l else 0) ++ leBytes 2 (wear * 1000 / max 1 (32 * s.med.perLun * rated)) ++ leBytes 2 opens

/-- The stream kinds of Table 10.12 for a segment kind: 0 zone, 1 FDP, 2 conventional, 3 GC. -/
def hookKind (k : Nat) : Nat := if k = 1 then 2 else if k = 2 then 1 else k

/-- Form a segment in a quadrant (R138, R151): `hook` is what the PLACE_SEG hook returned (none: it trapped), used when
it is bound and names a die stripe with free chunks. Host streams leave the GC reserve (R179). None where a channel that is not
RETIRED has no erased chunk to give, and while the hook's step does not fit its engine's frame. `who` is the tenant, the NSID and the
zone, handle or stream. -/
def State.allocSeg (s : State) (q kind : Nat) (gc : Bool) (hook : Option Nat) (who : List Nat) : Option (Nat × State) :=
  if !s.hookFits 0 q ∨ s.segFree q = 0 ∨ (!gc ∧ s.segFree q ≤ s.get2 F.QD_GC_CFG1_GC_RSV q) then none
  else
    let s := if (s.hookBind 0 q).isSome then s.hookRan 0 q ([q, hookKind kind] ++ who) (s.segInput q) else s
    let (lun, s) := match s.hookBind 0 q with
      | none => (s.dfltStripe q, s)
      | some b => match hook with
        | some l => if l < s.med.lunsCh ∧ 0 < s.stripeFree q l then (l, s) else (s.dfltStripe q, s.replacedChoice q b.handle)
        | none => (s.dfltStripe q, s.hookTrap b q)
    let n := freshKey ((s.med.segs.keys.filter (fun k => k / 2 ^ 20 == q)).map (· % 2 ^ 20))
    let cs := s.segChunks q lun
    if (List.range 32).any (fun p => cs.getD p 0 == 0xFFFFFFFF && (s.unit (uChan (32 * q + p))).st != .retired) then none else
    let g : Seg := { chunks := cs, kind := kind, last := s.time.ms }
    let s := s.onMed fun m => { m with segs := m.segs.set none (q * 2 ^ 20 + n) (some g) }
    let s := (List.range 32).foldl (fun s p =>
      let c := cs.getD p 0xFFFFFFFF
      if c = 0xFFFFFFFF then s else s.onChunk (lunKey (32 * q + p) 0 * 65536 + c) fun x => { x with used := true, slc := false }) s
    some (q * 2 ^ 20 + n, s)

/-- Key of a stream. -/
def streamKey (q k : Nat) : Nat := q * 4096 + k

/-- A stream. -/
def State.stream (s : State) (k : Nat) : Stream := s.med.streams.get {} k

/-- A stream without room in its segment is given a further one (R138, R148); its full segment is closed to it. None where no segment
can be formed. -/
def State.nextSeg (s : State) (k kind : Nat) (gc : Bool) (hook : Option Nat) (who : List Nat) : Option (Nat × State) :=
  (s.allocSeg (k / 4096) kind gc hook who).map fun r => (r.1, r.2.onMed fun m =>
    { m with
        segs := match (s.stream k).seg with
          | some g => m.segs.upd none g fun o => o.map fun (x : Seg) => { x with isOpen := false }
          | none => m.segs
        streams := m.streams.set {} k { seg := some r.1 } })

/-- The stream has a segment with room for one sector at least (R148), being given one where it has none. -/
def State.streamSeg (s : State) (k kind : Nat) (gc : Bool) (hook : Option Nat) (who : List Nat) : Option State :=
  if (s.stream k).seg.isSome ∧ (s.stream k).pos < segSectors then some s else (s.nextSeg k kind gc hook who).map (·.2)

/-- The final position of a stream's next sector (R134). -/
def State.streamDest (s : State) (k : Nat) : Option Nat := (s.stream k).seg.map (· * 65536 + (s.stream k).pos)

/-- Sectors placed in a stream: `n` positions from its present one, the part beyond its segment's end in a further segment. The final
positions of the first sector, and of the first one beyond the end; none where no further segment can be formed. -/
def State.streamTake (s : State) (k kind n : Nat) (gc : Bool) (hook : Option Nat) (who : List Nat) : Option (Option Nat × Option Nat × State) :=
  let p := (s.stream k).pos
  let d := s.streamDest k
  let move := fun (s : State) (x : Nat) => s.onMed fun m => { m with streams := m.streams.upd {} k fun y => { y with pos := x } }
  if p + n ≤ segSectors then some (d, none, move s (p + n))
  else (s.nextSeg k kind gc hook who).map fun r => (d, some (r.1 * 65536), move r.2 (p + n - segSectors))

/-- The group that holds the channel of data unit u in quadrant q (R150). -/
def unitGroup (q u : Nat) : Nat := unitChan q u / 8

/-- The target group of a stream's next block (R150). -/
def State.streamGroup (s : State) (k : Nat) : Nat := unitGroup (k / 4096) ((s.stream k).pos / 64 % 960)

/-- A quadrant has a free segment beyond its GC reserve (Table 5.6). -/
def State.quadRoom (s : State) (q : Nat) : Bool := decide (s.get2 F.QD_GC_CFG1_GC_RSV q < s.segFree q)

/-- Default quadrant of a conventional write without FDP (Table 5.6). -/
def State.dfltQuad (s : State) (tid : Nat) : Nat :=
  let start := match s.med.lastQ.get none tid with
    | some (q, n) => if n < 2048 then q else (q + 1) % 4
    | none => tid % 4
  (((List.range 4).map fun i => (start + i) % 4).find? s.quadRoom).getD start

/-- The quadrant that took a tenant's data (Table 5.6). -/
def State.noteQuad (s : State) (tid q n : Nat) : State :=
  s.onMed fun m => { m with lastQ := m.lastQ.upd none tid fun o => match o with
    | some (p, k) => if p = q ∧ k < 2048 then some (q, k + n) else some (q, n)
    | none => some (q, n) }

/-- The quadrant with the most free segments (R152). -/
def State.freestQuad (s : State) : Nat :=
  ((List.range 4).foldl (fun (b : Nat × Nat) q => if b.1 < s.segFree q then (s.segFree q, q) else b) (0, 0)).2

end Sys2Proof.Machine
end

