-- ==== Sys2Proof/Machine/Guard.lean ====
section
/-! DEFINITION. End-to-end protection (chapter 3; R83): the protection information in a block's host metadata, the 16-bit guard in 8-byte
and the 64-bit guard in 64-byte metadata. R83 names the types and the guards; their layout, the checks and the statuses are those of
NVMe (PRESUMED, assumption 125). -/
namespace Sys2Proof.Machine

/-- One bit, then one byte, of the CRC-16 of the T10 guard (polynomial 0x8BB7, most significant bit first). -/
def crc16Bit (c : Nat) : Nat := if c.testBit 15 then (c * 2 % 65536) ^^^ 0x8BB7 else c * 2 % 65536
def crc16Byte (c : Nat) (b : Byte) : Nat :=
  crc16Bit (crc16Bit (crc16Bit (crc16Bit (crc16Bit (crc16Bit (crc16Bit (crc16Bit (c ^^^ b.toNat * 256))))))))

/-- The 16-bit guard of a byte string. -/
def crc16 (d : List Byte) : Nat := d.foldl crc16Byte 0

/-- One bit, then one byte, of the 64-bit guard's CRC (polynomial 0xAD93D23594C93659, reflected). -/
def crc64Bit (c : Nat) : Nat := if c.testBit 0 then c / 2 ^^^ 0x9A6C9329AC4BC9B5 else c / 2
def crc64Byte (c : Nat) (b : Byte) : Nat :=
  crc64Bit (crc64Bit (crc64Bit (crc64Bit (crc64Bit (crc64Bit (crc64Bit (crc64Bit (c ^^^ b.toNat))))))))

/-- The 64-bit guard of a byte string. -/
def crc64 (d : List Byte) : Nat := (d.foldl crc64Byte (2 ^ 64 - 1)) ^^^ (2 ^ 64 - 1)

/-- The most significant byte first. -/
def beBytes (n v : Nat) : List Byte := (leBytes n v).reverse
def beAt (d : List Byte) (i n : Nat) : Nat := leAt ((d.drop i).take n).reverse 0 n

/-- Bytes of the protection information, 8 with the 16-bit guard and 16 with the 64-bit one, and of its guard and reference tag. -/
def Ns.piBytes (n : Ns) : Nat := if n.pi = 0 then 0 else if fmtMeta n.fmt = 1 then 8 else 16
def Ns.guardBytes (n : Ns) : Nat := if fmtMeta n.fmt = 1 then 2 else 8
def Ns.refBytes (n : Ns) : Nat := if fmtMeta n.fmt = 1 then 4 else 6

/-- Where the protection information stands in a block: at the start of the metadata, or at its end. -/
def Ns.piAt (n : Ns) : Nat := if n.pip then 4096 else 4096 + fmtMetaBytes n.fmt - n.piBytes

/-- The guard of a block: over its data and the metadata before the protection information. -/
def Ns.guardOf (n : Ns) (b : List Byte) : Nat :=
  let d := b.take n.piAt
  if n.guardBytes = 2 then crc16 d else crc64 d

/-- PRACT and PRCHK of a command, its application tag and mask, and its first reference tag. -/
def Cmd.pract (c : Cmd) : Bool := c.sqe.cdw12.testBit 29
def Cmd.prchk (c : Cmd) : Nat := bits c.sqe.cdw12 28 26

/-- The reference tag expected of block i of a command. -/
def Cmd.refTag (c : Cmd) (n : Ns) (i : Nat) : Nat := (c.sqe.cdw14 + i) % 2 ^ (8 * n.refBytes)

/-- The protection information of a block made by the device (PRACT 1). -/
def Ns.putPi (n : Ns) (c : Cmd) (i : Nat) (b : List Byte) : List Byte :=
  let b := padTo (4096 + fmtMetaBytes n.fmt) b
  b.take n.piAt ++ (beBytes n.guardBytes (n.guardOf b) ++ beBytes 2 (c.sqe.cdw15 % 65536) ++ beBytes n.refBytes (c.refTag n i)) ++ b.drop (n.piAt + n.piBytes)

/-- The checks of a block's protection information that PRCHK asks for: the guard, the application tag under its mask, and in type 1 the
reference tag. An application tag of all ones, in type 3 with a reference tag of all ones, turns them off. -/
def Ns.piStatus (n : Ns) (c : Cmd) (i : Nat) (b : List Byte) : Nat :=
  let p := b.drop n.piAt
  let app := beAt p n.guardBytes 2
  let ref := beAt p (n.guardBytes + 2) n.refBytes
  if app = 0xFFFF ∧ (n.pi = 1 ∨ ref = 2 ^ (8 * n.refBytes) - 1) then stOk
  else if c.prchk.testBit 2 ∧ beAt p 0 n.guardBytes ≠ n.guardOf b then stGuard
  else if c.prchk.testBit 1 ∧ app &&& (c.sqe.cdw15 / 65536) ≠ c.sqe.cdw15 % 65536 &&& (c.sqe.cdw15 / 65536) then stAppTag
  else if n.pi = 1 ∧ c.prchk.testBit 0 ∧ ref ≠ c.refTag n i then stRefTag
  else stOk

/-- The first status other than success of the blocks of a transfer. -/
def Ns.piFirst (n : Ns) (c : Cmd) : Nat → List (List Byte) → Nat
  | _, [] => stOk
  | i, b :: t => if n.piStatus c i b ≠ stOk then n.piStatus c i b else n.piFirst c (i + 1) t

/-- Bytes of a block as the host transfers it: without the protection information where the device makes or takes it out and the
metadata is nothing else. -/
def Ns.hostBytes (n : Ns) (c : Cmd) : Nat := 4096 + if n.pi ≠ 0 ∧ c.pract ∧ fmtMetaBytes n.fmt = n.piBytes then 0 else fmtMetaBytes n.fmt

/-- The blocks of a byte string. -/
def blocksOf (d : List Byte) (bytes cnt : Nat) : List (List Byte) := (List.range cnt).map fun i => (d.drop (i * bytes)).take bytes

/-- The data of a write as it is stored: with the protection information that PRACT has the device make. -/
def Ns.written (n : Ns) (c : Cmd) (cnt : Nat) (d : List Byte) : List Byte :=
  if n.pi = 0 ∨ !c.pract then d
  else ((blocksOf d (n.hostBytes c) cnt).zip (List.range cnt)).flatMap fun x => n.putPi c x.2 x.1

/-- What a write is judged by before it commits: nothing where the device makes the protection information. -/
def Ns.writeGuard (n : Ns) (c : Cmd) (cnt : Nat) (d : List Byte) : Nat :=
  if n.pi = 0 ∨ c.pract then stOk else n.piFirst c 0 (blocksOf d (4096 + fmtMetaBytes n.fmt) cnt)

/-- What a read, Compare or Verify is judged by. -/
def Ns.readGuard (n : Ns) (c : Cmd) (cnt : Nat) (d : List Byte) : Nat :=
  if n.pi = 0 then stOk else n.piFirst c 0 (blocksOf d (4096 + fmtMetaBytes n.fmt) cnt)

/-- The data of a read as the host receives it. -/
def Ns.handed (n : Ns) (c : Cmd) (cnt : Nat) (d : List Byte) : List Byte :=
  (blocksOf d (4096 + fmtMetaBytes n.fmt) cnt).flatMap fun b => b.take (n.hostBytes c)

end Sys2Proof.Machine
end

