-- ==== Sys2Proof/Machine/Landing.lean ====
section
/-! DEFINITION. The range-lock table, admission to the landing buffer, landing commit, unit holds and the closing of
journal groups (chapters 4 and 6; R104 to R120, R142 to R152, R157, R166 to R168, R185 to R188). -/
namespace Sys2Proof

/-- Blocks of a command: NLB is 0's-based (Table 3.8). -/
def Sqe.nlb (q : Sqe) : Nat := q.cdw12 % 65536
def Sqe.cnt (q : Sqe) : Nat := q.nlb + 1
/-- SLBA of a command. -/
def Sqe.slba (q : Sqe) : Nat := q.cdw10 + q.cdw11 * 2 ^ 32
/-- FUA. -/
def Sqe.fua (q : Sqe) : Bool := q.cdw12.testBit 30
/-- DTYPE and DSPEC (FDP directive type 2, R149). -/
def Sqe.dtype (q : Sqe) : Nat := Machine.bits q.cdw12 23 20
def Sqe.dspec (q : Sqe) : Nat := Machine.bits q.cdw13 31 16

end Sys2Proof

namespace Sys2Proof.Machine

/-! ### Range locks -/

/-- Two entries conflict (R104): same namespace, overlapping, at least one exclusive; a command's own never do. -/
def Lock.conflicts (a b : Lock) : Bool :=
  a.fsn != b.fsn && a.ns == b.ns && (a.excl || b.excl) && decide (a.lo ≤ b.hi) && decide (b.lo ≤ a.hi)

/-- The range-lock entries the table holds. -/
def rltSize : Nat := 4096

/-- Entries held (RLT_STAT.USED). -/
def State.rltUsed (s : State) : Nat := (s.locks.filter (·.held)).length

/-- A command's entries. -/
def State.locksOf (s : State) (fsn : Nat) : List Lock := s.locks.filter (fun l => l.fsn == fsn)

/-- A conflicting range is held, or waited for by a command of lower FSN (R106). -/
def State.lockConflict (s : State) (fsn : Nat) : Bool :=
  (s.locksOf fsn).any fun a => s.locks.any fun b => a.conflicts b && (b.held || decide (b.fsn < fsn))

/-- The table has too few free entries for a command (R106). -/
def State.lockNoRoom (s : State) (fsn : Nat) : Bool := decide (rltSize < s.rltUsed + (s.locksOf fsn).length)

/-- A command of lower FSN waits for free entries: every later one waits behind it (R106). -/
def State.lockBehind (s : State) (fsn : Nat) : Bool :=
  s.locks.any fun b => !b.held && decide (b.fsn < fsn) && s.lockNoRoom b.fsn

/-- The command can be granted all its entries now (R106). -/
def State.lockFree (s : State) (fsn : Nat) : Bool := !s.lockConflict fsn && !s.lockNoRoom fsn && !s.lockBehind fsn

/-- Is the command a read of R59? -/
def Cmd.isRead (c : Cmd) : Bool := c.sq != 0 && isReadOp c.sqe.opc

/-- Grant all entries of a command (R105): reads go to media, others wait for admission. -/
def State.grantLocks (s : State) (fsn : Nat) : State :=
  let s := s.onLocks fun l => l.map fun e => if e.fsn = fsn then { e with held := true } else e
  let s := s.setF F.RLT_HWM_HWM (max (s.getF F.RLT_HWM_HWM) s.rltUsed)
  s.onCmd fsn fun c => { c with ph := if c.isRead then .reading else .admitWait }

/-- Commands that wait for entries, oldest FSN first. -/
def State.lockWaiters (s : State) : List Nat := (s.hif.cmds.filter (fun c => c.ph == .lockWait)).map (·.fsn)

/-- A command asks for entries: granted at once, or it waits and the cause is recorded (R106, Table 4.8). -/
def State.askLocks (s : State) (fsn : Nat) (ls : List Lock) : State :=
  let s := s.onLocks (· ++ ls)
  if s.lockFree fsn then s.grantLocks fsn
  else
    let s := if s.lockConflict fsn then s.raiseEvt F.RLT_EVT_CONFLICT F.RLT_EVT_CNT_CONF_CNT else s
    let s := if s.lockNoRoom fsn || s.lockBehind fsn then s.raiseEvt F.RLT_EVT_FULL F.RLT_EVT_CNT_FULL_CNT else s
    s.onCmd fsn fun c => { c with ph := .lockWait }

/-! ### Landing space -/

/-- Sectors of a slice. -/
def sliceSectors : Nat := 3072

/-- A sector removed from allocation for want of a spare row (R338). -/
def State.secRemoved (s : State) (n i : Nat) : Bool :=
  s.memp.removed.any fun a => a / 2 ^ 32 == 2 ^ 30 + uLnd n && a % 2 ^ 32 / 4096 == i

/-- Sectors of a slice neither reserved nor holding data (LND_STAT.FREE): sectors held and parity accumulators taken
off. -/
def State.sliceFree (s : State) (n : Nat) : Nat :=
  sliceSectors - (s.lnd.secs.keys.filter (fun k => k / 4096 == n)).length -
    ((s.memp.removed.filter (fun a => a / 2 ^ 32 == 2 ^ 30 + uLnd n)).map (fun a => a % 2 ^ 32 / 4096)).eraseDups.length -
    (s.med.accs.filter (fun a => a.slice == n && !a.spilled)).foldl (fun x a => x + if a.slc then 32 else 128) 0

/-- Free sectors of a slice in rising order. -/
def State.freeSecs (s : State) (n : Nat) : List Nat :=
  (List.range sliceSectors).filter (fun i => (s.lnd.secs.find (n * 4096 + i)).isNone && !s.secRemoved n i)

/-- The slices of a quadrant that are UP, in the order a write tries them (R19, R109): its target group's own, then the one with the
most free sectors, lowest index on a tie. -/
def State.sliceOrder (s : State) (target : Nat) : List Nat :=
  let q := target / 4
  let rest := ((List.range 4).map (4 * q + ·)).filter (fun n => n ≠ target && s.unitState (uLnd n) == .up)
  (if s.unitState (uLnd target) = .up then [target] else []) ++
  (rest.foldl (fun (b : Option Nat) n => match b with
    | none => some n | some m => if s.sliceFree m < s.sliceFree n then some n else some m) none).toList

/-- Sectors a plan reserves: one per block of a fine or promoted unit, 16 for a whole or merged unit (R166, R168). -/
def planNeed (plan : List (Nat × Nat × Nat)) (blocks : List (Nat × Nat)) : Nat :=
  plan.foldl (fun a p => a + if p.2.1 = 0 ∨ p.2.1 = 3 then 16 else (blocks.filter (fun b => b.1 == p.1)).length) 0

/-- The first run of 16 free sectors at a multiple of 16 (R166). -/
def alignedRun (free : List Nat) : Option Nat :=
  free.find? fun i => i % 16 == 0 && (List.range 16).all fun k => free.contains (i + k)

/-- Reserve a plan in a list of free sectors: the plan with its base sectors, the sector of each block, and the sectors
taken. -/
def placePlan : List (Nat × Nat × Nat) → List (Nat × Nat) → List Nat → Option (List (Nat × Nat × Nat) × List (Nat × Nat) × List Nat)
  | [], _, _ => some ([], [], [])
  | (u, mode, _) :: t, blocks, free =>
    if mode = 0 ∨ mode = 3 then
      match alignedRun free with
      | none => none
      | some b =>
        let taken := (List.range 16).map (b + ·)
        match placePlan t blocks (free.filter (fun x => !taken.contains x)) with
        | none => none
        | some (p, m, used) => some ((u, mode, b) :: p, ((blocks.filter (fun x => x.1 == u)).map fun x => (x.1 * 16 + x.2, b + x.2)) ++ m, taken ++ used)
    else
      let mine := blocks.filter (fun x => x.1 == u)
      if free.length < mine.length then none
      else
        let taken := free.take mine.length
        match placePlan t blocks (free.drop mine.length) with
        | none => none
        | some (p, m, used) => some ((u, mode, 0) :: p, (mine.zip taken).map (fun x => (x.1.1 * 16 + x.1.2, x.2)) ++ m, taken ++ used)

/-- Coarse unit and sector of each block of a range, in block order. -/
def rangeBlocks (n : Ns) (slba cnt : Nat) : List (Nat × Nat) := (List.range cnt).map fun i => (n.coarse (slba + i), (slba + i) % 16)

/-- The coarse units of a list of blocks, in order, each once. -/
def unitsOf (bs : List (Nat × Nat)) : List Nat := (bs.map (·.1)).eraseDups

/-- The plan of a write (R166 to R168): whole units coarse, partial ones by heat, as many promoted as the pool has records for. -/
def State.planOf (s : State) (bs : List (Nat × Nat)) : List (Nat × Nat × Nat) :=
  (unitsOf bs).foldl (fun acc u =>
    let m := if (bs.filter (fun b => b.1 == u)).length = 16 then 0 else s.partialMode u
    acc ++ [(u, if m = 2 ∧ s.poolRoom ≤ (acc.filter fun p => p.2.1 == 2).length then 3 else m, 0)]) []

/-- Count the partial units of a write in the heat table, and record the pool's refusals (R167). -/
def State.heatPlan (s : State) (bs : List (Nat × Nat)) : State :=
  (unitsOf bs).foldl (fun s u =>
    if (bs.filter (fun b => b.1 == u)).length = 16 then s
    else
      let s := s.heatBump u
      if s.partialMode u = 3 ∧ s.get2 F.FRM_MAP_PROMO_THRESH ≤ s.heatOf u then s.raiseEvt F.FRM_MAP_EVT_POOL F.FRM_MAP_EVT_CNT0_POOL_CNT else s) s

/-- Host reservable room of a slice: free sectors less GC_RSV (R109). -/
def State.hostRoom (s : State) (n : Nat) : Nat := s.sliceFree n - s.getF F.LND_CFG_GC_RSV n

/-- Reserve a write's sectors in the first slice of its quadrant with room (R109). -/
def State.reserveIn (s : State) (plan : List (Nat × Nat × Nat)) (bs : List (Nat × Nat)) :
    List Nat → Option (Nat × List (Nat × Nat × Nat) × List (Nat × Nat) × List Nat)
  | [] => none
  | n :: t =>
    if s.hostRoom n < planNeed plan bs then s.reserveIn plan bs t
    else match placePlan plan bs (s.freeSecs n) with
      | some (p, m, used) => some (n, p, m, used)
      | none => s.reserveIn plan bs t

/-! ### Namespaces and their checks -/

/-- Bytes of a block with its metadata as the host transfers it (R83). -/
def Ns.blockBytes (n : Ns) : Nat := 4096 + fmtMetaBytes n.fmt

/-- A write behaves as if it carried FUA: FUA, or WCE 0 while PRESENT is 1 (R87, R116). -/
def State.fuaLike (s : State) (c : Cmd) : Bool := s.pwr.present && (c.sqe.fua || !(s.ctrl c.fn).wce) || c.sqe.fua

/-- A block counts in NUSE: its entry is neither UNMAPPED nor ZERO, and a merge fill of an unmapped block does not count
(R157, R168). -/
def State.allocated (s : State) (key : Nat) : Bool :=
  match s.lookup key with
  | .unmapped => false
  | .zero => false
  | .landing sl sec => match s.lnd.secs.get none (sl * 4096 + sec) with | some x => !x.info.unwritten | none => true
  | .media ch lun p w => match s.med.secs.get none (mloc ch lun p w) with | some x => !x.info.unwritten | none => true
  | _ => true

/-- Newly allocated blocks of a range (R157). -/
def State.newBlocks (s : State) (n : Ns) (slba cnt : Nat) : Nat :=
  ((List.range cnt).filter fun i => !s.allocated (n.key (slba + i))).length

/-- The zone of a block. -/
def Ns.zoneOf (n : Ns) (lba : Nat) : Nat := lba / zsze n.fmt

/-- A write or append of a zone that has neither committed nor been discarded. -/
def Cmd.zoneWrite (c : Cmd) (opcs : List Nat) (nsid z : Nat) (n : Ns) : Bool :=
  c.sq != 0 && c.sqe.nsid == nsid && opcs.contains c.sqe.opc && n.zoneOf c.sqe.slba == z && !(c.ph == .fuaWait)

/-- A Zone Management Send that acts on a zone, by its SLBA or by Select All. -/
def Cmd.zoneSend (c : Cmd) (nsid z : Nat) (n : Ns) : Bool :=
  c.sq != 0 && c.sqe.nsid == nsid && c.sqe.opc == 0x79 && (c.sqe.cdw13.testBit 8 || n.zoneOf c.sqe.slba == z)

/-- The order of R142 lets a write or append of a zone be admitted: a Write waits for earlier Writes and appends, an append for
earlier Writes, both for earlier Zone Management Send actions (R145). -/
def State.zoneTurn (s : State) (c : Cmd) (n : Ns) : Bool :=
  let z := n.zoneOf c.sqe.slba
  !s.hif.cmds.any fun d => decide (d.fsn < c.fsn) &&
    (d.zoneWrite (if c.sqe.opc = 0x7D then [0x01] else [0x01, 0x7D]) c.sqe.nsid z n || d.zoneSend c.sqe.nsid z n)

/-- A write or append of a zone has been admitted and not committed. -/
def State.zoneOpening (s : State) (nsid z : Nat) (n : Ns) : Bool :=
  s.hif.cmds.any fun d => d.ph == .landing && d.zoneWrite [0x01, 0x7D] nsid z n

/-- The namespace's quota is used up for an Empty zone (R139, R141): by its active zones and by its other Empty zones whose first write
is admitted. -/
def State.quotaUsed (s : State) (nsid z : Nat) (n : Ns) : Bool :=
  let opening := ((s.hif.cmds.filter fun d => d.ph == .landing && d.sq != 0 && d.sqe.nsid == nsid && (d.sqe.opc == 0x01 || d.sqe.opc == 0x7D)).map
    fun d => n.zoneOf d.sqe.slba).eraseDups.filter fun y => (s.zone nsid y).st == .empty && y != z
  !s.zoneOpening nsid z n && decide (n.quota ≤ s.activeZones nsid + opening.length)

/-- Write judged against its zone (R143): the first condition that applies. -/
def State.judgeZoneWrite (s : State) (c : Cmd) (n : Ns) : Nat :=
  let z := n.zoneOf c.sqe.slba
  let zn := s.zone c.sqe.nsid z
  let rel := c.sqe.slba - z * zsze n.fmt
  if s.lvl.rdonly then stWriteProtected
  else if zn.st = .offline then stZoneOffline
  else if zn.st = .full then stZoneFull
  else if zsze n.fmt < rel + c.sqe.cnt then stZoneBoundary
  else if rel ≠ zn.wp then stZoneInvalidWrite
  else if zcap n.fmt < rel + c.sqe.cnt then stZoneBoundary
  else if zn.st = .empty ∧ s.quotaUsed c.sqe.nsid z n then stZoneTooManyActive
  else stOk

/-- Zone Append judged against its zone (R144). -/
def State.judgeAppend (s : State) (c : Cmd) (n : Ns) : Nat :=
  let z := n.zoneOf c.sqe.slba
  let zn := s.zone c.sqe.nsid z
  if s.lvl.rdonly then stWriteProtected
  else if zn.st = .offline then stZoneOffline
  else if zn.st = .full then stZoneFull
  else if zcap n.fmt < zn.wp + zn.apRes + c.sqe.cnt then stZoneBoundary
  else if zn.st = .empty ∧ s.quotaUsed c.sqe.nsid z n then stZoneTooManyActive
  else stOk

/-- A conventional write or Copy judged at admission (R157, R160, R161). -/
def State.judgeConv (s : State) (n : Ns) (slba cnt : Nat) : Nat :=
  if s.lvl.rdonly then stWriteProtected
  else if n.ncap < n.nuse + n.resv + s.newBlocks n slba cnt then stCapacity
  else stOk

/-- Blocks of a write, append or the destination of a Copy (Copy: the sum of its ranges, held in `dw0`), and its first block. -/
def Cmd.dstSlba (c : Cmd) : Nat := c.sqe.slba
def Cmd.blocks (c : Cmd) : Nat := if c.sqe.opc = 0x19 then c.dw0 else c.sqe.cnt

/-- What PLACE_WRITE chose in a write's default quadrant (R151): its quadrant and stream, or the default where it is not bound,
trapped, or named a quadrant without a free segment; none while its step does not fit the frame. -/
def State.placeWrite (s : State) (c : Cmd) (hook : Option (Nat × Nat)) : Option (Nat × Nat × State) :=
  let tid := s.tenantOf c
  let dq := s.dfltQuad tid
  if !s.hookFits 1 dq then none
  else
    let s := s.hookRan 1 dq [tid, c.sqe.nsid, c.dstSlba, c.blocks, dq] []
    some (match s.hookBind 1 dq, hook with
    | some b, some (q, k) => if q < 4 ∧ k < 64 ∧ 0 < s.segFree q then (q, k, s) else (dq, tid % 64, s.replacedChoice dq b.handle)
    | some b, none => (dq, tid % 64, s.hookTrap b dq)
    | none, _ => (dq, tid % 64, s))

/-- The stream of a write outside zones (R148, R149, R152, Table 5.5). With FDP it is that of its reclaim unit handle in the reclaim
group named, or in the quadrant with the most free segments where that one has none beyond its GC reserve. -/
def State.convStream (s : State) (c : Cmd) (n : Ns) (hook : Option (Nat × Nat)) : Option (Nat × State) :=
  let fdp := fun (q h : Nat) (s : State) => streamKey (if s.quadRoom q then q else s.freestQuad) (64 + n.ruhs.getD h 0)
  if s.hif.fdp ∧ c.sqe.dtype = 2 then some (fdp (c.sqe.dspec / 16384) (c.sqe.dspec % 16384) s, s)
  else (s.placeWrite c hook).map fun r => (if s.hif.fdp then fdp r.1 0 r.2.2 else streamKey r.1 r.2.1, r.2.2)

/-- The FDP event of a write placed elsewhere than in the reclaim group it names (R152): logged as it is admitted. -/
def State.noteRealloc (s : State) (c : Cmd) (q : Nat) : State :=
  if s.hif.fdp ∧ c.sqe.dtype = 2 ∧ c.sqe.dspec / 16384 ≠ q then
    s.onHif fun x => { x with fdpEvents := (c.sqe.dspec / 16384, c.sqe.dspec % 16384) :: x.fdpEvents }
  else s

/-- The k-th segment of a zone, allocated when the write pointer plus reserved appends first reaches it (R138); none where it cannot
be formed. -/
def State.zoneSeg (s : State) (nsid z k : Nat) (hook : Option Nat) : Option State :=
  if s.med.zseg.get 0 (zkey nsid z * 32 + k) ≠ 0 then some s
  else (s.allocSeg (zoneQuad nsid z) 0 false hook [(((s.ns nsid).bind (·.bind)).map (·.1)).getD 0, nsid, z]).map fun r =>
    r.2.onMed fun m => { m with zseg := m.zseg.set 0 (zkey nsid z * 32 + k) (r.1 + 1) }

/-! ### Final positions of a write outside zones (R134, R148, R164, R83) -/

/-- What a plan places in its stream, in order: the 16 sectors of each whole or merged unit together, the blocks of the others one by
one. -/
def planItems (plan : List (Nat × Nat × Nat)) (bs : List (Nat × Nat)) : List (List Nat) :=
  plan.flatMap fun p =>
    if p.2.1 = 0 ∨ p.2.1 = 3 then [(List.range 16).map (p.1 * 16 + ·)]
    else (bs.filter fun b => b.1 == p.1).map fun b => [b.1 * 16 + b.2]

/-- The positions of a plan's sectors from position `pos` of a stream on. A unit of 16 begins at a multiple of 16, as its coarse entry
needs (R164). With host metadata (`per` blocks to a KIND 1 codeword, else 0) a codeword follows every `per` blocks (R83), or stands
before a unit that would pass them (DESIGN CHOICE, assumption 111). The key and position of each sector, the codewords' positions,
the position that follows, and the blocks since the last codeword. -/
def layItems (per : Nat) : List (List Nat) → Nat → Nat → List (Nat × Nat) × List Nat × Nat × Nat
  | [], pos, c => ([], [], pos, c)
  | it :: t, pos, c =>
    let early := per ≠ 0 ∧ per < c + it.length
    let p0 := if early then pos + 1 else pos
    let p := if it.length = 16 then cdiv p0 16 * 16 else p0
    let c' := (if early then 0 else c) + it.length
    let full := per ≠ 0 ∧ c' = per
    let r := layItems per t (p + it.length + if full then 1 else 0) (if full then 0 else c')
    ((it.zip (List.range it.length)).map (fun x => (x.1, p + x.2)) ++ r.1,
     (if early then [pos] else []) ++ (if full then [p + it.length] else []) ++ r.2.1, r.2.2)

/-- Blocks to a KIND 1 codeword of a namespace's metadata size, 0 without host metadata (R83). -/
def Ns.perMeta (n : Ns) : Nat := if fmtMeta n.fmt = 0 then 0 else if fmtMeta n.fmt = 1 then 512 else 64

/-- Blocks placed in a stream since its last KIND 1 codeword of a namespace's metadata size; a new segment begins again (R83). -/
def State.metaSince (s : State) (k : Nat) (n : Ns) : Nat :=
  let st := s.stream k
  if st.seg.isNone ∨ segSectors ≤ st.pos then 0 else if n.perMeta = 512 then st.m8 else if n.perMeta = 64 then st.m64 else 0

/-- The layout of a plan in a stream as it stands. -/
def State.layPlan (s : State) (k : Nat) (n : Ns) (plan : List (Nat × Nat × Nat)) (bs : List (Nat × Nat)) :=
  layItems n.perMeta (planItems plan bs) (s.stream k).pos (s.metaSince k n)

/-- Take a plan's positions in its stream (R148): the final positions of its first sector and of the first one in a further segment,
and the state with the positions of its KIND 1 codewords kept (R83). -/
def State.takePlan (s : State) (k kind : Nat) (n : Ns) (c : Cmd) (plan : List (Nat × Nat × Nat)) (bs : List (Nat × Nat)) (seg : Option Nat) :
    Option (Option Nat × Option Nat × State) :=
  let who := [s.tenantOf c, c.sqe.nsid, k % 4096]
  match s.streamSeg k kind false seg who with
  | none => none
  | some s =>
    let pos := (s.stream k).pos
    let lay := s.layPlan k n plan bs
    (s.streamTake k kind (lay.2.2.1 - pos) false seg who).map fun r =>
      let info : SMeta := { kind := 1, ns := c.sqe.nsid, tid := s.tenantOf c }
      let s := r.2.2.onMed fun m =>
        { m with streams := m.streams.upd {} k fun y =>
                   if n.perMeta = 512 then { y with m8 := lay.2.2.2 } else if n.perMeta = 64 then { y with m64 := lay.2.2.2 } else y
                 hostMeta := lay.2.1.foldl (fun h p => match destAt r.1 r.2.1 (p - pos) with
                   | some d => h.set none d (some { info := info, data := [] })
                   | none => h) m.hostMeta }
      (r.1, r.2.1, s)

/-- Reserved sectors become entries of the slice. -/
def State.takeSecs (s : State) (slice fsn : Nat) (used : List Nat) : State :=
  s.onLnd fun l => { l with secs := used.foldl (fun m i => m.set none (slice * 4096 + i) (some { fsn := fsn })) l.secs }

/-- Free landing sectors. -/
def State.freeLnd (s : State) (slice : Nat) (used : List Nat) : State :=
  s.onLnd fun l => { l with secs := used.foldl (fun m i => m.set none (slice * 4096 + i) none) l.secs }

/-- A waiting write of lower FSN holds back every later write to its quadrant (R109). -/
def State.heldBack (s : State) (fsn q : Nat) : Bool :=
  s.lnd.waits.any fun f => decide (f < fsn) && (match s.cmd f with | some d => d.quad == q | none => false)

/-- The command has its landing space: slice, sectors, plan, the sector of each block, newly allocated blocks. -/
def Cmd.reserve (c : Cmd) (n : Nat) (used : List Nat) (p : List (Nat × Nat × Nat)) (place : List Nat) (new : Nat) : Cmd :=
  { c with ph := .landing, slice := n, secs := used, plan := p, place := place, left := place.length, newBlk := new }

/-- A write waits for landing space in its quadrant (R109). -/
def State.admitWaits (s : State) (c : Cmd) : State :=
  s.onLnd fun l => { l with waits := if c.fsn ∈ l.waits then l.waits else l.waits ++ [c.fsn] }

/-- Admission of a judged write (R109, R138, R148): its landing space is reserved and its place on the media taken by `take`, or it
waits for landing space; a target group that drowses wakes for it first (R403); a write whose segment cannot be formed stays where it is. -/
def State.admitTo (s : State) (c : Cmd) (bs : List (Nat × Nat)) (q target new : Nat)
    (take : State → List (Nat × Nat × Nat) → Option ((Cmd → Cmd) × State)) : State :=
  let s := s.onCmd c.fsn fun x => { x with quad := q, tried := true }
  if s.unitState (uLnd target) == .drowse then s
  else if s.heldBack c.fsn q then s.admitWaits c
  else match s.reserveIn (if c.sqe.opc = 0x08 then c.plan else s.planOf bs) bs (s.sliceOrder target) with
  | none => (if c.fsn ∈ s.lnd.waits then s else s.raiseEvt F.LND_EVT_FULL F.LND_EVT_CNT_FULL_CNT target).admitWaits c
  | some (n, p, m, used) =>
    match take s p with
    | none => s
    | some (f, s) =>
      let s := s.takeSecs n c.fsn used
      let s := s.onNs c.sqe.nsid fun x => { x with resv := x.resv + new }
      let merged := (p.filter (fun x => x.2.1 == 3)).map (·.1)
      let s := if merged.isEmpty then s else s.onMap fun x => { x with holds := x.holds ++ [(c.fsn, merged, false)] }
      let place := bs.map fun b => ((m.find? (fun x => x.1 == b.1 * 16 + b.2)).map (·.2)).getD 0
      let s := s.onSched fun y => y.chargeClass (arbGroup target) 0 (64 * c.blocks)
      let s := s.onCmd c.fsn fun x => f (x.reserve n used p place new)
      let s := s.onLnd fun l => { l with waits := l.waits.filter (· ≠ c.fsn) }
      s.onMed fun y => { y with lastWr := y.lastWr.set 0 q s.time.frame }

/-- A write waits for admission and may have it in its own right: a write, append or Copy, in its zone's turn (R109, R142). -/
def State.admReady (s : State) (c : Cmd) : Bool :=
  c.ph == .admitWait && c.sq != 0 && [0x01, 0x7D, 0x19, 0x08].contains c.sqe.opc &&
  (match s.ns c.sqe.nsid with | some n => !n.zoned || s.zoneTurn c n | none => false)

/-- The target group of a write (R150): where its first block, or an append's reservation, lies at its final position; outside zones
that of its stream's next data unit, before it has one that of its default stream. -/
def State.admTarget (s : State) (c : Cmd) (n : Ns) : Nat :=
  if n.zoned then
    let zn := s.zone c.sqe.nsid (n.zoneOf c.sqe.slba)
    unitGroup (zoneQuad c.sqe.nsid (n.zoneOf c.sqe.slba)) (zoneUnit n.fmt (zn.wp + zn.apRes)).2
  else if c.tried then s.streamGroup c.stream
  else s.streamGroup (streamKey (s.dfltQuad (s.tenantOf c)) (s.tenantOf c % 64))

/-- The writes that a group's landing admission arbitrates: those ready that do not yet wait for space (R47, Table 2.4). -/
def State.admReqs (s : State) (g : Nat) : List Rq :=
  (s.hif.cmds.filter fun c => s.admReady c && !s.lnd.waits.contains c.fsn && (match s.ns c.sqe.nsid with | some n => s.admTarget c n == g | none => false)).map
    fun c => { cls := 0, tid := s.tenantOf c, fsn := c.fsn, urg := 0, stamp := c.fsn, id := c.fsn }

/-- The group's arbiter picks the write (R47, R54), one page of 16 KiB its maximal operation; one that waits for space has been picked
and follows FSN order (R109; DEDUCED, assumption 106). -/
def State.admPicked (s : State) (c : Cmd) (g : Nat) : Bool :=
  s.lnd.waits.contains c.fsn || ((s.sched.pick (arbGroup g) 1 256 (s.admReqs g)).map (·.id)) == some c.fsn

/-- Admission to a zone (R138, R142 to R144, R150): the segments that the blocks reach are given to the zone, and an append's place is
reserved. -/
def State.admitZone (s : State) (c : Cmd) (n : Ns) (seg : Option Nat) : State :=
  let nsid := c.sqe.nsid
  let z := n.zoneOf c.sqe.slba
  let zn := s.zone nsid z
  let at_ := zn.wp + zn.apRes
  let (k, u) := zoneUnit n.fmt at_
  let k2 := (zoneUnit n.fmt (at_ + c.sqe.cnt - 1)).1
  let q := zoneQuad nsid z
  let bs := rangeBlocks n (z * zsze n.fmt + at_) c.sqe.cnt
  let s := if c.tried then s else s.heatPlan bs
  s.admitTo c bs q (unitGroup q u) c.sqe.cnt fun s _ =>
    ((s.zoneSeg nsid z k seg).bind fun s => s.zoneSeg nsid z k2 seg).map fun s =>
      (fun x => { x with apAt := at_ }, if c.sqe.opc = 0x7D then s.onZone nsid z fun x => { x with apRes := x.apRes + c.sqe.cnt } else s)

/-- Admission outside zones (R148 to R152, R157): the stream is chosen once; its positions are taken with the landing space. -/
def State.admitConv (s : State) (c : Cmd) (n : Ns) (seg : Option Nat) (wr : Option (Nat × Nat)) : State :=
  match (if c.tried then some (c.stream, s) else s.convStream c n wr) with
  | none => s
  | some (k, s) =>
    let q := k / 4096
    let bs := rangeBlocks n c.dstSlba c.blocks
    let s := s.onCmd c.fsn fun x => { x with stream := k }
    if c.sqe.opc = 0x08 then
      -- a Write Zeroes takes landing space for its merged units alone (R111, R167)
      let merged := c.plan.filter fun p => p.2.1 == 3
      s.admitTo { c with plan := merged } [] q (s.streamGroup k) 0 fun s p =>
        let since := s.metaSince k n
        (s.takePlan k (if s.hif.fdp then 2 else 1) n c p bs seg).map fun r =>
          (fun x => { x with dest := r.1, dest2 := r.2.1, since := since, plan := p ++ c.plan.filter fun y => y.2.1 != 3 }, r.2.2)
    else
    let s := if c.tried then s else s.heatPlan bs
    s.admitTo c bs q (s.streamGroup k) (s.newBlocks n c.dstSlba c.blocks) fun s p =>
      let since := s.metaSince k n
      (s.takePlan k (if s.hif.fdp then 2 else 1) n c p bs seg).map fun r =>
        (fun x => { x with dest := r.1, dest2 := r.2.1, since := since },
         (if s.hif.fdp then r.2.2.noteRealloc c q else r.2.2.noteQuad (s.tenantOf c) q c.blocks))

/-- LANDING_ADMIT (R45, R47, R109, R142 to R144, R150 to R152, R157, R161): `seg` and `wr` are what the PLACE_SEG and PLACE_WRITE
hooks returned, used where they are bound. Nothing is admitted in a drain. -/
def State.landingAdmit (s : State) (fsn : Nat) (seg : Option Nat) (wr : Option (Nat × Nat)) : State :=
  match s.cmd fsn with
  | none => s
  | some c =>
    match s.ns c.sqe.nsid with
    | none => s
    | some n =>
      let g := s.admTarget c n
      if s.sched.drain ∨ !s.admReady c ∨ !s.admPicked c g then s
      else
        let s := s.lookAt (arbGroup g) (s.admReqs g)
        let st := if c.sqe.opc = 0x08 then stOk else if !n.zoned then s.judgeConv n c.dstSlba c.blocks else if c.sqe.opc = 0x7D then s.judgeAppend c n else s.judgeZoneWrite c n
        if st ≠ stOk then (s.onLnd fun l => { l with waits := l.waits.filter (· ≠ fsn) }).complete fsn st
        else if n.zoned then s.admitZone c n seg else s.admitConv c n seg wr

def execLandingAdmit (fsn : Nat) (seg : Option Nat) (wr : Option (Nat × Nat)) (s : State) : Out :=
  .next (s.landingAdmit fsn seg wr)

/-! ### Unit holds -/

/-- Unit holds the table has (R168). -/
def holdTable : Nat := 512

/-- Unit holds held. -/
def State.holdsUsed (s : State) : Nat := (s.map.holds.filter (·.2.2)).foldl (fun a h => a + h.2.1.length) 0

/-- A merged write may take its holds: no lower-FSN merged write holds or waits for one of its units, and none of lower
FSN waits for lack of entries (R168). -/
def State.holdFree (s : State) (fsn : Nat) (us : List Nat) : Bool :=
  !(s.map.holds.any fun h => h.1 != fsn && (h.2.2 || decide (h.1 < fsn)) && h.2.1.any us.contains) &&
  decide (s.holdsUsed + us.length ≤ holdTable) &&
  !(s.map.holds.any fun h => !h.2.2 && decide (h.1 < fsn) && decide (holdTable < s.holdsUsed + h.2.1.length))

/-- The sectors of the units a write merges that it does not write itself (R168). -/
def fillKeys (c : Cmd) (n : Ns) (us : List Nat) : List Nat :=
  let bs := rangeBlocks n c.sqe.slba c.blocks
  us.flatMap fun u => (List.range 16).filterMap fun k => if bs.any (fun b => b.1 == u && b.2 == k) then none else some (u * 16 + k)

/-- Those of them that a fill reads from media. -/
def State.fillReads (s : State) (c : Cmd) (n : Ns) (us : List Nat) : List (Nat × Ent) :=
  (fillKeys c n us).filterMap fun key => match s.lookup key with | .media ch lun p w => some (key, .media ch lun p w) | _ => none

/-- Page reads charged as LUN time of their tier to a class and a tenant (R46). -/
def State.chargePages (s : State) (cls tid : Nat) (pages : List (Nat × Nat × Nat)) : State :=
  pages.foldl (fun s x =>
    let slc := (s.chunk (chunkKey x.1 x.2.1 (x.2.2 / chunkPages))).slc
    s.chargeAt (arbChan x.1) 0 cls tid (if slc then s.get2 F.FCH_OPT0_RD_SLC x.1 else s.get2 F.FCH_OPT0_RD_QLC x.1)) s

/-- The fills are looked up (R171), and their reads charged to the writing tenant as LUN time of its class: one page read for each page that holds a sector the fill
needs (R46, R168). -/
def State.chargeFills (s : State) (c : Cmd) (us : List Nat) : State :=
  match s.ns c.sqe.nsid with
  | none => s
  | some n =>
    let pages := ((s.fillReads c n us).map fun x => match x.2 with | .media ch lun p _ => (ch, lun, p) | _ => (0, 0, 0)).eraseDups
    (s.walkAll (fillKeys c n us)).chargePages 0 (s.tenantOf c) pages

/-- UNIT_HOLD_GRANT (R168): a merged write is granted its unit holds; its fill reads begin, charged to its tenant. -/
def State.holdGrant (s : State) (fsn : Nat) : State :=
  match s.map.holds.find? (fun h => h.1 == fsn && !h.2.2) with
  | some h =>
    if s.holdFree fsn h.2.1 then
      let s := s.onMap fun m => { m with holds := m.holds.map fun x => if x.1 = fsn then (x.1, x.2.1, true) else x }
      match s.cmd fsn with
      | some c => s.chargeFills c h.2.1
      | none => s
    else s
  | none => s

def execUnitHoldGrant (fsn : Nat) (s : State) : Out := .next (s.holdGrant fsn)

/-! ### Landing commit -/

/-- A merge fill of one sector (R168): the unit's present data, zeros where it was ZERO, zeros flagged unwritten where
it was UNMAPPED. The rule does not name a sector marked POISON: it fills as UNMAPPED does, so that the poison does not spread to the
new unit (DESIGN CHOICE, assumption 112). -/
def State.fillOf (s : State) (key bytes : Nat) : List Byte × Bool :=
  match s.lookup key with
  | .landing sl sec => match s.lnd.secs.get none (sl * 4096 + sec) with
    | some x => (x.data, x.info.unwritten) | none => (zeros bytes, true)
  | .media ch lun p w => match s.med.secs.get none (mloc ch lun p w) with
    | some x => (x.data, x.info.unwritten) | none => (zeros bytes, true)
  | .zero => (zeros bytes, false)
  | _ => (zeros bytes, true)

/-- The sector metadata of a block (Table 8.1). -/
def secInfo (nsid key wsn tid zoff : Nat) (unwritten : Bool) : SMeta :=
  { kind := 0, ns := nsid, key := key, wsn := wsn, unwritten := unwritten, tid := tid, zoff := zoff }

/-- The words of a sector have come over the fabric from the front end: its first takes a flip armed for the front end (R345). -/
def State.ingress (s : State) (slice i d : Nat) : State :=
  if s.fabricHits uFront then s.sendWord uFront (uLnd slice) (sramLoc (uLnd slice) (4096 * i)) d else s

/-- Put a committed sector into a slice: its words hold it (R267). -/
def State.landSec (s : State) (slice i fsn grp : Nat) (info : SMeta) (d : List Byte) (dest : Option Nat) : State :=
  ((s.onLnd fun l => { l with secs := l.secs.set none (slice * 4096 + i) (some
    { fsn := fsn, here := true, done := true, group := grp, info := info, data := d, dest := dest }) }).wroteSector slice i).ingress slice i (ofLe (d.take 8))

/-- The data of a write's i-th block in the host buffer. -/
def blockData (d : List Byte) (bytes i : Nat) : List Byte := (d.drop (i * bytes)).take bytes

/-- Commit one unit of a plan: its map entries point at the slice (R108, R110, R166 to R168). -/
def State.commitUnit (s : State) (slice : Nat) (p : Nat × Nat × Nat) (blocks : List (Nat × Nat)) : State :=
  let u := p.1
  if p.2.1 = 0 ∨ p.2.1 = 3 then s.setCoarse u (.landing slice p.2.2)
  else
    let s := match s.coarse u with
      | .fine _ => s
      | _ => s.promote u
    (blocks.foldl (fun s b => if b.1 / 16 = u then s.setFine b.1 (.landing slice b.2) else s) s).touchFine u

/-- The next WSN, with its high-water mark rewritten 2^20 ahead when the counter reaches it (R37). -/
def State.takeWsn (s : State) : State :=
  s.onLnd fun l => { l with wsn := l.wsn + 1, mark := if l.mark ≤ l.wsn + 1 then l.wsn + 1 + 2 ^ 20 else l.mark }

/-- Open one journal group of a command: one run of at most 512 blocks (R114, R186). -/
def State.openGroup (s : State) (kind fsn ns wsn : Nat) (secs : List Nat) (recs : List JRec) : State :=
  s.onJnl fun j => { j with nextId := j.nextId + 1, groups := j.groups ++ [{ id := j.nextId, kind := kind, fsn := fsn, ns := ns, wsn := wsn, secs := secs, recs := recs }] }

/-- Runs of at most 512 of a list. -/
def runs512 {α : Type} : Nat → List α → List (List α)
  | 0, _ => []
  | n + 1, l => if l.isEmpty then [] else l.take 512 :: runs512 n (l.drop 512)

/-- A ZONE record (Table 6.4). -/
def zoneRec (nsid z : Nat) (zn : Zone) : JRec := { typ := 5, sub := zn.st.code, a := (nsid - 1) * 2 ^ 36 + z, b := zn.wp }

/-- Advance a zone's write pointer at commit: an Empty or Closed zone is Implicitly Opened, and one that reaches ZCAP is Full (Table
5.4). -/
def Zone.advance (zn : Zone) (cnt cap : Nat) (append : Bool) : Zone :=
  { zn with wp := zn.wp + cnt, apRes := if append then zn.apRes - cnt else zn.apRes,
            st := if cap ≤ zn.wp + cnt then .full else if zn.st = .empty ∨ zn.st = .closed then .impOpen else zn.st }

/-- The PROMOTE records of the units of a list that were promoted between two states (Table 6.4). -/
def State.promRecs (before after : State) (us : List Nat) : List JRec :=
  us.filterMap fun u => match after.coarse u with
    | .fine r => if before.coarse u = .fine r then none else some { typ := 8, sub := 0, a := u, b := r }
    | _ => none

/-- A committed write completes; a completion that is posted makes it one that a later Flush covers (R117). -/
def State.commitDone (s : State) (c : Cmd) (dw0 : Nat) : State :=
  let posted := !c.mute && (c.tunnel || !s.postsStopped)
  let s := s.complete c.fsn stOk dw0
  if posted then s.onHif fun h => { h with posted := h.posted ++ [(c.fsn, c.sqe.nsid)] } else s

/-- The plan of an append that commits elsewhere than its reservation (R144, R150): it keeps its slice, in sectors of its own or free
ones; a partial unit that could only be merged needs its hold. None while it has to wait for one. -/
def State.replan (s : State) (c : Cmd) (bs : List (Nat × Nat)) : Option (List (Nat × Nat × Nat) × List (Nat × Nat) × List Nat) :=
  let plan := s.planOf bs
  let free := ((List.range sliceSectors).filter fun i => c.secs.contains i || ((s.lnd.secs.find (c.slice * 4096 + i)).isNone && !s.secRemoved c.slice i))
  if plan.any (fun p => p.2.1 == 3 && s.map.holds.any (fun h => h.1 != c.fsn && h.2.1.contains p.1)) then none
  else placePlan plan bs free

/-- The blocks of a commit: what it is placed by. The plan, the key and sector of each block, the sectors taken. -/
def State.commitPlan (s : State) (c : Cmd) (bs : List (Nat × Nat)) : Option (List (Nat × Nat × Nat) × List (Nat × Nat) × List Nat) :=
  if unitsOf bs = c.plan.map (·.1) ∧ (c.sqe.opc ≠ 0x7D ∨ (s.zone c.sqe.nsid (c.sqe.slba / zsze (((s.ns c.sqe.nsid).map (·.fmt)).getD 0))).wp = c.apAt) then
    some (c.plan, (bs.zip c.place).map (fun x => (x.1.1 * 16 + x.1.2, x.2)), c.secs)
  else s.replan c bs

/-- The final position of a block's sector: its zone block's, or in its stream the one its plan gives (R134, R137, R148). -/
def State.destOf (s : State) (c : Cmd) (n : Ns) (lay : List (Nat × Nat)) (key i : Nat) : Option Nat :=
  if n.zoned then s.zoneDest c.sqe.nsid (n.zoneOf c.sqe.slba) n.fmt i
  else ((lay.find? fun x => x.1 == key).map (·.2)).bind fun p => destAt c.dest c.dest2 p

/-- A block's host metadata joins the KIND 1 codeword of its zone's segment (R137). -/
def State.stageMeta (s : State) (nsid : Nat) (n : Ns) (z b : Nat) (info : SMeta) (md : List Byte) : State :=
  let h := hostUnits (fmtMeta n.fmt)
  let per := 64 * h
  match s.med.zseg.get 0 (zkey nsid z * 32 + b / per) with
  | 0 => s
  | g + 1 =>
    let d := g * 65536 + 64 * h + b % per / n.perMeta
    s.onMed fun m => { m with hostMeta := m.hostMeta.upd none d fun o => match o with
                                  | some x => some { x with data := x.data ++ md, info := { x.info with wsn := max x.info.wsn info.wsn } }
                                  | none => some { info := { info with kind := 1, unwritten := false, zoff := 0 }, data := md } }

/-- LANDING_COMMIT (R110, R113): `src` is the data to land (the host buffer, or a Copy's source blocks). The WSN is
assigned, the map points at the slice, locks are released, the groups are opened, and the completion is posted unless
the command behaves as FUA. -/
def State.commitWrite (s : State) (c : Cmd) (n : Ns) (src : List Byte) : State :=
  let nsid := c.sqe.nsid
  let z := n.zoneOf c.sqe.slba
  let rel := if c.sqe.opc = 0x7D then (s.zone nsid z).wp else c.sqe.slba - z * zsze n.fmt
  let start := if c.sqe.opc = 0x7D then z * zsze n.fmt + rel else c.dstSlba
  let bs := rangeBlocks n start c.blocks
  match s.commitPlan c bs with
  | none => s
  | some (plan, pairs, used) =>
    let wsn := s.lnd.wsn
    let tid := s.tenantOf c
    let s := ((s.freeLnd c.slice c.secs).takeSecs c.slice c.fsn used).takeWsn
    let bytes := n.blockBytes
    let pos := (c.dest.getD 0) % 65536
    let lay := (layItems n.perMeta (planItems plan bs) pos c.since).1.map fun x => (x.1, x.2 - pos)
    let groupOf := fun (i : Nat) => s.jnl.nextId + i / 512
    -- the fills of a merged unit belong to the group of its last host block
    let lastOf := fun (u : Nat) => ((bs.zip (List.range bs.length)).filter fun x => x.1.1 == u).foldl (fun _ x => x.2) 0
    let fills := plan.flatMap fun p =>
      if p.2.1 = 3 then ((List.range 16).filter fun k => !(bs.any fun b => b.1 == p.1 && b.2 == k)).map fun k => (p.1 * 16 + k, p.2.2 + k) else []
    let zoff := fun (key : Nat) => if n.zoned then
        (((bs.zip (List.range bs.length)).find? fun x => x.1.1 == key / 16).map fun x => rel + x.2 + key % 16 - x.1.2).getD 0 else 0
    let s := fills.foldl (fun s f => s.walk f.1) s
    let filled := fills.map fun f => (f.1, f.2, s.fillOf f.1 bytes)
    let s := filled.foldl (fun s f =>
      let dest := if n.zoned then (if f.2.2.2 then none else s.destOf c n lay f.1 (zoff f.1)) else s.destOf c n lay f.1 0
      s.landSec c.slice f.2.1 c.fsn (groupOf (lastOf (f.1 / 16))) (secInfo nsid f.1 wsn tid (zoff f.1) f.2.2.2) f.2.2.1 dest) s
    let s := (pairs.zip (List.range pairs.length)).foldl (fun s x =>
      let info := secInfo nsid x.1.1 wsn tid (if n.zoned then rel + x.2 else 0) false
      let d := blockData src bytes x.2
      let s := s.landSec c.slice x.1.2 c.fsn (groupOf x.2) info d (s.destOf c n lay x.1.1 (rel + x.2))
      if n.zoned ∧ n.perMeta ≠ 0 then s.stageMeta nsid n z (rel + x.2) info (d.drop 4096) else s) s
    let before := s
    let s := s.walkAll (pairs.map (·.1))
    let s := plan.foldl (fun s p => s.commitUnit c.slice p pairs) s
    let proms := before.promRecs s (plan.map (·.1))
    let s := if n.zoned then s.onZone nsid z fun x => x.advance c.blocks (zcap n.fmt) (c.sqe.opc == 0x7D) else s
    let s := s.onNs nsid fun x => { x with nuse := x.nuse + c.newBlk, resv := x.resv - c.newBlk }
    let zr := if n.zoned then [zoneRec nsid z (s.zone nsid z)] else []
    let runs := runs512 8 (pairs.map (·.2))
    let ids := (List.range runs.length).map (s.jnl.nextId + ·)
    let s := (runs.zip (List.range runs.length)).foldl (fun s r =>
      let fsecs := (fills.filter fun f => lastOf (f.1 / 16) / 512 == r.2).map (·.2)
      s.openGroup 0 c.fsn nsid wsn ((r.1 ++ fsecs).map (c.slice * 4096 + ·)) ((if r.2 = 0 then proms else []) ++ (if r.2 + 1 = runs.length then zr else []))) s
    let s := s.onLnd fun l => { l with last := l.last.set 0 c.slice wsn }
    let s := (s.unlock c.fsn).onMap fun m => { m with holds := m.holds.filter (fun h => h.1 != c.fsn) }
    let lba := if c.sqe.opc = 0x7D then start else 0
    if s.fuaLike c then s.onCmd c.fsn fun x => { x with ph := .fuaWait, groups := ids, dw0 := lba, left := 0, secs := used }
    else s.commitDone c lba

/-! ### Write Zeroes (R110, R111, R157, R166 to R168) -/

/-- Set one block's entry where the unit is promoted, promoting it first. -/
def State.setBlock (s : State) (key : Nat) (e : Ent) : State :=
  match s.coarse (key / 16) with
  | .fine _ => s.setFine key e
  | _ => (s.promote (key / 16)).setFine key e

/-- The MAP records of a range mapped to one special entry (R186). -/
def mapRangeRecs (bs : List (Nat × Nat)) (e : Ent) : List JRec :=
  (unitsOf bs).flatMap fun u =>
    let mine := bs.filter (fun b => b.1 == u)
    if mine.length = 16 then [{ typ := 2, sub := 0xFF, a := u, b := e.encode }]
    else mine.map fun b => { typ := 2, sub := b.2, a := b.1 * 16 + b.2, b := e.encode }

/-- Map the blocks of a Write Zeroes that are not merged: whole units coarse, the others' sectors fine, counted as a write to their
record (R165 to R167). -/
def State.mapZeroes (s : State) (plan : List (Nat × Nat × Nat)) (bs : List (Nat × Nat)) : State :=
  plan.foldl (fun s p =>
    let mine := bs.filter (fun b => b.1 == p.1)
    if p.2.1 = 0 then s.setCoarse p.1 .zero
    else if p.2.1 = 3 then s
    else (mine.foldl (fun s b => s.setBlock (b.1 * 16 + b.2) .zero) s).touchFine p.1) s

/-- Write Zeroes commits (R110, R111, R157): a WSN, its blocks mapped to ZERO, out of NUSE, its entry released; it completes, or as FUA
waits for its groups. A unit merged under R167 is rewritten in its landing sectors, its blocks as zeros. -/
def State.commitZeroes (s : State) (c : Cmd) (n : Ns) : State :=
  let nsid := c.sqe.nsid
  let bs := rangeBlocks n c.sqe.slba c.sqe.cnt
  let wsn := s.lnd.wsn
  let tid := s.tenantOf c
  let gone := c.sqe.cnt - s.newBlocks n c.sqe.slba c.sqe.cnt
  let before := s
  let s := s.takeWsn.walkAll (bs.map fun b => b.1 * 16 + b.2)
  let lastOf := fun (u : Nat) => ((bs.zip (List.range bs.length)).filter fun x => x.1.1 == u).foldl (fun _ x => x.2) 0
  let merged := c.plan.filter fun p => p.2.1 == 3
  let lay := (layItems n.perMeta (planItems merged bs) ((c.dest.getD 0) % 65536) c.since).1.map fun x => (x.1, x.2 - (c.dest.getD 0) % 65536)
  let secs := merged.flatMap fun p => (List.range 16).map fun k => (p.1 * 16 + k, p.2.2 + k,
    if bs.contains (p.1, k) then (zeros n.blockBytes, false) else s.fillOf (p.1 * 16 + k) n.blockBytes)
  let s := secs.foldl (fun s x => s.landSec c.slice x.2.1 c.fsn (s.jnl.nextId + lastOf (x.1 / 16) / 512)
    (secInfo nsid x.1 wsn tid 0 x.2.2.2) x.2.2.1 (s.destOf c n lay x.1 0)) s
  let s := merged.foldl (fun s p => s.setCoarse p.1 (.landing c.slice p.2.2)) (s.mapZeroes c.plan bs)
  let s := s.onNs nsid fun x => { x with nuse := x.nuse - gone }
  let runs := runs512 8 bs
  let proms := before.promRecs s (unitsOf bs)
  let ids := (List.range runs.length).map (s.jnl.nextId + ·)
  let s := (runs.zip (List.range runs.length)).foldl (fun s r =>
    let mine := (secs.filter fun x => lastOf (x.1 / 16) / 512 == r.2).map fun x => c.slice * 4096 + x.2.1
    s.openGroup 0 c.fsn nsid wsn mine ((if r.2 = 0 then proms else []) ++ mapRangeRecs (r.1.filter fun b => !merged.any fun p => p.1 == b.1) .zero)) s
  let s := (s.unlock c.fsn).onMap fun m => { m with holds := m.holds.filter (fun h => h.1 != c.fsn) }
  if s.fuaLike c then s.onCmd c.fsn fun x => { x with ph := .fuaWait, groups := ids }
  else s.commitDone c 0

/-- A Write Zeroes holds its entry (R111, R161, R167): judged against the read-only state then; its partial units are counted, and it
commits at once unless one of them has to be merged, which takes landing space first (DEDUCED, assumption 110). -/
def State.zeroesGranted (s : State) (fsn : Nat) : State :=
  match s.cmd fsn with
  | none => s
  | some c =>
    match s.ns c.sqe.nsid with
    | none => s
    | some n =>
      if c.ph ≠ .admitWait ∨ c.sq = 0 ∨ c.sqe.opc ≠ 0x08 ∨ c.tried then s
      else if s.lvl.rdonly then s.complete fsn stWriteProtected
      else
        let bs := rangeBlocks n c.sqe.slba c.sqe.cnt
        let s := s.heatPlan bs
        let plan := s.planOf bs
        if plan.any fun p => p.2.1 == 3 then s.onCmd fsn fun x => { x with plan := plan }
        else s.commitZeroes { c with plan := plan } n

/-- RANGE_LOCK_GRANT (R106, R111): the command is granted its entries if it waits for them, may have them, and no command of lower FSN
could be granted its own; a Write Zeroes commits with it. -/
def State.rangeGrant (s : State) (fsn : Nat) : State :=
  match s.cmd fsn with
  | some c =>
    if c.ph = .lockWait ∧ s.lockFree fsn ∧ !(s.lockWaiters.any fun f => decide (f < fsn) && s.lockFree f) then (s.grantLocks fsn).zeroesGranted fsn
    else s
  | none => s

def execRangeLockGrant (fsn : Nat) (s : State) : Out := .next (s.rangeGrant fsn)

/-! ### LANDING_COMMIT -/

/-- Is a merged write's every hold granted (R168)? -/
def State.holdsGranted (s : State) (fsn : Nat) : Bool := !s.map.holds.any fun h => h.1 == fsn && !h.2.2

/-- Discard a write that has not committed: its reserved sectors freed, its place in the zone and its counted blocks
returned; DISCARD where sectors had landed (R110, R121, R144, R157). -/
def State.discardWrite (s : State) (c : Cmd) (event : Bool) : State :=
  let landed := c.ph = .landing ∧ c.left < c.blocks
  let s := s.freeLnd c.slice c.secs
  let s := if c.ph = .landing then
      let s := s.onNs c.sqe.nsid fun x => { x with resv := x.resv - c.newBlk }
      match s.ns c.sqe.nsid with
      | some n => if n.zoned ∧ c.sqe.opc = 0x7D then s.onZone c.sqe.nsid (n.zoneOf c.sqe.slba) fun x => { x with apRes := x.apRes - c.sqe.cnt } else s
      | none => s
    else s
  let s := if event ∧ landed then s.raiseEvt F.LND_EVT_DISCARD F.LND_EVT_CNT_DISC_CNT c.slice else s
  (s.onMap fun m => { m with holds := m.holds.filter fun h => h.1 != c.fsn }).onLnd fun l => { l with waits := l.waits.filter (· ≠ c.fsn) }

/-- The landing commit of a write whose every sector has arrived (R110); its fills wait for a map page that is being rebuilt (R192). A
write whose protection information fails its check is discarded (R83). -/
def State.landingCommit (s : State) (fsn : Nat) : State :=
  match s.cmd fsn with
  | none => s
  | some c =>
    match s.ns c.sqe.nsid with
    | none => s
    | some n =>
      if c.ph = .landing ∧ c.left = 0 ∧ s.holdsGranted fsn ∧ s.pagesOk (c.plan.map fun p => p.1 * 16) then
        if c.sqe.opc = 0x08 then s.commitZeroes c n
        else if c.sqe.opc = 0x19 then s.commitWrite c n c.sqe.data
        else if n.writeGuard c c.blocks c.sqe.data ≠ stOk then (s.discardWrite c false).complete fsn (n.writeGuard c c.blocks c.sqe.data)
        else s.commitWrite c n (n.written c c.blocks c.sqe.data)
      else s

def execLandingCommit (fsn : Nat) (s : State) : Out := .next (s.landingCommit fsn)

/-! ### Closing journal groups -/

/-- The 16 bytes of a journal record (R185). -/
def JRec.bytes (r : JRec) : List Byte := leBytes 1 r.typ ++ leBytes 1 r.sub ++ leBytes 6 r.a ++ leBytes 8 r.b

/-- The sector of a landing key. -/
def State.lsec (s : State) (k : Nat) : Option LSec := s.lnd.secs.get none k

/-- Every sector of a group is programmed (R114). -/
def State.groupDone (s : State) (g : JGroup) : Bool :=
  g.secs.all fun k => match s.lsec k with | some x => x.prog && x.loc.isSome | none => false

/-- The runs of keys that a group's records and sectors concern, first and last. -/
def State.groupSpans (s : State) (g : JGroup) : List (Nat × Nat) :=
  (g.recs.filterMap fun r => match r.typ with
    | 2 => some (if r.sub = 0xFF then (r.a * 16, r.a * 16 + 15) else (r.a / 16 * 16, r.a / 16 * 16 + 15))
    | 4 => some (r.a, r.a + r.b - 1)
    | 8 => some (r.a * 16, r.a * 16 + 15)
    | _ => none) ++
  (g.secs.filterMap fun k => (s.lsec k).map fun x => (x.info.key / 16 * 16, x.info.key / 16 * 16 + 15)) ++
  g.moves.map fun m => (m.1 / 16 * 16, m.1 / 16 * 16 + 15)

/-- The zones that a group's ZONE records name. -/
def JGroup.zones (g : JGroup) : List Nat := (g.recs.filter fun r => r.typ == 5).map (·.a)

/-- An earlier group must close before this one: of the same command (R114), or with records of the same zone or the same units, so that
replay ends at the newest (R128, R186). -/
def State.groupAfter (s : State) (g h : JGroup) : Bool :=
  (h.fsn == g.fsn && g.fsn != 0) || h.zones.any g.zones.contains ||
  (s.groupSpans h).any fun a => (s.groupSpans g).any fun b => decide (a.1 ≤ b.2) && decide (b.1 ≤ a.2)

/-- No earlier group that must close first is open (R114, R128). -/
def State.groupFirst (s : State) (g : JGroup) : Bool := !(s.jnl.groups.any fun h => decide (h.id < g.id) && s.groupAfter g h)

/-- The coarse units whose coarse entry names sectors of a list of landing keys as one run, with their media entry when
the 16 programmed locations can be named by one (R164). -/
def State.coarseMove (s : State) (u : Nat) : Option Ent :=
  match s.coarse u with
  | .landing sl sec =>
    let locs := (List.range 16).map fun k => (s.lsec (sl * 4096 + sec + k)).bind (·.loc)
    match locs.headD none with
    | some l0 => if l0 % 4 = 0 ∧ locs = (List.range 16).map (fun k => some (l0 + k)) then some (locEnt l0) else none
    | none => none
  | _ => none

/-- Keys of the sectors of a group whose entry still names the landing sector. -/
def State.groupKeys (s : State) (g : JGroup) : List (Nat × Nat × Nat) :=
  g.secs.filterMap fun k => match s.lsec k with
    | some x => if s.lookup x.info.key = .landing (k / 4096) (k % 4096) then x.loc.map (fun l => (k, x.info.key, l)) else none
    | none => none

/-- Sectors of a group in a coarse unit that a later group of its command shares, its unit still mapped as one run of the slice: they
stay in the slice until the last of these groups closes (R114, R164). -/
def State.heldOver (s : State) (g : JGroup) : List Nat :=
  g.secs.filter fun k => match s.lsec k with
    | some x => (match s.coarse (x.info.key / 16) with | .landing _ _ => true | _ => false) &&
        s.jnl.groups.any fun h => h.fsn == g.fsn && g.fsn != 0 && decide (g.id < h.id) &&
          h.secs.any fun j => match s.lsec j with | some y => y.info.key / 16 == x.info.key / 16 | none => false
    | none => false

/-- Move one entry from its landing sector to its media location, promoting its unit where one coarse entry cannot name
its sectors (R164, R182). -/
def State.moveToMedia (s : State) (k key loc : Nat) : State :=
  if s.lookup key ≠ .landing (k / 4096) (k % 4096) then s
  else
    match s.coarse (key / 16) with
    | .fine _ => s.setFine key (locEnt loc)
    | _ => match s.coarseMove (key / 16) with
      | some e => s.setCoarse (key / 16) e
      | none => (s.promote (key / 16)).setFine key (locEnt loc)

/-- The MAP records of a group (R186): one for each whole coarse unit and one for each fine sector. A unit shared with a later group
of the command is recorded sector by sector, so that what survives holds no part of a group not closed. -/
def State.mapRecs (s : State) (g : JGroup) : List JRec :=
  let keys := s.groupKeys g
  let held := s.heldOver g
  let units := (keys.map (fun x => x.2.1 / 16)).eraseDups
  units.flatMap fun u => match (if keys.any (fun x => x.2.1 / 16 == u && held.contains x.1) then none else s.coarseMove u) with
    | some e => [{ typ := 2, sub := 0xFF, a := u, b := e.encode }]
    | none => (keys.filter (fun x => x.2.1 / 16 == u)).map fun x => { typ := 2, sub := x.2.1 % 16, a := x.2.1, b := (locEnt x.2.2).encode }

/-- Units that a group's closing promotes: mapped as a run of the slice, programmed where one coarse entry cannot name them. -/
def State.closeProms (s : State) (g : JGroup) : List Nat :=
  let held := s.heldOver g
  ((((s.groupKeys g).filter fun x => !held.contains x.1).map fun x => x.2.1 / 16).eraseDups).filter fun u =>
    !s.isFine u && (s.coarseMove u).isNone

/-- The copies of a group that still name their source and are programmed: key and media location (R169, R177, R182). -/
def State.liveMoves (s : State) (g : JGroup) : List (Nat × Nat) :=
  let ms := g.moves.filterMap fun m => if s.lookup m.1 = m.2.1 then ((s.lsec m.2.2).bind (·.loc)).map (fun l => (m.1, l)) else none
  -- a demotion stands only if its record's write count is unchanged (R169)
  if g.kind = 3 then
    let u := (g.moves.headD (0, .unmapped, 0)).1 / 16
    match s.coarse u with
    | .fine r => if ms.length = 16 ∧ ((s.fineRec r).map (·.writes)) = some g.src then ms else []
    | _ => []
  else ms

/-- The media entry that names 16 copied sectors of a unit as one run, when all 16 move and are contiguous (R164). -/
def unitRun (ms : List (Nat × Nat)) (u : Nat) : Option Ent :=
  let mine := ms.filter (fun x => x.1 / 16 == u)
  match mine with
  | (_, l0) :: _ => if l0 % 4 = 0 ∧ mine = (List.range 16).map (fun k => (u * 16 + k, l0 + k)) then some (locEnt l0) else none
  | [] => none

/-- Units that the commit of copies promotes: coarse-mapped, and moved in part or to places that one coarse entry cannot name. -/
def State.moveProms (s : State) (ms : List (Nat × Nat)) : List Nat :=
  ((ms.map (fun x => x.1 / 16)).eraseDups).filter fun u => (unitRun ms u).isNone && !s.isFine u

/-- A unit copied whole becomes or stays coarse: a demotion's, or one that is not promoted (R169, R182). -/
def State.moveCoarse (s : State) (kind : Nat) (ms : List (Nat × Nat)) (u : Nat) : Option Ent :=
  if kind = 3 ∨ !s.isFine u then unitRun ms u else none

/-- MAP records of a group's copies, a demotion's as PROMOTE of SUB 1 (R186). -/
def State.moveRecs (s : State) (kind : Nat) (ms : List (Nat × Nat)) : List JRec :=
  ((ms.map (fun x => x.1 / 16)).eraseDups).flatMap fun u => match s.moveCoarse kind ms u with
    | some e => [{ typ := if kind = 3 then 8 else 2, sub := if kind = 3 then 1 else 0xFF, a := u, b := e.encode }]
    | none => (ms.filter (fun x => x.1 / 16 == u)).map fun x => { typ := 2, sub := x.1 % 16, a := x.1, b := (locEnt x.2).encode }

/-- Commit the copies of a group (R182): a unit copied whole becomes coarse, others their fine entries. -/
def State.commitMoves (s : State) (kind : Nat) (ms : List (Nat × Nat)) : State :=
  ((ms.map (fun x => x.1 / 16)).eraseDups).foldl (fun s u => match s.moveCoarse kind ms u with
    | some e => s.setCoarse u e
    | none => (ms.filter (fun x => x.1 / 16 == u)).foldl (fun s x => match s.coarse u with
      | .fine _ => s.setFine x.1 (locEnt x.2)
      | _ => (s.promote u).setFine x.1 (locEnt x.2)) s) s

/-- The records of a closed group: OPEN, its records, CLOSE with one CRC-32C (R185, Table 6.4). -/
def closedRecs (g : JGroup) (mid : List JRec) : List JRec :=
  let op : JRec := { typ := 1, sub := g.kind, a := if g.kind = 0 then (g.ns - 1) * 2 ^ 36 else 0, b := if g.kind = 0 then g.wsn else if g.kind ≤ 2 then g.src else 0 }
  let body := op :: mid
  body ++ [{ typ := 3, sub := 0, a := body.length, b := crc32c (body.flatMap JRec.bytes) }]

/-- Records the MRAM ring holds (16 MiB of 16 bytes, R187). -/
def ringRecs : Nat := 1048576

/-- Append records to the journal (R187). -/
def State.jnlAppend (s : State) (rs : List JRec) : State :=
  s.onJnl fun j =>
    { j with
        recs := j.recs ++ (rs.zip (List.range rs.length)).map (fun x => (j.pos + 16 * x.2, x.1))
        ring := j.ring + rs.length
        pos := (j.pos + 16 * rs.length) % 2 ^ 64
        clean := false }

/-- The ring has room for these records, and no group waits before them (R187). -/
def State.ringRoom (s : State) (n : Nat) : Bool := decide (s.jnl.ring + n ≤ ringRecs) && s.jnl.wait.isEmpty

/-- The records of a group that is written as it stands: to the ring, or held until it has room, which FULL records (R187). -/
def State.jnlGroup (s : State) (rs : List JRec) : State :=
  if s.ringRoom rs.length then s.jnlAppend rs
  else (s.onJnl fun j => { j with wait := j.wait ++ [rs] }).raiseEvt F.MRC_JNL_EVT_FULL F.MRC_JNL_EVT_CNT_FULL_CNT

/-- Groups that wait for ring space are written while it has room (R187). -/
def State.drainWait (s : State) : Nat → State
  | 0 => s
  | k + 1 => match s.jnl.wait with
    | [] => s
    | rs :: t => if s.jnl.ring + rs.length ≤ ringRecs then ((s.jnlAppend rs).onJnl fun j => { j with wait := t }).drainWait k else s

/-- A system group written at once (kind 4). -/
def State.jnlSystem (s : State) (rs : List JRec) : State := s.jnlGroup (closedRecs { id := 0, kind := 4, fsn := 0, ns := 1, wsn := 0 } rs)

/-- A sector becomes POISON, with its record in a system group of the journal (R170). -/
def State.poisonKey (s : State) (key : Nat) : State :=
  let t := s.markPoison key
  let u := key / 16
  t.jnlSystem (s.promRecs t [u] ++ [if t.isFine u then { typ := 2, sub := key % 16, a := key, b := Ent.poison.encode } else { typ := 2, sub := 0xFF, a := u, b := Ent.poison.encode }])

/-- A committed landing sector whose data is lost: where the map still points at it, its block becomes POISON (Tables 11.3, 11.4). -/
def State.poisonLanded (s : State) (lk : Nat) (x : LSec) : State :=
  if s.lookup x.info.key = .landing (lk / 4096) (lk % 4096) then s.poisonKey x.info.key else s


/-- A waiting FUA write completes when its last group has closed (R116). -/
def State.fuaDone (s : State) (fsn gid : Nat) : State :=
  match s.cmd fsn with
  | some c =>
    let left := c.groups.filter (· ≠ gid)
    if c.ph = .fuaWait ∧ left.isEmpty then s.complete fsn stOk c.dw0 else s.onCmd fsn fun x => { x with groups := left }
  | none => s

/-- A waiting Flush completes when no covered write has a group open (R117), or PRESENT has returned to 0 (R118). -/
def State.flushDone (s : State) : State :=
  (s.hif.cmds.filter (fun c => c.ph == .flushWait)).foldl (fun s c =>
    if !s.pwr.present || c.cover.all (fun f => !s.jnl.groups.any (fun g => g.fsn == f)) then s.complete c.fsn stOk else s) s

/-- CATCHUP of a slice (R119): a sector committed before the degradation is not yet programmed and closed. -/
def State.catchup (s : State) (n : Nat) : Bool :=
  s.lnd.secs.items.any fun e => e.1 / 4096 == n && (match e.2 with | some x => x.catchup | none => false)

/-- The entries of a closing group move to the media, its landing sectors are freed, but for those held over to the command's next
group, and its programmed codewords are valid from then on (R112, R114, R190). -/
def State.settleGroup (s : State) (g : JGroup) (ms : List (Nat × Nat)) : State :=
  let held := s.heldOver g
  let locs := g.secs.filterMap fun k => (s.lsec k).bind (·.loc)
  let keys := (s.groupKeys g).filter fun x => !held.contains x.1
  let s := (keys.foldl (fun s x => s.moveToMedia x.1 x.2.1 x.2.2) s).commitMoves g.kind ms
  let s := s.onMed fun m => { m with secs := locs.foldl (fun t l => t.upd none l fun o => o.map fun (x : MSec) => { x with closed := true }) m.secs }
  let s := s.onLnd fun l => { l with secs := (g.secs.filter fun k => !held.contains k).foldl (fun m k => m.set none k none) l.secs }
  let next := (s.jnl.groups.find? fun h => h.fsn == g.fsn && g.fsn != 0 && decide (g.id < h.id)).map (·.id)
  s.onJnl fun j => { j with groups := (j.groups.filter fun h => h.id != g.id).map fun h => if some h.id = next then { h with secs := held ++ h.secs } else h }

/-- JOURNAL_GROUP_CLOSE (R114, R128, R170, R186, R187): a group whose every sector is programmed and whose predecessors have closed
is written to the ring and closed, PROMOTE records before MAP records; its entries move to media, its landing sectors are freed
(R112), and FUA writes and Flushes that waited on it complete. It waits while the pool has no records beyond the poison reserve for
the units it promotes. A full ring makes it wait, which FULL records once. -/
def State.closeGroup (s : State) (gid : Nat) : State :=
  match s.jnl.groups.find? (fun g => g.id == gid) with
  | none => s
  | some g =>
    if !s.groupDone g || !s.groupFirst g then s
    else
      let ms := s.liveMoves g
      let proms := s.closeProms g ++ s.moveProms ms
      if !proms.isEmpty && decide (s.poolRoom < proms.length) then s
      else
        let after := s.settleGroup g ms
        let rs := closedRecs g (s.promRecs after proms ++ g.recs.takeWhile (fun r => r.typ == 8) ++ s.mapRecs g ++ s.moveRecs g.kind ms ++
          g.recs.dropWhile fun r => r.typ == 8)
        if !s.ringRoom rs.length then
          if g.waited then s
          else (s.onJnl fun j => { j with groups := j.groups.map fun h => if h.id = gid then { h with waited := true } else h }).raiseEvt
            F.MRC_JNL_EVT_FULL F.MRC_JNL_EVT_CNT_FULL_CNT
        else
          let s := (after.jnlAppend rs).fuaDone g.fsn gid
          let s := s.onHif fun h => { h with posted := h.posted.filter (fun p => s.jnl.groups.any (fun x => x.fsn == p.1)) }
          s.flushDone

def execJournalGroupClose (gid : Nat) (s : State) : Out := .next (s.closeGroup gid)

end Sys2Proof.Machine
end

