-- ==== Sys2Proof/Machine/Stripe.lean ====
section
/-! DEFINITION. What stands on the media: codewords, stripe parity and its accumulators, programmed sectors, metadata codewords, and
erases (chapters 5, 7 and 8; R83, R134, R137, R196, R228, R229, R238 to R242, R252, R380, R479). -/
namespace Sys2Proof.Machine

/-! ### Keys and codewords (R228, R229, R369, R380) -/

/-- The key material used for a sector of a namespace by its WSN, none where the slot holds none (R380). -/
def State.keyFor (s : State) (n : Ns) (wsn : Nat) : Option Nat :=
  let k := s.sec.slots.get {} n.slot
  if k.rotWsn ≤ wsn then k.cur else k.prev

/-- The key material a landing sector is programmed under (R177, R182, R380). -/
def State.progKey (s : State) (x : LSec) : Nat :=
  match x.key with
  | some k => k
  | none => match s.ns x.info.ns with
    | some n => (s.keyFor n x.info.wsn).getD 0
    | none => 0

/-- The 32 bytes of sector metadata (Table 8.1). -/
def SMeta.bytes (m : SMeta) (data : List Byte) : List Byte :=
  leBytes 8 (m.key % 2 ^ 38 + m.zoff % 2 ^ 21 * 2 ^ 40) ++ leBytes 4 (m.tid % 4096 + (m.ns - 1) % 4096 * 4096) ++ leBytes 8 m.wsn ++
  leBytes 4 (crc32c data) ++ leBytes 4 (1 + b2n m.unwritten * 256 + m.kind * 4096) ++ zeros 4

/-- The tweak of a codeword: its key, with bit 127 set for host metadata and bit 126 for system records (Table 13.1). -/
def SMeta.tweak (m : SMeta) : Nat := m.key + (if m.kind = 1 then 2 ^ 127 else if m.kind = 2 then 2 ^ 126 else 0)

/-- Bytes 0 to 4,127 of a codeword as the media hold it: its data, as ciphertext where it has a key, and its metadata (R228). -/
def MSec.bytes (m : MSec) : List Byte :=
  (if m.key = 0 then m.data.take 4096 else Config.xts m.key m.info.tweak (m.data.take 4096)) ++ m.info.bytes (m.data.take 4096)

/-! ### Stripe parity (R134, R238 to R242) -/

/-- The XOR of two codewords; a shorter one counts as zeros beyond its end. -/
def xorB : List Byte → List Byte → List Byte
  | [], b => b
  | a, [] => a
  | x :: a, y :: b => (x ^^^ y) :: xorB a b

/-- A byte multiplied by g = 2 in GF(2^8) of polynomial 0x11D (R238). -/
def gfDouble (b : Byte) : Byte := if b.msb then (b <<< 1) ^^^ 0x1D else b <<< 1

/-- A product in GF(2^8), a power of g, and an inverse, a^254 (R238). -/
def gfMul (a b : Byte) : Byte :=
  ((List.range 8).foldl (fun (r : Byte × Byte) i => (if b.getLsbD i then r.1 ^^^ r.2 else r.1, gfDouble r.2)) (0, a)).1
def gfPow (k : Nat) : Byte := (List.range k).foldl (fun b _ => gfDouble b) 1
def gfInv (a : Byte) : Byte :=
  ((List.range 7).foldl (fun (r : Byte × Byte) _ => (gfMul r.1 (gfMul r.2 r.2), gfMul r.2 r.2)) (1, a)).1

/-- A codeword multiplied by g^k. -/
def gfScale : Nat → List Byte → List Byte
  | 0, d => d
  | k + 1, d => gfScale k (d.map gfDouble)

/-- Add a unit's codewords to running parity, slot by slot. -/
def parityAdd (acc unit : List (List Byte)) (n : Nat) : List (List Byte) := (List.range n).map fun i => xorB (acc.getD i []) (unit.getD i [])

/-- The data unit of rank k in P and Q: P gains D, Q gains g^k D (R238). -/
def PAcc.add (a : PAcc) (k : Nat) (unit : List (List Byte)) : PAcc :=
  let n := if a.slc then 16 else 64
  { a with p := parityAdd a.p unit n, q := parityAdd a.q (unit.map (gfScale k)) n }

/-- The rank of a position in a line, its parity positions taken out (R134). -/
def posRank (line p : Nat) : Nat := if p < 2 * (line % 16) then p else p - 2

/-- A position is one of its line's two parity positions (R134). -/
def isParity (line p : Nat) : Bool := p / 2 == line % 16

/-- The chunk of a page index. -/
def pageChunk (ch lun page : Nat) : Nat := chunkKey ch lun (page / chunkPages)

/-- Pages of an erase block of the dies in service (R196, R198). -/
def State.blockPages (s : State) : Nat := max 1 s.med.blkPages

/-- Planes of a chunk, at most four, and the pages that a program unit has on each (R133, R134, R196). -/
def State.unitPlanes (s : State) : Nat := min 4 (max 1 (chunkPages / s.blockPages))
def State.planePages (s : State) : Nat := 16 / s.unitPlanes

/-- The page, in a chunk, of sector n of the unit in line l: a unit takes the same pages of each plane of a group of blocks (R134,
R196). -/
def State.unitPage (s : State) (l n : Nat) : Nat :=
  let r := s.planePages * l
  r / s.blockPages * (s.unitPlanes * s.blockPages) + n / 4 / s.planePages * s.blockPages + r % s.blockPages + n / 4 % s.planePages

/-- The location of slot n of the unit at position p of a line, in the chunk given (LUN x 65,536 + chunk index). -/
def State.posLoc (s : State) (q line p n c : Nat) : Nat := mloc (32 * q + p) (c / 65536) (c % 65536 * chunkPages + s.unitPage line n) (n % 4)

/-- The same of the data unit of rank k. -/
def State.unitLoc (s : State) (q line k n c : Nat) : Nat := s.posLoc q line (unitPos line k) n c

/-- The accumulator of a unit's line when the line is open. -/
def State.accOf (s : State) (q seg line : Nat) (slc : Bool) : Option PAcc :=
  s.med.accs.find? (fun a => a.quad == q && a.seg == seg && a.line == line && a.slc == slc)

/-- Accumulators held in a quadrant (QD_PAR_STAT.ACC_USED). -/
def State.accUsed (s : State) (q : Nat) : Nat := (s.med.accs.filter (fun a => a.quad == q && !a.slc && !a.spilled)).length

/-- Spill the accumulator used least recently to SLC, journaled in a system group (R240). -/
def State.spillOldest (s : State) (q : Nat) : State :=
  let held := s.med.accs.filter (fun a => a.quad == q && !a.slc && !a.spilled)
  match held.foldl (fun (b : Option PAcc) a => match b with | none => some a | some x => if a.used < x.used then some a else some x) none with
  | some v => (s.onMed fun m => { m with accs := m.accs.map fun a => if a = v then { a with spilled := true } else a }).jnlSystem []
  | none => s

/-- The chunks of a segment. -/
def State.segCs (s : State) (seg : Nat) : List Nat := match s.med.segs.get none seg with | some g => g.chunks | none => []

/-- A position of a segment's line holds programmed codewords. -/
def State.posHeld (s : State) (q line p c : Nat) : Bool :=
  (List.range 64).any fun n => (s.med.secs.get none (s.posLoc q line p n c)).isSome

/-- A line whose parity the stripe-tail scan of R190 closed takes up its P and Q again from its parity positions, with the data units
it holds (DEDUCED, assumption 121); none where the line has not been closed. -/
def State.reopened (s : State) (q seg line : Nat) : Option PAcc :=
  match s.med.segs.get none seg with
  | some g =>
    if g.closed.contains line ∧ g.isOpen then
      let at_ := fun j => (List.range 64).map fun n => s.med.parity.get [] (s.posLoc q line (2 * (line % 16) + j) n (g.chunks.getD (2 * (line % 16) + j) 0))
      let pos := (List.range 32).filter fun p => !isParity line p && s.posHeld q line p (g.chunks.getD p 0)
      some { quad := q, seg := seg, line := line, units := pos.length, pos := pos, p := at_ 0, q := at_ 1 }
    else none
  | none => none

/-- The slice of a quadrant with the most free sectors (R239). -/
def State.freestSlice (s : State) (q : Nat) : Nat :=
  ((List.range 4).map (4 * q + ·)).foldl (fun b n => if s.sliceFree b < s.sliceFree n then n else b) (4 * q)

/-- A data unit of a line is programmed at a position: its accumulator is held, or read back, or taken, and gains the unit; a line
that finds none free takes the place of the one used least recently (R238 to R240). A unit programmed again adds nothing (R246). -/
def State.accTake (s : State) (q seg line : Nat) (slc : Bool) (p : Nat) (unit : List (List Byte)) : State :=
  let now := s.time.frame
  let room := fun (s : State) => slc || (decide (s.accUsed q < s.get2 F.QD_PAR_CFG_ACC_MAX q) && decide (128 ≤ s.sliceFree (s.freestSlice q)))
  match s.accOf q seg line slc with
  | some a =>
    let s := if a.spilled && !room s then s.spillOldest q else s
    s.onMed fun m => { m with accs := m.accs.map fun x =>
                          if x = a then
                            (if a.pos.contains p && !slc then { x with used := now, spilled := false }
                             else { x.add (posRank line p) unit with used := now, units := if a.pos.contains p then x.units else x.units + 1, pos := if a.pos.contains p then x.pos else x.pos ++ [p], spilled := false })
                          else x }
  | none =>
    let s := if room s then s else s.spillOldest q
    let a : PAcc := (if slc then none else s.reopened q seg line).getD { quad := q, seg := seg, line := line, slc := slc }
    let a : PAcc := { a with slice := s.freestSlice q, used := now, first := now }
    let again := a.pos.contains p && !slc
    let a := if again then a else { a.add (posRank line p) unit with units := a.units + 1, pos := a.pos ++ [p] }
    s.onMed fun m => { m with accs := m.accs ++ [a]
                              segs := if slc then m.segs else m.segs.upd none seg fun o => o.map fun (g : Seg) => { g with closed := g.closed.filter (· != line) } }

/-- The codewords at locations, as the parity engine sees them pass. -/
def State.unitBytes (s : State) (locs : List Nat) : List (List Byte) := locs.map fun l => ((s.med.secs.get none l).map MSec.bytes).getD []

/-- The P and Q of an accumulator stand on the media at its line's parity positions, P the lower (R134, R238). -/
def State.putParity (s : State) (line : Nat) (a : PAcc) (loc : Nat → Nat → Nat) : State :=
  let n := if a.slc then 16 else 64
  s.onMed fun m => { m with parity := (List.range n).foldl (fun t i =>
                       (t.set [] (loc (2 * (line % 16)) i) (a.p.getD i [])).set [] (loc (2 * (line % 16) + 1) i) (a.q.getD i [])) m.parity }

/-! ### Programmed sectors -/

/-- One sector of a program that succeeded: the media hold it; a QLC sector counts as programmed, an SLC sector when its
line closes (R112, R242). A sector of the buffer that holds nothing is programmed as zeros. -/
def State.putSector (s : State) (lk loc : Nat) (qlc : Bool) : State :=
  match s.lsec lk with
  | none => s.onMed fun m => { m with secs := m.secs.set none loc none }
  | some x =>
    let s := s.onMed fun m => { m with secs := m.secs.set none loc (some { info := x.info, data := x.data, key := s.progKey x, dest := if qlc then none else x.dest }) }
    s.onLnd fun l => { l with secs := l.secs.set none lk (some { x with loc := some loc, prog := qlc }) }

/-- A position's channel is fenced or retired: a data unit there has no program of its own (R242, R479). -/
def State.chanGone (s : State) (q p : Nat) : Bool := match (s.unit (uChan (32 * q + p))).st with | .fenced => true | .retired => true | _ => false

/-- The landing sectors whose final position lies in one data unit and that are committed and not programmed, each with its
place in the unit (R134). Of two for one place the later write's counts. -/
def State.unitSecs (s : State) (g line k : Nat) : List (Nat × Nat) :=
  let mine := s.lnd.secs.items.filterMap fun e => match e.2 with
    | some x => match x.dest with
      | some d => if x.done && !x.prog && x.loc.isNone && d / 65536 == g && d % 65536 / 64 == 30 * line + k then some (e.1, d % 64, x.info.wsn) else none
      | none => none
    | none => none
  (mine.filter fun x => !(mine.any fun y => y.2.1 == x.2.1 && decide (x.2.2 < y.2.2))).map fun x => (x.1, x.2.1)

/-- The ranks of a line's data units on fenced and retired channels that have not been programmed and whose sectors have all
landed: they enter the line's P and Q without a program (R479). -/
def State.goneUnits (s : State) (q g line : Nat) (a : PAcc) : List Nat :=
  (List.range 30).filter fun k => s.chanGone q (unitPos line k) && !a.pos.contains (unitPos line k) && (s.unitSecs g line k).length == 64

/-- A line's parity is programmed, its accumulator freed (R134, R239). -/
def State.closeLine (s : State) (q seg line : Nat) (a : PAcc) (cs : List Nat) : State :=
  (s.putParity line a fun p n => s.posLoc q line p n (cs.getD p 0)).onMed fun m =>
    { m with accs := m.accs.filter fun x => !(x.quad == q && x.seg == seg && x.line == line && !x.slc)
             segs := m.segs.upd none seg fun o => o.map fun (g : Seg) => { g with closed := g.closed ++ [line] } }

/-- A line whose data units are all programmed, or on a fenced or retired channel and landed, has its P and Q programmed, its
parity closed and its accumulator freed; the sectors of the units without a program of their own then count as programmed
(R134, R239, R242, R479). -/
def State.lineDone (s : State) (q seg line : Nat) : State :=
  match s.accOf q seg line false with
  | some a =>
    let gone := s.goneUnits q seg line a
    if a.units + gone.length < 30 then s
    else
      let cs := s.segCs seg
      let r := gone.foldl (fun (r : State × PAcc) k =>
        let s := (r.1.unitSecs seg line k).foldl (fun s x => s.putSector x.1 (s.unitLoc q line k x.2 (cs.getD (unitPos line k) 0)) true) r.1
        (s, r.2.add k (s.unitBytes ((List.range 64).map fun n => s.unitLoc q line k n (cs.getD (unitPos line k) 0))))) (s, a)
      r.1.closeLine q seg line r.2 cs
  | none => s

/-- The codewords of a data unit whose journal groups closed; the others count as zeros (R190). -/
def State.closedBytes (s : State) (locs : List Nat) : List (List Byte) :=
  locs.map fun l => match s.med.secs.get none l with | some x => if x.closed then x.bytes else [] | none => []

/-- The stripe-tail scan closes the parity of every line in progress over the sectors whose groups closed (R190). -/
def State.tailScan (s : State) : State :=
  (s.med.accs.filter fun a => !a.slc).foldl (fun s a =>
    let cs := s.segCs a.seg
    let b := a.pos.foldl (fun (b : PAcc) p => b.add (posRank a.line p) (s.closedBytes ((List.range 64).map fun n => s.posLoc a.quad a.line p n (cs.getD p 0))))
      { a with p := [], q := [] }
    s.closeLine a.quad a.seg a.line b cs) s

/-- A line of a segment is programmed: its chunks on fenced channels miss it (R479). -/
def State.markMissed (s : State) (q seg line : Nat) : State :=
  match s.med.segs.get none seg with
  | some g => ((List.range 32).filter (s.chanGone q)).foldl (fun s p => s.onChunk (lunKey (32 * q + p) 0 * 65536 + g.chunks.getD p 0) fun c =>
      { c with missed := if c.missed.contains line then c.missed else c.missed ++ [line] }) s
  | none => s

/-! ### Erasures and rebuild (R238, R243) -/

/-- A position of a segment is an erasure: its chunk is retired, out of service or on a fenced channel (R243). -/
def State.posLost (s : State) (q p c : Nat) : Bool :=
  let ch := 32 * q + p
  let k := s.chunk (lunKey ch 0 * 65536 + c)
  k.lost || k.st != 0 || (s.lun ch (c / 65536)).st == 2 || (s.lun ch (c / 65536)).st == 3 || s.chanGone q p

/-- It is one in a line: it misses the line too (R479). -/
def State.posGone (s : State) (q p c line : Nat) : Bool := s.posLost q p c || (s.chunk (lunKey (32 * q + p) 0 * 65536 + c)).missed.contains line

/-- The line of a page of a chunk (R134). -/
def State.pageLine (s : State) (page : Nat) : Nat :=
  let r := page % chunkPages
  (r / (s.unitPlanes * s.blockPages) * s.blockPages + r % s.blockPages) / s.planePages

/-- The slot of a codeword in its unit. -/
def State.pageSlot (s : State) (page cw : Nat) : Nat :=
  let r := page % chunkPages
  (r % (s.unitPlanes * s.blockPages) / s.blockPages * s.planePages + r % s.blockPages % s.planePages) * 4 + cw % 4

/-- The positions of a page's line that are erasures (R243). -/
def State.lineErasures (s : State) (ch lun page : Nat) : List Nat :=
  let q := ch / 32
  match s.segOf ch lun page with
  | some g => (List.range 32).filter fun p => s.posGone q p ((s.segCs g).getD p 0) (s.pageLine page)
  | none => []

/-- A slot of a lost position from P, Q and what the line still holds (R243, Table 8.4): with one data unit lost from P, or from Q where
P is lost too; with two from both. None for three, and for a line without parity. -/
def solveSlot (line : Nat) (pq : List Byte × List Byte) (at_ : Nat → List Byte) (lost : List Nat) (p : Nat) : Option (List Byte) :=
  let gone := (List.range 30).filter fun k => lost.contains (unitPos line k)
  let known := (List.range 30).filter fun k => !lost.contains (unitPos line k)
  let pr := known.foldl (fun b k => xorB b (at_ (unitPos line k))) pq.1
  let qr := known.foldl (fun b k => xorB b (gfScale k (at_ (unitPos line k)))) pq.2
  let noP := lost.contains (2 * (line % 16))
  let noQ := lost.contains (2 * (line % 16) + 1)
  match gone with
  | [x] => if !noP then some pr else if !noQ then some (qr.map (gfMul (gfInv (gfPow x)))) else none
  | [x, y] =>
    if noP || noQ then none
    else
      let dx := (xorB qr (gfScale y pr)).map (gfMul (gfInv (gfPow x ^^^ gfPow y)))
      some (if p = unitPos line x then dx else xorB pr dx)
  | _ => none

/-- P and Q of a slot of a segment's line: its accumulator's while it is open, else those programmed (R239, R240). -/
def State.linePq (s : State) (g line n : Nat) : Option (List Byte × List Byte) :=
  let q := g / 2 ^ 20
  match s.accOf q g line false with
  | some a => some (a.p.getD n [], a.q.getD n [])
  | none =>
    let cs := s.segCs g
    let at_ := fun j => s.med.parity.get [] (s.posLoc q line (2 * (line % 16) + j) n (cs.getD (2 * (line % 16) + j) 0))
    if (match s.med.segs.get none g with | some x => x.closed.contains line | none => false) then some (at_ 0, at_ 1) else none

/-- A codeword of a segment rebuilt from its line, with these positions lost (R243). -/
def State.rebuildCw (s : State) (ch lun page cw : Nat) (lost : List Nat) : Option (List Byte) :=
  match s.segOf ch lun page with
  | none => none
  | some g =>
    let line := s.pageLine page
    let n := s.pageSlot page cw
    let cs := s.segCs g
    match s.linePq g line n with
    | none => none
    | some pq => solveSlot line pq (fun p => ((s.med.secs.get none (s.posLoc (ch / 32) line p n (cs.getD p 0))).map MSec.bytes).getD []) lost (ch % 32)

/-- The metadata of a codeword that has decoded is of format version 1 and a KIND of Table 8.1 (R230). -/
def metaOk (b : List Byte) : Bool := leAt b 4120 1 == 1 && decide (leAt b 4121 1 / 16 < 4)

/-! ### Metadata codewords (R83, R137) -/

/-- The sector of a final position: landed, staged in SLC, or programmed there (R134). -/
def State.secAt (s : State) (d : Nat) : Option (SMeta × List Byte) :=
  match s.lnd.secs.items.findSome? (fun e => e.2.bind fun x => if x.done ∧ x.dest = some d then some (x.info, x.data) else none) with
  | some r => some r
  | none =>
    match s.med.secs.items.findSome? (fun e => e.2.bind fun x => if x.dest = some d then some (x.info, x.data) else none) with
    | some r => some r
    | none =>
      let u := d % 65536 / 64
      (s.med.secs.get none (s.unitLoc (d / 65536 / 2 ^ 20) (u / 30) (u % 30) (d % 64) ((s.segCs (d / 65536)).getD (unitPos (u / 30) (u % 30)) 0))).map fun x => (x.info, x.data)

/-- The codeword that stands at a position of a stream: the host metadata of the blocks with metadata of its namespace's size that
precede it there, at most those of one codeword, in their order; its KEY is the first one's (R83, Table 8.1). -/
def State.gatherMeta (s : State) (d : Nat) (x : MSec) : MSec :=
  match s.ns x.info.ns with
  | none => x
  | some n =>
    let mine := ((List.range (d % 65536)).reverse.filterMap fun p => s.secAt (d / 65536 * 65536 + p)).filter fun y =>
      y.1.kind == 0 && (match s.ns y.1.ns with | some k => fmtMeta k.fmt == fmtMeta n.fmt | none => false)
    let mine := (mine.take n.perMeta).reverse
    match mine with
    | [] => x
    | y :: _ => { x with info := { x.info with key := y.1.key, wsn := mine.foldl (fun a z => max a z.1.wsn) 0 }, data := mine.flatMap fun z => z.2.drop 4096 }

/-- The KIND 1 codewords staged for one data unit of a segment reach it (R83, R137). -/
def State.putMeta (s : State) (g u : Nat) : State :=
  let q := g / 2 ^ 20
  let line := u / 30
  let c := (s.segCs g).getD (unitPos line (u % 30)) 0
  (s.med.hostMeta.items.filter fun e => e.1 / 65536 == g && e.1 % 65536 / 64 == u).foldl (fun s e => match e.2 with
    | some x =>
      let x := if x.data.isEmpty then s.gatherMeta e.1 x else x
      let k := match s.ns x.info.ns with | some n => (s.keyFor n x.info.wsn).getD 0 | none => 0
      s.onMed fun m => { m with secs := m.secs.set none (s.unitLoc q line (u % 30) (e.1 % 64) c) (some { x with key := k, data := padTo 4096 x.data, closed := true })
                                hostMeta := m.hostMeta.set none e.1 none }
    | none => s) s

/-- A metadata unit of a zone's segment is programmed whole: its codewords, zeros beside them, and its share of the line's parity
(R137). -/
def State.putMetaUnit (s : State) (g u : Nat) : State :=
  let q := g / 2 ^ 20
  let line := u / 30
  let p := unitPos line (u % 30)
  let c := (s.segCs g).getD p 0
  let s := s.putMeta g u
  let locs := (List.range 64).map fun n => s.unitLoc q line (u % 30) n c
  let s := s.onChunk (lunKey (32 * q + p) 0 * 65536 + c) fun x => { x with used := true, checked := false, fails := 0, fresh := false, seen := 0 }
  (s.accTake q g line false p (s.unitBytes locs)).lineDone q g line

/-- The data units of a segment that hold staged KIND 1 codewords. -/
def State.metaUnits (s : State) (g : Nat) : List Nat :=
  ((s.med.hostMeta.keys.filter fun d => d / 65536 == g).map fun d => d % 65536 / 64).eraseDups

/-- Zone Finish closes a segment: every metadata unit that holds metadata is programmed, and its open lines' parity closes with the
missing units as zeros (R134, R137, R145). -/
def State.finishSeg (s : State) (g : Nat) : State :=
  let s := (s.metaUnits g).foldl (fun s u => s.putMetaUnit g u) s
  let s := (s.med.accs.filter fun a => a.seg == g && !a.slc).foldl (fun s a => s.closeLine (g / 2 ^ 20) g a.line a (s.segCs g)) s
  s.onMed fun m => { m with segs := m.segs.upd none g fun o => o.map fun (x : Seg) => { x with isOpen := false, closed := List.range 32 } }

/-! ### Erases (R252) -/

/-- The journal's name of a chunk's first block (Table 6.4). -/
def State.eraseRec (s : State) (typ ch lun chunk : Nat) : JRec :=
  { typ := typ, sub := 0, a := ch * 2 ^ 41 + lun * 2 ^ 36 + chunk * (chunkPages / s.blockPages), b := s.stampNow (uChan ch) }

/-- Locations of a chunk. -/
def inChunk (k loc : Nat) : Bool := loc / 4 / 2 ^ 24 == k / 65536 && loc / 4 % 2 ^ 24 / chunkPages == k % 65536

/-- The blocks of a plane mask at a page of a LUN: the same block of each plane of the group (R196). -/
def State.groupBlocks (s : State) (page : Nat) (planes : Nat) : List Nat :=
  let b := page / s.blockPages / s.unitPlanes * s.unitPlanes
  ((List.range 4).filter fun k => planes.testBit k).map (b + ·)

/-- A location of a LUN lies in one of these blocks. -/
def State.inBlocks (s : State) (lk : Nat) (bs : List Nat) (loc : Nat) : Bool := loc / 4 / 2 ^ 24 == lk && bs.contains (loc / 4 % 2 ^ 24 / s.blockPages)

/-- An erase of blocks succeeded (R252): ERASE_DONE is journaled, what they held is gone, the count of their tier rises, the hint and
the reads clear. A chunk erased in SLC holds staged data from then on; one erased in QLC is free unless a segment holds it. -/
def State.eraseBlocks (s : State) (ch lun chunk : Nat) (bs : List Nat) (slc : Bool) : State :=
  let k := chunkKey ch lun chunk
  let s := (s.jnlSystem [s.eraseRec 7 ch lun chunk]).takeStamp (uChan ch)
  let gone := s.inBlocks (lunKey ch lun) bs
  let s := s.onMed fun m => { m with secs := m.secs.keep fun l => !gone l
                                     parity := m.parity.keep fun l => !gone l
                                     staged := m.staged.filter fun x => !gone x.1 }
  let held := (s.segOf ch lun (chunk * chunkPages)).isSome
  s.onChunk k fun c => { c with slc := slc, intent := false, hint := 0, reads := 0, checked := false, fresh := true, seen := 0, missed := [], used := slc || held,
                                qe := if slc then c.qe else min 65535 (c.qe + 1), se := if slc then min 65535 (c.se + 1) else c.se }

/-- Erase a whole chunk that is free of data, in the tier given: intent and done in the journal, its count raised (R252). -/
def State.eraseAs (s : State) (ch lun chunk : Nat) (slc : Bool) : State :=
  let s := (s.jnlSystem [s.eraseRec 6 ch lun chunk]).takeStamp (uChan ch)
  s.eraseBlocks ch lun chunk ((List.range (chunkPages / s.blockPages)).map (chunk * (chunkPages / s.blockPages) + ·)) slc

/-- Erase a chunk in the tier it is in, for reuse in QLC. -/
def State.eraseFree (s : State) (ch lun chunk : Nat) : State :=
  (s.eraseAs ch lun chunk (s.chunk (chunkKey ch lun chunk)).slc).onChunk (chunkKey ch lun chunk) fun c => { c with used := (s.segOf ch lun (chunk * chunkPages)).isSome }

/-- A segment given up is erased and its chunks are free again; its accumulators and staged metadata go with it (R146, R179, R254). -/
def State.eraseSeg (s : State) (g : Nat) : State :=
  match s.med.segs.get none g with
  | none => s
  | some x =>
    let s := s.onMed fun m => { m with segs := m.segs.set none g none
                                       accs := m.accs.filter fun a => !(a.seg == g && !a.slc)
                                       hostMeta := m.hostMeta.keep fun d => d / 65536 != g }
    (List.range 32).foldl (fun s p =>
      let c := x.chunks.getD p 0xFFFFFFFF
      if c = 0xFFFFFFFF then s else s.eraseFree (32 * (g / 2 ^ 20) + p) (c / 65536) (c % 65536)) s

end Sys2Proof.Machine
end

