-- ==== Sys2Proof/Machine/HostIo.lean ====
section
/-! DEFINITION. The I/O commands: reads and their checks, Write, Write Zeroes, Dataset Management, Copy, Flush, and the
zone commands (chapters 3 to 6; R33, R76 to R85, R104 to R118, R141 to R154, R166, R167, R380). A row that carries an
FSN acts on the outstanding command of that FSN when that command is of the row's kind; else nothing changes. -/
namespace Sys2Proof

/-- The action of a Zone Management Send and its Select All bit. -/
def Sqe.zsa (q : Sqe) : Nat := q.cdw13 % 256
def Sqe.selAll (q : Sqe) : Bool := q.cdw13.testBit 8

end Sys2Proof

namespace Sys2Proof.Machine

/-! ### Which command, and its turn -/

/-- The I/O command of an FSN with its namespace, when its opcode is `opc`. -/
def State.ioCmd (s : State) (fsn opc : Nat) : Option (Cmd × Ns) :=
  match s.cmd fsn with
  | some c => if c.sq ≠ 0 ∧ c.sqe.opc = opc then (s.ns c.sqe.nsid).map fun n => (c, n) else none
  | none => none

/-- Does a command take range locks (Table 4.1)? -/
def Cmd.takesLocks (c : Cmd) : Bool :=
  if c.sq = 0 then c.sqe.opc == 0x80 || c.sqe.opc == 0x84
  else [0x01, 0x02, 0x05, 0x08, 0x09, 0x0C, 0x19].contains c.sqe.opc

/-- May two commands act on one namespace? -/
def Cmd.sameNs (c d : Cmd) : Bool :=
  c.sqe.nsid == d.sqe.nsid || c.sqe.nsid == 0xFFFFFFFF || d.sqe.nsid == 0xFFFFFFFF || (d.sq == 0 && d.sqe.opc == 0x84)

/-- An earlier Format NVM or Sanitize of a command's zoned namespace has not completed (R107). -/
def State.behindWhole (s : State) (c : Cmd) : Bool :=
  ((s.ns c.sqe.nsid).map (·.zoned)).getD false &&
  s.hif.cmds.any fun d => decide (d.fsn < c.fsn) && d.sq == 0 && (d.sqe.opc == 0x80 || d.sqe.opc == 0x84) && c.sameNs d

/-- Commands ask for their range locks in FSN order (R104, R106), and every command to a zoned namespace waits for an
earlier Format NVM or Sanitize of it (R107). -/
def State.myTurn (s : State) (c : Cmd) : Bool :=
  !(s.hif.cmds.any fun d => decide (d.fsn < c.fsn) && d.takesLocks && c.sameNs d && d.ph == .fetched) && !s.behindWhole c

/-! ### Keys (R380) -/

/-- A namespace's key slot holds no key (Key Unavailable, Table 3.7). -/
def State.noKey (s : State) (n : Ns) : Bool := (s.sec.slots.get {} n.slot).cur.isNone

/-! ### Reading one block -/

/-- What one block of a read gives: its data with metadata, or the status it fails with. -/
inductive BlkRes
  | data (d : List Byte)
  | fails (st : Nat)
  deriving DecidableEq, Repr

/-- An unwritten block: zeros, and host metadata of bytes 0xFF (R147). -/
def Ns.blank (n : Ns) : List Byte := zeros 4096 ++ List.replicate (fmtMetaBytes n.fmt) 0xFF

/-- A stripe slot with three or more erasures: its sectors become POISON, an F1 event (R243). -/
def State.poisonSlot (s : State) (q key fsn : Nat) : State :=
  ((s.poisonKey key).raiseEvt F.QD_MED_EVT_POISON F.QD_MED_CNT1_POISON_CNT q).raiseFault 0x0109 (uQuad q) key fsn

/-- A sector that cannot be had: its position is an erasure of its line, which has three or more (R243). -/
def State.beyondRebuild (s : State) (ch lun page : Nat) : Bool :=
  let l := s.lineErasures ch lun page
  l.contains (ch % 32) && decide (3 ≤ l.length)

/-- The data of a block goes to the front end over the fabric: withheld where a word arrives poisoned, or altered beyond its CRC-32C
(R33, R331, R345). -/
def State.egress (s : State) (src key fsn : Nat) (d : List Byte) : BlkRes × State :=
  if s.fabricHits src then
    match s.fabric src uFront (ofLe (d.take 8)) with
    | (some w, t) => if w = ofLe (d.take 8) then (.data d, t) else (.fails stUnrecovered, t.raiseFault 0x0101 uFront key fsn)
    | (none, t) => (.fails stUnrecovered, (t.raiseEvt F.MEMP_EVT_POIS_USE F.MEMP_EVT_CNT1_PUSE_CNT).raiseFault 0x0108 uFront key fsn)
  else (.data d, s)

/-- A sector from the media (R154, R230, R33, R243, R380): `lost` where neither decode nor rebuild succeeds, `crc` where the
egress CRC-32C does not match. -/
def State.mediaBlock (s : State) (n : Ns) (nsid key ch lun page cw fsn : Nat) (lost crc : Bool) : BlkRes × State :=
  let q := ch / 32
  match s.med.secs.get none (mloc ch lun page cw) with
  | none => (.fails stUnrecovered, s.poisonSlot q key fsn)
  | some m =>
    if lost || s.beyondRebuild ch lun page then (.fails stUnrecovered, s.poisonSlot q key fsn)
    else if m.info.ns ≠ nsid then (.fails stUnrecovered, s.raiseFault 0x0103 (uCC q) key fsn)
    else match s.keyFor n m.info.wsn with
      | none => (.fails stKeyUnavailable, s)
      | some k =>
        if crc ∨ k ≠ m.key then (.fails stUnrecovered, s.raiseFault 0x0101 uFront key fsn)
        else s.egress (uCC q) key fsn (if m.info.unwritten then n.blank else m.data)

/-- The map entry of a block as a read finds it: at or beyond its zone's write pointer it is unwritten (R147, R171). -/
def State.seen (s : State) (n : Ns) (nsid lba : Nat) : Ent :=
  if n.zoned ∧ (s.zone nsid (n.zoneOf lba)).wp ≤ lba % zsze n.fmt then .unmapped else s.lookup (n.key lba)

/-- One block of a read by the entry its lookup returned (R147, R171, R178, Table 6.1); a block that lay in a landing slice is read
where it stands by now. -/
def State.readBlock (s : State) (n : Ns) (nsid lba : Nat) (e : Ent) (fsn : Nat) (lost crc : Bool) : BlkRes × State :=
  match (match e with | .landing _ _ => s.lookup (n.key lba) | x => x) with
  | .unmapped => (.data n.blank, s)
  | .zero => (.data (zeros n.blockBytes), s)
  | .landing sl sec =>
    match s.lnd.secs.get none (sl * 4096 + sec) with
    | some x =>
      let r := s.readSector sl sec uFront
      if !r.1 then (.fails stUnrecovered, r.2)
      else if crc then (.fails stUnrecovered, r.2.raiseFault 0x0101 uFront (n.key lba) fsn)
      else r.2.egress (uLnd sl) (n.key lba) fsn (if x.info.unwritten then n.blank else x.data)
    | none => (.fails stUnrecovered, s)
  | .media ch lun page cw => s.mediaBlock n nsid (n.key lba) ch lun page cw fsn lost crc
  | _ => (.fails stUnrecovered, s)

/-- The blocks from `lba` on, by the entries found: the data, or the first status met. -/
def State.readRange (s : State) (n : Ns) (nsid fsn : Nat) (lost crc : List Nat) : Nat → Nat → List Ent → BlkRes × State
  | _, _, [] => (.data [], s)
  | lba, i, e :: es =>
    match s.readBlock n nsid lba e fsn (lost.contains i) (crc.contains i) with
    | (.fails st, s') => (.fails st, s')
    | (.data d, s') =>
      match s'.readRange n nsid fsn lost crc (lba + 1) (i + 1) es with
      | (.data e, s'') => (.data (d ++ e), s'')
      | r => r

/-- The entries of a range, looked up one by one. -/
def State.seenRange (s : State) (n : Ns) (nsid lba cnt : Nat) : List Ent := (List.range cnt).map fun i => s.seen n nsid (lba + i)

/-- The range-lock entry of a command's own range. -/
def Cmd.ownLock (c : Cmd) (excl : Bool) : Lock :=
  { fsn := c.fsn, ns := c.sqe.nsid, lo := c.sqe.slba, hi := c.sqe.slba + c.sqe.nlb, excl := excl, held := false }

/-- A read begins: it takes its shared entry, or in a zoned namespace none (R105, R107); without a key it fails. -/
def State.beginRead (s : State) (c : Cmd) (n : Ns) : State :=
  if !s.myTurn c then s
  else if s.noKey n then s.complete c.fsn stKeyUnavailable
  else if n.zoned then s.onCmd c.fsn fun x => { x with ph := .reading }
  else s.askLocks c.fsn [c.ownLock false]

/-- A read admitted to media looks its blocks up once (R171, R178); its data is then due over the host link, but for a Verify,
which moves none (R41, R46). Lookups on a map page wait for its rebuild (R172, R192, R193). -/
def State.lookRead (s : State) (c : Cmd) (n : Ns) : State :=
  let keys := (rangeBlocks n c.sqe.slba c.sqe.cnt).map fun b => b.1 * 16 + b.2
  let s := s.walkAll keys
  if !s.pagesOk keys then s
  else s.onCmd c.fsn fun x => { x with found := s.seenRange n c.sqe.nsid c.sqe.slba c.sqe.cnt, left := if c.sqe.opc = 0x0C then 0 else c.sqe.cnt }

/-- READ, COMPARE and VERIFY: a fetched command begins, one admitted to media looks its blocks up, and one whose host DMA is done
ends: `lost` and `crc` are the blocks, counted from the first, that can be neither decoded nor rebuilt, and that fail the egress
CRC. The protection information is checked (R83), and `finish` turns the data read into a status and the data that goes to the host. -/
def State.readRow (s : State) (fsn opc : Nat) (lost crc : List Nat) (finish : Cmd → Ns → List Byte → Nat × List Byte) : State :=
  match s.ioCmd fsn opc with
  | none => s
  | some (c, n) =>
    match c.ph with
    | .fetched => s.beginRead c n
    | .reading =>
      if c.found.isEmpty then s.lookRead c n
      else if c.left ≠ 0 then s
      else match s.readRange n c.sqe.nsid fsn lost crc c.sqe.slba 0 c.found with
        | (.fails st, s') => s'.complete fsn st
        | (.data d, s') =>
          if n.readGuard c c.sqe.cnt d ≠ stOk then s'.complete fsn (n.readGuard c c.sqe.cnt d)
          else s'.complete fsn (finish c n d).1 0 (finish c n d).2
    | _ => s

def execRead (fsn : Nat) (lost crc : List Nat) (s : State) : Out :=
  .next (s.readRow fsn 0x02 lost crc fun c n d => (stOk, n.handed c c.sqe.cnt d))

def execCompare (fsn : Nat) (lost crc : List Nat) (s : State) : Out :=
  .next (s.readRow fsn 0x05 lost crc fun c n d => (if n.handed c c.sqe.cnt d = c.sqe.data then stOk else stCompare, []))

def execVerify (fsn : Nat) (lost crc : List Nat) (s : State) : Out :=
  .next (s.readRow fsn 0x0C lost crc fun _ _ _ => (stOk, []))

/-! ### Write and Zone Append -/

/-- A placement handle at or above the namespace's count (R149). -/
def State.badHandle (s : State) (c : Cmd) (n : Ns) : Bool :=
  s.hif.fdp && !n.zoned && c.sqe.dtype == 2 && decide (n.handles ≤ c.sqe.dspec % 16384)

/-- WRITE (R105, R107, R142, R149): takes its exclusive entry, or in a zoned namespace waits for its place. -/
def State.writeRow (s : State) (fsn : Nat) : State :=
  match s.ioCmd fsn 0x01 with
  | none => s
  | some (c, n) =>
    if c.ph ≠ .fetched ∨ !s.myTurn c then s
    else if s.badHandle c n then s.complete fsn stInvalidField
    else if s.noKey n then s.complete fsn stKeyUnavailable
    else if n.zoned then s.onCmd fsn fun x => { x with ph := .admitWait }
    else s.askLocks fsn [c.ownLock true]

def execWrite (fsn : Nat) (s : State) : Out := .next (s.writeRow fsn)

/-- ZONE_APPEND (R142, R144): names a zone by its first block and waits for admission. -/
def State.appendRow (s : State) (fsn : Nat) : State :=
  match s.ioCmd fsn 0x7D with
  | none => s
  | some (c, n) =>
    if c.ph ≠ .fetched ∨ !s.myTurn c then s
    else if c.sqe.slba % zsze n.fmt ≠ 0 then s.complete fsn stInvalidField
    else if s.noKey n then s.complete fsn stKeyUnavailable
    else s.onCmd fsn fun x => { x with ph := .admitWait }

def execZoneAppend (fsn : Nat) (s : State) : Out := .next (s.appendRow fsn)

/-! ### Write Zeroes, Dataset Management -/

/-- WRITE_ZEROES (R105, R111): asks for its entry, and commits as soon as it holds it. -/
def State.zeroesRow (s : State) (fsn : Nat) : State :=
  match s.ioCmd fsn 0x08 with
  | none => s
  | some (c, _) => if c.ph = .fetched ∧ s.myTurn c then (s.askLocks fsn [c.ownLock true]).zeroesGranted fsn else s

def execWriteZeroes (fsn : Nat) (s : State) : Out := .next (s.zeroesRow fsn)

/-- A Dataset Management range: first block and length (NVMe; 16 bytes each). -/
def dsmRange (d : List Byte) (i : Nat) : Nat × Nat := (leAt d (16 * i + 8) 8, leAt d (16 * i + 4) 4)

/-- The ranges of a Dataset Management command, those of length 0 ignored (Table 3.8). -/
def Cmd.dsmRanges (c : Cmd) : List (Nat × Nat) :=
  ((List.range (c.sqe.cdw10 % 256 + 1)).map (dsmRange c.sqe.data)).filter (fun r => r.2 != 0)

/-- One unit of a deallocation (R153, R167): whole units always, promoted units always, others while the pool holds more
free records than the poison reserve; else they keep their data. The records made and the state. -/
def State.deallocUnit (s : State) (nsid : Nat) (u : Nat) (mine : List (Nat × Nat)) : List JRec × State :=
  let used := (mine.filter fun b => s.allocated (b.1 * 16 + b.2)).length
  let fine := s.isFine u
  if mine.length = 16 then
    ([{ typ := 4, sub := 0, a := u * 16, b := 16 }], (s.setCoarse u .unmapped).onNs nsid fun x => { x with nuse := x.nuse - used })
  else if fine || s.poolHasRoom then
    let before := s
    let s := mine.foldl (fun s b => s.setBlock (b.1 * 16 + b.2) .unmapped) s
    let first := (mine.headD (u, 0)).2
    (before.promRecs s [u] ++ [{ typ := 4, sub := 0, a := u * 16 + first, b := mine.length }], s.onNs nsid fun x => { x with nuse := x.nuse - used })
  else ([], s)

/-- The map update of a deallocation, all its ranges (R153). -/
def State.deallocAll (s : State) (nsid : Nat) (n : Ns) (rs : List (Nat × Nat)) : List JRec × State :=
  rs.foldl (fun (acc : List JRec × State) r =>
    let bs := rangeBlocks n r.1 r.2
    (unitsOf bs).foldl (fun acc u =>
      let o := acc.2.deallocUnit nsid u (bs.filter (fun b => b.1 == u))
      (acc.1 ++ o.1, o.2)) acc) ([], s)

/-- DEALLOC records of neighbouring runs joined, as one record names up to 2^32 - 1 blocks (Table 6.4). -/
def joinDealloc : List JRec → List JRec
  | [] => []
  | r :: t =>
    match joinDealloc t with
    | [] => [r]
    | q :: t' => if r.typ = 4 ∧ q.typ = 4 ∧ r.a + r.b = q.a ∧ r.b + q.b < 2 ^ 32 then { r with b := r.b + q.b } :: t' else r :: q :: t'

/-- Groups of at most 1,024 records (R185). -/
def runs1024 {α : Type} : Nat → List α → List (List α)
  | 0, _ => []
  | n + 1, l => if l.isEmpty then [] else l.take 1024 :: runs1024 n (l.drop 1024)

/-- DATASET_MANAGEMENT (R105, R153, R160): without the deallocate attribute nothing changes; with it the entries are
taken, one for each range, and the map update is made. -/
def State.dsmRow (s : State) (fsn : Nat) : State :=
  match s.ioCmd fsn 0x09 with
  | none => s
  | some (c, n) =>
    let rs := c.dsmRanges
    if c.ph = .fetched ∧ !c.sqe.cdw11.testBit 2 then s.complete fsn stOk
    else if c.ph = .fetched ∧ rs.any (fun r => decide (n.nsze < r.1 + r.2)) then s.complete fsn stLbaRange
    else
      let s := if c.ph = .fetched ∧ s.myTurn c then
          s.askLocks fsn (rs.map fun r => { fsn := fsn, ns := c.sqe.nsid, lo := r.1, hi := r.1 + r.2 - 1, excl := true, held := false })
        else s
      match s.cmd fsn with
      | some d =>
        if d.ph ≠ .admitWait then s
        else if s.lvl.rdonly then s.complete fsn stWriteProtected
        else
          let o := s.deallocAll c.sqe.nsid n rs
          let recs := joinDealloc o.1
          let s := (runs1024 (recs.length + 1) recs).foldl (fun s r => s.openGroup 0 fsn c.sqe.nsid (s.lnd.wsn - 1) [] r) o.2
          s.complete fsn stOk
      | none => s

def execDatasetManagement (fsn : Nat) (s : State) : Out := .next (s.dsmRow fsn)

/-! ### Copy -/

/-- Source range i of a Copy of format 0 (32 bytes each): first block and blocks. -/
def copyRange (d : List Byte) (i : Nat) : Nat × Nat := (leAt d (32 * i + 8) 8, leAt d (32 * i + 16) 2 + 1)

/-- The source ranges of a Copy. -/
def Cmd.copyRanges (c : Cmd) : List (Nat × Nat) := (List.range (c.sqe.cdw12 % 256 + 1)).map (copyRange c.sqe.data)

/-- Read every source range, in order. -/
def State.readAll (s : State) (n : Ns) (nsid fsn : Nat) (lost crc : List Nat) : Nat → List (Nat × Nat) → BlkRes × State
  | _, [] => (.data [], s)
  | i, r :: t =>
    match s.readRange n nsid fsn lost crc r.1 i (s.seenRange n nsid r.1 r.2) with
    | (.fails st, s') => (.fails st, s')
    | (.data d, s') =>
      match s'.readAll n nsid fsn lost crc (i + r.2) t with
      | (.data e, s'') => (.data (d ++ e), s'')
      | r => r

/-- COPY (R105, R111): a fetched Copy is judged and takes its entries; with its landing space reserved it reads its
source blocks into the reserved sectors. -/
def State.copyRow (s : State) (fsn : Nat) (lost crc : List Nat) : State :=
  match s.ioCmd fsn 0x19 with
  | none => s
  | some (c, n) =>
    let rs := c.copyRanges
    let total := rs.foldl (fun a r => a + r.2) 0
    let keys := rs.flatMap fun r => (List.range r.2).map fun i => n.key (r.1 + i)
    match c.ph with
    | .fetched =>
      if bits c.sqe.cdw12 11 8 ≠ 0 ∨ 127 < c.sqe.cdw12 % 256 ∨ rs.any (fun r => decide (2048 < r.2)) ∨ 2048 < total then s.complete fsn stInvalidField
      else if n.nsze < c.sqe.slba + total ∨ rs.any (fun r => decide (n.nsze < r.1 + r.2)) then s.complete fsn stLbaRange
      else if !s.myTurn c then s
      else if s.noKey n then s.complete fsn stKeyUnavailable
      else
        let s := s.onCmd fsn fun x => { x with dw0 := total }
        s.askLocks fsn ({ fsn := fsn, ns := c.sqe.nsid, lo := c.sqe.slba, hi := c.sqe.slba + total - 1, excl := true, held := false } ::
          rs.map fun r => { fsn := fsn, ns := c.sqe.nsid, lo := r.1, hi := r.1 + r.2 - 1, excl := false, held := false })
    | .landing =>
      if c.left = 0 ∨ s.sched.drain then s
      else
        let s := s.walkAll keys
        if !s.pagesOk keys then s
        else match s.readAll n c.sqe.nsid fsn lost crc 0 rs with
          | (.fails st, s') => (s'.discardWrite c false).complete fsn st
          | (.data d, s') => s'.onCmd fsn fun x => { x with left := 0, sqe := { x.sqe with data := d } }
    | _ => s

def execCopy (fsn : Nat) (lost crc : List Nat) (s : State) : Out := .next (s.copyRow fsn lost crc)

/-! ### Flush -/

/-- The writes a Flush covers when it is fetched (R117): those posted and not yet all on media, in its namespace, or in
every namespace attached to its controller. -/
def State.flushCover (s : State) (fn nsid : Nat) : List Nat :=
  (s.hif.posted.filter fun p => p.2 == nsid ||
    (nsid == 0xFFFFFFFF && (match s.ns p.2 with | some n => n.attach.contains fn | none => false))).map (·.1)

/-- FLUSH (R117): with PRESENT 0 it completes at once; with PRESENT 1 when no covered write has a group open. -/
def State.flushRow (s : State) (fsn : Nat) : State :=
  match s.cmd fsn with
  | none => s
  | some c =>
    if c.sq = 0 ∨ c.sqe.opc ≠ 0x00 ∨ c.ph ≠ .fetched ∨ s.behindWhole c then s
    else if !s.pwr.present then s.complete fsn stOk
    else (s.onCmd fsn fun x => { x with ph := .flushWait }).flushDone

def execFlush (fsn : Nat) (s : State) : Out := .next (s.flushRow fsn)

/-! ### Zone Management Send and Receive -/

/-- Zones an action acts on: the one named, or with Select All those in the states given (ZNS). -/
def State.zoneTargets (s : State) (c : Cmd) (n : Ns) (sel : ZState → Bool) : List Nat :=
  if c.sqe.selAll then
    ((s.zones.items.filter (fun e => e.1 / 2 ^ 24 == c.sqe.nsid && sel e.2.st)).map (fun e => e.1 % 2 ^ 24))
  else [n.zoneOf c.sqe.slba]

/-- Every earlier-FSN Write, Zone Append and zone action of the zones that `z` names has committed, executed or been discarded (R142). -/
def State.zonesTurn (s : State) (c : Cmd) (n : Ns) (z : Nat → Bool) : Bool :=
  !(s.hif.cmds.any fun d => decide (d.fsn < c.fsn) && d.sq != 0 && d.sqe.nsid == c.sqe.nsid &&
    (z (n.zoneOf d.sqe.slba) || (d.sqe.opc == 0x79 && d.sqe.selAll)) &&
    (((d.sqe.opc == 0x01 || d.sqe.opc == 0x7D) && !(d.ph == .fuaWait)) || d.sqe.opc == 0x79))

/-- The same of the zones a zone action names. -/
def State.zoneActTurn (s : State) (c : Cmd) (n : Ns) : Bool := s.zonesTurn c n fun z => c.sqe.selAll || z == n.zoneOf c.sqe.slba

/-- A zone of a namespace holds data not yet erased: its segments (R146). -/
def State.zoneSegsOf (s : State) (nsid z : Nat) : List Nat :=
  (s.med.zseg.items.filter (fun e => e.1 / 32 == zkey nsid z)).map (fun e => e.2 - 1)

/-- Unmap every block of a zone in one cycle and free its segments (R146). -/
def State.unmapZone (s : State) (nsid : Nat) (n : Ns) (z : Nat) : State :=
  let us := (unitsOf (rangeBlocks n (z * zsze n.fmt) (zsze n.fmt)))
  let s := us.foldl (fun s u => s.setCoarse u .unmapped) s
  let s := (s.zoneSegsOf nsid z).foldl State.freeSeg s
  s.onMed fun m => { m with zseg := m.zseg.keep (fun k => k / 32 != zkey nsid z) }

/-- A zone taken Offline (R158): its capacity leaves NCAP, it is listed as changed, a Zone Descriptor Changed notice is
posted, and its state is journaled. -/
def State.offlineZone (s : State) (nsid : Nat) (n : Ns) (z : Nat) : State :=
  let s := s.onZone nsid z fun x => { x with st := .offline, wp := 0 }
  let s := s.onNs nsid fun x => { x with ncap := x.ncap - zcap n.fmt }
  let s := n.attach.foldl (fun s fn => s.onCtrl fn fun k => { k with changedZones := k.changedZones ++ [(nsid, z)] }) s
  let s := n.attach.foldl (fun s fn => s.aenTo fn { typ := 2, info := 0xEF, lid := 0xBF }) s
  let s := s.onMed fun m => { m with capPend := m.capPend.upd 0 (zoneQuad nsid z * 2) (· + 1) }
  s.jnlSystem [zoneRec nsid z (s.zone nsid z)]

/-- An Empty zone with no command outstanding that names it, reads into it, acts on all zones or reports it (R158). -/
def State.zoneIdle (s : State) (nsid : Nat) (n : Ns) (z : Nat) : Bool :=
  (s.zone nsid z).st == .empty &&
  !(s.hif.cmds.any fun c => c.sq != 0 && c.sqe.nsid == nsid &&
    (n.zoneOf c.sqe.slba == z || (c.sqe.opc == 0x79 && c.sqe.selAll) || (c.sqe.opc == 0x7A && decide (n.zoneOf c.sqe.slba ≤ z)) ||
     (c.isRead && decide (n.zoneOf c.sqe.slba ≤ z) && decide (z ≤ n.zoneOf (c.sqe.slba + c.sqe.nlb)))))

/-- Zones of a namespace, of one quadrant, that may go Offline, highest first. -/
def State.idleZones (s : State) (q nsid : Nat) (n : Ns) : List Nat :=
  if n.zoned then ((List.range n.zones).reverse).filter (fun z => zoneQuad nsid z == q && s.zoneIdle nsid n z) else []

/-- Empty zones of a namespace bound to a quadrant. -/
def State.emptyZones (s : State) (q nsid : Nat) (n : Ns) : Nat :=
  ((List.range n.zones).filter (fun z => zoneQuad nsid z == q && (s.zone nsid z).st == .empty)).length

/-- The zone that goes Offline next in a quadrant (R158): of the namespace with the most Empty zones there, lowest NSID
on a tie, its highest zone that qualifies. -/
def State.pickOffline (s : State) (q : Nat) : Option (Nat × Nat) :=
  let cand := s.nss.items.filterMap fun e => match e.2 with
    | some n => match s.idleZones q e.1 n with
      | z :: _ => some (s.emptyZones q e.1 n, e.1, z)
      | [] => none
    | none => none
  (cand.foldl (fun (b : Option (Nat × Nat × Nat)) x => match b with
    | none => some x | some y => if y.1 < x.1 then some x else some y) none).map (fun x => (x.2.1, x.2.2))

/-- SPARE of a quadrant is at or below GUARD (R158). -/
def State.atGuard (s : State) (q : Nat) : Bool := decide (s.spare q ≤ s.guard)

/-- DEALLOC records of every block of a zone (Table 6.4). -/
def zoneDealloc (n : Ns) (z : Nat) : List JRec :=
  joinDealloc ((unitsOf (rangeBlocks n (z * zsze n.fmt) (zsze n.fmt))).map fun u => { typ := 4, sub := 0, a := u * 16, b := 16 })

/-- One zone action (Table 5.4; R141, R145, R146, R159): the status, and the state. Finish of an Empty zone, which Table 5.4 does not
list among the ways out of Empty, moves it to Full as NVMe has it (PRESUMED, assumption 113). -/
def State.zoneAct (s : State) (c : Cmd) (n : Ns) (act z : Nat) : Nat × State :=
  let nsid := c.sqe.nsid
  let zn := s.zone nsid z
  let move := fun (s : State) (st : ZState) =>
    let s := s.onZone nsid z fun x => { x with st := st, wp := if st = .empty then 0 else x.wp }
    s.openGroup 0 c.fsn nsid (s.lnd.wsn - 1) [] ((if st = .empty then zoneDealloc n z else []) ++ [zoneRec nsid z (s.zone nsid z)])
  match act with
  | 1 => match zn.st with
    | .impOpen => (stOk, move s .closed)
    | .expOpen => (stOk, move s .closed)
    | .closed => (stOk, s)
    | _ => (stZoneTransition, s)
  | 2 => match zn.st with
    | .offline => (stZoneTransition, s)
    | .full => (stOk, s)
    | _ =>
      (stOk, move ((s.zoneSegsOf nsid z).foldl State.finishSeg s) .full)
  | 3 => match zn.st with
    | .empty => if s.quotaUsed nsid z n then (stZoneTooManyActive, s) else (stOk, move s .expOpen)
    | .impOpen => (stOk, move s .expOpen)
    | .closed => (stOk, move s .expOpen)
    | .expOpen => (stOk, s)
    | _ => (stZoneTransition, s)
  | 4 => match zn.st with
    | .offline => (stZoneTransition, s)
    | _ =>
      let q := zoneQuad nsid z
      let wp := zn.wp
      let s := (s.unmapZone nsid n z).onNs nsid fun x => { x with nuse := x.nuse - wp }
      let s := move s .empty
      (stOk, if s.atGuard q ∧ (s.pickOffline q).isNone then s.offlineZone nsid n z else s)
  | _ => (stZoneTransition, s)

/-- States that Select All acts on (ZNS; none for Offline, R141). -/
def selStates (act : Nat) (st : ZState) : Bool :=
  match act with
  | 1 => st == .impOpen || st == .expOpen
  | 2 => st == .impOpen || st == .expOpen || st == .closed
  | 3 => st == .closed
  | 4 => st == .impOpen || st == .expOpen || st == .closed || st == .full
  | _ => false

/-- A Zone Management Send row (R141, R142, R145, R146, R160): `act` is the row's action. -/
def State.zoneRow (s : State) (fsn act : Nat) : State :=
  match s.ioCmd fsn 0x79 with
  | none => s
  | some (c, n) =>
    if c.ph ≠ .fetched ∨ c.sqe.zsa ≠ act ∨ !s.zoneActTurn c n ∨ !s.myTurn c then s
    else if s.lvl.rdonly then s.complete fsn stWriteProtected
    else if !c.sqe.selAll ∧ c.sqe.slba % zsze n.fmt ≠ 0 then s.complete fsn stInvalidField
    else if !c.sqe.selAll ∧ n.nsze ≤ c.sqe.slba then s.complete fsn stLbaRange
    else
      let o := (s.zoneTargets c n (selStates act)).foldl (fun (a : Nat × State) z =>
        if a.1 = stOk then a.2.zoneAct c n act z else a) (stOk, s)
      o.2.complete fsn o.1

def execZoneClose (fsn : Nat) (s : State) : Out := .next (s.zoneRow fsn 1)
def execZoneFinish (fsn : Nat) (s : State) : Out := .next (s.zoneRow fsn 2)
def execZoneOpen (fsn : Nat) (s : State) : Out := .next (s.zoneRow fsn 3)
def execZoneReset (fsn : Nat) (s : State) : Out := .next (s.zoneRow fsn 4)
def execZoneOffline (fsn : Nat) (s : State) : Out := .next (s.zoneRow fsn 5)

/-- A zone descriptor of 64 bytes (ZNS). -/
def State.zoneDesc (s : State) (nsid : Nat) (n : Ns) (z : Nat) : List Byte :=
  let zn := s.zone nsid z
  padTo 64 (leBytes 1 2 ++ leBytes 1 (zn.st.zns * 16) ++ zeros 6 ++ leBytes 8 (zcap n.fmt) ++ leBytes 8 (z * zsze n.fmt) ++
    leBytes 8 (z * zsze n.fmt + zn.wp))

/-- Does a zone state match a reporting option (ZNS)? -/
def zoneRepOpt (opt : Nat) (st : ZState) : Bool :=
  match opt with
  | 0 => true
  | 1 => st == .empty | 2 => st == .impOpen | 3 => st == .expOpen | 4 => st == .closed | 5 => st == .full
  | 7 => st == .offline
  | _ => false

/-- ZONE_MANAGEMENT_RECEIVE (R141, Table 3.8): Report Zones from the zone of SLBA on, once the earlier commands to those zones have
executed. -/
def State.zoneReport (s : State) (fsn : Nat) : State :=
  match s.ioCmd fsn 0x7A with
  | none => s
  | some (c, n) =>
    if c.ph ≠ .fetched ∨ !s.zonesTurn c n (fun z => decide (n.zoneOf c.sqe.slba ≤ z)) ∨ !s.myTurn c then s
    else if c.sqe.cdw13 % 256 ≠ 0 ∨ 7 < c.sqe.cdw13 / 256 % 256 then s.complete fsn stInvalidField
    else
      let len := 4 * (c.sqe.cdw12 + 1)
      let zs := ((List.range n.zones).filter (fun z => decide (n.zoneOf c.sqe.slba ≤ z))).filter
        (fun z => zoneRepOpt (c.sqe.cdw13 / 256 % 256) (s.zone c.sqe.nsid z).st)
      let fit := zs.take ((len - 64) / 64)
      let cnt := if c.sqe.cdw13.testBit 16 then fit.length else zs.length
      s.complete fsn stOk 0 ((padTo 64 (leBytes 8 cnt) ++ fit.flatMap (s.zoneDesc c.sqe.nsid n)).take len)

def execZoneManagementReceive (fsn : Nat) (s : State) : Out := .next (s.zoneReport fsn)

end Sys2Proof.Machine
end

