-- ==== Sys2Proof/Machine/CaLane.lean ====
section
/-! DEFINITION. The flash channel's bus: entries, the split-mode command and address lane with its dies, and the data bursts
(chapter 7; R196, R199 to R206, R211). -/
namespace Sys2Proof.Machine

/-! ### Channels -/

/-- Word i of a window's memory or register array that begins at a register address (list memory, rings, FCH_RTY). -/
def memFld (base i : Nat) : Fld := ⟨base + 4 * i, 31, 0, .rw, .silicon, 0, none⟩

/-- A channel sequencer. -/
def State.chan (s : State) (c : Nat) : Chan := s.med.chans.get {} c

/-- Change a channel sequencer. -/
def State.onChan (s : State) (c : Nat) (f : Chan → Chan) : State := s.onMed fun m => { m with chans := m.chans.upd {} c f }

/-- The profile and configuration written for a channel, taken at a handshake or unit reset (R226). -/
def State.profOf (s : State) (c : Nat) : Prof :=
  { mix := s.flag F.FCH_CFG_MIX c, splitEn := s.flag F.FCH_CFG_SPLIT_EN c, splitMax := s.getF F.FCH_CFG_SPLIT_MAX c,
    erRes := s.getF F.FCH_PROF0_ER_RES c, erSusp := s.getF F.FCH_PROF0_ER_SUSP c, pgRes := s.getF F.FCH_PROF0_PG_RES c,
    pgSusp := s.getF F.FCH_PROF0_PG_SUSP c, retryFa := s.getF F.FCH_PROF1_RETRY_FA c, slcPfx := s.getF F.FCH_PROF1_SLC_PFX c,
    ipr := s.flag F.FCH_PROF2_IPR c, suspBit := s.getF F.FCH_PROF2_SUSP_BIT c, qlcLoad := s.getF F.FCH_PROF2_QLC_LOAD c }

/-- Planes set in a mask. -/
def planesOf (m : Nat) : List Nat := (List.range 4).filter (fun k => m.testBit k)

/-- Sectors an entry programs (Table 7.6). -/
def Entry.sectors (e : Entry) : Nat := if e.op = 0x11 then 64 else 4 * (planesOf e.planes).length

/-- A page read of the media. -/
def Entry.isRead (e : Entry) : Bool := e.op == 1 || e.op == 2 || e.op == 3
/-- A program. -/
def Entry.isProg (e : Entry) : Bool := e.op == 0x10 || e.op == 0x11
/-- An erase. -/
def Entry.isErase (e : Entry) : Bool := e.op == 0x20 || e.op == 0x21

/-- The entry is for SLC blocks: by its operation, or a read of a chunk in SLC mode (R196). -/
def State.entrySlc (s : State) (ch : Nat) (e : Entry) : Bool :=
  if e.isRead then (s.chunk (pageChunk ch e.lun e.page)).slc else e.op == 0x10 || e.op == 0x20

/-- The FCH_RTY levels that a retry step reads at, in order; 0 the die's defaults (Table 8.3). -/
def retryLevels (r : Nat) : List Nat := if r = 9 then [9, 10, 11] else if r = 10 then [9, 10, 11, 12, 13, 14, 15] else [r]

/-- Array reads a retry step makes (Table 8.3). -/
def retryReads (r : Nat) : Nat := (retryLevels r).length

/-- P1 to P4 of a level: its FCH_RTY register, zero for level 0 (R235, Table 8.9). -/
def State.retryParams (s : State) (ch level : Nat) : Nat := if level = 0 then 0 else s.getF (memFld 0x800100 level) ch

/-- An independent-plane read (R212). -/
def State.indep (s : State) (ch : Nat) (e : Entry) : Bool := (s.chan ch).prof.ipr && e.op == 1 && (planesOf e.planes).length == 1


/-! ### CA words (R201, R202) -/

/-- The even-parity bit of a CA word: over its bits [15:9] and [7:0] (Table 7.2). -/
def caPar (w : Nat) : Nat := (popN 7 (w / 512 % 128) + popN 8 (w % 256)) % 2

/-- A CA word: TYPE, CE, LUN within the CE, PAR and VALUE (Table 7.2). -/
def caWord (typ ce lun val : Nat) : Nat :=
  let w := typ % 4 * 2 ^ 14 + ce % 8 * 2 ^ 11 + lun % 4 * 2 ^ 9 + val % 256
  w + caPar w * 256

/-- The levels of CLE and ALE at the eight RE edges of a word: its most significant pair first, CLE the higher bit (R201). -/
def caEdges (w : Nat) : List (Bool × Bool) := (List.range 8).map fun i => (w.testBit (15 - 2 * i), w.testBit (14 - 2 * i))

/-- The word that eight edges carry. -/
def caOfEdges (l : List (Bool × Bool)) : Nat := l.foldl (fun a x => 4 * a + 2 * b2n x.1 + b2n x.2) 0

/-- The idle word (R202). -/
def caIdle : Nat := 0

/-- Control codes (Table 7.3). -/
def caSync : Nat := 1
def caDout : Nat := 2
def caDin : Nat := 3
def caStat : Nat := 4
def caExit : Nat := 5
def caPing : Nat := 6

/-- A die's LUN takes a word from the lane; `first` where it begins a sequence (R201, R202, R204). A word of bad parity discards its
sequence. SYNC reaches every die: the words that follow begin anew. A control word of another VALUE is counted as a parity error. -/
def DieCa.take (d : DieCa) (lun w : Nat) (first : Bool) : DieCa :=
  if !d.armed || w == caIdle then d
  else if caPar w != w / 256 % 2 then
    if w / 512 % 32 == lun then { d with bad := true, drop := true, errs := d.errs + 1, seq := [] } else d
  else if w / 2 ^ 14 == 3 && w % 256 == caSync then { d with drop := false, seq := [], burst := 0 }
  else if w / 512 % 32 != lun then d
  else if w / 2 ^ 14 == 3 then
    if w % 256 == caDout then { d with burst := 1 }
    else if w % 256 == caDin then { d with burst := 2 }
    else if w % 256 == caStat then { d with bad := false }
    else if w % 256 == caExit then { d with armed := false, seq := [] }
    else if w % 256 == caPing then d
    else { d with errs := d.errs + 1, bad := true }
  else if d.drop then d
  else if 0 < d.burst ∧ w / 2 ^ 14 = 2 then { d with burst := 0 }
  else { d with seq := (if first then [] else d.seq) ++ [w] }

/-- One word on a channel's lane, seen by every LUN. -/
def State.laneWord (s : State) (ch w : Nat) (first : Bool) : State :=
  let s := s.onChan ch fun c => { c with lane := c.lane ++ [w], sinceSync := if w / 2 ^ 14 == 3 && w % 256 == caSync then 0 else c.sinceSync + 1 }
  (List.range s.med.lunsCh).foldl (fun s l => if (s.lun ch l).ca.armed then s.onLun ch l fun x => { x with ca := x.ca.take l w first } else s) s

/-- SYNC, the first word after RE starts, once every 4,096 words, and before a reissued sequence (Table 7.3, R204). -/
def State.laneSync (s : State) (ch : Nat) : State := s.laneWord ch (caWord 3 0 0 caSync) false

/-- A sequence for one LUN in order: in split mode as CA words, with a SYNC where 4,096 words have passed since the last; else on the
command and address cycles that ONFI defines, which know no control codes (R199, R202, Table 7.3). -/
def State.sendCa (s : State) (ch lun : Nat) (ws : List (Nat × Nat)) : State :=
  if (s.chan ch).mode ≠ 3 then
    -- a control code and its length word have no cycle of their own in conforming mode
    let plain := (ws.zip ((0, 0) :: ws)).filterMap fun x => if x.1.1 = 3 ∨ (x.2.1 = 3 ∧ (x.2.2 = caDout ∨ x.2.2 = caDin)) then none else some x.1
    s.onChan ch fun c => { c with bus := c.bus ++ plain.map fun w => (lun, w.1, w.2) }
  else if !(s.chan ch).re then s
  else
    ((ws.zip (List.range ws.length)).foldl (fun s x =>
      let s := if 4095 ≤ (s.chan ch).sinceSync then s.laneSync ch else s
      s.laneWord ch (caWord x.1.1 (lun / 4) lun x.1.2) (x.2 == 0)) s)

/-! ### The sequences of Table 7.1, each cycle a pair of TYPE and VALUE -/

/-- A command cycle, an address cycle and a control code. -/
def cyc (v : Nat) : Nat × Nat := (1, v)
def adr (v : Nat) : Nat × Nat := (2, v % 256)
def ctl (v : Nat) : Nat × Nat := (3, v)

/-- Row address of a page index, lowest byte first (DESIGN CHOICE, assumption 114: the spec names the row address and not its bytes). -/
def rowAdr (page : Nat) : List (Nat × Nat) := [adr page, adr (page / 256), adr (page / 65536)]

/-- The five address cycles of a codeword of a page: column, then row. -/
def pageAdr (page cw : Nat) : List (Nat × Nat) := [adr (4608 * cw), adr (4608 * cw / 256)] ++ rowAdr page

/-- The page index of a plane of an operation (R196). -/
def State.planePage (s : State) (page k : Nat) : Nat := (s.groupBlocks page (2 ^ k)).headD 0 * s.blockPages + page % s.blockPages

/-- A sequence for each plane, all but the last ended by one command, the last by another. -/
def perPlane (ks : List Nat) (f : Nat → List (Nat × Nat)) (mid last : Nat) : List (Nat × Nat) :=
  (ks.zip (List.range ks.length)).flatMap fun x => f x.1 ++ [cyc (if x.2 + 1 = ks.length then last else mid)]

/-- LUN Set Features and LUN Get Features of a feature address; the four parameters pass as one burst (R199). -/
def setFeat (lun fa : Nat) : List (Nat × Nat) := [cyc 0xD5, adr (lun % 4), adr fa, ctl caDin, adr 1]
def getFeat (lun fa : Nat) : List (Nat × Nat) := [cyc 0xD4, adr (lun % 4), adr fa, ctl caDout, adr 1]

/-- The sequence that issues an entry (Table 7.1); each array read of a READ at another level than the last is preceded by the level's
Set Features (R235). -/
def State.issueSeq (s : State) (ch : Nat) (e : Entry) : List (Nat × Nat) :=
  let p := (s.chan ch).prof
  let pfx := if s.entrySlc ch e then [cyc p.slcPfx] else []
  let ks := planesOf e.planes
  match e.op with
  | 0x01 =>
    let ls := retryLevels e.retry
    (ls.zip ((s.lun ch e.lun).level :: ls)).flatMap fun x => (if x.1 != x.2 then setFeat e.lun p.retryFa else []) ++
      pfx ++ perPlane ks (fun k => cyc 0x00 :: pageAdr (s.planePage e.page k) 0) 0x32 0x30
  | 0x02 => pfx ++ perPlane ks (fun k => cyc 0x00 :: pageAdr (s.planePage e.page k) 0) 0x32 0x30
  | 0x03 => [cyc 0x31]
  | 0x04 => [cyc 0x3F]
  | 0x10 => pfx ++ perPlane ks (fun k => cyc 0x80 :: pageAdr (s.planePage e.page k) 0 ++ [ctl caDin, adr 72]) 0x11 0x10
  | 0x11 => (List.range 4).flatMap fun i =>
      perPlane ks (fun k => cyc 0x80 :: pageAdr (s.planePage e.page k + i) 0 ++ [ctl caDin, adr 72]) 0x11 (if i = 3 then 0x10 else p.qlcLoad)
  | 0x20 => pfx ++ perPlane ks (fun k => cyc 0x60 :: rowAdr (s.planePage e.page k)) 0xD1 0xD0
  | 0x21 => perPlane ks (fun k => cyc 0x60 :: rowAdr (s.planePage e.page k)) 0xD1 0xD0
  | 0x40 => getFeat e.lun (e.page % 256)
  | 0x41 => setFeat e.lun (e.page % 256)
  | _ => []

/-- Read Status Enhanced with its row address, and the status slot (R199, Table 7.3). -/
def statusSeq (page : Nat) : List (Nat × Nat) := cyc 0x78 :: rowAdr page ++ [ctl caStat]

/-- The transfers of a completed read: Change Read Column Enhanced to each codeword listed, and its burst of 4,608 bytes (R199,
R203). -/
def State.dataSeq (s : State) (e : Entry) : List (Nat × Nat) :=
  (planesOf e.planes).flatMap fun k => ((List.range 4).filter fun w => e.cw.testBit w).flatMap fun w =>
    cyc 0x06 :: pageAdr (s.planePage e.page k) w ++ [cyc 0xE0, ctl caDout, adr 18]

/-! ### Data bursts (R203, R211) -/

/-- The bursts of a program's load: one of a page, 18,432 bytes, for each page it writes. -/
def Entry.loads (e : Entry) : List Burst :=
  List.replicate (e.sectors / 4) { lun := e.lun, out := false, units := 72, left := 18432, seq := e.seq }

/-- A DIN or DOUT takes effect at the end of the bursts announced before it (R203). -/
def State.announce (s : State) (ch : Nat) (bs : List Burst) : State := s.onChan ch fun c => { c with dq := c.dq ++ bs }

/-- Bytes that a channel moves in a frame: 51,200 at 6.4 GT/s (Table 2.1), and in proportion at the lower rates (R197, R205). -/
def Chan.frameBytes (c : Chan) : Nat :=
  if c.mode = 3 then (if c.rate = 0 then 38400 else if c.rate = 1 then 44800 else 51200)
  else if c.mode = 2 then 28800 else if c.mode = 1 then 12800 else 0

/-- Bursts that move in a number of bytes, the first ones first; what is left of them (R211). -/
def moveBursts : List Burst → Nat → List Burst
  | [], _ => []
  | b :: t, n => if b.left ≤ n then moveBursts t (n - b.left) else { b with left := b.left - n } :: t

/-- A frame passes on a channel's bus: read data has gone first, program loads move in what it left, none while the channel
recalibrates (R211, R223); and a split lane carries SYNC, since a frame holds more than 4,096 words (Table 7.3). -/
def State.busFrame (s : State) (ch : Nat) : State :=
  let s := s.onChan ch fun c =>
    let n := if c.cal.isSome then 0 else c.frameBytes
    { c with dq := moveBursts c.dq (n - c.rdBytes), rdBytes := c.rdBytes - n, lane := [], bus := [], slots := [] }
  if (s.chan ch).mode = 3 ∧ (s.chan ch).re then s.laneSync ch else s

/-- Bytes that a read transfers: 4,608 for each codeword listed on each plane (R196, R209). -/
def Entry.readBytes (e : Entry) : Nat := 4608 * ((planesOf e.planes).length * ((List.range 4).filter fun w => e.cw.testBit w).length)

/-- DQ is free for a read's burst: the frame has time left on it, and the channel does not recalibrate (R203, R211, R223). -/
def State.dqFree (s : State) (ch : Nat) : Bool :=
  let c := s.chan ch
  c.cal.isNone && (c.mode == 0 || decide (c.rdBytes < c.frameBytes))

/-- The load of a program has ended: none of its bursts is left, and its array program runs (R211). -/
def State.loadDone (s : State) (ch lun seq : Nat) : Bool := !(s.chan ch).dq.any fun b => b.lun == lun && b.seq == seq && !b.out

/-- Read Status Enhanced of a LUN; in split mode the byte comes in a status slot, bit 2 of it set where the die has discarded a word
since the last (R199, R203, R204). -/
def State.statusSlot (s : State) (ch lun page byte : Nat) : State :=
  let v := if (s.lun ch lun).ca.bad then byte % 256 ||| 4 else byte % 256
  (s.onChan ch fun c => { c with slots := if c.mode = 3 then c.slots ++ [(lun, v)] else c.slots }).sendCa ch lun (statusSeq page)

/-- PING to LUNs: each returns 0xA5 in a status slot (Table 7.3). -/
def State.pingLuns (s : State) (ch : Nat) (ls : List Nat) : State :=
  ls.foldl (fun s l => (s.sendCa ch l [ctl caPing]).onChan ch fun c => { c with slots := c.slots ++ [(l, 0xA5)] }) s

/-- The LUNs of a channel that follow its CA lane. -/
def State.armedLuns (s : State) (ch : Nat) : List Nat := (List.range s.med.lunsCh).filter fun l => (s.lun ch l).ca.armed

/-- PING to every armed LUN of a split channel. -/
def State.pingAll (s : State) (ch : Nat) : State := if (s.chan ch).mode = 3 then s.pingLuns ch (s.armedLuns ch) else s

/-- LUNs are armed for the split mode, CE# goes low and RE runs: SYNC, and PING to each (Table 7.4 steps 3 to 7, R205). -/
def State.armSplit (s : State) (ch : Nat) (ls : List Nat) : State :=
  let s := ls.foldl (fun s l => s.onLun ch l fun x => { x with ca := { armed := true } }) s
  let s := (s.onChan ch fun c => { c with ceLow := true, re := true, lane := [] }).laneSync ch
  s.pingLuns ch ls

/-- EXIT to LUNs: they leave the split mode for the timing mode last set (R206). -/
def State.exitSplit (s : State) (ch : Nat) (ls : List Nat) : State := ls.foldl (fun s l => s.sendCa ch l [ctl caExit]) s

/-- A split channel leaves the mode: EXIT to every LUN, RE stops and CE# goes high (R206, R207, R225). -/
def State.leaveSplit (s : State) (ch : Nat) : State :=
  (s.exitSplit ch (List.range s.med.lunsCh)).onChan ch fun c => { c with mode := 2, ceLow := false, re := false, sinceSync := 0 }

/-! ### Initialisation and calibration (R197, R199, R222, R223, Table 7.1) -/

/-- Chip enables of the LUNs of a channel. -/
def State.ces (s : State) : Nat := cdiv s.med.lunsCh 4

/-- Reset, Read ID, Read Parameter Page and the timing mode's Set Features on each CE, then ZQ Calibration Long on each (R199, R222). The
timing mode's parameter byte is the die's (feature address 01h, ONFI; PRESUMED, assumption 126). -/
def State.initBus (s : State) (ch : Nat) : State :=
  (List.range s.ces).foldl (fun s k =>
    s.sendCa ch (4 * k) [cyc 0xFF, cyc 0x90, adr 0, cyc 0x90, adr 0x20, cyc 0xEC, adr 0, cyc 0xEF, adr 1, cyc 0xF9, adr 0]) s

/-- ZQ Calibration Short on each LUN in service (R223). -/
def State.calBus (s : State) (ch : Nat) : State :=
  (List.range s.med.lunsCh).foldl (fun s l => if (s.lun ch l).st = 1 then s.sendCa ch l [cyc 0xD9, adr (l % 4)] else s) s

/-- RE stops with CE# low while the group drowses, and a SYNC follows its restart (R206, R402). -/
def State.stopRe (s : State) (ch : Nat) : State := s.onChan ch fun c => { c with re := false }
def State.startRe (s : State) (ch : Nat) : State :=
  if (s.chan ch).mode = 3 then (s.onChan ch fun c => { c with re := true, lane := [] }).laneSync ch else s

end Sys2Proof.Machine
end

