-- ==== Sys2Proof/Machine/Media.lean ====
section
/-! DEFINITION. The flash channels and the media: operation lists, entries and their completion, suspension,
recalibration, decode reports, bad chunks, relocation, patrol, refresh and wear levelling (chapters 7 and 8; R195 to
R260, R63 to R67, R426, R482). An outcome of a die (success, timing, corrected bits) is an operand. -/
namespace Sys2Proof.Machine

/-! ### Registers of the GRP window and the rings -/

/-- Records of a ring. -/
def ringSize : Nat := 1024

/-- Free records of a ring (R227): full when TAIL + 1 equals HEAD modulo 1,024. -/
def ringFree (head tail : Nat) : Nat := (head + ringSize - 1 - tail % ringSize) % ringSize

/-- Write the waiting records of a group into a ring while it has room (R213, R233). -/
def State.pumpRing (s : State) (base : Nat) (head tail : Fld) (g : Nat) : List (Nat × Nat) → State × List (Nat × Nat)
  | [] => (s, [])
  | r :: t =>
    if ringFree (s.getF head g) (s.getF tail g) = 0 then (s, r :: t)
    else
      let i := s.getF tail g
      let s := ((s.setF (memFld base (2 * i)) r.1 g).setF (memFld base (2 * i + 1)) r.2 g).setF tail ((i + 1) % ringSize) g
      s.pumpRing base head tail g t

/-- The completion ring of a group takes its waiting records (R213). -/
def State.pumpCq (s : State) (g : Nat) : State :=
  let r := s.pumpRing 0x920000 F.GRP_CQ_HEAD_HEAD F.GRP_CQ_TAIL_TAIL g (s.med.cqWait.get [] g)
  r.1.onMed fun m => { m with cqWait := m.cqWait.set [] g r.2 }

/-- The decode ring of a group takes its waiting records (R233). -/
def State.pumpDr (s : State) (g : Nat) : State :=
  let r := s.pumpRing 0x930000 F.GRP_DR_HEAD_HEAD F.GRP_DR_TAIL_TAIL g (s.med.drWait.get [] g)
  r.1.onMed fun m => { m with drWait := m.drWait.set [] g r.2 }

/-- Statuses of a completion record (R213). -/
def ceOk : Nat := 0
def ceFail : Nat := 1
def ceNotIssued : Nat := 2
def ceIllegal : Nat := 3
def ceLunOff : Nat := 4
def ceTimeout : Nat := 5
def ceCaErr : Nat := 6
def ceConflict : Nat := 7

/-- A completion record: SEQ, channel offset, STATUS; the die's status byte or the feature parameters (R213). -/
def State.endEntry (s : State) (ch : Nat) (e : Entry) (status die : Nat) : State :=
  let g := ch / 8
  (s.onMed fun m => { m with cqWait := m.cqWait.upd [] g fun l => l ++ [(e.seq + ch % 8 * 2 ^ 16 + status * 2 ^ 24, die)] }).pumpCq g

/-- The completion ring has no room: no further entry is issued (R213). -/
def State.cqFull (s : State) (g : Nat) : Bool :=
  !(s.med.cqWait.get [] g).isEmpty || ringFree (s.getF F.GRP_CQ_HEAD_HEAD g) (s.getF F.GRP_CQ_TAIL_TAIL g) == 0

/-- The decode ring has no room: no further READ is issued (R233). -/
def State.drFull (s : State) (g : Nat) : Bool :=
  !(s.med.drWait.get [] g).isEmpty || ringFree (s.getF F.GRP_DR_HEAD_HEAD g) (s.getF F.GRP_DR_TAIL_TAIL g) == 0

/-! ### Charges and currents -/

/-- LUN time charged for an entry (Table 7.6, R212, R235), in us. -/
def State.entryTime (s : State) (ch : Nat) (e : Entry) : Nat :=
  let slc := s.entrySlc ch e
  let rd := if slc then s.get2 F.FCH_OPT0_RD_SLC ch else s.get2 F.FCH_OPT0_RD_QLC ch
  match e.op with
  | 1 => if s.indep ch e then cdiv (rd * retryReads e.retry) 4 else rd * retryReads e.retry
  | 2 => rd | 3 => rd
  | 0x10 => s.get2 F.FCH_OPT1_PG_SLC ch
  | 0x11 => s.get2 F.FCH_OPT1_PG_QLC ch
  | 0x20 => s.get2 F.FCH_OPT2_ER_SLC ch
  | 0x21 => s.get2 F.FCH_OPT2_ER_QLC ch
  | 0x40 => 1 | 0x41 => 1
  | _ => 0

/-- Bus current of an entry while it runs, in 0.1 mA (R426). -/
def State.entryCur (s : State) (ch : Nat) (e : Entry) : Nat :=
  let slc := s.entrySlc ch e
  match e.op with
  | 1 => (if slc then s.get4 F.PWR_OPC0_RD_SLC else s.get4 F.PWR_OPC0_RD_QLC) * retryReads e.retry
  | 2 => if slc then s.get4 F.PWR_OPC0_RD_SLC else s.get4 F.PWR_OPC0_RD_QLC
  | 3 => s.get4 F.PWR_OPC3_STREAM
  | 0x10 => s.get4 F.PWR_OPC1_PG_SLC
  | 0x11 => s.get4 F.PWR_OPC1_PG_QLC
  | 0x20 => s.get4 F.PWR_OPC2_ER_SLC
  | 0x21 => s.get4 F.PWR_OPC2_ER_QLC
  | 0x40 => s.get4 F.PWR_OPC3_FEAT
  | 0x41 => s.get4 F.PWR_OPC3_FEAT
  | _ => 0

/-- The current fits the remainder of the frame's budget (R426). -/
def State.budgetFits (s : State) (cur : Nat) : Bool := decide (s.sched.lunUsed + cur ≤ 10 * s.sched.budgetNow)

/-! ### List entries (Table 7.5) -/

/-- The four words of an entry of a group's list memory: channel offset c, buffer b, entry e. -/
def State.listWords (s : State) (g c b e : Nat) : List Nat :=
  (List.range 4).map fun w => s.getF (memFld 0x910000 ((c * 0x800 + b * 0x400 + e * 16) / 4 + w)) g

/-- Decode an entry's words (Table 7.5). -/
def entryOf (w : List Nat) : Entry :=
  let w0 := w.getD 0 0
  let w3 := w.getD 3 0
  { op := bits w0 7 0, lun := bits w0 12 8, planes := bits w0 19 16, retry := bits w0 23 20, cw := bits w0 27 24,
    page := bits (w.getD 1 0) 23 0, buf := w.getD 2 0, tid := bits w3 11 0, cls := bits w3 14 12, urg := w3.testBit 15, seq := bits w3 31 16 }

/-- Reserved bits of an entry's words are zero. -/
def entryReserved (w : List Nat) : Bool :=
  bits (w.getD 0 0) 15 13 == 0 && bits (w.getD 0 0) 31 28 == 0 && bits (w.getD 1 0) 31 24 == 0

/-- The listed operations (Table 7.6). -/
def listOps : List Nat := [0x01, 0x02, 0x03, 0x04, 0x10, 0x11, 0x20, 0x21, 0x40, 0x41]

/-- An operation that needs a profile opcode the profile leaves 0x00 (R226). -/
def State.noOpcode (s : State) (ch : Nat) (e : Entry) : Bool :=
  let p := (s.chan ch).prof
  (s.entrySlc ch e && p.slcPfx == 0) || (e.op == 0x11 && p.qlcLoad == 0) || (e.op == 1 && e.retry != 0 && p.retryFa == 0)

/-- Pages of a block in SLC mode: the first quarter of its indices (R196). -/
def State.slcPages (s : State) : Nat := max 1 (s.blockPages / 4)

/-- An entry the sequencer refuses with ILLEGAL at commit (R210, R213, R235). A program whose BUF names a slice of another quadrant
has no data path (R32), and an SLC page beyond the first quarter of its block does not exist (R196): these are refused likewise
(DESIGN CHOICE, assumption 115: R210 does not list them). -/
def State.entryIllegal (s : State) (ch : Nat) (w : List Nat) (e : Entry) : Bool :=
  !listOps.contains e.op || !entryReserved w ||
  ((e.isRead || e.isProg || e.isErase) && e.planes == 0) || ((e.op == 1 || e.op == 2 || e.op == 3) && e.cw == 0) ||
  ((e.op == 1 || e.op == 2) && decide (10 < e.retry)) ||
  ((e.isRead || e.isProg || e.isErase) && decide (s.med.perLun * chunkPages ≤ e.page)) ||
  (e.isProg && (decide (65536 ≤ e.buf) || decide (3072 < e.buf % 4096 + e.sectors) || e.buf / 4096 / 4 != ch / 32)) ||
  (e.op == 0x11 && e.planes != 15) || ((e.op == 0x10 || e.op == 0x20) && decide (s.slcPages ≤ e.page % s.blockPages)) ||
  s.noOpcode ch e

/-- The entries of a committed list: to its first END, which stays as its end, or its 64th entry (R209). -/
def State.readList (s : State) (g c b : Nat) : Nat → Nat → List (List Nat × Entry)
  | _, 0 => []
  | i, n + 1 =>
    let w := s.listWords g c b i
    let e := entryOf w
    if e.op = 0 then [(w, e)] else (w, e) :: s.readList g c b (i + 1) n

/-- The buffer that receives lists for the next frame (GRP_LIST_CTL.BUF). -/
def State.listBuf (s : State) : Nat := (s.time.frame + 1) % 2

/-- One committed list: entries that fail the checks complete at once, the others wait for the next frame (R210). A channel that
is neither UP nor drowsing takes no new work (Table 1.7): its entries complete with NOT_ISSUED. A drowsing group wakes for its list
(R403). -/
def State.commitList (s : State) (ch : Nat) : State :=
  let g := ch / 8
  let es := s.readList g (ch % 8) s.listBuf 0 64
  let up := s.unitState (uChan ch) == .up || s.unitState (uChan ch) == .drowse
  let r := es.foldl (fun (a : State × List Entry) x =>
    let e := x.2
    if e.op = 0 then (a.1, a.2 ++ [e])
    else if !up then (a.1.endEntry ch e ceNotIssued 0, a.2)
    else if a.1.entryIllegal ch x.1 e then (a.1.endEntry ch e ceIllegal 0, a.2)
    else if (a.1.lun ch e.lun).st ≠ 1 then (a.1.endEntry ch e ceLunOff 0, a.2)
    else (a.1, a.2 ++ [e])) (s, [])
  (r.1.onChan ch fun c => { c with next := some r.2 }).setF F.GRP_LIST_CTL_COMMIT ((s.getF F.GRP_LIST_CTL_COMMIT g) ||| 2 ^ (ch % 8)) g

/-- LIST_COMMIT (R43, R209): the ME of a group commits the lists of the channels of a mask; one committed after step 5
is discarded and raises LATE_LIST, an F0 event of the ME. -/
def State.listCommit (s : State) (g mask : Nat) (late : Bool) : State :=
  if late then
    let s := (s.raiseEvt F.FRM_EVT_LATE_LIST F.FRM_EVT_CNT0_LATE_CNT).raiseEvt F.GRP_EVT_LATE F.GRP_EVT_CNT_LATE_CNT g
    s.raiseFault 0x0002 (uEng (eME (s.serverMe g))) g
  else (List.range 8).foldl (fun s c => if mask.testBit c && !(s.getF F.GRP_LIST_CTL_COMMIT g).testBit c then s.commitList (8 * g + c) else s) s

def execListCommit (g : Nat) (mask : Nat) (late : Bool) (s : State) : Out :=
  .next (if g < 16 then s.listCommit g mask late else s)

/-! ### Admission (R41, R42, R45, R47, R60, R426) -/

/-- The urgency of a listed entry: URG stands for 2 or more (Table 7.5); a host read whose tenant has a read of urgency 1 or more
outstanding counts as 1 (R60; DESIGN CHOICE, assumption 103: the entry does not carry urgency 1). -/
def State.entryUrg (s : State) (e : Entry) : Nat :=
  if !e.isRead then 0
  else if e.urg then 2
  else if e.cls = 0 ∧ s.hif.cmds.any (fun c => c.ph == .reading && decide (1 ≤ c.urg) && s.tenantOf c == e.tid) then 1 else 0

/-- The entry as a request at its channel's arbiter; its place in the list stands for its FSN and its order stamp (DESIGN CHOICE,
assumption 88: the entry carries neither). -/
def State.entryRq (s : State) (e : Entry) (i : Nat) : Rq := { cls := e.cls, tid := e.tid, fsn := i, urg := s.entryUrg e, stamp := i, id := i }

/-- The maximal operation of a channel (Table 2.4). -/
def chanMax : Nat := 20000

/-- The order in which a channel's arbiter takes entries: each pick is counted before the next (R47, R49, R54, R60). -/
def State.rankChan (s : State) (ch : Nat) (es : List Entry) : List Rq → Nat → List Nat
  | _, 0 => []
  | l, n + 1 =>
    match s.sched.pick (arbChan ch) 0 chanMax l with
    | none => []
    | some x => x.id :: (s.chargeAt (arbChan ch) 0 x.cls x.tid ((es[x.id]?.map (s.entryTime ch)).getD 0)).rankChan ch es (l.filter fun y => y.id != x.id) n

/-- In a drain only SLC programs of landing data and journal closes are admitted (R45). -/
def Entry.drains (e : Entry) : Bool := e.op == 0x10 && (e.cls == 0 || e.cls == 4)

/-- A candidate of a frame: its place in its channel's order, its channel and its place in the list. -/
structure Cand where
  rank : Nat
  ch : Nat
  i : Nat
  e : Entry
  deriving DecidableEq, Repr

/-- The candidates of the frame in the order in which they are tried: those passed over in 16 consecutive frames first, then the
first of each channel's order, the second of each, and so on (R426; the turns among channels: DESIGN CHOICE, assumption 88). -/
def State.candidates_ (s : State) : List Cand :=
  let one := fun (ch : Nat) =>
    let es := (s.chan ch).list
    let l := (es.zip (List.range es.length)).filter fun x => x.1.op != 0 && (!s.sched.drain || x.1.drains)
    let order := s.rankChan ch es (l.map fun x => s.entryRq x.1 x.2) l.length
    (order.zip (List.range order.length)).filterMap fun x => es[x.1]?.map fun e => { rank := x.2, ch := ch, i := x.1, e := e : Cand }
  let all := s.med.chans.keys.flatMap one
  let late := fun (c : Cand) => s.med.passed.any fun p => p.1 == c.ch && p.2.1 == { c.e with seq := 0, adm := false } && decide (16 ≤ p.2.2)
  (all.filter late) ++ (List.range 64).flatMap fun r => all.filter fun c => c.rank == r && !late c

/-- Bus current of the operations that continue, those suspended too (R426, R427). -/
def State.contCur (s : State) : Nat := s.med.luns.vals.foldl (fun n l => l.run.foldl (fun n r => n + r.cur) n) 0

/-- How often in a row a candidate has been passed over. -/
def State.passedOf (s : State) (c : Cand) : Nat :=
  ((s.med.passed.find? fun p => p.1 == c.ch && p.2.1 == { c.e with seq := 0, adm := false }).map (·.2.2)).getD 0

/-- Candidates admitted while their current fits the remainder of the budget; the others are passed over, and a candidate passed
over in 16 frames keeps its current reserved (R426). Current used, the admitted, the passed over. -/
def State.admitCands (s : State) (cont : Bool) : List Cand → Nat → List Cand → List Cand → List Cand × List Cand
  | [], _, adm, late => (adm, late)
  | c :: t, used, adm, late =>
    let cur := s.entryCur c.ch c.e
    if cont && decide (used + cur ≤ 10 * s.sched.budgetNow) then s.admitCands cont t (used + cur) (adm ++ [c]) late
    else s.admitCands cont t (if 16 ≤ s.passedOf c then used + cur else used) adm (late ++ [c])

/-- The grants of LUN operations of the frame that opens (R41, R42 step 1, R426, R427). No new operation starts where those that
continue exceed the budget alone. -/
def State.admitLists (s : State) : State :=
  let cont := s.contCur
  let cands := s.candidates_
  let (adm, late) := s.admitCands (decide (cont ≤ 10 * s.sched.budgetNow)) cands cont [] []
  let s := s.med.chans.keys.foldl (fun s ch =>
    let es := (s.chan ch).list
    let s := if es.isEmpty then s else s.lookAt (arbChan ch) ((es.filter fun e => e.op != 0).map fun e => s.entryRq e 0)
    s.onChan ch fun c => { c with list := (c.list.zip (List.range c.list.length)).map fun x => { x.1 with adm := adm.any fun y => y.ch == ch && y.i == x.2 } }) s
  (s.onSched fun x => { x with lunUsed := cont }).onMed fun m => { m with passed := late.map fun c => (c.ch, { c.e with seq := 0, adm := false }, s.passedOf c + 1) }

/-! ### Issue -/

/-- A suspension's window has not ended (R63, R67). -/
def State.inWindow (s : State) (r : RunOp) : Bool := match r.since with | some f => decide (s.time.frame < f + r.win) | none => true

/-- A LUN may take an entry now (R63, R211, R212, R218): it is ready, or a read joins independent reads on other planes; under a
suspension only reads of urgency 1 or more within its window, and what ends a stream or reads a feature. -/
def State.lunReady (s : State) (ch : Nat) (e : Entry) : Bool :=
  let l := s.lun ch e.lun
  let held := l.run.filter (fun r => r.since.isNone)
  let free := held.isEmpty || (s.indep ch e && held.all (fun r => s.indep ch r.e && r.e.planes != e.planes))
  match l.run.find? (fun r => r.since.isSome) with
  | some r => free && s.inWindow r && (decide (1 ≤ s.entryUrg e) || e.op == 4 || e.op == 0x40)
  | none => free

/-- Streams open on a channel. -/
def State.streams (s : State) (ch : Nat) : Nat :=
  ((List.range s.med.lunsCh).filter (fun l => (s.lun ch l).stream.isSome)).length

/-- Its turn on its LUN: every earlier entry to it has been issued (R211), but a read of urgency 1 or more goes ahead of programs
and erases (R60). -/
def State.lunTurn (s : State) (ch i : Nat) (e : Entry) : Bool :=
  !((s.chan ch).list.take i).any fun x => x.lun == e.lun && x.op != 0 && !(decide (1 ≤ s.entryUrg e) && (x.isProg || x.isErase))

/-- The block at a page index of a LUN: channel and LUN, and the index over the pages of a block. -/
def State.blockOf (s : State) (ch lun page : Nat) : Nat := lunKey ch lun * 2 ^ 24 + page / s.blockPages

/-- The blocks that an erase entry names: one on each plane of its mask (R196). -/
def State.entryBlocks (s : State) (ch : Nat) (e : Entry) : List Nat := (s.groupBlocks e.page e.planes).map fun b => lunKey ch e.lun * 2 ^ 24 + b

/-- A read whose lookup returned an address in a block is still outstanding (R178). -/
def State.blockRead (s : State) (b : Nat) : Bool :=
  s.hif.cmds.any fun c => c.found.any fun x => match x with | .media ch lun page _ => s.blockOf ch lun page == b | _ => false

/-- A map entry names a sector of a block: what it holds is valid (R178, R183). -/
def State.blockNamed (s : State) (b : Nat) : Bool :=
  let names := fun (e : Ent) => match e with | .media ch lun page _ => s.blockOf ch lun page == b | _ => false
  s.map.coarse.items.any (fun x => names x.2) || s.map.fine.items.any fun x => match x.2 with | some f => f.ents.any names | none => false

/-- An erase waits: a read of its blocks is outstanding, or they hold a valid sector (R178, R183, R247). -/
def State.eraseBarred (s : State) (ch : Nat) (e : Entry) : Bool := (s.entryBlocks ch e).any fun b => s.blockRead b || s.blockNamed b

/-! ### Programs (R32, R112, R119, R134, R175, R176, R241, R254) -/

/-- The line of a program's page: of the segment's 32 for a QLC unit, the page of the block for an SLC unit (R134, R196, R241). -/
def State.entryLine (s : State) (e : Entry) : Nat :=
  if e.op = 0x11 then s.pageLine e.page else e.page % s.blockPages

/-- Media locations of a program's sectors in order: a QLC unit's 64, or four sectors on each plane at one page (R134, R196). -/
def State.entryLocs (s : State) (ch : Nat) (e : Entry) : List Nat :=
  if e.op = 0x11 then
    (List.range 64).map fun n => mloc ch e.lun (e.page + n / 4 / s.planePages * s.blockPages + n / 4 % s.planePages) (n % 4)
  else (planesOf e.planes).flatMap fun k => (List.range 4).map fun w => mloc ch e.lun (s.planePage e.page k) w

/-- The landing sectors that a program names, each with its place in the program. -/
def State.entrySecs (s : State) (e : Entry) : List (LSec × Nat) :=
  (List.range e.sectors).filterMap fun n => (s.lsec (e.buf + n)).map fun x => (x, n)

/-- The channel and the location of a final position (R134). -/
def destChan (d : Nat) : Nat := unitChan (d / 65536 / 2 ^ 20) (d % 65536 / 64)
def State.destLoc (s : State) (d : Nat) : Nat :=
  let u := d % 65536 / 64
  s.unitLoc (d / 65536 / 2 ^ 20) (u / 30) (u % 30) (d % 64) ((s.segCs (d / 65536)).getD (unitPos (u / 30) (u % 30)) 0)

/-- Erased SLC bytes that a channel keeps for drain grants: 4 MiB (R175), in chunks erased in SLC mode. -/
def State.slcReserve (s : State) : Nat := cdiv 256 (max 1 (chunkPages / s.blockPages * s.slcPages))

/-- Chunks of a channel erased in SLC mode and not programmed since. -/
def State.slcErased (s : State) (ch : Nat) : Nat := (s.med.chunks.items.filter fun x => x.1 / 2 ^ 21 == ch && x.2.slc && x.2.fresh && x.2.st == 0).length

/-- An SLC program may start: its channel is that of its sectors' final positions and a data position of its line, the line is open,
and outside a drain staging is not stopped and the channel's reserve is kept (R175, R176, R241). -/
def State.slcReady (s : State) (ch : Nat) (e : Entry) : Bool :=
  let q := ch / 32
  let line := s.entryLine e
  let c := s.chunk (pageChunk ch e.lun e.page)
  (s.entrySecs e).all (fun x => match x.1.dest with | some d => destChan d == ch | none => true) &&
  !isParity line (ch % 32) && (s.med.parity.find (mloc (32 * q + 2 * (line % 16)) e.lun (s.planePage e.page 0) 0)).isNone &&
  (s.sched.drain || ((e.cls != 0 || !s.med.slcStop.testBit q) && (!c.fresh || decide (s.slcReserve < s.slcErased ch))))

/-- A data unit of a segment gains no further sector: its segment is closed, or its stream or zone has passed it (R134). -/
def State.unitFull (s : State) (g u : Nat) : Bool :=
  match s.med.segs.get none g with
  | none => true
  | some x =>
    if !x.isOpen then true
    else match s.med.streams.items.find? (fun e => e.2.seg == some g) with
      | some e => decide (64 * (u + 1) ≤ e.2.pos)
      | none => match s.med.zseg.items.find? (fun e => e.2 == g + 1) with
        | some e => match s.ns (e.1 / 32 / 2 ^ 24) with
          | some n =>
            let z := s.zones.get {} (e.1 / 32)
            z.st == .full || decide (e.1 % 32 * (64 * hostUnits (fmtMeta n.fmt)) + 64 * (u + 1) ≤ z.wp)
          | none => true
        | none => true

/-- A valid sector for data unit d / 64 that stands in a slice outside a run of it, or in SLC (R134, R177). -/
def State.secDue (s : State) (d buf : Nat) : Bool :=
  s.lnd.secs.items.any (fun e => match e.2 with
    | some x => x.dest.map (· / 64) == some (d / 64) && !x.prog && !(decide (buf ≤ e.1) && decide (e.1 < buf + 64)) && s.lookup x.info.key == .landing (e.1 / 4096) (e.1 % 4096)
    | none => false) ||
  s.med.secs.items.any fun e => match e.2 with
    | some x => x.dest.map (· / 64) == some (d / 64) && s.lookup x.info.key == locEnt e.1
    | none => false

/-- A QLC program may start: its unit is complete, and every sector it names stands at its final position there (R134, R177). -/
def State.qlcReady (s : State) (ch : Nat) (e : Entry) : Bool :=
  let locs := s.entryLocs ch e
  (s.entrySecs e).all fun x => match x.1.dest with
    | some d => s.destLoc d == locs.getD x.2 0 && s.unitFull (d / 65536) (d % 65536 / 64) && !s.secDue d e.buf
    | none => false

/-- While a quadrant catches up, programs of host data admitted later wait for the marked sectors (R119). -/
def State.behindCatchup (s : State) (ch : Nat) (e : Entry) : Bool :=
  s.pwr.present && e.cls == 0 && !(s.entrySecs e).isEmpty && !((s.entrySecs e).any fun x => x.1.catchup) &&
  s.lnd.secs.items.any fun x => x.1 / 4096 / 4 == ch / 32 && (match x.2 with | some y => y.catchup && y.loc.isNone | none => false)

/-- A program may start: its chunk was found erased since its last erase (R254), and its sectors go there now. -/
def State.progReady (s : State) (ch : Nat) (e : Entry) : Bool :=
  let c := s.chunk (pageChunk ch e.lun e.page)
  (!c.fresh || c.checked) && !s.behindCatchup ch e && (if e.op = 0x11 then s.qlcReady ch e else s.slcReady ch e)

/-- An entry that its channel can issue now: granted for the frame, its turn on its LUN, and the channel and the LUN ready
(R41, R63, R211, R212, R218, R223); an erase waits for the reads of its blocks (R178), a program for its turn and place. -/
def State.canIssue (s : State) (ch i : Nat) (e : Entry) : Bool :=
  e.adm && e.op != 0 && s.lunTurn ch i e && (s.chan ch).cal.isNone && s.lunReady ch e &&
  (s.unitState (uChan ch) == .up || s.unitState (uChan ch) == .draining) && !s.swapping (eME (s.serverMe (ch / 8))) &&
  !(e.isErase && s.eraseBarred ch e) && (!e.isProg || s.progReady ch e)

/-- Take entry i of a channel's list when it is of an operation and the channel can issue it, and no entry before it in the list
(R211: the lower list position first); a READ that waits for the decode ring does not hold the others (R233). -/
def State.takeEntry (s : State) (ch i op : Nat) : Option (Entry × State) :=
  match (s.chan ch).list[i]? with
  | none => none
  | some e =>
    let before := ((s.chan ch).list.take i).zip (List.range i)
    if e.op ≠ op ∨ !s.canIssue ch i e ∨ before.any (fun x => s.canIssue ch x.2 x.1 && !(x.1.isRead && s.drFull (ch / 8))) then none
    else some (e, s.onChan ch fun c => { c with list := c.list.eraseIdx i })

/-- A ring without room when an entry is due: recorded, and nothing is issued (R213, R233). -/
def State.ringWait (s : State) (ch : Nat) (read : Bool) : Option State :=
  let g := ch / 8
  if s.cqFull g then some (s.raiseEvt F.GRP_EVT_CQ_FULL F.GRP_EVT_CNT_FULL_CNT g)
  else if read && s.drFull g then some (s.raiseEvt F.GRP_LDPC_EVT_DR_FULL F.GRP_LDPC_CNT1_FULL_CNT g)
  else none

/-- The LDPC encoder reads the landing sectors of a program: one with a word that does not deliver is not programmed, its block becomes
POISON, and its space is freed (R331, Table 11.3). -/
def State.encodeSecs (s : State) (ch : Nat) (e : Entry) : State :=
  if e.isProg then
    ((List.range e.sectors).map (e.buf + ·)).foldl (fun s lk => match s.lsec lk with
      | some x =>
        let r := s.readSector (lk / 4096) (lk % 4096) (uGroup (ch / 8))
        if r.1 then r.2 else (r.2.poisonLanded lk x).onLnd fun l => { l with secs := l.secs.set none lk none }
      | none => s) s
  else s

/-- The entry starts on its LUN: its sequence goes out and a program's load is announced (R199, R203, R211), its time is charged to its class and tenant, its current counts while it runs (R46, R426). -/
def State.startEntry (s : State) (ch : Nat) (e : Entry) : State :=
  let t := s.entryTime ch e
  let c := s.entryCur ch e
  let s := ((s.encodeSecs ch e).chargeAt (arbChan ch) 0 e.cls e.tid t).onSched fun x => { x with lunUsed := x.lunUsed + c }
  let s := (s.sendCa ch e.lun (s.issueSeq ch e)).announce ch (if e.isProg then e.loads else [])
  let level := if e.op = 1 then (retryLevels e.retry).getLastD 0 else (s.lun ch e.lun).level
  let set := e.op == 1 && (level != (s.lun ch e.lun).level || 1 < (retryLevels e.retry).length)
  s.onLun ch e.lun fun l => { l with run := l.run ++ [{ e := e, start := s.time.frame, cur := c, time := t }], level := level,
                                     levelP := if set then s.retryParams ch level else l.levelP }

/-- Any other operation listed for a LUN closes its stream with 3Fh (R216, R217). -/
def State.closeStream (s : State) (ch lun : Nat) : State :=
  if (s.lun ch lun).stream.isSome then (s.sendCa ch lun [cyc 0x3F]).onLun ch lun fun l => { l with stream := none } else s

/-- An issue row: take the entry and start it as `f` says, or wait for a ring. -/
def State.issueRow (s : State) (ch i op : Nat) (read : Bool) (f : Entry → State → State) : State :=
  match s.takeEntry ch i op with
  | none => s
  | some (e, s') => match s.ringWait ch read with
    | some w => w
    | none => f e s'

/-- A read names the block group under suspension (R218). -/
def State.suspConflict (s : State) (ch : Nat) (e : Entry) : Bool :=
  (s.lun ch e.lun).run.any fun r => r.since.isSome && r.e.page / (4 * s.blockPages) == e.page / (4 * s.blockPages)

/-- LIST_READ (R211, R212, R216, R218, R235). -/
def execListRead (ch i : Nat) (s : State) : Out :=
  .next (s.issueRow ch i 0x01 true fun e s =>
    if s.suspConflict ch e then s.endEntry ch e ceConflict 0 else (s.closeStream ch e.lun).startEntry ch e)

/-- STREAM_OPEN (R216): beyond 8 streams of a channel it is not issued. -/
def execStreamOpen (ch i : Nat) (s : State) : Out :=
  .next (s.issueRow ch i 0x02 true fun e s =>
    let s := s.closeStream ch e.lun
    if 8 ≤ s.streams ch then s.endEntry ch e ceNotIssued 0
    else (s.startEntry ch e).onLun ch e.lun fun l => { l with stream := some (e.page, e.planes) })

/-- STREAM_EXT (R216): the last page plus one, the same block and planes; anything else is ILLEGAL and closes the
stream, as the block's last page does once it is read. -/
def execStreamExt (ch i : Nat) (s : State) : Out :=
  .next (s.issueRow ch i 0x03 true fun e s =>
    match (s.lun ch e.lun).stream with
    | some (p, m) =>
      if e.page = p + 1 ∧ e.planes = m ∧ e.page / s.blockPages = p / s.blockPages then
        let s := s.startEntry ch e
        if e.page % s.blockPages = (if s.entrySlc ch e then s.slcPages else s.blockPages) - 1 then s.closeStream ch e.lun else s.onLun ch e.lun fun l => { l with stream := some (e.page, m) }
      else (s.closeStream ch e.lun).endEntry ch e ceIllegal 0
    | none => s.endEntry ch e ceIllegal 0)

/-- STREAM_CLOSE (R216). -/
def execStreamClose (ch i : Nat) (s : State) : Out :=
  .next (s.issueRow ch i 0x04 false fun e s => (s.closeStream ch e.lun).endEntry ch e ceOk 0)

/-- A program, erase or feature entry starts. -/
def startOther (ch i op : Nat) (s : State) : State :=
  s.issueRow ch i op false fun e s => (s.closeStream ch e.lun).startEntry ch e

/-- PROG_SLC (R175, R211). -/
def execProgSlc (ch i : Nat) (s : State) : Out := .next (startOther ch i 0x10 s)
/-- PROG_QLC (R196, R211). -/
def execProgQlc (ch i : Nat) (s : State) : Out := .next (startOther ch i 0x11 s)

/-- An erase is issued once its ERASE_INTENT group has closed: not while the journal ring has no room for it (R187, R252). -/
def eraseRow (ch i op : Nat) (s : State) : State :=
  if !s.ringRoom 3 then s
  else s.issueRow ch i op false fun e s =>
    let k := pageChunk ch e.lun e.page
    let s := (s.jnlSystem [s.eraseRec 6 ch e.lun (e.page / chunkPages)]).takeStamp (uChan ch)
    ((s.onChunk k fun c => { c with intent := true }).closeStream ch e.lun).startEntry ch e

/-- ERASE_SLC (R252). -/
def execEraseSlc (ch i : Nat) (s : State) : Out := .next (eraseRow ch i 0x20 s)
/-- ERASE_QLC (R252). -/
def execEraseQlc (ch i : Nat) (s : State) : Out := .next (eraseRow ch i 0x21 s)
/-- GET_FEAT (R200, R211). -/
def execGetFeat (ch i : Nat) (s : State) : Out := .next (startOther ch i 0x40 s)
/-- SET_FEAT, issued as D5h (R200). -/
def execSetFeat (ch i : Nat) (s : State) : Out := .next (startOther ch i 0x41 s)

/-- END (R209): the list ends here. -/
def execEndEntry (ch : Nat) (s : State) : Out :=
  .next (s.onChan ch fun c => { c with list := c.list.takeWhile (fun e => e.op != 0) })

/-- A decode record (Table 8.2). -/
def decodeRec (tag cw plane res cnt iter retry c : Nat) : Nat × Nat :=
  (tag % 2 ^ 32, cw + plane * 4 + res * 16 + (cnt + iter * 1024) * 256 + (retry + c * 16) * 2 ^ 24)

/-! ### Erasures of a line (R243) -/

/-- The other positions of a page's line that are erasures (R243). -/
def State.slotLost (s : State) (ch lun page : Nat) : Nat := ((s.lineErasures ch lun page).filter (· != ch % 32)).length

/-- A read of one codeword for a rebuild: URG, CLASS, TID and SEQ are those of the read that needs it (R243). -/
def rebuildRead (e : Entry) (lun k cw page : Nat) : Entry :=
  { e with op := 1, lun := lun, planes := 2 ^ k, cw := 2 ^ cw, page := page, retry := 0, adm := false, again := false }

/-- The reads of a rebuild (R243): the slot's codewords on the other positions, Q's only where a second erasure asks for it, each
listed on its channel with the URG, CLASS and TID of the read that needs them; none where three erasures leave nothing to rebuild. -/
def State.listRebuild (s : State) (ch lun page cw : Nat) (e : Entry) (erasures : Nat) : State :=
  let q := ch / 32
  match s.segOf ch lun page with
  | none => s
  | some g =>
    let cs := s.segCs g
    let line := s.pageLine page
    if 3 ≤ erasures then s
    else (List.range 32).foldl (fun s p =>
      if p = ch % 32 ∨ s.posGone q p (cs.getD p 0) line ∨ (erasures ≤ 1 ∧ p = 2 * (line % 16) + 1) then s
      else
        let c := cs.getD p 0
        let pg := c % 65536 * chunkPages + page % chunkPages
        s.onChan (32 * q + p) fun x => { x with relist := x.relist ++ [rebuildRead e (c / 65536) (pg / s.blockPages % 4) cw pg] }) s

/-! ### Chunk retirement (R246 to R250) -/

/-- The grown ring is full: records in state retired move to the SYS-area grown list (R250). -/
def State.grownRoom (s : State) : State :=
  if s.med.grown.length < 16384 then s
  else s.onMed fun m => { m with grownSys := m.grownSys ++ m.grown.filter (fun g => g.state == 1), grown := m.grown.filter (fun g => g.state != 1) }

/-- Retire a chunk for a reason of Table 8.5: a grown record, state relocating, and the chunk is no longer good
(R248). -/
def State.retireChunk (s : State) (ch lun chunk reason : Nat) : State :=
  let k := chunkKey ch lun chunk
  if (s.chunk k).st = 2 then s
  else
    let s := s.grownRoom
    let c := s.chunk k
    let g : Grown := { stamp := s.stampNow (uChan ch), ch := ch, lun := lun, chunk := chunk, reason := reason, state := 0, qe := c.qe, se := c.se }
    let s := (s.takeStamp (uChan ch)).onMed fun m => { m with grown := m.grown ++ [g], grownCnt := m.grownCnt.upd 0 ch (· + 1) }
    (s.onChunk k fun c => { c with st := 2 }).raiseEvt F.QD_MED_EVT_RETIRE F.QD_MED_CNT0_RETIRE_CNT (ch / 32)

/-- A retired chunk's relocation has ended: its grown record is in state retired. -/
def State.grownDone (s : State) (ch lun chunk : Nat) : State :=
  s.onMed fun m => { m with grown := m.grown.map fun g => if g.ch = ch ∧ g.lun = lun ∧ g.chunk = chunk then { g with state := 1 } else g }

/-- Queue a chunk for refresh (R256). -/
def State.queueRefresh (s : State) (ch lun chunk : Nat) : State :=
  let k := chunkKey ch lun chunk
  if (s.chunk k).queued then s
  else (s.onChunk k fun c => { c with queued := true }).raiseEvt F.QD_MED_EVT_REFRESH F.QD_MED_CNT0_REFRESH_CNT (ch / 32)

/-- A LUN is taken out of service: an F2 event of the channel (R247). -/
def State.lunOut (s : State) (ch lun : Nat) : State :=
  (s.onLun ch lun fun l => { l with st := 2 }).raiseFault 0x0203 (uChan ch) lun

/-! ### Suspension (R63 to R67, R218 to R221) -/

/-- A listed read that can have an operation on its LUN suspended: URG set, admitted for the frame, its tenant eligible (R60, R63,
R427). -/
def State.urgentRead (s : State) (ch lun : Nat) : Option Entry :=
  (s.chan ch).list.find? (fun e => e.lun == lun && e.urg && (e.op == 1 || e.op == 2) && e.adm && s.sched.eligible (arbChan ch) e.tid 0 chanMax)

/-- The suspend and resume opcodes of an operation. -/
def Prof.canSuspend (p : Prof) (e : Entry) : Bool :=
  if e.isProg then p.pgSusp != 0 && p.pgRes != 0 else p.erSusp != 0 && p.erRes != 0

/-- The conditions of R63. Two whole frames are counted from the frame of issue or of the last resume, wherever within it that was
(DESIGN CHOICE, assumption 104). -/
def State.maySuspend (s : State) (ch lun : Nat) (r : RunOp) : Bool :=
  s.flag F.FRM_SUSP_EN && (r.e.isProg || r.e.isErase) && r.since.isNone && decide (r.susp < 8) &&
  decide (r.start + 2 ≤ s.time.frame) && (s.chan ch).prof.canSuspend r.e && !s.sched.drain && (s.urgentRead ch lun).isSome

/-- PROGRAM_SUSPEND (R63, R218, R219): `done` where the operation finishes as the opcode reaches the die, which voids the
suspension. -/
def State.suspend (s : State) (ch lun : Nat) (done : Bool) : State :=
  if done || !((s.lun ch lun).run.any (s.maySuspend ch lun)) then s
  else
    let p := (s.chan ch).prof
    let s' := s.sendCa ch lun [cyc (if (s.lun ch lun).run.any (fun r => s.maySuspend ch lun r && r.e.isProg) then p.pgSusp else p.erSusp)]
    s'.onLun ch lun fun l => { l with run := l.run.map fun r =>
                                   if s.maySuspend ch lun r then { r with susp := r.susp + 1, since := some s.time.frame, win := s.getF F.FRM_SUSP_WIN } else r }

def execProgramSuspend (ch lun : Nat) (done : Bool) (s : State) : Out := .next (s.suspend ch lun done)

/-- A suspension ends: its window is over, no listed read of urgency 1 or more remains, or drain grants are in force (R45, R63,
R220). -/
def State.resumeDue (s : State) (ch lun : Nat) (r : RunOp) : Bool :=
  r.since.isSome && (!s.inWindow r || !((s.chan ch).list.any fun e => e.lun == lun && decide (1 ≤ s.entryUrg e)) || s.sched.drain)

/-- Reads still listed for a LUN complete with NOT_ISSUED (R220). -/
def State.dropReads (s : State) (ch lun : Nat) : State :=
  let mine := (s.chan ch).list.filter fun e => e.lun == lun && e.isRead
  (mine.foldl (fun s e => s.endEntry ch e ceNotIssued 0) s).onChan ch fun c => { c with list := c.list.filter fun e => !(e.lun == lun && e.isRead) }

/-- The resume (R63, R64, R220): once no read's burst is left on the LUN, the operation runs on. -/
def State.resume (s : State) (ch lun : Nat) : State :=
  if (s.lun ch lun).run.any (fun r => r.since.isNone) || !((s.lun ch lun).run.any (s.resumeDue ch lun)) then s
  else
    let p := (s.chan ch).prof
    let s' := s.sendCa ch lun [cyc (if (s.lun ch lun).run.any (fun r => s.resumeDue ch lun r && r.e.isProg) then p.pgRes else p.erRes)]
    let s' := s'.onLun ch lun fun l => { l with run := l.run.map fun r =>
                                           if s.resumeDue ch lun r then { r with since := none, start := s.time.frame } else r }
    if s.sched.drain then s'.dropReads ch lun else s'

def execSuspendResume (ch lun : Nat) (s : State) : Out := .next (s.resume ch lun)

/-- Suspensions that are over end at the tick (R63, R66). -/
def State.resumeAll (s : State) : State :=
  (s.med.luns.items.filter fun (e : Nat × Lun) => e.2.run.any fun r => r.since.isSome).foldl (fun s e => s.resume (e.1 / 32) (e.1 % 32)) s

/-! ### Completion -/

/-- A read of a chunk is counted, and disturbs it (R251, R256). -/
def State.countRead (s : State) (ch : Nat) (e : Entry) : State :=
  let k := pageChunk ch e.lun e.page
  let s := s.onChunk k fun c => { c with reads := c.reads + 1 }
  if s.get2 F.QD_MED_CFG_DISTURB (ch / 32) * 1024 ≤ (s.chunk k).reads then s.queueRefresh ch e.lun (e.page / chunkPages) else s

/-- A program succeeded (R112, R239, R241, R242): what its sectors hold stands on the media, a QLC unit with the metadata codewords
staged for it, and enters its line's parity. -/
def State.progOk (s : State) (ch : Nat) (e : Entry) : State :=
  let q := ch / 32
  let chunk := e.page / chunkPages
  let line := s.entryLine e
  let locs := s.entryLocs ch e
  let s := (locs.zip (List.range e.sectors)).foldl (fun s x => s.putSector (e.buf + x.2) x.1 (e.op == 0x11)) s
  let s := s.onChunk (chunkKey ch e.lun chunk) fun c => { c with used := true, checked := false, fails := 0, fresh := false, seen := 0 }
  if e.op = 0x11 then
    match s.segOf ch e.lun e.page with
    | some g =>
      let s := if isParity line (ch % 32) then s else s.putMeta g (30 * line + posRank line (ch % 32))
      let s := ((s.accTake q g line false (ch % 32) (s.unitBytes locs)).lineDone q g line).markMissed q g line
      s.onMed fun m => { m with segs := m.segs.upd none g fun o => o.map fun (x : Seg) => { x with last := s.time.ms } }
    | none => s
  else
    let stripe := e.lun * 65536 + chunk
    let slots := (List.range 16).map fun n => if e.planes.testBit (n / 4) then mloc ch e.lun (s.planePage e.page (n / 4)) (n % 4) else 0
    let unit := ((List.range 16).zip (s.unitBytes slots)).map fun x => if e.planes.testBit (x.1 / 4) then x.2 else []
    let s := s.accTake q stripe line true (ch % 32) unit
    s.onMed fun m =>
      let old := m.slcLines.find? (fun x => x.1 == q && x.2.1 == stripe && x.2.2.1 == line)
      let rest := m.slcLines.filter (fun x => !(x.1 == q && x.2.1 == stripe && x.2.2.1 == line))
      let n := ((s.accOf q stripe line true).map (·.units)).getD 0
      { m with staged := m.staged ++ [(locs.headD 0, e.planes)]
               slcUnits := m.slcUnits.upd 0 q (· + 1)
               slcLines := rest ++ [match old with | some x => (q, stripe, line, x.2.2.2.1, n) | none => (q, stripe, line, s.time.frame, n)] }

/-- An erase succeeded (R252): the blocks it names. -/
def State.eraseOk (s : State) (ch : Nat) (e : Entry) : State :=
  s.eraseBlocks ch e.lun (e.page / chunkPages) (s.groupBlocks e.page e.planes) (e.op == 0x20)

/-- Remove a running operation from its LUN; its current counts to the end of the frame (R426). -/
def State.endRun (s : State) (ch lun : Nat) (r : RunOp) : State :=
  s.onLun ch lun fun l => { l with run := l.run.erase r }

/-- The running operation of a tag on a channel. -/
def State.findRun (s : State) (ch seq : Nat) : Option (Nat × RunOp) :=
  ((List.range s.med.lunsCh).filterMap fun l => ((s.lun ch l).run.find? (fun r => r.e.seq == seq)).map (fun r => (l, r))).head?

/-- ENTRY_COMPLETION (R213, R246, R247, R252): the running entry of a tag ends, a program's once its load has ended and a read's when DQ
is free for its data (R211); `fail` is the die's report, `die` its
status byte or the feature parameters. -/
def State.entryComplete (s : State) (ch seq : Nat) (fail : Bool) (die : Nat) : State :=
  match s.findRun ch seq with
  | none => s
  | some (l, r) =>
    if r.since.isSome || !s.loadDone ch l seq || (r.e.isRead && !s.dqFree ch) then s
    else
      let e := r.e
      let s := if e.isRead || e.isProg || e.isErase then s.statusSlot ch l e.page die else s
      let s := if e.isRead then s.sendCa ch l (s.dataSeq e) else s
      let s := s.endRun ch l r
      let s := if e.isRead then s.onChan ch fun c =>
          { c with decoding := (c.decoding ++ [e]).drop (c.decoding.length - 63), rdBytes := c.rdBytes + e.readBytes } else s
      let bad := fail && (e.isProg || e.isErase)
      let s := if e.isRead then s.countRead ch e
        else if bad then s.retireChunk ch e.lun (e.page / chunkPages) (if e.isProg then 1 else 2)
        else if e.isProg then s.progOk ch e
        else if e.isErase then s.eraseOk ch e
        else s
      (s.endEntry ch e (if bad then ceFail else ceOk) (if e.op = 0x40 then die % 2 ^ 32 else die % 256)).resume ch l

def execEntryCompletion (ch seq : Nat) (fail : Bool) (die : Nat) (s : State) : Out := .next (s.entryComplete ch seq fail die)

/-- Whole us an operation has run since its issue or last resume. -/
def State.ranUs (s : State) (r : RunOp) : Nat := 8 * (s.time.frame - r.start)

/-- The time after which an operation that is not ready has timed out, in us, and the time it has taken: twice its charge, or twice
TSUSP after a suspend (R214). -/
def State.timedOut (s : State) (ch : Nat) (r : RunOp) : Bool :=
  match r.since with
  | some f => decide (2 * s.get2 F.FCH_OPT3_TSUSP ch ≤ 8 * (s.time.frame - f))
  | none => decide (2 * r.time ≤ s.ranUs r)

/-- A codeword that no read delivers is FAIL: its record in the decode ring (R233, R247). -/
def State.failRecs (s : State) (ch : Nat) (e : Entry) : State :=
  let g := ch / 8
  let cws := (planesOf e.planes).flatMap fun k => ((List.range 4).filter fun w => e.cw.testBit w).map fun w => (k, w)
  cws.foldl (fun s x =>
    let s := s.raiseEvt F.GRP_LDPC_EVT_FAIL F.GRP_LDPC_CNT0_FAIL_CNT g
    ((s.onMed fun m => { m with drWait := m.drWait.upd [] g fun l => l ++ [decodeRec e.buf x.2 x.1 2 0x3FF 0 e.retry (ch % 8)] }).pumpDr g).listRebuild ch e.lun
      (s.planePage e.page x.1) x.2 e 1) s

/-- OPERATION_TIMEOUT (R214, R246, R247): an operation not ready within twice its charged time completes with TIMEOUT as
an F1 event, and FAh goes to its LUN; a program's or erase's chunk is retired, a read is listed once again, and a second timeout
sends its codewords to rebuild; three on one LUN within 64 frames take it out of service. -/
def State.opTimeout (s : State) (ch seq : Nat) : State :=
  match s.findRun ch seq with
  | none => s
  | some (l, r) =>
    if !s.timedOut ch r then s
    else
      let e := r.e
      let s := ((s.endRun ch l r).raiseEvt F.FCH_EVT_TIMEOUT F.FCH_EVT_CNT0_TOUT_CNT ch).raiseFault 0x0106 (uChan ch) l
      let s := (s.sendCa ch l [cyc 0xFA]).onChan ch fun c => { c with dq := c.dq.filter fun b => !(b.lun == l && b.seq == e.seq) }
      let s := if e.isProg then s.retireChunk ch l (e.page / chunkPages) 1 else if e.isErase then s.retireChunk ch l (e.page / chunkPages) 2
        else if e.isRead then (if e.again then s.failRecs ch e else s.onChan ch fun c => { c with relist := c.relist ++ [{ e with again := true, adm := false }] })
        else s
      let now := s.time.frame
      let recent := ((s.lun ch l).touts.filter (fun f => decide (now < f + 64))) ++ [now]
      let s := s.onLun ch l fun x => { x with touts := recent, stream := none }
      let s := if 3 ≤ recent.length ∧ (s.lun ch l).st = 1 then s.lunOut ch l else s
      s.endEntry ch e ceTimeout 0

def execOperationTimeout (ch seq : Nat) (s : State) : Out := .next (s.opTimeout ch seq)

/-- A channel's recalibration is due (R223). -/
def State.calDue (s : State) (ch : Nat) : State :=
  s.onChan ch fun c => { c with due := if c.due.isSome then c.due else some s.time.frame }

/-- CA_PARITY_ERROR (R204): the die discarded the sequence of entry i, which is reissued; the third reissue that fails
completes it with CA_ERR, an F1 event; two frames with CA_ERR out of 64 make recalibration due. -/
def State.caParity (s : State) (ch i : Nat) : State :=
  match (s.chan ch).list[i]? with
  | none => s
  | some e =>
    if (s.chan ch).mode ≠ 3 ∨ e.op = 0 then s
    else if (s.chan ch).caTries < 3 then
      -- the die's next status slot shows bit 2; SYNC, and the sequence from its first word
      let s := s.onLun ch e.lun fun l => { l with ca := { l.ca with bad := true, drop := true, errs := l.ca.errs + 1, seq := [] } }
      (((s.statusSlot ch e.lun e.page 0).laneSync ch).sendCa ch e.lun (s.issueSeq ch e)).onChan ch fun c => { c with caTries := c.caTries + 1 }
    else
      let now := s.time.frame
      let frames := (((s.chan ch).caErr.filter (fun f => decide (now < f + 64 ∧ f ≠ now))) ++ [now])
      let s := s.onChan ch fun c => { c with caTries := 0, caErr := frames, list := c.list.eraseIdx i }
      let s := (s.raiseEvt F.FCH_EVT_CA_PAR F.FCH_EVT_CNT0_CAPAR_CNT ch).raiseFault 0x0105 (uChan ch) e.lun
      let s := s.endEntry ch e ceCaErr 0
      if 2 ≤ frames.length then s.calDue ch else s

def execCaParityError (ch i : Nat) (s : State) : Out := .next (s.caParity ch i)

/-! ### Recalibration (R222 to R225, R482) -/

/-- A recalibration may begin (R223, R224): due, no other channel of the group recalibrates, and no entry with URG set is
listed or it has been due for 64 frames. -/
def State.calMayBegin (s : State) (ch : Nat) : Bool :=
  match (s.chan ch).due with
  | some f => (s.chan ch).cal.isNone && !((List.range 8).any fun k => (s.chan (ch / 8 * 8 + k)).cal.isSome) &&
      (!((s.chan ch).list.any (·.urg)) || decide (f + 64 ≤ s.time.frame))
  | none => false

/-- The end of a recalibration (R225): `shift` the largest centre shift in 1/64 UI, `eye` whether an eye is open at
3.6 GT/s. -/
def State.calEnd (s : State) (ch shift : Nat) (eye : Bool) : State :=
  let s := s.onChan ch fun c => { c with cal := none, calLast := s.time.frame }
  let s := if shift ≤ s.get2 F.FCH_CAL_SHIFT_MAX ch then s
    else
      let s := s.raiseEvt F.FCH_EVT_CAL_SHIFT F.FCH_EVT_CNT1_SHIFT_CNT ch
      if (s.chan ch).mode ≠ 3 then s
      else if (s.chan ch).rate = 0 then s.leaveSplit ch
      else s.onChan ch fun c => { c with rate := c.rate - 1 }
  if eye then s else (s.raiseFault 0x020D (uChan ch)).fenceUnit (uChan ch)

/-- RECALIBRATION (R223 to R225): a due recalibration begins; one that runs ends. `moved`: the die temperature has moved by
TDELTA since the last one, which makes it due. -/
def State.recal (s : State) (ch shift : Nat) (eye moved : Bool) : State :=
  let s := if moved then s.calDue ch else s
  if (s.chan ch).cal.isSome then s.calEnd ch shift eye
  else if s.calMayBegin ch then (s.calBus ch).onChan ch fun c => { c with cal := some s.time.frame, due := none }
  else s

def execRecalibration (ch shift : Nat) (eye moved : Bool) (s : State) : Out := .next (s.recal ch shift eye moved)

/-! ### Decode (R230 to R237, R243) -/

/-- What the decoder found: zero bits of the raw codeword, bits corrected or none, iterations. -/
def State.decodeResult (s : State) (g zeros : Nat) (fixed : Option Nat) : Nat × Nat :=
  if zeros ≤ s.getF F.GRP_LDPC_CFG_ERS_MAX g then (3, zeros)
  else match fixed with
    | none => (2, 0x3FF)
    | some n => if s.getF F.GRP_LDPC_CFG_EW g ≤ n then (1, n) else (0, n)

/-- A decoded codeword of the parts of an entry: plane k of a page index (R196). -/
def State.pagePlane (s : State) (page : Nat) : Nat := page / s.blockPages % 4

/-- A codeword that fails the last step of the ladder goes to stripe rebuild (R236, R243): with three erasures in its
slot or more, or with metadata that R230 does not take, its sector becomes POISON; a worn chunk is retired, another queued for refresh (Table 8.5). -/
def State.rebuildSlot (s : State) (ch lun page cw erasures : Nat) (e : Option Entry) : State :=
  let k := pageChunk ch lun page
  let q := ch / 32
  let worn := s.get2 F.QD_WEAR_CFG_RATED_QLC q * s.get2 F.QD_WEAR_CFG_RATED_SLC q ≤ s.wearNum q (s.chunk k)
  let s := if worn then s.retireChunk ch lun (page / chunkPages) 5 else s.queueRefresh ch lun (page / chunkPages)
  let lost := max erasures (1 + s.slotLost ch lun page)
  let s := match e with | some e => s.listRebuild ch lun page cw e lost | none => s
  let ls := s.lineErasures ch lun page
  let found := s.rebuildCw ch lun page cw (if ls.contains (ch % 32) then ls else ch % 32 :: ls)
  let bad := match found with | some b => !metaOk b | none => false
  match s.med.secs.get none (mloc ch lun page cw) with
  | some x => if (3 ≤ lost ∨ bad) ∧ s.lookup x.info.key = .media ch lun page cw then s.poisonSlot q x.info.key 0 else s
  | none => s

/-- The erased-state check of a chunk not programmed since its erase (R254): it is found erased once every codeword of the first and
the last page of its blocks has decoded as ERASED; one that does not has the chunk erased once more under intent, and a second
failure retires it with reason 3. -/
def State.eraseCheck (s : State) (ch lun page cw status : Nat) : State :=
  let chunk := page / chunkPages
  let k := chunkKey ch lun chunk
  let n := page % chunkPages / s.blockPages
  let last := (if (s.chunk k).slc then s.slcPages else s.blockPages) - 1
  let i := page % s.blockPages
  if (s.chunk k).st ≠ 0 ∨ !(s.chunk k).fresh ∨ (i ≠ 0 ∧ i ≠ last) then s
  else if status = 3 then s.onChunk k fun c =>
    let seen := c.seen ||| (if i = 0 then 2 ^ (n * 8 + cw % 4) else 0) ||| (if i = last then 2 ^ (n * 8 + 4 + cw % 4) else 0)
    { c with seen := seen, checked := seen + 1 == 2 ^ (8 * (chunkPages / s.blockPages)) }
  else if (s.chunk k).fails = 0 then (s.eraseFree ch lun chunk).onChunk k fun c => { c with fails := 1 }
  else (s.retireChunk ch lun chunk 3).grownDone ch lun chunk

/-- The read whose codeword the decoder had: the latest completed one of the page that listed it at this step. -/
def State.readOf (s : State) (ch lun page cw retry : Nat) : Option Entry :=
  (s.chan ch).decoding.reverse.find? fun e => e.lun == lun && e.retry == retry && e.cw.testBit cw && (planesOf e.planes).any fun k => s.planePage e.page k == page

/-- A FAIL below the last step: the ME lists a read of the codeword alone at the higher of the chunk's hint and the next step, with
the URG, CLASS and TID of the read (R236). -/
def State.climb (s : State) (ch lun page cw retry : Nat) : State :=
  match s.readOf ch lun page cw retry with
  | some e => s.onChan ch fun c =>
      { c with relist := c.relist ++ [{ e with op := 1, planes := 2 ^ s.pagePlane page, cw := 2 ^ cw, adm := false, again := false,
                                               retry := max (s.chunk (pageChunk ch lun page)).hint (retry + 1) }] }
  | none => s

/-- CODEWORD_DECODE (R230, R232 to R237, R243): codeword `cw` of a page is decoded at a retry step with the outcome given, `fixed` none
where it does not decode or its metadata's VERSION or KIND is not of Table 8.1;
`erasures` are the slot's erasures where the step is the last and fails. -/
def State.codeword (s : State) (ch lun page cw retry tag zeros : Nat) (fixed : Option Nat) (iter erasures : Nat) : State :=
  let g := ch / 8
  let r := s.decodeResult g zeros fixed
  let chunk := page / chunkPages
  let k := chunkKey ch lun chunk
  let s := if r.1 ≠ 0 ∨ tag.testBit 31 then
      (s.onMed fun m => { m with drWait := m.drWait.upd [] g fun l => l ++ [decodeRec tag cw (s.pagePlane page) r.1 r.2 iter retry (ch % 8)] }).pumpDr g
    else s
  let s := s.eraseCheck ch lun page cw r.1
  let s := if r.1 ≤ 1 ∧ retry ≠ 0 then s.onChunk k fun c => { c with hint := retry } else s
  let s := if r.1 ≤ 1 ∧ 9 ≤ retry then s.queueRefresh ch lun chunk else s
  match r.1 with
  | 1 =>
    let s := (s.raiseEvt F.GRP_LDPC_EVT_EARLY F.GRP_LDPC_CNT0_EARLY_CNT g).onChunk k fun c => { c with early := c.early + 1 }
    if s.get2 F.QD_MED_CFG_REFRESH_EW (ch / 32) ≤ (s.chunk k).early then s.queueRefresh ch lun chunk else s
  | 2 =>
    let s := s.raiseEvt F.GRP_LDPC_EVT_FAIL F.GRP_LDPC_CNT0_FAIL_CNT g
    if retry = 10 then s.rebuildSlot ch lun page cw erasures (s.readOf ch lun page cw retry) else s.climb ch lun page cw retry
  | _ => s

def execCodewordDecode (ch lun page cw retry tag zeros : Nat) (fixed : Option Nat) (iter erasures : Nat) (s : State) : Out :=
  .next (s.codeword ch lun page cw retry tag zeros fixed iter erasures)

/-! ### SLC lines (R241, R242) -/

/-- Does a location lie in an SLC line? -/
def State.inSlcLine (s : State) (q stripe line loc : Nat) : Bool :=
  let page := loc / 4 % 2 ^ 24
  let lk := loc / 4 / 2 ^ 24
  lk / 32 / 32 == q && lk % 32 * 65536 + page / chunkPages == stripe && page % s.blockPages == line

/-- SLC_LINE_CLOSE (R241): 30 positions are programmed, or SLC_CLOSE frames have passed since the first unit; its parity
is programmed, its accumulator freed, and its sectors count as programmed (R242). -/
def State.closeSlcLine (s : State) (q stripe line : Nat) : State :=
  match s.med.slcLines.find? (fun x => x.1 == q && x.2.1 == stripe && x.2.2.1 == line) with
  | none => s
  | some x =>
    if x.2.2.2.2 < 30 ∧ s.time.frame < x.2.2.2.1 + s.get2 F.QD_PAR_CFG_SLC_CLOSE q then s
    else
      let s := match s.accOf q stripe line true with
        | some a => s.putParity line a fun p n => mloc (32 * q + p) (stripe / 65536) (stripe % 65536 * chunkPages + line + n / 4 * s.blockPages) (n % 4)
        | none => s
      let s := s.onMed fun m => { m with slcLines := m.slcLines.erase x, accs := m.accs.filter (fun a => !(a.quad == q && a.slc && a.seg == stripe && a.line == line)) }
      s.onLnd fun l => { l with secs := l.secs.mapV fun _ o => o.map fun (y : LSec) => match y.loc with
                                  | some loc => if s.inSlcLine q stripe line loc then { y with prog := true } else y
                                  | none => y }

def execSlcLineClose (q stripe line : Nat) (s : State) : Out := .next (s.closeSlcLine q stripe line)

/-! ### Relocation, patrol, refresh, wear (R243 to R248, R255 to R257) -/

/-- A media entry moved from one chunk of a channel to another at the same offset. -/
def shiftEnt (k k2 : Nat) : Ent → Ent
  | .media ch lun page cw =>
    if lunKey ch lun = k / 65536 ∧ page / chunkPages = k % 65536 then .media ch (k2 / 65536 % 32) (k2 % 65536 * chunkPages + page % chunkPages) cw
    else .media ch lun page cw
  | e => e

/-- A location moved likewise. -/
def shiftLoc (k k2 loc : Nat) : Nat := if inChunk k loc then ((k2 / 65536) * 2 ^ 24 + k2 % 65536 * chunkPages + loc / 4 % 2 ^ 24 % chunkPages) * 4 + loc % 4 else loc

/-- MAP records of a relocation (R186, kind GC). -/
def State.shiftRecs (s : State) (k k2 : Nat) : List JRec :=
  s.map.coarse.items.flatMap fun e => match e.2 with
    | .fine r => match s.fineRec r with
      | some f => (f.ents.zip (List.range f.ents.length)).filterMap fun x =>
          if shiftEnt k k2 x.1 = x.1 then none else some { typ := 2, sub := x.2, a := e.1 * 16 + x.2, b := (shiftEnt k k2 x.1).encode }
      | none => []
    | x => if shiftEnt k k2 x = x then [] else [{ typ := 2, sub := 0xFF, a := e.1, b := (shiftEnt k k2 x).encode }]

/-- Move every programmed unit and every entry that still names the old chunk (R245). -/
def State.moveChunk (s : State) (k k2 : Nat) : State :=
  let recs := s.shiftRecs k k2
  let src := (s.segOf (k / 2 ^ 21) (k / 65536 % 32) (k % 65536 * chunkPages)).getD 0
  let gs := runs1024 (recs.length + 1) recs
  let s := gs.foldl (fun s r => s.jnlGroup (closedRecs { id := 0, kind := 1, fsn := 0, ns := 1, wsn := 0, src := src } r)) s
  let moved := s.med.secs.items.filter (fun e => inChunk k e.1)
  let s := s.onMed fun m => { m with secs := moved.foldl (fun t e => t.set none (shiftLoc k k2 e.1) e.2) m.secs,
                                     parity := (m.parity.items.filter fun e => inChunk k e.1).foldl (fun t e => (t.set [] e.1 []).set [] (shiftLoc k k2 e.1) e.2) m.parity,
                                     staged := m.staged.map fun x => (shiftLoc k k2 x.1, x.2),
                                     segs := m.segs.mapV fun i o => o.map fun (g : Seg) => { g with chunks := (g.chunks.zip (List.range 32)).map fun x => if i / 2 ^ 20 = k / 2 ^ 26 ∧ k / 65536 / 32 % 32 = x.2 ∧ x.1 = k / 65536 % 32 * 65536 + k % 65536 then k2 / 65536 % 32 * 65536 + k2 % 65536 else x.1 } }
  let s := s.onMap fun m => { m with coarse := m.coarse.mapV fun _ e => shiftEnt k k2 e,
                                     fine := m.fine.mapV fun _ o => o.map fun (f : Fine) => { f with ents := f.ents.map (shiftEnt k k2) } }
  let old := s.chunk k
  (s.onChunk k2 fun c => { c with used := true, slc := old.slc, fresh := false, checked := false, seen := 0 }).onChunk k fun c => { c with used := false, queued := false }

/-- Relocate a chunk (R245): each of `fails` program failures retires the free chunk taken; after four, or without a
free chunk, the position stays an erasure. Answers whether it moved. -/
def State.relocate (s : State) (ch lun chunk : Nat) : Nat → Nat → Bool × State
  | fails, n =>
    match n with
    | 0 => (false, (s.onChunk (chunkKey ch lun chunk) fun c => { c with lost := true }).raiseFault 0x0204 (uChan ch) chunk)
    | m + 1 =>
      match s.pickChunkCh ch with
      | none => (false, s.onChunk (chunkKey ch lun chunk) fun c => { c with lost := true })
      | some (l, k) =>
        if fails = 0 then (true, s.moveChunk (chunkKey ch lun chunk) (chunkKey ch l k))
        else ((s.retireChunk ch l k 1).grownDone ch l k).relocate ch lun chunk (fails - 1) m

/-- Must a chunk be relocated (R243, R246, R247, R479)? It is retired, its LUN is out of service, or it missed a line while
its channel was fenced. -/
def State.needsMove (s : State) (ch lun chunk : Nat) : Bool :=
  let c := s.chunk (chunkKey ch lun chunk)
  !c.lost && c.used && (c.st == 2 || (s.lun ch lun).st == 2 || !c.missed.isEmpty) && s.unitState (uChan ch) == .up

/-- CHUNK_RELOCATION (R245, R248, R478): a chunk that causes erasures moves; its grown record ends in state retired, and a
chunk of a LUN out of service is then retired (reason 6, or 7 for the operator's). A good chunk that missed a line while its
channel was fenced moves likewise and is erased and free again (R479). -/
def State.chunkReloc (s : State) (ch lun chunk fails : Nat) (operator : Bool) : State :=
  if !s.needsMove ch lun chunk then s
  else
    let r := s.relocate ch lun chunk fails 4
    if (s.lun ch lun).st = 2 then (r.2.retireChunk ch lun chunk (if operator then 7 else 6)).grownDone ch lun chunk
    else if (s.chunk (chunkKey ch lun chunk)).st = 2 then r.2.grownDone ch lun chunk
    else if r.1 then r.2.eraseFree ch lun chunk
    else r.2

def execChunkRelocation (ch lun chunk fails : Nat) (operator : Bool) (s : State) : Out := .next (s.chunkReloc ch lun chunk fails operator)

/-- Pages that a lap reads of a chunk: those programmed of a closed segment's chunk, or in closed SLC lines (R255). -/
def State.patrolPages (s : State) (k : Nat) : Nat :=
  let mine := ((s.med.secs.keys.filter fun l => inChunk k l && !s.med.slcLines.any fun x => s.inSlcLine x.1 x.2.1 x.2.2.1 l).map (· / 4)).eraseDups.length
  match s.segOf (k / 2 ^ 21) (k / 65536 % 32) (k % 65536 * chunkPages) with
  | some g => match s.med.segs.get none g with | some x => if x.isOpen then 0 else mine | none => 0
  | none => if (s.chunk k).slc then mine else 0

/-- FLASH_PATROL (R255): a quadrant ends a patrol lap: every page of its programmed chunks has been read once, the lap
number advances, and the lap's counts begin again. -/
def State.patrol (s : State) (q : Nat) : State :=
  s.onMed fun m => { m with lap := m.lap.upd 0 q (· + 1),
                            chunks := m.chunks.mapV fun k c => if k / 65536 / 32 / 32 = q then { c with reads := if c.used then c.reads + s.patrolPages k else c.reads, early := 0, refr := 0 } else c }

def execFlashPatrol (q : Nat) (s : State) : Out := .next (if q < 4 then s.patrol q else s)

/-- REFRESH (R256): a queued chunk is relocated in the scrub class and the old chunk erased; refreshed twice within one
lap it is retired with reason 4 instead of being returned. -/
def State.refresh (s : State) (ch lun chunk fails : Nat) : State :=
  let k := chunkKey ch lun chunk
  let c := s.chunk k
  if !c.queued || c.st ≠ 0 then s
  else
    let r := s.relocate ch lun chunk fails 4
    if !r.1 then r.2
    else
      let s := r.2.onChunk k fun c => { c with refr := c.refr + 1, queued := false }
      if 2 ≤ (s.chunk k).refr then (s.retireChunk ch lun chunk 4).grownDone ch lun chunk else s.eraseFree ch lun chunk

def execRefresh (ch lun chunk fails : Nat) (s : State) : Out := .next (s.refresh ch lun chunk fails)

/-- The good chunks in use on a channel: wear and key. -/
def State.usedChunks (s : State) (ch : Nat) : List (Nat × Nat) :=
  (s.med.chunks.items.filter (fun e => e.1 / 65536 / 32 == ch && e.2.st == 0 && e.2.used)).map (fun e => (s.wearNum (ch / 32) e.2, e.1))

/-- The conventional segment whose chunk a channel's least-worn chunk in use is, where the spread passes 0.1. -/
def State.wearOffer (s : State) (ch : Nat) : Option Nat :=
  let q := ch / 32
  let d := s.get2 F.QD_WEAR_CFG_RATED_QLC q * s.get2 F.QD_WEAR_CFG_RATED_SLC q
  match s.usedChunks ch with
  | [] => none
  | x :: t =>
    let lo := t.foldl (fun m y => if y.1 < m.1 then y else m) x
    let hi := t.foldl (fun m y => max m y.1) x.1
    if 10 * (hi - lo.1) ≤ d then none
    else match s.segOf ch (lo.2 / 65536 % 32) (lo.2 % 65536 * chunkPages) with
      | some g => match s.med.segs.get none g with | some y => if y.kind = 0 then none else some g | none => none
      | none => none

/-- WEAR_LEVEL_CHECK (R257): each channel of a quadrant whose good chunks in use differ by more than 0.1 in wear fraction
offers the conventional segment of its least-worn chunk first as a GC victim. -/
def State.wearCheck (s : State) (q : Nat) : State :=
  ((List.range 32).map (32 * q + ·)).foldl (fun s ch => match s.wearOffer ch with
    | some g => s.onMed fun m => { m with offer := if g ∈ m.offer then m.offer else m.offer ++ [g] }
    | none => s) s

def execWearLevelCheck (q : Nat) (s : State) : Out := .next (if q < 4 then s.wearCheck q else s)

/-! ### The tick -/

/-- At the tick a channel's entries not issued complete with NOT_ISSUED, streams without an extension close, and the
committed list comes into force, after the reads that the ME lists again (R209, R211, R216, R236, R247); a channel whose PERIOD has passed is due for recalibration (R223). -/
def State.tickChan (s : State) (ch : Nat) : State :=
  let c := s.chan ch
  let s := (c.list.filter (fun e => e.op != 0)).foldl (fun s e => s.endEntry ch e ceNotIssued 0) s
  let new := (c.relist ++ c.next.getD []).take 64
  let s := (List.range s.med.lunsCh).foldl (fun s l => if (s.lun ch l).stream.isSome ∧ !new.any (fun e => e.lun == l && e.op == 3) then s.closeStream ch l else s) s
  let s := (s.onChan ch fun c => { c with list := new, next := none, relist := [] }).busFrame ch
  if c.mode ≠ 0 ∧ c.calLast + s.get2 F.FCH_CAL_PERIOD ch * 125000 ≤ s.time.frame then s.calDue ch else s

/-- Erasures of a line of a segment. -/
def State.segErasures (s : State) (q : Nat) (g : Seg) (line : Nat) : Nat :=
  ((List.range 32).filter fun p => s.posGone q p (g.chunks.getD p 0) line).length

/-- Lines programmed of a segment. -/
def State.segLines (s : State) (k : Nat) (g : Seg) : List Nat := g.closed ++ (s.med.accs.filter (fun a => a.seg == k && !a.slc)).map (·.line)

/-- DEGRADED and TWO of a quadrant (R244). -/
def State.parStat (s : State) (q : Nat) : Nat × Bool :=
  s.med.segs.items.foldl (fun a e => match e.2 with
    | some g => if e.1 / 2 ^ 20 = q then
        let ns := (s.segLines e.1 g).map (s.segErasures q g)
        (a.1 + (ns.filter (0 < ·)).length, a.2 || ns.any (2 ≤ ·))
      else a
    | none => a) (0, false)

/-- Step 2 for a quadrant's parity status (R162, R260): the counts are shown, a line reaching two erasures raises
TWO_ERASE, a lower ACC_MAX spills, and a line whose last unit landed for a channel that is gone closes. -/
def State.tickParity (s : State) (q : Nat) : State :=
  let p := s.parStat q
  let s := if p.2 && !s.flag F.QD_PAR_STAT_TWO q then s.raiseEvt F.QD_MED_EVT_TWO_ERASE F.QD_MED_CNT1_TWO_CNT q else s
  let s := ((s.setF F.QD_PAR_STAT_DEGRADED (min 65535 p.1) q).setFlag F.QD_PAR_STAT_TWO p.2 q).setF F.QD_PAR_STAT_ACC_USED (s.accUsed q) q
  let s := (List.range 32).foldl (fun s _ => if s.get2 F.QD_PAR_CFG_ACC_MAX q < s.accUsed q then s.spillOldest q else s) s
  (s.med.accs.filter (fun a => a.quad == q && !a.slc)).foldl (fun s a => s.lineDone q a.seg a.line) s

end Sys2Proof.Machine
end

