-- ==== Sys2Proof/Machine/Service.lean ====
section
/-! DEFINITION. Zones taken Offline, the read-only transition, demotion, folding, garbage collection, the journal's
pages, checkpoints, replay and rebuilds of the map (chapters 5 and 6; R158 to R161, R169, R174 to R193). -/
namespace Sys2Proof.Machine

/-! ### Capacity withdrawn -/

/-- ZONE_OFFLINING (R158): with SPARE at GUARD the next qualifying Empty zone of the quadrant goes Offline. -/
def State.zoneOfflining (s : State) (q : Nat) : State :=
  if !s.atGuard q then s
  else match s.pickOffline q with
    | some (nsid, z) => match s.ns nsid with
      | some n => s.offlineZone nsid n z
      | none => s
    | none => s

def execZoneOfflining (q : Nat) (s : State) : Out := .next (if q < 4 then s.zoneOfflining q else s)

/-- READ_ONLY_TRANSITION (R160, R161): SPARE of the quadrant at FLOOR makes every namespace read-only from the start of the next
frame. -/
def State.readOnly (s : State) (q : Nat) : State :=
  if s.lvl.rdonly ∨ floorSegs < s.spare q then s else s.onLvl fun l => { l with roPend := putBit l.roPend q true }

/-- The transition at the start of a frame (R160, R161): the SMART and endurance group warnings, VW_STAT.RDONLY, the SMART / Health
event, and the quadrant's RDONLY event, shown with its counts at step 2 (R162). -/
def State.readOnlyNow (s : State) : State :=
  if s.lvl.roPend = 0 then s
  else
    let qs := (List.range 4).filter fun q => s.lvl.roPend.testBit q
    let s := (s.onLvl fun l => { l with rdonly := true, roPend := 0 }).onHif fun h => { h with smart := putBit h.smart 3 true }
    let s := s.onMed fun m => { m with capPend := qs.foldl (fun t q => t.upd 0 (q * 2 + 1) (· + 1)) m.capPend }
    (s.aenAll { typ := 1, info := 0, lid := 0x02 }).logState 2 0 1

/-- Step 2 shows the zones taken Offline and the transitions of a quadrant with its counts (R162). -/
def State.showCapEvts (s : State) (q : Nat) : State :=
  let s := (List.range (s.med.capPend.get 0 (q * 2))).foldl (fun s _ => s.raiseEvt F.QD_CAP_EVT_OFFLINE F.QD_CAP_CNT_OFF_CNT q) s
  let s := (List.range (s.med.capPend.get 0 (q * 2 + 1))).foldl (fun s _ => s.raiseEvt F.QD_CAP_EVT_RDONLY F.QD_CAP_CNT_RO_CNT q) s
  s.onMed fun m => { m with capPend := (m.capPend.set 0 (q * 2) 0).set 0 (q * 2 + 1) 0 }

def execReadOnlyTransition (q : Nat) (s : State) : Out := .next (if q < 4 then s.readOnly q else s)

/-- The read-only state ends only when a deletion raises SPARE above GUARD in every quadrant (R160). -/
def State.endReadOnly (s : State) : State :=
  if s.lvl.rdonly ∧ (List.range 4).all (fun q => !s.atGuard q) then
    ((s.onLvl fun l => { l with rdonly := false }).onHif fun h => { h with smart := putBit h.smart 3 false }).logState 2 1 0
  else s

/-! ### Copies: demotion, fold, GC -/

/-- The namespace that a coarse unit belongs to, and the highest WSN of its sectors. -/
def State.unitNs (s : State) (u : Nat) : Nat :=
  ((s.nss.items.find? fun e => match e.2 with | some n => n.granules.contains (u / 16384) | none => false).map (·.1)).getD 0
def State.unitWsn (s : State) (u : Nat) : Nat :=
  (s.unitEnts u).foldl (fun a e => match e with
    | .media ch lun p w => max a (((s.med.secs.get none (mloc ch lun p w)).map (·.info.wsn)).getD 0)
    | .landing sl sec => max a (((s.lsec (sl * 4096 + sec)).map (·.info.wsn)).getD 0)
    | _ => a) 0

/-- The content of a sector that a copy carries (R168, R177, R182), its ciphertext where it has one: none where it cannot be copied.
A sector that is UNMAPPED or ZERO has no copy of its own: it is written as zeros of its unit's namespace, with the highest WSN of the
unit (DESIGN CHOICE, assumption 117: R169 does not name such sectors). -/
def State.copySrc (s : State) (key : Nat) : Option (MSec × Bool) :=
  let blank := fun (un : Bool) => ({ info := { ns := s.unitNs (key / 16), key := key, wsn := s.unitWsn (key / 16), unwritten := un }, data := zeros 4096 : MSec }, false)
  match s.lookup key with
  | .media ch lun p w => (s.med.secs.get none (mloc ch lun p w)).map fun m => (m, true)
  | .unmapped => some (blank true)
  | .zero => some (blank false)
  | _ => none

/-- The pages that hold the sources of these keys. -/
def State.srcPages (s : State) (keys : List Nat) : List (Nat × Nat × Nat) :=
  (keys.filterMap fun k => match s.lookup k with | .media ch lun p _ => some (ch, lun, p) | _ => none).eraseDups

/-- The lookups and page reads of a copy, in the GC class (R171, R177, R180). -/
def State.readCopies (s : State) (keys : List Nat) : State := (s.walkAll keys).chargePages 1 0 (s.srcPages keys)

/-- The lines of a copy's final positions join those that its source segment waits for (R183). -/
def State.noteInto (s : State) (src : Nat) (ds : List (Option Nat)) : State :=
  let ls := (ds.filterMap fun d => d.map fun x => x / 65536 * 32 + x % 65536 / 64 / 30).eraseDups
  s.onMed fun m => { m with segs := m.segs.upd none src fun o => o.map fun (g : Seg) => { g with into := g.into ++ ls.filter fun l => !g.into.contains l } }

/-- Copy sectors to places of a slice, with their final positions, as a journal group of a kind that commits each where its entry
still names the source (R169, R177, R182). -/
def State.copyTo (s : State) (n kind src : Nat) (items : List (Nat × Nat × Option Nat)) : State :=
  let xs := items.filterMap fun x => (s.copySrc x.1).map fun m => (x, m)
  let gid := s.jnl.nextId
  let s' := xs.foldl (fun (t : State) x => t.onLnd fun l => { l with secs := l.secs.set none (n * 4096 + x.1.2.1) (some
    { fsn := 0, here := true, done := true, group := gid, info := x.2.1.info, data := x.2.1.data, key := if x.2.2 then some x.2.1.key else none,
      dest := x.1.2.2 }) }) s
  s'.onJnl fun j => { j with nextId := j.nextId + 1
                             groups := j.groups ++ [{ id := gid, kind := kind, fsn := 0, ns := 1, wsn := 0, src := src
                                                      secs := xs.map (fun x => n * 4096 + x.1.2.1)
                                                      moves := xs.map (fun x => (x.1.1, s.lookup x.1.1, n * 4096 + x.1.2.1)) }] }

/-- Places for sectors of a copy in a slice's GC reserve: 16 of one unit as one run (R169, R182). None where there is no room. -/
def State.copyPlaces (s : State) (n cnt : Nat) : Option (List Nat) :=
  let free := s.freeSecs n
  if cnt = 16 then (alignedRun free).map fun b => (List.range 16).map (b + ·)
  else if cnt ≤ free.length then some (free.take cnt) else none

/-- A GC stream of a quadrant takes `cnt` sectors, a whole unit's at an aligned run: their final positions. None where no segment can
be formed. -/
def State.gcDest (s : State) (q st cnt : Nat) (seg : Option Nat) : Option (List (Option Nat) × State) :=
  let k := streamKey q (192 + st)
  let who := [0, 0, st]
  match s.streamSeg k 3 true seg who with
  | none => none
  | some s =>
    let pad := if cnt = 16 then (16 - (s.stream k).pos % 16) % 16 else 0
    (s.streamTake k 3 (pad + cnt) true seg who).map fun r => ((List.range cnt).map fun i => destAt r.1 r.2.1 (pad + i), r.2.2)

/-- Copy sectors for a GC stream of a quadrant; nothing where it or the slice has no room. -/
def State.copyOut (s : State) (q kind src : Nat) (keys : List Nat) (st : Nat) (seg : Option Nat) (from_ : List Nat) : State :=
  let n := s.freestSlice q
  match s.copyPlaces n keys.length, s.gcDest q st keys.length seg with
  | some ps, some (ds, t) =>
    let t := from_.foldl (fun t g => t.noteInto g ds) (t.readCopies keys)
    t.copyTo n kind src ((keys.zip (ps.zip ds)).map fun x => (x.1, x.2.1, x.2.2))
  | _, _ => s

/-- A fine record is cold (R169). -/
def State.isCold (s : State) (f : Fine) : Bool := decide (s.get2 F.FRM_MAP_DEMO_COLD * 2 ^ 20 < s.time.frame - f.frame)

/-- The pool's free records stand below LOW (R169). -/
def State.poolLow (s : State) : Bool := decide (s.fineFree < s.get2 F.FRM_MAP_FINE_CFG_LOW * 65536)

/-- The quadrant of a unit's first media sector. -/
def State.unitQuad (s : State) (u : Nat) : Nat :=
  ((s.unitEnts u).filterMap (fun e => match e with | .media ch _ _ _ => some (ch / 32) | _ => none)).headD 0

/-- The segments that hold sectors of a unit. -/
def State.unitSegs (s : State) (u : Nat) : List Nat :=
  ((s.unitEnts u).filterMap fun e => match e with | .media ch lun p _ => s.segOf ch lun p | _ => none).eraseDups

/-- Demote a promoted unit: its 16 sectors are copied as one run, committed if the record's write count is unchanged (R169). The copies
take a place in a GC stream, 0 but where a GC copy chose another (DESIGN CHOICE, assumption 118: R169 names no final position). -/
def State.demote (s : State) (u q st : Nat) (seg : Option Nat) : State :=
  match s.coarse u with
  | .fine r => match s.fineRec r with
    | some f =>
      if ((List.range 16).all fun k => (s.copySrc (u * 16 + k)).isSome) then s.copyOut q 3 f.writes ((List.range 16).map (u * 16 + ·)) st seg (s.unitSegs u) else s
    | none => s
  | _ => s

/-- A unit's record is cold and its sectors can be copied: a GC or fold copy of any of them demotes it (R169). -/
def State.coldUnit (s : State) (u : Nat) : Bool :=
  (match s.coarse u with | .fine r => (match s.fineRec r with | some f => s.isCold f | none => false) | _ => false) &&
  (List.range 16).all fun k => (s.copySrc (u * 16 + k)).isSome

/-- No demotion of a unit is under way. -/
def State.notDemoting (s : State) (u : Nat) : Bool := !s.jnl.groups.any fun g => g.kind == 3 && g.moves.any fun m => m.1 / 16 == u

/-- FINE_DEMOTION (R169): with the pool low, the quadrant's oldest record, up to 64 in a frame. -/
def State.fineDemotion (s : State) (u : Nat) : State :=
  match s.coarse u with
  | .fine r => match s.fineRec r with
    | some f =>
      let q := s.unitQuad u
      let oldest := s.map.fine.items.all fun e => match e.2 with | some x => decide (f.frame ≤ x.frame) || s.unitQuad x.owner != q || !s.notDemoting x.owner | none => true
      if s.poolLow && oldest && s.notDemoting u && decide (s.map.demoted.get 0 q < 64) then
        (s.demote u q 0 none).onMap fun m => { m with demoted := m.demoted.upd 0 q (· + 1) }
      else s
    | none => s
  | _ => s

def execFineDemotion (unit : Nat) (s : State) : Out := .next (s.fineDemotion unit)

/-- Locations of the sectors of a staged unit: four on each of its planes. -/
def State.stagedLocs (s : State) (x : Nat × Nat) : List Nat :=
  (planesOf x.2).zip (List.range 4) |>.flatMap fun k => (List.range 4).map fun w => x.1 + (k.1 - (planesOf x.2).headD 0) * s.blockPages * 4 + w

/-- Keys of a staged unit whose entries still name it, each with its final position. -/
def State.stagedKeys (s : State) (x : Nat × Nat) : List (Nat × Nat) :=
  (s.stagedLocs x).filterMap fun l => match s.med.secs.get none l with
    | some m => if s.lookup m.info.key = locEnt l then m.dest.map fun d => (m.info.key, d) else none
    | none => none

/-- The staged units of a quadrant that a fold can take: every program unit that they are for is complete. -/
def State.foldable (s : State) (q : Nat) : Option (Nat × Nat) :=
  s.med.staged.find? fun x => x.1 / 2 ^ 36 == q && (s.stagedKeys x).all fun y => s.unitFull (y.2 / 65536) (y.2 % 65536 / 64)

/-- The slice sector that the first sector of a program unit's copies stands at: where copies of it stand, else a free aligned run of
64. -/
def State.runOf (s : State) (n d : Nat) : Option Nat :=
  match s.lnd.secs.items.findSome? fun e => match e.2 with
    | some x => if e.1 / 4096 = n ∧ x.fsn = 0 ∧ x.dest.map (· / 64) = some (d / 64) then some (e.1 % 4096 - x.dest.getD 0 % 64) else none
    | none => none with
  | some b => some b
  | none =>
    let free := s.freeSecs n
    ((List.range 48).map (64 * ·)).find? fun b => (List.range 64).all fun i => free.contains (b + i)

/-- Places of a fold's sectors, each at its offset in the run of its program unit; none where one is not free. -/
def State.foldPlaces (s : State) (n : Nat) : List (Nat × Nat) → Option (List (Nat × Nat × Option Nat))
  | [] => some []
  | (key, d) :: t =>
    match s.runOf n d with
    | none => none
    | some b =>
      let p := b + d % 64
      if (s.lsec (n * 4096 + p)).isSome then none
      else
        let s' := s.onLnd fun l => { l with secs := l.secs.set none (n * 4096 + p) (some { fsn := 0, dest := some d }) }
        (s'.foldPlaces n t).map fun r => (key, p, some d) :: r

/-- FOLD (R177): while folding runs in the quadrant, its oldest staged unit whose program units are complete moves: sectors whose
entries still name the SLC copy are copied for their QLC position, in the GC class, as a group of kind fold; a cold record's unit is
demoted by the copy (R169). A unit that finds no room in a slice stays staged. -/
def State.fold (s : State) (q : Nat) : State :=
  if !s.med.folding.testBit q then s
  else match s.foldable q with
    | none => s
    | some x =>
      let ks := s.stagedKeys x
      let cold := ((ks.map fun y => y.1 / 16).eraseDups).filter s.coldUnit
      let warm := ks.filter fun y => !cold.contains (y.1 / 16)
      let done := fun (s : State) => s.onMed fun m => { m with staged := m.staged.erase x, slcUnits := m.slcUnits.upd 0 q (· - 1) }
      let n := s.freestSlice q
      match s.foldPlaces n warm with
      | none => s
      | some ps =>
        let s := if warm.isEmpty then s else (s.readCopies (warm.map (·.1))).copyTo n 2 (x.1 / 2 ^ 26 * 65536 + x.1 / 4 % 2 ^ 24 / chunkPages) ps
        done (cold.foldl (fun s u => if s.notDemoting u then s.demote u q 0 none else s) s)

def execFold (q : Nat) (s : State) : Out := .next (if q < 4 then s.fold q else s)

/-- The conventional segments of a quadrant that GC may take: not open to a stream, not a zone's, not chosen. -/
def State.gcSegs (s : State) (q : Nat) : List (Nat × Seg) :=
  s.med.segs.items.filterMap fun e => match e.2 with
    | some g => if e.1 / 2 ^ 20 = q ∧ g.kind ≠ 0 ∧ !g.isOpen ∧ !g.victim ∧ !g.dead then some (e.1, g) else none
    | none => none

/-- Default order of victims: fewest valid sectors, then the oldest, then the lowest number (R180). -/
def State.victimBefore (s : State) (a b : Nat × Seg) : Bool :=
  let va := s.segValid a.1
  let vb := s.segValid b.1
  decide (va < vb) || (va == vb && (decide (a.2.last < b.2.last) || (a.2.last == b.2.last && decide (a.1 < b.1))))

/-- Insert in victim order. -/
def State.insVictim (s : State) (x : Nat × Seg) : List (Nat × Seg) → List (Nat × Seg)
  | [] => [x]
  | y :: t => if s.victimBefore x y then x :: y :: t else y :: s.insVictim x t

/-- Up to 64 candidates, fewest valid first (R180). -/
def State.candidates (s : State) (q : Nat) : List (Nat × Seg) := ((s.gcSegs q).foldl (fun l x => s.insVictim x l) []).take 64

/-- The default victim: a segment offered by the wear-level check, else the first candidate (R180, R257). -/
def State.dfltVictim (s : State) (q : Nat) : Option Nat :=
  match (s.candidates q).find? (fun x => s.med.offer.contains x.1) with
  | some x => some x.1
  | none => ((s.candidates q).head?).map (·.1)

/-- Window 7 of the victim hook: for each candidate its segment, valid sectors, age in seconds and highest erase count (Table 10.12). -/
def State.victimInput (s : State) (cs : List (Nat × Seg)) : List Byte :=
  cs.flatMap fun x =>
    let wear := (List.range 32).foldl (fun a p =>
      let c := s.chunk (lunKey (32 * (x.1 / 2 ^ 20) + p) 0 * 65536 + x.2.chunks.getD p 0)
      max a (max c.qe c.se)) 0
    leBytes 4 (x.1 % 2 ^ 20) ++ leBytes 4 (s.segValid x.1) ++ leBytes 4 ((s.time.ms - x.2.last) / 1000) ++ leBytes 2 wear ++ zeros 2

/-- GC_VICTIM_SELECTION (R180): `hook` is the index the VICTIM hook returned, none where it trapped; a replaced choice is
an F1 event of the program and sets QD_GC_EVT.HOOK. A segment without valid sectors is freed without copying (R179). The hook's step
waits for a frame whose cycles it fits (R68). -/
def State.chooseVictim (s : State) (q : Nat) (hook : Option Nat) : State :=
  let cs := s.candidates q
  if !s.med.gcOn.testBit q || cs.isEmpty || !s.hookFits 2 q then s
  else
    let s := if (s.hookBind 2 q).isSome then s.hookRan 2 q [q, cs.length] (s.victimInput cs) else s
    let (pick, s) := match s.hookBind 2 q with
      | none => (s.dfltVictim q, s)
      | some b => match hook.bind (fun i => cs[i]?) with
        | some x => (some x.1, s)
        | none => (s.dfltVictim q, (if hook.isSome then s.replacedChoice q b.handle else s.hookTrap b q).raiseEvt F.QD_GC_EVT_HOOK F.QD_GC_CNT_HOOK_CNT q)
    match pick with
    | none => s
    | some g =>
      let s := s.onMed fun m => { m with offer := m.offer.erase g }
      if s.segValid g = 0 then s.freeSeg g
      else s.onMed fun m => { m with segs := m.segs.upd none g fun o => o.map fun (x : Seg) => { x with victim := true } }

def execGcVictimSelection (q : Nat) (hook : Option Nat) (s : State) : Out :=
  .next (if q < 4 then s.chooseVictim q hook else s)

/-- The victim that a coarse unit has sectors in, and those sectors. -/
def State.victimKeys (s : State) (u : Nat) : Option (Nat × List Nat) :=
  let segOf := fun (k : Nat) => match s.lookup k with
    | .media ch lun p _ => (s.segOf ch lun p).bind fun g => match s.med.segs.get none g with | some x => if x.victim then some g else none | none => none
    | _ => none
  let keys := (List.range 16).map (u * 16 + ·)
  (keys.findSome? segOf).map fun g => (g, keys.filter fun k => segOf k == some g)

/-- The GC stream of a copy (R181): what the DEST hook chose, stream 0 without one or for a choice replaced. -/
def State.gcStream (s : State) (q u g : Nat) (hook : Option Nat) : Nat × State :=
  match s.hookBind 3 q with
  | none => (0, s)
  | some b =>
    let tid := (((s.ns (s.unitNs u)).bind (·.bind)).map (·.1)).getD 0
    let s := s.hookRan 3 q [q, u, tid, s.unitWsn u, g] []
    match hook with
    | some d => if d ≤ 7 then (d, s) else (0, s.replacedChoice q b.handle)
    | none => (0, s.hookTrap b q)

/-- GC_COPY (R181, R182, R184): the valid sectors of coarse unit `u` that lie in a victim are copied to the GC stream that the DEST
hook of the victim's quadrant chose (`hook`, 0 to 7, else 0; none where it trapped; `seg` what PLACE_SEG returned); a cold record's
unit is demoted; sectors that cannot be rebuilt (`lost`) become POISON and are logged. Sectors whose copy is still to commit are not
copied again. -/
def State.gcCopy (s : State) (u : Nat) (hook seg : Option Nat) (lost : List Nat) : State :=
  match s.victimKeys u with
  | none => s
  | some (g, keys) =>
    let q := g / 2 ^ 20
    if !s.hookFits 3 q ∨ (s.jnl.groups.any fun j => (j.kind == 1 || j.kind == 3) && j.moves.any fun m => m.1 / 16 == u && s.lookup m.1 == m.2.1) then s
    else
      let (st, s) := s.gcStream q u g hook
      let s := (keys.filter (fun k => lost.contains (k % 16))).foldl (fun s k => s.poisonSlot q k 0) s
      let live := keys.filter (fun k => !lost.contains (k % 16))
      if live.isEmpty then s
      else if s.coldUnit u then s.demote u q st seg
      else s.copyOut q 1 g live st seg [g]

def execGcCopy (unit : Nat) (hook seg : Option Nat) (lost : List Nat) (s : State) : Out := .next (s.gcCopy unit hook seg lost)

/-- Copies of a segment are still open: a group with copies from it has not closed, or a line that holds them is open (R183). -/
def State.copiesOpen (s : State) (g : Nat) : Bool :=
  s.jnl.groups.any (fun j => j.moves.any fun m => s.entIn g m.2.1) ||
  (match s.med.segs.get none g with
   | some x => x.into.any fun l => match s.med.segs.get none (l / 32) with | some y => !y.closed.contains (l % 32) | none => false
   | none => false)

/-- A read whose lookup returned an address in a segment is outstanding (R178). -/
def State.segRead (s : State) (g : Nat) : Bool := s.hif.cmds.any fun c => c.found.any (s.entIn g)

/-- A segment may be erased: it holds no valid data, none is on its way to it, its copies are closed and nothing reads it (R146, R178,
R179, R183). -/
def State.mayErase (s : State) (g : Nat) : Bool := decide (s.segValid g = 0) && !s.segDue g && !s.copiesOpen g && !s.segRead g

/-- VICTIM_ERASE (R178, R183): a victim without valid sectors whose copies are all closed has its chunks erased and is
freed. -/
def State.victimErase (s : State) (g : Nat) : State :=
  match s.med.segs.get none g with
  | some x => if x.victim && s.mayErase g then s.eraseSeg g else s
  | none => s

/-- At a tick segments given up, and conventional ones whose valid count has fallen to zero, are erased as soon as they may be (R146,
R179). -/
def State.reapSegs (s : State) : State :=
  (s.med.segs.items.filter fun e => match e.2 with | some x => x.dead || (x.kind != 0 && !x.isOpen && !x.victim) | none => false).foldl
    (fun s e => if s.mayErase e.1 then s.eraseSeg e.1 else s) s

/-- The metadata units of zone segments whose host blocks have all been written are programmed (R137). -/
def State.metaTick (s : State) : State :=
  (s.med.zseg.items.filter fun e => e.2 != 0 && !(s.metaUnits (e.2 - 1)).isEmpty).foldl (fun s e =>
    match s.ns (e.1 / 32 / 2 ^ 24) with
    | some n =>
      if (e.1 % 32 + 1) * (64 * hostUnits (fmtMeta n.fmt)) ≤ (s.zones.get {} (e.1 / 32)).wp then (s.metaUnits (e.2 - 1)).foldl (fun s u => s.putMetaUnit (e.2 - 1) u) s
      else s
    | none => s) s

def execVictimErase (seg : Nat) (s : State) : Out := .next (s.victimErase seg)

/-! ### Journal pages, checkpoints, replay -/

/-- JOURNAL_PAGE_FLUSH (R187): the oldest whole page of 1,024 records goes to the flash journal, its ring space is freed, and groups
that waited for it are written. -/
def State.pageFlush (s : State) : State :=
  if s.jnl.ring < 1024 then s
  else (s.onJnl fun j => { j with ring := j.ring - 1024, pages := j.pages ++ [j.pos - 16 * j.ring] }).drainWait s.jnl.wait.length

def execJournalPageFlush (s : State) : Out := .next s.pageFlush

/-- The durable map: what replay builds. -/
structure DMap where
  coarse : SMap Ent := {}
  fine : SMap (Option Fine) := {}
  zones : SMap Zone := {}
  deriving DecidableEq, Repr

/-- A lookup in it. -/
def DMap.lookup (d : DMap) (key : Nat) : Ent :=
  match d.coarse.get .unmapped (key / 16) with
  | .fine r => match d.fine.get none r with | some f => f.ents.getD (key % 16) .unmapped | none => .unmapped
  | e => e.sector (key % 16)

/-- Promote a unit at a record index, holding its present entries; another index where that one holds another unit's record. -/
def DMap.promote (d : DMap) (u i : Nat) : DMap :=
  let r := match d.fine.get none i with | some f => if f.owner = u then i else freshKey d.fine.keys | none => i
  { d with fine := d.fine.set none r (some { ents := (List.range 16).map (fun k => d.lookup (u * 16 + k)), owner := u, writes := 0, frame := 0 }),
           coarse := d.coarse.set .unmapped u (.fine r) }

/-- Set a coarse entry, freeing a fine record it replaces. -/
def DMap.setCoarse (d : DMap) (u : Nat) (e : Ent) : DMap :=
  let d := match d.coarse.get .unmapped u with | .fine r => { d with fine := d.fine.set none r none } | _ => d
  { d with coarse := d.coarse.set .unmapped u e }

/-- Set a sector's entry, promoting its unit where it is not. -/
def DMap.setKey (d : DMap) (key : Nat) (e : Ent) : DMap :=
  let d := match d.coarse.get .unmapped (key / 16) with | .fine _ => d | _ => d.promote (key / 16) (freshKey d.fine.keys)
  match d.coarse.get .unmapped (key / 16) with
  | .fine r => { d with fine := d.fine.upd none r fun o => o.map fun f => { f with ents := f.ents.set (key % 16) e } }
  | _ => d

/-- Deallocate a run of keys: whole units coarse, the rest by sector. -/
def DMap.dealloc (d : DMap) (first n : Nat) : DMap :=
  let units := (List.range ((first + n - 1) / 16 + 1 - first / 16)).map (first / 16 + ·)
  units.foldl (fun d u =>
    if first ≤ u * 16 ∧ u * 16 + 16 ≤ first + n then d.setCoarse u .unmapped
    else (List.range 16).foldl (fun d k => if first ≤ u * 16 + k ∧ u * 16 + k < first + n then d.setKey (u * 16 + k) .unmapped else d) d) d

/-- The zone state of a journal code (Table 6.4). -/
def ZState.ofCode : Nat → ZState
  | 0 => .empty | 1 => .impOpen | 2 => .expOpen | 3 => .closed | 4 => .full | _ => .offline

/-- Apply one record (R186, Table 6.4). -/
def DMap.apply (d : DMap) (r : JRec) : DMap :=
  match r.typ with
  | 2 => match Ent.decode r.b with
    | some e => if r.sub = 0xFF then d.setCoarse r.a e else d.setKey r.a e
    | none => d
  | 4 => d.dealloc r.a r.b
  | 5 => { d with zones := d.zones.set {} (zkey (r.a / 2 ^ 36 + 1) (r.a % 2 ^ 36)) { st := ZState.ofCode r.sub, wp := r.b } }
  | 8 => if r.sub = 0 then d.promote r.a r.b else match Ent.decode r.b with
    | some e => d.setCoarse r.a e
    | none => d
  | _ => d

/-- The whole groups of a journal, up to the first record that ends the scan: one outside a group, a reserved TYPE, a count or a CRC
that does not match (R186, R190). A group cut short has no CLOSE and is left out. -/
def wholeGroups : List JRec → Option (List JRec) → List (List JRec)
  | [], _ => []
  | r :: t, cur =>
    if r.typ = 1 then wholeGroups t (some [r])
    else match cur with
      | none => []
      | some g =>
        if r.typ = 3 then
          if r.a = g.length ∧ r.b = crc32c (g.flatMap JRec.bytes) ∧ g.length ≤ 1025 then g :: wholeGroups t none else []
        else if r.typ = 0 ∨ 9 < r.typ then []
        else wholeGroups t (some (g ++ [r]))

/-- The checkpoint with the whole groups of the retained journal applied (R186, R190). -/
def State.durable (s : State) : DMap :=
  (wholeGroups (s.jnl.recs.map (·.2)) none).foldl (fun d g => g.foldl DMap.apply d) { coarse := s.jnl.ckpt, fine := s.jnl.ckFine, zones := s.jnl.ckZones }

/-- The checkpoint pages that have changed (R188): area x 2^40 + page, of the coarse map, the fine pool of 128 records a page, the
validity bitmap of 131,072 sectors a page, and the segment table of 256 segments a page. -/
def State.changedPages (s : State) : List Nat :=
  let ps := s.jnl.dirty.keys
  let fine := (s.map.fine.items.filter fun e => match e.2 with | some f => ps.contains (f.owner / 3072) | none => false).map fun e => 2 ^ 40 + e.1 / 128
  let us := s.map.coarse.keys.filter fun u => ps.contains (u / 3072)
  let bits := us.flatMap fun u => (s.unitEnts u).filterMap fun e => match e with | .media ch lun p w => some (2 * 2 ^ 40 + mloc ch lun p w / 131072) | _ => none
  let segs := s.med.segs.keys.map fun g => 3 * 2 ^ 40 + g / 256
  (ps ++ fine ++ bits ++ segs).eraseDups

/-- CHECKPOINT_SWEEP (R188, R194): every changed page is written, with the journal position in the metadata of its codewords, between
CKPT records of the sweep, and the chunk records beside them (R251); journal pages older than its start are released. A new PERIOD governs the next sweep. -/
def State.sweep (s : State) : State :=
  let n := s.jnl.sweeps
  let start := s.jnl.pos
  let s := s.jnlSystem [{ typ := 9, sub := 0, a := n, b := start }]
  let d := s.durable
  let pages := s.changedPages
  let s := s.jnlSystem [{ typ := 9, sub := 1, a := n, b := start }]
  let s := s.onMed fun m => { m with ckChunks := m.chunks }
  s.onJnl fun j => { j with ckpt := d.coarse, ckFine := d.fine, ckZones := d.zones, recs := [], dirty := {},
                            ckPages := pages.foldl (fun t p => t.set none p (some { kind := 2, key := p % 2 ^ 40, wsn := start })) j.ckPages,
                            sweeps := (n + 1) % 65536, sweepPos := start, pages := j.pages.filter (fun p => decide (start ≤ p)),
                            sweepAt := s.time.frame, period := s.getF F.MRC_JNL_CKPT_PERIOD }

/-- A sweep completes at least once every PERIOD seconds (R188). -/
def State.sweepTick (s : State) : State := if s.lvl.writes ∧ !s.swapping 0x30 ∧ s.jnl.period * 125000 ≤ s.time.frame - s.jnl.sweepAt then s.sweep else s

def execCheckpointSweep (s : State) : Out := .next s.sweep

/-- A clean shutdown (R189): with every group closed, every changed page is checkpointed, a CKPT record of SUB 2 is
written and CLEAN is set. -/
def State.cleanShutdown (s : State) : State :=
  let s := s.sweep
  (s.jnlSystem [{ typ := 9, sub := 2, a := s.jnl.sweeps, b := s.jnl.pos }]).onJnl fun j => { j with clean := true }

/-- A page is whole again: its words and those of its units' records hold their content, and lookups on it no longer wait. -/
def State.pageHealed (s : State) (p : Nat) : State :=
  let recs := s.map.fine.items.filterMap fun e => match e.2 with | some f => if f.owner / 3072 = p then some e.1 else none | none => none
  let mine := fun (a : Nat) => (decide (15360 * p ≤ a) && decide (a < 15360 * (p + 1))) || (decide (s.segTabEnd ≤ a) && recs.contains ((a - s.segTabEnd) / 128))
  (s.onMemp fun m => { m with words := m.words.keep fun k => !mine (8 * k) }).onMap fun m => { m with bad := m.bad.set false p false }

/-- A sector's entry as a rebuild leaves it: one in a landing slice stays (R192, R193). -/
def State.rebuilt (s : State) (key : Nat) (e : Ent) : Ent := match s.lookup key with | .landing sl sec => .landing sl sec | _ => e

/-- The units of a page that the map or another map knows. -/
def State.knownUnits (s : State) (p : Nat) (other : List Nat) : List Nat := ((s.map.coarse.keys ++ other).filter fun u => u / 3072 == p).eraseDups

/-- A unit takes rebuilt entries, as one coarse entry where they are that. -/
def State.setUnit (s : State) (u : Nat) (coarse : Option Ent) (es : List Ent) : State :=
  match coarse with
  | some e => s.setCoarse u e
  | none => ((List.range 16).zip es).foldl (fun s x => if s.lookup (u * 16 + x.1) = x.2 then s else s.setBlock (u * 16 + x.1) x.2) s

/-- MAP_PAGE_REBUILD (R192): an uncorrectable map page is built again from its checkpoint and the journal; entries of sectors in the
landing slices stay; an F0 event of the DRAM controller. -/
def State.pageRebuild (s : State) (p : Nat) : State :=
  let d := s.durable
  let s := (s.knownUnits p d.coarse.keys).foldl (fun s u =>
    let inSlice := (s.unitEnts u).any fun e => match e with | .landing _ _ => true | _ => false
    match s.coarse u, d.coarse.get .unmapped u with
    | .fine _, _ => s.setUnit u none ((List.range 16).map fun k => s.rebuilt (u * 16 + k) (d.lookup (u * 16 + k)))
    | _, .fine _ => s.setUnit u none ((List.range 16).map fun k => s.rebuilt (u * 16 + k) (d.lookup (u * 16 + k)))
    | _, e => if inSlice then s else s.setUnit u (some e) []) s
  (s.pageHealed p).raiseFault 0x0008 (uSvc 1) p

def execMapPageRebuild (page : Nat) (s : State) : Out := .next (s.pageRebuild page)

/-- The valid copy of a key with the highest WSN on the media, of a quadrant (R193). -/
def State.scanCopy (s : State) (q key : Nat) : Option Nat :=
  (s.med.secs.items.foldl (fun (b : Option (Nat × Nat)) e => match e.2 with
    | some m => if e.1 / 4 / 2 ^ 24 / 32 / 32 = q ∧ m.closed ∧ m.info.kind = 0 ∧ m.info.key = key ∧ (b.all fun x => decide (x.1 < m.info.wsn)) then some (m.info.wsn, e.1) else b
    | none => b) none).map (·.2)

/-- REBUILD_BY_SCAN (R193): the rebuild of a page's range by scan begins (REBUILD set, its event raised), and reads of the range
wait; then each key of the range takes the valid copy with the highest WSN, or is UNMAPPED; sectors in the landing slices stay. -/
def State.scanRebuild (s : State) (q p : Nat) : State :=
  if !s.map.rebuild then (s.onMap fun m => { m with rebuild := true, scanPage := some p }).raiseEvt F.FRM_MAP_EVT_REBUILD F.FRM_MAP_EVT_CNT1_REB_CNT
  else
    let found := (s.med.secs.items.filterMap fun e => e.2.bind fun x => if x.info.kind = 0 ∧ x.closed then some (x.info.key / 16) else none)
    let s := (s.knownUnits p found).foldl (fun s u =>
      let locs := (List.range 16).map fun k => s.scanCopy q (u * 16 + k)
      let es := (List.range 16).map fun k => s.rebuilt (u * 16 + k) (match locs.getD k none with | some l => locEnt l | none => .unmapped)
      let run : Option Ent := match locs.headD none with
        | some l0 => if l0 % 4 = 0 ∧ locs = (List.range 16).map (fun k => some (l0 + k)) ∧ es.headD .unmapped = locEnt l0 then some (locEnt l0) else none
        | none => if es.all (· == .unmapped) then some .unmapped else none
      s.setUnit u run es) s
    (s.pageHealed p).onMap fun m => { m with rebuild := false, scanPage := none }

def execRebuildByScan (q page : Nat) (s : State) : Out := .next (if q < 4 then s.scanRebuild q page else s)

/-! ### The tick -/

/-- Step 2 for a quadrant's tiers (R174 to R179): the SLC budget, folding and GC are decided, and staging stopped at the
budget is recorded. A fold that idleness started below half the level goes on while the quadrant stays idle (DESIGN CHOICE,
assumption 116: R177 does not say when it stops). -/
def State.tickTier (s : State) (q : Nat) : State :=
  let budget := s.slcBudget q
  let used := s.slcUsed q
  let level := s.get2 F.QD_GC_CFG1_FOLD_START q * budget / 256
  let idle := decide (125000 ≤ s.time.frame - s.med.lastWr.get 0 q)
  let on := (idle && decide (0 < used)) || (if s.med.folding.testBit q then decide (level / 2 < used) else decide (level < used))
  let stop := decide (budget ≤ used)
  let s := if stop && !s.med.slcStop.testBit q then s.raiseEvt F.QD_GC_EVT_SLC_FULL F.QD_GC_CNT_SLC_CNT q else s
  s.onMed fun m => { m with budget := m.budget.set 0 q budget, folding := putBit m.folding q on, slcStop := putBit m.slcStop q stop,
                            gcOn := putBit m.gcOn q (decide (s.segFree q < s.get2 F.QD_GC_CFG0_GC_START q)) }

/-- GC emergency as step 2 finds it (R52, R179, R244). -/
def State.emergFound (s : State) : Bool :=
  (List.range 4).any fun q => decide (s.segFree q < s.get2 F.QD_GC_CFG0_GC_LOW q) || s.flag F.QD_PAR_STAT_TWO q

end Sys2Proof.Machine
end

