-- ==== Sys2Proof/Machine/Reset.lean ====
section
/-! DEFINITION. Resets with commands outstanding, controllers enabled and shut down (chapters 3, 4 and 17; R76 to R79,
R121 to R124, R189, R449, R457, R464). -/
namespace Sys2Proof.Machine

/-- Every outstanding command but Asynchronous Event Requests of a set of functions. -/
def State.outstanding (s : State) (p : Nat → Bool) : List Cmd := s.hif.cmds.filter (fun c => p c.fn && c.ph != .aerWait)

/-- An operation that a reset does not stop: Format NVM or Sanitize begun (Table 4.4). -/
def Cmd.goesOn (c : Cmd) : Bool := c.sq == 0 && c.ph == .running && (c.sqe.opc == 0x80 || c.sqe.opc == 0x84)

/-- The outcome of a reset for one outstanding command (R121, R122, Table 4.4): a write whose last sector has landed
commits; another that has not committed is discarded whole; no completion is posted. -/
def State.resetCmd (s : State) (c : Cmd) : State :=
  let s := s.onCmd c.fsn fun x => { x with mute := true }
  if c.goesOn then s
  else
    let s := if c.ph = .landing ∧ c.left = 0 then s.landingCommit c.fsn else s
    match s.cmd c.fsn with
    | none => s
    | some d =>
      let s := if d.ph = .landing ∨ d.ph = .admitWait then s.discardWrite d true else s
      (s.onPrg fun p => { p with scans := p.scans.filter (fun x => x.fsn != c.fsn) }).dropCmd c.fsn

/-- A reset of a set of functions (R121): their commands end as Table 4.4 states, their controllers' registers and
queues take their reset state, CSTS.CFS stays set in the halt (R449), their snapshots are released (R457), and a partial
firmware download of theirs is discarded. Tunnelled commands wait for its end (R97). -/
def State.resetFns (s : State) (p : Nat → Bool) : State :=
  let cs := s.hif.cmds.filter (fun c => p c.fn && !c.tunnel)
  let s := cs.foldl State.resetCmd s
  let fns := s.hif.ctrls.keys.filter p
  let s := s.onHif fun h => { h with ctrls := fns.foldl (fun m f => m.set {} f { cfs := (m.get {} f).cfs && s.halted }) h.ctrls }
  let s := s.onHif fun h => { h with heQ := h.heQ.keep fun k => !p (k / 65536) }
  let s := s.onLog fun l => { l with snaps := l.snaps.keep (fun k => !p k) }
  if p s.lvl.fwOwner then s.onLvl fun l => { l with fwBuf := {}, fwLen := 0 } else s

/-- CONTROLLER_RESET: CC.EN cleared (Table 4.3). -/
def execControllerReset (fn : Nat) (s : State) : Out := .next (s.resetFns (· == fn))

/-- The functions a function-level reset reaches: a VF itself, a PF and its VFs (Table 4.3). -/
def State.flrScope (s : State) (fn f : Nat) : Bool :=
  if fn < 2 then f == fn || (decide (2 ≤ f) && s.portOf f == fn) else f == fn

/-- FUNCTION_LEVEL_RESET (Table 4.3). -/
def execFunctionLevelReset (fn : Nat) (s : State) : Out := .next (s.resetFns (s.flrScope fn))

/-- A port goes down. -/
def PortSt.down (p : PortSt) : PortSt := { perst := p.perst }

/-- NVM subsystem reset (R464): every link is taken down and every function reset; engines, DRAM, map, landing data and
the level stay. -/
def State.subsystemReset (s : State) : State :=
  (s.resetFns fun _ => true).onHif fun h => { h with p0 := h.p0.down, p1 := h.p1.down }

/-- Set a controller's shutdown status; a change is a health status change (Table 3.10). -/
def State.setShst (s : State) (fn v : Nat) : State :=
  let s := if (s.ctrl fn).shst = v then s else s.miChange 2
  s.onCtrl fn fun c => { c with shst := v }

/-- Every other enabled controller has shut down. -/
def State.lastController (s : State) (fn : Nat) : Bool :=
  s.hif.ctrls.items.all (fun e => e.1 == fn || !e.2.en || e.2.shst == 2)

/-- CC.SHN (R124, R189): with commands outstanding the shutdown is in progress; with none it completes, and the last
controller's also closes every group and marks the journal clean. -/
def State.shutdown (s : State) (fn : Nat) : State :=
  if !(s.ctrl fn).en then s
  else if !(s.outstanding (· == fn)).isEmpty then s.setShst fn 1
  else if s.lastController fn then
    if s.jnl.groups.isEmpty then s.cleanShutdown.setShst fn 2 else s.setShst fn 1
  else s.setShst fn 2

/-- A shutdown in progress goes on at each tick, as the commands and groups it waits for end (R124, R189). -/
def State.shutdownTick (s : State) : State :=
  (s.hif.ctrls.items.filter fun e => e.2.en && e.2.shst == 1).foldl (fun s e => s.shutdown e.1) s

/-- CONTROLLER_SHUTDOWN (R124, R189). -/
def execControllerShutdown (fn : Nat) (s : State) : Out := .next (s.shutdown fn)

/-- A function that may be enabled: PF0; PF1 when the link is split; a VF brought online (R78, R79). -/
def State.fnExists (s : State) (fn : Nat) : Bool :=
  if fn = 0 then true else if fn = 1 then s.hif.bifur else decide (fn ≤ 1025) && s.hif.online.get false fn

/-- CONTROLLER_ENABLE (R78, Table 3.1): a host write setting CC.EN enables the controller with its admin queues of at most
4,096 entries; from Tin on the admin queue is served. -/
def State.enable (s : State) (fn sqSize cqSize : Nat) : State :=
  if s.fnExists fn ∧ !(s.ctrl fn).en ∧ s.lvl.core ∧ (s.port (s.portOf fn)).up ∧ 1 ≤ s.lvl.level ∧ 2 ≤ sqSize ∧ sqSize ≤ 4096 ∧ 2 ≤ cqSize ∧ cqSize ≤ 4096 then
    ((s.miChange 0).onCtrl fn fun c => { c with en := true, shst := 0, sqs := c.sqs.set none 0 (some { size := sqSize, cq := 0 }),
                                                 cqs := c.cqs.set none 0 (some { size := cqSize }) }).giveQueue 12 (fn, 0)
  else s

def execControllerEnable (fn sqSize cqSize : Nat) (s : State) : Out := .next (s.enable fn sqSize cqSize)

/-! ### Ports and links -/

/-- Change a port. -/
def State.onPort (s : State) (p : Nat) (f : PortSt → PortSt) : State :=
  s.onHif fun h => if p = 0 then { h with p0 := f h.p0 } else { h with p1 := f h.p1 }

/-- The functions a port carries; in the x16 configuration P0 carries every function (R78, Table 4.3). -/
def State.portScope (s : State) (p f : Nat) : Bool := s.portOf f == p

/-- PERST_ASSERT (R73, R465): PERST1# is ignored in the x16 configuration; else the port's link goes down and every
function of it is reset. -/
def State.perstLow (s : State) (p : Nat) : State :=
  if p = 1 ∧ !s.hif.bifur then s.onPort 1 fun x => { x with perst := true }
  else (s.resetFns (s.portScope p)).onPort p fun _ => { perst := true }

def execPerstAssert (port : Nat) (s : State) : Out := .next (if port < 2 then s.perstLow port else s)

/-- PERST_DEASSERT (R72, R508): where PERST0# was asserted the BIFUR strap is sampled at its deassertion, and training may begin;
the first deassertion of PERST0# after a start-up is an origin of the ladder (R466). -/
def State.perstHigh (s : State) (p : Nat) (strap : Bool) : State :=
  let was := (s.port p).perst
  let s := s.onPort p fun x => { x with perst := false }
  if p = 0 ∧ was then (s.onHif fun h => { h with bifur := strap }).onLvl fun l => { l with perst0 := if l.perst0.isSome then l.perst0 else some s.time.ms } else s

def execPerstDeassert (port : Nat) (strap : Bool) (s : State) : Out :=
  .next (if port < 2 then s.perstHigh port strap else s)

/-- Twice the rate of a generation in GT/s (R72). -/
def rate2 : Nat → Nat
  | 1 => 5 | 2 => 10 | 3 => 16 | 4 => 32 | 5 => 64 | 6 => 128 | 7 => 256 | _ => 0

/-- DMA bytes per frame divided by 64 (R75): 1,936,000 x R x W / 2,048, 15/16 of it in non-flit mode. -/
def dmaCredit (gen width : Nat) (flit : Bool) : Nat :=
  if flit then 1936000 * rate2 gen * 2 ^ width / 4096 / 64 else 1936000 * rate2 gen * 2 ^ width * 15 / 65536 / 64

/-- Rate, width and mode a port trains to with a partner (R72, R74, R102): the highest common rate within MAX_GEN, the
widest common width within MAX_WIDTH, x8 at most when split; FLIT at Gen6 and Gen7, or where the partner has it. -/
def State.trainTo (s : State) (gen width : Nat) (flit : Bool) : Nat × Nat × Bool :=
  let g := min gen (s.getF F.HIF_CFG_MAX_GEN)
  let w := min (min width (s.getF F.HIF_CFG_MAX_WIDTH)) (if s.hif.bifur then 3 else 4)
  (g, w, decide (6 ≤ g) || flit)

/-- A port can train: its PERST# is high, and P1 only when the link is split. -/
def State.portTrains (s : State) (p : Nat) : Bool := !(s.port p).perst && (p == 0 || s.hif.bifur)

/-- LINK_TRAINED (R72, R74, R75): `gen`, `width` and `flit` are the partner's highest rate, widest width (coded as
MAX_WIDTH) and FLIT support below Gen6. -/
def State.linkUp (s : State) (p gen width : Nat) (flit : Bool) : State :=
  if !s.portTrains p || gen == 0 then s
  else
    let (g, w, f) := s.trainTo gen width flit
    s.onPort p fun x => { x with up := true, gen := g, width := w, flit := f, pm := 0, credit := dmaCredit g w f, credPend := none }

def execLinkTrained (port gen width : Nat) (flit : Bool) (s : State) : Out :=
  .next (if port < 2 then s.linkUp port gen width flit else s)

/-- No DMA of this frame or of the grants published for the next is left on a port (R76). -/
def State.dmaOff (s : State) (p : Nat) : State :=
  s.onSched fun c => { c with dmaLeft := c.dmaLeft.set 0 p 0,
                              grants := c.grants.map fun g => if p = 0 then { g with dma0 := 0 } else { g with dma1 := 0 } }

/-- LINK_RETRAIN (R76): an up port retrains; DMA is granted again from the next step 4, with the new credit; no command
fails. -/
def State.linkRetrain (s : State) (p gen width : Nat) (flit : Bool) : State :=
  if !(s.port p).up || gen == 0 then s
  else
    let (g, w, f) := s.trainTo gen width flit
    let old := s.port p
    let s := s.onPort p fun x => { x with gen := g, width := w, flit := f, credPend := some (dmaCredit g w f) }
    let s := s.dmaOff p
    if old.gen = g ∧ old.width = w then s else s.raiseEvt F.HIF_EVT_RETRAIN F.HIF_EVT_CNT0_RETRAIN_CNT

def execLinkRetrain (port gen width : Nat) (flit : Bool) (s : State) : Out :=
  .next (if port < 2 then s.linkRetrain port gen width flit else s)

/-- LINK_DOWN (R76): a controller reset of every function on the port. -/
def State.linkDown (s : State) (p : Nat) : State :=
  if !(s.port p).up then s
  else (((s.resetFns (s.portScope p)).dmaOff p).onPort p PortSt.down).raiseEvt F.HIF_EVT_LINK_DOWN F.HIF_EVT_CNT0_DOWN_CNT

def execLinkDown (port : Nat) (s : State) : Out :=
  .next (if port < 2 then s.linkDown port else s)

/-- HOST_TRANSFER_FAILURE (R77): the command that owns the failed transfer completes with Data Transfer Error as an F1
event; a failed write commits nothing and its space is freed. -/
def State.transferFails (s : State) (fsn : Nat) : State :=
  match s.cmd fsn with
  | none => s
  | some c =>
    if c.ph = .fuaWait ∨ c.ph = .flushWait ∨ c.ph = .aerWait ∨ c.ph = .running then s
    else
      let s := if c.ph = .landing then s.discardWrite c false else s
      (s.raiseFault 0x0102 uFront 0 fsn).complete fsn stTransferError

def execHostTransferFailure (fsn : Nat) (s : State) : Out := .next (s.transferFails fsn)

end Sys2Proof.Machine
end

