-- ==== Sys2Proof/Machine/Fetch.lean ====
section
/-! DEFINITION. Doorbells, the fetch of commands and the checks made there, and the turn of admin commands (chapters 3
and 17; R36, R79 to R85, R91 to R94, R467). -/
namespace Sys2Proof.Machine

/-! ### Doorbells (R82) -/

/-- A doorbell write that names no queue or a value beyond the queue's size: dropped, an error event, INV_DB. -/
def State.badDoorbell (s : State) (fn info : Nat) : State :=
  (s.raiseEvt F.HIF_EVT_INV_DB F.HIF_EVT_CNT1_DB_CNT).aenTo fn { typ := 0, info := info, lid := 1 }

/-- A host doorbell write: the tail of submission queue `q`, or with `cq` the head of completion queue `q` (R82). -/
def State.doorbell (s : State) (fn q : Nat) (cq : Bool) (val : Nat) : State :=
  if !(s.ctrl fn).en then s.badDoorbell fn 0
  else if cq then
    match (s.ctrl fn).cqs.get none q with
    | some k => if val < k.size then s.onCtrl fn fun c => { c with cqs := c.cqs.set none q (some { k with head := val }) } else s.badDoorbell fn 1
    | none => s.badDoorbell fn 0
  else
    match (s.ctrl fn).sqs.get none q with
    | some k => if k.deleting then s.badDoorbell fn 0 else if val < k.size then s.onCtrl fn fun c => { c with sqs := c.sqs.set none q (some { k with tail := val }) } else s.badDoorbell fn 1
    | none => s.badDoorbell fn 0

def execDoorbellWrite (fn q : Nat) (cq : Bool) (val : Nat) (s : State) : Out := .next (s.doorbell fn q cq val)

/-! ### Rings and tenants (R94) -/

/-- A command acts at ring O when a PF issues it or the tunnel carries it (R94, R97). -/
def Cmd.ringO (c : Cmd) : Bool := c.tunnel || decide (c.fn < 2)

/-- The tenant for which a command at ring T acts: that of the namespace it names, or where it names none the controller's default
tenant (R94). A namespace counts as named when it is attached to the issuing function (DEDUCED, assumption 109: one function cannot take
another tenant's rights by its NSID). -/
def State.cmdTid (s : State) (c : Cmd) : Nat :=
  match s.ns c.sqe.nsid with
  | some n => if n.attach.contains c.fn then s.tenantOf c else s.hif.defTid.get 0 c.fn
  | none => s.hif.defTid.get 0 c.fn

/-- The tenant a namespace is bound to. -/
def Ns.tid (n : Ns) : Option Nat := n.bind.map (·.1)

/-- Commands that other commands' opcodes make program commands (Table 3.9). -/
def isProgOp (opc : Nat) : Bool := [0xC1, 0xC4, 0xC5, 0xC8, 0xCA].contains opc

/-! ### Checks at fetch -/

/-- Admin opcodes supported (Table 3.2, Table 3.9). -/
def adminOps : List Nat :=
  [0x00, 0x01, 0x02, 0x04, 0x05, 0x06, 0x08, 0x09, 0x0A, 0x0C, 0x0D, 0x10, 0x11, 0x14, 0x15, 0x19, 0x1A, 0x1C, 0x1D, 0x1E,
   0x80, 0x81, 0x82, 0x84, 0xC1, 0xC4, 0xC5, 0xC8, 0xC9, 0xCA, 0xCC]

/-- Admin commands aborted with Namespace Not Ready below Steel (R467). -/
def steelOps : List Nat := [0x0D, 0x15, 0x80, 0x84, 0x10, 0x14, 0xC9, 0xC1, 0xC4, 0xC5, 0xC8, 0xCA]

/-- I/O opcodes by command set (Table 3.3): 1 NVM, 2 ZNS, 3 both, 0 none. -/
def ioSets (opc : Nat) : Nat :=
  if [0x00, 0x01, 0x02, 0x05, 0x0C, 0x83, 0x84].contains opc then 3
  else if [0x08, 0x09, 0x19].contains opc then 1
  else if [0x79, 0x7A, 0x7D].contains opc then 2 else 0

/-- Commands whose NLB field Table 3.8 limits to 2,048 blocks. -/
def nlbOps : List Nat := [0x01, 0x02, 0x05, 0x08, 0x0C, 0x7D]

/-- Commands that Bronze aborts until writes are accepted (R92). -/
def bronzeOps : List Nat := [0x01, 0x08, 0x19, 0x7D, 0x79]

/-- Bytes a command's transfer describes (R83, R93). -/
def sqeLen (q : Sqe) (n : Option Ns) : Nat :=
  let blk := match n with | some n => n.hostBytes { fsn := 0, fn := 0, sq := 1, sqe := q } | none => 4096
  if q.opc = 0x01 ∨ q.opc = 0x02 ∨ q.opc = 0x05 ∨ q.opc = 0x7D then q.cnt * blk
  else if q.opc = 0x09 then 16 * (q.cdw10 % 256 + 1)
  else if q.opc = 0x19 then 32 * (q.cdw12 % 256 + 1)
  else if q.opc = 0x7A then 4 * (q.cdw12 + 1)
  else if q.opc = 0x83 then q.cdw10 % 65536 + q.cdw11
  else 0

/-- An SGL whose total length differs from the transfer, or of more than 4,096 descriptors (R93); `desc` 0 stands for
PRPs. -/
def sglStatus (q : Sqe) (len : Nat) : Nat :=
  if q.desc = 0 then stOk else if 4096 < q.desc then stSglCount else if 0 < len ∧ q.sgl ≠ len then stSglLength else stOk

/-- The first status other than success. -/
def firstBad : List Nat → Nat
  | [] => stOk
  | x :: t => if x ≠ stOk then x else firstBad t

/-- A status where a condition holds. -/
def stIf (p : Bool) (st : Nat) : Nat := if p then st else stOk

/-- The level's judgement of an I/O command (R92, R467). -/
def State.ioLevel (s : State) (opc : Nat) : Nat :=
  stIf (decide (s.lvl.levelF ≤ 1) || (opc == 0x83 && decide (s.lvl.levelF < 3)) ||
    (decide (s.lvl.levelF < 3) && bronzeOps.contains opc && !s.lvl.writes)) stNotReady

/-- The status of the namespace an I/O command names: NSIDs beyond 4,096 are invalid, one that is not attached is an
inactive namespace (NVMe); a Flush may name every namespace. -/
def State.ioNsStatus (s : State) (fn : Nat) (q : Sqe) : Nat :=
  if q.opc = 0x00 ∧ q.nsid = 0xFFFFFFFF then stOk
  else if q.nsid = 0 ∨ 4096 < q.nsid then stInvalidNs
  else match s.ns q.nsid with
    | none => stInvalidField
    | some n =>
      if !n.attach.contains fn then stInvalidField
      else if (ioSets q.opc).testBit (if n.zoned then 1 else 0) = false then stInvalidOpcode
      else if n.bind.isNone then stNotBound
      else stOk

/-- Field checks of an I/O command that do not depend on when it executes (Table 3.8, Table 3.7, Table 6.1). -/
def State.ioFields (s : State) (q : Sqe) : Nat :=
  match s.ns q.nsid with
  | none => stOk
  | some n =>
    firstBad
      [stIf (nlbOps.contains q.opc && decide (2047 < q.nlb)) stInvalidField,
       stIf (q.opc == 0x7A && (decide (0x1FFFFF < q.cdw12) || decide (q.cdw12 < 15))) stInvalidField,
       sglStatus q (sqeLen q (some n)),
       stIf (nlbOps.contains q.opc && decide (n.nsze < q.slba + q.cnt)) stLbaRange,
       stIf ((q.opc == 0x79 || q.opc == 0x7A) && !(q.opc == 0x79 && q.selAll) && decide (n.nsze ≤ q.slba)) stLbaRange]

/-- The status with which the fetch unit aborts an I/O command, or success (R84, R85, R92 to R94). Table 3.9 gives Scan and Scan Cancel
ring T alone, Table 10.4 has ring O programs serve scans issued by a PF: a PF's are taken, and run programs of ring O (DEDUCED,
assumption 108). -/
def State.ioStatus (s : State) (fn : Nat) (q : Sqe) : Nat :=
  if q.opc = 0x84 then s.ioLevel q.opc
  else firstBad [s.ioLevel q.opc, stIf (ioSets q.opc == 0) stInvalidOpcode, s.ioNsStatus fn q, s.ioFields q]

/-- The status with which the fetch unit aborts an admin command, or success (R84, R94, R467). -/
def State.adminStatus (s : State) (fn : Nat) (ringO : Bool) (q : Sqe) : Nat :=
  firstBad [stIf (!adminOps.contains q.opc) stInvalidOpcode, stIf (q.opc == 0xCC && !ringO) stRing,
    stIf (decide (s.lvl.levelF < 3) && steelOps.contains q.opc) stNotReady, stIf (decide (4096 < q.desc)) stSglCount,
    stIf (q.opc == 0x08 && decide (16 ≤ (s.hif.cmds.filter (fun c => c.fn == fn && c.sq == 0 && c.sqe.opc == 0x08)).length)) stAbortLimit]

/-! ### COMMAND_FETCH (R36) -/

/-- Enter a fetched command under the next FSN, and abort it at once with a status other than success. -/
def State.enter (s : State) (c : Cmd) (st : Nat) : State :=
  let fsn := s.hif.fsn
  let c : Cmd := { c with fsn := fsn, frame := s.time.frame }
  let s := s.onHif fun h => { h with fsn := h.fsn + 1, cmds := h.cmds ++ [c] }
  if st ≠ stOk then s.complete fsn st else s

/-- Commands taken from a queue in one turn: 2^AB, an AB of 7 taken as 64 (R81). -/
def State.burst (s : State) (fn : Nat) : Nat := 2 ^ (min 6 (s.feat fn 0x01 % 8))

/-- The queue of a controller from which it fetches next (R81): the one whose turn it is, until its burst is taken, then the next
with entries in round-robin order. -/
def State.fetchQueue (s : State) (fn : Nat) (qs : List Nat) : Option Nat :=
  let c := s.ctrl fn
  if c.rrQ ∈ qs ∧ c.rrN < s.burst fn then some c.rrQ
  else match qs.find? (fun q => decide (c.rrQ < q)) with
    | some q => some q
    | none => qs.head?

/-- The controllers of a port with a queue to fetch, as requests of their default tenants (R80): of controllers whose tenants stand
equal the lowest function goes first (DESIGN CHOICE, assumption 105: no command has an FSN before its fetch). -/
def State.fetchReqs (s : State) (p : Nat) : List Rq :=
  (((s.fetchable p).map (·.1)).eraseDups).map fun fn => { cls := 0, tid := s.hif.defTid.get 0 fn, fsn := fn, id := fn }

/-- Queue fetch takes this queue next (R47, R80, R81). -/
def State.fetchTurn (s : State) (fn sq : Nat) : Bool :=
  let p := s.portOf fn
  match s.sched.pick (arbFetch p) 1 131072 (s.fetchReqs p) with
  | some x => x.id == fn && s.fetchQueue fn (((s.fetchable p).filter fun q => q.1 == fn).map (·.2)) == some sq
  | none => false

/-- A command taken from a queue counts in its turn (R81). -/
def Ctrl.took (c : Ctrl) (sq burst : Nat) : Ctrl := { c with rrQ := sq, rrN := if c.rrQ = sq ∧ c.rrN < burst then c.rrN + 1 else 1 }

/-- COMMAND_FETCH: the entry at the head of the submission queue whose turn it is, as the host wrote it, takes the next FSN (R36,
R80, R81, R448). -/
def State.fetch (s : State) (fn sq : Nat) (q : Sqe) : State :=
  match (s.ctrl fn).sqs.get none sq with
  | none => s
  | some k =>
    if !(s.ctrl fn).en ∨ s.hif.fetchStop ∨ !s.lvl.core ∨ 3 ≤ s.pwr.cur ∨ k.deleting ∨ k.head = k.tail ∨ !s.fetchTurn fn sq then s
    else
      let burst := s.burst fn
      let s := s.onCtrl fn fun c => ({ c with sqs := c.sqs.set none sq (some { k with head := (k.head + 1) % k.size }) }).took sq burst
      let c : Cmd := { fsn := 0, fn := fn, sq := sq, sqe := q, cover := if sq ≠ 0 ∧ q.opc = 0x00 then s.flushCover fn q.nsid else [],
                         tsign := s.flag F.PRG_CFG_T_SIGN }
      s.enter c (if sq = 0 then s.adminStatus fn c.ringO q else s.ioStatus fn q)

def execCommandFetch (fn sq : Nat) (sqe : Sqe) (s : State) : Out := .next (s.fetch fn sq sqe)

/-! ### The turn of an admin command -/

/-- The admin command of an FSN when its opcode is `opc` and it is its turn: admin commands execute in FSN order (R36,
R97). -/
def State.adminCmd (s : State) (fsn opc : Nat) : Option Cmd :=
  match s.cmd fsn with
  | some c =>
    if c.sq = 0 ∧ c.sqe.opc = opc ∧ c.ph = .fetched ∧ !(s.hif.cmds.any fun d => d.sq == 0 && d.ph == .fetched && decide (d.fsn < fsn))
    then some c else none
  | none => none

/-- An admin row: what the command does when it is its turn. -/
def adminRow (fsn opc : Nat) (f : Cmd → State → State) (s : State) : Out :=
  match s.adminCmd fsn opc with
  | some c => .next (f c s)
  | none => .next s

end Sys2Proof.Machine
end

