-- ==== Sys2Proof/Machine/Isa.lean ====
section
/-! DEFINITION. The Baluf instruction words: formats, the opcode map, and the decoding of a word (chapter 9; R261 to R273,
Tables 9.2 to 9.11). -/
namespace Sys2Proof.Machine

/-- The instructions of chapter 9. -/
inductive BOp
  | add | sub | and | or | xor | andn | sll | srl | sra | ror | slt | sltu | min | max | minu | maxu | addw | subw
  | mul | mulh | mulhu | div | divu | rem | remu | clz | ctz | popc | bswap | crc32c
  | addi | andi | ori | xori | slti | sltiu | shi | lui | shlori
  | lb | lbu | lh | lhu | lw | lwu | ld | sb | sh | sw | sd
  | beq | bne | blt | bge | bltu | bgeu | j | jal | jalr | loopi | loop
  | sin | sout | sskip
  | vand | vor | vxor | vandn | vadd | vsub | vminu | vmaxu | vcmpeq | vcmpgtu | vcmpgt | vshuf | vbsl
  | vsplat | vmovw | vins | vmask | vpopc | vfirst | vcrc | vld | vst | vsin | vsout | vsoutm
  | yield | exit | fence | xwait | enter | tret | mfp | mtp | xfer | cas | amoadd | csrr | csrw
  deriving DecidableEq, Repr

/-- One row of the opcode map: the bits that must match (opcode and fields that must be zero), restricted to ring V
(Table 9.11), FE only (R271, R273), cycles. -/
structure OpRow where
  op : BOp
  mask : Nat
  val : Nat
  v : Bool := false
  fe : Bool := false
  cyc : Nat := 1
  deriving DecidableEq, Repr

/-- Format A, major 0: func, and whether b must be zero. -/
def rowA (op : BOp) (func : Nat) (cyc : Nat := 1) (b0 : Bool := false) : OpRow :=
  ⟨op, if b0 then 0xFC00FFFF else 0xFC0007FF, func, false, false, cyc⟩

/-- Register ALU (Table 9.4). -/
def tabAlu : List OpRow :=
  [rowA .add 0x001, rowA .sub 0x002, rowA .and 0x003, rowA .or 0x004, rowA .xor 0x005, rowA .andn 0x006,
   rowA .sll 0x008, rowA .srl 0x009, rowA .sra 0x00A, rowA .ror 0x00B, rowA .slt 0x010, rowA .sltu 0x011,
   rowA .min 0x012, rowA .max 0x013, rowA .minu 0x014, rowA .maxu 0x015, rowA .addw 0x018, rowA .subw 0x019,
   rowA .mul 0x020 3, rowA .mulh 0x021 3, rowA .mulhu 0x022 3, rowA .div 0x028 36, rowA .divu 0x029 36,
   rowA .rem 0x02A 36, rowA .remu 0x02B 36, rowA .clz 0x030 1 true, rowA .ctz 0x031 1 true, rowA .popc 0x032 1 true,
   rowA .bswap 0x033 1 true, rowA .crc32c 0x038 2]

/-- Format I: major, and fields that must be zero besides. -/
def rowI (op : BOp) (major : Nat) (cyc : Nat := 1) (mbz : Nat := 0) (fe : Bool := false) : OpRow :=
  ⟨op, 0xFC000000 + mbz, major * 0x4000000, false, fe, cyc⟩

/-- Immediate ALU (Table 9.5). -/
def tabImm : List OpRow :=
  [rowI .addi 0x02, rowI .andi 0x03, rowI .ori 0x04, rowI .xori 0x05, rowI .slti 0x06, rowI .sltiu 0x07,
   rowI .shi 0x08 1 0xFF00, rowI .lui 0x09 1 0x1F0000, rowI .shlori 0x0A]

/-- Loads and stores (Table 9.6), cycles in local memory. -/
def tabMem : List OpRow :=
  [rowI .lb 0x10 2, rowI .lbu 0x11 2, rowI .lh 0x12 2, rowI .lhu 0x13 2, rowI .lw 0x14 2, rowI .lwu 0x15 2,
   rowI .ld 0x16 2, rowI .sb 0x18, rowI .sh 0x19, rowI .sw 0x1A, rowI .sd 0x1B]

/-- Control transfer (Table 9.7), cycles of a branch not taken. -/
def tabCtl : List OpRow :=
  [rowI .beq 0x20, rowI .bne 0x21, rowI .blt 0x22, rowI .bge 0x23, rowI .bltu 0x24, rowI .bgeu 0x25,
   rowI .j 0x28 2, rowI .jal 0x29 2, rowI .jalr 0x2A 3 0xFFFF, rowI .loopi 0x2C 2 0xF000, rowI .loop 0x2D 2 0x1F0000]

/-- CSR access and scalar streams (R293, Table 9.8). -/
def tabCsr : List OpRow :=
  [rowI .csrr 0x30 1 0x1FF000, rowI .csrw 0x31 2 0x3E0F000, rowI .sin 0x34 1 0x1F0000 true,
   rowI .sout 0x35 1 0x3E00000 true, rowI .sskip 0x36 1 0x3E00000 true]

/-- Format V: major, op, and fields that must be zero. -/
def rowV (op : BOp) (major vop : Nat) (mbz : Nat) (cyc : Nat := 1) : OpRow :=
  ⟨op, 0xFC0001FC + mbz, major * 0x4000000 + vop * 4, false, true, cyc⟩

/-- The vector extension (Tables 9.9 and 9.10). -/
def tabVec : List OpRow :=
  [rowV .vand 0x3C 0x01 0x3E03, rowV .vor 0x3C 0x02 0x3E03, rowV .vxor 0x3C 0x03 0x3E03, rowV .vandn 0x3C 0x04 0x3E03,
   rowV .vadd 0x3C 0x08 0x3E00, rowV .vsub 0x3C 0x09 0x3E00, rowV .vminu 0x3C 0x0A 0x3E00, rowV .vmaxu 0x3C 0x0B 0x3E00,
   rowV .vcmpeq 0x3C 0x0C 0x3E00, rowV .vcmpgtu 0x3C 0x0D 0x3E00, rowV .vcmpgt 0x3C 0x0E 0x3E00,
   rowV .vshuf 0x3C 0x10 0x3E03, rowV .vbsl 0x3C 0x14 0x3E03,
   rowV .vsplat 0x3D 0x01 0x3FC000, rowV .vmovw 0x3D 0x02 0x3C3C000, rowV .vins 0x3D 0x03 0x3FC000,
   rowV .vmask 0x3D 0x04 0x3C3C003, rowV .vpopc 0x3D 0x05 0x3C3C003, rowV .vfirst 0x3D 0x06 0x3C3C003,
   rowV .vcrc 0x3D 0x07 0x3C3C003 4, rowV .vld 0x3E 0x01 0x3FC003 2, rowV .vst 0x3E 0x02 0x3C3C003,
   rowV .vsin 0x3E 0x03 0x3FFE03, rowV .vsout 0x3E 0x04 0x3C3FE03, rowV .vsoutm 0x3E 0x05 0x3C03E03 2]

/-- Format A, major 1: func, fields that must be zero, ring V only. -/
def rowS (op : BOp) (func mbz : Nat) (v : Bool) (cyc : Nat) : OpRow := ⟨op, 0xFC0007FF + mbz, 0x4000000 + func, v, false, cyc⟩

/-- System instructions (Table 9.11). -/
def tabSys : List OpRow :=
  [rowS .yield 0x001 0x3FFF800 false 1, rowS .exit 0x002 0x3E0F800 false 1, rowS .fence 0x003 0x3FFF800 true 1,
   rowS .xwait 0x004 0x3FFF800 true 1, rowS .enter 0x005 0x3E0F800 true 4, rowS .tret 0x006 0x3FFF800 true 4,
   rowS .mfp 0x007 0xF800 true 1, rowS .mtp 0x008 0xF800 true 1, rowS .xfer 0x009 0 false 2,
   rowS .cas 0x00A 0 true 120, rowS .amoadd 0x00B 0 true 120]

/-- The opcode map. -/
def opTable : List OpRow := tabAlu ++ tabImm ++ tabMem ++ tabCtl ++ tabCsr ++ tabVec ++ tabSys

/-- An instruction word's fields (Table 9.2). -/
structure Ins where
  w : Nat
  deriving DecidableEq, Repr

def Ins.d (i : Ins) : Nat := bits i.w 25 21
def Ins.a (i : Ins) : Nat := bits i.w 20 16
def Ins.b (i : Ins) : Nat := bits i.w 15 11
def Ins.imm (i : Ins) : Nat := i.w % 65536
/-- Format B: a [25:21], b [20:16]. -/
def Ins.ba (i : Ins) : Nat := bits i.w 25 21
def Ins.bb (i : Ins) : Nat := bits i.w 20 16
/-- Format V. -/
def Ins.vd (i : Ins) : Nat := bits i.w 25 22
def Ins.va (i : Ins) : Nat := bits i.w 21 18
def Ins.vb (i : Ins) : Nat := bits i.w 17 14
def Ins.r (i : Ins) : Nat := bits i.w 13 9
def Ins.e (i : Ins) : Nat := i.w % 4
/-- Body length of LOOPI: d:a (Table 9.7). -/
def Ins.len (i : Ins) : Nat := bits i.w 25 16
/-- sext(imm16) and zext(imm16). -/
def Ins.sx (i : Ins) : W64 := (BitVec.ofNat 16 i.w).signExtend 64
def Ins.zx (i : Ins) : W64 := BitVec.ofNat 64 i.imm
/-- The signed word offset of formats B and J, in bytes. -/
def Ins.boff (i : Ins) : W64 := i.sx <<< 2
def Ins.joff (i : Ins) : W64 := (BitVec.ofNat 26 i.w).signExtend 64 <<< 2

/-- Values of an operand field that the tables restrict: a stream count of 1, 2, 4 or 8, a loop body of 1 to 1,023. -/
def operandOk (op : BOp) (i : Ins) : Bool :=
  match op with
  | .sin => i.imm == 1 || i.imm == 2 || i.imm == 4 || i.imm == 8
  | .sout => i.imm == 1 || i.imm == 2 || i.imm == 4 || i.imm == 8
  | .loopi => i.len != 0
  | .loop => i.imm != 0 && decide (i.imm ≤ 1023)
  | _ => true

/-- The row of a word, none where the word is illegal on an engine (R263, R271, R273); `fe` says the engine is an FE. -/
def decodeB (fe : Bool) (w : Nat) : Option OpRow :=
  match opTable.find? (fun r => Nat.land w r.mask == r.val) with
  | some r => if operandOk r.op ⟨w⟩ && (fe || !r.fe) then some r else none
  | none => none

/-! ### Vectors -/

/-- Element i of a vector at width e (8 x 2^e bits). -/
def lane (e i : Nat) (v : W256) : Nat := v.toNat / 2 ^ (8 * 2 ^ e * i) % 2 ^ (8 * 2 ^ e)

/-- The vector of a list of elements of width e, lowest first. -/
def ofLanes (e : Nat) : List Nat → Nat
  | [] => 0
  | x :: t => x % 2 ^ (8 * 2 ^ e) + 2 ^ (8 * 2 ^ e) * ofLanes e t

/-- Elements of a vector at width e. -/
def lanes (e : Nat) (v : W256) : List Nat := (List.range (32 / 2 ^ e)).map fun i => lane e i v

/-- An elementwise operation. -/
def vmap2 (e : Nat) (f : Nat → Nat → Nat) (x y : W256) : W256 := BitVec.ofNat 256 (ofLanes e (List.zipWith f (lanes e x) (lanes e y)))

/-- All ones of width e where a test holds. -/
def onesIf (e : Nat) (p : Bool) : Nat := if p then 2 ^ (8 * 2 ^ e) - 1 else 0

/-- The signed order of two elements of width e. -/
def sgtN (e x y : Nat) : Bool :=
  let h := 2 ^ (8 * 2 ^ e - 1)
  decide ((y + h) % (2 * h) < (x + h) % (2 * h))

/-- The 32 bytes of a vector, lowest first. -/
def vbytes (v : W256) : List Byte := (lanes 0 v).map (BitVec.ofNat 8)

/-- The vector of up to 32 bytes. -/
def ofVbytes (d : List Byte) : W256 := BitVec.ofNat 256 (ofLe d)

/-- Set bits of a w register or a vector. -/
def popBits (n : Nat) (v : Nat) : Nat := (List.range n).foldl (fun a k => a + b2n (v.testBit k)) 0

/-- Lowest set bit position below n, n when there is none. -/
def firstSet (n v : Nat) : Nat := ((List.range n).find? (fun k => v.testBit k)).getD n

/-- Leading zeros of a 64-bit value. -/
def clz64 (v : Nat) : Nat := ((List.range 64).find? (fun k => v.testBit (63 - k))).getD 64

end Sys2Proof.Machine
end

