-- ==== Sys2Proof/Machine/MemProt.lean ====
section
/-! DEFINITION. The row and column code of every SRAM and DRAM word, poison, scrubbing, erasure mode, spare rows, passes
and the flip-mask register (chapter 11; R324 to R346). -/
namespace Sys2Proof.Machine

/-! ### Scrubbing (R332, R340, Table 11.4) -/

/-- Base in FE local memory of a scan's 48 KiB region (R315), above the ring V image of at most 64 KiB (R299). -/
def regionBase (r : Nat) : Nat := 65536 + 49152 * r

/-- A word of engine local memory that a scan's program occupies: the image word (Table 11.4, R315). -/
def State.imageWord (s : State) (unit off : Nat) : Option Nat :=
  (s.prg.scans.find? fun c => c.resident && uEng (eFE c.fe) == unit && decide (regionBase c.region ≤ off) &&
    decide (off < regionBase c.region + c.prog.code.length)).map fun c => leAt c.prog.code (off - regionBase c.region) 8

/-- Data with the 8 bytes from an offset zeroed. -/
def zeroWord (d : List Byte) (o : Nat) : List Byte := d.zipIdx.map fun p => if o ≤ p.2 ∧ p.2 < o + 8 then 0 else p.1

/-- The action on an uncorrectable word that the scrubber finds (Table 11.4); one of the key store, which the model takes to be the
security unit's SRAM (DESIGN CHOICE, assumption 28), is loaded again from its slot's MRAM copy (R378). -/
def State.scrubBad (s : State) (a : Nat) : State :=
  let s := s.raiseEvt F.MEMP_EVT_UNCORR F.MEMP_EVT_CNT0_UNCORR_CNT
  let off := locOff a
  let u := locUnit a
  if locSpace a = 0 then
    if off < s.mapRegion then (s.healWord a).pageRebuild (off / 5 / 3072)
    else if off < s.segTabEnd then (s.healWord a).raiseFault 0x0008 (uSvc 1) a
    else if off < s.poolEnd then
      match s.fineRec ((off - s.segTabEnd) / 128) with
      | some f => (s.healWord a).pageRebuild (f.owner / 3072)
      | none => (s.healWord a).raiseFault 0x0008 (uSvc 1) a
    else if s.shadowed a then (s.healWord a).raiseFault 0x0008 (uSvc 1) a
    else s.poisonAt a
  else if u = uSvc 6 ∧ 2 ^ 31 ≤ off then (s.healWord a).raiseEvt F.SEC_EVT_RELOAD F.SEC_EVT_CNT0_REL_CNT
  else if u = uFront ∧ off < sramBytes uFront then (s.healWord a).raiseFault 0x0008 uFront a
  else if uKind u = 7 ∧ off < sramBytes u then
    match s.lnd.secs.get none (uIdx u * 4096 + off / 4096) with
    | some x =>
      if x.done ∧ !x.prog then (s.poisonAt a).poisonLanded (uIdx u * 4096 + off / 4096) x
      else ((s.onLnd fun l => { l with secs := l.secs.set none (uIdx u * 4096 + off / 4096) (some { x with data := zeroWord x.data (off % 4096) }) }).healWord a).raiseFault 0x0008 u a
    | none => (s.healWord a).raiseFault 0x0008 u a
  else if uKind u = 4 ∧ off < sramBytes u then
    match s.imageWord u off with
    | some d => (s.writeWord a d).raiseFault 0x0008 u a
    | none => s.poisonAt a
  else s.poisonAt a

/-- The scrubber reads one word (R328, R332): what it decoded as, and the state. -/
def State.scrubWord (s : State) (a : Nat) : State :=
  match s.wordCls a with
  | .clean _ => s
  | .corr _ dev fixed => s.writeBack a dev fixed
  | .poisoned => s
  | .uncorr => s.scrubBad a

/-- The listed words of an address range that patrol and passes read: every other word is zero and clean. -/
def State.wordsIn (s : State) (p : Nat → Bool) : List Nat := (s.memp.words.keys.map (· * 8)).filter p

/-- SRAM_PATROL (R340, R341): with SRAM_EN, one lap over every word of every powered bank. -/
def State.sramPatrol (s : State) : State :=
  if s.flag F.MEMP_CTL_SRAM_EN then
    ((s.wordsIn fun a => locSpace a == 1 && decide (s.curPwr (locUnit a) = 2)).foldl State.scrubWord s).onMemp fun m => { m with lapS := (m.lapS + 1) % 65536 }
  else s

def execSramPatrol (s : State) : Out := .next s.sramPatrol

/-- DRAM_PATROL (R334, R340, R357): with DRAM_EN, and paused in PS4, one lap over every word of DRAM; the attributed corrections begin anew. -/
def State.dramPatrol (s : State) : State :=
  if s.flag F.MEMP_CTL_DRAM_EN ∧ s.pwr.cur ≠ 4 then
    ((s.wordsIn fun a => locSpace a == 0).foldl State.scrubWord s).onMemp fun m => { m with lapD := (m.lapD + 1) % 65536, attr := {} }
  else s

def execDramPatrol (s : State) : Out := .next s.dramPatrol

/-- DECLARE (R334, R346): a write of MEMP_DEV_CFG; with DECLARE it names the failed device. -/
def State.devCfg (s : State) (v : Nat) : State :=
  match (regAt 0xD00030).bind (fun r => s.storeReg r 0 v) with
  | some s => if v.testBit 31 then s.declareFailed (bits v 26 24) (bits v 23 20) else s
  | none => s

def execDeclare (val : W32) (s : State) : Out := .next (s.devCfg val.toNat)

/-! ### Hard faults (R338, R339) -/

/-- A fuse entry of 8 bytes (Table 11.6). -/
def Fuse.ofNat (v : Nat) : Fuse := ⟨v % 65536, v / 2 ^ 16 % 256, v / 2 ^ 24 % 256, v / 2 ^ 32 % 65536, v / 2 ^ 48 % 256⟩

/-- One bit of CRC-8, polynomial x^8 + x^2 + x + 1. -/
def crc8Bit (c : Nat) : Nat := if 128 ≤ c then (2 * c % 256) ^^^ 7 else 2 * c

/-- CRC-8 of bytes. -/
def crc8 (d : List Byte) : Nat :=
  d.foldl (fun c b => crc8Bit (crc8Bit (crc8Bit (crc8Bit (crc8Bit (crc8Bit (crc8Bit (crc8Bit (c ^^^ b.toNat))))))))) 0

/-- The 8 bytes of a fuse entry, CHECK last. -/
def Fuse.bytes (f : Fuse) : List Byte :=
  let b := leBytes 2 f.unit ++ leBytes 1 f.bank ++ leBytes 1 f.spare ++ leBytes 2 f.row ++ leBytes 1 f.source
  b ++ leBytes 1 (crc8 b)

/-- Factory fuses and soft fuses. -/
def State.fuses (s : State) : List Fuse :=
  (List.range (min Config.factoryFuses 1024)).map (fun i => Fuse.ofNat (Config.factoryFuse i)) ++ s.memp.soft

/-- A free spare row of a bank. -/
def State.freeSpare (s : State) (unit bank : Nat) : Option Nat :=
  (List.range 8).find? fun k => !(s.fuses.any fun f => f.unit == unit && f.bank == bank && f.spare == k)

/-- An SRAM row without a spare: NOSPARE, an F2 event; the sector or way is removed, an engine is fenced (R338). -/
def State.noSpare (s : State) (a : Nat) : State :=
  let u := locUnit a
  let s := (s.raiseEvt F.MEMP_EVT_NOSPARE F.MEMP_EVT_CNT2_NOSP_CNT).raiseFault 0x0206 u a
  if uKind u = 4 then s.fenceUnit u
  else s.onMemp fun m => { m with removed := a / 256 * 256 :: m.removed }

/-- Repair of a word declared hard (R338): an SRAM row is copied to a spare, its words corrected, with a soft fuse; a DRAM
page is withheld and its row queued for post-package repair. -/
def State.hardRepair (s : State) (i : Nat) : State :=
  match s.memp.rep.get none i with
  | some e =>
    if e.st ≠ 2 then s
    else
      let s := s.onMemp fun m => { m with rep := m.rep.set none i (some { e with st := 3 }) }
      let a := e.addr
      if locSpace a = 0 then
        s.onMemp (fun m => { m with withheld := if a / 4096 ∈ m.withheld then m.withheld else a / 4096 :: m.withheld }) |>.onDram
          fun d => { d with repairs := d.repairs ++ [a] }
      else
        let bank := locOff a / 262144
        match s.freeSpare (locUnit a) bank with
        | some k =>
          if s.memp.soft.length < 1024 then
            let row := (List.range 32).map fun n => a / 256 * 256 + 8 * n
            let s := row.foldl (fun s x => match s.wordCls x with | .corr _ _ f => s.storeWord x f | _ => s) s
            (s.onMemp fun m => { m with soft := m.soft ++ [⟨locUnit a, bank, k, locOff a % 262144 / 256, 2⟩] }).raiseFault 0x0009 (locUnit a) a
          else s.noSpare a
        | none => s.noSpare a
  | none => s

def execHardFaultRepair (entry : Nat) (s : State) : Out := .next (s.hardRepair entry)

/-! ### On-demand passes (R342) -/

/-- The address and length of a pass as the registers hold them. -/
def State.passAddr (s : State) : Nat := s.getF F.MEMP_PASS_ADDR_LO_ADDR + s.getF F.MEMP_PASS_ADDR_HI_ADDR * 2 ^ 32

/-- The end of the SRAM or DRAM that a memory location address lies in (Table 11.9, R336, R342). -/
def State.locEnd (s : State) (a : Nat) : Nat :=
  if locSpace a = 0 then s.dramSize
  else a - a % 2 ^ 32 + (if locOff a < 2 ^ 31 then sramBytes (locUnit a) else 2 ^ 32)

/-- A pass ends: its code, and PASS_DONE. -/
def State.passEnds (s : State) (code : Nat) : State :=
  (s.onMemp fun m => { m with pass := none, passCode := code }).raiseEvt F.MEMP_EVT_PASS_DONE F.MEMP_EVT_CNT4_DONE_CNT

/-- PASS_START (R342): dropped with PASS_REJ while one runs; an address that names no word, or of a space other than SRAM
and DRAM, ends it with CODE ILLEGAL; a unit that is off, with CODE OFF. -/
def State.passStart (s : State) : State :=
  if s.memp.pass.isSome then s.raiseEvt F.MEMP_EVT_PASS_REJ F.MEMP_EVT_CNT4_REJ_CNT
  else
    let a := s.passAddr
    let s := s.onMemp fun m => { m with pass := some { addr := a, left := s.getF F.MEMP_PASS_LEN_PAGES }, passDone := 0, passCode := 0,
                                        sumCorr := 0, sumUnc := 0, sumFound := 0, sumNew := 0, first := 0xFFFFFFFFFFFFFFFF }
    if !s.locOk a || decide (2 ≤ locSpace a) then s.passEnds 3
    else if locSpace a = 1 ∧ s.curPwr (locUnit a) ≠ 2 then s.passEnds 2 else s

def execPassStart (s : State) : Out := .next s.passStart

/-- PASS_STOP (R342): the running pass ends with CODE STOPPED. -/
def State.passStop (s : State) : State := if s.memp.pass.isSome then s.passEnds 1 else s

def execPassStop (s : State) : Out := .next s.passStop

/-- A saturating 16-bit count. -/
def sat16 (n : Nat) : Nat := min n 65535

/-- The pass reads one word: counted in the summary and treated as patrol treats it. -/
def State.passWord (s : State) (a : Nat) : State :=
  let note := fun (s : State) => s.onMemp fun m => { m with first := if m.first = 0xFFFFFFFFFFFFFFFF then a else m.first }
  match s.wordCls a with
  | .clean _ => s
  | .corr _ _ _ => (s.scrubWord a).onMemp fun m => { m with sumCorr := sat16 (m.sumCorr + 1) }
  | .poisoned => (note s).onMemp fun m => { m with sumFound := sat16 (m.sumFound + 1) }
  | .uncorr =>
    let s' := (note s).scrubWord a
    let new : Bool := match s'.wordCls a with | .poisoned => true | _ => false
    s'.onMemp fun m => { m with sumUnc := sat16 (m.sumUnc + 1), sumNew := if new then sat16 (m.sumNew + 1) else m.sumNew }

/-- PASS_DONE (R342): the running pass reads the words of its range and ends, with CODE OK, or CODE OFF where its unit has
gone off, or ILLEGAL where the range goes on past the last word. -/
def State.passFinish (s : State) : State :=
  match s.memp.pass with
  | none => s
  | some p =>
    if locSpace p.addr = 1 ∧ s.curPwr (locUnit p.addr) ≠ 2 then s.passEnds 2
    else
      let n := min p.left ((s.locEnd p.addr - p.addr) / 4096)
      let fin := p.addr + 4096 * n
      let s := (s.wordsIn fun a => decide (p.addr ≤ a) && decide (a < fin)).foldl State.passWord s
      (s.onMemp fun m => { m with passDone := n }).passEnds (if n < p.left then 3 else 0)

def execPassDone (s : State) : Out := .next s.passFinish

/-! ### The flip-mask register (R345) -/

/-- FLIP_ARM: ARM is set, where MEMP_FLIP_ADDR names a word. -/
def State.flipArm (s : State) : State := s.setF F.MEMP_FLIP_CTL_ARM 1

def execFlipArm (s : State) : Out := .next s.flipArm

end Sys2Proof.Machine
end

