-- ==== Sys2Proof/Machine/Engine.lean ====
section
/-! DEFINITION. Engine state as a Baluf program sees it: registers, loops, windows and translation, transfers, streams,
CSRs, traps and the end of a step, and the scan a step belongs to (chapters 9 and 10; R261 to R294, R313 to R321). -/
namespace Sys2Proof.Machine

/-! ### Registers, pc and loops -/

/-- An engine. -/
def State.eng (s : State) (e : Nat) : Eng := s.prg.engs.get {} e

/-- Change an engine. -/
def State.onEng (s : State) (e : Nat) (f : Eng → Eng) : State := s.onPrg fun p => { p with engs := p.engs.upd {} e f }

/-- An FE. -/
def isFe (e : Nat) : Bool := decide (0x20 ≤ e) && decide (e < 0x30)

/-- An SE. -/
def isSe (e : Nat) : Bool := decide (0x30 ≤ e)

/-- Bytes of local memory (R261). -/
def localBytes (e : Nat) : Nat := if isSe e then 524288 else 262144

/-- Register i of the running bank; w0 reads as zero (Table 9.1, R262). -/
def Eng.w (g : Eng) (i : Nat) : W64 := if i = 0 then 0 else if g.ring = 0 then g.vw.get 0 i else g.pw.get 0 i

/-- Write register i of the running bank; a write to w0 is dropped. -/
def Eng.setW (g : Eng) (i : Nat) (v : W64) : Eng :=
  if i = 0 then g else if g.ring = 0 then { g with vw := g.vw.set 0 i v } else { g with pw := g.pw.set 0 i v }

/-- pc of the running bank. -/
def Eng.pc (g : Eng) : Nat := if g.ring = 0 then g.vpc else g.ppc

/-- Set the pc of the running bank. -/
def Eng.setPc (g : Eng) (n : Nat) : Eng := if g.ring = 0 then { g with vpc := n % 2 ^ 64 } else { g with ppc := n % 2 ^ 64 }

/-- Loop levels of the running bank: outer, inner. -/
def Eng.loops (g : Eng) : Lvl × Lvl := if g.ring = 0 then (g.v0, g.v1) else (g.p0, g.p1)

/-- Set the loop levels of the running bank. -/
def Eng.setLoops (g : Eng) (l : Lvl × Lvl) : Eng :=
  if g.ring = 0 then { g with v0 := l.1, v1 := l.2 } else { g with p0 := l.1, p1 := l.2 }

/-- Levels in use. -/
def loopDepth (l : Lvl × Lvl) : Nat := if l.2.remain ≠ 0 then 2 else if l.1.remain ≠ 0 then 1 else 0

/-- A target lies in the body of a level. -/
def Lvl.holds (l : Lvl) (t : Nat) : Bool := decide (l.start ≤ t) && decide (t ≤ l.fin)

/-- A taken branch or J leaves every active level whose body its target lies outside, and every level inside it (R270). -/
def loopsLeave (l : Lvl × Lvl) (t : Nat) : Lvl × Lvl :=
  if l.1.remain ≠ 0 ∧ !l.1.holds t then ({}, {}) else if l.2.remain ≠ 0 ∧ !l.2.holds t then (l.1, {}) else l

/-- The loop iteration after an instruction at address `e` that completed without a taken branch or jump: where pc goes,
and the levels left (R269). -/
def loopsNext (l : Lvl × Lvl) (e : Nat) : Nat × (Lvl × Lvl) :=
  let outer := fun (o : Lvl) =>
    if o.remain ≠ 0 ∧ e = o.fin then
      if 1 < o.remain then (o.start, ({ o with remain := o.remain - 1 }, ({} : Lvl))) else (e + 4, ({}, {}))
    else (e + 4, (o, ({} : Lvl)))
  if l.2.remain ≠ 0 then
    if e = l.2.fin then
      if 1 < l.2.remain then (l.2.start, (l.1, { l.2 with remain := l.2.remain - 1 })) else outer l.1
    else (e + 4, l)
  else outer l.1

/-- u register of an FE. -/
def Eng.uv (g : Eng) (i : Nat) : W256 := g.u.get 0 i

/-- Write a u register. -/
def Eng.setU (g : Eng) (i : Nat) (v : W256) : Eng := { g with u := g.u.set 0 i v }

/-! ### Translation (R266, R276, R277) -/

/-- Causes of Table 9.13. -/
def cYield : Nat := 0x00
def cExit : Nat := 0x01
def cIllegal : Nat := 0x02
def cMisalign : Nat := 0x03
def cWindow : Nat := 0x04
def cAccess : Nat := 0x05
def cUnitOff : Nat := 0x06
def cPoison : Nat := 0x07
def cBudget : Nat := 0x08
def cStream : Nat := 0x09
def cXlimit : Nat := 0x0A

/-- Where an effective address leads: register space, local memory or DRAM by its memory location address, MRAM. -/
inductive PAddr
  | reg (addr : Nat)
  | mem (loc : Nat)
  | mram (off : Nat)
  deriving DecidableEq, Repr

/-- Window fields (Table 9.15). -/
def winBase (w : Nat) : Nat := bits w 63 36
def winLen (w : Nat) : Nat := bits w 35 8
def winW (w : Nat) : Bool := w.testBit 2
def winR (w : Nat) : Bool := w.testBit 1
def winValid (w : Nat) : Bool := w.testBit 0

/-- A physical range lies wholly in the engine's local memory. -/
def inLocal (e pa len : Nat) : Bool := decide (2 ^ 32 ≤ pa) && decide (pa + len ≤ 2 ^ 32 + localBytes e)

/-- A physical range lies wholly in DRAM below the fitted size (R348). -/
def State.inDram (s : State) (pa len : Nat) : Bool := decide (2 ^ 38 ≤ pa) && decide (pa + len ≤ 2 ^ 38 + s.dramSize)

/-- The word a local or DRAM physical address names. -/
def memLoc (e pa : Nat) : Nat := if 2 ^ 38 ≤ pa then dramLoc (pa - 2 ^ 38) else sramLoc (uEng e) (pa - 2 ^ 32)

/-- A range of local memory meets the code region (R277). -/
def Eng.meetsCode (g : Eng) (off len : Nat) : Bool := decide (off < g.codeb + g.codel) && decide (g.codeb < off + len)

/-- Translation in ring V (R276): the physical map, or the access trap. -/
def State.translateV (s : State) (e ea size : Nat) : Except Nat PAddr :=
  if ea < 0x1200000 then .ok (.reg ea)
  else if inLocal e ea size then .ok (.mem (memLoc e ea))
  else if 2 ^ 33 ≤ ea ∧ ea + size ≤ 2 ^ 33 + 33554432 then .ok (.mram (ea - 2 ^ 33))
  else if s.inDram ea size then .ok (.mem (memLoc e ea))
  else .error cAccess

/-- Translation in rings O and T (R277): a window of local memory with the right, outside the code region. -/
def Eng.translateP (g : Eng) (e ea size : Nat) (store : Bool) : Except Nat PAddr :=
  let win := g.wins.get 0 (ea / 2 ^ 61)
  let off := ea % 2 ^ 61
  let pa := winBase win * 4096 + off
  if !winValid win || (if store then !winW win else !winR win) || decide (winLen win * 4096 < off + size) then .error cWindow
  else if !inLocal e (winBase win * 4096) (winLen win * 4096) then .error cWindow
  else if store && g.meetsCode (pa - 2 ^ 32) size then .error cWindow
  else .ok (.mem (memLoc e pa))

/-- Translation of a load or store (R266). -/
def State.translate (s : State) (e : Nat) (g : Eng) (ea size : Nat) (store : Bool) : Except Nat PAddr :=
  if g.ring = 0 then s.translateV e ea size else g.translateP e ea size store

/-- One side of an XFER: its physical address, when it lies wholly within local memory or wholly within DRAM with its
right (R277, R281). -/
def State.xferSide (s : State) (e : Nat) (g : Eng) (ea len : Nat) (dst : Bool) : Option Nat :=
  if g.ring = 0 then (if inLocal e ea len || s.inDram ea len then some ea else none)
  else
    let win := g.wins.get 0 (ea / 2 ^ 61)
    let off := ea % 2 ^ 61
    let base := winBase win * 4096
    let pa := base + off
    if !winValid win || (if dst then !winW win else !winR win) || decide (winLen win * 4096 < off + len) then none
    else if inLocal e base (winLen win * 4096) then (if dst && g.meetsCode (pa - 2 ^ 32) len then none else some pa)
    else if s.inDram base (winLen win * 4096) then some pa else none

/-! ### Memory of an engine -/

/-- The bytes of a range of protected words, as reads deliver them. -/
def State.memBytes (s : State) (loc n : Nat) : List Byte :=
  ((List.range ((loc % 8 + n + 7) / 8)).flatMap (fun k => leBytes 8 (s.wordData (loc / 8 * 8 + 8 * k)))).drop (loc % 8) |>.take n

/-- Words of a range. -/
def wordsOf (loc n : Nat) : List Nat := (List.range ((loc % 8 + n + 7) / 8)).map fun k => loc / 8 * 8 + 8 * k

/-- Every word of a range delivers its data. -/
def State.memReads (s : State) (loc n : Nat) : Bool := (wordsOf loc n).all s.wordReads

/-- A consumer reads the words of a range: corrections are written back; a word that does not deliver is recorded
(R328, R331). -/
def State.consume (s : State) (loc n unit : Nat) : State := (wordsOf loc n).foldl (fun s a => (s.loadWord a unit).2) s

/-- A word with `n` bytes from byte `o` replaced by the low bytes of `v`. -/
def mergeWord (d o n v : Nat) : Nat := d - d / 2 ^ (8 * o) % 2 ^ (8 * n) * 2 ^ (8 * o) + v % 2 ^ (8 * n) * 2 ^ (8 * o)

/-- Store the low `n` bytes of a value, n at most 8, within one word: a whole word fresh, a part merged (R266, R267). -/
def State.memStore (s : State) (loc n v : Nat) : State :=
  let a := loc / 8 * 8
  s.writeWord a (mergeWord (s.wordData a) (loc % 8) n v)

/-- Write bytes over whole words, the first of which has crossed the fabric where the words are not the engine's own. -/
def State.memSend (s : State) (e loc n v : Nat) : State :=
  if locSpace loc = 0 then s.sendWord (uEng e) (s.locOwner loc) (loc / 8 * 8) (mergeWord (s.wordData (loc / 8 * 8)) (loc % 8) n v) else s.memStore loc n v

/-- Write bytes over whole words. -/
def State.memFill (s : State) (loc : Nat) : List Byte → Nat → State
  | _, 0 => s
  | d, n + 1 => (s.writeWord loc (ofLe (d.take 8))).memFill (loc + 8) (d.drop 8) n

/-! ### Transfers (R281, R282) -/

/-- Copy one word over the fabric: a source word that does not decode arrives poisoned, with the events of the first agent to move it
(R282, R327, R330). -/
def State.copyWord (s : State) (e src dst : Nat) : State :=
  match s.wordCls src with
  | .clean d => s.sendWord (s.locOwner src) (s.locOwner dst) dst d
  | .corr d dev f => (s.writeBack src dev f).sendWord (s.locOwner src) (s.locOwner dst) dst d
  | .poisoned => s.storeWord dst (poisonWord (s.word src))
  | .uncorr =>
    let w := poisonWord (s.word src)
    (((s.raiseEvt F.MEMP_EVT_UNCORR F.MEMP_EVT_CNT0_UNCORR_CNT).raiseEvt F.MEMP_EVT_POIS_NEW F.MEMP_EVT_CNT1_PNEW_CNT).raiseFault 0x0107 (uEng e) src).storeWord dst w

/-- Perform one transfer. -/
def State.doXfer (s : State) (e : Nat) (x : Xfer) : State :=
  (List.range (x.len / 8)).foldl (fun s k => s.copyWord e (memLoc e (x.src + 8 * k)) (memLoc e (x.dst + 8 * k))) s

/-- Perform the pending transfers in issue order (R282). -/
def State.doXfers (s : State) (e : Nat) : State :=
  ((s.eng e).xfers.foldl (fun s x => s.doXfer e x) s).onEng e fun g => { g with xfers := [] }

/-- Bytes pending (XPEND). -/
def Eng.pendBytes (g : Eng) : Nat := g.xfers.foldl (fun a x => a + x.len) 0

/-! ### Results of a scan (R317) -/

/-- A scan by its FSN. -/
def State.scanOf (s : State) (fsn : Nat) : Option Scan := s.prg.scans.find? (fun c => c.fsn == fsn)

/-- Change a scan. -/
def State.onScan (s : State) (fsn : Nat) (f : Scan → Scan) : State :=
  s.onPrg fun p => { p with scans := p.scans.map fun c => if c.fsn = fsn then f c else c }

/-- Blocks of a scan's ranges in bytes: the stream's length. -/
def Scan.length (c : Scan) : Nat := c.ranges.foldl (fun a r => a + r.2 * 4096) 0

/-- Entry offset of a kind in a program's CODE. -/
def Prog.entry (p : Prog) (kind : Nat) : Option Nat := (p.entries.find? (fun x => x.1 == kind)).map (·.2)

/-- The scan header (Table 10.11). -/
def Scan.header (c : Scan) (endc cause xval stop : Nat) : List Byte :=
  leBytes 8 c.result.length ++ leBytes 8 stop ++ leBytes 8 xval ++ leBytes 1 endc ++ leBytes 1 cause ++ zeros 2 ++ leBytes 4 (sat32 c.steps)

/-- Status of a scan's end (Table 10.11). -/
def endStatus (endc : Nat) : Nat := if endc = 4 then stProgTrap else if endc = 5 then stUnrecovered else stOk

/-- A program that drains and has no scan left is freed (R311). -/
def State.reap (s : State) : State :=
  s.onPrg fun x => { x with progs := x.progs.keepKV fun h o => match o with
    | some p => !p.draining || x.scans.any (fun c => c.handle == h)
    | none => false }

/-- A scan that leaves the FE: its Cancel completes with 1, since the scan ended on its own (R318). -/
def State.dropScan (s : State) (c : Scan) (cancelled : Bool) : State :=
  let s := (s.onPrg fun p => { p with scans := p.scans.filter (fun x => x.fsn != c.fsn) }).reap
  match c.cancel with
  | some f => s.complete f stOk (if cancelled then 0 else 1)
  | none => s

/-- A scan ends (R317): its header and results are due over the host link, then its completion, with DW0 RBYTES and DW1 END. -/
def State.endScan (s : State) (c : Scan) (endc cause xval stop : Nat) : State :=
  let out := c.header endc cause xval stop ++ c.result
  (s.onCmd c.fsn fun x => { x with fin := some (endStatus endc, c.result.length, endc), sqe := { x.sqe with data := out }, left := cdiv out.length 4096 }).dropScan c (endc == 3)

/-- Scans that have ended and whose results have crossed the host link complete (R46, R317). -/
def State.finishScans (s : State) : State :=
  s.hif.cmds.foldl (fun s c => match c.fin with
    | some f => if c.left = 0 then s.complete c.fsn f.1 f.2.1 c.sqe.data f.2.2 else s
    | none => s) s

/-- A scan ends without a header, with a status (R317). -/
def State.failScan (s : State) (c : Scan) (st : Nat) : State := (s.complete c.fsn st).dropScan c false

/-! ### Traps and the end of a step (R287 to R291) -/

/-- Engine cycles the step used (R284). -/
def Eng.used (g : Eng) : Nat := g.stepmax - g.budget

/-- The step's cycles charged to the engine's frame and its class, and in ring T to its tenant (R46, R54, R68, R284). -/
def State.chargeStep (s : State) (e : Nat) : State :=
  let g := s.eng e
  (if g.ring = 2 then s.chargeAt (arbEng e) 3 3 g.tid g.used
   else if g.scan.isSome then s.onSched fun c => c.chargeClass (arbEng e) 3 g.used else s).onSched fun c => { c with cycUsed := c.cycUsed.set 0 e (c.cycUsed.get 0 e + g.used), steps := c.steps.set 0 e (c.steps.get 0 e + 1) }

/-- The engine leaves a step (R287, R272, R282): transfers and output only when it ended at YIELD or EXIT, input dropped,
loop state cleared but at YIELD, ring V at TVEC. -/
def State.leaveStep (s : State) (e cause pc val : Nat) : State :=
  let s := if cause ≤ 1 then s.doXfers e else s
  s.onEng e fun g =>
    { g with xfers := g.vxfers, vxfers := [], ring := 0, tring := g.ring, cause := cause, trappc := pc, trapval := val, vpc := g.tvec,
             p0 := if cause = 0 then g.p0 else {}, p1 := if cause = 0 then g.p1 else {},
             strpos := g.strpos + g.inp.length, inp := [], inBad := [], inAtt := false, inLast := false, outAtt := false, room := 0, outp := [] }

/-- A program of ring O or T trapped: PRG_EVT.TRAP, an F1 event of the program, its trap count; a BUDGET trap of ring T,
whose code was verified, also an F2 event of the engine (R69, R289). -/
def State.progTrap (s : State) (e ring cause handle : Nat) : State :=
  let s := (s.raiseEvt F.PRG_EVT_TRAP F.PRG_EVT_CNT0_TRAP_CNT).bump F.ENG_TRAPS_TRAPS e
  let s := s.onPrg fun p => { p with progs := p.progs.upd none handle fun o => o.map fun (x : Prog) => { x with traps := x.traps + 1 } }
  let s := s.raiseFault 0x0104 (uEng e) handle
  if ring = 2 ∧ cause = cBudget then s.raiseFault 0x020F (uEng e) handle else s

/-- What becomes of a scan after one of its steps (R287, R289, R316, R317): output released, then the next stage, or its
end. -/
def State.scanAfter (s : State) (c : Scan) (cause val : Nat) (g : Eng) : State :=
  let c : Scan := { c with steps := c.steps + 1, pos := g.strpos + g.inp.length, w := g.pw, l0 := g.p0, l1 := g.p1, u := g.u }
  if 2 ≤ cause then s.endScan c 4 cause 0 c.pos
  else
    let c : Scan := { c with result := c.result ++ g.outp }
    if cause = 1 then s.endScan c 1 0 val c.pos
    else if c.stage = 2 then s.endScan c 0 0 0 c.length
    else if c.stage = 1 ∧ c.ranges.length ≤ c.rng ∧ (c.prog.entry 3).isNone then s.endScan c 0 0 0 c.length
    else s.onScan c.fsn fun _ => { c with stage := if c.stage = 0 then 1 else if c.ranges.length ≤ c.rng then 2 else 1 }

/-- The handle of the loaded program whose code an engine's code region holds, 0 where none is: the program of a step that firmware
entered (R69, R286, R289). -/
def State.progAt (s : State) (e : Nat) : Nat :=
  let g := s.eng e
  let b := s.memBytes (sramLoc (uEng e) g.codeb) g.codel
  ((s.prg.progs.items.find? fun x => match x.2 with | some p => p.code == b | none => false).map (·.1)).getD 0

/-- A step in ring O or T ends (R287). -/
def State.endStep (s : State) (e cause pc val : Nat) : State :=
  let s := s.chargeStep e
  let g := s.eng e
  let s := s.leaveStep e cause pc val
  let s := s.onEng e fun x => { x with scan := none }
  match g.scan.bind s.scanOf with
  | some c => (if 2 ≤ cause then s.progTrap e g.ring cause c.handle else s).scanAfter c cause val g
  | none => if 2 ≤ cause then s.progTrap e g.ring cause (s.progAt e) else s

/-- A trap (R287, R290): in rings O and T the end of the step; in ring V the handler, with NEST set; in ring V while NEST
is 1 the engine is fenced as an F2 fault. A poisoned word consumed is recorded (Table 11.3). -/
def State.trap (s : State) (e cause val : Nat) : State :=
  let g := s.eng e
  let s := if cause = cPoison then (s.raiseEvt F.MEMP_EVT_POIS_USE F.MEMP_EVT_CNT1_PUSE_CNT).raiseFault 0x0108 (uEng e) val else s
  if g.ring ≠ 0 then s.endStep e cause g.ppc val
  else if g.nest then (s.raiseFault 0x020F (uEng e) g.vpc).fenceUnit (uEng e)
  else s.onEng e fun x => { x with nest := true, tring := 0, cause := cause, trappc := x.vpc, trapval := val, s0 := x.v0, s1 := x.v1, v0 := {}, v1 := {}, vpc := x.tvec }

/-! ### CSRs (R293, R294) -/

/-- Access by ring (Table 9.14): 0 none, 1 read, 2 read and write. -/
def csrAccess (fe : Bool) (ring idx : Nat) : Nat :=
  let v := fun (a b : Nat) => if ring = 0 then a else b
  match idx with
  | 0x000 => 1 | 0x001 => v 2 1 | 0x002 => 1 | 0x003 => 1 | 0x004 => v 2 1 | 0x005 => v 2 0 | 0x006 => 1 | 0x007 => v 1 0
  | 0x008 => 1
  | 0x010 => if fe then 1 else 0 | 0x011 => if fe then 1 else 0 | 0x012 => if fe then 1 else 0
  | 0x020 => v 2 1 | 0x021 => v 2 1 | 0x022 => v 2 1 | 0x023 => v 2 1 | 0x024 => v 2 1 | 0x025 => v 2 1 | 0x026 => v 2 1 | 0x027 => v 2 1
  | 0x028 => v 2 0 | 0x029 => v 2 0 | 0x030 => v 2 0 | 0x031 => v 2 0
  | 0x040 => v 2 0 | 0x041 => v 2 0 | 0x042 => v 1 0 | 0x043 => v 2 0 | 0x044 => v 2 0
  | _ => 0

/-- A loop level as LPSn shows it (Table 9.15). -/
def Lvl.lps (l : Lvl) : Nat := l.remain * 2 ^ 40 + l.fin / 4 % 2 ^ 20 * 2 ^ 20 + l.start / 4 % 2 ^ 20

/-- A loop level written through LPSn. -/
def Lvl.ofLps (v : Nat) : Lvl := { start := 4 * bits v 19 0, fin := 4 * bits v 39 20, remain := bits v 63 40 }

/-- Engine cycles in a frame (R284). -/
def frameCycles (e : Nat) : Nat := if isSe e then 9600 else 16000

/-- The value of a CSR (Tables 9.14 and 9.15). -/
def State.csr (s : State) (e : Nat) (g : Eng) (idx : Nat) : Nat :=
  match idx with
  | 0x000 => g.ring
  | 0x001 => g.tid
  | 0x002 => if g.ring = 0 then s.time.frame else g.frame
  | 0x003 => g.budget
  | 0x004 => g.stepmax
  | 0x005 => g.pring
  | 0x006 => uEng e
  | 0x007 => (s.time.frame - g.born) * frameCycles e + g.cyc
  | 0x008 => g.xfers.length + g.pendBytes * 256
  | 0x010 => b2n g.inAtt * 2 ^ 33 + b2n g.inLast * 2 ^ 32 + g.inp.length
  | 0x011 => b2n g.outAtt * 2 ^ 33 + g.room
  | 0x012 => g.strpos
  | 0x028 => g.codeb
  | 0x029 => g.codel
  | 0x030 => g.p0.lps
  | 0x031 => g.p1.lps
  | 0x040 => g.cause
  | 0x041 => g.trappc
  | 0x042 => g.trapval
  | 0x043 => g.tvec
  | 0x044 => g.tring * 2 + b2n g.nest
  | _ => if 0x20 ≤ idx ∧ idx < 0x28 then g.wins.get 0 (idx - 0x20) else 0

/-- A CSRW in ring V: none where the value is illegal (R294). -/
def Eng.csrWrite (g : Eng) (idx v : Nat) : Option Eng :=
  match idx with
  | 0x001 => some { g with tid := v % 4096 }
  | 0x004 => if 500 ≤ v ∧ v ≤ 12000 then some { g with stepmax := v } else none
  | 0x005 => if 1 ≤ v ∧ v ≤ 2 then some { g with pring := v } else none
  | 0x028 => some { g with codeb := v / 4 * 4 }
  | 0x029 => some { g with codel := v / 4 * 4 }
  | 0x030 => some { g with p0 := Lvl.ofLps v }
  | 0x031 => some { g with p1 := Lvl.ofLps v }
  | 0x040 => some { g with cause := v % 256 }
  | 0x041 => some { g with trappc := v }
  | 0x043 => some { g with tvec := v / 4 * 4 }
  | 0x044 => some { g with tring := bits v 2 1, nest := v.testBit 0 }
  | _ =>
    if 0x20 ≤ idx ∧ idx < 0x28 then
      if winValid v ∧ winLen v = 0 then none else some { g with wins := g.wins.set 0 (idx - 0x20) (v / 256 * 256 + v % 8) }
    else none

/-! ### Fetch and issue (R263, R274, R278, R285, R288) -/

/-- The engine executes instructions: it is UP or DRAINING. -/
def State.engRuns (s : State) (e : Nat) : Bool :=
  !s.swapping e && match s.unitState (uEng e) with | .up => true | .draining => true | _ => false

/-- The word at pc, or the trap its fetch raises (R278): outside the code region in rings O and T, outside local memory,
or at no multiple of 4. -/
def State.fetchB (s : State) (e : Nat) : Except (Nat × Nat) Nat :=
  let g := s.eng e
  let pc := g.pc
  if pc % 4 ≠ 0 ∨ localBytes e < pc + 4 ∨ (g.ring ≠ 0 ∧ (pc < g.codeb ∨ g.codeb + g.codel < pc + 4)) then .error (cAccess, pc)
  else if !s.wordReads (sramLoc (uEng e) (pc / 8 * 8)) then .error (cPoison, pc)
  else .ok (s.wordData (sramLoc (uEng e) (pc / 8 * 8)) / 2 ^ (pc % 8 * 8) % 2 ^ 32)

/-- What an instruction does: it completes, where a taken branch or jump gives the next pc and whether JAL or JALR made it;
it ends the step; or it traps. -/
inductive BRes
  | go (s : State)
  | jump (s : State) (pc : Nat) (call : Bool)
  | done (s : State)
  | trap (cause val : Nat)
  | trapIn (s : State) (cause val : Nat)

/-- Complete an instruction that fell through: pc and loops (R269). -/
def State.advance (s : State) (e : Nat) : State :=
  s.onEng e fun g => let n := loopsNext g.loops g.pc; (g.setPc n.1).setLoops n.2

/-- Complete a taken branch or jump (R270). -/
def State.jumpTo (s : State) (e pc : Nat) (call : Bool) : State :=
  s.onEng e fun g => (g.setPc pc).setLoops (if call then g.loops else loopsLeave g.loops pc)

/-- Take the cycles of an instruction (R285): BUDGET in rings O and T. -/
def State.spend (s : State) (e cyc : Nat) : State :=
  s.onEng e fun g => { g with cyc := g.cyc + cyc, budget := if g.ring = 0 then g.budget else g.budget - cyc }

/-- A location of protected memory lies in the engine's own local memory. -/
def ownLocal (e loc : Nat) : Bool := locSpace loc == 1 && locUnit loc == uEng e

/-- Cycles beyond the `c` already taken of an instruction whose table says "at least `lo`": how many more it takes the spec
leaves open, so each draws a free value. Only ring V executes them, where BUDGET is not counted (R264, R285, Table 9.6). -/
def State.spendFar (s : State) (e c lo : Nat) : State :=
  (s.onEng e fun g => { g with cyc := Config.freeNat s.free + (g.cyc + (lo - c)) }).nextFree

/-- The same of an access at a location of protected memory: none for the engine's own local memory. -/
def State.spendAt (s : State) (e loc c lo : Nat) : State := if ownLocal e loc then s else s.spendFar e c lo

/-- One instruction of an engine (R288): of several traps the first of Table 9.13 is taken, with no effect. `f` is the
instruction's effect on the state in which its cycles are already spent, `cost` its cycles. A row acts when the word at
pc is its instruction; a fetch or a word that traps does so under any row. The budget pays for an instruction before it issues, one that
then traps too (R285). An engine that does not exist runs nothing. -/
def balufRow (e : Nat) (op : BOp) (cost : Ins → Eng → Nat → Nat) (f : Ins → Eng → State → BRes) (s : State) : Out :=
  if !isEngine e || !s.engRuns e then .next s
  else match s.fetchB e with
    | .error (c, v) => .next (s.trap e c v)
    | .ok w =>
      let g := s.eng e
      match decodeB (isFe e) w with
      | none => .next (s.trap e cIllegal w)
      | some r =>
        if r.op ≠ op then .next s
        else if r.v ∧ g.ring ≠ 0 then .next (s.trap e cIllegal w)
        else
          let c := cost ⟨w⟩ g r.cyc
          let t := s.spend e c
          let res := f ⟨w⟩ g t
          let illegal : Bool := match res with | .trap k _ => k == cIllegal | _ => false
          if g.ring ≠ 0 ∧ !illegal ∧ g.budget < c then .next (s.trap e cBudget g.budget)
          else match res with
            | .trap k v => .next (if illegal then s.trap e k v else t.trap e k v)
            | .trapIn t k v => .next (t.trap e k v)
            | .go t => .next (t.advance e)
            | .jump t pc call => .next (t.jumpTo e pc call)
            | .done t => .next t

/-- A row whose cycles do not depend on its operands. -/
def simpleRow (e : Nat) (op : BOp) (f : Ins → Eng → State → BRes) (s : State) : Out := balufRow e op (fun _ _ c => c) f s

end Sys2Proof.Machine
end

