-- ==== Sys2Proof/Machine/Verify.lean ====
section
/-! DEFINITION. The Wejor container and the on-device verifier (chapter 10; R296 to R306, Tables 10.1 to 10.7). The
verifier answers with every rule a container breaks, as (code, byte offset), and reports the lowest code and in it the
lowest offset (R303). -/
namespace Sys2Proof.Machine

/-! ### Inputs and small readers -/

/-- What a verification is judged against: the transfer length, whether the issuer is a VF, PRG_OSVN, T_SIGN, the key
hashes a signature may carry, the key material of the slot named when it is permitted (R302), and for firmware the one
ENGINES bit (R299). -/
structure VIn where
  length : Nat
  vf : Bool := false
  osvn : Nat := 0
  tsign : Bool := false
  hashes : List (List Byte) := []
  key : Option Nat := none
  fw : Option Nat := none
  deriving DecidableEq, Repr

/-- One section of the table: offset of its entry, TYPE, OFFSET, LENGTH (Table 10.2). -/
structure Sec where
  te : Nat
  typ : Nat
  off : Nat
  len : Nat
  deriving DecidableEq, Repr

abbrev VErr := Nat × Nat

/-- A broken rule, when it is broken. -/
def errIf (p : Bool) (code off : Nat) : List VErr := if p then [(code, off)] else []

/-- The first non-zero byte of a range that must be zero. -/
def nzErr (b : List Byte) (o n : Nat) : List VErr :=
  match ((b.drop o).take n).findIdx? (fun x => x != 0) with
  | some i => [(0x04, o + i)]
  | none => []

/-- The lowest code, then the lowest offset (R303). -/
def lowest : List VErr → Option VErr
  | [] => none
  | x :: t =>
    match lowest t with
    | none => some x
    | some y => if x.1 < y.1 ∨ (x.1 = y.1 ∧ x.2 ≤ y.2) then some x else some y

def cRing (b : List Byte) : Nat := leAt b 6 1
def cEngines (b : List Byte) : Nat := leAt b 7 1
def cTotal (b : List Byte) : Nat := leAt b 8 4
def cNsec (b : List Byte) : Nat := leAt b 12 2
def cFlags (b : List Byte) : Nat := leAt b 14 2
def cSvn (b : List Byte) : Nat := leAt b 36 4
def cStepmax (b : List Byte) : Nat := leAt b 40 2

/-- The sections of a container. -/
def cSecs (b : List Byte) : List Sec :=
  (List.range (cNsec b)).map fun i =>
    let te := 64 + 16 * i
    ⟨te, leAt b te 2, leAt b (te + 4) 4, leAt b (te + 8) 4⟩

/-- The section of a TYPE. -/
def cSec (b : List Byte) (t : Nat) : Option Sec := (cSecs b).find? (fun x => x.typ == t)

/-- The bytes of a section. -/
def secBytes (b : List Byte) (x : Sec) : List Byte := (b.drop x.off).take x.len

/-! ### Header and table (codes 0x01 to 0x05) -/

/-- RING and ENGINES (code 0x03; R295, R299, Table 10.1). -/
def ringErrs (c : VIn) (b : List Byte) : List VErr :=
  match c.fw with
  | some e => errIf (cRing b != 0) 3 6 ++ errIf (cEngines b != e) 3 7
  | none =>
    errIf (!(cRing b == 2 || (cRing b == 1 && !c.vf))) 3 6 ++
    errIf ((cRing b == 2 && cEngines b != 4) || (cRing b == 1 && (cEngines b == 0 || decide (8 ≤ cEngines b)))) 3 7

/-- The header (Table 10.1). -/
def headErrs (c : VIn) (b : List Byte) : List VErr :=
  errIf (leAt b 0 4 != 0x524F4A57) 1 0 ++ errIf (leAt b 4 2 != 1) 1 4 ++
  errIf (cTotal b != c.length || decide (cTotal b < 112) || decide (1048576 < cTotal b)) 2 8 ++ ringErrs c b ++
  errIf (cFlags b / 2 != 0) 4 14 ++ nzErr b 42 22 ++ errIf (cRing b == 2 && cSvn b != 0) 4 36 ++
  errIf (decide (cNsec b < 2) || decide (6 < cNsec b) || decide (cTotal b < 64 + 16 * cNsec b)) 5 12

/-- LENGTH of a section (Table 10.3, R299). -/
def lenOk (c : VIn) (b : List Byte) (x : Sec) : Bool :=
  match x.typ with
  | 1 => x.len % 4 == 0 && decide (4 ≤ x.len) && decide (x.len ≤ (if c.fw.isSome then 393216 else if cRing b = 2 then 49152 else 65536))
  | 2 => x.len % 8 == 0 && decide (8 ≤ x.len) && decide (x.len ≤ (if c.fw.isSome then 393216 else 49152))
  | 3 => x.len % 8 == 0 && decide (8 ≤ x.len) && decide (x.len ≤ 64)
  | 4 => x.len == 64
  | 5 => x.len == 32
  | _ => x.len == 3768

/-- One entry of the section table (Table 10.2, R297). -/
def secErrs (c : VIn) (b : List Byte) (x : Sec) : List VErr :=
  nzErr b (x.te + 2) 2 ++ nzErr b (x.te + 12) 4 ++
  errIf (x.typ == 0 || decide (6 < x.typ) || (cSecs b).any (fun y => decide (y.te < x.te) && y.typ == x.typ)) 5 x.te ++
  errIf (x.off % 8 != 0 || decide (x.off < 64 + 16 * cNsec b) || decide (cTotal b < x.off + x.len)) 5 (x.te + 4) ++
  errIf (decide (1 ≤ x.typ) && decide (x.typ ≤ 6) && !lenOk c b x) 5 (x.te + 8) ++
  errIf ((cSecs b).any fun y => y.te != x.te && decide (y.off ≤ x.off) && decide (x.off < y.off + y.len) &&
    (decide (y.off < x.off) || decide (y.te < x.te))) 5 (x.te + 4)

/-- Sections that must be there, and where SIGNATURE stands (Table 10.3); for firmware, those of R299. -/
def presentErrs (c : VIn) (b : List Byte) : List VErr :=
  errIf ((cSec b 1).isNone || (cSec b 3).isNone) 5 64 ++
  (match cSec b 6 with
    | some g => errIf (g.off + g.len != cTotal b || (cSecs b).any (fun y => decide (g.off < y.off))) 5 (g.te + 4)
    | none => []) ++
  (if c.fw.isSome then
    errIf (cFlags b != 0) 5 14 ++ (match cSec b 4 with | some x => [(5, x.te)] | none => []) ++ (match cSec b 5 with | some x => [(5, x.te)] | none => [])
   else [])

/-- All of code 0x05, with the reserved bytes of the table. -/
def tableErrs (c : VIn) (b : List Byte) : List VErr := (cSecs b).flatMap (secErrs c b) ++ presentErrs c b

/-! ### Reserved bytes in and between sections (code 0x04, R296) -/

/-- The first non-zero byte outside the header, the table and the sections. -/
def gapErr (b : List Byte) : List VErr :=
  let lo := 64 + 16 * cNsec b
  match ((b.take (cTotal b)).zipIdx.find? fun p => p.1 != 0 && decide (lo ≤ p.2) &&
      !((cSecs b).any fun x => decide (x.off ≤ p.2) && decide (p.2 < x.off + x.len))) with
  | some p => [(4, p.2)]
  | none => []

/-- Offsets of the 8-byte records of a section. -/
def recOffs (x : Sec) : List Nat := (List.range (x.len / 8)).map (fun i => x.off + 8 * i)

/-- Reserved fields of the sections' contents. -/
def reservedErrs (b : List Byte) : List VErr :=
  (match cSec b 3 with | some x => (recOffs x).flatMap (fun r => nzErr b (r + 2) 2) | none => []) ++
  (match cSec b 4 with
    | some x => (recOffs x).flatMap (fun r => errIf (decide (4 ≤ leAt b (r + 1) 1)) 4 (r + 1) ++ nzErr b (r + 2) 2)
    | none => []) ++
  (match cSec b 5 with | some x => nzErr b (x.off + 12) 4 | none => []) ++
  (match cSec b 6 with | some x => nzErr b (x.off + 2) 2 | none => []) ++ gapErr b

/-! ### Signature, rollback and seal (codes 0x06 to 0x08) -/

/-- R300: the signature, where one is required or present. -/
def sigErrs (c : VIn) (b : List Byte) : List VErr :=
  match cSec b 6 with
  | none => errIf (c.fw.isSome || cRing b == 1 || c.tsign) 6 64
  | some x =>
    let g := secBytes b x
    let pub := (g.drop 36).take 1312
    let h := (g.drop 4).take 32
    errIf (leAt g 0 2 != 1) 6 x.off ++ errIf (Config.sha3 pub != h || !c.hashes.contains h) 6 (x.off + 4) ++
    errIf (!Config.mldsa pub (Config.sha3 (b.take x.off)) (g.drop 1348)) 6 (x.off + 1348)

/-- CODE and DATA in section-table order: the message of a sealed container (R302). -/
def sealedSecs (b : List Byte) : List Sec := (cSecs b).filter (fun x => x.typ == 1 || x.typ == 2)

/-- The plaintext of a sealed container's message, none when the slot is not permitted or the tag fails (R302). -/
def unsealed (c : VIn) (b : List Byte) : Option (List Byte) :=
  match c.key, cSec b 5 with
  | some k, some x =>
    let g := secBytes b x
    Config.gcmOpen k (g.take 12) (b.take (64 + 16 * cNsec b)) ((sealedSecs b).flatMap (secBytes b)) (g.drop 16)
  | _, _ => none

/-- SEALED (Table 10.1). -/
def cSealed (b : List Byte) : Bool := cFlags b % 2 == 1

/-- Rollback of ring O (R301), and a seal that does not open. -/
def sealErrs (c : VIn) (b : List Byte) : List VErr :=
  errIf (cRing b == 1 && decide (cSvn b < c.osvn)) 7 36 ++
  errIf (cSealed b && c.key.isNone) 8 14 ++
  errIf (cSealed b && c.key.isSome && (unsealed c b).isNone) 8 (match cSec b 5 with | some x => x.off + 16 | none => 14)

/-- The plaintext of CODE or DATA. -/
def plain (c : VIn) (b : List Byte) (t : Nat) : List Byte :=
  match cSec b t with
  | none => []
  | some x =>
    if cSealed b then
      let m := (unsealed c b).getD []
      let before := ((sealedSecs b).filter (fun y => decide (y.te < x.te))).foldl (fun a y => a + y.len) 0
      (m.drop before).take x.len
    else secBytes b x

/-! ### STEPMAX, entries and windows (codes 0x09 to 0x0B) -/

/-- Kinds permitted to a ring (Table 10.4). -/
def kindOk (ring k : Nat) : Bool :=
  if ring = 0 then k == 0x20 else (decide (1 ≤ k) && decide (k ≤ 3)) || (ring == 1 && decide (0x10 ≤ k) && decide (k ≤ 0x14))

/-- Entry records: offset in the container, KIND, OFFSET. -/
def cEntries (b : List Byte) : List (Nat × Nat × Nat) :=
  match cSec b 3 with | some x => (recOffs x).map (fun r => (r, leAt b r 2, leAt b (r + 4) 4)) | none => []

/-- Bytes of CODE. -/
def cCodeLen (b : List Byte) : Nat := match cSec b 1 with | some x => x.len | none => 0

/-- Code 0x0A (Table 10.4). -/
def entryErrs (b : List Byte) : List VErr :=
  let es := cEntries b
  es.flatMap (fun e =>
    errIf (!kindOk (cRing b) e.2.1 || es.any (fun f => decide (f.1 < e.1) && f.2.1 == e.2.1)) 0x0A e.1 ++
    errIf (e.2.2 % 4 != 0 || decide (cCodeLen b ≤ e.2.2)) 0x0A (e.1 + 4) ++
    errIf ((e.2.1 == 1 || e.2.1 == 3) && !(es.any (fun f => f.2.1 == 2))) 0x0A e.1) ++
  errIf (cRing b == 0 && es.length != 1) 0x0A (match cSec b 3 with | some x => x.off | none => 64)

/-- The eight window records: USE, RIGHTS, PAGES; all invalid without WINDOWS (Table 10.3). -/
def cWins (b : List Byte) : List (Nat × Nat × Nat) :=
  match cSec b 4 with
  | some x => (recOffs x).map (fun r => (leAt b r 1, leAt b (r + 1) 1, leAt b (r + 4) 4))
  | none => List.replicate 8 (0, 0, 0)

/-- Largest PAGES of a USE (Table 10.5). -/
def maxPages : Nat → Nat
  | 1 => 12 | 2 => 262144 | 3 => 65536 | _ => 0

/-- One window record (Table 10.5, R298). -/
def winErrs (b : List Byte) (r n : Nat) : List VErr :=
  let use := leAt b r 1
  let rights := leAt b (r + 1) 1
  let pages := leAt b (r + 4) 4
  errIf (decide (3 < use) || (use == 3 && cRing b != 1) || (use != 0 && cRing b == 1 && decide (6 ≤ n))) 0x0B r ++
  errIf ((rights == 0) != (use == 0)) 0x0B (r + 1) ++
  errIf (decide (maxPages use < pages) || (use != 0 && pages == 0)) 0x0B (r + 4)

/-- Bytes of the LOCAL windows. -/
def localPages (ws : List (Nat × Nat × Nat)) : Nat := ws.foldl (fun a w => if w.1 = 1 then a + w.2.2 else a) 0

/-- Local memory an image may take (R298; R299 by engine kind). -/
def codeLimit (b : List Byte) : Nat :=
  if cRing b = 0 then (if cEngines b = 4 then 65536 else if cEngines b = 8 then 393216 else 131072)
  else if cRing b = 2 ∨ (cEntries b).any (fun e => decide (1 ≤ e.2.1) && decide (e.2.1 ≤ 3)) then 49152 else 65536

/-- Code 0x0B. -/
def windowErrs (b : List Byte) : List VErr :=
  (match cSec b 4 with | some x => (recOffs x).zipIdx.flatMap (fun p => winErrs b p.1 p.2) | none => []) ++
  (match cSec b 1 with
    | some x => errIf (decide (codeLimit b <
        (if cRing b = 0 then (x.len + 7) / 8 * 8 + (match cSec b 2 with | some d => d.len | none => 0) else x.len + 4096 * localPages (cWins b)))) 0x0B x.off
    | none => []) ++
  (if cRing b = 0 then [] else
    match cSec b 2, (cWins b).find? (fun w => w.1 == 1) with
    | some x, some w => errIf (decide (4096 * w.2.2 < x.len)) 0x0B x.off
    | some x, none => [(0x0B, x.off)]
    | none, _ => [])

/-! ### Code words (codes 0x10 to 0x18) -/

/-- A decoded code word. -/
structure VIns where
  op : BOp
  i : Ins
  v : Bool
  cyc : Nat
  deriving DecidableEq, Repr

/-- The words of CODE. -/
def codeWords : List Byte → Nat → List Nat
  | _, 0 => []
  | d, n + 1 => leAt d 0 4 :: codeWords (d.drop 4) n

/-- A word decoded for every engine kind of ENGINES: on FEs alone, FE instructions are legal (R263, R273). -/
def vDecode (engines w : Nat) : Option VIns :=
  match decodeB (engines == 4) w with
  | some r => some ⟨r.op, ⟨w⟩, r.v, r.cyc⟩
  | none => none

/-- Code 0x10: a word illegal on an engine kind. -/
def illegalErrs (engines co : Nat) (ws : List Nat) : List VErr :=
  ws.zipIdx.flatMap fun p => errIf (vDecode engines p.1).isNone 0x10 (co + 4 * p.2)

/-- Code 0x11: restricted to ring V, or a CSRR the ring may not make (Tables 9.11, 9.14). -/
def restrictErrs (engines ring co : Nat) (is : List VIns) : List VErr :=
  is.zipIdx.flatMap fun p => errIf (p.1.v || (p.1.op == .csrr && csrAccess (engines == 4) ring (p.1.i.w % 4096) == 0)) 0x11 (co + 4 * p.2)

/-- A conditional branch. -/
def BOp.isCond : BOp → Bool
  | .beq => true | .bne => true | .blt => true | .bge => true | .bltu => true | .bgeu => true | _ => false

def BOp.isBranch (o : BOp) : Bool := o.isCond || o == .j
def BOp.isLoop (o : BOp) : Bool := o == .loopi || o == .loop
def BOp.isEnd (o : BOp) : Bool := o == .yield || o == .exit

/-- Word index a branch or J at index p targets. -/
def VIns.target (x : VIns) (p : Nat) : Int :=
  (p : Int) + (if x.op = .j then (BitVec.ofNat 26 x.i.w).toInt else (BitVec.ofNat 16 x.i.w).toInt)

/-- A loop: index of LOOPI or LOOP, first and last index of its body, proven maximum (R304). -/
structure VLoop where
  p : Nat
  first : Nat
  last : Nat
  max : Option Nat
  deriving DecidableEq, Repr

/-- Proven maximum: a LOOPI's count, a LOOP's preceding ANDI (R304). -/
def loopMax (is : List VIns) (x : VIns) (p : Nat) : Option Nat :=
  if x.op = .loopi then some (x.i.imm % 4096)
  else if p = 0 then none
  else match is[p - 1]? with
    | some y => if y.op = .andi ∧ y.i.d = x.i.ba then some y.i.imm else none
    | none => none

/-- The loops of a code. -/
def vLoops (is : List VIns) : List VLoop :=
  is.zipIdx.filterMap fun q =>
    if q.1.op.isLoop then some ⟨q.2, q.2 + 1, q.2 + (if q.1.op = .loopi then q.1.i.len else q.1.i.imm), loopMax is q.1 q.2⟩ else none

def VLoop.holds (l : VLoop) (q : Nat) : Bool := decide (l.first ≤ q) && decide (q ≤ l.last)

/-- The innermost body that holds an instruction: the one that begins last. -/
def innermost (ls : List VLoop) (q : Nat) : Option VLoop := (ls.filter (·.holds q)).getLast?

/-- Code 0x14 for one loop (R304). -/
def loopErrs (is : List VIns) (ls : List VLoop) (co : Nat) (l : VLoop) : List VErr :=
  let o := co + 4 * l.p
  errIf (decide (is.length ≤ l.last)) 0x14 o ++
  errIf ((List.range is.length).any fun q => l.holds q && decide (2 ≤ (ls.filter (fun k => decide (k.p < l.p) && k.holds q)).length)) 0x14 o ++
  errIf (ls.any fun k => k.p != l.p && k.holds l.first && decide (k.p < l.p) && decide (k.last < l.last)) 0x14 o ++
  errIf (match is[l.last]? with | some y => y.op.isBranch || y.op.isLoop | none => false) 0x14 o ++
  errIf (match is[l.p]? with
    | some y => y.op == .loop && (l.max.isNone || is.zipIdx.any (fun z => z.1.op.isBranch && z.1.target z.2 == (l.p : Int)) || ls.any (fun k => k.first == l.p))
    | none => false) 0x14 o

/-- Codes 0x12, 0x13, 0x15 and 0x16 for one instruction. -/
def insErrs (n : Nat) (ls : List VLoop) (co : Nat) (x : VIns) (p : Nat) : List VErr :=
  let o := co + 4 * p
  errIf (x.op == .csrw || x.op == .jal || x.op == .jalr) 0x12 o ++
  (if x.op.isBranch then
    let t := x.target p
    errIf (decide (t ≤ (p : Int)) || decide ((n : Int) ≤ t)) 0x13 o ++
    errIf (decide ((p : Int) < t) && decide (t < (n : Int)) && (innermost ls p).map (·.p) != (innermost ls t.toNat).map (·.p)) 0x15 o
   else []) ++
  errIf (x.op.isEnd && (innermost ls p).isSome) 0x16 o

/-- wc of R306: the cycles from p to the end of the step, or of the body. None: a path reaches the end of CODE. `fuel`
is the words still ahead, as every move is forward. -/
def wc (is : List VIns) (ls : List VLoop) : Nat → Nat → Option VLoop → Option Nat
  | 0, _, _ => none
  | fuel + 1, p, body =>
    let rest := fun (q : Nat) => match body with
      | some b => if q = b.last + 1 then some 0 else wc is ls fuel q body
      | none => wc is ls fuel q body
    match is[p]? with
    | none => none
    | some x =>
      if x.op.isEnd then some 1
      else if x.op.isLoop then
        match ls.find? (fun l => l.p == p) with
        | some l =>
          match wc is ls fuel l.first (some l), rest (l.last + 1) with
          | some a, some r => some (2 + l.max.getD 0 * a + r)
          | _, _ => none
        | none => none
      else if x.op.isCond then
        match rest (p + 1), rest (x.target p).toNat with
        | some a, some b => some (max (1 + a) (2 + b))
        | _, _ => none
      else if x.op = .j then (rest (x.target p).toNat).map (2 + ·)
      else (rest (p + 1)).map (x.cyc + ·)

/-- Codes 0x17 and 0x18 for the entries (R306): the end is reached at CODE's last word. -/
def boundErrs (is : List VIns) (ls : List VLoop) (co stepmax : Nat) (es : List (Nat × Nat × Nat)) : List VErr :=
  es.flatMap fun e =>
    match wc is ls (is.length + 1) (e.2.2 / 4) none with
    | none => [(0x17, co + 4 * (is.length - 1))]
    | some v => errIf (decide (stepmax < v)) 0x18 e.1

/-- All of 0x12 to 0x18 (ring T): bounds are taken once the structure holds. -/
def boundedErrs (b : List Byte) (co : Nat) (is : List VIns) : List VErr :=
  let ls := vLoops is
  let e := is.zipIdx.flatMap (fun q => insErrs is.length ls co q.1 q.2) ++ ls.flatMap (loopErrs is ls co)
  if e.isEmpty then boundErrs is ls co (cStepmax b) (cEntries b) else e

/-! ### The verdict -/

/-- Every rule of Table 10.7 that applies, as far as the container can be read: a number of
sections out of range hides the sections, a broken signature or seal hides the code. -/
def verifyErrs (c : VIn) (b : List Byte) : List VErr :=
  let h := headErrs c b
  let t := tableErrs c b
  if h.any (fun e => e == (5, 12)) then h
  else if (h ++ t).any (fun e => e.1 == 5) then h ++ t ++ reservedErrs b
  else
    let e := h ++ t ++ reservedErrs b ++ sigErrs c b ++ (if c.fw.isSome then [] else sealErrs c b)
    if !e.isEmpty then e
    else
      let co := match cSec b 1 with | some x => x.off | none => 0
      let ws := codeWords (plain c b 1) (cCodeLen b / 4)
      let is := ws.filterMap (vDecode (cEngines b))
      let f := errIf (decide (cStepmax b < 500) || decide (12000 < cStepmax b)) 9 40 ++ entryErrs b ++ windowErrs b ++ illegalErrs (cEngines b) co ws
      if !f.isEmpty ∨ c.fw.isSome then f
      else
        let g := restrictErrs (cEngines b) (cRing b) co is
        if !g.isEmpty ∨ cRing b = 1 then g else boundedErrs b co is

/-- The code and offset of a rejection, none when the container is accepted (R303). -/
def verdict (c : VIn) (b : List Byte) : Option VErr := lowest (verifyErrs c b)

/-- The largest verified step bound, 0 for ring O (R312). -/
def largestBound (c : VIn) (b : List Byte) : Nat :=
  if cRing b ≠ 2 then 0
  else
    let is := (codeWords (plain c b 1) (cCodeLen b / 4)).filterMap (vDecode 4)
    (cEntries b).foldl (fun a e => max a ((wc is (vLoops is) (is.length + 1) (e.2.2 / 4) none).getD 0)) 0

/-- The image of an accepted container. -/
def cProg (c : VIn) (b : List Byte) : Prog :=
  { ring := cRing b, engines := cEngines b, stepmax := cStepmax b, progid := (b.drop 16).take 16, version := leAt b 32 4,
    svn := cSvn b, code := plain c b 1, data := plain c b 2, entries := (cEntries b).map (·.2),
    wins := if (cSec b 4).isSome then cWins b else [], bound := largestBound c b }

end Sys2Proof.Machine
end

