-- ==== Sys2Proof/Machine/Sec.lean ====
section
/-! DEFINITION. Cipher clusters, key slots and key blobs, alarms and zeroisation, the fused counters, SPDM and
provisioning (chapter 13; R369 to R396). -/
namespace Sys2Proof.Machine

/-! ### Key slots (R378 to R382) -/

/-- A key slot. -/
def State.slot (s : State) (n : Nat) : Slot := s.sec.slots.get {} n

/-- Change a key slot. -/
def State.onSlot (s : State) (n : Nat) (f : Slot → Slot) : State := s.onSec fun x => { x with slots := x.slots.upd {} n f }

/-- The number of the next key drawn from the DRBG. -/
def State.nextKey (s : State) : Nat := 2 * (s.sec.drawn + 1)

/-- Take it. -/
def State.drawKey (s : State) : State := s.onSec fun x => { x with drawn := x.drawn + 1 }

/-- Fill a namespace's slot with a key drawn from the DRBG (R379, R383): CURRENT new, PREVIOUS empty, ROT_WSN 0. -/
def State.newSlotKey (s : State) (n : Nat) : State :=
  let k := s.nextKey
  s.drawKey.onSlot n fun x => { x with cur := some k, prev := none, rotWsn := 0, kind := 1, rekey := false }

/-- A slot is zeroised and freed; the last COUNTER imported into it stands (R379, Table 13.7). -/
def State.zeroSlot (s : State) (n : Nat) : State := s.onSlot n fun x => { ctr := x.ctr }

/-- ZEROISED clears when no namespace slot remains empty (R389). -/
def State.keysBack (s : State) : State :=
  if s.nss.items.all (fun e => match e.2 with | some n => (s.slot n.slot).cur.isSome | none => true) then s.onSec fun x => { x with zeroised := false } else s

/-- Namespace slots 1 to 4,096 and general slots 4,097 to 65,535 (Table 13.4). -/
def isNsSlot (n : Nat) : Bool := decide (1 ≤ n) && decide (n ≤ 4096)
def isGenSlot (n : Nat) : Bool := decide (4097 ≤ n) && decide (n ≤ 65535)

/-- The lowest free general slot. -/
def State.freeGen (s : State) : Option Nat :=
  ((List.range (s.sec.slots.size + 1)).map (4097 + ·)).find? (fun n => isGenSlot n && (s.slot n).kind == 0)

/-- The sectors of a namespace under an older WSN than ROT_WSN, by global key, that the map still names (R382). -/
def State.oldKeys (s : State) (nsid : Nat) : List Nat :=
  let rot := (s.slot nsid).rotWsn
  let infos := (s.med.secs.vals.filterMap (·.map (·.info))) ++ (s.lnd.secs.vals.filterMap (·.map (·.info)))
  ((infos.filter (fun i => i.ns == nsid && i.kind == 0 && decide (i.wsn < rot))).map (·.key)).eraseDups.filter fun k =>
    match s.lookup k with
    | .media ch lun p w => (match s.med.secs.get none (mloc ch lun p w) with | some m => m.info.ns == nsid && decide (m.info.wsn < rot) | none => false)
    | .landing sl sec => (match s.lsec (sl * 4096 + sec) with | some x => x.info.ns == nsid && decide (x.info.wsn < rot) | none => false)
    | _ => false

/-- PREVIOUS is zeroised once no sector of the namespace has a WSN below ROT_WSN (R382). -/
def State.rekeyDone (s : State) (nsid : Nat) : State :=
  if (s.slot nsid).prev.isSome ∧ (s.oldKeys nsid).isEmpty then s.onSlot nsid fun x => { x with prev := none, rotWsn := 0, rekey := false } else s

/-- Every rotating slot. -/
def State.rekeyDoneAll (s : State) : State :=
  (s.sec.slots.items.filter (fun e => isNsSlot e.1 && e.2.prev.isSome)).foldl (fun s e => s.rekeyDone e.1) s

/-- Rewrite old sectors of one unit under CURRENT: plaintext lands in the GC reserve under a new WSN, for a place in a GC stream of the
quadrant (R382). A coarse-mapped unit is rewritten whole. -/
def State.rekeyUnit (s : State) (nsid : Nat) (keys : List Nat) : State :=
  match keys with
  | [] => s
  | k0 :: _ =>
    let u := k0 / 16
    let q := s.unitQuad u
    let n := s.freestSlice q
    let whole := !s.isFine u
    let ks := if whole then (List.range 16).map (u * 16 + ·) else keys
    if !(ks.all fun k => (s.copySrc k).isSome) then s else
    match s.copyPlaces n ks.length, s.gcDest q 0 ks.length none with
    | some ps, some (ds, t) =>
      let t := t.readCopies ks
      let items := ((ks.zip (ps.zip ds))).filterMap fun x => (s.copySrc x.1).map fun m => (x.1, x.2.1, x.2.2, m.1)
      let wsn := t.lnd.wsn
      let gid := t.jnl.nextId
      let t := t.takeWsn
      let t := items.foldl (fun (t : State) x => t.onLnd fun l => { l with secs := l.secs.set none (n * 4096 + x.2.1) (some
        { fsn := 0, here := true, done := true, group := gid, info := { x.2.2.2.info with wsn := wsn }, data := x.2.2.2.data, dest := x.2.2.1 }) }) t
      let t := if whole then t.setCoarse u (.landing n (ps.headD 0)) else items.foldl (fun t x => t.setFine x.1 (.landing n x.2.1)) t
      (t.openGroup 0 0 nsid wsn (items.map fun x => n * 4096 + x.2.1) []).onSlot nsid fun x => { x with rekey := true }
    | _, _ => s

/-- REKEY_PASS (R382): in a conventional namespace, the next unit with old sectors is rewritten; PREVIOUS goes when none
is left. -/
def State.rekeyPass (s : State) (nsid : Nat) : State :=
  match s.ns nsid with
  | some n =>
    if n.zoned ∨ (s.slot nsid).prev.isNone then s
    else
      let old := s.oldKeys nsid
      (s.rekeyUnit nsid (old.filter (fun k => k / 16 == (old.headD 0) / 16))).rekeyDone nsid
  | none => s

def execRekeyPass (nsid : Nat) (s : State) : Out := .next (s.rekeyPass nsid)

/-! ### Key Blob Import (R384 to R386) -/

/-- The importer of a command: none for ring O, else a tenant. -/
def State.importer (s : State) (c : Cmd) : Option Nat := if c.ringO then none else some (s.cmdTid c)

/-- A failed import: Invalid Field in Command with its reason, and BLOB_REJ (R386). -/
def State.blobFail (s : State) (fsn reason : Nat) : State :=
  (s.complete fsn stInvalidField reason).raiseEvt F.SEC_EVT_BLOB_REJ F.SEC_EVT_CNT1_REJ_CNT

/-- ACTION and target slot of the command. -/
def Cmd.blobAction (c : Cmd) : Nat := bits c.sqe.cdw11 17 16
def Cmd.blobSlot (c : Cmd) : Nat := c.sqe.cdw11 % 65536

/-- Blob fields (Table 13.7). -/
def bMode (b : List Byte) : Nat := leAt b 2 1
def bKind (b : List Byte) : Nat := leAt b 3 1
def bKeyLen (b : List Byte) : Nat := if bKind b = 1 then 64 else 32

/-- Exact length of a blob (R385). -/
def bLen (b : List Byte) : Nat := if bMode b = 1 then 40 + 32 + bKeyLen b else 60 + bKeyLen b

/-- The key a blob is wrapped under, none where reason 3 applies. -/
def State.wrapKey (s : State) (imp : Option Nat) (w : Nat) : Option Nat :=
  if w = 0xFFFF then s.sec.kik
  else
    let x := s.slot w
    if isGenSlot w ∧ x.kind = 3 ∧ x.owner = imp then x.cur else none

/-- The key inside a blob, none where the unwrap fails (reason 6). -/
def blobKey (k : Nat) (b : List Byte) : Option (List Byte) :=
  if bMode b = 1 then
    match Config.kwUnwrap k (b.drop 32) with
    | some p => if p.take 32 = b.take 32 then some (p.drop 32) else none
    | none => none
  else Config.gcmOpen k ((b.drop 32).take 12) (b.take 32) (b.drop 60) ((b.drop 44).take 16)

/-- The first reason an import fails for (R386), 0 for none. `dst` is the slot the key would go to. -/
def State.blobReason (s : State) (imp : Option Nat) (action slot dst len : Nat) (b : List Byte) : Nat :=
  let old := s.slot dst
  if len = 0 ∨ !([136, 104, 124, 92].contains len) ∨ ((bMode b = 1 ∨ bMode b = 2) ∧ len ≠ bLen b) then 1
  else if leAt b 0 2 ≠ 1 ∨ !(bMode b == 1 || bMode b == 2) ∨ bKind b = 0 ∨ 3 < bKind b ∨ leAt b 6 2 ≠ 0 ∨ leAt b 12 4 ≠ 0 ∨ leAt b 24 8 ≠ 0 then 2
  else if (s.wrapKey imp (leAt b 4 2)).isNone then 3
  else if leAt b 8 2 ≠ imp.getD 0xFFFF ∨ leAt b 10 2 ≠ slot ∨ (if isNsSlot dst then bKind b ≠ 1 else bKind b = 1) ∨ dst = 0 then 4
  else if leAt b 16 8 ≤ old.ctr then 5
  else match blobKey ((s.wrapKey imp (leAt b 4 2)).getD 0) b with
    | none => 6
    | some k => if bKind b = 1 ∧ k.take 32 = k.drop 32 then 7 else if action = 1 ∧ !(isNsSlot dst ∧ old.cur.isSome) then 8 else 0

/-- A namespace holds no data: NUSE 0, or every zone Empty (R386). -/
def State.nsEmpty (s : State) (nsid : Nat) : Bool :=
  match s.ns nsid with
  | some n => if n.zoned then !(s.zones.items.any fun e => e.1 / 2 ^ 24 == nsid && e.2.st != .empty) else n.nuse == 0
  | none => false

/-- Another tenant's slot, for a ring T command (R94, R379); it is not told apart from a slot that does not exist. -/
def State.foreignSlot (s : State) (c : Cmd) (slot : Nat) : Bool :=
  !c.ringO && slot != 0xFFFF &&
  (if isNsSlot slot then ((s.ns slot).bind (·.tid)) != some (s.cmdTid c)
   else !((s.slot slot).kind != 0 && (s.slot slot).owner == some (s.cmdTid c)))

/-- The slot a key goes to: the target, or for 0xFFFF the lowest free general slot. -/
def State.blobDst (s : State) (c : Cmd) : Option Nat := if c.blobSlot = 0xFFFF then s.freeGen else some c.blobSlot

/-- Store an imported key. -/
def State.putKey (s : State) (dst : Nat) (imp : Option Nat) (b : List Byte) (k : List Byte) (rotate : Bool) : State :=
  let wsn := s.lnd.wsn
  s.onSlot dst fun x => { x with cur := some (2 * ofLe k + 1), prev := if rotate then x.cur else none, rotWsn := if rotate then wsn else 0,
                                 kind := bKind b, owner := if isNsSlot dst then none else imp, ctr := leAt b 16 8, rekey := false }

/-- ACTION 0 and 1 of Key Blob Import (R381, R386). -/
def State.blobImport (s : State) (c : Cmd) : State :=
  let b := c.sqe.data
  let imp := s.importer c
  if s.foreignSlot c c.blobSlot then s.complete c.fsn stRing
  else if c.sqe.cdw11 / 2 ^ 18 ≠ 0 then s.blobFail c.fsn 2
  else if c.blobAction = 3 then s.blobFail c.fsn 8
  else match s.blobDst c with
    | none => s.blobFail c.fsn 8
    | some dst =>
      let r := s.blobReason imp c.blobAction c.blobSlot dst c.sqe.cdw10 b
      if r ≠ 0 then s.blobFail c.fsn r
      else if c.blobAction = 1 ∧ (s.slot dst).prev.isSome then s.complete c.fsn stSequence
      else if c.blobAction = 0 ∧ isNsSlot dst ∧ !s.nsEmpty dst then s.blobFail c.fsn 8
      else match blobKey ((s.wrapKey imp (leAt b 4 2)).getD 0) b with
        | some k => (((s.putKey dst imp b k (c.blobAction = 1)).rekeyDone dst).keysBack).complete c.fsn stOk dst
        | none => s

/-- KEY_BLOB_INSTALL: ACTION 0; ACTION 3 is illegal. -/
def execKeyBlobInstall (fsn : Nat) (s : State) : Out :=
  adminRow fsn 0xC9 (fun c s => if c.blobAction = 0 ∨ c.blobAction = 3 then s.blobImport c else s) s

/-- KEY_ROTATION: ACTION 1 (R381). -/
def execKeyRotation (fsn : Nat) (s : State) : Out :=
  adminRow fsn 0xC9 (fun c s => if c.blobAction = 1 then s.blobImport c else s) s

/-- ACTION 2: a general slot zeroised and freed; CDW10 is 0 (R386). -/
def State.blobZero (s : State) (c : Cmd) : State :=
  let n := c.blobSlot
  if s.foreignSlot c n then s.complete c.fsn stRing
  else if c.sqe.cdw11 / 2 ^ 18 ≠ 0 then s.blobFail c.fsn 2
  else if c.sqe.cdw10 ≠ 0 then s.blobFail c.fsn 1
  else if !isGenSlot n ∨ (s.slot n).kind = 0 ∨ n = 0xFFFF then s.blobFail c.fsn 8
  else (s.zeroSlot n).complete c.fsn stOk n

/-- KEY_SLOT_ZEROISE. -/
def execKeySlotZeroise (fsn : Nat) (s : State) : Out :=
  adminRow fsn 0xC9 (fun c s => if c.blobAction = 2 then s.blobZero c else s) s

/-! ### Alarms (R387 to R389) -/

/-- Bring a cluster to a stop: jobs, suspend records and seeds are gone (Table 13.9). -/
def Cc.stop (c : Cc) : Cc := { c with pipes := {}, queue := [], pool := 0, gens := 0, cache := [] }

/-- An alarm source: clusters stopped, every key overwritten, SEC_ALARM recorded, F3 raised; a second alarm of the
sequence adds its bit (R388). -/
def State.alarm (s : State) (src : Nat) : State :=
  if !s.lvl.core ∨ 8 ≤ src then s
  else if s.sec.stopped then s.onSec fun x => { x with alarm := x.alarm ||| 2 ^ src }
  else
    let s := s.onSec fun x =>
      { x with slots := {}, kik := none, wrap := [], nonce := s.drbg, alarm := 2 ^ src, zeroised := true, stopped := true,
               ccs := (List.range 4).foldl (fun m q => m.upd {} q Cc.stop) x.ccs }
    s.nextDrbg.raiseFault 0x0301 (uSvc 6) (2 ^ src)

def execAlarm (src : Nat) (s : State) : Out := .next (s.alarm src)

/-- The management path may not write SEC_ALARM_CTL and SEC_REVOKE (R396): dropped, ACC_FAULT. -/
def State.secOnly (s : State) (acc : Acc) (addr : Nat) (f : State → State) : State :=
  match acc with
  | .mgmt => s.accFault acc addr
  | .eng _ => f s

/-- FORCE (R387): a write of SEC_ALARM_CTL. -/
def State.alarmForce (s : State) (acc : Acc) (v : Nat) : State :=
  s.secOnly acc 0xF00008 fun s => if v % 2 = 1 then s.alarm 7 else s

def execForce (acc : Acc) (val : W32) (s : State) : Out := .next (s.alarmForce acc val.toNat)

/-! ### Fused counters and revocation (R392) -/

/-- A fused SVN counter of an engine kind. -/
def State.svnOf (s : State) (k : Nat) : Nat := max (Config.fuseSvn k) (s.sec.svn.get 0 k)

/-- Raise every counter to the SVN of the running image. -/
def State.raiseSvn (s : State) : State :=
  s.onSec fun x => { x with svn := (List.range 4).foldl (fun m k => m.upd 0 k fun v => max v ((x.imgs.get none k).getD {}).svn) x.svn }

/-- A write of SEC_SVN_CTL: AUTO stored, RAISE raises. -/
def State.svnCtl (s : State) (v : Nat) : State :=
  let s := s.storeAt 0xF00010 0 v
  if v.testBit 31 then s.raiseSvn else s

def execRaise (val : W32) (s : State) : Out := .next (s.svnCtl val.toNat)

/-- Revoke fuses blown. -/
def State.revokedKeys (s : State) : Nat := (Config.fuseSECSTATREVOKED % 16) ||| s.sec.revoked

/-- REVOKE: revoke fuses blown; a write naming the key that signed the running SE image is dropped (R392). -/
def State.revoke (s : State) (acc : Acc) (v : Nat) : State :=
  s.secOnly acc 0xF00030 fun s =>
    if (v % 16).testBit s.sec.vkey then s else s.onSec fun x => { x with revoked := x.revoked ||| (v % 16) }

def execRevoke (acc : Acc) (val : W32) (s : State) : Out := .next (s.revoke acc val.toNat)

/-! ### Clusters and their randomness (R370 to R377) -/

/-- A cluster. -/
def State.cc (s : State) (q : Nat) : Cc := s.sec.ccs.get {} q

/-- Change a cluster. -/
def State.onCc (s : State) (q : Nat) (f : Cc → Cc) : State := s.onSec fun x => { x with ccs := x.ccs.upd {} q f }

/-- Generate requests while the pool has room for 16 seeds and the DRBG is not due for a reseed (R373). -/
def Cc.refill (c : Cc) : Nat → Cc
  | 0 => c
  | n + 1 => if c.pool + 16 ≤ 64 ∧ c.gens < 4096 then ({ c with pool := c.pool + 16, gens := c.gens + 1 } : Cc).refill n else c

/-- The pipelines that work, in order. -/
def Cc.working (c : Cc) : List Nat := (List.range 16).filter (fun p => c.up.testBit p)

/-- A free pipeline: nothing runs and nothing is suspended on it. -/
def Cc.freePipe (c : Cc) : Option Nat := c.working.find? fun p => (c.pipes.get {} p).run.isNone && (c.pipes.get {} p).susp.isNone

/-- The job a running pipeline gives up for one of priority 0: priority 3 before 2, and the one started latest (R376). -/
def Cc.victim (c : Cc) : Option Nat :=
  let cand := c.working.filter fun p => (c.pipes.get {} p).susp.isNone && (match (c.pipes.get {} p).run with | some j => decide (2 ≤ j.prio) | none => false)
  let prio (p : Nat) : Nat := match (c.pipes.get {} p).run with | some j => j.prio | none => 0
  cand.foldl (fun (best : Option Nat) (p : Nat) => match best with
    | none => some p
    | some b => if prio b < prio p ∨ (prio b = prio p ∧ (c.pipes.get {} b).since < (c.pipes.get {} p).since) then some p else some b) none

/-- The urgency of the read that a job serves; writes, scans and internal work have none (R59). -/
def State.jobUrg (s : State) (j : CJob) : Nat := match s.cmd j.fsn with | some c => if isReadOp c.sqe.opc ∧ c.sq ≠ 0 then c.urg else 0 | none => 0

/-- The request a job makes at its cluster's arbiter; jobs of other classes stand in the order they were queued. -/
def State.jobRq (s : State) (j : CJob) : Rq := { cls := j.cls, tid := j.tid, fsn := j.fsn, urg := s.jobUrg j, stamp := j.id, id := j.id }

/-- The priority of a job now (Table 13.3): 0 only while its read has urgency 2 or 3 and its tenant is eligible, else with the
other host work; a known-answer test overdue by 1 s goes to priority 1. -/
def State.jobPrio (s : State) (q : Nat) (j : CJob) : Nat :=
  if j.prio = 0 then (if 2 ≤ s.jobUrg j ∧ s.sched.eligible (arbCc q) j.tid 2 1024 then 0 else 2)
  else if j.prio = 3 ∧ j.born + 125000 ≤ s.time.frame then 1 else j.prio

/-- A job may start in this frame: its bytes fit what the cluster is granted, priority 1 its own cap (R41, R375, Table 2.1); in
a drain no decryption for reads, and of priority 2 only host and journal work (R45). -/
def State.jobFits (s : State) (q : Nat) (j : CJob) : Bool :=
  let p := s.jobPrio q j
  decide (s.sched.ccUsed.get 0 q + 16 * j.blocks ≤ s.sched.ccGrant) && (p != 1 || decide ((s.cc q).prio1 + 16 * j.blocks ≤ 65536)) &&
  (!s.sched.drain || (p != 0 && (p != 2 || j.cls == 0 || j.cls == 4)))

/-- The job that starts next (Table 13.3): lowest priority number; within 0 higher urgency, then lower FSN (R60); within 2 class
shares, then the ledger (R49, R54); within 1 and 3 the oldest. -/
def State.nextJob (s : State) (q : Nat) : Option CJob :=
  let can := (s.cc q).queue.filter (s.jobFits q)
  let of := fun p => can.filter fun j => s.jobPrio q j == p
  let byId := fun (x : Option Rq) => x.bind fun r => can.find? fun j => j.id == r.id
  let old := fun l => leastBy (fun x y => decide (x.id < y.id)) (l.map s.jobRq)
  if !(of 0).isEmpty then
    byId (leastBy (fun x y => decide (y.urg < x.urg) || (x.urg == y.urg && decide (x.fsn < y.fsn))) ((of 0).map s.jobRq))
  else if !(of 1).isEmpty then byId (old (of 1))
  else if !(of 2).isEmpty then byId (s.sched.pick (arbCc q) 2 1024 ((of 2).map s.jobRq))
  else byId (old (of 3))

/-- Start a job on a pipeline with a fresh seed, its slot's key in the cluster's cache, which gives up the one used least recently for it
(R370, R372; DESIGN CHOICE, assumption 130); `prio` is its priority now. -/
def Cc.start (c : Cc) (j : CJob) (prio p : Nat) (susp : Option CJob) : Cc :=
  ({ c with queue := c.queue.filter (fun x => x.id != j.id), pool := c.pool - 1, starts := c.starts + 1,
            cache := (j.slot :: c.cache.erase j.slot).take 256,
            prio1 := if prio = 1 then c.prio1 + 16 * j.blocks else c.prio1,
            pipes := c.pipes.set {} p { run := some { j with prio := prio }, susp := susp, since := c.starts } } : Cc).refill 4

/-- A job ends on a pipeline: its suspended job resumes there ahead of any other (R376). -/
def Cc.endJob (c : Cc) (p : Nat) : Cc :=
  let x := c.pipes.get {} p
  { c with pipes := c.pipes.set {} p { run := x.susp, susp := none, since := c.starts } }

/-- A job enters a cluster's queue: an UP cluster takes it (R19, R375). -/
def State.queueJob (s : State) (q : Nat) (job : Option JobIn) : State :=
  match job with
  | some j =>
    if j.prio ≤ 3 ∧ 1 ≤ j.blocks ∧ j.blocks ≤ 4096 ∧ s.unitState (uCC q) = .up then
      s.onCc q fun (c : Cc) =>
        { c with jobs := c.jobs + 1, queue := c.queue ++ [({ id := c.jobs, prio := j.prio, slot := j.slot, blocks := j.blocks, cls := j.cls,
                                                              tid := j.tid, fsn := j.fsn, born := s.time.frame } : CJob)] }
    else s
  | none => s

/-- A job starts on a pipeline and is charged (R46, R372); without a seed it stalls, for `stall` cycles (R374). -/
def State.startJob (s : State) (q : Nat) (j : CJob) (stall p : Nat) (susp : Option CJob) : State :=
  if (s.cc q).pool = 0 then
    (s.raiseEvt F.CC_EVT_RNG_STALL F.CC_EVT_CNT0_STALL_CNT q).setF F.CC_STALL_CYCLES (sat32 (s.getF F.CC_STALL_CYCLES q + stall)) q
  else
    let s := (s.onCc q fun c => c.start j (s.jobPrio q j) p susp).chargeAt (arbCc q) 2 j.cls j.tid (cdiv (16 * j.blocks) 64)
    s.onSched fun c => { c with ccUsed := c.ccUsed.upd 0 q (· + 16 * j.blocks) }

/-- CIPHER_JOB (R374 to R377): jobs that ended leave their pipelines, a job may enter the queue, and the job that comes first
takes the first free pipeline, suspending another at its block `blk` when it has priority 0 and none is free. -/
def State.cipherJob (s : State) (q : Nat) (done : List Nat) (job : Option JobIn) (blk stall : Nat) : State :=
  if s.sec.stopped then s
  else
    let s := (s.onCc q fun c => done.foldl Cc.endJob c).queueJob q job
    let s := s.lookAt (arbCc q) (((s.cc q).queue.filter fun j => s.jobPrio q j == 2).map s.jobRq)
    match s.nextJob q with
    | none => s
    | some j =>
      if s.unitState (uCC q) ≠ .up ∧ s.unitState (uCC q) ≠ .draining then s
      else match (s.cc q).freePipe with
      | some p => s.startJob q j stall p none
      | none =>
        if s.jobPrio q j = 0 then
          match (s.cc q).victim with
          | some p => s.startJob q j stall p (((s.cc q).pipes.get {} p).run.map fun (x : CJob) => { x with done := min blk x.blocks })
          | none => s
        else s

def execCipherJob (cc : Nat) (done : List Nat) (job : Option JobIn) (blk stall : Nat) (s : State) : Out :=
  .next (if cc < 4 then s.cipherJob cc done job blk stall else s)

/-- KNOWN_ANSWER_TEST (R371): a pipeline that fails is fenced; a cluster without a working pipeline is fenced itself,
which is F3. -/
def State.kat (s : State) (q p : Nat) (pass : Bool) : State :=
  if s.sec.stopped ∨ pass ∨ 16 ≤ p ∨ !(s.cc q).up.testBit p then s
  else
    let x := (s.cc q).pipes.get {} p
    let s := s.onCc q fun c => { c with up := putBit c.up p false, pipes := c.pipes.set {} p {}, queue := x.run.toList ++ x.susp.toList ++ c.queue }
    let s := (s.raiseEvt F.CC_EVT_KAT_FAIL F.CC_EVT_CNT1_KAT_CNT q).raiseFault 0x0208 (uCC q) p
    if (s.cc q).up = 0 then s.fenceUnit (uCC q) else s

def execKnownAnswerTest (cc pipe : Nat) (pass : Bool) (s : State) : Out :=
  .next (if cc < 4 then s.kat cc pipe pass else s)

/-- DRBG_RESEED (R373): after 4,096 generate requests. -/
def State.reseed (s : State) (q : Nat) : State :=
  if s.sec.stopped ∨ (s.cc q).gens < 4096 then s else s.onCc q fun c => ({ c with gens := 0 } : Cc).refill 4

def execDrbgReseed (cc : Nat) (s : State) : Out := .next (if cc < 4 then s.reseed cc else s)

/-- ENTROPY_BLOCK (R374): a block that fails a health test is discarded; sixteen in a row raise the TRNG alarm. -/
def State.entropy (s : State) (q : Nat) (pass : Bool) : State :=
  if s.sec.stopped then s
  else if pass then s.onCc q fun c => { c with bad := 0 }
  else
    let s := ((s.onCc q fun c => { c with bad := min 16 (c.bad + 1) }).raiseEvt F.CC_EVT_TRNG_BAD F.CC_EVT_CNT0_TRNG_CNT q).raiseFault 0x0004 (uCC q)
    if 16 ≤ (s.cc q).bad then s.alarm 4 else s

def execEntropyBlock (cc : Nat) (pass : Bool) (s : State) : Out :=
  .next (if cc < 4 then s.entropy cc pass else s)

/-! ### SPDM and provisioning (R384, R393 to R395) -/

/-- An SPDM 1.3 message: version, code, two parameters, payload. -/
def spdmMsg (code p1 p2 : Nat) (d : List Byte) : List Byte := leBytes 1 0x13 ++ leBytes 1 code ++ leBytes 1 p1 ++ leBytes 1 p2 ++ d

/-- ERROR UnexpectedRequest. -/
def spdmUnexpected : List Byte := spdmMsg 0x7F 0x04 0 []

/-- A measurement record (Table 13.10). -/
def measRec (idx svn ver : Nat) (digest : List Byte) : List Byte :=
  leBytes 1 idx ++ zeros 3 ++ leBytes 4 svn ++ leBytes 4 ver ++ padTo 32 digest ++ zeros 4

/-- SEC_SVN as a word (Table 13.13). -/
def State.svnWord (s : State) : Nat := s.svnOf 3 % 256 * 2 ^ 24 + s.svnOf 2 % 256 * 2 ^ 16 + s.svnOf 1 % 256 * 2 ^ 8 + s.svnOf 0 % 256

/-- Bound ring O programs in handle order. -/
def State.boundO (s : State) : List (Nat × Prog) :=
  (s.prg.progs.items.filterMap fun e => e.2.map fun p => (e.1, p)).filter fun e => e.2.ring == 1 && s.prg.binds.any (fun b => b.handle == e.1)

/-- The measurement records (Table 13.10): images, SEC_SVN, OPKH, OEM block, bound ring O programs. -/
def State.measures (s : State) : List (List Byte) :=
  let im := fun k => (s.sec.imgs.get none k).getD {}
  [measRec 1 (im 0).svn (im 0).version (im 0).digest, measRec 2 (im 1).svn (im 1).version (im 1).digest,
   measRec 3 (im 2).svn (im 2).version (im 2).digest, measRec 4 (im 3).svn (im 3).version (im 3).digest,
   measRec 5 0 0 (Config.sha3 (leBytes 4 s.svnWord)), measRec 6 0 0 (s.sec.opkh.getD []), measRec 7 0 0 Config.oemDigest] ++
  (s.boundO.zipIdx.map fun e => measRec (8 + e.2) e.1.2.svn e.1.2.version e.1.2.digest)

/-- The ASCII bytes of a string. -/
def ascii (t : String) : List Byte := t.toList.map fun c => BitVec.ofNat 8 c.toNat

/-- The layers of R393, from the images that boot verified: CDI0, the storage wrap key, CDI1 and the Alias seed; the UDS is locked, the
Alias certificate issued under the DeviceID key, and that key erased. -/
def State.deriveId (s : State) : State :=
  let d := fun k => ((s.sec.imgs.get none k).getD {}).digest
  let m0 := d 0
  let m1 := Config.sha3 (d 1 ++ d 2 ++ d 3 ++ padTo 32 (s.sec.opkh.getD []) ++ leBytes 4 s.svnWord)
  let device := Config.kmac Config.uds [] (ascii "DEVICEID")
  let cdi0 := Config.kmac Config.uds m0 (ascii "CDI")
  let cdi1 := Config.kmac cdi0 m1 (ascii "CDI")
  let al := Config.kmac cdi1 [] (ascii "ALIAS")
  let body := Config.x509Body (Config.mldsaPub al) m0 m1
  s.onSec fun x => { x with cdi0 := cdi0, cdi1 := cdi1, alias_ := al, udsLock := true
                            wrap := Config.kmac Config.uds (leBytes 32 (Config.drbg x.nonce)) (ascii "STORE")
                            chain := Config.deviceCert ++ Config.x509 body (Config.mldsaSign device (Config.sha3 body)) }

/-- SEC_STAT (Table 13.13). -/
def State.secStat (s : State) : Nat :=
  b2n s.sec.zeroised * 2 ^ 31 + b2n s.sec.kik.isSome * 2 ^ 30 + b2n s.sec.opkh.isSome * 2 ^ 29 + Config.fuseSECSTATPOKH % 2 * 2 ^ 28 +
  s.sec.boot % 4 * 2 ^ 24 + s.sec.vkey % 4 * 2 ^ 20 + s.revokedKeys % 16 * 2 ^ 16

/-- Set how far a path's SPDM connection has come. -/
def State.setConn (s : State) (path v : Nat) : State := s.onSec fun x => { x with conn := x.conn.set 0 path v }

/-- A session of a path. -/
def State.session (s : State) (path id : Nat) : Option Sess := s.sec.sessions.find? fun x => x.id == id && x.mctp == (path == 0)

/-- Change a session. -/
def State.onSess (s : State) (id : Nat) (f : Sess → Sess) : State :=
  s.onSec fun x => { x with sessions := x.sessions.map fun y => if y.id = id then f y else y }

/-- One SPDM request of a path (0 MCTP, 1 + function in band): the response and what it changes (R394). `sess` is the
session it names, `a` and `b` the offset and length of a certificate read, `d` the nonce or the hash of the key that
authenticated the requester. A request out of order is answered with ERROR. -/
def State.spdmReq (s : State) (path code sess a b : Nat) (d : List Byte) : List Byte × State :=
  let conn := s.sec.conn.get 0 path
  let up : Bool := match s.session path sess with | some x => x.up | none => false
  match code with
  | 0x84 => (spdmMsg 0x04 0 0 (leBytes 2 256 ++ leBytes 2 0x1300),
      (s.onSec fun x => { x with sessions := x.sessions.filter (fun y => y.mctp != (path == 0)) }).setConn path 1)
  | 0xE1 => if 1 ≤ conn then (spdmMsg 0x61 0 0 [], s.setConn path 2) else (spdmUnexpected, s)
  | 0xE3 => if 2 ≤ conn then (spdmMsg 0x63 0 0 [], s.setConn path 3) else (spdmUnexpected, s)
  | 0x81 => if conn = 3 then (spdmMsg 0x01 0 1 (Config.sha3 s.sec.chain), s) else (spdmUnexpected, s)
  | 0x82 =>
    if conn = 3 then
      let part := (s.sec.chain.drop a).take b
      (spdmMsg 0x02 0 0 (leBytes 2 part.length ++ leBytes 2 (s.sec.chain.length - a - part.length) ++ part), s)
    else (spdmUnexpected, s)
  | 0x83 => if conn = 3 then (spdmMsg 0x03 0 1 (Config.sha3 s.sec.chain ++ Config.mldsaSign s.sec.alias_ (Config.sha3 d)), s) else (spdmUnexpected, s)
  | 0xE0 =>
    if conn = 3 then
      let m := s.measures
      let body := leBytes 1 m.length ++ leBytes 3 (48 * m.length) ++ m.flatten ++ d
      (spdmMsg 0x60 m.length 0 (body ++ Config.mldsaSign s.sec.alias_ (Config.sha3 body)), s)
    else (spdmUnexpected, s)
  | 0xE4 =>
    if conn = 3 then
      (spdmMsg 0x64 0 0 (leBytes 2 s.sec.nextSess ++ Config.mldsaSign s.sec.alias_ (Config.sha3 d)),
        s.onSec fun x => { x with sessions := x.sessions ++ [{ id := x.nextSess, mctp := path == 0 }], nextSess := x.nextSess + 1 })
    else (spdmUnexpected, s)
  | 0xE5 =>
    match s.session path sess with
    | some x => if x.up then (spdmUnexpected, s) else (spdmMsg 0x65 0 0 [], s.onSess sess fun y => { y with up := true, auth := if d.isEmpty then none else some d })
    | none => (spdmUnexpected, s)
  | 0xEC => if up then (spdmMsg 0x6C 0 0 [], s.onSec fun x => { x with sessions := x.sessions.filter (fun y => y.id != sess) }) else (spdmUnexpected, s)
  | 0xE8 => if up then (spdmMsg 0x68 0 0 [], s) else (spdmUnexpected, s)
  | 0xE9 => if up then (spdmMsg 0x69 0 0 [], s) else (spdmUnexpected, s)
  | _ => (spdmMsg 0x7F 0x07 code [], s)

/-- The management endpoint answers while the core runs (R394, R449): halted, with Internal Error. -/
def State.spdmMctp (s : State) (code sess a b : Nat) (d : List Byte) : State :=
  if s.halted then s.send (.mi code 0x02 [])
  else if !s.lvl.core then s
  else
    let r := s.spdmReq 0 code sess a b d
    r.2.send (.spdm code r.1)

def execGetVersion (s : State) : Out := .next (s.spdmMctp 0x84 0 0 0 [])
def execGetCapabilities (s : State) : Out := .next (s.spdmMctp 0xE1 0 0 0 [])
def execNegotiateAlgorithms (s : State) : Out := .next (s.spdmMctp 0xE3 0 0 0 [])
def execGetDigests (s : State) : Out := .next (s.spdmMctp 0x81 0 0 0 [])
def execGetCertificate (off len : Nat) (s : State) : Out := .next (s.spdmMctp 0x82 0 off len [])
def execChallenge (nonce : List Byte) (s : State) : Out := .next (s.spdmMctp 0x83 0 0 0 nonce)
def execGetMeasurements (nonce : List Byte) (s : State) : Out := .next (s.spdmMctp 0xE0 0 0 0 nonce)
def execKeyExchange (data : List Byte) (s : State) : Out := .next (s.spdmMctp 0xE4 0 0 0 data)
def execFinish (sess : Nat) (auth : List Byte) (s : State) : Out := .next (s.spdmMctp 0xE5 sess 0 0 auth)
def execEndSession (sess : Nat) (s : State) : Out := .next (s.spdmMctp 0xEC sess 0 0 [])
def execHeartbeat (sess : Nat) (s : State) : Out := .next (s.spdmMctp 0xE8 sess 0 0 [])
def execKeyUpdate (sess : Nat) (s : State) : Out := .next (s.spdmMctp 0xE9 sess 0 0 [])

/-- Provisioning is allowed in an established session over MCTP whose requester's key hash is POKH (R384, R100). -/
def State.mayProvision (s : State) (sess : Nat) : Bool :=
  match s.session 0 sess with
  | some x => x.up && x.auth == some Config.pokh
  | none => false

/-- A state change by provisioning raises PROV. -/
def State.prov (s : State) : State := s.raiseEvt F.SEC_EVT_PROV F.SEC_EVT_CNT0_PROV_CNT

/-- A provisioning message in session `sess` (Table 13.6); elsewhere Access Denied (NVMe-MI status 0x07). -/
def State.provision (s : State) (sess code : Nat) (d : List Byte) : State :=
  if s.halted then s.send (.mi 0xFE 0x02 [])
  else if !s.lvl.core then s
  else if !s.mayProvision sess then s.send (.mi 0xFE 0x07 [])
  else
    match code with
    | 0x01 => if d.length = 32 then ((s.onSec fun x => { x with kik := some (2 * ofLe d + 1) }).prov).send (.spdm 0x7E []) else s.send (.mi 0xFE 0x04 [])
    | 0x02 => ((s.onSec fun x => { x with kik := none }).prov).send (.spdm 0x7E [])
    | 0x03 => if d.length = 32 then ((s.onSec fun x => { x with opkh := some d }).prov).send (.spdm 0x7E []) else s.send (.mi 0xFE 0x04 [])
    | _ => s.send (.spdm 0x7E (leBytes 4 s.secStat))

def execSetKik (sess : Nat) (key : List Byte) (s : State) : Out := .next (s.provision sess 0x01 key)
def execClearKik (sess : Nat) (s : State) : Out := .next (s.provision sess 0x02 [])
def execSetOpkh (sess : Nat) (hash : List Byte) (s : State) : Out := .next (s.provision sess 0x03 hash)
def execGetState (sess : Nat) (s : State) : Out := .next (s.provision sess 0x04 [])

/-! ### Security Send and Receive -/

/-- SECURITY_SEND (R394): protocol 0xE8 carries one SPDM request in band, without provisioning; a session a message names
follows its header. -/
def State.securitySend (s : State) (c : Cmd) : State :=
  let q := c.sqe
  if q.cdw10 / 2 ^ 24 % 256 ≠ 0xE8 then s.complete c.fsn stInvalidField
  else if sglStatus q q.cdw11 ≠ stOk then s.complete c.fsn (sglStatus q q.cdw11)
  else
    let code := leAt q.data 1 1
    let r := if code = 0xFE then (spdmMsg 0x7F 0x06 0 [], s) else s.spdmReq (1 + c.fn) code (leAt q.data 4 2) (leAt q.data 4 2) (leAt q.data 6 2) (q.data.drop 4)
    (r.2.onSec fun x => { x with resp := x.resp.set [] c.fn r.1 }).complete c.fsn stOk

def execSecuritySend (fsn : Nat) (s : State) : Out := adminRow fsn 0x81 (fun c s => s.securitySend c) s

/-- SECURITY_RECEIVE: protocol 0x00 lists the protocols supported; 0xE8 returns the response waiting. -/
def State.securityReceive (s : State) (c : Cmd) : State :=
  let q := c.sqe
  let p := q.cdw10 / 2 ^ 24 % 256
  if sglStatus q q.cdw11 ≠ stOk then s.complete c.fsn (sglStatus q q.cdw11)
  else if p = 0 then s.complete c.fsn stOk 0 ((zeros 6 ++ [0, 2, 0, 0xE8]).take q.cdw11)
  else if p = 0xE8 then
    (s.onSec fun x => { x with resp := x.resp.set [] c.fn [] }).complete c.fsn stOk 0 ((s.sec.resp.get [] c.fn).take q.cdw11)
  else s.complete c.fsn stInvalidField

def execSecurityReceive (fsn : Nat) (s : State) : Out := adminRow fsn 0x82 (fun c s => s.securityReceive c) s

end Sys2Proof.Machine
end

