-- ==== Sys2Proof/Machine/Programs.lean ====
section
/-! DEFINITION. Loading, binding, replacing and unloading programs, near-data scans, and the QOS hook (chapter 10; R295,
R301, R302, R307 to R323). -/
namespace Sys2Proof.Machine

/-! ### Loaded programs -/

/-- A Scan of lower FSN stands that has not yet taken its image (R309). -/
def State.scanBefore (s : State) (fsn : Nat) : Bool :=
  s.hif.cmds.any fun d => d.sq != 0 && d.sqe.opc == 0x83 && d.ph == .fetched && decide (d.fsn < fsn)

/-- A row of a program command: in FSN order, and after the Scans of lower FSN have taken theirs (R306, R309). -/
def progRow (fsn opc : Nat) (f : Cmd → State → State) (s : State) : Out :=
  if s.scanBefore fsn then .next s else adminRow fsn opc f s

/-- Loaded programs, in handle order. -/
def State.loaded (s : State) : List (Nat × Prog) := s.prg.progs.items.filterMap fun e => e.2.map fun p => (e.1, p)

/-- Programs loaded of a ring (PRG_STAT). -/
def State.ringCount (s : State) (r : Nat) : Nat := (s.loaded.filter (fun e => e.2.ring == r)).length

/-- The lowest free handle (R295). -/
def State.freeHandle (s : State) : Nat := ((List.range (s.prg.progs.size + 1)).map (· + 1)).find? (fun h => (s.prog h).isNone) |>.getD 1

/-- A load of this image would exceed a limit of R295. -/
def State.progLimit (s : State) (p : Prog) : Bool :=
  if p.ring = 2 then decide (1024 ≤ s.ringCount 2) || decide (16 ≤ (s.loaded.filter (fun e => e.2.ring == 2 && e.2.tid == p.tid)).length)
  else decide (64 ≤ s.ringCount 1)

/-- STATE pages of an image (Table 10.5). -/
def Prog.statePages (p : Prog) : Nat := p.wins.foldl (fun a w => if w.1 = 3 then a + w.2.2 else a) 0

/-- SCRATCH pages of an image. -/
def Prog.scratchPages (p : Prog) : Nat := p.wins.foldl (fun a w => if w.1 = 2 then a + w.2.2 else a) 0

/-- The first page of policy state above those in use. -/
def State.freeStatePage (s : State) : Nat := s.loaded.foldl (fun a e => if e.2.statePages = 0 then a else max a (e.2.statePage + e.2.statePages)) 0

/-- What a container of a Program Load or Replace is judged against (R300 to R303), T_SIGN as it stood at the fetch (R323). -/
def State.vIn (s : State) (c : Cmd) : VIn :=
  let slot := s.slot (c.sqe.cdw12 % 65536)
  { length := c.sqe.cdw10, vf := !c.ringO, osvn := s.prg.osvn, tsign := c.tsign, hashes := s.sec.opkh.toList,
    key := if isGenSlot (c.sqe.cdw12 % 65536) ∧ slot.kind = 2 ∧ slot.owner = s.importer c then slot.cur else none }

/-- A rejection (R307): Program Rejected, DW0 and PRG_VRES with code and offset, PRG_EVT.REJECT. -/
def State.rejectProg (s : State) (fsn : Nat) (e : VErr) : State :=
  let v := e.1 % 256 + e.2 % 2 ^ 24 * 256
  ((s.onPrg fun p => { p with vres := v }).raiseEvt F.PRG_EVT_REJECT F.PRG_EVT_CNT0_REJ_CNT).complete fsn stProgRejected v

/-- The order stamp a load takes (R312): from the loader, service unit 7. -/
def State.newProg (s : State) (c : Cmd) (b : List Byte) (tid : Nat) : Prog :=
  { cProg (s.vIn c) b with tid := tid, stamp := s.stampNow (uSvc 7), digest := Config.sha3 b, statePage := s.freeStatePage,
                           sealSlot := if cSealed b then some (c.sqe.cdw12 % 65536) else none }

/-- The loaded program of a handle, unless an Unload with FORCE lets it drain (R311). -/
def State.live (s : State) (h : Nat) : Option Prog := (s.prog h).filter (fun p => !p.draining)

/-- A field of Program Load or Replace outside its range (Table 10.9, Table 3.8). -/
def Cmd.badLoad (c : Cmd) : Bool :=
  c.sqe.cdw10 == 0 || decide (1048576 < c.sqe.cdw10) || decide (65536 ≤ c.sqe.cdw12) ||
  (c.sqe.cdw12 != 0 && !cSealed c.sqe.data)

/-- PROGRAM_LOAD (R295, R303, R307). -/
def State.progLoad (s : State) (c : Cmd) : State :=
  let b := c.sqe.data.take c.sqe.cdw10
  if sglStatus c.sqe c.sqe.cdw10 ≠ stOk then s.complete c.fsn (sglStatus c.sqe c.sqe.cdw10)
  else if c.badLoad ∨ 4096 ≤ c.sqe.cdw11 ∨ (!c.ringO ∧ c.sqe.cdw11 ≠ 0) then s.complete c.fsn stInvalidField
  else match verdict (s.vIn c) b with
    | some e => s.rejectProg c.fsn e
    | none =>
      let p := s.newProg c b (if cRing b = 2 then (if c.ringO then c.sqe.cdw11 else s.cmdTid c) else 0)
      if s.progLimit p then s.complete c.fsn stInvalidField
      else
        let h := s.freeHandle
        ((s.takeStamp (uSvc 7)).onPrg fun x => { x with progs := x.progs.set none h (some p) }).complete c.fsn stOk h

def execProgramLoad (fsn : Nat) (s : State) : Out := progRow fsn 0xC1 (fun c s => s.progLoad c) s

/-! ### Binding (R301, R308) -/

/-- A handle a ring T command may not name: another tenant's, or none at all, which it does not tell apart (R94, R307). -/
def State.foreignProg (s : State) (c : Cmd) (h : Nat) : Bool :=
  !c.ringO && (match s.live h with | some p => !(p.ring == 2 && p.tid == s.cmdTid c) | none => true)

/-- Fields of Program Bind (Table 10.9). -/
def Cmd.bHandle (c : Cmd) : Nat := c.sqe.cdw10
def Cmd.bTarget (c : Cmd) : Nat := c.sqe.cdw11 % 256
def Cmd.bScope (c : Cmd) : Nat := c.sqe.cdw11 / 256 % 256
def Cmd.bUnbind (c : Cmd) : Bool := c.sqe.cdw11.testBit 16

/-- A field of Program Bind outside its range. -/
def Cmd.badBind (c : Cmd) : Bool :=
  let t := c.bTarget
  decide (65536 ≤ c.bHandle) || c.bHandle == 0 || decide (2 ^ 17 ≤ c.sqe.cdw11) || !(t == 1 || (decide (0x10 ≤ t) && decide (t ≤ 0x14))) ||
  !(decide (c.bScope < 4) || (c.bScope == 0xFF && (t == 0x11 || t == 0x14))) || (t != 1 && c.sqe.nsid != 0)

/-- The entry kind a target needs (R308): SLAB for scans. -/
def bindEntry (t : Nat) : Nat := if t = 1 then 2 else t

/-- A binding is accepted only if these hold (R308). -/
def State.bindOk (s : State) (c : Cmd) (p : Prog) : Bool :=
  let t := c.bTarget
  (p.entry (bindEntry t)).isSome &&
  (if t = 0x10 ∨ t = 0x12 ∨ t = 0x13 then p.engines.testBit 1 else if t = 0x11 ∨ t = 0x14 then p.engines.testBit 0 else true) &&
  (t != 1 || p.ring != 2 || ((s.ns c.sqe.nsid).bind (·.tid)) == some p.tid) &&
  (p.ring != 2 || decide (p.scratchPages ≤ s.getF F.PRG_TQUOTA_PAGES))

/-- Two scopes meet: a quadrant, or every quadrant. -/
def scopeMeets (a b : Nat) : Bool := a == b || a == 0xFF || b == 0xFF

/-- A hook already bound in the same scope, or a duplicate scan binding (R308). -/
def State.bindTaken (s : State) (c : Cmd) : Bool :=
  if c.bTarget = 1 then s.prg.binds.any fun b => b.target == 1 && b.handle == c.bHandle && b.nsid == c.sqe.nsid
  else s.prg.binds.any fun b => b.target == c.bTarget && scopeMeets b.scope c.bScope

/-- Another tenant's namespace, for a ring T command (R94). -/
def State.foreignNs (s : State) (c : Cmd) (nsid : Nat) : Bool := !c.ringO && ((s.ns nsid).bind (·.tid)) != some (s.cmdTid c)

/-- The floor of ring O SVNs follows a successful Bind or Replace (R301). -/
def State.raiseOsvn (s : State) (p : Prog) : State := if p.ring = 1 then s.onPrg fun x => { x with osvn := max x.osvn p.svn } else s

/-- The status of a Program Bind or its UNBIND before it acts. -/
def State.bindStatus (s : State) (c : Cmd) : Nat :=
  if c.badBind then stInvalidField
  else if s.foreignProg c c.bHandle ∨ (c.bTarget = 1 ∧ s.foreignNs c c.sqe.nsid) then stRing
  else if (s.live c.bHandle).isNone then stProgNotLoaded
  else if c.bTarget = 1 ∧ (s.ns c.sqe.nsid).isNone then stInvalidNs else stOk

/-- PROGRAM_BIND. -/
def State.progBind (s : State) (c : Cmd) : State :=
  if s.bindStatus c ≠ stOk then s.complete c.fsn (s.bindStatus c)
  else match s.live c.bHandle with
    | none => s.complete c.fsn stProgNotLoaded
    | some p =>
      if !s.bindOk c p then s.complete c.fsn stInvalidField
      else if s.bindTaken c then s.complete c.fsn stSequence
      else
        let b : Bind := { handle := c.bHandle, target := c.bTarget, nsid := c.sqe.nsid, scope := c.bScope }
        ((s.onPrg fun x => { x with binds := x.binds ++ [b] }).raiseOsvn p).complete c.fsn stOk

def execProgramBind (fsn : Nat) (s : State) : Out := progRow fsn 0xC4 (fun c s => if c.bUnbind then s else s.progBind c) s

/-- PROGRAM_UNBIND: UNBIND of a binding that does not exist is Invalid Field (R308). -/
def State.progUnbind (s : State) (c : Cmd) : State :=
  if s.bindStatus c ≠ stOk then s.complete c.fsn (s.bindStatus c)
  else
    let here := fun (b : Bind) => b.target == c.bTarget && b.handle == c.bHandle && b.nsid == c.sqe.nsid && (b.target == 1 || b.scope == c.bScope)
    if s.prg.binds.any here then (s.onPrg fun x => { x with binds := x.binds.filter (fun b => !here b) }).complete c.fsn stOk
    else s.complete c.fsn stInvalidField

def execProgramUnbind (fsn : Nat) (s : State) : Out := progRow fsn 0xC4 (fun c s => if c.bUnbind then s.progUnbind c else s) s

/-! ### Replace and Unload (R309 to R311) -/

/-- Entry kinds the bindings of a handle use. -/
def State.usedKinds (s : State) (h : Nat) : List Nat := (s.prg.binds.filter (fun b => b.handle == h)).map (fun b => bindEntry b.target)

/-- Zero a range of DRAM words. -/
def State.zeroPages (s : State) (off pages : Nat) : State :=
  ((s.memp.words.keys.map (· * 8)).filter fun a => locSpace a == 0 && decide (off ≤ locOff a) && decide (locOff a < off + 4096 * pages)).foldl
    (fun s a => s.storeWord a 0) s

/-- Base of the policy state in DRAM (Table 6.2). -/
def State.policyBase (s : State) : Nat := s.poolEnd

/-- PROGRAM_REPLACE (R303, R309, R310): the new image under the same handle; scans of lower FSN keep theirs; a hook's
image changes at the next frame boundary; a STATE window of the same size passes on, another is zeroed. -/
def State.progReplace (s : State) (c : Cmd) : State :=
  let h := c.sqe.cdw11
  let b := c.sqe.data.take c.sqe.cdw10
  if sglStatus c.sqe c.sqe.cdw10 ≠ stOk then s.complete c.fsn (sglStatus c.sqe c.sqe.cdw10)
  else if c.badLoad ∨ 65536 ≤ h ∨ h = 0 then s.complete c.fsn stInvalidField
  else if s.foreignProg c h then s.complete c.fsn stRing
  else match s.live h with
    | none => s.complete c.fsn stProgNotLoaded
    | some old =>
      match verdict (s.vIn c) b with
      | some e => s.rejectProg c.fsn e
      | none =>
        let p := s.newProg c b old.tid
        if p.ring ≠ old.ring ∨ (s.usedKinds h).any (fun k => (p.entry k).isNone) then s.complete c.fsn stInvalidField
        else
          let same := (p.wins.filter (fun w => w.1 == 3)).map (·.2.2) = (old.wins.filter (fun w => w.1 == 3)).map (·.2.2)
          let p : Prog := if same then { p with statePage := old.statePage } else p
          let s := if same then s else s.zeroPages (s.policyBase + 4096 * p.statePage) p.statePages
          let s := (s.takeStamp (uSvc 7)).onPrg fun x => { x with progs := x.progs.set none h (some p), pending := if x.pending.any (fun e => e.1 == h) then x.pending else (h, old) :: x.pending }
          (s.raiseOsvn p).complete c.fsn stOk h

def execProgramReplace (fsn : Nat) (s : State) : Out := progRow fsn 0xC5 (fun c s => s.progReplace c) s

/-- Hook replacements take effect at a frame boundary, when the old image of the handle goes: suspended bindings of the handle resume (R310, R320). -/
def State.replaceEffect (s : State) : State :=
  let hs := s.prg.pending.map (·.1)
  s.onPrg fun x => { x with pending := [], binds := x.binds.map fun b => if hs.contains b.handle then { b with susp := false, defaults := [] } else b }

/-- Scans of a handle, queued or running. -/
def State.scansOf (s : State) (h : Nat) : List Scan := s.prg.scans.filter (fun x => x.handle == h)

/-- PROGRAM_UNLOAD (R311). -/
def State.progUnload (s : State) (c : Cmd) : State :=
  let h := c.sqe.cdw10
  let force := c.sqe.cdw11.testBit 0
  if 65536 ≤ h ∨ h = 0 ∨ 2 ≤ c.sqe.cdw11 then s.complete c.fsn stInvalidField
  else if s.foreignProg c h then s.complete c.fsn stRing
  else if (s.live h).isNone then s.complete c.fsn stProgNotLoaded
  else if !force ∧ (s.prg.binds.any (fun b => b.handle == h) ∨ !(s.scansOf h).isEmpty) then s.complete c.fsn stSequence
  else
    let s := s.onPrg fun x => { x with binds := x.binds.filter (fun b => b.handle != h),
                                       progs := x.progs.upd none h fun o => o.map fun (p : Prog) => { p with draining := true } }
    let s := ((s.scansOf h).filter (fun x => !x.started && decide (c.fsn < x.fsn))).foldl (fun s x => s.failScan x stProgNotLoaded) s
    s.reap.complete c.fsn stOk

def execProgramUnload (fsn : Nat) (s : State) : Out := progRow fsn 0xC8 (fun c s => s.progUnload c) s

/-! ### Inventory (R312) -/

/-- Entry kinds in the order of Table 10.4. -/
def kindOrder : List Nat := [1, 2, 3, 0x10, 0x11, 0x12, 0x13, 0x14]

/-- STATE of an inventory record: 2 draining after Replace or FORCE, 1 bound, 0 loaded. -/
def State.progState (s : State) (h : Nat) (p : Prog) : Nat :=
  if p.draining ∨ (s.scansOf h).any (fun x => x.prog.stamp != p.stamp) then 2
  else if s.prg.binds.any (fun b => b.handle == h) then 1 else 0

/-- One record. -/
def State.progRec (s : State) (e : Nat × Prog) : List Byte :=
  let p := e.2
  leBytes 2 e.1 ++ leBytes 1 p.ring ++ leBytes 1 (s.progState e.1 p) ++ leBytes 2 p.tid ++ leBytes 2 p.stepmax ++ padTo 16 p.progid ++
  leBytes 4 p.version ++ leBytes 4 p.svn ++ leBytes 2 (s.prg.binds.filter (fun b => b.handle == e.1)).length ++
  leBytes 2 ((s.scansOf e.1).filter (·.resident)).length ++ leBytes 2 p.bound ++
  leBytes 1 (kindOrder.zipIdx.foldl (fun a k => if (p.entry k.1).isSome then a + 2 ^ k.2 else a) 0) ++ zeros 1 ++ leBytes 8 p.traps ++
  leBytes 8 p.stamp ++ zeros 8

/-- The programs a command's ring may see (R312), from a handle on. -/
def State.visible (s : State) (ringO : Bool) (tid frm : Nat) : List (Nat × Prog) :=
  s.loaded.filter fun e => decide (frm ≤ e.1) && (ringO || (e.2.ring == 2 && e.2.tid == tid))

/-- PROGRAM_INVENTORY_READ: the records that fit the transfer, and their number. -/
def State.inventory (s : State) (c : Cmd) : State :=
  let n := 4 * (c.sqe.cdw10 + 1)
  if 65536 ≤ c.sqe.cdw11 then s.complete c.fsn stInvalidField
  else if sglStatus c.sqe n ≠ stOk then s.complete c.fsn (sglStatus c.sqe n)
  else
    let rs := (s.visible c.ringO (s.cmdTid c) c.sqe.cdw11).map s.progRec
    s.complete c.fsn stOk (min rs.length (n / 64)) (rs.flatten.take n)

def execProgramInventoryRead (fsn : Nat) (s : State) : Out := adminRow fsn 0xCA (fun c s => s.inventory c) s

/-! ### Scans (R313 to R318) -/

/-- Descriptor range i (Table 10.10). -/
def scanRange (d : List Byte) (i : Nat) : Nat × Nat := (leAt d (64 + 16 * i) 8, leAt d (72 + 16 * i) 4)

/-- NRANGE, SLAB and ROOM of a descriptor. -/
def dNrange (d : List Byte) : Nat := leAt d 2 2
def dSlab (d : List Byte) : Nat := leAt d 4 1
def dRoom (d : List Byte) : Nat := leAt d 8 4

/-- A command field or descriptor field outside its range (R313, R314). -/
def Cmd.badScan (c : Cmd) : Bool :=
  let d := c.sqe.data
  let dlen := c.sqe.cdw10
  let rlen := c.sqe.cdw11
  decide (65536 ≤ dlen) || dlen != 64 + 16 * dNrange d || rlen % 8 != 0 || decide (rlen < 4096) || decide (8388608 < rlen + dlen) ||
  decide (65536 ≤ c.sqe.cdw12) || leAt d 0 2 != 1 || dNrange d == 0 || decide (256 < dNrange d) || decide (4 < dSlab d) || leAt d 5 3 != 0 ||
  dRoom d % 8 != 0 || decide (dRoom d < 8) || decide (65536 < dRoom d) || decide (rlen < 32 + dRoom d) || leAt d 12 4 != 0 ||
  ((List.range (dNrange d)).any fun i => leAt d (72 + 16 * i) 4 == 0 || leAt d (76 + 16 * i) 4 != 0)

/-- The UP FE with the fewest queued and resident scans, lowest index on a tie (R315); one that drowses wakes for the scan (R403). -/
def State.scanFe (s : State) : Nat :=
  let up := (List.range 16).filter fun f => s.unitState (uEng (eFE f)) == .up || s.unitState (uEng (eFE f)) == .drowse
  let n := fun (f : Nat) => (s.prg.scans.filter (fun x => x.fe == f)).length
  (up.foldl (fun (best : Option Nat) f => match best with
    | none => some f
    | some b => if n f < n b then some f else some b) none).getD 0

/-- A program command of lower FSN is still outstanding (R309). -/
def State.progBefore (s : State) (fsn : Nat) : Bool :=
  s.hif.cmds.any fun d => d.sq == 0 && decide (d.fsn < fsn) && [0xC1, 0xC4, 0xC5, 0xC8].contains d.sqe.opc

/-- SCAN (R297, R313 to R315): queued on an FE with the image its FSN gives it. -/
def State.scanRow (s : State) (fsn : Nat) : State :=
  match s.ioCmd fsn 0x83 with
  | none => s
  | some (c, n) =>
    if c.ph ≠ .fetched ∨ s.progBefore fsn ∨ s.behindWhole c then s
    else if c.badScan then s.complete fsn stInvalidField
    else
      let d := c.sqe.data
      let h := c.sqe.cdw12
      let rs := (List.range (dNrange d)).map (scanRange d)
      if s.foreignNs c c.sqe.nsid then s.complete fsn stRing
      else if rs.any (fun r => decide (n.nsze < r.1 + r.2)) then s.complete fsn stLbaRange
      else match s.live h with
        | none => s.complete fsn stProgNotLoaded
        | some p =>
          if !(s.prg.binds.any fun b => b.target == 1 && b.handle == h && b.nsid == c.sqe.nsid) then s.complete fsn stProgNotLoaded
          else if (p.ring = 1) ≠ c.ringO then s.complete fsn stRing
          else if s.noKey n then s.complete fsn stKeyUnavailable
          else
            let x : Scan := { fsn := fsn, fe := s.scanFe, handle := h, prog := p, nsid := c.sqe.nsid, slab := 4096 * 2 ^ dSlab d, room := dRoom d,
                              param := (List.range 6).map (fun i => leAt d (16 + 8 * i) 8), ranges := rs, rlen := c.sqe.cdw11,
                              stage := if (p.entry 1).isSome then 0 else 1 }
            (s.onPrg fun y => { y with scans := y.scans ++ [x] }).onCmd fsn fun y => { y with ph := .running }

def execScan (fsn : Nat) (s : State) : Out := .next (s.scanRow fsn)

/-- Regions of an FE in use (R315). -/
def State.feRegions (s : State) (fe : Nat) : List Nat := (s.prg.scans.filter (fun x => x.fe == fe && x.resident)).map (·.region)

/-- SCRATCH pages a tenant's resident scans hold. -/
def State.scratchHeld (s : State) (tid : Nat) : Nat :=
  (s.prg.scans.filter (fun x => x.resident && x.prog.tid == tid)).foldl (fun a x => a + x.scratch) 0

/-- First fit of SCRATCH pages: the lowest DRAM offset above every allocation that leaves room, and clear of withheld pages (R338). -/
def State.scratchFit (s : State) (pages : Nat) : Nat :=
  let held := (s.prg.scans.filter (fun x => x.resident && x.scratch != 0)).map fun x => (x.scrBase, x.scrBase + 4096 * x.scratch)
  let held := held ++ s.memp.withheld.map fun p => (4096 * p, 4096 * p + 4096)
  let starts := s.scratchBase :: (held.map (·.2)).filter (fun a => decide (s.scratchBase ≤ a))
  (starts.filter (fun a => held.all fun h => decide (h.2 ≤ a) || decide (a + 4096 * pages ≤ h.1))).foldl min (starts.foldl max 0)

/-- The allocator's top: the fitted size, and while an evacuation clears it the top to be (R348, R365). -/
def State.scratchTop (s : State) : Nat := if s.dram.evac.isSome then (s.dram.active.length - 1) * s.subBytes else s.dramSize

/-- The engine memory words of a region zeroed (R321). -/
def State.zeroRegion (s : State) (fe r : Nat) : State :=
  let u := uEng (eFE fe)
  ((s.memp.words.keys.map (· * 8)).filter fun a => locSpace a == 1 && locUnit a == u && decide (regionBase r ≤ locOff a) &&
    decide (locOff a < regionBase r + 49152)).foldl (fun s a => s.storeWord a 0) s

/-- Offset of a LOCAL window in its region: after CODE, page by page in window order. -/
def Prog.localOff (p : Prog) (n : Nat) : Nat := cdiv p.code.length 4096 * 4096 + 4096 * localPages (p.wins.take n)

/-- Write bytes as whole words at a local memory offset. -/
def State.loadBytes (s : State) (fe off : Nat) (d : List Byte) : State := s.memFill (sramLoc (uEng (eFE fe)) off) d (cdiv d.length 8)

/-- SCAN_RESIDENT (R125, R315, R321): in queue order, once a region is free and its SCRATCH pages fit the tenant's quota; queued scans
wait while their FE is being swapped, and where no space is free for them. -/
def State.scanResident (s : State) (fsn : Nat) : State :=
  match s.scanOf fsn with
  | none => s
  | some c =>
    let first := (s.prg.scans.filter (fun x => x.fe == c.fe && !x.resident)).head?
    let pages := c.prog.scratchPages
    match ((List.range 4).find? fun r => !(s.feRegions c.fe).contains r) with
    | none => s
    | some r =>
      if c.resident ∨ (first.map (·.fsn)) ≠ some fsn ∨ s.unitState (uEng (eFE c.fe)) ≠ .up ∨ s.swapping (eFE c.fe) ∨
          s.getF F.PRG_TQUOTA_PAGES < s.scratchHeld c.prog.tid + pages ∨ s.scratchTop < s.scratchFit pages + 4096 * pages then s
      else
        let base := s.scratchFit pages
        let s := (s.zeroRegion c.fe r).zeroPages base pages
        let s := s.loadBytes c.fe (regionBase r) c.prog.code
        let s := match c.prog.wins.findIdx? (fun w => w.1 == 1) with
          | some n => s.loadBytes c.fe (regionBase r + c.prog.localOff n) c.prog.data
          | none => s
        s.onScan fsn fun x => { x with resident := true, region := r, scratch := pages, scrBase := base }

def execScanResident (fsn : Nat) (s : State) : Out := .next (s.scanResident fsn)

/-- WINn of a scan's window n (R298, Table 9.15): BASE [63:36], LEN [35:8] in pages, W, R, VALID. -/
def Scan.win (c : Scan) (n : Nat) : Nat :=
  match c.prog.wins[n]? with
  | some (use, rights, pages) =>
    if use = 0 then 0
    else
      let before := (c.prog.wins.take n).foldl (fun a w => if w.1 = 2 then a + w.2.2 else a) 0
      let base := if use = 1 then 2 ^ 20 + (regionBase c.region + c.prog.localOff n) / 4096 else 2 ^ 26 + c.scrBase / 4096 + before
      base % 2 ^ 28 * 2 ^ 36 + pages * 256 + b2n (rights.testBit 1) * 4 + b2n (rights.testBit 0) * 2 + 1
  | none => 0

/-- Blocks of the next slab: within its range, at most SLAB bytes (R314). -/
def Scan.slabBlocks (c : Scan) : Nat := min (c.slab / 4096) ((c.ranges.getD c.rng (0, 0)).2 - c.blk)

/-- The slab after this one. -/
def Scan.advance (c : Scan) : Scan :=
  let blk := c.blk + c.slabBlocks
  if (c.ranges.getD c.rng (0, 0)).2 ≤ blk then { c with rng := c.rng + 1, blk := 0 } else { c with blk := blk }

/-- The entry a scan's next step begins at. -/
def Scan.bindEntryf (c : Scan) : Nat := (c.prog.entry (c.stage + 1)).getD 0

/-- Enter a step of a scan on its FE with an input (R298, R316, R321). -/
def State.enterStep (s : State) (c : Scan) (inp : List Byte) (att last : Bool) : State :=
  let e := eFE c.fe
  let w := if c.started then c.w else (c.param.zipIdx.foldl (fun (m : SMap W64) p => m.set 0 (p.2 + 1) (BitVec.ofNat 64 p.1)) {})
  let base := regionBase c.region
  (s.onEng e fun g =>
    { g with ring := c.prog.ring, tid := c.prog.tid, frame := s.time.frame, budget := c.prog.stepmax, stepmax := c.prog.stepmax, pring := c.prog.ring,
             wins := (List.range 8).foldl (fun m n => m.set 0 n (c.win n)) {}, codeb := base, codel := c.prog.code.length,
             pw := w, p0 := c.l0, p1 := c.l1, u := c.u, ppc := base + c.bindEntryf, vxfers := g.xfers, xfers := [],
             inp := inp, inBad := [], inAtt := att, inLast := last, strpos := c.pos, outAtt := true, room := c.room, outp := [],
             scan := some c.fsn }).onScan c.fsn fun x => { x with started := true }

/-- The steps that wait at an FE's arbiter: one for each resident scan that is not cancelled (R47, R54). -/
def State.stepReqs (s : State) (fe : Nat) : List Rq :=
  (s.prg.scans.filter fun x => x.fe == fe && x.resident && x.cancel.isNone).map fun x => { cls := 3, tid := x.prog.tid, fsn := x.fsn, urg := 0, stamp := x.fsn, id := x.fsn }

/-- The maximal step (Table 2.4). -/
def engMax : Nat := 12000

/-- The scan's step is the one its FE's arbiter picks (R47, R54, R68). -/
def State.stepPicked (s : State) (c : Scan) : Bool :=
  ((s.sched.pick (arbEng (eFE c.fe)) 3 engMax (s.stepReqs c.fe)).map (·.id)) == some c.fsn

/-- SCAN_STEP (R68, R315 to R318): the next INIT, SLAB or FINAL step of a resident scan, when its FE is free, its arbiter picks it and
its bound fits the frame. `lost` and `crc` name the blocks of the slab, counted from its first, that cannot be read. -/
def State.scanStep (s : State) (fsn : Nat) (lost crc : List Nat) : State :=
  match s.scanOf fsn with
  | some c =>
    let e := eFE c.fe
    let space := c.rlen - 32 - c.result.length
    if !c.resident ∨ s.unitState (uEng e) ≠ .up ∨ s.swapping e ∨ (s.eng e).ring ≠ 0 ∨ (s.eng e).scan.isSome then s
    else if c.cancel.isSome then s.endScan c 3 0 0 c.pos
    else if space < c.room then s.endScan c 2 0 0 (if c.stage = 2 then c.length else c.pos)
    else if !s.stepPicked c ∨ s.cycLeft e < c.prog.needCyc then s
    else if c.stage = 1 then
      match s.ns c.nsid with
      | none => s.failScan c stInvalidNs
      | some n =>
        if s.noKey n then s.failScan c stKeyUnavailable
        else
          let r := c.ranges.getD c.rng (0, 0)
          let keys := (List.range c.slabBlocks).map fun i => n.key (r.1 + c.blk + i)
          let s := (s.lookAt (arbEng e) (s.stepReqs c.fe)).walkAll keys
          if !s.pagesOk keys then s else
          match s.readRange n c.nsid fsn lost crc (r.1 + c.blk) 0 (s.seenRange n c.nsid (r.1 + c.blk) c.slabBlocks) with
          | (.fails st, s') => if st = stKeyUnavailable then s'.failScan c st else s'.endScan c 5 0 0 c.pos
          | (.data d, s') =>
            let plainD := (List.range c.slabBlocks).flatMap fun i => (d.drop (i * n.blockBytes)).take 4096
            let c' := c.advance
            let s := s'.onScan fsn fun x => { x with rng := c'.rng, blk := c'.blk }
            s.enterStep c plainD true (decide (c.ranges.length ≤ c'.rng))
    else (s.lookAt (arbEng e) (s.stepReqs c.fe)).enterStep c [] false false
  | none => s

def execScanStep (fsn : Nat) (lost crc : List Nat) (s : State) : Out := .next (s.scanStep fsn lost crc)

/-- The scan a Cancel names: submission queue and command identifier on the issuing controller (R318). -/
def State.cancelTarget (s : State) (c : Cmd) : Option Scan :=
  match s.hif.cmds.find? (fun d => d.fn == c.fn && d.sq == c.sqe.cdw10 % 65536 && d.sqe.cid == c.sqe.cdw11 % 65536 && d.sq != 0 && d.sqe.opc == 0x83) with
  | some d => s.scanOf d.fsn
  | none => none

/-- SCAN_CANCEL (R318): takes effect at the scan's next step boundary, at once when no step of it runs; DW0 1 for a scan
it cannot find. -/
def State.scanCancel (s : State) (fsn : Nat) : State :=
  match s.cmd fsn with
  | none => s
  | some c =>
    if c.sq = 0 ∨ c.sqe.opc ≠ 0x84 ∨ c.ph ≠ .fetched then s
    else match s.cancelTarget c with
      | none => s.complete fsn stOk 1
      | some x =>
        if x.cancel.isSome then s.complete fsn stOk 1
        else if (s.eng (eFE x.fe)).scan = some x.fsn then
          (s.onScan x.fsn fun y => { y with cancel := some fsn }).onCmd fsn fun y => { y with ph := .running }
        else s.endScan { x with cancel := some fsn } 3 0 0 x.pos

def execScanCancel (fsn : Nat) (s : State) : Out := .next (s.scanCancel fsn)

/-! ### Hooks (R319, R320) -/

/-- The lowest-index UP HE. -/
def State.firstHe (s : State) : Option Nat := (List.range 12).find? fun n => s.unitState (uEng n) == .up

/-- Apply the weights of a QOS result: each non-zero one through FRM_LED_CFG.WEIGHT, in force a frame later (R57,
R320). -/
def State.applyWeights (s : State) (ws : List (Nat × Nat)) : State :=
  s.onSched fun c => { c with pendW := (ws.filter (fun w => w.2 % 65536 != 0 && decide (w.1 < 4096))).foldl (fun m w => m.set none w.1 (some (w.2 % 65536, 1))) c.pendW }

/-- Window 7 of the QOS hook (Table 10.12): for each tenant its weight, its backlog bits and its host DMA VT above VMIN, saturating. -/
def State.qosInput (s : State) : List Byte :=
  (List.range 4096).flatMap fun t =>
    let l := s.sched.ledger.get {} t
    let vt := s.sched.vt t 1
    let vmin := s.sched.vmin.get 0 1
    leBytes 2 l.weight ++ leBytes 1 ((List.range 4).foldl (fun a r => a + b2n (s.readyTenants.contains (t, r)) * 2 ^ r) 0) ++ zeros 1 ++
      leBytes 4 (if vtLt vt vmin then 0 else sat32 ((vt + (2 ^ 64 - vmin)) % 2 ^ 64))

/-- QOS_HOOK (R68, R69, R319, R320): at the end of a period the bound hook runs, once its step fits the HE's frame; `res` is its result
with the weights it wrote (none: it trapped). The next period takes QOS_PER as it stands (R323). -/
def State.qosHook (s : State) (res : Option (Nat × List (Nat × Nat))) : State :=
  if s.time.frame < s.prg.qosStart + 1024 * s.prg.qosPer ∨ !s.hookFits 4 0 then s
  else
    let s := s.hookRan 4 0 [] s.qosInput
    let s := s.onPrg fun p => { p with qosStart := s.time.frame, qosPer := s.getF F.PRG_CFG_QOS_PER }
    match (s.prg.binds.find? fun b => b.target == 0x14 && !b.susp), s.firstHe with
    | some b, some _ =>
      match res with
      | some (0, ws) => s.applyWeights ws
      | some _ => s
      | none => s.hookTrap b 0
    | _, _ => s

def execQosHook (res : Option (Nat × List (Nat × Nat))) (s : State) : Out := .next (s.qosHook res)

/-- HOOK_DEADLINE_MISS (R320): the bound hook takes its default; LATE and REPL, an F1 event of the program. -/
def State.hookMiss (s : State) (h q : Nat) : State :=
  match s.hookBind h q with
  | some b => (s.raiseEvt F.PRG_EVT_LATE F.PRG_EVT_CNT1_LATE_CNT).replacedChoice q b.handle
  | none => s

def execHookDeadlineMiss (hook q : Nat) (s : State) : Out := .next (s.hookMiss hook q)

end Sys2Proof.Machine
end

