-- ==== Sys2Proof/Machine/Dram.lean ====
section
/-! DEFINITION. The DRAM controller: address mapping, QoS ports, refresh, self-refresh, set points, tracking,
post-package repair and evacuation (chapter 12; R347 to R368). -/
namespace Sys2Proof.Machine

/-! ### Address mapping (R349) -/

/-- Ranks of a subchannel, and whether its devices are of 32 Gbit. -/
def State.ranks (s : State) : Nat := s.getF F.DRC_SC_CFG_RANKS

/-- A subchannel. -/
def State.sub (s : State) (n : Nat) : Sub := s.dram.subs.get {} n

/-- Change a subchannel. -/
def State.onSub (s : State) (n : Nat) (f : Sub → Sub) : State := s.onDram fun d => { d with subs := d.subs.upd {} n f }

/-- Local offset in a subchannel of an offset, over n ways of grain 2^g. -/
def localOf (off n g : Nat) : Nat := off / 2 ^ g / max 1 n * 2 ^ g + off % 2 ^ g

/-- Where a local offset lies: rank, bank group, bank, row, line (R349). -/
def bankOf (l ranks rowkey rowbits : Nat) : Nat × Nat × Nat × Nat × Nat :=
  let rank := if ranks = 2 then l / 2 ^ 18 % 2 else 0
  let rowraw := if ranks = 2 then l / 2 ^ 19 else l / 2 ^ 18
  let row := rowraw ^^^ (rowkey % 2 ^ rowbits)
  (rank, (l / 2 ^ 13 % 8) ^^^ (row % 8), (l / 2 ^ 16 % 4) ^^^ (row / 8 % 4), row, l / 64 % 128)

/-- The local offset of an offset in its subchannel, by the mapping in use for its chunk (R349, R366). -/
def State.localNow (s : State) (off : Nat) : Nat :=
  let n := s.dram.active.length
  let moved := match s.dram.evac with
    | some e => decide (e.phase = 2) && decide ((n - 1) * (n - 2) + e.left ≤ off / 2 ^ s.dram.grain)
    | none => false
  localOf off (if moved then n - 1 else n) s.dram.grain

/-- Rank, bank group, bank, row and line of an offset in its subchannel. -/
def State.bankNow (s : State) (off : Nat) : Nat × Nat × Nat × Nat × Nat :=
  bankOf (s.localNow off) s.ranks s.dram.rowkey (if s.getF F.DRC_SC_CFG_DENSITY = 1 then 17 else 16)

/-- The rank an offset lies on. -/
def State.rankOf (s : State) (off : Nat) : Nat := (s.bankNow off).1

/-- The bank of its rank that an offset lies on. -/
def State.bankIx (s : State) (off : Nat) : Nat := (s.bankNow off).2.1 * 4 + (s.bankNow off).2.2.1

/-! ### QoS ports (R353, R354) -/

/-- TARGET and SHARE of a port at reset (Table 12.3). -/
def qosReset : Nat → Nat × Nat
  | 0 => (400, 64) | 1 => (1000, 32) | 2 => (800, 32) | 3 => (800, 32) | 4 => (4000, 24) | 5 => (2000, 16)
  | 6 => (20000, 24) | 7 => (4000, 16) | 8 => (50000, 8) | 9 => (100000, 4) | 10 => (50000, 4) | _ => (10000, 4)

/-- The TARGET and SHARE fields of a port, with its reset values. -/
def qosTarget (p : Nat) : Fld := { F.DRC_QOS_TGT_TARGET with reset := (qosReset p).1 }
def qosShare (p : Nat) : Fld := { F.DRC_QOS_TGT_SHARE with reset := (qosReset p).2 }

/-- Urgency of an age against a target (R353). -/
def qosUrg (age target : Nat) : Nat := if target ≤ age then 3 else if 3 * target ≤ 4 * age then 2 else if target ≤ 2 * age then 1 else 0

/-- Time passes for a queued request: its urgency rises, and reaching 3 counts in its port's LATE (R353, R354). -/
def DReq.aged (r : DReq) (ns : Nat) : DReq :=
  { r with age := r.age + ns, urg := max r.urg (qosUrg (r.age + ns) r.target) }

/-- Requests age. -/
def State.ageReqs (s : State) (ns : Nat) : State :=
  let s := s.dram.reqs.foldl (fun s r => if r.urg < 3 ∧ (r.aged ns).urg = 3 then s.bump F.DRC_QOS_LATE_LATE r.port else s) s
  s.onDram fun d => { d with reqs := d.reqs.map (fun (r : DReq) => r.aged ns) }

/-- Requests of a port. -/
def State.portReqs (s : State) (p : Nat) : List DReq := s.dram.reqs.filter (fun r => r.port == p)

/-- Urgency of a port (R353). -/
def State.portUrg (s : State) (p : Nat) : Nat :=
  (s.portReqs p).foldl (fun a r => max a r.urg) (s.getF F.DRC_QOS_TGT_FLOOR p)

/-- Virtual time of a port. -/
def State.portVt (s : State) (p : Nat) : Nat := s.dram.vt.get 0 p

/-- A port that has gone idle returns at the lowest virtual time among the busy ports (R353). -/
def State.portReturns (s : State) (p : Nat) : State :=
  let busy := (List.range 12).filter (fun q => q != p && !(s.portReqs q).isEmpty)
  match busy with
  | [] => s
  | q :: t =>
    if (s.portReqs p).isEmpty then
      let lo := t.foldl (fun m x => if vtLt (s.portVt x) m then s.portVt x else m) (s.portVt q)
      s.onDram fun d => { d with vt := d.vt.set 0 p (vtMax (d.vt.get 0 p) lo) }
    else s

/-- The subchannel serves requests: it fills, is up, or is being evacuated (Table 12.6). -/
def Sub.serves (x : Sub) : Bool := x.phase == 3 || x.phase == 4 || x.phase == 6

/-- A request enters its port (R353): its target is the one in force as it arrives (R354); a subchannel in self-refresh
on idle leaves it (R357). A write of part of a line is given as no whole line, and is charged as two (R352). -/
def State.dramEnter (s : State) (port off lines tid : Nat) : State :=
  if 12 ≤ port ∨ s.dramSize ≤ off then s
  else
    let n := s.subOf off
    let s := s.portReturns port
    let s := s.onSub n fun x => { x with idle := 0, phase := if x.phase = 5 ∧ s.pwr.cur ≠ 4 then 4 else x.phase }
    let r : DReq := { port := port, sub := n, rank := s.rankOf off, bank := s.bankIx off, line := off / 64, lines := if lines = 0 then 2 else lines, tid := tid, target := s.getF (qosTarget port) port }
    s.onDram fun d => { d with reqs := d.reqs ++ [r] }

/-- No older request to the same line waits, from whatever port (R351): requests stand in the order of their arrival. -/
def State.lineFirst (s : State) (r : DReq) : Bool := (s.dram.reqs.find? (fun x => x.line == r.line)) == some r

/-- The request of a port that an issue slot of a subchannel takes (R353): its oldest of the highest urgency; in port 4
that of the tenant with the lowest engine-cycle VT. -/
def State.pickReq (s : State) (n p : Nat) : Option DReq :=
  ((s.portReqs p).filter (fun r => r.sub == n && s.lineFirst r)).foldl (fun (best : Option DReq) r => match best with
    | none => some r
    | some b =>
      if p = 4 then (if vtLt (s.sched.vtNow arbDram r.tid 3) (s.sched.vtNow arbDram b.tid 3) then some r else some b)
      else if b.urg < r.urg ∨ (b.urg = r.urg ∧ b.age < r.age) then some r else some b) none

/-- An issue slot of a subchannel (R353): the port of highest urgency, then the lowest virtual time; it is charged
lines × 65,536 ÷ SHARE. A subchannel that is not up serves none. -/
def State.dramSlot (s : State) (n : Nat) : State :=
  if !(s.sub n).serves then s
  else
    let ready := (List.range 12).filter (fun p => (s.pickReq n p).isSome)
    let best := ready.foldl (fun (b : Option Nat) p => match b with
      | none => some p
      | some q => if s.portUrg q < s.portUrg p ∨ (s.portUrg q = s.portUrg p ∧ vtLt (s.portVt p) (s.portVt q)) then some p else some q) none
    match best.bind (fun p => (s.pickReq n p).map (fun r => (p, r))) with
    | none => s
    | some (p, r) => s.onDram fun d => { d with
        reqs := d.reqs.erase r
        vt := d.vt.upd 0 p fun v => (v + cdiv (r.lines * 65536) (max 1 (s.getF (qosShare p) p))) % 2 ^ 64 }

/-- A request of urgency 2 or 3 waits for a rank. -/
def State.urgentAt (s : State) (n rank : Nat) : Bool :=
  s.dram.reqs.any fun r => r.sub == n && r.rank == rank && decide (2 ≤ r.urg)

/-- Whenever no request of urgency 2 or 3 waits for a rank, the refreshes it owes are issued (R356). -/
def State.repay (s : State) (n : Nat) : State :=
  s.onSub n fun x => { x with owed0 := if s.urgentAt n 0 then x.owed0 else 0, owed1 := if s.urgentAt n 1 then x.owed1 else 0 }

/-- DRAM_REQUEST (R353, R354): `ns` pass for the queued requests, a request (port, offset, lines, tenant) may enter, and
a subchannel may have an issue slot. -/
def State.dramRequest (s : State) (ns : Nat) (req : Option (Nat × Nat × Nat × Nat)) (slot : Option Nat) : State :=
  let s := s.ageReqs ns
  let s := match req with | some (p, off, l, t) => s.dramEnter p off l t | none => s
  match slot with | some n => (s.dramSlot n).repay n | none => s

def execDramRequest (ns : Nat) (req : Option (Nat × Nat × Nat × Nat)) (slot : Option Nat) (s : State) : Out :=
  .next (s.dramRequest ns req slot)

/-! ### Refresh (R355, R356) -/

/-- Refreshes owed by a rank. -/
def Sub.owed (x : Sub) (rank : Nat) : Nat := if rank = 0 then x.owed0 else x.owed1

/-- Set the refreshes owed by a rank. -/
def Sub.setOwed (x : Sub) (rank v : Nat) : Sub := if rank = 0 then { x with owed0 := v } else { x with owed1 := v }

/-- DRAM_REFRESH (R356): a refresh falls due on a rank. -/
def State.refreshDue (s : State) (n rank : Nat) : State :=
  if !(s.sub n).serves then s
  else if !s.urgentAt n rank then s.onSub n fun x => x.setOwed rank 0
  else if 8 ≤ (s.sub n).owed rank then
    (s.raiseEvt F.DRC_SC_EVT_REF_FORCE F.DRC_SC_EVT_CNT0_FORCE_CNT n).raiseFault 0x0005 (uDram n)
  else if s.flag F.DRC_CFG_POSTPONE then s.onSub n fun x => x.setOwed rank (x.owed rank + 1)
  else s

def execDramRefresh (sub rank : Nat) (s : State) : Out :=
  .next (if sub < 8 then s.refreshDue sub rank else s)

/-- MR4_READ (R355): the refresh interval is halved above 85 degrees C. -/
def execMr4Read (sub : Nat) (hot : Bool) (s : State) : Out :=
  .next (if sub < 8 then s.onSub sub fun x => { x with hot := hot } else s)

/-! ### Self-refresh (R357) -/

/-- A subchannel repays its refreshes and enters self-refresh. -/
def Sub.sleep (x : Sub) : Sub := { x with owed0 := 0, owed1 := 0, phase := 5 }

/-- SELF_REFRESH_ENTRY (R357): idle for SR_IDLE frames, with no request queued. -/
def State.selfRefresh (s : State) (n : Nat) : State :=
  let k := s.getF F.DRC_CFG_SR_IDLE
  if (s.sub n).phase = 4 ∧ 0 < k ∧ k ≤ (s.sub n).idle ∧ !(s.dram.reqs.any fun r => r.sub == n) then s.onSub n Sub.sleep else s

def execSelfRefreshEntry (sub : Nat) (s : State) : Out :=
  .next (if sub < 8 then s.selfRefresh sub else s)

/-- PS4 is entered: every subchannel of the interleave enters self-refresh (R357). -/
def State.dramSleep (s : State) : State := s.dram.active.foldl (fun s n => s.onSub n Sub.sleep) s

/-- Set a set point on every subchannel of the interleave (R361). -/
def State.useFsp (s : State) (t : Nat) : State :=
  (s.dram.active.foldl (fun s n => s.onSub n fun x => { x with fsp := t, owed0 := 0, owed1 := 0 }) s).onDram fun d => { d with fsp := t, want := none }

/-- PS4 is left: DRAM leaves self-refresh at the set point last requested (R357). -/
def State.dramWake (s : State) : State :=
  let s := s.dram.active.foldl (fun s n => s.onSub n fun x =>
    { x with phase := if (s.dram.evac.map (·.sub)) = some n then 6 else if s.time.ms < x.filledAt then 3 else 4, idle := 0 }) s
  match s.dram.want with | some t => s.useFsp t | none => s

/-! ### Set points (R361) -/

/-- FSP_DONE. -/
def State.fspDone (s : State) : State := s.raiseEvt F.DRC_EVT_FSP_DONE F.DRC_EVT_CNT0_FSP_CNT

/-- SET_POINT_REQUEST: a request for the set point in force only raises FSP_DONE; one for FSP0 that did not pass is
dropped; another replaces a pending one. -/
def State.fspRequest (s : State) (t : Nat) : State :=
  if t = s.dram.fsp then (s.onDram fun d => { d with want := none }).fspDone
  else if t = 0 ∧ !s.dram.fsp0ok then s
  else s.onDram fun d => { d with want := some t }

def execSetPointRequest (val : W32) (s : State) : Out := .next (s.fspRequest (val.toNat % 2))

/-- SET_POINT_CHANGE: the request is taken up when no subchannel sweeps and DRAM is not in self-refresh for PS4. -/
def State.fspChange (s : State) : State :=
  match s.dram.want with
  | some t => if s.pwr.cur = 4 then s else (s.useFsp t).fspDone
  | none => s

def execSetPointChange (s : State) : Out := .next s.fspChange

/-! ### Tracking (R362) -/

/-- One step toward a centre, within 0 to 255. -/
def stepTo (v c : Nat) : Nat := if v < c then min 255 (v + 1) else if c < v then v - 1 else v

/-- The difference of two delays. -/
def apart (a b : Nat) : Nat := (a - b) + (b - a)

/-- Track one strobe toward its measured centres (write, read); true where a delay has just moved beyond MAX. -/
def Sub.track (x : Sub) (max k wr rd : Nat) : Bool × Sub :=
  let (ww, wd, rw, rdl) := x.eyes.get (0, 0, 0, 0) k
  let (cw, cr) := x.centre.get (0, 0) k
  let wd' := stepTo wd wr
  let rd' := stepTo rdl rd
  ((decide (max < apart wd' cw) && decide (apart wd cw ≤ max)) || (decide (max < apart rd' cr) && decide (apart rdl cr ≤ max)),
   { x with eyes := x.eyes.set (0, 0, 0, 0) k (ww, wd', rw, rd') })

/-- DRAM_TRACKING (R362): the measured centres of the strobes in order, write and read; a drift beyond MAX raises TRACK
as an F1 event of the subchannel. -/
def State.tracking (s : State) (n : Nat) (centres : List (Nat × Nat)) : State :=
  let fsp := (s.sub n).fsp
  let mx := s.getF F.DRC_TRACK_MAX
  (centres.zip (List.range 10)).foldl (fun s c =>
    let r := (s.sub n).track mx (fsp * 16 + c.2) c.1.1 c.1.2
    let s := s.onSub n fun _ => r.2
    if r.1 then (s.raiseEvt F.DRC_SC_EVT_TRACK F.DRC_SC_EVT_CNT0_TRACK_CNT n).raiseFault 0x010A (uDram n) c.2 else s) s

def execDramTracking (sub : Nat) (centres : List (Nat × Nat)) (s : State) : Out :=
  .next (if sub < 8 then s.tracking sub centres else s)

/-! ### Post-package repair (R363) -/

/-- The listed words of the row that holds a word. -/
def State.rowWords (s : State) (a : Nat) : List Nat :=
  let at_ := fun o => let b := s.bankNow o; (s.subOf o, b.1, b.2.1, b.2.2.1, b.2.2.2.1)
  (s.memp.words.keys.map (· * 8)).filter fun w => locSpace w == 0 && at_ (locOff w) == at_ (locOff a)

/-- The bank of a word is at its quiesce: its rank owes no refresh, and no request of urgency 2 or 3 waits for the bank (R363). -/
def State.bankQuiet (s : State) (a : Nat) : Bool :=
  let n := s.subOf (locOff a)
  (s.sub n).owed (s.rankOf (locOff a)) == 0 &&
  !(s.dram.reqs.any fun r => r.sub == n && r.rank == s.rankOf (locOff a) && r.bank == s.bankIx (locOff a) && decide (2 ≤ r.urg))

/-- POST_PACKAGE_REPAIR (R338, R363): the oldest row sent for repair, at its bank's quiesce, is read with its words corrected, repaired
and written back, and its page returns to the allocator; `ok`: the device had a resource, else the page stays withheld. A device
declared failed is not repaired. -/
def State.ppr (s : State) (ok : Bool) : State :=
  match s.dram.repairs with
  | [] => s
  | a :: t =>
    let n := s.subOf (locOff a)
    let drop := s.onDram fun d => { d with repairs := t }
    if s.memp.failed.get 0 n ≠ 0 then drop
    else if !s.bankQuiet a then s
    else if ok then
      let s := (s.rowWords a).foldl (fun s w => match s.wordCls w with | .corr _ _ f => s.storeWord w f | _ => s) drop
      let s := s.onMemp fun m => { m with withheld := m.withheld.filter (· != a / 4096) }
      ((s.onSub n fun x => { x with ppr := min 255 (x.ppr + 1) }).onDram fun d => { d with repaired := d.repaired ++ [a] }).raiseEvt
        F.DRC_SC_EVT_PPR_DONE F.DRC_SC_EVT_CNT1_PDONE_CNT n
    else (drop.raiseEvt F.DRC_SC_EVT_PPR_FAIL F.DRC_SC_EVT_CNT1_PFAIL_CNT n).raiseFault 0x010B (uDram n) a

def execPostPackageRepair (ok : Bool) (s : State) : Out := .next (s.ppr ok)

/-! ### Evacuation (R364 to R367) -/

/-- The regions of Table 6.2 at their minimums fit in a size (R173, R364); the fine pool is as set at format. -/
def State.regionsFit (s : State) (size : Nat) : Bool := decide (s.scratchBase + 2 ^ 32 ≤ size)

/-- The new top T. -/
def State.evacTop (s : State) : Nat := (s.dram.active.length - 1) * s.subBytes

/-- The code an evacuation of a subchannel starts with (R364): 1 when it starts. -/
def State.evacJudge (s : State) (sub : Nat) : Nat :=
  if s.dram.evac.isSome then 6 else if !s.dram.active.contains sub then 5 else if s.dram.active.length ≤ 5 then 4
  else if !s.regionsFit s.evacTop then 3 else 1

/-- An evacuation starts, or is refused with its code (R364); it is recorded in MRAM. -/
def State.evacStart (s : State) (sub : Nat) : State :=
  let c := s.evacJudge sub
  let s := s.onDram fun d => { d with evacCode := c }
  if c = 1 then (s.onDram fun d => { d with evac := some { sub := sub }, evacRec := some sub }).onSub sub fun x => { x with phase := 6 } else s

/-- EVACUATION_START: a write of DRC_EVAC, or with none the controller's own start, which waits for a running one. -/
def State.evacRow (s : State) (val : Option W32) : State :=
  match val with
  | some v =>
    let s := s.setF F.DRC_EVAC_SUB (v.toNat % 8)
    if bitOf v.toNat 31 then s.evacStart (v.toNat % 8) else s
  | none => match s.dram.evacWait with
    | some n => if s.dram.evac.isSome then s else (s.onDram fun d => { d with evacWait := none }).evacStart n
    | none => s

def execEvacuationStart (val : Option W32) (s : State) : Out := .next (s.evacRow val)

/-- The words of a window moved down by whole pages. -/
def State.moveWords (s : State) (src dst len : Nat) : State :=
  if src = dst then s
  else
    let here := s.memp.words.items.filter (fun e => decide (src ≤ 8 * e.1) && decide (8 * e.1 < src + len))
    s.onMemp fun m => { m with words := here.foldl (fun w e => w.set 0 (e.1 - src / 8 + dst / 8) e.2) (m.words.keepKV fun k _ => !(decide (src ≤ 8 * k) && decide (8 * k < src + len))) }

/-- A resident scan's SCRATCH at or above T moves below it (R365); none where no space below T is free. -/
def State.moveScratch (s : State) (top fsn : Nat) : Option State :=
  match s.prg.scans.find? (fun x => x.fsn == fsn) with
  | none => some s
  | some x =>
    if x.scrBase + 4096 * x.scratch ≤ top then some s
    else
      let s0 := s.onPrg fun p => { p with scans := p.scans.map fun y => if y.fsn = fsn then { y with scratch := 0 } else y }
      let a := s0.scratchFit x.scratch
      if top < a + 4096 * x.scratch then none
      else some ((s0.moveWords x.scrBase a (4096 * x.scratch)).onPrg fun p =>
        { p with scans := p.scans.map fun y => if y.fsn = fsn then { y with scratch := x.scratch, scrBase := a } else y })

/-- Every allocation at or above T moves below it (R365). -/
def State.clearTop (s : State) (top : Nat) : Option State :=
  ((s.prg.scans.filter (fun x => x.resident && x.scratch != 0)).map (·.fsn)).foldl (fun (o : Option State) f => o.bind fun t => t.moveScratch top f) (some s)

/-- A step runs whose program has a window at or above T: it is moved between the program's steps (R365). -/
def State.topBusy (s : State) (top : Nat) : Bool :=
  s.prg.scans.any fun x => x.resident && decide (top < x.scrBase + 4096 * x.scratch) && decide ((s.eng (eFE x.fe)).scan = some x.fsn)

/-- EVACUATION_FIRST_PHASE_END (R365): the top is clear and the copy starts from chunk T ÷ G − 1; or there is no space,
and the evacuation ends with its record removed. -/
def State.evacFirst (s : State) : State :=
  match s.dram.evac with
  | some e =>
    if e.phase ≠ 1 ∨ s.topBusy s.evacTop then s
    else
      let n := s.dram.active.length
      match s.clearTop s.evacTop with
      | some t => t.onDram fun d => { d with evac := some { e with phase := 2, left := s.evacTop / 2 ^ s.dram.grain - (n - 1) * (n - 2) } }
      | none => (s.onDram fun d => { d with evac := none, evacRec := none, evacCode := 3 }).onSub e.sub fun x => { x with phase := 4 }
  | none => s

def execEvacuationFirstPhaseEnd (s : State) : Out := .next s.evacFirst

/-- Chunks the copier moves in a frame: 8 GB/s (R366). -/
def State.evacRate (s : State) : Nat := max 1 (64000 / 2 ^ s.dram.grain)

/-- The copier's work in one frame (R366). -/
def State.evacTick (s : State) : State :=
  match s.dram.evac with
  | some e => if e.phase = 2 then s.onDram fun d => { d with evac := some { e with left := e.left - s.evacRate } } else s
  | none => s

/-- EVAC_DONE (R367): the last staged chunk is written. -/
def State.evacDone (s : State) : State :=
  match s.dram.evac with
  | some e =>
    if e.phase = 2 ∧ e.left = 0 then
      let s := s.onDram fun d => { d with active := d.active.filter (· != e.sub), evac := none, evacRec := none, evacCode := 2 }
      let s := (s.onSub e.sub fun x => { x with phase := 7 }).onUnit (uDram e.sub) fun u => { u with st := .retired, cur := 0 }
      (s.onRetRec fun l => if uDram e.sub ∈ l then l else uDram e.sub :: l).raiseEvt F.DRC_EVT_EVAC_DONE F.DRC_EVT_CNT0_EVAC_CNT
    else s
  | none => s

def execEvacDone (s : State) : Out := .next s.evacDone

/-- The idle frames of the subchannels (R357), and the end of a fill (R344). -/
def State.dramTick (s : State) : State :=
  s.evacTick.onDram fun d => { d with subs := (List.range 8).foldl (fun m n =>
    m.upd {} n fun x => { x with idle := if d.reqs.any (fun r => r.sub == n) then x.idle else x.idle + 1
                                 phase := if x.phase = 3 ∧ x.filledAt ≤ s.time.ms then 4 else x.phase }) d.subs }

end Sys2Proof.Machine
end

