-- ==== Sys2Proof/Machine/Governor.lean ====
section
/-! DEFINITION. The power governor: its law, budgets, caps and ramps, the thermal loop, drain mode, fallback and revert,
the matrix banks and the trace buffers (chapter 15; R419 to R440, and R44). -/
namespace Sys2Proof.Machine

/-! ### Q16.16 arithmetic -/

/-- 1.0 as a Q16.16 number. -/
def qOne : Int := 65536

/-- A 32-bit word as a signed number. -/
def sgn32 (n : Nat) : Int := if n % 2 ^ 32 < 2 ^ 31 then (n % 2 ^ 32 : Nat) else (n % 2 ^ 32 : Nat) - (2 : Int) ^ 32

/-- A signed number as a 32-bit word. -/
def word32 (v : Int) : Nat := (v % (2 : Int) ^ 32).toNat

/-- An exact sum of products shifted right 16 bits, rounded half toward plus infinity (R422). -/
def qRound (v : Int) : Int := (v + 32768) / 65536

/-- Saturation to the signed 32-bit range (R422). -/
def qSat (v : Int) : Int := if v < -(2 : Int) ^ 31 then -(2 : Int) ^ 31 else if (2 : Int) ^ 31 ≤ v then (2 : Int) ^ 31 - 1 else v

/-- Product of two Q16.16 numbers. -/
def qMul (a b : Int) : Int := qSat (qRound (a * b))

/-- A number of mA as A in Q16.16. -/
def qOfMa (n : Int) : Int := n * 65536 / 1000

/-- A number of tenths as a Q16.16 number (0.1 W as W, 0.1 degree C as degrees C). -/
def qOfTenth (n : Int) : Int := n * 65536 / 10

/-- A in Q16.16 as whole mA, rounded down. -/
def maOfQ (v : Int) : Int := v * 1000 / 65536

/-- A mean of a list of numbers, 0 of none. -/
def meanOf (l : List Int) : Int := if l.isEmpty then 0 else l.foldl (· + ·) 0 / (l.length : Int)

/-! ### Caps (R404, R429, R432) -/

/-- The drive-power cap of a power state in 0.1 W (Table 14.3). -/
def psCap : Nat → Nat
  | 0 => 1100 | 1 => 750 | _ => 450

/-- The state cap: of the power state in force, or of the operational state that exit returns to. -/
def State.stateCap (s : State) : Nat := psCap (if s.pwr.cur ≤ 2 then s.pwr.cur else s.pwr.lastOp)

/-- The thermal cap (R432, R442): with THERM_EN at 0 the state cap, unless R442 has set it. -/
def State.thermCap (s : State) : Nat :=
  if s.flag F.PWR_GOV_CTL_THERM_EN || s.gov.thermJ then s.gov.therm else s.stateCap

/-- The cap that the next step 2 puts in force (R429, R440): BOARD takes effect there. -/
def State.capNext (s : State) : Nat := min s.stateCap (min (s.get2 F.PWR_GOV_CAP_BOARD) s.thermCap)

/-- PWR_GOV_STAT.LIMIT: which cap is least (R429). -/
def State.capLimit (s : State) : Nat :=
  let b := s.get2 F.PWR_GOV_CAP_BOARD
  if s.stateCap ≤ b ∧ s.stateCap ≤ s.thermCap then 0 else if b ≤ s.thermCap then 1 else 2

/-- 0.1 W in units of 1/65,536,000 W. -/
def rkOf (cap : Nat) : Nat := cap * 6553600

/-- The reference r in W, Q16.16. -/
def GovSt.r (g : GovSt) : Int := (g.rk / 1000 : Nat)

/-- Step 2: the cap in force and the reference (R430, R431): at or below r a cap takes effect at once and ends a ramp;
above r it starts a ramp from the mean of the last 16 frames, or continues the running one. -/
def GovSt.capStep (g : GovSt) (cap slew : Nat) : GovSt :=
  let top := rkOf cap
  if top ≤ g.rk then { g with cap := cap, rk := top, ramp := false }
  else
    let from_ := if g.ramp then g.rk + slew * 65536 else max g.rk ((meanOf g.pins).toNat * 1000)
    if top ≤ from_ then { g with cap := cap, rk := top, ramp := false } else { g with cap := cap, rk := from_, ramp := true }

/-! ### The matrix (R422, R437) -/

/-- An entry of a matrix bank. -/
def matEntry (m : SMap (Option Nat)) (e : Nat) : Nat := (m.get none e).getD (Config.oemMatrix e) % 2 ^ 32

/-- A row of the multiply: its exact sum shifted and rounded, before saturation. -/
def matRow (m : SMap (Option Nat)) (v : List Int) (row : Nat) : Int :=
  qRound ((List.range 12).foldl (fun a c => a + sgn32 (matEntry m (12 * row + c)) * v.getD c 0) 0)

/-! ### Measurements -/

/-- Sum of the table currents of the LUN operations running, suspended ones counted, in 0.1 mA (R420, R426). -/
def State.lunCurrent (s : State) : Nat := s.med.luns.items.foldl (fun a e => a + e.2.run.foldl (fun b r => b + r.cur) 0) 0

/-- i_pred in A, Q16.16. -/
def State.ipredNow (s : State) : Int := (s.lunCurrent : Int) * 65536 / 10000

/-- Step 1: the ADC means latched (R419), with the product p_in kept for the means of R428 and R430. -/
def GovSt.latch (g : GovSt) (i : TickIn) : GovSt :=
  let p := qMul i.iin i.vbus
  let sum := g.winSum + p
  let full := decide (124 ≤ g.winCnt)
  { g with iin := i.iin, vbus := i.vbus, vhu := i.vhu, tbrd := i.tbrd, dies := i.dies, pins := (p :: g.pins).take 16,
           winSum := if full then 0 else sum, winCnt := if full then 0 else g.winCnt + 1,
           winMean := if full then some (sum / 125) else g.winMean }

/-! ### Injection and notch (R424, R439) -/

/-- The injection of the frame in A. -/
def State.injection (s : State) : Int :=
  let amp := qOfMa (s.getF F.PWR_GOV_INJ_AMP)
  let k := s.gov.injN / max 1 (s.getF F.PWR_GOV_INJ_PERIOD)
  match s.gov.injMode with
  | 1 => amp
  | 2 => if k % 2 = 0 then amp else -amp
  | 3 => if Config.prbs (k % 32767) then amp else -amp
  | _ => 0

/-- The PWR_GOV_NOTCH word. -/
def State.notchWord (s : State) : Nat := s.getF F.PWR_GOV_NOTCH_Q * 4096 + s.getF F.PWR_GOV_NOTCH_F0

/-- The notch output for the command u, with the history as the frame finds it: EN going to 1 fills it with u. -/
def State.notchOut (s : State) (u : Int) : Int × GovSt :=
  let g := s.gov
  if !s.flag F.PWR_GOV_NOTCH_EN then (u, { g with notch := false })
  else
    let g := if g.notch then g else { g with u1 := u, u2 := u, y1 := u, y2 := u, notch := true }
    let c := Config.notchCoef s.notchWord
    let y := qSat (qRound (c 0 * u + c 1 * g.u1 + c 0 * g.u2 - c 1 * g.y1 - c 2 * g.y2))
    (y, { g with u2 := g.u1, u1 := u, y2 := g.y1, y1 := y })

/-! ### The law (R420 to R425) -/

/-- The 12-element vector of Table 15.2. -/
def State.govVec (s : State) : List Int :=
  let g := s.gov
  [g.x1, g.x2, g.x3, g.x4, g.x5, g.x6, g.iin, g.vbus, (g.pins.headD 0), g.r, s.ipredNow - g.ipred, qOne]

/-- The ceiling r ÷ v_bus in A; 0 where v_bus is not positive. -/
def GovSt.ceiling (g : GovSt) : Int := if 0 < g.vbus then g.r * 65536 / g.vbus else 0

/-- The drain budget in mA (R433): C_d ÷ v_bus less base_d, FB at least. -/
def State.drainBudget (s : State) : Nat :=
  let g := s.gov
  let a := if 0 < g.vbus then qOfTenth g.cd * 65536 / g.vbus else 0
  max (maOfQ (a - g.based)).toNat (s.get2 F.PWR_GOV_FB_FB)

/-- One step of the law in a frame in which SE1 publishes (R421 to R425, R433): states of F + 1, the budget and the
nodes of Table 15.5. -/
def State.govLaw (s : State) : State :=
  let v := s.govVec
  let g := s.gov
  let raw := (List.range 8).map (matRow g.act v)
  let rows := raw.map qSat
  let row := fun k => rows.getD k 0
  let u := row 6
  let (un, g1) := s.notchOut u
  let inj := s.injection
  let top := g.ceiling
  let uc := max 0 (min (un + inj) top)
  let pin := g.pins.headD 0
  let freeze := (decide (top < un + inj) && decide (0 < g.r - pin)) || (decide (un + inj < 0) && decide (g.r - pin < 0)) || g.drain
  let ip := s.ipredNow
  let base := g.x3 - ip
  let b : Nat := if g.drain then s.drainBudget else (maOfQ (max 0 (uc - base))).toNat
  let above := decide (qOfMa (s.get2 F.PWR_GOV_GUARD_RESID_MAX) < (g.iin - g.x1).natAbs)
  let sat := raw.getD 6 0 != u
  let nodes := v ++ rows ++ [un, uc, qOfMa b, base, qOfTenth g.cap, ip, (g.vhu : Int) * 65536 / 1000, qOfTenth g.tbrd, inj]
  s.onGov fun _ =>
    { g1 with x1 := row 0, x2 := row 1, x3 := row 2, x4 := row 3, x5 := if freeze then g.x5 else row 4,
              x6 := if g.drain then g.x6 else row 5, ipred := ip, clamp := decide (top < un + inj), base := maOfQ base, bud := b,
              residN := if above then g.residN + 1 else 0, satN := if sat then g.satN + 1 else 0, nodes := nodes }

/-! ### Traces (R438) -/

/-- A capture is recording. -/
def GovSt.recording (g : GovSt) : Bool := g.armed && (!g.trig || decide (0 < g.trcLeft))

/-- Record one sample of each buffer. -/
def State.trcSample (s : State) : State :=
  let node := fun b => match b with
    | 0 => s.getF F.PWR_TRC_SEL_NODE0 | 1 => s.getF F.PWR_TRC_SEL_NODE1
    | 2 => s.getF F.PWR_TRC_SEL_NODE2 | _ => s.getF F.PWR_TRC_SEL_NODE3
  s.onGov fun g => { g with
    trc := (List.range 4).foldl (fun m b => m.set 0 (b * 4096 + g.wptr) (word32 (g.nodes.getD (node b) 0))) g.trc
    wptr := (g.wptr + 1) % 4096, trcN := g.trcN + 1, trcLeft := if g.trig then g.trcLeft - 1 else g.trcLeft, trcDec := 0 }

/-- Trigger the capture: 4,096 − PRE further samples follow. -/
def State.trcTrigger (s : State) : State :=
  if s.gov.armed && !s.gov.trig then s.onGov fun g => { g with trig := true, trcLeft := 4096 - s.getF F.PWR_TRC_CTL_PRE } else s

/-- An event that TRIG selects. -/
def State.trcEvent (s : State) (t : Nat) : State := if s.getF F.PWR_TRC_CTL_TRIG = t then s.trcTrigger else s

/-- Step 4 of a frame: every DEC-th frame records a sample. -/
def State.trcTick (s : State) : State :=
  if !s.gov.recording then s
  else if s.gov.trcDec + 1 < s.getF F.PWR_TRC_CTL_DEC then s.onGov fun g => { g with trcDec := g.trcDec + 1 } else s.trcSample

/-- TRACE_START (R438): arms the buffers, or restarts the capture. -/
def State.traceStart (s : State) : State :=
  (s.onGov fun g => { g with armed := true, trig := false, done := false, wptr := 0, trcN := 0, trcLeft := 0, trcDec := 0 }).trcEvent 0

def execTraceStart (s : State) : Out := .next s.traceStart

/-- TRACE_STOP (R438): forces the trigger. -/
def execTraceStop (s : State) : Out := .next s.trcTrigger

/-- TRC_DONE (R438): the samples after the trigger are recorded: the capture stops. -/
def State.traceDone (s : State) : State :=
  if s.gov.armed && s.gov.trig && s.gov.trcLeft == 0 then
    (s.onGov fun g => { g with armed := false, done := true }).raiseEvt F.PWR_GOV_EVT_TRC_DONE F.PWR_GOV_EVT_CNT0_TRC_CNT
  else s

def execTrcDone (s : State) : Out := .next s.traceDone

/-- PWR_TRC_DATA: sample `i` of buffer `b`, sample 0 the oldest. -/
def GovSt.traceAt (g : GovSt) (b i : Nat) : Nat :=
  g.trc.get 0 (b * 4096 + ((if 4096 ≤ g.trcN then g.wptr else 0) + i) % 4096)

/-! ### The tick -/

/-- The programmed cap as a current in mA (R44): the cap in force over v_bus, 0 mA while no v_bus has been measured (DESIGN CHOICE,
assumption 123: R44 bounds mA by W and states no conversion). -/
def State.capMa (s : State) : Nat := if 0 < s.gov.vbus then (maOfQ (qOfTenth s.gov.cap * 65536 / s.gov.vbus)).toNat else 0

/-- The budget of the frame that begins (R44, R433, R435): what step 3 published for it; in fallback the lesser of FB and
the last published; after a miss the smaller of the frame before's budget and the programmed cap. -/
def State.budgetFor (s : State) : Nat :=
  match s.sched.budget with
  | some b => if s.gov.fallback then min (s.get2 F.PWR_GOV_FB_FB) s.gov.bud else b
  | none => if s.gov.fallback then min (s.get2 F.PWR_GOV_FB_FB) s.gov.bud else min s.sched.budgetNow s.capMa

/-- Drain mode begins at the tick that puts the drain grants in force (R433, R434). -/
def State.govDrain (s : State) : State :=
  if s.sched.drain && !s.gov.drain then
    (s.onGov fun g => { g with drain := true, cd := g.cap, based := g.x3 - s.ipredNow, swap := false }).trcEvent 3
  else s

/-- Step 2: the cap in force; the thermal cap's first frame below the state cap raises THERM (R430, R432). -/
def State.govCaps (s : State) : State :=
  let old := s.gov.cap
  let s := s.onGov fun g => { g.capStep s.capNext (s.get2 F.PWR_GOV_RAMP_SLEW) with lim := s.capLimit }
  let low := decide (s.thermCap < s.stateCap)
  let s := if low && !s.gov.thermLow then
      (s.raiseEvt F.PWR_GOV_EVT_THERM F.PWR_GOV_EVT_CNT1_THERM_CNT).raiseFault 0x0007 (uSvc 5) else s
  let s := s.onGov fun g => { g with thermLow := low }
  if old ≠ s.gov.cap then s.trcEvent 1 else s

/-- Step 4: the injection MODE in force, and its frames since it took effect (R439). -/
def State.injStep (s : State) : State :=
  let mode := s.getF F.PWR_GOV_INJ_MODE
  s.onGov fun g => { g with injMode := mode, injN := if g.injMode = mode then g.injN + 1 else 0 }

/-- Step 3: a pending SWAP is made (R437). -/
def GovSt.doSwap (g : GovSt) : GovSt := if g.swap then { g with act := g.shadow, swap := false, reverted := false } else g

/-- Steps 1 to 4 of the governor in a frame (Table 15.4). In PS3 and PS4 SE1 does not run (Table 14.3). A frame in which
it does not publish leaves the law's states as they are, and is an F0 event (R44). -/
def State.govTick (s : State) (i : TickIn) : State :=
  let s := s.onGov (·.latch i)
  if 3 ≤ s.pwr.cur then s
  else
    let s := s.govDrain.govCaps.injStep
    let s :=
      if i.onTime then
        let s := (s.onGov GovSt.doSwap).govLaw
        let s := s.onGov fun g => { g with miss := 0, onTime := g.onTime + 1 }
        s.onSched fun c => { c with budget := some s.gov.bud }
      else
        let s := (s.onGov fun g => { g with miss := g.miss + 1, onTime := 0 }).onSched fun c => { c with budget := none }
        if s.gov.miss ≤ 7 then s.raiseFault 0x0003 (uSvc 5) else s
    let s := if s.gov.drain then s.onSched fun c => { c with budgetNow := s.drainBudget } else s
    s.trcTick

/-! ### Rows -/

/-- POWER_MEAN_CHECK (R428): the mean of a complete window of 125 frames above the cap in force × (1 + TOL). -/
def State.meanCheck (s : State) : State :=
  match s.gov.winMean with
  | none => s
  | some m =>
    let s := s.onGov fun g => { g with winMean := none }
    if qOfTenth s.gov.cap * (1000 + s.get2 F.PWR_GOV_GUARD_TOL) < m * 1000 then
      ((s.raiseEvt F.PWR_GOV_EVT_OVER F.PWR_GOV_EVT_CNT0_OVER_CNT).raiseFault 0x0006 (uSvc 5)).trcEvent 2
    else s

def execPowerMeanCheck (s : State) : Out := .next s.meanCheck

/-- The larger temperature error in 0.1 degree C (R432). -/
def State.thermErr (s : State) : Int :=
  let board := s.gov.tbrd - 10 * (s.getF F.PWR_GOV_THERM0_TB_LIM : Int)
  s.gov.dies.foldl (fun a d => max a (10 * (d - (s.getF F.PWR_GOV_THERM0_TJ_LIM : Int)))) board

/-- The thermal cap after a step with an error (R432). -/
def thermNext (cap stateCap k rise low : Nat) (e : Int) : Nat :=
  if 0 < e then (let c := cap - k * e.toNat / 10; if c < low then min cap low else c)
  else if cap < stateCap then min (cap + rise) stateCap else cap

/-- THERMAL_LOOP (R432): every 125,000 frames. -/
def State.thermalLoop (s : State) : State :=
  if s.time.frame < s.gov.thermAt + 125000 ∨ 3 ≤ s.pwr.cur then s
  else
    let next := if s.flag F.PWR_GOV_CTL_THERM_EN then
        thermNext s.gov.therm s.stateCap (s.getF F.PWR_GOV_THERM1_K) (s.getF F.PWR_GOV_THERM1_RISE) (s.getF F.PWR_GOV_THERM1_MIN) s.thermErr
      else s.stateCap
    s.onGov fun g => { g with therm := next, thermJ := false, thermAt := s.time.frame }

def execThermalLoop (s : State) : Out := .next s.thermalLoop

/-- GOVERNOR_FALLBACK (R435): the eighth consecutive miss. -/
def State.govFallback (s : State) : State :=
  if 8 ≤ s.gov.miss ∧ !s.gov.fallback then
    ((s.onGov fun g => { g with fallback := true }).raiseEvt F.PWR_GOV_EVT_MISS F.PWR_GOV_EVT_CNT1_MISS_CNT).raiseFault 0x0209 (uSvc 5)
  else s

def execGovernorFallback (s : State) : Out := .next s.govFallback

/-- FALLBACK_EXIT (R435): 125 consecutive publishes on time: the integrators are zeroed and a ramp starts (R430). -/
def State.govExit (s : State) : State :=
  if s.gov.fallback ∧ 125 ≤ s.gov.onTime then
    s.onGov fun g =>
      let start := max g.rk ((meanOf g.pins).toNat * 1000)
      { g with fallback := false, x5 := 0, x6 := 0, rk := min start (rkOf g.cap), ramp := decide (start < rkOf g.cap) }
  else s

def execFallbackExit (s : State) : Out := .next s.govExit

/-- GOVERNOR_REVERT (R436): a residual above RESID_MAX, or row 6 saturated, in 125 consecutive frames. -/
def State.govRevert (s : State) : State :=
  if 125 ≤ s.gov.residN ∨ 125 ≤ s.gov.satN then
    ((s.onGov fun g => { g with act := {}, x1 := g.iin, x2 := g.vbus, x3 := g.iin, x4 := 0, x5 := 0, x6 := 0, reverted := true, residN := 0, satN := 0 }).raiseEvt
      F.PWR_GOV_EVT_REVERT F.PWR_GOV_EVT_CNT2_REV_CNT).raiseFault 0x010D (uSvc 5)
  else s

def execGovernorRevert (s : State) : Out := .next s.govRevert

/-- SWAP of PWR_GOV_CTL (R434, R437): pending until the next step 3. -/
def State.govSwap (s : State) : State := if s.gov.drain then s else s.onGov fun g => { g with swap := true }

def execSwap (s : State) : Out := .next s.govSwap

/-- SAVE of PWR_GOV_CTL (R437). -/
def State.govSave (s : State) : State := if s.gov.drain then s else s.onGov fun g => { g with saved := some g.act }

def execSave (s : State) : Out := .next s.govSave

/-- DEFAULT of PWR_GOV_CTL (R437). -/
def State.govDefault (s : State) : State := if s.gov.drain then s else s.onGov fun g => { g with shadow := {} }

def execMatDefault (s : State) : Out := .next s.govDefault

/-- A write of PWR_GOV_CTL (R434, R437): dropped in drain mode. -/
def State.govCtl (s : State) (v : Nat) : State :=
  if s.gov.drain then s
  else
    let s := s.setF F.PWR_GOV_CTL_THERM_EN (v % 2)
    let s := if bitOf v 29 then s.govDefault else s
    let s := if bitOf v 30 then s.govSave else s
    if bitOf v 31 then s.govSwap else s

/-- A write of PWR_GOV_MDATA (R437, R440): the shadow bank only, and not while a SWAP is pending. -/
def State.govMdata (s : State) (acc v : Nat) : State :=
  if s.gov.swap ∨ s.getF F.PWR_GOV_MIDX_BANK acc = 0 then s
  else s.onGov fun g => { g with shadow := g.shadow.set none (s.getF F.PWR_GOV_MIDX_ENTRY acc) (some v) }

/-- The governor as a start-up begins it (R432, R434, R437): states zero, the saved matrix if one exists, the thermal cap
at the state cap, the trace buffers kept (R438). -/
def GovSt.start (g : GovSt) : GovSt :=
  let m := g.saved.getD {}
  { saved := g.saved, act := m, shadow := m, trc := g.trc, trcN := g.trcN, wptr := g.wptr, done := g.done }

end Sys2Proof.Machine
end

