-- ==== Sys2Proof/Machine/Power.lean ====
section
/-! DEFINITION. The unit power port, group drowse, the power states and their wake sources, power failure and the hold-up
test (chapter 14; R398 to R418). -/
namespace Sys2Proof.Machine

/-! ### Group drowse (R402, R403) -/

/-- Landing slice n holds a committed sector that is not yet programmed. -/
def State.sliceBusy (s : State) (n : Nat) : Bool :=
  s.lnd.secs.items.any fun e => e.1 / 4096 == n && (match e.2 with | some x => x.done && !x.prog | none => false)

/-- A channel has an entry pending or running, or a busy die. -/
def State.chanBusy (s : State) (c : Nat) : Bool :=
  !(s.chan c).list.isEmpty || (s.chan c).next.isSome || (s.chan c).cal.isSome ||
  s.med.luns.items.any fun e => e.1 / 32 == c && !e.2.run.isEmpty

/-- A group is idle in a frame (R402). -/
def State.groupIdle (s : State) (n : Nat) : Bool :=
  !((List.range 8).any fun k => s.chanBusy (8 * n + k)) && !s.sliceBusy n && !(s.med.accs.any fun a => a.slice == n) &&
  !(s.prg.scans.any fun c => c.fe == n && c.resident) && (s.eng (eME n)).ring == 0

/-- A group's clocks stop and its logic is gated, with RE stopped and every CE# low (R402). -/
def State.groupDown (s : State) (n : Nat) : State :=
  (List.range 8).foldl (fun s c => s.stopRe (8 * n + c)) (s.onUnit (uGroup n) fun u => { u with cur := 1 })

/-- DROWSE_ENTRY: AUTO set and the group idle for IDLE frames. -/
def State.drowse (s : State) (n : Nat) : State :=
  if s.lvl.core ∧ (s.unit (uGroup n)).auto ∧ (s.unit (uGroup n)).cur = 2 ∧ s.groupIdle n ∧ s.get2 F.PWR_DROWSE_IDLE ≤ s.pwr.grpIdle.get 0 n then
    s.groupDown n
  else s

def execDrowseEntry (group : Nat) (s : State) : Out :=
  .next (if group < 16 then s.drowse group else s)

/-- A LUN of a split channel fails PING at the wake: as step 7 of the handshake (R206, R207). With MIX 0 the channel runs
conforming; with MIX 1 the LUN leaves service. -/
def State.pingFails (s : State) (ch lun : Nat) : State :=
  if (s.chan ch).mode ≠ 3 then s
  else if (s.chan ch).prof.mix then (s.exitSplit ch [lun]).lunOut ch lun
  else s.leaveSplit ch

/-- The exit of a drowsing group: power and clocks, then SYNC and PING to each LUN; `bad` are the LUNs that fail. -/
def State.groupWake (s : State) (n : Nat) (bad : List (Nat × Nat)) : State :=
  let s := s.onUnit (uGroup n) fun u => { u with cur := 2 }
  let s := s.onPwr fun p => { p with grpIdle := p.grpIdle.set 0 n 0 }
  let s := (List.range 8).foldl (fun s c => (s.startRe (8 * n + c)).pingAll (8 * n + c)) s
  bad.foldl (fun s b => if b.1 / 8 = n then s.pingFails b.1 b.2 else s) s

/-- A wake met an entry under way (R409). -/
def State.wakeEntry (s : State) : State := s.raiseEvt F.PWR_EVT_WAKE_ENTRY F.PWR_EVT_CNT0_WE_CNT

/-- GROUP_WAKE (R403): work or a power request arrives for a drowsing group. -/
def State.wakeGroup (s : State) (n : Nat) (bad : List (Nat × Nat)) (inEntry : Bool) : State :=
  if (s.unit (uGroup n)).cur = 1 then
    let s := if inEntry then s.wakeEntry else s
    s.groupWake n bad
  else s

def execGroupWake (group : Nat) (bad : List (Nat × Nat)) (inEntry : Bool) (s : State) : Out :=
  .next (if group < 16 then s.wakeGroup group bad inEntry else s)

/-! ### The unit power port (R21, R23, R401) -/

/-- Power-down of these kinds needs the unit FENCED or RETIRED (R401). -/
def needsFence (a : Nat) : Bool := uKind a == 2 || uKind a == 5 || uKind a == 6 || uKind a == 7

/-- FENCED or RETIRED. -/
def State.isOut (s : State) (a : Nat) : Bool := (s.unitState a == .fenced) || (s.unitState a == .retired)

/-- What a domain loses at CUR 0 or 1 (Table 14.2): a landing slice its sectors when off, a cipher cluster its work and its key
cache; a group that drowses stops RE. -/
def State.domainDown (s : State) (a p : Nat) : State :=
  if uKind a = 7 ∧ p = 0 then s.onLnd fun l => { l with secs := l.secs.keep (fun k => k / 4096 != uIdx a) }
  else if uKind a = 5 then s.onCc (uIdx a) fun c => { c with pipes := {}, queue := [], cache := [] }
  else if uKind a = 2 ∧ p = 1 then s.groupDown (uIdx a)
  else s

/-- A domain has no work in flight (R21): a group as R402 says, an engine between steps, a cluster without jobs, a
subchannel without requests, a slice without sectors. -/
def State.domainIdle (s : State) (a : Nat) : Bool :=
  let i := uIdx a
  match uKind a with
  | 2 => s.groupIdle i
  | 3 => !s.chanBusy i
  | 4 => (s.eng i).ring == 0
  | 5 => (s.cc i).queue.isEmpty && (s.cc i).pipes.vals.all fun p => p.run.isNone && p.susp.isNone
  | 6 => s.dram.reqs.all fun r => r.sub != i
  | 7 => s.lnd.secs.keys.all fun k => k / 4096 != i
  | _ => true

/-- A domain that has drained goes to the power requested. -/
def State.cutPower (s : State) (a p : Nat) : State :=
  (s.domainDown a p).onUnit a fun u => { u with cur := p, pdown := none }

/-- REQ 0 or 1 of a domain (R21, R401): without work it goes down at once, else it drains for at most 64 frames
(`powerDrains`). An HE's queues move first. A landing slice's power follows its group, except for REQ 0 (R400). -/
def State.powerDown (s : State) (a p : Nat) : State :=
  let s := s.onUnit a fun u => { u with req := p, pdown := none }
  if uKind a = 7 ∧ p = 1 then s
  else
    let s := if uKind a = 4 then s.moveHe (uIdx a) else s
    if s.domainIdle a then s.cutPower a p else s.onUnit a fun u => { u with pdown := some (p, s.time.frame) }

/-- Domains that drain, at a tick: down once idle, and left up with REFUSED set after 64 frames (R21). -/
def State.powerDrains (s : State) : State :=
  s.units.items.foldl (fun s e => match (s.unit e.1).pdown with
    | none => s
    | some (p, f) =>
      if s.domainIdle e.1 then s.cutPower e.1 p
      else if f + 64 ≤ s.time.frame then
        s.onUnit e.1 fun u => { u with pdown := none, refused := true, refCnt := inc16 u.refCnt }
      else s) s

/-- A write of SYS_UNIT_PWR (R16, R21, R23, R401). `bad` are the LUNs that fail PING as a group
wakes. -/
def State.unitPower (s : State) (acc : Acc) (a v : Nat) (bad : List (Nat × Nat)) : State :=
  let req := F.SYS_UNIT_PWR_REQ.of v
  if !isUnit a then s.accFault acc 0x120
  else if req = 3 ∨ !ownPwr a then s
  else if (uKind a = 8 ∨ uKind a = 9) ∧ req < 2 then s.accFault acc 0x120
  else if req = 0 ∧ needsFence a ∧ !s.isOut a then s.accFault acc 0x120
  else
    let s := s.onUnit a fun u => { u with auto := v.testBit 4, refused := u.refused && !v.testBit 12 }
    if req < 2 then s.powerDown a req
    else
      let s := s.onUnit a fun u => { u with req := 2, pdown := none }
      if (s.unit a).cur = 2 then s
      else if uKind a = 2 then s.groupWake (uIdx a) (if (s.unit a).cur = 1 then bad else []) else s.onUnit a fun u => { u with cur := 2 }

/-- A write of REQ 2 wakes a drowsing group (R403). -/
def State.powerWakes (s : State) (a v : Nat) : Bool :=
  isUnit a && uKind a == 2 && F.SYS_UNIT_PWR_REQ.of v == 2 && (s.unit a).cur == 1

/-- UNIT_POWER_REQUEST (R401); one that wakes a group in the midst of its drowse entry is recorded so (R409). -/
def execUnitPowerRequest (acc : Acc) (unit : Nat) (val : W32) (inEntry : Bool) (bad : List (Nat × Nat)) (s : State) : Out :=
  .next ((if inEntry && s.powerWakes unit val.toNat then s.wakeEntry else s).unitPower acc unit val.toNat bad)

/-! ### Power states (R404 to R410) -/

/-- No command other than an Asynchronous Event Request, and other than `f`, is outstanding. -/
def State.quiet (s : State) (f : Option Nat) : Bool := s.hif.cmds.all fun c => c.ph == .aerWait || f == some c.fsn

/-- Background work runs or is queued: GC, fold, refresh, relocation, rekey pass or evacuation (R406). -/
def State.background (s : State) : Bool :=
  s.med.gcOn != 0 || s.med.folding != 0 || s.med.chunks.items.any (fun e => e.2.queued) ||
  s.med.grown.any (fun g => g.state == 0) || s.sec.slots.items.any (fun e => e.2.rekey) || s.dram.evac.isSome

/-- The device is idle (R406), apart from the command `f`. -/
def State.devIdle (s : State) (f : Option Nat := none) : Bool :=
  s.lvl.core && s.quiet f && (List.range 16).all (fun n => (s.unit (uGroup n)).cur != 2 && !s.sliceBusy n) && s.jnl.groups.isEmpty &&
  !s.background && !s.pwr.wakeLow

/-- The units that head a domain and are not always served (Table 14.2): HEs and cipher clusters, gated in PS3. -/
def gatedPs3 : List Nat := (List.range 12).map (fun n => uEng (eHE n)) ++ (List.range 4).map uCC

/-- Every domain but the always-on one, gated in PS4. -/
def gatedPs4 : List Nat := gatedPs3 ++ [uFront] ++ (List.range 8).map uSvc ++ (List.range 8).map uDram

/-- Gate the domains of a list that are on, with what they lose (Table 14.2). -/
def State.gate (s : State) (l : List Nat) : State :=
  l.foldl (fun s a => if (s.unit a).cur = 2 then (s.domainDown a 1).onUnit a fun u => { u with cur := 1 } else s) s

/-- Power again the gated domains of a list that are requested on. -/
def State.ungate (s : State) (l : List Nat) : State :=
  l.foldl (fun s a => if (s.unit a).cur = 1 ∧ (s.unit a).req = 2 then s.onUnit a fun u => { u with cur := 2 } else s) s

/-- The DRAM set point of a power state (Table 14.3). -/
def fspOf (p : Nat) : Nat := if p < 2 then 0 else 1

/-- A running test is aborted (R415), as PS3 and PS4 run none (R414; DESIGN CHOICE, log 131). -/
def State.testAbort (s : State) : State :=
  if s.pwr.test.isSome then (s.onPwr fun p => { p with test := none, result := 3, tested := true, testMs := s.time.ms }).send (.pin 2 false) else s

/-- Entry to PS3 or PS4 (R404, R406): atomic in this model. -/
def State.enterPs (s : State) (p : Nat) (host : Bool) : State :=
  let old := s.pwr.cur
  let s := s.testAbort
  let s := s.onPwr fun x => { x with cur := p, host := host, want := none, hkMs := s.time.ms, hk := none,
                                     lastOp := if old ≤ 2 ∧ x.hk.isNone then old else x.lastOp }
  let s := if p = 3 then (s.gate gatedPs3).fspRequest 1 else (s.gate gatedPs4).dramSleep
  let s := if p = 4 then s.onTime fun t => { t with lastFrame := t.frame } else s
  s.logState 1 old p

/-- The tick of the timebase resumes after PS4, at the greater of one above the last frame number and the operating
milliseconds × 125 (R451). -/
def State.resumeFrames (s : State) : State := s.onTime fun t => { t with frame := max (t.lastFrame + 1) (t.ms * 125) % 2 ^ 48 }

/-- Return to an operational state: every gated domain and group comes up, and DRAM leaves self-refresh at the state's set
point. -/
def State.leavePs (s : State) (dst : Nat) : State :=
  let old := s.pwr.cur
  let s := s.onPwr fun x => { x with cur := dst, idle := 0, grpIdle := {} }
  let s := (List.range 16).foldl (fun s n => if (s.unit (uGroup n)).cur = 1 then s.groupWake n [] else s) (s.ungate gatedPs4)
  let s := if old = 4 then s.resumeFrames else s
  let s := s.fspRequest (fspOf dst)
  let s := if old = 4 then s.dramWake else s
  s.logState 1 old dst

/-- A wake source (R408): WAKE_SRC, and the exit to LAST_OP. An excursion for housekeeping ends with it. -/
def State.wake (s : State) (src : Nat) : State :=
  let s := if 3 ≤ s.pwr.cur ∨ s.pwr.hk.isSome then s.onPwr fun x => { x with wakeSrc := 2 ^ src } else s
  if 3 ≤ s.pwr.cur then (s.leavePs s.pwr.lastOp).onPwr fun x => { x with host := false }
  else if s.pwr.hk.isSome then
    let old := s.pwr.cur
    (s.onPwr fun x => { x with cur := x.lastOp, hk := none, host := false }).logState 1 old s.pwr.lastOp
  else s

/-- POWER_STATE_EXIT (R408, R409): `src` 0 and 1 are the PCIe ports, 2 the SMBus wake address, 3 WAKE_N going low;
`ms` operating milliseconds have passed since the entry to PS4. -/
def State.psExit (s : State) (src : Nat) (inEntry : Bool) (ms : Nat) : State :=
  let s := if src = 3 then s.onPwr fun x => { x with wakeLow := true, idle := 0 } else s
  let s := if s.pwr.cur = 4 then s.onTime (·.countMs ms) else s
  let s := if 3 ≤ s.pwr.cur ∧ inEntry then s.wakeEntry else s
  if s.lvl.core then s.wake (src % 4) else s

def execPowerStateExit (src : Nat) (inEntry : Bool) (ms : Nat) (s : State) : Out := .next (s.psExit src inEntry ms)

/-- The Autonomous Power State Transition setting: APSTE, and the entry of a power state (ITPS, ITPT in ms). -/
def State.apste (s : State) : Bool := (s.feat 0 0x0C).testBit 0
def State.apstEntry (s : State) (p : Nat) : Nat × Nat :=
  let e := s.feat 0 0x0C / 2 ^ 32 / 2 ^ (64 * p)
  (bits e 7 3, bits e 31 8)

/-- AUTONOMOUS_POWER_STATE_TRANSITION (R406): PWR_IDLE has reached the entry's idle time. -/
def State.apst (s : State) : State :=
  let e := s.apstEntry s.pwr.cur
  if s.apste ∧ s.pwr.hk.isNone ∧ (e.1 = 3 ∨ e.1 = 4) ∧ 0 < e.2 ∧ s.pwr.cur < e.1 ∧ e.2 * 125 ≤ s.pwr.idle ∧ s.devIdle then s.enterPs e.1 false
  else s

def execAutonomousPowerStateTransition (s : State) : Out := .next s.apst

/-- WAKE_N_DEASSERT (R410): idleness counts again, and a state that the host set is entered once the device is idle. -/
def State.wakeHigh (s : State) : State :=
  let s := s.onPwr fun x => { x with wakeLow := false }
  match s.pwr.want with
  | some p => if s.devIdle ∧ s.pwr.cur < p then s.enterPs p true else s
  | none => s

def execWakeNDeassert (s : State) : Out := .next s.wakeHigh

/-- HOUSEKEEPING_EXCURSION (R407): in permissive mode the device leaves PS3 or PS4 every PERIOD minutes under the PS2 cap,
and returns once idle. -/
def State.housekeeping (s : State) : State :=
  match s.pwr.hk with
  | some p => if s.devIdle then s.enterPs p s.pwr.host else s
  | none =>
    if 3 ≤ s.pwr.cur ∧ (s.feat 0 0x11).testBit 0 ∧ s.pwr.hkMs + s.getF F.PWR_HK_PERIOD * 60000 ≤ s.time.ms then
      let p := s.pwr.cur
      (s.leavePs 2).onPwr fun x => { x with hk := some p }
    else s

def execHousekeepingExcursion (s : State) : Out := .next s.housekeeping

/-! ### Hold-up (R414 to R417) -/

/-- The hold time of the last valid test at a cap, in 0.01 ms, as a fraction (R414, R416). -/
def State.holdFrac (s : State) (cap : Nat) : Nat × Nat :=
  let vmin := s.getF F.PWR_HU_BRD0_VMIN
  (s.pwr.capN * (s.pwr.vfin * s.pwr.vfin - vmin * vmin) * s.getF F.PWR_HU_BRD1_EFF, s.pwr.capD * 200000000 * cap)

/-- PWR_HU_STAT.HOLD: the hold time at the present cap, saturating. -/
def State.holdNow (s : State) : Nat :=
  let h := s.holdFrac s.gov.cap
  if s.pwr.valid ∧ 0 < h.2 then min (h.1 / h.2) 65535 else 0

/-- A committed sector not yet programmed is caught up ahead of later writes (R119). -/
def LSec.mark (x : LSec) : LSec := if x.done && !x.prog then { x with catchup := true } else x

/-- Each change of judgement drives VWC.PRESENT and its events (R88, R119, R416); a degradation marks the committed
sectors not yet programmed for catch-up, and with health returned the waiting Flushes complete (R118). -/
def State.setPresent (s : State) (degraded : Bool) : State :=
  if s.pwr.present = degraded then s
  else
    let s := s.onPwr fun p => { p with present := degraded }
    let s := if degraded then s.raiseEvt F.PWR_EVT_HU_DEG F.PWR_EVT_CNT1_DEG_CNT else s.raiseEvt F.PWR_EVT_HU_OK F.PWR_EVT_CNT1_OK_CNT
    let s := s.aenAll { typ := 7, info := 0, lid := 0xC0 }
    let s := if degraded then s.onLnd fun l => { l with secs := l.secs.mapV (fun _ e => e.map LSec.mark) } else s.flushDone
    s.logState 3 (b2n !degraded) (b2n degraded)

/-- The thresholds of R416 applied to a hold time at a cap. -/
def State.judgeHold (s : State) (cap minHold : Nat) : State :=
  let h := s.holdFrac cap
  if h.1 < minHold * h.2 then s.setPresent true
  else if s.pwr.present ∧ 11 * minHold * h.2 ≤ 10 * h.1 then s.setPresent false
  else s

/-- A change of the cap in force re-judges the last valid test (R416, R418). -/
def State.rejudge (s : State) : State := if s.pwr.valid then s.judgeHold s.gov.cap (s.getF F.PWR_HU_CFG_MIN) else s

/-- A test may begin: PS0 to PS2, none running, no drain (R414, R418). -/
def State.testMay (s : State) : Bool := s.lvl.core && decide (s.pwr.cur ≤ 2) && s.pwr.test.isNone && !s.sched.drain && !s.pwr.pfail

/-- A hold-up test begins: HU_TEST_N asserted, v0 the mean of the last 16 samples. -/
def State.testBegin (s : State) : State :=
  if s.testMay then
    let l := s.pwr.samples
    (s.onPwr fun p => { p with test := some { sum := if l.isEmpty then 0 else l.foldl (· + ·) 0 * 16 / l.length,
                                              drop := s.getF F.PWR_HU_CFG_DROP, min := s.getF F.PWR_HU_CFG_MIN } }).send (.pin 2 true)
  else s

/-- HOLD_UP_TEST: the first once the voltage is steady after Tin (R417), then every PERIOD hours (R414, R418). -/
def State.testDue (s : State) : State :=
  if (!s.pwr.tested ∧ 1 ≤ s.lvl.level ∧ 125 ≤ s.pwr.steadyN) ∨
     (s.pwr.tested ∧ s.pwr.testMs + s.getF F.PWR_HU_CFG_PERIOD * 3600000 ≤ s.time.ms) then s.testBegin else s

def execHoldUpTest (s : State) : Out := .next s.testDue
/-- HOLD_UP_TEST_START (R414): PWR_HU_CTL.START. -/
def execHoldUpTestStart (s : State) : Out := .next s.testBegin

/-- One sample of a running test (R414). -/
def HuTest.sample (t : HuTest) (v : Nat) : HuTest :=
  if t.stop then t
  else
    let above := decide (t.sum < 16 * v)
    { t with n := t.n + 1, v := v, above := t.above || above,
             stop := above || decide (16000 * v ≤ t.sum * (1000 - t.drop)) || decide (2500 ≤ t.n + 1) }

/-- A test without a valid result. -/
def HuTest.invalid (t : HuTest) : Bool := t.above || decide ((t.sum - 16 * t.v) * 100 < t.sum) || decide (t.sum ≤ 16 * t.v)

/-- HOLD_UP_TEST_END (R414, R416): the loop has ended; capacitance and hold time are computed and health is judged. -/
def State.testEnd (s : State) : State :=
  match s.pwr.test with
  | none => s
  | some t =>
    if !t.stop then s
    else
      let s := (s.onPwr fun p => { p with test := none, tested := true, testMs := s.time.ms, result := if t.invalid then 2 else 1 }).send (.pin 2 false)
      if t.invalid then (s.raiseEvt F.PWR_EVT_HU_INVALID F.PWR_EVT_CNT2_INV_CNT).raiseFault 0x010C (uSvc 5)
      else
        let s := s.onPwr fun p => { p with valid := true, vfin := t.v, capN := s.getF F.PWR_HU_BRD0_ITEST * t.n * 128, capD := t.sum - 16 * t.v, lowN := 0 }
        let s := s.onFlt fun f => { f with caps := (s.time.ms, s.pwr.capN / max 1 s.pwr.capD) :: f.caps }
        s.judgeHold s.gov.cap t.min

def execHoldUpTestEnd (s : State) : Out := .next s.testEnd

/-- HOLD_UP_VOLTAGE_LOW (R416): 125 frames below the final voltage of the last valid test, outside a test. -/
def State.voltageLow (s : State) : State := if s.lvl.core ∧ s.pwr.valid ∧ s.pwr.test.isNone ∧ 125 ≤ s.pwr.lowN then s.setPresent true else s

def execHoldUpVoltageLow (s : State) : Out := .next s.voltageLow

/-- The hold-up samples of one frame (R414 to R417). -/
def PwrSt.huSample (p : PwrSt) (v : Nat) (tin : Bool) : PwrSt :=
  let near := decide ((v - p.steadyV + (p.steadyV - v)) * 100 ≤ p.steadyV)
  { p with test := p.test.map (·.sample v), samples := (v :: p.samples).take 16,
           steadyV := if tin && near && decide (0 < p.steadyN) then p.steadyV else v,
           steadyN := if tin then (if near && decide (0 < p.steadyN) then p.steadyN + 1 else 1) else 0,
           lowN := if p.valid && p.test.isNone && decide (v < p.vfin) then p.lowN + 1 else 0 }

/-! ### Power failure (R399, R411 to R413) -/

/-- A drain is complete: the core is held in reset until the restart of R412 (Table 14.5 step 5). -/
def State.drainOver (s : State) : State :=
  ((s.onPwr fun p => { p with drained := true, drainAt := none, pfail := false }).coreDown).onLvl fun l => { l with endNow := 2 }

/-- PFAIL (R411, R413, R516): PFAIL_N low for 1 µs or longer. In PS3 and PS4 nothing is held to drain: the power-fail mark is written
and the drain is over; a halted device commits no drain. -/
def State.powerFails (s : State) : State :=
  if !s.lvl.core ∨ s.halted ∨ s.sched.drain ∨ s.pwr.pfail then s
  else
    let s := (s.raiseEvt F.PWR_EVT_PFAIL F.PWR_EVT_CNT0_PFAIL_CNT).testAbort
    if 3 ≤ s.pwr.cur then (s.onPwr fun p => { p with mark := true }).drainOver else s.onPwr fun p => { p with pfail := true }

def execPfail (s : State) : Out := .next s.powerFails

/-- Committed landing sectors not yet programmed. -/
def State.unprogrammed (s : State) : Nat :=
  (s.lnd.secs.items.filter fun e => match e.2 with | some x => x.done && !x.prog | none => false).length

/-- A command that writes, not landed whole at the drain's frame boundary, is discarded (R129). -/
def State.drainDrop (s : State) (c : Cmd) : State :=
  let writes := c.sq != 0 && [0x01, 0x08, 0x19, 0x7D].contains c.sqe.opc
  if c.ph = .landing ∧ c.left ≠ 0 then
    let s := if c.left < c.blocks then s.onLnd fun l => { l with lostDisc := l.lostDisc.upd 0 c.slice (· + 1) } else s
    (s.discardWrite c true).dropCmd c.fsn
  else if writes ∧ (c.ph = .fetched ∨ c.ph = .lockWait ∨ c.ph = .admitWait) then (s.discardWrite c true).dropCmd c.fsn
  else s

/-- One that has landed whole commits, its unit holds granted as its turn comes (R129, R168). -/
def State.drainCommit (s : State) (c : Cmd) : State :=
  if c.ph = .landing ∧ c.left = 0 then (s.holdGrant c.fsn).landingCommit c.fsn else s

/-- The tick that puts the drain grants in force (Table 14.5 step 2): fetch and host DMA stop. -/
def State.drainBegin (s : State) : State :=
  if s.pwr.pfail ∧ !s.sched.drain then
    let s := s.hif.cmds.foldl State.drainDrop s
    let s := (s.hif.cmds.foldl State.drainCommit s).onSched fun c => { c with drain := true, dmaLeft := (c.dmaLeft.set 0 0 0).set 0 1 0 }
    (s.onHif fun h => { h with fetchStop := true }).onPwr fun p =>
      { p with drainAt := some s.time.frame, drainSecs := s.unprogrammed, drainGrps := s.jnl.groups.length }
  else s

/-- The body of the POWER_FAIL record (Table 16.6). -/
def State.drainBody (s : State) (start : Nat) : List Byte :=
  leBytes 4 (s.pwr.drainSecs - s.unprogrammed) ++ leBytes 4 (s.pwr.drainGrps - s.jnl.groups.length) ++
  leBytes 4 (8 * (s.time.frame - start)) ++ leBytes 2 s.holdNow

/-- Steps 3 to 5 of Table 14.5: with every committed sector programmed and every group closed, accumulators are spilled (R240), the
power-fail record is written and the core held in reset. With hold-up degraded the drain has no more than its bound of 293 frames
(R128, R130). -/
def State.drainEnds (s : State) : State :=
  match s.pwr.drainAt with
  | some f =>
    if (s.unprogrammed = 0 ∧ s.jnl.groups.isEmpty) ∨ (s.pwr.present ∧ f + 293 ≤ s.time.frame) then
      let s := s.onMed fun m => { m with accs := m.accs.map fun a => { a with spilled := true } }
      (s.logRec 0 4 (uSvc 5) 48 (s.drainBody f)).drainOver
    else s
  | none => s

/-- POWER_RESTART (R412): PFAIL_N high for 100 ms with every rail in range; the device restarts as after power-up. -/
def State.powerRestart (s : State) : State :=
  if s.pwr.drained then
    (s.onPwr fun p => { p with drained := false, cold := true }).onHif fun h => { h with p0 := h.p0.down, p1 := h.p1.down }
  else s

def execPowerRestart (s : State) : Out := .next s.powerRestart

/-- A brown-out (R399): the core is held in reset and no drain runs; a REG_CYCLE in progress has taken effect (R450).
With the core already held after a drain, the loss of the rails ends that hold. -/
def State.brownOut (s : State) (rail : Bool) : State :=
  let s := if s.lvl.core then
      (s.coreDown.testAbort).onLvl fun l => { l with endNow := if s.halted then 5 else if s.flt.regc then 4 else 3 }
    else s
  let s := if rail then (s.onPwr fun p => { p with cold := true, drained := false, pfail := false, drainAt := none }).onFlt fun f => { f with regcFell := f.regcFell || f.regc } else s
  s.onHif fun h => { h with p0 := h.p0.down, p1 := h.p1.down }

/-- BROWN_OUT: a rail other than VDD_AON leaves its range. -/
def execBrownOut (s : State) : Out := .next (s.brownOut true)
/-- REFCLK_LOSS (R507): treated as a brown-out. -/
def execRefclkLoss (s : State) : Out := .next (s.brownOut true)

/-- VDD_AON_LOSS (R438, R450, R451): the millisecond count stops and resumes at the mark, the trace buffers are lost, and
an asserted REG_CYCLE is released. -/
def State.aonLoss (s : State) : State :=
  let s := s.onTime fun t => { t with aonLost := true }
  let s := s.onGov fun g => { g with trc := {}, armed := false, trig := false, done := false, wptr := 0, trcN := 0, trcLeft := 0 }
  if s.flt.regc then (s.onFlt fun f => { f with regc := false, armed := false }).send (.pin 1 false) else s

def execVddAonLoss (s : State) : Out := .next s.aonLoss

/-- The power controller's work at a tick: group and device idle counts, a host-set state entered when idle, and the
hold-up samples (R402, R406, R414). -/
def State.powerTick (s : State) (vhu : Nat) : State :=
  let s := s.onPwr fun p => { p with grpIdle := (List.range 16).foldl (fun m n =>
      m.set 0 n (if s.groupIdle n then m.get 0 n + 1 else 0)) p.grpIdle }
  let s := s.onPwr fun p => (p.huSample vhu (decide (1 ≤ s.lvl.level)))
  let s := s.onPwr fun p => { p with idle := if s.devIdle then sat32 (p.idle + 1) else 0 }
  match s.pwr.want with
  | some p => if s.devIdle ∧ s.pwr.cur < p then s.enterPs p true else s
  | none => s

end Sys2Proof.Machine
end

