-- ==== Sys2Proof/Machine/Admin.lean ====
section
/-! DEFINITION. Admin commands that touch no media: queues, features, asynchronous events, Abort, directives, self-test and
virtualization (chapter 3; R79, R82, R84, R86 to R89, R93, R405). -/
namespace Sys2Proof.Machine

/-! ### Queue resources (R79) -/

/-- I/O queue pairs assigned to a function: a PF's 64 private pairs and the flexible pairs. -/
def State.assignedQ (s : State) (fn : Nat) : Nat :=
  (if fn = 0 ∨ (fn = 1 ∧ s.hif.bifur) then 64 else 0) + s.hif.flexQ.get 0 fn

/-- Interrupt vectors assigned to a function. -/
def State.assignedV (s : State) (fn : Nat) : Nat :=
  (if fn < 2 then 65 else 1) + s.hif.flexV.get 0 fn

/-- The flexible pool (Table 3.1). -/
def State.flexPool (s : State) : Nat := if s.hif.bifur then 16256 else 16320

/-- Flexible queue pairs and vectors not assigned (HIF_QP_POOL.FREE). -/
def State.flexFreeQ (s : State) : Nat := s.flexPool - s.hif.flexQ.vals.foldl (· + ·) 0
def State.flexFreeV (s : State) : Nat := s.flexPool - s.hif.flexV.vals.foldl (· + ·) 0

/-- Queues that Number of Queues allocated: the current value of feature 0x07, else the assignment. -/
def State.allocatedQ (s : State) (fn : Nat) (cq : Bool) : Nat :=
  match (s.ctrl fn).feats.get none 0x07 with
  | some v => min (s.assignedQ fn) ((if cq then v / 65536 else v % 65536) + 1)
  | none => s.assignedQ fn

/-! ### Queues (R82, R84, Table 3.8) -/

/-- CREATE_IO_CQ: CDW10 QID and QSIZE, CDW11 IV. -/
def State.createCq (s : State) (c : Cmd) : State :=
  let q := c.sqe.cdw10 % 65536
  let size := c.sqe.cdw10 / 65536 % 65536
  if q = 0 ∨ s.allocatedQ c.fn true < q ∨ ((s.ctrl c.fn).cqs.get none q).isSome then s.complete c.fsn stQidInvalid
  else if size = 0 then s.complete c.fsn stQueueSize
  else if c.sqe.cdw11.testBit 1 ∧ s.assignedV c.fn ≤ c.sqe.cdw11 / 65536 then s.complete c.fsn stVector
  else (s.onCtrl c.fn fun k => { k with cqs := k.cqs.set none q (some { size := size + 1 }) }).complete c.fsn stOk

def execCreateIoCq (fsn : Nat) (s : State) : Out := adminRow fsn 0x05 (fun c s => s.createCq c) s

/-- CREATE_IO_SQ: CDW10 QID and QSIZE, CDW11 CQID. -/
def State.createSq (s : State) (c : Cmd) : State :=
  let q := c.sqe.cdw10 % 65536
  let size := c.sqe.cdw10 / 65536 % 65536
  let cq := c.sqe.cdw11 / 65536 % 65536
  if cq = 0 ∨ ((s.ctrl c.fn).cqs.get none cq).isNone then s.complete c.fsn stCqInvalid
  else if q = 0 ∨ s.allocatedQ c.fn false < q ∨ ((s.ctrl c.fn).sqs.get none q).isSome then s.complete c.fsn stQidInvalid
  else if size = 0 then s.complete c.fsn stQueueSize
  else ((s.onCtrl c.fn fun k => { k with sqs := k.sqs.set none q (some { size := size + 1, cq := cq }) }).giveQueue 12 (c.fn, q)).complete c.fsn stOk

def execCreateIoSq (fsn : Nat) (s : State) : Out := adminRow fsn 0x01 (fun c s => s.createSq c) s

/-- DELETE_IO_CQ: refused while a submission queue uses it. -/
def State.deleteCq (s : State) (c : Cmd) : State :=
  let q := c.sqe.cdw10 % 65536
  if q = 0 ∨ ((s.ctrl c.fn).cqs.get none q).isNone then s.complete c.fsn stQidInvalid
  else if (s.ctrl c.fn).sqs.items.any (fun e => e.1 != 0 && (match e.2 with | some k => k.cq == q | none => false)) then s.complete c.fsn stQueueDeletion
  else (s.onCtrl c.fn fun k => { k with cqs := k.cqs.set none q none }).complete c.fsn stOk

def execDeleteIoCq (fsn : Nat) (s : State) : Out := adminRow fsn 0x04 (fun c s => s.deleteCq c) s

/-- A command that Abort and the deletion of its queue can stop: not a write past landing commit nor a read admitted to
media (Table 3.2, R82), nor an admin operation that has begun. -/
def Cmd.stoppable (c : Cmd) : Bool :=
  match c.ph with
  | .fetched => true
  | .lockWait => true
  | .admitWait => c.sq != 0 || c.sqe.opc == 0x80 || c.sqe.opc == 0x84
  | .landing => true
  | .flushWait => true
  | .aerWait => true
  | .running => c.sq != 0
  | _ => false

/-- Stop a command with a status, with the outcome of Table 4.4: a write that has landed whole commits and runs on. -/
def State.stopCmd (s : State) (c : Cmd) (st : Nat) : State :=
  if c.ph = .landing ∧ c.left = 0 then s.landingCommit c.fsn
  else
    let s := if c.ph = .landing ∨ (c.ph = .admitWait ∧ c.sq ≠ 0) then s.discardWrite c true else s
    let s := s.onPrg fun p => { p with scans := p.scans.filter (fun x => x.fsn != c.fsn) }
    let s := if c.ph = .aerWait then s.onCtrl c.fn fun k => { k with aers := k.aers.filter (· != c.fsn) } else s
    s.complete c.fsn st

/-- Commands fetched from a submission queue that have not completed. -/
def State.sqCmds (s : State) (fn q : Nat) : List Cmd := s.hif.cmds.filter (fun c => c.fn == fn && c.sq == q && !c.tunnel)

/-- The end of a Delete I/O SQ, once every command of the queue has posted its completion (R82). -/
def State.endDeleteSq (s : State) (c : Cmd) (q : Nat) : State :=
  if (s.sqCmds c.fn q).isEmpty then
    ((s.onCtrl c.fn fun k => { k with sqs := k.sqs.set none q none }).onHif fun h => { h with heQ := h.heQ.set 0 (c.fn * 65536 + q) 0 }).complete c.fsn stOk
  else s

/-- DELETE_IO_SQ (R82): stoppable commands are aborted, the others run to their end, and then the queue is deleted. -/
def State.deleteSq (s : State) (fsn : Nat) : State :=
  match s.cmd fsn with
  | none => s
  | some c =>
    let q := c.sqe.cdw10 % 65536
    if c.sq ≠ 0 ∨ c.sqe.opc ≠ 0x00 then s
    else if c.ph = .running then s.endDeleteSq c q
    else if (s.adminCmd fsn 0x00).isNone then s
    else
      match (s.ctrl c.fn).sqs.get none q with
      | none => s.complete fsn stQidInvalid
      | some k =>
        if q = 0 then s.complete fsn stQidInvalid
        else
          let s := s.onCtrl c.fn fun x => { x with sqs := x.sqs.set none q (some { k with deleting := true, tail := k.head }) }
          let s := (s.sqCmds c.fn q).foldl (fun s d => if d.stoppable then s.stopCmd d stSqDeleted else s) s
          let s := s.onCmd fsn fun x => { x with ph := .running }
          s.endDeleteSq c q

def execDeleteIoSq (fsn : Nat) (s : State) : Out := .next (s.deleteSq fsn)

/-! ### Abort and asynchronous events (Table 3.2) -/

/-- ABORT: CDW10 SQID and CID; DW0 bit 0 is 1 when the command was not aborted. -/
def State.abort (s : State) (c : Cmd) : State :=
  match (s.sqCmds c.fn (c.sqe.cdw10 % 65536)).find? (fun d => d.sqe.cid == c.sqe.cdw10 / 65536 % 65536 && d.fsn != c.fsn) with
  | some d => if d.stoppable && !(d.ph == .landing && d.left == 0) then (s.stopCmd d stAbortRequested).complete c.fsn stOk 0 else s.complete c.fsn stOk 1
  | none => s.complete c.fsn stOk 1

def execAbort (fsn : Nat) (s : State) : Out := adminRow fsn 0x08 (fun c s => s.abort c) s

/-- ASYNCHRONOUS_EVENT_REQUEST (R88): an event that waits completes it; else it waits. -/
def State.aerRow (s : State) (c : Cmd) : State :=
  if 16 ≤ (s.ctrl c.fn).aers.length then s.complete c.fsn stAerLimit
  else
    match (s.ctrl c.fn).aens with
    | a :: t => (s.onCtrl c.fn fun k => { k with aens := t }).complete c.fsn stOk a.dw0
    | [] => (s.onCmd c.fsn fun x => { x with ph := .aerWait }).onCtrl c.fn fun k => { k with aers := k.aers ++ [c.fsn] }

def execAsynchronousEventRequest (fsn : Nat) (s : State) : Out := adminRow fsn 0x0C (fun c s => s.aerRow c) s

/-! ### Features (Table 3.5) -/

/-- Features supported. -/
def featIds : List Nat := [0x01, 0x02, 0x04, 0x06, 0x07, 0x08, 0x09, 0x0A, 0x0B, 0x0C, 0x0E, 0x11, 0x1D, 0x1E, 0xC0, 0xC1]

/-- Features that are saveable, and PF only. -/
def featSaves (fid : Nat) : Bool := fid != 0x06 && fid != 0x07 && fid != 0x0E
def featPf (fid : Nat) : Bool := fid == 0xC0 || fid == 0xC1

/-- A feature's key: its identifier with the selector that names the threshold, vector, handle or namespace. -/
def Cmd.featKey (c : Cmd) : Nat :=
  let fid := c.sqe.cdw10 % 256
  if fid = 0x04 then fid + 256 * bits c.sqe.cdw11 21 16
  else if fid = 0x09 then fid + 256 * (c.sqe.cdw11 % 65536)
  else if fid = 0x1E then fid + 256 * (c.sqe.cdw11 % 65536)
  else fid

/-- Features that act on the device as a whole are kept for PF0. -/
def featFn (fid fn : Nat) : Nat := if fid = 0x0C ∨ fid = 0x11 ∨ fid = 0x1D then 0 else fn

/-- The controller an operation of feature 0xC1 names. -/
def Cmd.tenantFn (c : Cmd) : Nat := c.sqe.cdw12 % 2048

/-- Entry p of an Autonomous Power State Transition table: only PS3 and PS4 are targets. -/
def apstOk (d : List Byte) : Bool :=
  (List.range 32).all fun p => leAt d (8 * p + 1) 3 == 0 || leAt d (8 * p) 1 / 8 == 3 || leAt d (8 * p) 1 / 8 == 4

/-- Active resources left for zones, and their use (R139). -/
def activeLeft (fdp conv : Bool) : Nat := 8192 - (if fdp then 512 else if conv then 256 else 0)
def State.quotas (s : State) : Nat := s.nss.items.foldl (fun a e => match e.2 with | some n => if n.zoned then a + n.quota else a | none => a) 0
def State.anyConv (s : State) : Bool := s.nss.items.any fun e => match e.2 with | some n => !n.zoned | none => false

/-- The value a Set Features gives, kept as one number: CDW11, with the data buffer above bit 32 for the table of 0x0C, and
the event types of 0x1E as a bit set. -/
def State.featValue (s : State) (c : Cmd) : Nat :=
  let v := c.sqe.cdw11
  match c.sqe.cdw10 % 256 with
  | 0x04 => v % 65536
  | 0x07 => min (v % 65536) (s.assignedQ c.fn - 1) + 65536 * min (v / 65536 % 65536) (s.assignedQ c.fn - 1)
  | 0x09 => bits v 16 16
  | 0x0C => ofLe (c.sqe.data.take 256) * 2 ^ 32 + v
  | 0x1D => c.sqe.cdw12 % 2
  | 0x1E => (c.sqe.data.take (bits v 23 16)).foldl (fun a b => putBit a b.toNat (c.sqe.cdw12.testBit 0)) (s.feat c.fn c.featKey)
  | _ => v

/-- The status of a Set Features (R86, R87, R93, R140), success where it is accepted. -/
def State.setStatus (s : State) (c : Cmd) : Nat :=
  let fid := c.sqe.cdw10 % 256
  let v := c.sqe.cdw11
  if !featIds.contains fid then stInvalidField
  else if featPf fid ∧ !c.ringO then stRing
  else if c.sqe.cdw10.testBit 31 ∧ !featSaves fid then stFeatureNotSaveable
  else
    match fid with
    | 0x02 => stIf (decide (4 < v % 32)) stInvalidField
    | 0x04 => stIf (decide (4 < bits v 19 16) || decide (1 < bits v 21 20)) stInvalidField
    | 0x06 => stIf (!s.pwr.present) stInvalidField
    | 0x07 => firstBad [stIf (v % 65536 == 0xFFFF || v / 65536 % 65536 == 0xFFFF) stInvalidField,
        stIf ((s.ctrl c.fn).sqs.keys.any (· != 0) || (s.ctrl c.fn).cqs.keys.any (· != 0)) stSequence]
    | 0x09 => stIf (decide (s.assignedV c.fn ≤ v % 65536)) stInvalidField
    | 0x0C => stIf (!apstOk c.sqe.data) stInvalidField
    | 0x1D => stIf (v % 65536 != 1 || bits c.sqe.cdw12 15 8 != 0 ||
        (c.sqe.cdw12.testBit 0 && decide (activeLeft true s.anyConv < s.quotas))) stInvalidField
    | 0x1E => stIf (decide (128 ≤ v % 65536)) stInvalidField
    | 0xC0 => stIf (s.ns c.sqe.nsid).isNone stInvalidNs
    | 0xC1 => stIf (decide (1025 < c.tenantFn)) stInvalidField
    | _ => stOk

/-- Set Features Power Management (R405, R406): PS0 to PS2 complete at the step 2 that puts the cap in force; PS3 and PS4
complete at once and are entered when the device is idle. -/
def State.setPower (s : State) (c : Cmd) : State :=
  let p := c.sqe.cdw11 % 32
  if p ≤ 2 then
    let old := s.pwr.cur
    let s := s.onPwr fun x => { x with cur := p, lastOp := p, want := none, hk := none, pmWait := x.pmWait ++ [c.fsn] }
    let s := if old = p then s else s.logState 1 old p
    (s.fspRequest (fspOf p)).onCmd c.fsn fun x => { x with ph := .running }
  else
    let s := s.complete c.fsn stOk
    if s.devIdle then s.enterPs p true else s.onPwr fun x => { x with want := some p }

/-- The host time of a Timestamp, and its TIME_SET record (R89, R452). -/
def State.setTime (s : State) (c : Cmd) : State :=
  let d := padTo 8 (c.sqe.data.take 8)
  (s.logRec 0 2 uFront 48 (d ++ leBytes 6 s.time.ms)).onTime fun t => { t with host := some (leAt d 0 6, t.ms) }

/-- The effect of an accepted Set Features other than Power Management. -/
def State.setEffect (s : State) (c : Cmd) : State :=
  let fid := c.sqe.cdw10 % 256
  let v := c.sqe.cdw11
  match fid with
  | 0x06 => s.onCtrl c.fn fun k => { k with wce := v.testBit 0 }
  | 0x0E => s.setTime c
  | 0x1D => s.onHif fun h => { h with fdp := c.sqe.cdw12.testBit 0 }
  | 0xC0 => s.onNs c.sqe.nsid fun n => { n with bind := some (v % 4096, bits v 13 12) }
  | 0xC1 => s.onHif fun h => { h with defTid := h.defTid.set 0 c.tenantFn (v % 4096) }
  | _ => s.onCtrl (featFn fid c.fn) fun k => { k with feats := k.feats.set none c.featKey (some (s.featValue c)) }

/-- Where a saved value is kept: a binding and a default tenant under the namespace or controller they belong to. -/
def Cmd.saveKey (c : Cmd) : Nat :=
  let fid := c.sqe.cdw10 % 256
  if fid = 0xC0 then 0xC0 + 256 * c.sqe.nsid else if fid = 0xC1 then c.tenantFn * 2 ^ 32 + 0xC1 else featFn fid c.fn * 2 ^ 32 + c.featKey

/-- The saved value of a saveable feature (MRAM). -/
def State.saveFeat (s : State) (c : Cmd) : State :=
  if c.sqe.cdw10.testBit 31 then s.onHif fun h => { h with saved := h.saved.set none c.saveKey (some (s.featValue c)) } else s

/-- SET_FEATURES. -/
def State.setFeatures (s : State) (c : Cmd) : State :=
  let st := s.setStatus c
  if st ≠ stOk then s.complete c.fsn st
  else if c.sqe.cdw10 % 256 = 0x02 then (s.saveFeat c).setPower c
  else
    let v := s.featValue c
    ((s.saveFeat c).setEffect c).complete c.fsn stOk (if c.sqe.cdw10 % 256 = 0x07 then v else 0)

def execSetFeatures (fsn : Nat) (s : State) : Out := adminRow fsn 0x09 (fun c s => s.setFeatures c) s

/-- The Timestamp data structure (R89): milliseconds, and the origin in byte 6 [3:1]. -/
def State.timestamp (s : State) : List Byte :=
  match s.time.host with
  | some (h, at0) => leBytes 6 (h + (s.time.ms - at0)) ++ [2, 0]
  | none => leBytes 6 s.time.ms ++ [0, 0]

/-- The current DW0 of a feature. -/
def State.featNow (s : State) (c : Cmd) : Nat :=
  match c.sqe.cdw10 % 256 with
  | 0x02 => s.pwr.cur
  | 0x06 => b2n (s.ctrl c.fn).wce
  | 0x07 => (s.allocatedQ c.fn false - 1) + 65536 * (s.allocatedQ c.fn true - 1)
  | 0x0C => s.feat 0 0x0C % 2 ^ 32
  | 0x0E => 0
  | 0x11 => s.feat 0 0x11
  | 0x1D => b2n s.hif.fdp
  | 0x1E => 1
  | 0xC0 => (match (s.ns c.sqe.nsid).bind (·.bind) with | some (t, k) => 2 ^ 31 + k * 4096 + t | none => 0)
  | 0xC1 => s.hif.defTid.get 0 c.tenantFn
  | 0x09 => c.sqe.cdw11 % 65536 + 65536 * s.feat c.fn c.featKey
  | _ => s.feat c.fn c.featKey

/-- The default DW0 of a feature. -/
def State.featDefault (s : State) (c : Cmd) : Nat :=
  match c.sqe.cdw10 % 256 with
  | 0x06 => 1
  | 0x07 => (s.assignedQ c.fn - 1) * 65537
  | 0x09 => c.sqe.cdw11 % 65536
  | 0x1E => 1
  | _ => 0

/-- The DW0 that a kept value of a feature shows: a binding as BOUND, a vector's coalescing under its number, the table of 0x0C and
the event types of 0x1E apart (Table 3.5). -/
def Cmd.featShow (c : Cmd) (v : Nat) : Nat :=
  match c.sqe.cdw10 % 256 with
  | 0x09 => c.sqe.cdw11 % 65536 + 65536 * (v % 2)
  | 0x1E => 1
  | 0xC0 => 2 ^ 31 + v % 16384
  | 0xC1 => v % 4096
  | _ => v % 2 ^ 32

/-- The saved DW0, else the default. -/
def State.featSaved (s : State) (c : Cmd) : Nat := ((s.hif.saved.get none c.saveKey).map c.featShow).getD (s.featDefault c)

/-- The data structure a Get Features returns with a kept value `v`. -/
def State.featData (s : State) (c : Cmd) (v : Nat) : List Byte :=
  match c.sqe.cdw10 % 256 with
  | 0x0C => leBytes 256 (v / 2 ^ 32)
  | 0x0E => s.timestamp
  | 0x1E => [0x80, BitVec.ofNat 8 (b2n (v.testBit 0x80))]
  | _ => []

/-- GET_FEATURES: SEL 0 current, 1 default, 2 saved, 3 capabilities. -/
def State.getFeatures (s : State) (c : Cmd) : State :=
  let fid := c.sqe.cdw10 % 256
  let sel := bits c.sqe.cdw10 10 8
  if !featIds.contains fid ∨ 3 < sel then s.complete c.fsn stInvalidField
  else if featPf fid ∧ !c.ringO then s.complete c.fsn stRing
  else if fid = 0xC0 ∧ (s.ns c.sqe.nsid).isNone then s.complete c.fsn stInvalidNs
  else if fid = 0xC1 ∧ 1025 < c.tenantFn then s.complete c.fsn stInvalidField
  else if sel = 0 then s.complete c.fsn stOk (s.featNow c) (s.featData c (s.feat (featFn fid c.fn) c.featKey))
  else if sel = 1 then s.complete c.fsn stOk (s.featDefault c) (s.featData c 0)
  else if sel = 2 then s.complete c.fsn stOk (s.featSaved c) (s.featData c ((s.hif.saved.get none c.saveKey).getD 0))
  else s.complete c.fsn stOk (4 + b2n (featSaves fid) + 2 * b2n (fid == 0xC0))

def execGetFeatures (fsn : Nat) (s : State) : Out := adminRow fsn 0x0A (fun c s => s.getFeatures c) s

/-- Set Features Power Management commands complete at the step 2 that puts their cap in force (R405, R430). -/
def State.pmDone (s : State) : State :=
  (s.pwr.pmWait.foldl (fun s f => s.complete f stOk) s).onPwr fun p => { p with pmWait := [] }

/-! ### Virtualization (R79) -/

/-- The functions of a primary controller's own secondaries. -/
def State.secondaryOf (s : State) (pf fn : Nat) : Bool := decide (2 ≤ fn) && decide (fn ≤ 1025) && s.portOf fn == pf

/-- Assign flexible resources of a kind (0 queue pairs, 1 vectors) to a function within the limits of Table 3.1. -/
def State.assignFlex (s : State) (c : Cmd) (fn rt nr : Nat) : State :=
  let have_ := if rt = 0 then s.hif.flexQ.get 0 fn else s.hif.flexV.get 0 fn
  let free := if rt = 0 then s.flexFreeQ else s.flexFreeV
  let own := if fn < 2 then 64 else 0
  if free + have_ < nr ∨ 4096 < own + nr then s.complete c.fsn stInvalidField
  else
    let s := s.onHif fun h => if rt = 0 then { h with flexQ := h.flexQ.set 0 fn nr } else { h with flexV := h.flexV.set 0 fn nr }
    s.complete c.fsn stOk nr

/-- VIRTUALIZATION_MANAGEMENT: ACT 1 primary flexible allocation, 7 secondary offline, 8 secondary assign, 9 secondary
online; a secondary without a flexible queue pair and vector cannot be brought online. -/
def State.virt (s : State) (c : Cmd) : State :=
  let act := c.sqe.cdw10 % 16
  let rt := bits c.sqe.cdw10 10 8
  let id := c.sqe.cdw10 / 65536 % 65536
  let nr := c.sqe.cdw11 % 65536
  if 2 ≤ c.fn ∨ !([1, 7, 8, 9].contains act) then s.complete c.fsn stInvalidField
  else if act = 1 then
    if id ≠ c.fn then s.complete c.fsn stInvalidCtrl
    else if 1 < rt then s.complete c.fsn stResourceId
    else s.assignFlex c id rt nr
  else if !s.secondaryOf c.fn id then s.complete c.fsn stInvalidCtrl
  else if act = 7 then
    let s := s.resetFns (· == id)
    let s := s.onHif fun h => { h with online := h.online.set false id false, flexQ := h.flexQ.set 0 id 0, flexV := h.flexV.set 0 id 0 }
    s.complete c.fsn stOk
  else if act = 8 then
    if s.hif.online.get false id then s.complete c.fsn stSecondaryState
    else if 1 < rt then s.complete c.fsn stResourceId
    else s.assignFlex c id rt nr
  else if s.hif.flexQ.get 0 id = 0 ∨ s.hif.flexV.get 0 id = 0 then s.complete c.fsn stSecondaryState
  else (s.onHif fun h => { h with online := h.online.set false id true }).complete c.fsn stOk

def execVirtualizationManagement (fsn : Nat) (s : State) : Out := adminRow fsn 0x1C (fun c s => s.virt c) s

/-! ### Directives and self-test (Table 3.2) -/

/-- DIRECTIVE_SEND: the Identify directive's Enable Directive only, and that for no other directive. -/
def State.dirSend (s : State) (c : Cmd) : State :=
  if bits c.sqe.cdw11 15 8 ≠ 0 ∨ c.sqe.cdw11 % 256 ≠ 1 ∨ bits c.sqe.cdw12 15 8 ≠ 0 then s.complete c.fsn stInvalidField
  else s.complete c.fsn stOk

def execDirectiveSend (fsn : Nat) (s : State) : Out := adminRow fsn 0x19 (fun c s => s.dirSend c) s

/-- DIRECTIVE_RECEIVE: the Identify directive's Return Parameters: directives supported and enabled. -/
def State.dirReceive (s : State) (c : Cmd) : State :=
  if bits c.sqe.cdw11 15 8 ≠ 0 ∨ c.sqe.cdw11 % 256 ≠ 1 then s.complete c.fsn stInvalidField
  else s.complete c.fsn stOk 0 (padTo 4096 (padTo 32 [1] ++ [1]))

def execDirectiveReceive (fsn : Nat) (s : State) : Out := adminRow fsn 0x1A (fun c s => s.dirReceive c) s

/-- DEVICE_SELF_TEST: STC 1 short, 2 extended, 0xF abort. -/
def State.selfTest (s : State) (c : Cmd) : State :=
  let stc := c.sqe.cdw10 % 16
  if stc = 1 ∨ stc = 2 then
    if s.hif.dst ≠ 0 then s.complete c.fsn stSelfTestRunning
    else (s.onHif fun h => { h with dst := stc }).complete c.fsn stOk
  else if stc = 15 then
    (s.onHif fun h => if h.dst ≠ 0 then { h with dst := 0, dstLast := h.dst * 16 + 1 } else h).complete c.fsn stOk
  else s.complete c.fsn stInvalidField

def execDeviceSelfTest (fsn : Nat) (s : State) : Out := adminRow fsn 0x14 (fun c s => s.selfTest c) s

/-- A running self-test ends, passed (Table 3.2 bounds its time). -/
def State.dstDone (s : State) : State :=
  s.onHif fun h => if h.dst ≠ 0 then { h with dst := 0, dstLast := h.dst * 16 } else h

end Sys2Proof.Machine
end

