-- ==== Sys2Proof/Machine/Baluf.lean ====
section
/-! DEFINITION. The Baluf instructions, one meaning each: integer, control, streams, vectors, system, and the loads and
stores of memory (chapter 9; R264 to R294). `e` is the engine index of Table 1.2. -/
namespace Sys2Proof.Machine

/-! ### Integer (Tables 9.4 and 9.5) -/

/-- Register ALU: d = f a b. -/
def aluRow (e : Nat) (op : BOp) (f : W64 → W64 → W64) (s : State) : Out :=
  simpleRow e op (fun i g s => .go (s.onEng e (·.setW i.d (f (g.w i.a) (g.w i.b))))) s

/-- 1 or 0 as a register value. -/
def bit64 (b : Bool) : W64 := if b then 1 else 0

/-- Low six bits of a shift amount. -/
def sh6 (b : W64) : Nat := b.toNat % 64

def execAdd (e : Nat) (s : State) : Out := aluRow e .add (fun a b => a + b) s
def execSub (e : Nat) (s : State) : Out := aluRow e .sub (fun a b => a - b) s
def execAnd (e : Nat) (s : State) : Out := aluRow e .and (fun a b => a &&& b) s
def execOr (e : Nat) (s : State) : Out := aluRow e .or (fun a b => a ||| b) s
def execXor (e : Nat) (s : State) : Out := aluRow e .xor (fun a b => a ^^^ b) s
def execAndn (e : Nat) (s : State) : Out := aluRow e .andn (fun a b => a &&& ~~~b) s
def execSll (e : Nat) (s : State) : Out := aluRow e .sll (fun a b => a <<< sh6 b) s
def execSrl (e : Nat) (s : State) : Out := aluRow e .srl (fun a b => a >>> sh6 b) s
def execSra (e : Nat) (s : State) : Out := aluRow e .sra (fun a b => a.sshiftRight (sh6 b)) s
def execRor (e : Nat) (s : State) : Out := aluRow e .ror (fun a b => a.rotateRight (sh6 b)) s
def execSlt (e : Nat) (s : State) : Out := aluRow e .slt (fun a b => bit64 (a.slt b)) s
def execSltu (e : Nat) (s : State) : Out := aluRow e .sltu (fun a b => bit64 (a.ult b)) s
def execMin (e : Nat) (s : State) : Out := aluRow e .min (fun a b => if b.slt a then b else a) s
def execMax (e : Nat) (s : State) : Out := aluRow e .max (fun a b => if a.slt b then b else a) s
def execMinu (e : Nat) (s : State) : Out := aluRow e .minu (fun a b => if b.ult a then b else a) s
def execMaxu (e : Nat) (s : State) : Out := aluRow e .maxu (fun a b => if a.ult b then b else a) s
def execAddw (e : Nat) (s : State) : Out := aluRow e .addw (fun a b => ((a + b).truncate 32).signExtend 64) s
def execSubw (e : Nat) (s : State) : Out := aluRow e .subw (fun a b => ((a - b).truncate 32).signExtend 64) s
def execMul (e : Nat) (s : State) : Out := aluRow e .mul (fun a b => a * b) s
def execMulh (e : Nat) (s : State) : Out :=
  aluRow e .mulh (fun a b => ((a.signExtend 128 * b.signExtend 128) >>> 64).truncate 64) s
def execMulhu (e : Nat) (s : State) : Out :=
  aluRow e .mulhu (fun a b => ((a.zeroExtend 128 * b.zeroExtend 128) >>> 64).truncate 64) s
/-- DIV (R265): a divisor of zero gives all ones. -/
def execDiv (e : Nat) (s : State) : Out := aluRow e .div (fun a b => if b = 0 then BitVec.allOnes 64 else a.sdiv b) s
def execDivu (e : Nat) (s : State) : Out := aluRow e .divu (fun a b => if b = 0 then BitVec.allOnes 64 else a / b) s
/-- REM (R265): a divisor of zero gives a. -/
def execRem (e : Nat) (s : State) : Out := aluRow e .rem (fun a b => if b = 0 then a else a.srem b) s
def execRemu (e : Nat) (s : State) : Out := aluRow e .remu (fun a b => if b = 0 then a else a % b) s
def execClz (e : Nat) (s : State) : Out := aluRow e .clz (fun a _ => BitVec.ofNat 64 (clz64 a.toNat)) s
def execCtz (e : Nat) (s : State) : Out := aluRow e .ctz (fun a _ => BitVec.ofNat 64 (firstSet 64 a.toNat)) s
def execPopc (e : Nat) (s : State) : Out := aluRow e .popc (fun a _ => BitVec.ofNat 64 (popBits 64 a.toNat)) s
def execBswap (e : Nat) (s : State) : Out := aluRow e .bswap (fun a _ => BitVec.ofNat 64 (ofLe (leBytes 8 a.toNat).reverse)) s
def execCrc32c (e : Nat) (s : State) : Out :=
  aluRow e .crc32c (fun a b => BitVec.ofNat 64 ((leBytes 8 b.toNat).foldl crcByte (a.toNat % 2 ^ 32))) s

/-- Immediate ALU: d = f a on the instruction's immediate. -/
def immRow (e : Nat) (op : BOp) (f : W64 → Ins → W64) (s : State) : Out :=
  simpleRow e op (fun i g s => .go (s.onEng e (·.setW i.d (f (g.w i.a) i)))) s

def execAddi (e : Nat) (s : State) : Out := immRow e .addi (fun a i => a + i.sx) s
def execAndi (e : Nat) (s : State) : Out := immRow e .andi (fun a i => a &&& i.zx) s
def execOri (e : Nat) (s : State) : Out := immRow e .ori (fun a i => a ||| i.zx) s
def execXori (e : Nat) (s : State) : Out := immRow e .xori (fun a i => a ^^^ i.zx) s
def execSlti (e : Nat) (s : State) : Out := immRow e .slti (fun a i => bit64 (a.slt i.sx)) s
def execSltiu (e : Nat) (s : State) : Out := immRow e .sltiu (fun a i => bit64 (a.ult i.sx)) s
/-- SHI: imm16 [5:0] is the amount, [7:6] the shift (Table 9.5). -/
def execShi (e : Nat) (s : State) : Out :=
  immRow e .shi (fun a i =>
    let n := i.imm % 64
    match i.imm / 64 % 4 with
    | 0 => a <<< n
    | 1 => a >>> n
    | 2 => a.sshiftRight n
    | _ => a.rotateRight n) s
def execLui (e : Nat) (s : State) : Out := immRow e .lui (fun _ i => i.sx <<< 16) s
def execShlori (e : Nat) (s : State) : Out := immRow e .shlori (fun a i => (a <<< 16) ||| i.zx) s

/-! ### Control transfer and loops (Table 9.7, R268 to R270) -/

/-- A pc plus a signed offset, modulo 2^64. -/
def pcPlus (pc : Nat) (off : W64) : Nat := (BitVec.ofNat 64 pc + off).toNat

/-- A conditional branch: 1 cycle not taken, 2 taken. -/
def brRow (e : Nat) (op : BOp) (p : W64 → W64 → Bool) (s : State) : Out :=
  balufRow e op (fun i g _ => if p (g.w i.ba) (g.w i.bb) then 2 else 1)
    (fun i g s => if p (g.w i.ba) (g.w i.bb) then .jump s (pcPlus g.pc i.boff) false else .go s) s

def execBeq (e : Nat) (s : State) : Out := brRow e .beq (fun a b => a == b) s
def execBne (e : Nat) (s : State) : Out := brRow e .bne (fun a b => a != b) s
def execBlt (e : Nat) (s : State) : Out := brRow e .blt (fun a b => a.slt b) s
def execBge (e : Nat) (s : State) : Out := brRow e .bge (fun a b => !a.slt b) s
def execBltu (e : Nat) (s : State) : Out := brRow e .bltu (fun a b => a.ult b) s
def execBgeu (e : Nat) (s : State) : Out := brRow e .bgeu (fun a b => !a.ult b) s
def execJ (e : Nat) (s : State) : Out := simpleRow e .j (fun i g s => .jump s (pcPlus g.pc i.joff) false) s
def execJal (e : Nat) (s : State) : Out :=
  simpleRow e .jal (fun i g s => .jump (s.onEng e (·.setW 31 (BitVec.ofNat 64 (g.pc + 4)))) (pcPlus g.pc i.joff) true) s
/-- JALR: a target that is no multiple of 4 raises misalign. -/
def execJalr (e : Nat) (s : State) : Out :=
  simpleRow e .jalr (fun i g s =>
    let t := (g.w i.a).toNat
    if t % 4 ≠ 0 then .trap cMisalign t else .jump (s.onEng e (·.setW i.d (BitVec.ofNat 64 (g.pc + 4)))) t true) s

/-- Set up a hardware loop (R269). -/
def loopSet (e : Nat) (i : Ins) (g : Eng) (count len : Nat) (s : State) : BRes :=
  let l := g.loops
  if 16777215 < count then .trap cIllegal count
  else if loopDepth l = 2 ∨ (loopDepth l = 1 ∧ l.1.fin < g.pc + 4 * len) then .trap cIllegal i.w
  else if count = 0 then .done (s.onEng e (·.setPc (g.pc + 4 + 4 * len)))
  else
    let n : Lvl := { start := g.pc + 4, fin := g.pc + 4 * len, remain := count }
    .done (s.onEng e fun x => (x.setLoops (if loopDepth l = 0 then (n, {}) else (l.1, n))).setPc (g.pc + 4))

def execLoopi (e : Nat) (s : State) : Out := simpleRow e .loopi (fun i g s => loopSet e i g (i.imm % 4096) i.len s) s
def execLoop (e : Nat) (s : State) : Out := simpleRow e .loop (fun i g s => loopSet e i g (g.w i.ba).toNat i.imm s) s

/-! ### Streams (R271, R272) -/

/-- The next `n` input bytes hold a byte of a poisoned word. -/
def Eng.badInput (g : Eng) (n : Nat) : Bool := g.inBad.any fun b => decide (b < g.strpos + n) && decide (g.strpos < b + 8)

/-- Take `n` input bytes. -/
def Eng.takeIn (g : Eng) (n : Nat) : Eng := { g with inp := g.inp.drop n, strpos := g.strpos + n }

/-- Append output bytes. -/
def Eng.putOut (g : Eng) (d : List Byte) : Eng := { g with outp := g.outp ++ d, room := g.room - d.length }

/-- A read of `n` input bytes: the stream trap beyond REMAIN or unattached, the poison trap at a poisoned word. -/
def streamIn (e n : Nat) (g : Eng) (s : State) (f : List Byte → Eng → Eng) : BRes :=
  if !g.inAtt ∨ g.inp.length < n then .trap cStream n
  else if g.badInput n then .trap cPoison g.strpos
  else .go (s.onEng e fun x => f (g.inp.take n) (x.takeIn n))

/-- A write of output bytes: the stream trap beyond ROOM or unattached. -/
def streamOut (e : Nat) (g : Eng) (d : List Byte) (s : State) : BRes :=
  if !g.outAtt ∨ g.room < d.length then .trap cStream d.length else .go (s.onEng e (·.putOut d))

def execSin (e : Nat) (s : State) : Out :=
  simpleRow e .sin (fun i g s => streamIn e i.imm g s fun d x => x.setW i.d (BitVec.ofNat 64 (ofLe d))) s
def execSout (e : Nat) (s : State) : Out :=
  simpleRow e .sout (fun i g s => streamOut e g (leBytes i.imm (g.w i.a).toNat) s) s
/-- SSKIP drops bytes without using them. -/
def execSskip (e : Nat) (s : State) : Out :=
  simpleRow e .sskip (fun i g s =>
    let k := (g.w i.a + i.zx).toNat
    if !g.inAtt ∨ g.inp.length < k then .trap cStream k else .go (s.onEng e (·.takeIn k))) s

/-! ### Vectors (R273, Tables 9.9 and 9.10) -/

/-- Vector ALU: vd = f e va vb. -/
def vecRow (e : Nat) (op : BOp) (f : Nat → W256 → W256 → W256) (s : State) : Out :=
  simpleRow e op (fun i g s => .go (s.onEng e (·.setU i.vd (f i.e (g.uv i.va) (g.uv i.vb))))) s

def execVand (e : Nat) (s : State) : Out := vecRow e .vand (fun _ a b => a &&& b) s
def execVor (e : Nat) (s : State) : Out := vecRow e .vor (fun _ a b => a ||| b) s
def execVxor (e : Nat) (s : State) : Out := vecRow e .vxor (fun _ a b => a ^^^ b) s
def execVandn (e : Nat) (s : State) : Out := vecRow e .vandn (fun _ a b => a &&& ~~~b) s
def execVadd (e : Nat) (s : State) : Out := vecRow e .vadd (fun w a b => vmap2 w (fun x y => x + y) a b) s
def execVsub (e : Nat) (s : State) : Out := vecRow e .vsub (fun w a b => vmap2 w (fun x y => x + 2 ^ (8 * 2 ^ w) - y) a b) s
def execVminu (e : Nat) (s : State) : Out := vecRow e .vminu (fun w a b => vmap2 w (fun x y => min x y) a b) s
def execVmaxu (e : Nat) (s : State) : Out := vecRow e .vmaxu (fun w a b => vmap2 w (fun x y => max x y) a b) s
def execVcmpeq (e : Nat) (s : State) : Out := vecRow e .vcmpeq (fun w a b => vmap2 w (fun x y => onesIf w (x == y)) a b) s
def execVcmpgtu (e : Nat) (s : State) : Out := vecRow e .vcmpgtu (fun w a b => vmap2 w (fun x y => onesIf w (decide (y < x))) a b) s
def execVcmpgt (e : Nat) (s : State) : Out := vecRow e .vcmpgt (fun w a b => vmap2 w (fun x y => onesIf w (sgtN w x y)) a b) s
/-- VSHUF: byte i is 0 where bit 7 of vb byte i is 1, else the va byte it indexes. -/
def execVshuf (e : Nat) (s : State) : Out :=
  vecRow e .vshuf (fun _ a b => vmap2 0 (fun _ y => if 128 ≤ y then 0 else lane 0 (y % 32) a) a b) s
/-- VBSL: bits of va where vd is 1, of vb where vd is 0. -/
def execVbsl (e : Nat) (s : State) : Out :=
  simpleRow e .vbsl (fun i g s => .go (s.onEng e (·.setU i.vd ((g.uv i.vd &&& g.uv i.va) ||| (~~~(g.uv i.vd) &&& g.uv i.vb))))) s
def execVsplat (e : Nat) (s : State) : Out :=
  simpleRow e .vsplat (fun i g s => .go (s.onEng e (·.setU i.vd (BitVec.ofNat 256 (ofLanes i.e (List.replicate (32 / 2 ^ i.e) (g.w i.r).toNat)))))) s
def execVmovw (e : Nat) (s : State) : Out :=
  simpleRow e .vmovw (fun i g s => .go (s.onEng e (·.setW i.r (BitVec.ofNat 64 (lane 3 i.e (g.uv i.va)))))) s
def execVins (e : Nat) (s : State) : Out :=
  simpleRow e .vins (fun i g s => .go (s.onEng e (·.setU i.vd (BitVec.ofNat 256 (ofLanes 3 ((lanes 3 (g.uv i.vd)).set i.e (g.w i.r).toNat)))))) s

/-- A w register taken from a vector. -/
def vtoW (e : Nat) (op : BOp) (f : W256 → W64 → Nat) (s : State) : Out :=
  simpleRow e op (fun i g s => .go (s.onEng e (·.setW i.r (BitVec.ofNat 64 (f (g.uv i.va) (g.w i.r)))))) s

/-- The top bits of a vector's bytes. -/
def topBits (v : W256) : Nat := (List.range 32).foldl (fun a k => a + b2n (decide (128 ≤ lane 0 k v)) * 2 ^ k) 0

def execVmask (e : Nat) (s : State) : Out := vtoW e .vmask (fun v _ => topBits v) s
def execVpopc (e : Nat) (s : State) : Out := vtoW e .vpopc (fun v _ => popBits 256 v.toNat) s
def execVfirst (e : Nat) (s : State) : Out := vtoW e .vfirst (fun v _ => firstSet 32 (topBits v)) s
def execVcrc (e : Nat) (s : State) : Out := vtoW e .vcrc (fun v r => (vbytes v).foldl crcByte (r.toNat % 2 ^ 32)) s

def execVsin (e : Nat) (s : State) : Out := simpleRow e .vsin (fun i g s => streamIn e 32 g s fun d x => x.setU i.vd (ofVbytes d)) s
def execVsout (e : Nat) (s : State) : Out := simpleRow e .vsout (fun i g s => streamOut e g (vbytes (g.uv i.va)) s) s
/-- VSOUTM: the bytes of va whose vb byte has its top bit set, in ascending order. -/
def execVsoutm (e : Nat) (s : State) : Out :=
  simpleRow e .vsoutm (fun i g s =>
    streamOut e g (((vbytes (g.uv i.va)).zip (lanes 0 (g.uv i.vb))).filterMap fun x => if 128 ≤ x.2 then some x.1 else none) s) s

/-! ### Memory (R266, R267) -/

/-- The words of a range that do not deliver have been found (R330). -/
def State.foundIn (s : State) (loc n : Nat) : State :=
  (wordsOf loc n).foldl (fun s a => match s.wordCls a with | .uncorr => s.foundBad a | _ => s) s

/-- What a load delivers of a range: a word of another unit crosses the fabric (R327). -/
def State.loadBytesAt (s : State) (e loc size : Nat) : Option Nat × State :=
  let v := ofLe (s.memBytes loc size)
  let t := s.consume loc size (uEng e)
  if locSpace loc = 0 ∧ s.fabricHits (s.locOwner loc) then
    match t.fabric (s.locOwner loc) (uEng e) (s.wordData (loc / 8 * 8)) with
    | (some d, u) => (some (if size = 32 then v - v % 2 ^ 64 + d else d / 2 ^ (8 * (loc % 8)) % 2 ^ (8 * size)), u)
    | (none, u) => (none, u)
  else (some v, t)

/-- A load of 1, 2, 4, 8 or 32 bytes from memory: the value and the state with corrections written back, or the trap; from
outside the engine's own local memory in at least 120 cycles instead of the 2 already taken (Table 9.6). An access to
register space of a size other than 4 misaligns (R9); those of size 4 are the register rows'. -/
def State.loadAt (s : State) (e : Nat) (g : Eng) (ea size : Nat) : Except (State × Nat × Nat) (Nat × State) :=
  if ea % size ≠ 0 then .error (s, cMisalign, ea)
  else match s.translate e g ea size false with
    | .error c => .error (s, c, ea)
    | .ok (.reg _) => .error (s, cMisalign, ea)
    | .ok (.mem loc) =>
      if s.memReads loc size then
        match s.loadBytesAt e loc size with
        | (some v, t) => .ok (v, t.spendAt e loc 2 120)
        | (none, t) => .error (t, cPoison, ea)
      else .error (s.foundIn loc size, cPoison, ea)
    | .ok (.mram off) => .ok (ofLe (s.mram.getRange 0 off size), s.spendFar e 2 120)

/-- A store of 1, 2, 4, 8 or 32 bytes: the state, or the trap. A part of a poisoned word is not written (R267). A store outside
the engine's own local memory takes at least 10 cycles instead of the `c` already taken (Table 9.6). -/
def State.storeAt_ (s : State) (e : Nat) (g : Eng) (ea size v c : Nat) : Except (State × Nat × Nat) State :=
  if ea % size ≠ 0 then .error (s, cMisalign, ea)
  else match s.translate e g ea size true with
    | .error c => .error (s, c, ea)
    | .ok (.reg _) => .error (s, cMisalign, ea)
    | .ok (.mem loc) =>
      if size < 8 then
        if s.memReads loc size then .ok (((s.consume loc size (uEng e)).memSend e loc size v).spendAt e loc c 10)
        else .error (s.foundIn loc size, cPoison, ea)
      else .ok (((s.memSend e loc 8 (v % 2 ^ 64)).memFill (loc + 8) (leBytes (size - 8) (v / 2 ^ 64)) (size / 8 - 1)).spendAt e loc c 10)
    | .ok (.mram off) => .ok ((s.onMram fun m => m.setRange 0 off (leBytes size v)).spendFar e c 10)

/-- The effective address of a load or store. -/
def Eng.ea (g : Eng) (i : Ins) : Nat := (g.w i.a + i.sx).toNat

/-- A load row. -/
def loadRow (e : Nat) (op : BOp) (size : Nat) (ext : Nat → W64) (s : State) : Out :=
  simpleRow e op (fun i g s => match s.loadAt e g (g.ea i) size with
    | .error (t, c, v) => .trapIn t c v
    | .ok (v, t) => .go (t.onEng e (·.setW i.d (ext v)))) s

/-- A store row. -/
def storeRow (e : Nat) (op : BOp) (size : Nat) (s : State) : Out :=
  simpleRow e op (fun i g s => match s.storeAt_ e g (g.ea i) size ((g.w i.d).toNat % 2 ^ (8 * size)) 1 with
    | .error (t, c, v) => .trapIn t c v
    | .ok t => .go t) s

/-- Sign extension of an n-bit value. -/
def sxN (n v : Nat) : W64 := (BitVec.ofNat n v).signExtend 64
/-- Zero extension. -/
def zxN (v : Nat) : W64 := BitVec.ofNat 64 v

def execLb (e : Nat) (s : State) : Out := loadRow e .lb 1 (sxN 8) s
def execLbu (e : Nat) (s : State) : Out := loadRow e .lbu 1 zxN s
def execLh (e : Nat) (s : State) : Out := loadRow e .lh 2 (sxN 16) s
def execLhu (e : Nat) (s : State) : Out := loadRow e .lhu 2 zxN s
def execLd (e : Nat) (s : State) : Out := loadRow e .ld 8 zxN s
def execSb (e : Nat) (s : State) : Out := storeRow e .sb 1 s
def execSh (e : Nat) (s : State) : Out := storeRow e .sh 2 s
def execSd (e : Nat) (s : State) : Out := storeRow e .sd 8 s

def execVld (e : Nat) (s : State) : Out :=
  simpleRow e .vld (fun i g s => match s.loadAt e g (g.w i.r).toNat 32 with
    | .error (t, c, v) => .trapIn t c v
    | .ok (v, t) => .go (t.onEng e (·.setU i.vd (BitVec.ofNat 256 v)))) s
def execVst (e : Nat) (s : State) : Out :=
  simpleRow e .vst (fun i g s => match s.storeAt_ e g (g.w i.r).toNat 32 (g.uv i.va).toNat 1 with
    | .error (t, c, v) => .trapIn t c v
    | .ok t => .go t) s

/-! ### System (Table 9.11) -/

/-- YIELD (R287): in rings O and T the step's end; in ring V the V step's, whose transfers are performed. -/
def execYield (e : Nat) (s : State) : Out :=
  simpleRow e .yield (fun _ g s =>
    if g.ring = 0 then .go (s.doXfers e) else .done ((s.onEng e (·.setPc (g.pc + 4))).endStep e cYield (g.pc + 4) 0)) s

/-- EXIT (R287): the invocation ends with w[a]; in ring V it ends the V step as YIELD does. -/
def execExit (e : Nat) (s : State) : Out :=
  simpleRow e .exit (fun i g s =>
    if g.ring = 0 then .go (s.doXfers e) else .done ((s.onEng e (·.setPc (g.pc + 4))).endStep e cExit (g.pc + 4) (g.w i.a).toNat)) s

/-- FENCE (R283): every earlier store is visible; stores of this model are visible at once. At least 1 cycle. -/
def execBalufFence (e : Nat) (s : State) : Out := simpleRow e .fence (fun _ _ s => .go (s.spendFar e 1 1)) s

/-- XWAIT (R282). At least 1 cycle. -/
def execXwait (e : Nat) (s : State) : Out := simpleRow e .xwait (fun _ _ s => .go ((s.doXfers e).spendFar e 1 1)) s

/-- The step that an ENTER would start does not fit what its engine's frame has left (R68). -/
def State.enterWaits (s : State) (e : Nat) : Bool :=
  let g := s.eng e
  g.ring == 0 && (g.pring == 1 || (g.pring == 2 && isFe e)) && isEngine e && s.engRuns e && decide (s.cycLeft e < g.stepmax) &&
  (match s.fetchB e with | .ok w => (decodeB (isFe e) w).any (fun r => r.op == .enter) | .error _ => false)

/-- ENTER (R68, R286): it waits at its place until STEPMAX fits the frame. -/
def execEnter (e : Nat) (s : State) : Out :=
  if s.enterWaits e then .next s else simpleRow e .enter (fun i g s =>
    if (g.pring = 1 ∨ g.pring = 2) ∧ (g.pring = 2 → isFe e = true) then
      .done (s.onEng e fun x => { x with vpc := (g.pc + 4) % 2 ^ 64, ring := g.pring, budget := g.stepmax, frame := s.time.frame,
                                         ppc := (g.w i.a).toNat, vxfers := g.xfers, xfers := [] })
    else .trap cIllegal i.w) s

/-- TRET (R290, R292): legal only while NEST is 1. -/
def execTret (e : Nat) (s : State) : Out :=
  simpleRow e .tret (fun i g s =>
    if g.nest then .done (s.onEng e fun x => { x with nest := false, v0 := g.s0, v1 := g.s1, s0 := {}, s1 := {}, vpc := g.trappc })
    else .trap cIllegal i.w) s

/-- MFP reads, MTP writes a register of the program bank (R262). -/
def execMfp (e : Nat) (s : State) : Out :=
  simpleRow e .mfp (fun i g s => .go (s.onEng e (·.setW i.d (if i.a = 0 then 0 else g.pw.get 0 i.a)))) s
def execMtp (e : Nat) (s : State) : Out :=
  simpleRow e .mtp (fun i g s => .go (s.onEng e fun x => if i.d = 0 then x else { x with pw := x.pw.set 0 i.d (g.w i.a) })) s

/-- XFER (R281): alignment and length, then the sides and rights, then the limit of 16 transfers and 262,144 bytes. -/
def execXfer (e : Nat) (s : State) : Out :=
  simpleRow e .xfer (fun i g s =>
    let len := (g.w i.d).toNat
    let src := (g.w i.a).toNat
    let dst := (g.w i.b).toNat
    let bad := if g.ring = 0 then cAccess else cWindow
    if src % 64 ≠ 0 then .trap cMisalign src
    else if dst % 64 ≠ 0 then .trap cMisalign dst
    else if len % 64 ≠ 0 ∨ len = 0 then .trap cMisalign src
    else if 65536 < len then .trap bad src
    else match s.xferSide e g src len false, s.xferSide e g dst len true with
      | none, _ => .trap bad src
      | _, none => .trap bad dst
      | some a, some b =>
        if (2 ^ 38 ≤ a) = (2 ^ 38 ≤ b) then .trap bad dst
        else if 16 ≤ g.xfers.length ∨ 262144 < g.pendBytes + len then .trap cXlimit (g.xfers.length % 256 + g.pendBytes * 256)
        else .go (s.onEng e fun x => { x with xfers := x.xfers ++ [⟨a, b, len⟩] })) s

/-- An atomic access to 8 bytes of local memory or DRAM (R283): misalign, access, or poison; else the word and the state
with the new value stored and the old one in d, in at least 120 cycles (Table 9.11). -/
def atomicRow (e : Nat) (op : BOp) (f : Nat → Eng → Ins → Option Nat) (s : State) : Out :=
  simpleRow e op (fun i g s =>
    let pa := (g.w i.a).toNat
    if pa % 8 ≠ 0 then .trap cMisalign pa
    else match s.translateV e pa 8 with
      | .ok (.mem loc) =>
        if s.wordReads loc then
          let old := s.wordData loc
          let s := s.consume loc 8 (uEng e)
          .go (((match f old g i with | some v => s.writeWord loc v | none => s).onEng e (·.setW i.d (zxN old))).spendFar e 120 120)
        else .trapIn (s.foundIn loc 8) cPoison pa
      | _ => .trap cAccess pa) s

def execCas (e : Nat) (s : State) : Out :=
  atomicRow e .cas (fun old g i => if zxN old = g.w i.d then some (g.w i.b).toNat else none) s
def execAmoadd (e : Nat) (s : State) : Out :=
  atomicRow e .amoadd (fun old g i => some (zxN old + g.w i.b).toNat) s

/-- CSRR and CSRW (R293, R294). -/
def execCsrr (e : Nat) (s : State) : Out :=
  simpleRow e .csrr (fun i g s =>
    if csrAccess (isFe e) g.ring (i.imm % 4096) = 0 then .trap cIllegal i.w
    else .go (s.onEng e (·.setW i.d (zxN (s.csr e g (i.imm % 4096)))))) s
def execCsrw (e : Nat) (s : State) : Out :=
  simpleRow e .csrw (fun i g s =>
    if csrAccess (isFe e) g.ring (i.imm % 4096) ≠ 2 then .trap cIllegal i.w
    else match g.csrWrite (i.imm % 4096) (g.w i.a).toNat with
      | none => .trap cIllegal i.w
      | some _ => .go (s.onEng e fun x => (x.csrWrite (i.imm % 4096) (g.w i.a).toNat).getD x)) s

end Sys2Proof.Machine
end

