-- ==== Sys2Proof/Machine/NsAdmin.lean ====
section
/-! DEFINITION. Namespace Management and Attachment, Format NVM and Sanitize (chapters 3, 5, 6 and 13; R105, R135, R136,
R139, R140, R156, R160, R163, R379, R383). -/
namespace Sys2Proof.Machine

/-! ### Unmapping a whole namespace -/

/-- A global coarse unit of a namespace. -/
def Ns.hasUnit (n : Ns) (u : Nat) : Bool := n.granules.contains (u / 16384)

/-- Committed landing sectors and open groups of a namespace are discarded with its data (R383); the writes that waited for
their media end. -/
def State.dropLanding (s : State) (nsid : Nat) : State :=
  let mine := s.jnl.groups.filter fun g => g.kind == 0 && g.ns == nsid
  let s := s.onLnd fun l => { l with secs := mine.foldl (fun m g => g.secs.foldl (fun m k => m.set none k none) m) l.secs }
  let s := s.onJnl fun j => { j with groups := j.groups.filter fun g => !(g.kind == 0 && g.ns == nsid) }
  let s := s.onHif fun h => { h with posted := h.posted.filter fun p => s.jnl.groups.any (fun x => x.fsn == p.1) }
  let s := (s.hif.cmds.filter fun c => c.ph == .fuaWait && c.sqe.nsid == nsid).foldl (fun s c => s.complete c.fsn stOk c.dw0) s
  s.flushDone

/-- DEALLOC records of every granule of a namespace. -/
def Ns.deallocRecs (n : Ns) : List JRec := n.granules.map fun g => { typ := 4, sub := 0, a := g * 262144, b := 262144 }

/-- Unmap every block of a namespace, free the segments of its zones and return its zones that are not Offline to Empty. -/
def State.clearNs (s : State) (nsid : Nat) (n : Ns) : State :=
  let s := s.dropLanding nsid
  let s := (s.map.coarse.keys.filter n.hasUnit).foldl (fun s u => s.setCoarse u .unmapped) s
  let zs := (s.zones.items.filter fun e => e.1 / 2 ^ 24 == nsid && e.2.st != .offline).map (·.1)
  let segs := (s.med.zseg.items.filter fun e => e.1 / 32 / 2 ^ 24 == nsid).map (fun e => e.2 - 1)
  let s := segs.foldl State.freeSeg s
  let s := s.onMed fun m => { m with zseg := m.zseg.keep (fun k => k / 32 / 2 ^ 24 != nsid) }
  let s := s.onZones fun m => zs.foldl (fun m k => m.set {} k {}) m
  (s.jnlSystem (n.deallocRecs ++ zs.map (fun k => zoneRec nsid (k % 2 ^ 24) {}))).onNs nsid fun x => { x with nuse := 0, resv := 0 }

/-! ### Namespace Management -/

/-- The reclaim unit handles that a create buffer lists: NPHNDLS at byte 392 and the list at 512 (PRESUMED, assumption 119: the buffer
is NVMe's); handle 0 where it lists none. -/
def handlesOf (d : List Byte) : List Nat := if leAt d 392 2 = 0 then [0] else (List.range (leAt d 392 2)).map fun i => leAt d (512 + 2 * i) 2

/-- The namespace a create buffer describes (NVMe; Table 5.3): NSZE, NCAP, FLBAS, DPS, the placement handles, QUOTA. -/
def nsOf (c : Cmd) : Ns :=
  let d := c.sqe.data
  let flbas := leAt d 26 1
  let zoned := bits c.sqe.cdw11 31 24 = 2
  let fmt := flbas % 16 + 16 * bits flbas 6 5
  { nsze := leAt d 0 8, ncap := if zoned then leAt d 0 8 / zsze fmt * zcap fmt else leAt d 8 8, fmt := fmt, zoned := zoned,
    pi := leAt d 29 1 % 8, pip := (leAt d 29 1).testBit 3, mset := flbas.testBit 4,
    quota := if zoned then (if (leAt d 3072 1).testBit 0 then leAt d 3074 2 else 256) else 0,
    ruhs := handlesOf (d.take 768) }

/-- Granules a namespace needs (R163). -/
def Ns.granulesNeeded (n : Ns) : Nat := cdiv n.nsze granBlocks

/-- Granules of the device and those free (R163). -/
def State.granCount (s : State) : Nat := 4 * s.raw * 4096 / 16384
def State.granFree (s : State) : Nat := s.granCount - s.map.granUsed.size

/-- The lowest free granules. -/
def State.pickGranules (s : State) (n : Nat) : List Nat :=
  ((List.range (n + s.map.granUsed.size)).filter fun g => !s.map.granUsed.get false g).take n

/-- SPARE stays at 2 % of the raw segments or more in every quadrant (R156). -/
def State.spareOk (s : State) : Bool := (List.range 4).all fun q => decide (2 * s.raw ≤ 100 * s.spare q)

/-- The lowest free NSID, at most 4,096: it is never above the number of namespaces plus one. -/
def State.freeNsid (s : State) : Option Nat :=
  (((List.range (s.nss.size + 1)).map (· + 1)).find? fun n => (s.ns n).isNone).filter fun n => decide (n ≤ 4096)

/-- Protection types 1 and 3 need metadata (R83). -/
def Ns.badPi (n : Ns) : Bool := n.pi != 0 && ((n.pi != 1 && n.pi != 3) || fmtMeta n.fmt == 0)

/-- The status of a create (R135, R136, R140, R156, R163). -/
def State.createStatus (s : State) (c : Cmd) (n : Ns) : Nat :=
  let csi := bits c.sqe.cdw11 31 24
  firstBad [stIf (csi != 0 && csi != 2) stInvalidField, stIf (decide (17 < n.fmt) || n.badPi) stInvalidFormat,
    stIf (n.nsze == 0 || (!n.zoned && decide (n.nsze < n.ncap))) stInvalidField,
    stIf (n.zoned && n.nsze % zsze n.fmt != 0) stInvalidField,
    stIf (n.zoned && (n.quota == 0 || decide (8192 < n.quota))) stInvalidField,
    stIf (decide (activeLeft s.hif.fdp (s.anyConv || !n.zoned) < s.quotas + n.quota)) stInvalidField,
    stIf (!n.zoned && (decide (128 < leAt c.sqe.data 392 2) || n.ruhs.any fun h => decide (128 ≤ h))) stInvalidField,
    stIf s.freeNsid.isNone stNsIdUnavailable,
    stIf (decide (s.granFree < n.granulesNeeded)) stNsCapacity,
    stIf (!(s.onNss fun m => m.set none (s.freeNsid.getD 0) (some n)).spareOk) stNsCapacity]

/-- Namespace Management (create): granules, quota and key slot are given (R140, R163, R379); DW0 is the NSID. -/
def State.nsCreate (s : State) (c : Cmd) : State :=
  let n := nsOf c
  let st := s.createStatus c n
  if st ≠ stOk then s.complete c.fsn st
  else
    let id := s.freeNsid.getD 0
    let gs := s.pickGranules n.granulesNeeded
    let s := s.onMap fun m => { m with granUsed := gs.foldl (fun m g => m.set false g true) m.granUsed }
    let s := ((s.onNss fun m => m.set none id (some { n with granules := gs, slot := id })).newSlotKey id).keysBack
    s.complete c.fsn stOk id

/-- The tenant of a namespace has no other: its general slots are freed (R379). -/
def State.freeTenantSlots (s : State) (tid : Option Nat) : State :=
  if tid.isSome ∧ !(s.nss.items.any fun e => match e.2 with | some n => n.tid == tid | none => false) then
    s.onSec fun x => { x with slots := x.slots.keepKV fun k v => !(isGenSlot k && v.owner == tid) }
  else s

/-- A changed namespace for the controllers that had it attached (NVMe). -/
def State.noteNs (s : State) (fns : List Nat) (nsid : Nat) : State :=
  fns.foldl (fun s fn => (s.onCtrl fn fun k => { k with changedNs := if k.changedNs.contains nsid then k.changedNs else k.changedNs ++ [nsid] }).aenTo fn
    { typ := 2, info := 0, lid := 0x04 }) (s.miChange 6)

/-- Namespace Management (delete) of one namespace: its data is unmapped, its key zeroised, its granules and zones freed,
and the read-only state may end (R160, R379). -/
def State.nsDelete (s : State) (nsid : Nat) (n : Ns) : State :=
  let s := s.clearNs nsid n
  let s := ((s.onNss fun m => m.set none nsid none).zeroSlot nsid).keysBack
  let s := s.onMap fun m => { m with granUsed := n.granules.foldl (fun m g => m.set false g false) m.granUsed }
  let s := s.onZones fun m => m.keep (fun k => k / 2 ^ 24 != nsid)
  let s := s.onPrg fun p => { p with binds := p.binds.filter (fun b => b.nsid != nsid || b.nsid == 0) }
  let s := s.onHif fun h => { h with saved := h.saved.set none (0xC0 + 256 * nsid) none }
  ((s.freeTenantSlots n.tid).noteNs n.attach nsid).endReadOnly

/-- The namespaces a command names: one, or with 0xFFFFFFFF all. -/
def State.nsNamed (s : State) (nsid : Nat) : List (Nat × Ns) :=
  if nsid = 0xFFFFFFFF then s.nss.items.filterMap fun e => e.2.map fun n => (e.1, n)
  else match s.ns nsid with | some n => [(nsid, n)] | none => []

/-- An I/O command on one of these namespaces is outstanding. -/
def State.nsBusy (s : State) (l : List (Nat × Ns)) : Bool :=
  s.hif.cmds.any fun c => c.sq != 0 && c.ph != .fuaWait && l.any (fun e => e.1 == c.sqe.nsid)

/-- NAMESPACE_MANAGEMENT: SEL 0 create, 1 delete. A delete waits for the commands outstanding on the namespace. -/
def State.nsManage (s : State) (c : Cmd) : State :=
  let sel := c.sqe.cdw10 % 16
  if sel = 0 then s.nsCreate c
  else if sel = 1 then
    let l := s.nsNamed c.sqe.nsid
    if l.isEmpty ∧ c.sqe.nsid ≠ 0xFFFFFFFF then s.complete c.fsn stInvalidNs
    else if s.nsBusy l then s
    else (l.foldl (fun s e => s.nsDelete e.1 e.2) s).complete c.fsn stOk
  else s.complete c.fsn stInvalidField

def execNamespaceManagement (fsn : Nat) (s : State) : Out := adminRow fsn 0x0D (fun c s => s.nsManage c) s

/-- The controller list of an attachment. -/
def Cmd.ctrlList (c : Cmd) : List Nat := (List.range (leAt c.sqe.data 0 2)).map fun i => leAt c.sqe.data (2 + 2 * i) 2

/-- NAMESPACE_ATTACHMENT: SEL 0 attach, 1 detach, for the controllers of a list. -/
def State.nsAttach (s : State) (c : Cmd) : State :=
  let sel := c.sqe.cdw10 % 16
  let l := c.ctrlList
  match s.ns c.sqe.nsid with
  | none => s.complete c.fsn stInvalidNs
  | some n =>
    if 1 < sel then s.complete c.fsn stInvalidField
    else if l.isEmpty ∨ 2047 < l.length ∨ l.any (fun f => decide (1025 < f) || (f == 1 && !s.hif.bifur)) then s.complete c.fsn stCtrlList
    else if sel = 0 ∧ l.any (fun f => n.attach.contains f) then s.complete c.fsn stNsAttached
    else if sel = 1 ∧ !l.all (fun f => n.attach.contains f) then s.complete c.fsn stNsNotAttached
    else
      let s := s.onNs c.sqe.nsid fun x => { x with attach := if sel = 0 then x.attach ++ l.eraseDups else x.attach.filter (fun f => !l.contains f) }
      (s.noteNs l c.sqe.nsid).complete c.fsn stOk

def execNamespaceAttachment (fsn : Nat) (s : State) : Out := adminRow fsn 0x15 (fun c s => s.nsAttach c) s

/-! ### Format NVM and Sanitize (R105, R160, R383) -/

/-- One entry covering the whole namespace, exclusive (Table 4.1); for an operation on all namespaces, one for each (DESIGN CHOICE,
assumption 120: the table does not say how many such an operation takes). -/
def wholeLocks (fsn : Nat) (l : List (Nat × Ns)) : List Lock :=
  l.map fun e => { fsn := fsn, ns := e.1, lo := 0, hi := e.2.nsze - 1, excl := true, held := false }

/-- An admin command at its turn, or already begun. -/
def State.begun (s : State) (fsn opc : Nat) : Option Cmd :=
  match s.cmd fsn with
  | some c => if c.sq = 0 ∧ c.sqe.opc = opc ∧ (c.ph ≠ .fetched ∨ (s.adminCmd fsn opc).isSome) then some c else none
  | none => none

/-- A cipher job names the slot of one of these namespaces (R383). -/
def State.slotBusy (s : State) (l : List (Nat × Ns)) : Bool :=
  s.sec.ccs.vals.any fun k =>
    k.queue.any (fun j => l.any (fun e => e.2.slot == j.slot)) ||
    k.pipes.vals.any (fun p => (p.run.any fun j => l.any (fun e => e.2.slot == j.slot)) || (p.susp.any fun j => l.any (fun e => e.2.slot == j.slot)))

/-- Earlier commands on a zoned namespace, which take no lock, have ended. -/
def State.zonedDone (s : State) (fsn : Nat) (l : List (Nat × Ns)) : Bool :=
  !s.hif.cmds.any fun c => c.sq != 0 && decide (c.fsn < fsn) && c.ph != .aerWait && (l.any fun e => e.2.zoned && (e.1 == c.sqe.nsid || c.sqe.nsid == 0xFFFFFFFF))

/-- Run an operation over whole namespaces: judged, locked, begun, and ended once no cipher job names their slots. -/
def State.wholeOp (s : State) (fsn opc : Nat) (status : Cmd → Nat) (l : List (Nat × Ns)) (effect : Cmd → State → State) : State :=
  match s.begun fsn opc with
  | none => s
  | some c =>
    match c.ph with
    | .fetched => if status c ≠ stOk then s.complete fsn (status c) else if !s.myTurn c then s else s.askLocks fsn (wholeLocks fsn l)
    | .admitWait =>
      if !s.zonedDone fsn l then s
      else if s.slotBusy l then s.onCmd fsn fun x => { x with ph := .running }
      else (effect c s).complete fsn stOk
    | .running => if s.slotBusy l then s else (effect c s).complete fsn stOk
    | _ => s

/-- The format of Format NVM's CDW10: LBAF index, SES, protection type, metadata as extended LBA. -/
def Cmd.fmtIdx (c : Cmd) : Nat := c.sqe.cdw10 % 16 + 16 * bits c.sqe.cdw10 13 12
def Cmd.ses (c : Cmd) : Nat := bits c.sqe.cdw10 11 9

/-- A namespace with the new format; a zoned one's NCAP is that of its zones not Offline (R136). -/
def State.formatted (s : State) (c : Cmd) (nsid : Nat) (n : Ns) : Ns :=
  let f := c.fmtIdx
  let off := (s.zones.items.filter fun e => e.1 / 2 ^ 24 == nsid && e.2.st == .offline).length
  let off := if zsze f = zsze n.fmt then off else 0
  { n with fmt := f, pi := bits c.sqe.cdw10 7 5, pip := c.sqe.cdw10.testBit 8, mset := c.sqe.cdw10.testBit 4,
           ncap := if n.zoned then (n.nsze / zsze f - off) * zcap f else n.ncap, nuse := 0, resv := 0 }

/-- The namespaces a Format NVM names: attached to the controller. -/
def State.formatNs (s : State) (c : Cmd) : List (Nat × Ns) := (s.nsNamed c.sqe.nsid).filter fun e => e.2.attach.contains c.fn

/-- The device with the formats changed, to judge its SPARE (R156): a new zone size leaves no zone Offline. -/
def State.withFormats (s : State) (c : Cmd) (l : List (Nat × Ns)) : State :=
  let other := (l.filter fun e => zsze c.fmtIdx != zsze e.2.fmt).map (·.1)
  (s.onNss fun m => l.foldl (fun m e => m.set none e.1 (some (s.formatted c e.1 e.2))) m).onZones fun m => m.keep fun k => !other.contains (k / 2 ^ 24)

/-- The status of a Format NVM (R135, R136, R156, R160). -/
def State.formatStatus (s : State) (c : Cmd) : Nat :=
  let l := s.formatNs c
  let changed := l.any fun e => e.2.fmt != c.fmtIdx
  firstBad [stIf l.isEmpty stInvalidNs, stIf (decide (2 < c.ses)) stInvalidField, stIf (s.lvl.rdonly && c.ses != 2) stWriteProtected,
    stIf (decide (17 < c.fmtIdx) || l.any (fun e => (s.formatted c e.1 e.2).badPi)) stInvalidFormat,
    stIf (l.any fun e => e.2.zoned && e.2.nsze % zsze c.fmtIdx != 0) stInvalidField,
    stIf (changed && !(s.withFormats c l).spareOk) stNsCapacity]

/-- The effect of a format on one namespace: unmapped, its new format, and with SES 1 or 2 a new key (R383). -/
def State.formatOne (s : State) (c : Cmd) (nsid : Nat) (n : Ns) : State :=
  let keep := decide (zsze c.fmtIdx = zsze n.fmt)
  let n' := s.formatted c nsid n
  let s := s.clearNs nsid n
  let s := if keep then s else s.onZones fun m => m.keep (fun k => k / 2 ^ 24 != nsid)
  let s := s.onNss fun m => m.set none nsid (some n')
  if c.ses = 0 then s else (s.newSlotKey nsid).keysBack

/-- FORMAT_NVM. -/
def execFormatNvm (fsn : Nat) (s : State) : Out :=
  let l := match s.cmd fsn with | some c => s.formatNs c | none => []
  .next (s.wholeOp fsn 0x80 s.formatStatus l fun c s => l.foldl (fun s e => s.formatOne c e.1 e.2) s)

/-- SANACT of a Sanitize: 2 block erase, 4 crypto erase; overwrite is not supported (Table 3.2). -/
def Cmd.sanact (c : Cmd) : Nat := c.sqe.cdw10 % 8

/-- Every namespace. -/
def State.allNs (s : State) : List (Nat × Ns) := s.nsNamed 0xFFFFFFFF

/-- Every chunk that holds user data is erased: segments, SLC stripes and streams are given up. -/
def State.eraseAll (s : State) : State :=
  let ks := (s.med.chunks.items.filter fun e => e.2.used && e.2.st != 3).map (·.1)
  let s := s.onMed fun m => { m with segs := {}, zseg := {}, streams := {}, accs := [], slcLines := [], staged := [], slcUnits := {}, hostMeta := {},
                                     secs := m.secs.keepKV fun _ v => (match v with | some x => x.info.kind == 2 | none => false) }
  ks.foldl (fun s k => (s.onChunk k fun c => { c with used := false }).eraseFree (k / 65536 / 32) (k / 65536 % 32) (k % 65536)) s

/-- SANITIZE_BLOCK_ERASE; a Sanitize whose action is neither erase is judged here too: exiting a failure does nothing,
overwrite and reserved actions are Invalid Field. -/
def State.sanitizeBlock (s : State) (fsn : Nat) : State :=
  match s.begun fsn 0x84 with
  | none => s
  | some c =>
    if c.sanact = 4 then s
    else if c.sanact = 1 ∧ c.ph = .fetched then s.complete fsn stOk
    else
      let l := s.allNs
      let status := fun (c : Cmd) => firstBad [stIf (c.sanact != 2) stInvalidField, stIf s.lvl.rdonly stWriteProtected]
      s.wholeOp fsn 0x84 status l fun _ s => ((l.foldl (fun s e => s.clearNs e.1 e.2) s).eraseAll)

def execSanitizeBlockErase (fsn : Nat) (s : State) : Out := .next (s.sanitizeBlock fsn)

/-- SANITIZE_CRYPTO_ERASE (R383): every namespace key is replaced, under every namespace's exclusive lock. -/
def State.sanitizeCrypto (s : State) (fsn : Nat) : State :=
  match s.begun fsn 0x84 with
  | none => s
  | some c =>
    if c.sanact ≠ 4 then s
    else
      let l := s.allNs
      s.wholeOp fsn 0x84 (fun _ => stOk) l fun _ s => (l.foldl (fun s e => ((s.clearNs e.1 e.2).newSlotKey e.1).keysBack) s)

def execSanitizeCryptoErase (fsn : Nat) (s : State) : Out := .next (s.sanitizeCrypto fsn)

end Sys2Proof.Machine
end

