-- ==== Sys2Proof/Machine/Pages.lean ====
section
/-! DEFINITION. What Identify and Get Log Page return: NVMe's structures with the values this spec states, the other bytes
free, and the vendor pages (chapters 3, 13 and 16; Tables 3.4, 3.6, 13.10; R90, R93, R258, R312, R395, R457 to R460). -/
namespace Sys2Proof.Machine

/-! ### Structures built from fields -/

/-- A structure of `len` bytes from fields at their offsets; the bytes no field gives are free values. -/
def pageOf (n len : Nat) (fs : List (Nat × List Byte)) : List Byte :=
  (List.range len).map fun i =>
    match fs.find? (fun f => decide (f.1 ≤ i) && decide (i < f.1 + f.2.length)) with
    | some f => f.2.getD (i - f.1) 0
    | none => Config.freeByte n i

/-- A list of 16-bit or wider entries padded to a structure's length. -/
def listPage (w len : Nat) (head : List Byte) (l : List Nat) : List Byte := (padTo len (head ++ l.flatMap (leBytes w))).take len

/-! ### Identify (Table 3.2, Table 3.4) -/

/-- CNS values supported. -/
def cnsList : List Nat := [0x00, 0x01, 0x02, 0x03, 0x05, 0x06, 0x08, 0x10, 0x11, 0x12, 0x13, 0x14, 0x15, 0x1C]

/-- A power state descriptor: maximum power in 0.01 W, non-operational, entry and exit latency in us (Table 14.3). -/
def psDesc (mp enlat exlat : Nat) (nops : Bool) : List Byte :=
  leBytes 2 mp ++ zeros 1 ++ leBytes 1 (2 * b2n nops) ++ leBytes 4 enlat ++ leBytes 4 exlat

/-- Identify Controller. -/
def State.idCtrl (s : State) (fn : Nat) : List Byte :=
  pageOf s.free 4096
    [(77, [11]), (78, leBytes 2 fn), (128, leBytes 2 1), (258, [15]), (259, [15]), (260, [0x19]), (262, [63]), (263, [4]), (265, [1]),
     (516, leBytes 4 4096), (280, leBytes 16 s.totalCap), (296, leBytes 16 s.unallocCap),
     (525, leBytes 1 (b2n s.pwr.present)), (526, leBytes 2 511), (528, leBytes 2 511),
     (536, [(Config.freeByte s.free 536 &&& 0xFC) ||| 1]), (538, [(Config.freeByte s.free 538 &&& 0xFA) ||| 1]),
     (2048, psDesc 11000 1000 1000 false), (2080, psDesc 7500 1000 1000 false), (2112, psDesc 4500 1000 1000 false),
     (2144, psDesc 900 50 200 true), (2176, psDesc 250 2000 15000 true)]

/-- One LBA format: metadata bytes and 4,096-byte data (R135). -/
def lbaf (i : Nat) : List Byte := leBytes 2 (fmtMetaBytes i) ++ leBytes 1 12

/-- Identify Namespace. -/
def State.idNs (s : State) (n : Ns) : List Byte :=
  pageOf s.free 4096 ([(0, leBytes 8 n.nsze), (8, leBytes 8 n.ncap), (16, leBytes 8 n.nuse), (25, [17]),
     (26, leBytes 1 (n.fmt % 16 + 16 * b2n n.mset + 32 * (n.fmt / 16))), (29, leBytes 1 (n.pi + 8 * b2n n.pip)), (34, leBytes 2 511), (36, leBytes 2 511),
     (33, [Config.freeByte s.free 33 &&& 0xF8]), (40, leBytes 2 0), (44, leBytes 2 0)] ++ (List.range 18).map (fun i => (128 + 4 * i, lbaf i)))

/-- Identify Namespace of the Zoned Namespace command set: OZCS, MAR, MOR, zone sizes (R135, R136, R139). -/
def State.idZns (s : State) (n : Ns) : List Byte :=
  pageOf s.free 4096 ([(0, leBytes 2 0), (2, leBytes 2 1), (4, leBytes 4 (n.quota - 1)), (8, leBytes 4 (n.quota - 1))] ++
    (List.range 18).map (fun i => (2816 + 16 * i, leBytes 8 (zsze i) ++ [0])))

/-- NSIDs above a value, ascending. -/
def State.nsidsAbove (s : State) (v : Nat) (p : Ns → Bool) : List Nat :=
  (s.nss.items.filter fun e => decide (v < e.1) && (match e.2 with | some n => p n | none => false)).map (·.1)

/-- Functions of the subsystem. -/
def State.allFns (s : State) : List Nat := (List.range 1026).filter fun f => f != 1 || s.hif.bifur

/-- Primary controller capabilities: flexible queue pairs and vectors, in all, assigned and private (R79). -/
def State.idPrimary (s : State) (fn : Nat) : List Byte :=
  pageOf s.free 4096 [(0, leBytes 2 fn), (2, leBytes 2 (s.portOf fn)), (4, [3]),
    (32, leBytes 4 s.flexPool ++ leBytes 4 (s.flexPool - s.flexFreeQ) ++ leBytes 2 (s.hif.flexQ.get 0 fn) ++ leBytes 2 64 ++ leBytes 2 4096),
    (64, leBytes 4 s.flexPool ++ leBytes 4 (s.flexPool - s.flexFreeV) ++ leBytes 2 (s.hif.flexV.get 0 fn) ++ leBytes 2 65 ++ leBytes 2 4096)]

/-- One entry of the secondary controller list. -/
def State.secEntry (s : State) (pf fn : Nat) : List Byte :=
  let vf := if pf = 0 then fn - 1 else fn - 1 - Config.pf0Vfs
  padTo 32 (leBytes 2 fn ++ leBytes 2 pf ++ leBytes 1 (b2n (s.hif.online.get false fn)) ++ zeros 3 ++ leBytes 2 vf ++
    leBytes 2 (s.hif.flexQ.get 0 fn) ++ leBytes 2 (s.hif.flexV.get 0 fn))

/-- The secondary controller list from an identifier on, at most 127 entries. -/
def State.idSecondary (s : State) (pf frm : Nat) : List Byte :=
  let l := (((List.range 1024).map (· + 2)).filter fun f => decide (frm ≤ f) && s.secondaryOf pf f).take 127
  padTo 4096 (padTo 32 (leBytes 1 l.length) ++ l.flatMap (s.secEntry pf))

/-- IDENTIFY: the structure of a CNS, or the status that refuses it. -/
def State.idData (s : State) (c : Cmd) : Except Nat (List Byte) :=
  let cns := c.sqe.cdw10 % 256
  let id := c.sqe.cdw10 / 65536 % 65536
  let nsid := c.sqe.nsid
  let csi := bits c.sqe.cdw11 31 24
  let att := fun (n : Ns) => n.attach.contains c.fn
  if !cnsList.contains cns then .error stInvalidField
  else
    match cns with
    | 0x01 => .ok (s.idCtrl c.fn)
    | 0x02 => .ok (listPage 4 4096 [] (s.nsidsAbove nsid att))
    | 0x06 => if csi = 0 then .ok (pageOf s.free 4096 [(0, [11]), (1, [11])]) else if csi = 2 then .ok (pageOf s.free 4096 [(0, [11])]) else .error stInvalidField
    | 0x10 => .ok (listPage 4 4096 [] (s.nsidsAbove nsid fun _ => true))
    | 0x13 => let l := (s.allFns.filter (fun f => decide (id ≤ f))).take 2047; .ok (listPage 2 4096 (leBytes 2 l.length) l)
    | 0x14 => .ok (s.idPrimary c.fn)
    | 0x15 => .ok (s.idSecondary c.fn id)
    | 0x1C => .ok (padTo 4096 (leBytes 8 5))
    | _ =>
      match s.ns nsid with
      | none => if nsid = 0 ∨ 4096 < nsid then .error stInvalidNs else .ok (zeros 4096)
      | some n =>
        match cns with
        | 0x00 => .ok (if att n then s.idNs n else zeros 4096)
        | 0x03 => .ok (pageOf s.free 4096 [(0, [4, 1, 0, 0, if n.zoned then 2 else 0])])
        | 0x05 => if csi = 2 ∧ n.zoned then .ok (s.idZns n) else if csi = 0 ∧ !n.zoned then .ok (pageOf s.free 4096 []) else .error stInvalidField
        | 0x08 => .ok (pageOf s.free 4096 [])
        | 0x11 => .ok (s.idNs n)
        | _ => let l := n.attach.filter (fun f => decide (id ≤ f)); .ok (listPage 2 4096 (leBytes 2 l.length) l)

def State.identify (s : State) (c : Cmd) : State :=
  match s.idData c with
  | .error st => s.complete c.fsn st
  | .ok d => s.nextFree.complete c.fsn stOk 0 d

def execIdentify (fsn : Nat) (s : State) : Out := adminRow fsn 0x06 (fun c s => s.identify c) s

/-! ### Wear (R257, R258) -/

/-- Sum of the wear of a quadrant's good chunks, and how many there are. -/
def State.wearSum (s : State) (q : Nat) : Nat × Nat :=
  ((s.med.chunks.items.filter fun e => e.1 / 65536 / 32 / 32 == q && e.2.st == 0).foldl (fun a e => a + s.wearNum q e.2) 0,
   (List.range 32).foldl (fun a c => a + s.goodChunks (32 * q + c)) 0)

/-- The denominator of a wear fraction. -/
def State.wearDen (s : State) (q : Nat) : Nat := s.get2 F.QD_WEAR_CFG_RATED_QLC q * s.get2 F.QD_WEAR_CFG_RATED_SLC q

/-- The average wear of a quadrant's good chunks in 1/1,000,000, as the rates of the health monitors take it (R459). -/
def State.wearFine (s : State) (q : Nat) : Nat :=
  let w := s.wearSum q
  w.1 * 1000000 / max 1 (s.wearDen q * w.2)

/-- QD_WEAR.AVG and MAX in 1/1,000, saturating. -/
def State.wearAvg (s : State) (q : Nat) : Nat :=
  let w := s.wearSum q
  min 65535 (w.1 * 1000 / max 1 (s.wearDen q * w.2))
def State.wearMax (s : State) (q : Nat) : Nat :=
  min 65535 ((s.med.chunks.items.filter fun e => e.1 / 65536 / 32 / 32 == q && e.2.st == 0).foldl (fun a e => max a (s.wearNum q e.2)) 0 * 1000 / max 1 (s.wearDen q))

/-- Percentage Used (R258): the average wear fraction of all good chunks × 100, saturating at 255. -/
def State.pctUsed (s : State) : Nat :=
  let d := (List.range 4).foldl (fun a q => a * max 1 (s.wearDen q)) 1
  let num := (List.range 4).foldl (fun a q => a + (s.wearSum q).1 * (d / max 1 (s.wearDen q))) 0
  let n := (List.range 4).foldl (fun a q => a + (s.wearSum q).2) 0
  min 255 (num * 100 / max 1 (d * n))

/-! ### Log pages (Table 3.6) -/

/-- Log page identifiers supported. -/
def logIds : List Nat := [0x00, 0x01, 0x02, 0x03, 0x04, 0x05, 0x06, 0x09, 0x20, 0x21, 0x22, 0x23, 0xBF, 0xC0, 0xC1, 0xC2, 0xC3, 0xC4]

/-- SMART / Health Information. -/
def State.smartPage (s : State) (fn : Nat) : List Byte :=
  pageOf s.free 512 [(0, leBytes 1 s.hif.smart), (1, leBytes 2 (s.gov.dies.foldl max 0 + 273).toNat), (5, leBytes 1 s.pctUsed), (6, leBytes 1 s.hif.smart),
    (112, leBytes 16 s.time.pcc), (128, leBytes 16 (s.time.ms / 3600000)),
    (176, leBytes 16 (((s.hif.errLog.get [] fn).head?.map (·.1)).getD 0))]

/-- Error Information: 64 entries, newest first. -/
def State.errPage (s : State) (fn : Nat) : List Byte :=
  padTo 4096 ((s.hif.errLog.get [] fn).flatMap fun e => pageOf s.free 64 [(0, leBytes 8 e.1), (8, leBytes 2 e.2.1), (10, leBytes 2 e.2.2.1), (12, leBytes 2 (2 * e.2.2.2))])

/-- Firmware Slot Information: the active slot and the one at the next reset. -/
def State.fwPage (s : State) : List Byte :=
  pageOf s.free 512 ([(0, leBytes 1 (s.lvl.active % 8 + 16 * ((s.lvl.pendFw.getD 0) % 8))), (1, zeros 7), (40, zeros 472)] ++
    (((List.range 4).filter fun k => k != 0 && (s.lvl.fwSlots.get [] (k + 1)).isEmpty).map fun k => (8 + 8 * k, zeros 8)))

/-- Commands Supported and Effects: which commands are supported; their effects are free. -/
def State.cmdPage (s : State) : List Byte :=
  (List.range 512).flatMap (fun i =>
    let on := if i < 256 then adminOps.contains i else [0x00, 0x01, 0x02, 0x05, 0x08, 0x09, 0x0C, 0x19, 0x79, 0x7A, 0x7D, 0x83, 0x84].contains (i - 256)
    if on then (Config.freeByte s.free (4 * i) ||| 1) :: (List.range 3).map (fun k => Config.freeByte s.free (4 * i + k + 1)) else zeros 4) ++ zeros 2048

/-- FDP pages (R149, R152). -/
def State.fdpConfig (s : State) : List Byte :=
  pageOf s.free 592 ([(0, leBytes 2 0), (4, leBytes 4 592), (16, leBytes 2 576),
     (18, [(Config.freeByte s.free 18 &&& 0x10) ||| 0x82]), (20, leBytes 4 4), (24, leBytes 2 128), (26, leBytes 2 127), (32, leBytes 8 251658240)] ++
    (List.range 128).map fun i => (80 + 4 * i, [1]))
def State.fdpEventPage (s : State) : List Byte :=
  padTo 4096 (padTo 64 (leBytes 4 (min 63 s.hif.fdpEvents.length)) ++ (s.hif.fdpEvents.take 63).flatMap fun e =>
    pageOf s.free 64 [(0, [0x80]), (2, leBytes 2 e.2), (48, leBytes 2 e.1)])

/-- Changed Zone List of a namespace. -/
def State.changedZonePage (s : State) (fn nsid : Nat) : List Byte :=
  let size := match s.ns nsid with | some n => zsze n.fmt | none => 0
  let l := ((s.ctrl fn).changedZones.filter (·.1 == nsid)).map (·.2)
  if 511 < l.length then padTo 4096 [0xFF, 0xFF]
  else padTo 4096 (padTo 8 (leBytes 2 l.length) ++ l.flatMap fun z => leBytes 8 (z * size))

/-- Evidence (Table 13.10), built and signed. -/
def State.evidenceOf (s : State) (lsi : Nat) : List Byte :=
  let ms := s.measures
  let d := leBytes 2 1 ++ leBytes 2 ms.length ++ leBytes 2 lsi ++ zeros 2 ++ leBytes 8 (s.stampNow (uSvc 6)) ++ leBytes 6 s.time.ms ++ zeros 2 ++
    leBytes 4 s.time.pcc ++ zeros 4 ++ leBytes 32 (Config.drbg s.drbg) ++ padTo 32 (Config.sha3 (Config.mldsaPub s.sec.alias_)) ++ ms.flatten
  d ++ padTo 2420 (Config.mldsaSign s.sec.alias_ (Config.sha3 d))

/-- The unit of a health monitor (Table 16.7). -/
def monUnit (i : Nat) : Nat := if i < 12 then uQuad (i % 4) else if i = 12 then uSvc 5 else if i = 13 then uSvc 3 else uSvc 1

/-- Health and End of Life (R460). -/
def State.healthPage (s : State) : List Byte :=
  padTo 64 (leBytes 2 1 ++ leBytes 2 15 ++ zeros 4 ++ leBytes 8 s.time.ms ++ leBytes 4 s.time.pcc ++ zeros 4 ++ leBytes 4 s.flt.eol ++
    leBytes 1 s.flt.limMon ++ leBytes 1 s.pctUsed) ++
  (List.range 15).flatMap fun i =>
    leBytes 1 i ++ zeros 1 ++ leBytes 2 (monUnit i) ++ leBytes 4 (s.flt.mons.get {} i).margin ++ leBytes 4 (s.flt.mons.get {} i).eol ++ zeros 4

/-- Fault History (Table 16.3 and the text below it). -/
def State.faultPage (s : State) : List Byte :=
  padTo 64 (leBytes 2 1 ++ leBytes 1 s.flt.hist.length ++ leBytes 1 (b2n s.flt.first.isSome)) ++
  (match s.flt.first with | some h => h.bytes | none => zeros 32) ++ padTo 512 (s.flt.hist.flatMap HistEnt.bytes)

/-- A log page other than 0xC0 and 0xC3. -/
def State.logPage (s : State) (c : Cmd) (lid : Nat) : List Byte :=
  match lid with
  | 0x00 => (List.range 256).flatMap fun i => if logIds.contains i then (Config.freeByte s.free (4 * i) ||| 1) :: (List.range 3).map (fun k => Config.freeByte s.free (4 * i + k + 1)) else zeros 4
  | 0x01 => s.errPage c.fn
  | 0x02 => s.smartPage c.fn
  | 0x03 => s.fwPage
  | 0x04 => if 1024 < (s.ctrl c.fn).changedNs.length then padTo 4096 (leBytes 4 0xFFFFFFFF) else listPage 4 4096 [] (s.ctrl c.fn).changedNs
  | 0x05 => s.cmdPage
  | 0x06 => pageOf s.free 564 [(0, leBytes 1 s.hif.dst), (4, leBytes 1 s.hif.dstLast)]
  | 0x09 => pageOf s.free 512 [(0, leBytes 1 s.hif.smart), (5, leBytes 1 s.pctUsed)]
  | 0x20 => s.fdpConfig
  | 0x21 => pageOf s.free 1032 [(0, leBytes 2 128)]
  | 0x22 => pageOf s.free 64 []
  | 0x23 => s.fdpEventPage
  | 0xBF => s.changedZonePage c.fn c.sqe.nsid
  | 0xC1 => s.healthPage
  | 0xC2 => s.faultPage
  | 0xC4 => ((s.visible c.ringO (s.cmdTid c) 0).map s.progRec).flatten
  | _ => []

/-- The path a snapshot or an Evidence instance belongs to: the controller, or the management path (R457). -/
def Cmd.path (c : Cmd) : Nat := if c.tunnel then 0x10000 else c.fn

/-- Get Log Page's fields: identifier, LSP, RAE, bytes wanted, offset, LSI. -/
def Cmd.lid (c : Cmd) : Nat := c.sqe.cdw10 % 256
def Cmd.lsp (c : Cmd) : Nat := bits c.sqe.cdw10 14 8
def Cmd.rae (c : Cmd) : Bool := c.sqe.cdw10.testBit 15
def Cmd.logLen (c : Cmd) : Nat := 4 * (bits c.sqe.cdw10 31 16 + 65536 * (c.sqe.cdw11 % 65536) + 1)
def Cmd.lpo (c : Cmd) : Nat := c.sqe.cdw12 + 2 ^ 32 * c.sqe.cdw13
def Cmd.lsi (c : Cmd) : Nat := c.sqe.cdw11 / 65536 % 65536

/-- NUMD and LPO against a page's length (R93). -/
def Cmd.logStatus (c : Cmd) (len : Nat) : Nat :=
  firstBad [stIf (c.lpo % 4 != 0 || decide (len ≤ c.lpo) || decide (cdiv len 4 * 4 < c.lpo + c.logLen)) stInvalidField, sglStatus c.sqe c.logLen]

/-- Return part of a page. -/
def State.sendPage (s : State) (c : Cmd) (d : List Byte) : State :=
  if c.logStatus d.length ≠ stOk then s.complete c.fsn (c.logStatus d.length)
  else s.complete c.fsn stOk 0 ((d.drop c.lpo).take c.logLen)

/-- What reading a page clears: the lists of changes unless RAE is set, and VALID with LSP bit 0 from a PF once the page's
end has been transferred. -/
def State.clearRead (s : State) (c : Cmd) : State :=
  let s := if c.lid = 0x04 ∧ !c.rae then s.onCtrl c.fn fun k => { k with changedNs := [] } else s
  let s := if c.lid = 0xBF ∧ !c.rae then s.onCtrl c.fn fun k => { k with changedZones := k.changedZones.filter (·.1 != c.sqe.nsid) } else s
  if c.lid = 0xC2 ∧ c.ringO ∧ c.lsp.testBit 0 ∧ 608 ≤ c.lpo + c.logLen then s.onFlt fun f => { f with first := none } else s

/-- Evidence (R395): built at LPO 0; later reads return the same instance. -/
def State.evidencePage (s : State) (c : Cmd) : State :=
  let s := if c.lpo = 0 then
      ((s.takeStamp (uSvc 6)).onSec fun x => { x with evidence := x.evidence.set [] c.path (s.evidenceOf c.lsi) }).nextDrbg
    else s
  if (s.sec.evidence.get [] c.path).isEmpty then s.complete c.fsn stSequence else s.sendPage c (s.sec.evidence.get [] c.path)

/-! ### The logbook snapshot (R457, R458) -/

/-- The host-visible records between two ring offsets: offset, length and SEQ. -/
def State.hostRecs (s : State) (off left : Nat) : Nat → List (Nat × Nat × Nat)
  | 0 => []
  | fuel + 1 =>
    let len := 8 * (s.logByte off).toNat
    let typ := (s.logByte (off + 1)).toNat
    if left = 0 ∨ len = 0 then []
    else
      let rest := s.hostRecs ((off + len) % logRing) (left - len) fuel
      if typ % 128 ≠ 0 ∧ typ < 128 then (off, len, ofLe ((List.range 8).map fun k => s.logByte (off + 8 + k))) :: rest else rest

/-- A new snapshot. -/
def State.snapNow (s : State) : Snap :=
  let rs := s.hostRecs s.log.tail s.log.used (s.log.used / 8 + 1)
  { top := (rs.getLast?.map (·.2.2)).getD 0, recs := rs, lost := false, sent := 0 }

/-- The page of a snapshot. -/
def State.snapPage (s : State) (sn : Snap) : List Byte :=
  let len := 64 + sn.recs.foldl (fun a r => a + r.2.1) 0
  padTo 64 (leBytes 2 1 ++ zeros 6 ++ leBytes 8 sn.top ++ leBytes 8 ((sn.recs.head?.map (·.2.2)).getD 0) ++ leBytes 4 len) ++
  sn.recs.flatMap fun r => (List.range r.2.1).map fun k => s.logByte (r.1 + k)

/-- Command Sequence Error with DW0 1: Snapshot Lost. -/
def State.snapLost (s : State) (fsn : Nat) : State := (s.raiseEvt F.LOG_EVT_SNAP_LOST F.LOG_EVT_CNT1_LOST_CNT).complete fsn stSequence 1

/-- Logbook Snapshot (0xC3). -/
def State.snapRead (s : State) (c : Cmd) : State :=
  let s := if c.lpo = 0 then s.onLog fun l => { l with snaps := l.snaps.set none c.path (some s.snapNow) } else s
  match s.log.snaps.get none c.path with
  | none => s.snapLost c.fsn
  | some sn =>
    if sn.lost then s.snapLost c.fsn
    else
      let d := s.snapPage sn
      let s := if c.logStatus d.length = stOk ∧ c.lpo ≤ sn.sent then
          s.onLog fun l => { l with snaps := l.snaps.set none c.path (some { sn with sent := max sn.sent (c.lpo + c.logLen) }) }
        else s
      s.sendPage c d

/-- GET_LOG_PAGE (R90, R93). -/
def State.getLogPage (s : State) (c : Cmd) : State :=
  if !logIds.contains c.lid then s.complete c.fsn stInvalidField
  else if c.lid = 0xC0 then s.evidencePage c
  else if c.lid = 0xC3 then s.snapRead c
  else
    let d := s.logPage c c.lid
    let st := c.logStatus d.length
    if st ≠ stOk then s.complete c.fsn st else ((s.clearRead c).nextFree).sendPage c d

def execGetLogPage (fsn : Nat) (s : State) : Out := adminRow fsn 0x02 (fun c s => s.getLogPage c) s

end Sys2Proof.Machine
end

