-- ==== Sys2Proof/Machine/Train.lean ====
section
/-! DEFINITION. Identification, training and the split-mode handshake of a flash channel, at start-up and after its unit
reset (chapter 7; R195, R197, R198, R205 to R208, R222, R226). -/
namespace Sys2Proof.Machine

/-- LUNs of a list leave service at identification (R195, R197, R198); one retired stays retired. -/
def State.lunsLeave (s : State) (ch st : Nat) (ls : List Nat) : State :=
  ls.foldl (fun s l => if (s.lun ch l).st = 3 then s else s.onLun ch l fun x => { x with st := st }) s

/-- LUNs of a channel in service. -/
def State.lunsIn (s : State) (ch : Nat) : List Nat := (List.range s.med.lunsCh).filter fun l => (s.lun ch l).st == 1

/-- Identification: dies absent, without a supported interface, of an unsupported geometry or of another die type are
left out of service. -/
def State.identify_ (s : State) (x : ChanIn) : State :=
  let s := s.lunsLeave x.ch 0 x.gone
  let s := if x.noif.isEmpty then s else (s.lunsLeave x.ch 2 x.noif).raiseEvt F.FCH_EVT_NOIF F.FCH_EVT_CNT1_IF_CNT x.ch
  let s := if x.mixed.isEmpty then s else (s.lunsLeave x.ch 2 x.mixed).raiseEvt F.FCH_EVT_MIXED F.FCH_EVT_CNT2_MIXED_CNT x.ch
  if x.geom.isEmpty then s
  else ((s.lunsLeave x.ch 2 x.geom).raiseEvt F.FCH_EVT_GEOM F.FCH_EVT_CNT2_GEOM_CNT x.ch).raiseFault 0x0211 (uChan x.ch)

/-- The handshake (R205 to R207, Table 7.4): split mode, with CE# low, RE running and the LUNs armed, when it is offered, the dies are of one type in NV-LPDDR4, and no LUN in
service fails; with MIX 1 failing LUNs leave service, with MIX 0, or when every LUN fails, the channel stays
conforming. -/
def State.handshake (s : State) (x : ChanIn) : State :=
  let p := (s.chan x.ch).prof
  let bad := (s.lunsIn x.ch).filter fun l => x.fails.contains l
  let split := fun (s : State) => (s.onChan x.ch fun c => { c with mode := 3, rate := min x.code p.splitMax }).armSplit x.ch (s.lunsIn x.ch)
  if x.mode ≠ 2 ∨ !p.splitEn ∨ !x.mixed.isEmpty ∨ (s.lunsIn x.ch).isEmpty then s
  else if bad.isEmpty then split s
  else if p.mix ∧ bad ≠ s.lunsIn x.ch then split (bad.foldl (fun s l => s.lunOut x.ch l) s)
  else s

/-- Training of a channel (R197, R199, R222, R225): the dies are reset and identified and the bus trained; the profile written comes into force (R226); a channel with no open eye is
fenced as an F2 event. -/
def State.trainChan (s : State) (x : ChanIn) : State :=
  let s := s.onChan x.ch fun _ => { prof := s.profOf x.ch, calLast := s.time.frame, mode := x.mode }
  let s := (s.initBus x.ch).identify_ x
  if x.mode = 0 then (s.raiseFault 0x020D (uChan x.ch)).fenceUnit (uChan x.ch) else s.handshake x

end Sys2Proof.Machine
end

