-- ==== Sys2Proof/Machine/Firmware.lean ====
section
/-! DEFINITION. Firmware packages, their commit and activation engine by engine, the warm restart, the NVM subsystem reset
and Unit Command (chapters 4, 13 and 17; R125 to R127, R390, R391, R463, R464, R472 to R480). -/
namespace Sys2Proof.Machine

/-! ### Packages (R472, Table 17.5) -/

/-- OFFSET and LENGTH of container k: 0 SE, 1 HE, 2 ME, 3 FE. -/
def pkgEntry (b : List Byte) (k : Nat) : Nat × Nat := (leAt b (16 + 8 * k) 4, leAt b (20 + 8 * k) 4)

/-- The bytes of container k. -/
def pkgContainer (b : List Byte) (k : Nat) : List Byte := (b.drop (pkgEntry b k).1).take (pkgEntry b k).2

/-- The ENGINES bit of container k. -/
def engBit : Nat → Nat | 0 => 8 | 1 => 1 | 2 => 2 | _ => 4

/-- FLAGS bit 0: the package needs a reset. -/
def pkgNeedsReset (b : List Byte) : Bool := leAt b 6 2 % 2 == 1

/-- The header of a package of `len` bytes holds (Table 17.5). -/
def pkgHeaderOk (b : List Byte) (len : Nat) : Bool :=
  leAt b 0 4 == 0x474B5057 && leAt b 4 2 == 1 && decide (leAt b 6 2 < 2) && leAt b 8 4 == len && decide (15648 ≤ len) &&
  decide (len ≤ 4194368) && leAt b 12 4 == 0 && leAt b 48 16 == 0 &&
  (List.range 4).all fun k =>
    let e := pkgEntry b k
    e.1 % 8 == 0 && decide (64 ≤ e.1) && decide (3896 ≤ e.2) && decide (e.2 ≤ 1048576) && decide (e.1 + e.2 ≤ len)

/-- Fused vendor key hashes whose revoke fuse is intact (R390). -/
def State.vendorKeys (s : State) : List (Nat × List Byte) :=
  ((List.range 4).filter fun k => !s.revokedKeys.testBit k).map fun k => (k, Config.vpkh k)

/-- What a firmware container is judged against (R299, R390). -/
def State.fwIn (s : State) (b : List Byte) (k : Nat) : VIn :=
  { length := (pkgEntry b k).2, hashes := s.vendorKeys.map (·.2), fw := some (engBit k) }

/-- Container k of a package is accepted: the verifier's checks of R299, and an SVN at least the fused counter of its
engine kind (R390). -/
def State.containerOk (s : State) (b : List Byte) (k : Nat) : Bool :=
  let x := pkgContainer b k
  (verdict (s.fwIn b k) x).isNone && decide (cSvn x ≤ 64) && decide (s.svnOf k ≤ cSvn x)

/-- A package is accepted (R390, R391, R472). -/
def State.pkgOk (s : State) (b : List Byte) : Bool :=
  pkgHeaderOk b b.length && (List.range 4).all (s.containerOk b)

/-- A container of a package with a good header is refused for its SVN (R391). -/
def State.pkgRollback (s : State) (b : List Byte) : Bool :=
  pkgHeaderOk b b.length && (List.range 4).any fun k => decide (cSvn (pkgContainer b k) < s.svnOf k)

/-- The package of a slot; slot 1 holds the one of manufacture. -/
def State.pkgOf (s : State) (slot : Nat) : List Byte := if slot = 1 then Config.factoryPkg else s.lvl.fwSlots.get [] slot

/-- The image of engine kind k in a package. -/
def State.pkgImg (s : State) (b : List Byte) (k : Nat) : Img :=
  let x := pkgContainer b k
  let p := cProg (s.fwIn b k) x
  { svn := p.svn, version := p.version, digest := Config.sha3 x, code := p.code, data := p.data, start := (p.entry 0x20).getD 0 }

/-- Index of the fused vendor key that signed container 0 (SEC_STAT.VKEY). -/
def State.pkgKey (s : State) (b : List Byte) : Nat :=
  let x := pkgContainer b 0
  match cSec x 6 with
  | some y => ((s.vendorKeys.find? fun e => e.2 == ((secBytes x y).drop 4).take 32).map (·.1)).getD 0
  | none => 0

/-! ### Images on engines (R299) -/

/-- The engine kind of an engine index: 0 SE, 1 HE, 2 ME, 3 FE. -/
def kindOfEng (e : Nat) : Nat := if e < 0x10 then 1 else if e < 0x20 then 2 else if e < 0x30 then 3 else 0

/-- CODE at offset 0 of local memory, DATA at the next multiple of 8 (R299). -/
def Img.bytes (i : Img) : List Byte := padTo ((i.code.length + 7) / 8 * 8) i.code ++ i.data

/-- Write an image into an engine's local memory and begin it at START (R299). -/
def State.loadImg (s : State) (e : Nat) (i : Img) : State :=
  (s.memFill (sramLoc (uEng e) 0) i.bytes (i.bytes.length / 8)).onEng e fun g =>
    { g with vpc := i.start, v0 := {}, v1 := {}, build := i.version % 65536, svn := i.svn }

/-- The image of the package that runs, for an engine. -/
def State.activeImg (s : State) (e : Nat) : Img := s.pkgImg (s.pkgOf s.lvl.active) (kindOfEng e)

/-- An engine leaves its reset: registers at reset values, image loaded. -/
def State.bootEng (s : State) (e : Nat) : State :=
  (s.onEng e fun _ => { born := s.time.frame }).loadImg e (s.activeImg e)

/-- A running command port operation finishes (R19, R20, R514, R476), a DRAIN once the unit has no work in flight; an engine whose UNIT_RESET passed begins its image
again (R299, R475), and a channel's is retrained with the handshake repeated (R208, R479). -/
def State.opComplete (s : State) (a : Nat) (pass : Bool) (tr : ChanIn) : State :=
  if (match (s.unit a).run with | some (.drain, _) => !s.domainIdle a | _ => false) then s else
  let again : Bool := match (s.unit a).run with | some (.unitReset, _) => pass | _ => false
  let s := s.endOp a pass
  let s := if again && uKind a == 4 then s.bootEng (uIdx a) else s
  let s := if again && uKind a == 3 then s.trainChan { tr with ch := uIdx a } else s
  s.finishUnitCmd a

def execUnitOperationComplete (unit : Nat) (pass : Bool) (tr : ChanIn) (s : State) : Out :=
  .next (if isUnit unit then s.opComplete unit pass tr else s)

/-! ### Firmware Image Download (R84, Table 3.8) -/

/-- FIRMWARE_IMAGE_DOWNLOAD: CDW10 NUMD and CDW11 OFST in dwords. Another function's download starts afresh. -/
def State.fwDownload (s : State) (c : Cmd) : State :=
  let n := 4 * (c.sqe.cdw10 + 1)
  if 0x1FFFFF < c.sqe.cdw10 then s.complete c.fsn stInvalidField
  else
    let o := 4 * c.sqe.cdw11
    let d := padTo n (c.sqe.data.take n)
    let keep := s.lvl.fwOwner == c.fn
    (s.onLvl fun l => { l with fwBuf := (if keep then l.fwBuf else {}).setRange 0 o d, fwOwner := c.fn,
                               fwLen := max (if keep then l.fwLen else 0) (o + n) }).complete c.fsn stOk

def execFirmwareImageDownload (fsn : Nat) (s : State) : Out := adminRow fsn 0x11 (fun c s => s.fwDownload c) s

/-! ### Warm restart (R127, R463) -/

/-- The reset point of a warm restart: every function is reset, and nothing more is fetched. -/
def State.warmBegin (s : State) : State :=
  (s.subsystemReset.onHif fun h => { h with fetchStop := true }).onLvl fun l => { l with warmRun := true, pendFw := none }

/-- WARM_RESTART (R463): with every committed sector programmed and every group closed, the clean shutdown is made and the
core restarts as at power-up, VDD_CORE kept. A power failure meanwhile turns it into the drain. -/
def State.warmRestart (s : State) : State :=
  if s.lvl.warmRun ∧ s.lvl.core ∧ !s.pwr.pfail ∧ !s.sched.drain ∧ s.unprogrammed = 0 ∧ s.jnl.groups.isEmpty then
    s.cleanShutdown.testAbort.coreDown.onLvl fun l => { l with warm := true, warmRun := false, endNow := 0 }
  else s

def execWarmRestart (s : State) : Out := .next s.warmRestart

/-! ### Activation (R125, R126, R474, R475) -/

/-- The order of swaps: FEs, MEs, HEs, SE0, SE2, SE3, SE1 (R474). -/
def swapOrder : List Nat := (List.range 16).map eFE ++ (List.range 16).map eME ++ (List.range 12).map eHE ++ [0x30, 0x32, 0x33, 0x31]

/-- An activation begins: the package of a slot runs from here on, engine by engine. -/
def State.beginAct (s : State) (slot : Nat) (fsn : Option Nat) : State :=
  s.onLvl fun l => { l with act := some { todo := swapOrder, fsn := fsn }, active := slot, pendFw := none, actDone := 0, actSkip := 0 }

/-- Change the running activation. -/
def State.onAct (s : State) (f : Act → Act) : State := s.onLvl fun l => { l with act := l.act.map f }

/-- The activation ends with its last engine: Firmware Commit completes (R125). -/
def State.endAct (s : State) : State :=
  match s.lvl.act with
  | some a =>
    if a.todo.isEmpty && a.cur.isNone then
      let s := (s.miChange 7).onLvl fun l => { l with act := none, actDone := a.done, actSkip := a.skipped }
      match a.fsn with | some f => s.complete f stOk | none => s
    else s
  | none => s

/-- An engine is skipped (R475). -/
def State.skipEng (s : State) : State :=
  ((s.onAct fun a => { a with cur := none, begun := false, moved := [], skipped := a.skipped + 1 }).raiseEvt F.SYS_EVT_ACT_SKIP F.SYS_EVT_CNT0_SKIP_CNT).endAct

/-- Move an ME's groups to a sibling for its swap, with none but it UP left where they are (Table 4.5, R475). -/
def State.lendGroups (s : State) (me : Nat) : State :=
  let gs := s.servedBy me
  if (s.adopterFor (me / 4) me).isNone then s
  else
    let s := gs.foldl (fun s g => match s.adopterFor (me / 4) me with
      | some m => s.onUnit (uGroup g) fun u => { u with adopter := if m = g then none else some m }
      | none => s) s
    s.onAct fun a => { a with moved := gs }

/-- Move an HE's queues to the other HEs for its swap, as R29 states (Table 4.5); with none UP they stay. -/
def State.lendQueues (s : State) (he : Nat) : State :=
  let qs := s.queues.filter fun q => s.heOf q.1 q.2 == he
  if (s.heFor he).isNone then s
  else (s.moveHe he).onAct fun a => { a with moved := qs.map fun q => q.1 * 65536 + q.2 }

/-- Return an HE's queues after its swap; a queue deleted meanwhile is not there to return. -/
def State.returnQueues (s : State) (he : Nat) (qs : List Nat) : State :=
  qs.foldl (fun s k => if s.queues.contains (k / 65536, k % 65536) then s.onHif fun h => { h with heQ := h.heQ.set 0 k (he + 1) } else s) s

/-- Return an ME's groups after its swap. -/
def State.returnGroups (s : State) (me : Nat) (gs : List Nat) : State :=
  gs.foldl (fun s g => s.onUnit (uGroup g) fun u => { u with adopter := if me = g then none else some me }) s

/-- After the swap of SE3 the digests reported are those of the running images (R475). -/
def State.reportImgs (s : State) : State :=
  let b := s.pkgOf s.lvl.active
  s.onSec fun x => { x with imgs := (List.range 4).foldl (fun m k => m.set none k (some (s.pkgImg b k))) x.imgs }

/-- An engine's turn comes: one FENCED or RETIRED is skipped (R475). -/
def State.takeTurn (s : State) (e : Nat) (rest : List Nat) : State :=
  if s.unitState (uEng e) = .fenced ∨ s.unitState (uEng e) = .retired then (s.onAct fun a => { a with todo := rest }).skipEng
  else s.onAct fun a => { a with todo := rest, cur := some e }

/-- The swap of an engine begins at a frame boundary, once its step in flight has ended; one whose unit port is BUSY waits
(R474, R475). Its work moves as Table 4.5 states. -/
def State.beginSwap (s : State) (e : Nat) : State :=
  if (s.unit (uEng e)).run.isSome ∨ (s.eng e).ring ≠ 0 then s
  else
    let s := s.onAct fun a => { a with begun := true }
    if kindOfEng e = 2 then s.lendGroups (e - 0x10) else if kindOfEng e = 1 then s.lendQueues e else s

/-- The engine whose turn it is begins its swap at this frame boundary (R474). -/
def State.swapTick (s : State) : State :=
  match s.lvl.act with
  | some a => match a.begun, a.cur with | false, some e => s.beginSwap e | _, _ => s
  | none => s

/-- The swap of an engine ends with the new image running, or with a fault that fences it (R475), recorded under 0x0304 where the device
cannot serve without the engine, else as its nested ring V trap (R443; DESIGN CHOICE, log 133: R475 names no code). -/
def State.endSwap (s : State) (a : Act) (e : Nat) (faults : Bool) : State :=
  if faults then ((if e = 0x30 ∨ e = 0x32 ∨ e = 0x33 then s else s.raiseFault 0x020F (uEng e)).fenceUnit (uEng e)).skipEng
  else
    let s := s.loadImg e (s.activeImg e)
    let s := if kindOfEng e = 2 then s.returnGroups (e - 0x10) a.moved else if kindOfEng e = 1 then s.returnQueues e a.moved else s
    let s := if e = 0x33 then s.reportImgs else s
    (s.onAct fun x => { x with cur := none, begun := false, moved := [], done := x.done + 1 }).endAct

/-- ENGINE_SWAP: the next engine's turn comes, or the swap that runs ends; a turn whose frame boundary has not come yet
waits for it. -/
def State.engineSwap (s : State) (faults : Bool) : State :=
  match s.lvl.act with
  | none => s
  | some a =>
    match a.cur, a.todo with
    | some e, _ => if a.begun then s.endSwap a e faults else s
    | none, e :: t => s.takeTurn e t
    | none, [] => s.endAct

def execEngineSwap (faults : Bool) (s : State) : Out := .next (s.engineSwap faults)

/-! ### Firmware Commit (R391, R472, R473, Table 17.6) -/

/-- The slot that slot 0 chooses: the lowest of 2 to 4 that is not the committed one. -/
def State.chooseSlot (s : State) : Nat := if s.lvl.committed = 2 then 3 else 2

/-- The package a commit acts on, and whether it is a new download. -/
def State.downloaded (s : State) : Option (List Byte) :=
  if s.lvl.fwLen = 0 then none else some ((List.range s.lvl.fwLen).map fun i => s.lvl.fwBuf.get 0 i)

/-- A package is refused (R391). -/
def State.refusePkg (s : State) (c : Cmd) (b : List Byte) : State :=
  let s := if s.pkgRollback b then s.raiseEvt F.SEC_EVT_ROLLBACK F.SEC_EVT_CNT1_RB_CNT else s
  s.complete c.fsn stFwImage

/-- What an accepted commit does after its slot is written (Table 17.6). -/
def State.activate (s : State) (c : Cmd) (ca slot : Nat) (b : List Byte) : State :=
  if ca = 0 then s.complete c.fsn stOk
  else
    let s := s.onLvl fun l => { l with committed := slot }
    if ca ≤ 2 then (s.onLvl fun l => { l with pendFw := some slot }).complete c.fsn stFwNeedsReset
    else if pkgNeedsReset b then s.warmBegin
    else (s.beginAct slot (some c.fsn)).onCmd c.fsn fun x => { x with ph := .running }

/-- Write a downloaded package to its slot. -/
def State.writeSlot (s : State) (slot : Nat) (b : List Byte) : State :=
  s.onLvl fun l => { l with fwSlots := l.fwSlots.set [] slot b, fwBuf := {}, fwLen := 0 }

/-- FIRMWARE_COMMIT: CDW10 [5:3] commit action, [2:0] slot. One fetched during an activation waits (R126). -/
def State.fwCommit (s : State) (c : Cmd) : State :=
  let ca := bits c.sqe.cdw10 5 3
  let slot := if c.sqe.cdw10 % 8 = 0 then s.chooseSlot else c.sqe.cdw10 % 8
  let dl := if ca = 2 then none else s.downloaded
  if s.lvl.act.isSome ∨ s.lvl.warmRun then s
  else if 3 < ca then s.complete c.fsn stInvalidField
  else if 4 < slot then s.complete c.fsn stFwSlot
  else match dl with
    | some b =>
      if slot = 1 then s.complete c.fsn stFwSlot
      else if s.pkgOk b then (s.writeSlot slot b).activate c ca slot b else s.refusePkg c b
    | none =>
      if ca < 2 then s.complete c.fsn stFwImage
      else if s.pkgOk (s.pkgOf slot) then s.activate c ca slot (s.pkgOf slot) else s.refusePkg c (s.pkgOf slot)

def execFirmwareCommit (fsn : Nat) (s : State) : Out := adminRow fsn 0x10 (fun c s => s.fwCommit c) s

/-! ### NVM subsystem reset (R464, R473) -/

/-- NVM subsystem reset: a pending package is swapped behind it, or makes it a warm restart. In the halt the reset acts on
the functions alone (R449). -/
def State.nvmReset (s : State) : State :=
  if !s.lvl.core then s
  else match s.lvl.pendFw with
    | some slot =>
      if s.halted ∨ s.lvl.act.isSome then s.subsystemReset
      else if pkgNeedsReset (s.pkgOf slot) then s.warmBegin
      else s.subsystemReset.beginAct slot none
    | none => s.subsystemReset

def execNvmSubsystemReset (s : State) : Out := .next s.nvmReset

/-! ### Unit Command (R476 to R480, Table 17.7) -/

def Cmd.ucOp (c : Cmd) : Nat := c.sqe.cdw10 % 256
def Cmd.ucArg (c : Cmd) : Nat := c.sqe.cdw10 / 65536 % 65536
def Cmd.ucUnit (c : Cmd) : Nat := c.sqe.cdw11 % 65536
def Cmd.ucLun (c : Cmd) : Nat := bits c.sqe.cdw11 20 16
def Cmd.ucSel (c : Cmd) : Bool := c.sqe.cdw11.testBit 31

/-- Invalid Field in Command (R477). -/
def Cmd.ucBad (c : Cmd) : Bool :=
  let a := c.ucUnit
  bits c.sqe.cdw10 15 8 != 0 || bits c.sqe.cdw11 30 21 != 0 || !isUnit a ||
  !(uKind a == 3 || (uKind a == 4 && decide (uIdx a < 0x30))) ||
  (c.ucSel && (uKind a != 3 || !(c.ucOp == 1 || c.ucOp == 8)))

/-- FCH_LUN_STAT of a LUN (Table 7.10). -/
def State.lunStat (s : State) (ch lun : Nat) : Nat :=
  let l := s.lun ch lun
  let susp := l.run.any (·.since.isSome)
  (l.run.foldl (fun a r => max a r.susp) 0) % 16 * 16 + b2n susp * 8 + b2n (!l.run.isEmpty) * 4 + l.st % 4

/-- Every chunk of a LUN that held data has been relocated and retired. -/
def State.lunEmptied (s : State) (ch lun : Nat) : Bool :=
  !(s.med.chunks.items.any fun e => e.1 / 65536 == lunKey ch lun && e.2.used)

/-- One operation on a LUN (R478): the CODE it completes with. -/
def State.lunOp (s : State) (ch lun op arg : Nat) : Nat × State :=
  if arg ≠ 0 then (2, s)
  else if op = 1 then (if (s.lun ch lun).st = 1 then (0, s.lunOut ch lun) else (3, s))
  else if (s.lun ch lun).st = 2 ∧ s.lunEmptied ch lun then (0, s.onLun ch lun fun l => { l with st := 3 })
  else (3, s)

/-- A Unit Command that is over: its result words. -/
def State.ucDone (s : State) (c : Cmd) (dw1 : Nat) : State := s.complete c.fsn stOk (s.unitCres c.ucUnit) [] dw1

/-- Set LAST_OP and CODE of a unit. -/
def State.setCres (s : State) (a op code : Nat) : State := s.onUnit a fun u => { u with lastOp := op % 256, code := code }

/-- UNIT_COMMAND: one at a time in FSN order, none during an activation (R475, R476). -/
def State.unitCommand (s : State) (c : Cmd) : State :=
  let a := c.ucUnit
  if s.lvl.act.isSome ∨ (s.hif.cmds.any fun d => d.sq == 0 && d.sqe.opc == 0xCC && (d.ph == .running || decide (d.fsn < c.fsn))) then s
  else if c.ucBad then s.complete c.fsn stInvalidField
  else if (s.unit a).run.isSome then s.complete c.fsn stSequence
  else if c.ucSel then
    let r := s.lunOp (uIdx a) c.ucLun c.ucOp c.ucArg
    let t := r.2.setCres a c.ucOp r.1
    t.ucDone c (t.lunStat (uIdx a) c.ucLun)
  else match opOf c.ucOp with
    | none =>
      let t := s.setCres a c.ucOp 2
      t.ucDone c (t.unitStat a)
    | some o =>
      let t := s.issueOp a o c.ucArg (some c.fsn)
      if (t.unit a).run.isSome then t.onCmd c.fsn fun x => { x with ph := .running } else t.ucDone c (t.unitStat a)

def execUnitCommand (fsn : Nat) (s : State) : Out := adminRow fsn 0xCC (fun c s => s.unitCommand c) s

end Sys2Proof.Machine
end

