-- ==== Sys2Proof/Machine/RegView.lean ====
section
/-! DEFINITION. What each internal register reads as: the stored fields of Table 18.5, and the values that hardware
presents from the state behind them (chapters 1 to 17, the register tables). `acc` is the accessor index and `u` the copy:
the unit a window selects, or 0. -/
namespace Sys2Proof.Machine

/-- The stored fields of a register, each at its bits; WO fields read zero (R6). -/
def State.stored (s : State) (r : Reg) (u : Nat) : Nat :=
  r.flds.foldl (fun v f => if f.ty = .wo then v else v + s.getF f u * 2 ^ f.lo) 0

/-- Two 16-bit halves. -/
def half (hi lo : Nat) : Nat := hi % 65536 * 65536 + lo % 65536

/-- A signed number as 16 bits. -/
def low16 (v : Int) : Nat := (v % 65536).toNat

/-! ### SYS -/

/-- The unit port (R16, R22): registers 0x104 to 0x17C, of the unit that the accessor's SYS_UNIT_SEL names. -/
def State.viewPort (s : State) (a addr : Nat) : Nat :=
  let x := s.unit a
  match addr with
  | 0x104 => unitDesc a
  | 0x108 => s.unitStat a
  | 0x10C => s.unitErr a
  | 0x110 => half x.cnt1 x.cnt0
  | 0x114 => half x.cnt3 x.cnt2
  | 0x118 => 0
  | 0x11C => s.unitCres a
  | 0x120 => s.unitPwr a
  | _ => unitChild a ((addr - 0x140) / 4)

/-- SYS_RST_CAUSE, SYS_LEVEL, SYS_LEVEL_T0 and T1, SYS_ACT (Table 17.10). -/
def State.viewSys (s : State) (addr : Nat) : Option Nat :=
  let l := s.lvl
  match addr with
  | 0x200 => some (l.prevEnd % 16 * 16 + b2n l.warm * 8 + l.slot % 8)
  | 0x204 => some (b2n l.writes * 32 + b2n l.lastClean * 16 + l.level % 4)
  | 0x208 => some (half (min l.bronze 65535) (min l.tin 65535))
  | 0x20C => some (half (min l.wrAt 65535) (min l.steel 65535))
  | 0x210 => some (match l.act with
    | some a => 2 ^ 31 + a.done % 256 * 65536 + a.skipped % 256 * 256 + a.cur.getD 0x3F
    | none => l.actDone % 256 * 65536 + l.actSkip % 256 * 256 + 0x3F)
  | _ => none

/-! ### FRM -/

/-- FRM registers (Tables 2.10, 2.13, 6.6) that hardware presents. -/
def State.viewFrm (s : State) (acc addr : Nat) : Option Nat :=
  let tid := s.getF F.FRM_LED_IDX_TID acc
  let res := s.getF F.FRM_LED_IDX_RES acc
  match addr with
  | 0x100004 => some (b2n s.sched.drain * 512 + b2n s.sched.emerg * 256 + b2n s.sched.pendShares.isSome)
  | 0x100044 => some (b2n ((s.sched.ledger.get {} tid).backlog.testBit res) * 65536 + s.sched.weightShown tid)
  | 0x100100 => some (b2n s.map.rebuild * 8 + b2n s.map.loaded * 4 + b2n s.map.tailDone * 2 + b2n s.map.indexDone)
  | 0x10010C => some s.fineFree
  | _ => none

/-! ### PWR -/

/-- Mean p_in over 16 frames in 0.01 W (PWR_GOV_STAT.PIN). -/
def State.meanPin (s : State) : Nat := min 65535 (meanOf s.gov.pins * 100 / 65536).toNat

/-- Power registers (Table 14.8). -/
def State.viewPwr (s : State) (addr : Nat) : Option Nat :=
  let p := s.pwr
  match addr with
  | 0x200000 => some (p.wakeSrc % 16 * 256 + p.lastOp % 8 * 16 + b2n p.host * 8 + p.cur % 8)
  | 0x200004 => some (sat32 p.idle)
  | 0x20000C => some ((List.range 16).foldl (fun v n => v + b2n (decide ((s.unit (uGroup n)).cur = 1)) * 2 ^ n) 0)
  | 0x200040 => some (b2n (!p.present) * 2 ^ 31 + b2n p.test.isSome * 2 ^ 30 + p.result % 4 * 2 ^ 28 + min s.holdNow 65535)
  | 0x200044 => some (min (p.capN / max 1 p.capD) 0xFFFFFF)
  | _ => none

/-- Governor registers (Table 15.8). -/
def State.viewGov (s : State) (acc addr : Nat) : Option Nat :=
  let g := s.gov
  match addr with
  | 0x200104 => some (b2n g.drain * 2 ^ 31 + b2n g.ramp * 2 ^ 30 + b2n g.clamp * 2 ^ 29 + b2n g.fallback * 2 ^ 28 +
      b2n g.reverted * 2 ^ 27 + b2n g.swap * 2 ^ 26 + g.lim * 2 ^ 24 + s.meanPin)
  | 0x20010C => some (half g.cap (g.rk / 6553600))
  | 0x200120 => some (half (low16 g.base) (min g.bud 65535))
  | 0x200140 => some (half (min 65535 (maOfQ g.vbus).toNat) (min 65535 (maOfQ g.iin).toNat))
  | 0x200144 => some (half (min 65535 g.vhu) (low16 g.tbrd))
  | 0x200154 => some (matEntry (if s.getF F.PWR_GOV_MIDX_BANK acc = 0 then g.act else g.shadow) (s.getF F.PWR_GOV_MIDX_ENTRY acc))
  | 0x20015C => some (word32 (g.nodes.getD (s.getF F.PWR_GOV_XIDX_NODE acc) 0))
  | 0x200188 => some (b2n g.armed * 2 ^ 31 + b2n g.trig * 2 ^ 30 + b2n g.done * 2 ^ 29 + g.wptr % 4096)
  | 0x200190 => some (g.traceAt (s.getF F.PWR_TRC_IDX_BUF acc) (s.getF F.PWR_TRC_IDX_SAMPLE acc))
  | _ => none

/-! ### FLT and LOG -/

/-- Word n of a 32-byte entry (Table 16.3), zero where there is none. -/
def histWord (h : Option HistEnt) (n : Nat) : Nat := match h with | some e => leAt e.bytes (4 * n) 4 | none => 0

/-- Fault and health registers (Table 16.10). FLT_HIST_D1 to D7 show the entry that the accessor's last read of D0
latched. -/
def State.viewFlt (s : State) (acc addr : Nat) (stored : Nat) : Option Nat :=
  let f := s.flt
  let mon := f.mons.get {} (s.getF F.FLT_HLT_IDX_MON acc)
  if 0x300044 ≤ addr ∧ addr ≤ 0x30005C then some (histWord (f.histLatch.get none acc) ((addr - 0x300040) / 4))
  else if 0x300080 ≤ addr ∧ addr ≤ 0x30009C then some (histWord f.first ((addr - 0x300080) / 4))
  else match addr with
  | 0x300000 => some (b2n s.halted * 2 ^ 31 + b2n f.armed * 2 ^ 30 + min s.fencedUnits.length 255 * 65536)
  | 0x300010 => some (b2n s.faultPin * 2 ^ 31 + b2n f.pulse * 2 ^ 30 + stored)
  | 0x300020 => some (half f.total f.hist.length)
  | 0x300040 => some (histWord (f.hist[s.getF F.FLT_HIST_IDX_ENTRY acc]?) 0)
  | 0x300060 => some (half f.captCnt (b2n f.first.isSome))
  | 0x3000A0 => some (sat32 f.eol)
  | 0x3000A8 => some (min mon.margin 65535)
  | 0x3000AC => some (sat32 mon.eol)
  | _ => none

/-- Logbook registers (Table 16.11). -/
def State.viewLog (s : State) (acc addr : Nat) : Option Nat :=
  match addr with
  | 0x400004 => some s.log.head
  | 0x400008 => some s.log.tail
  | 0x400020 => some (b2n (s.log.subs.any (fun b => b.acc == acc)) * 2 ^ 31)
  | _ => none

/-! ### HIF, RLT, LND -/

/-- A port's link register (Table 3.14). -/
def PortSt.link (p : PortSt) : Nat :=
  p.credit % 2 ^ 22 * 1024 + p.pm % 4 * 256 + b2n p.flit * 128 + p.width % 8 * 16 + p.gen % 8 * 2 + b2n p.up

/-- HIF_FN_STAT of a function (Table 3.15, R103): zero where it names no enabled function; EN where CC.EN is set too. -/
def State.fnStat (s : State) (fn : Nat) : Nat :=
  if s.fnExists fn then
    b2n (s.ctrl fn).en * 2 ^ 31 + s.portOf fn * 2 ^ 30 + min (s.assignedQ fn) 4096 * 65536 + s.hif.defTid.get 0 fn % 4096
  else 0

/-- Host front end registers (Tables 3.13 to 3.15). -/
def State.viewHif (s : State) (acc addr : Nat) (stored : Nat) : Option Nat :=
  match addr with
  | 0x500000 => some (b2n s.hif.bifur * 256 + stored)
  | 0x500020 => some s.hif.p0.link
  | 0x500024 => some (if s.hif.bifur then s.hif.p1.link else 0)
  | 0x500030 => some (s.flexFreeQ % 65536)
  | 0x500044 => some (s.fnStat (s.getF F.HIF_FN_IDX_FN acc))
  | 0x600000 => some (min s.lockWaiters.length 4096 * 65536 + s.rltUsed)
  | _ => none

/-- Committed landing sectors of a slice not yet freed. -/
def State.sliceHeld (s : State) (n : Nat) : Nat :=
  (s.lnd.secs.items.filter fun e => e.1 / 4096 == n && (match e.2 with | some x => x.done | none => false)).length

/-- Landing slice registers (Table 4.10). -/
def State.viewLnd (s : State) (n addr : Nat) : Option Nat :=
  match addr with
  | 0x700004 => some (b2n (!s.pwr.present) * 2 ^ 31 + b2n (s.catchup n) * 2 ^ 30 + s.sliceFree n % 4096 * 65536 + s.sliceHeld n % 4096)
  | _ => none

/-! ### FCH, GRP, QD, ENG -/

/-- Channel registers (Tables 7.10, 8.9). -/
def State.viewFch (s : State) (acc c addr : Nat) : Option Nat :=
  let x := s.chan c
  match addr with
  | 0x800008 => some (cdiv (s.streams c) 4 % 4 * 256 + b2n x.cal.isSome * 128 + x.rate % 8 * 16 + x.mode % 4)
  | 0x800010 => some (s.lunStat c (s.getF F.FCH_LUN_IDX_LUN acc))
  | 0x800050 => some (s.goodChunks c % 2 ^ 24)
  | 0x800054 => some (s.med.grownCnt.get 0 c % 2 ^ 24)
  | _ => none

/-- Group registers (Table 7.11). -/
def State.viewGrp (s : State) (addr : Nat) (stored : Nat) : Option Nat :=
  match addr with
  | 0x900004 => some (s.listBuf * 256 + stored)
  | _ => none

/-- A capacity count of a quadrant as step 2 last showed it (R162). -/
def State.shownAt (s : State) (q i : Nat) : Nat := s.med.shown.get 0 (q * 8 + i)

/-- Quadrant registers (Tables 5.9, 6.8). -/
def State.viewQd (s : State) (q addr : Nat) : Option Nat :=
  match addr with
  | 0xA00100 => some (s.shownAt q 0)
  | 0xA00104 => some (s.shownAt q 1)
  | 0xA00108 => some (s.shownAt q 2)
  | 0xA0010C => some s.guard
  | 0xA00110 => some (s.shownAt q 5 * 2 + s.shownAt q 4)
  | 0xA00200 => some (s.med.budget.get 0 q)
  | 0xA00204 => some (s.shownAt q 6)
  | 0xA00208 => some (s.shownAt q 3)
  | 0xA00214 => some (b2n (s.med.folding.testBit q) * 4 + s.shownAt q 7 * 2 + b2n (s.med.gcOn.testBit q))
  | _ => none

/-- Engine registers (Table 18.3). -/
def State.viewEng (s : State) (e addr : Nat) (stored : Nat) : Option Nat :=
  let g := s.eng e
  match addr with
  | 0xB00004 => some (stored + b2n (decide (g.ring ≠ 0)) * 4 + g.ring % 4)
  | 0xB00008 => some (g.build % 65536 * 65536 + g.svn % 256)
  | _ => none

/-! ### DRC, MEMP -/

/-- Subchannel registers (Table 12.6). -/
def State.viewSub (s : State) (acc n addr : Nat) : Option Nat :=
  let x := s.sub n
  match addr with
  | 0xC00008 => some (min x.ppr 255 * 2 ^ 24 + b2n x.hot * 8192 + x.fsp % 2 * 4096 + max x.owed0 x.owed1 % 16 * 256 + x.phase % 16)
  | 0xC00010 =>
    let e := x.eyes.get (0, 0, 0, 0) (s.getF F.DRC_SC_EYE_IDX_FSP acc * 16 + s.getF F.DRC_SC_EYE_IDX_STROBE acc)
    some (e.1 % 256 * 2 ^ 24 + e.2.1 % 256 * 65536 + e.2.2.1 % 256 * 256 + e.2.2.2 % 256)
  | _ => none

/-- Chunks an evacuation has still to copy; before its first phase ends, all of the second phase's. -/
def State.evacLeft (s : State) : Nat :=
  match s.dram.evac with
  | some e =>
    let n := s.dram.active.length
    if e.phase = 1 then s.evacTop / 2 ^ s.dram.grain - (n - 1) * (n - 2) else e.left
  | none => 0

/-- Controller registers (Table 12.7). A port above 11 reads zero (R368). -/
def State.viewDrc (s : State) (acc addr : Nat) : Option Nat :=
  let d := s.dram
  let p := s.getF F.DRC_QOS_IDX_PORT acc
  match addr with
  | 0xC00404 => some (d.active.foldl (fun v n => v + 2 ^ n) 0 % 256 * 2 ^ 24 + d.active.length % 16 * 2 ^ 20 + b2n d.fsp0ok * 2 ^ 19 +
      d.fsp % 2 * 2 ^ 18 + b2n d.want.isSome * 2 ^ 17 + b2n d.evac.isSome * 2 ^ 15)
  | 0xC00414 => some (d.evacCode % 8 * 2 ^ 29 + min (2 ^ 26 - 1) (cdiv (s.evacLeft * 2 ^ d.grain) (2 ^ 20)))
  | 0xC00418 => some (d.rowkey % 2 ^ 17)
  | 0xC00434 => some (if 11 < p then 0 else
      s.getF F.DRC_QOS_TGT_FLOOR p * 2 ^ 28 + s.getF (qosShare p) p * 2 ^ 20 + s.getF (qosTarget p) p)
  | 0xC00438 => some (if 11 < p then 0 else s.portUrg p % 4 * 65536 + min (s.portReqs p).length 65535)
  | 0xC0043C => some (if 11 < p then 0 else s.getF F.DRC_QOS_LATE_LATE p)
  | _ => none

/-- The repeat entry an accessor's MEMP_REP_IDX shows; an expired one is empty (R337). -/
def State.repShown (s : State) (acc : Nat) : Option RepEnt :=
  match s.memp.rep.get none (s.getF F.MEMP_REP_IDX_ENTRY acc) with
  | some e => if s.repExpired e then none else some e
  | none => none

/-- The eight bytes of the fuse entry that MEMP_FUSE_IDX shows, zero when unused. -/
def State.fuseShown (s : State) (acc : Nat) : Nat :=
  let i := s.getF F.MEMP_FUSE_IDX_ENTRY acc
  if i < 1024 then (if i < min Config.factoryFuses 1024 then ofLe (Fuse.ofNat (Config.factoryFuse i)).bytes else 0)
  else match s.memp.soft[i - 1024]? with | some f => ofLe f.bytes | none => 0

/-- Memory protection registers (Table 11.10). -/
def State.viewMemp (s : State) (acc addr : Nat) : Option Nat :=
  let m := s.memp
  match addr with
  | 0xD00004 => some (s.erasures % 16 * 256 + b2n m.pass.isSome)
  | 0xD0000C => some (half m.lapS m.lapD)
  | 0xD00034 => some ((List.range 8).foldl (fun v n => v + (match m.failed.get 0 n with | 0 => 15 | d + 1 => d % 16) * 2 ^ (4 * n)) 0)
  | 0xD00044 => some (b2n m.pass.isSome * 2 ^ 31 + m.passCode % 16 * 2 ^ 27 + m.passDone % 2 ^ 27)
  | 0xD00054 => some (half (min m.sumCorr 65535) (min m.sumUnc 65535))
  | 0xD00058 => some (half (min m.sumFound 65535) (min m.sumNew 65535))
  | 0xD0008C => some (match s.repShown acc with | some e => e.count % 4 * 2 ^ 24 + e.lap % 65536 * 256 + e.st % 4 | none => 0)
  | 0xD000A0 => some (half m.soft.length (min Config.factoryFuses 1024))
  | 0xD000A8 => some (s.fuseShown acc % 2 ^ 32)
  | 0xD000AC => some (s.fuseShown acc / 2 ^ 32)
  | _ => none

/-! ### CRY, SEC, MRC, PRG -/

/-- Cipher cluster registers (Table 13.12). -/
def State.viewCc (s : State) (q addr : Nat) : Option Nat :=
  let c := s.cc q
  match addr with
  | 0xE00004 => some (popN 16 c.up * 65536 + (c.pipes.vals.filter (fun p => p.susp.isSome)).length % 32 * 256 +
      (List.range 4).foldl (fun v p => v + b2n (c.queue.any (fun j => j.prio == p)) * 2 ^ p) 0)
  | 0xE00008 => some (c.up % 65536)
  | 0xE0000C => some (c.pool % 256 * 65536 + c.bad % 32)
  | _ => none

/-- STATE of a key slot (Table 13.13). -/
def Slot.phase (k : Slot) : Nat := if k.rekey then 2 else if k.prev.isSome then 1 else 0

/-- Security registers (Table 13.13). -/
def State.viewSec (s : State) (acc addr : Nat) : Option Nat :=
  let k := s.slot (s.getF F.SEC_SLOT_IDX_SLOT acc)
  match addr with
  | 0xF00000 => some s.secStat
  | 0xF00004 => some (s.sec.alarm % 256)
  | 0xF0000C => some s.svnWord
  | 0xF00014 => some (half (s.sec.slots.items.filter (fun e => isGenSlot e.1 && e.2.kind != 0)).length
      (s.sec.slots.items.filter (fun e => isNsSlot e.1 && e.2.cur.isSome)).length)
  | 0xF0001C => some (k.owner.getD 0 % 4096 * 2 ^ 20 + b2n (decide (k.kind ≠ 0) && k.owner.isNone) * 2 ^ 19 + k.kind % 8 * 65536 + k.phase * 16384)
  | 0xF00030 => some (s.revokedKeys % 16)
  | _ => none

/-- Journal registers (Table 6.7). -/
def State.viewMrc (s : State) (addr : Nat) (stored : Nat) : Option Nat :=
  match addr with
  | 0x1000108 => some (b2n s.lvl.lastClean * 2 ^ 31 + min 16384 (cdiv (16 * s.jnl.ring) 1024))
  | 0x100010C => some (s.jnl.sweeps % 65536 * 65536 + stored)
  | _ => none

/-- Program registers (Table 10.14). -/
def State.viewPrg (s : State) (acc addr : Nat) : Option Nat :=
  let fe := s.getF F.PRG_FE_IDX_FE acc
  match addr with
  | 0x1100004 => some (s.ringCount 2 % 2048 * 65536 + s.ringCount 1 % 128)
  | 0x1100008 => some (sat32 s.prg.osvn)
  | 0x1100010 => some s.prg.vres
  | 0x1100028 => some (min 65535 (s.prg.scans.filter (fun c => c.fe == fe && !c.resident)).length * 65536 +
      (s.prg.scans.filter (fun c => c.fe == fe && c.resident)).length % 8)
  | _ => none

/-! ### LO and HI pairs, and every register -/

/-- The 64-bit value behind a LO register whose HI half a read of it latches (R70). -/
def State.pair (s : State) (acc u lo : Nat) : Option Nat :=
  match lo with
  | 0x100008 => some s.time.frame
  | 0x100048 => some (s.sched.vt (s.getF F.FRM_LED_IDX_TID acc) (s.getF F.FRM_LED_IDX_RES acc))
  | 0x100050 => some (s.sched.vmin.get 0 (s.getF F.FRM_LED_IDX_RES acc))
  | 0x40000C => some s.log.seq
  | 0x600010 => some (match s.lockWaiters with | [] => 0 | f :: t => t.foldl min f)
  | 0x700014 => some (s.lnd.last.get 0 u)
  | 0xD00048 => some s.passAddr
  | 0xD0005C => some s.memp.first
  | 0xD00084 => some (match s.repShown acc with | some e => e.addr | none => 0)
  | 0xD000C4 => some (s.getF F.MEMP_FLIP_ADDR_LO_ADDR + s.getF F.MEMP_FLIP_ADDR_HI_ADDR * 2 ^ 32)
  | 0xF00020 => some (s.slot (s.getF F.SEC_SLOT_IDX_SLOT acc)).rotWsn
  | 0x1000100 => some s.jnl.pos
  | _ => none

/-- The LO registers of R70. -/
def loRegs : List Nat := [0x100008, 0x100048, 0x100050, 0x40000C, 0x600010, 0x700014, 0xD00048, 0xD0005C, 0xD00084, 0xD000C4, 0xF00020, 0x1000100]

/-- A register whose LO half stands 4 below it. -/
def isHi (addr : Nat) : Bool := loRegs.any fun l => addr == l + 4

/-- The value of a register that hardware presents, none where its stored fields are its value. -/
def State.presented (s : State) (acc u addr : Nat) (stored : Nat) : Option Nat :=
  match addr / 0x100000 with
  | 0x0 => s.viewSys addr
  | 0x1 => s.viewFrm acc addr
  | 0x2 => if addr < 0x200100 then s.viewPwr addr else s.viewGov acc addr
  | 0x3 => s.viewFlt acc addr stored
  | 0x4 => s.viewLog acc addr
  | 0x5 => s.viewHif acc addr stored
  | 0x6 => s.viewHif acc addr stored
  | 0x7 => s.viewLnd u addr
  | 0x8 => s.viewFch acc u addr
  | 0x9 => s.viewGrp addr stored
  | 0xA => s.viewQd u addr
  | 0xB => s.viewEng u addr stored
  | 0xC => if addr < 0xC00400 then s.viewSub acc u addr else s.viewDrc acc addr
  | 0xD => s.viewMemp acc addr
  | 0xE => s.viewCc u addr
  | 0xF => s.viewSec acc addr
  | 0x10 => s.viewMrc addr stored
  | _ => s.viewPrg acc addr

/-- What a register reads as, its HI latch and the effects of the read apart. -/
def State.view (s : State) (acc u : Nat) (r : Reg) : Nat :=
  if isHi r.addr then s.hiLatch.get 0 (acc * 2 ^ 32 + r.addr)
  else match s.pair acc u r.addr with
  | some v => v % 2 ^ 32
  | none => (s.presented acc u r.addr (s.stored r u)).getD (s.stored r u)

end Sys2Proof.Machine
end

