-- ==== Sys2Proof/Machine/Regs.lean ====
section
/-! DEFINITION. Register accesses: where an access arrives, what a read answers and does, and what a write does
(R6 to R9, R16, R24 to R27, R70, R484 to R488, and the rules on writes of each chapter). -/
namespace Sys2Proof.Machine

/-! ### Where an access arrives -/

/-- Register memory regions of Table 18.5 besides the registers: the group's list memory and rings, and LOG_WBUF. -/
def memRegion (addr : Nat) : Bool :=
  (decide (0x910000 ≤ addr) && decide (addr < 0x914000)) || (decide (0x920000 ≤ addr) && decide (addr < 0x922000)) ||
  (decide (0x930000 ≤ addr) && decide (addr < 0x932000)) || (decide (0x400100 ≤ addr) && decide (addr < 0x4001E4))

/-- An offset that Table 18.5 names (R485). -/
def assigned (addr : Nat) : Bool := (regAt addr).isSome || memRegion addr

/-- Held per accessor (R487). -/
def perAcc (addr : Nat) : Bool := ((regAt addr).map (·.per)).getD (decide (0x400100 ≤ addr) && decide (addr < 0x4001E4))

/-- The windows (Table 18.1): the kind of the units behind the select, and the select register. -/
def windowOf (addr : Nat) : Option (Nat × Fld) :=
  match addr / 0x100000 with
  | 0x7 => some (7, F.LND_SEL_IDX)
  | 0x8 => some (3, F.FCH_SEL_IDX)
  | 0x9 => some (2, F.GRP_SEL_IDX)
  | 0xA => some (1, F.QD_SEL_IDX)
  | 0xB => some (4, F.ENG_SEL_IDX)
  | 0xC => if addr < 0xC00400 then some (6, F.DRC_SEL_IDX) else none
  | 0xE => some (5, F.CC_SEL_IDX)
  | _ => none

/-- Registers of a retired subchannel that the controller answers (R368): DRC_SC_CFG, DRC_SC_STAT, DRC_SC_EVT with its
counts. -/
def subKept (addr : Nat) : Bool := addr == 0xC00004 || addr == 0xC00008 || (decide (0xC00014 ≤ addr) && decide (addr ≤ 0xC00020))

/-- Where an access arrives: no register (R485); a copy of a register; every unit of a kind (R27); a unit that is off, or
no unit (R16, R24, R27). -/
inductive Place
  | unassigned
  | copy (u : Nat)
  | all (kind : Nat)
  | off (unit : Nat)
  deriving DecidableEq, Repr

/-- An access through a window reaches a unit that does not answer (R24, R368, R396). -/
def State.windowOff (s : State) (a addr : Nat) : Bool :=
  if !isUnit a then true
  else if uKind a = 6 ∧ s.unitState a = .retired ∧ subKept addr then false
  else s.unitOff a || (uKind a == 5 && s.sec.stopped)

/-- Where an access of an accessor arrives. -/
def State.place (s : State) (acc : Acc) (addr : Nat) : Place :=
  if !assigned addr then .unassigned
  else if perAcc addr then .copy (accIdx acc)
  else if 0x104 ≤ addr ∧ addr < 0x180 then
    let a := s.getF F.SYS_UNIT_SEL_UNIT (accIdx acc)
    if isUnit a then .copy a else .off a
  else if addr = 0x1100028 then
    let a := uEng (eFE (s.getF F.PRG_FE_IDX_FE (accIdx acc)))
    if s.unitOff a then .off a else .copy 0
  else match windowOf addr with
    | none => .copy 0
    | some (k, sel) =>
      let i := s.getF sel (accIdx acc)
      if i = 0xFFF then .all k
      else if s.windowOff (k * 4096 + i) addr then .off (k * 4096 + i) else .copy i

/-- Units of a kind, by index. -/
def unitsOfKind (k : Nat) : List Nat :=
  match k with
  | 1 => List.range 4
  | 2 => List.range 16
  | 3 => List.range 128
  | 4 => (List.range 0x34).filter isEngine
  | 5 => List.range 4
  | 6 => List.range 8
  | 7 => List.range 16
  | _ => []

/-! ### Reads -/

/-- The pattern an off unit reads as (R24). -/
def offPattern (a : Nat) : Nat := 0xBADD0000 + a % 65536

/-- RC fields read and cleared (R6). -/
def State.clearRc (s : State) (r : Reg) (u : Nat) : State :=
  r.flds.foldl (fun s f => if f.ty = .rc then s.setF f 0 u else s) s

/-- What a read of a register does beside answering: the HI half latched (R70), the history entry latched (Table 16.10),
LOG_RD_OFF advanced (R458), RC fields cleared. DRC_QOS_LATE is its port's. -/
def State.readEffect (s : State) (acc u : Nat) (r : Reg) : State :=
  match s.pair acc u r.addr with
  | some v => s.onHiLatch fun m => m.set 0 (acc * 2 ^ 32 + r.addr + 4) (v / 2 ^ 32 % 2 ^ 32)
  | none =>
    if r.addr = 0x300040 then s.onFlt fun f => { f with histLatch := f.histLatch.set none acc (f.hist[s.getF F.FLT_HIST_IDX_ENTRY acc]?) }
    else if r.addr = 0x400028 then (s.logRdData acc).2
    else if r.addr = 0xC0043C then
      (if s.getF F.DRC_QOS_IDX_PORT acc ≤ 11 then s.setF F.DRC_QOS_LATE_LATE 0 (s.getF F.DRC_QOS_IDX_PORT acc) else s)
    else s.clearRc r u

/-- A read of a copy of a register or of a memory region's word. -/
def State.readCopy (s : State) (acc u addr : Nat) : Nat × State :=
  match regAt addr with
  | some r =>
    let v := if 0x104 ≤ addr ∧ addr < 0x180 then s.viewPort u addr
      else if addr = 0x400028 then (s.logRdData acc).1 else s.view acc u r
    (v, s.readEffect acc u r)
  | none => (s.getF (memFld addr 0) u, s)

/-- A read by an accessor of an aligned address of register space (R6, R16, R24, R27, R485). -/
def State.busRead (s : State) (acc : Acc) (addr : Nat) : Nat × State :=
  match s.place acc addr with
  | .unassigned => (0, s.accFault acc addr)
  | .off a => (offPattern a, s.accFault acc addr)
  | .all k => (offPattern (k * 4096 + 0xFFF), s.accFault acc addr)
  | .copy u => s.readCopy (accIdx acc) u addr

/-! ### Writes -/

/-- W1C of SYS_UNIT_ERR: OWN_F0 to OWN_F2 (Table 1.8). -/
def UnitSt.clearOwn (u : UnitSt) (v : Nat) : UnitSt :=
  { u with own0 := u.own0 && !v.testBit 0, own1 := u.own1 && !v.testBit 1, own2 := u.own2 && !v.testBit 2 }

/-- A write to the unit port (R16, R19, R21, R23). -/
def State.writePort (s : State) (acc : Acc) (a addr v : Nat) : State :=
  match addr with
  | 0x10C => s.onUnit a (·.clearOwn v)
  | 0x118 => s.writeUnitCmd acc a (bits v 31 24) (bits v 15 0)
  | 0x120 => s.unitPower acc a v []
  | _ => s

/-- A write of SYS_RETIRE_CLR (R481, R483): only from the management path. -/
def State.retireClear (s : State) (acc : Acc) (v : Nat) : State :=
  match acc with
  | .mgmt =>
    let s := s.setF F.SYS_RETIRE_CLR_UNIT (v % 65536)
    if v.testBit 31 && s.retRec.contains (v % 65536) && !s.lvl.retClr.contains (v % 65536) then
      s.onLvl fun l => { l with retClr := l.retClr ++ [v % 65536] }
    else s
  | .eng _ => s.accFault acc 0x214

/-- The largest step budget of the loaded programs (R68). -/
def State.largestBound (s : State) : Nat := s.loaded.foldl (fun m e => max m e.2.needCyc) 0

/-- A write in the tables whose refused values raise CFG_ERR (R68, R71). -/
def State.writeFrm (s : State) (acc addr u v : Nat) : State :=
  if addr = 0x100000 then (if v.testBit 0 then s.applyShares else s)
  else if addr = 0x100044 then s.weightWrite acc (v % 65536)
  else if addr = 0x10002C ∧ 16000 - F.FRM_ENG_RSV_RSV_CYC.of v < s.largestBound then s.cfgErr
  else match (regAt addr).bind (fun r => s.storeReg r u v) with
    | some s' => s'
    | none => if 0x100020 ≤ addr ∧ addr < 0x100058 then s.cfgErr else s

/-- A write of PWR_TRC_CTL (R438, R440): DEC is kept while ARMED; then START, then STOP. -/
def State.writeTrc (s : State) (v : Nat) : State :=
  match (regAt 0x200180).bind (fun r => s.storeReg r 0 v) with
  | none => s
  | some s' =>
    let s' := if s.gov.armed then s'.setF F.PWR_TRC_CTL_DEC (s.getF F.PWR_TRC_CTL_DEC) else s'
    let s' := if v.testBit 31 then s'.traceStart else s'
    if v.testBit 30 then s'.trcTrigger else s'

/-- A write of a power or governor register (R414, R418, R433, R437, R438, R440). -/
def State.writePwr (s : State) (acc addr u v : Nat) : State :=
  match addr with
  | 0x20003C => if v.testBit 0 then s.testBegin else s
  | 0x200100 => s.govCtl v
  | 0x200114 => if s.gov.drain then s else s.storeAt addr u v
  | 0x20012C => if s.gov.drain then s else s.storeAt addr u v
  | 0x200154 => s.govMdata acc v
  | 0x200180 => s.writeTrc v
  | 0x200184 => if s.gov.armed then s else s.storeAt addr u v
  | _ => s.storeAt addr u v

/-- FAULT_N after a write of FLT_PIN: driven anew where its level changes (R445). -/
def State.pinFollows (s : State) (before : Bool) : State := if s.faultPin = before then s else s.send (.pin 0 s.faultPin)

/-- A write of FLT_PIN (R445, R446): only SE2 and the management path. -/
def State.writePin (s : State) (acc : Acc) (v : Nat) : State :=
  if acc = .mgmt ∨ acc = .eng (eSE 2) then (s.storeAt 0x300010 0 v).pinFollows s.faultPin else s.accFault acc 0x300010

/-- A write of FLT_THERM (R442, R461): a new limit restarts its frame counts. -/
def State.writeTherm (s : State) (v : Nat) : State :=
  let t := s.storeAt 0x300018 0 v
  let t := if t.getF F.FLT_THERM_TJ_F2 = s.getF F.FLT_THERM_TJ_F2 then t else t.onFlt fun f => { f with tjF2 := {} }
  if t.getF F.FLT_THERM_TJ_F3 = s.getF F.FLT_THERM_TJ_F3 then t else t.onFlt fun f => { f with tjF3 := {} }

/-- A write of a fault or health register. -/
def State.writeFlt (s : State) (acc : Acc) (addr u v : Nat) : State :=
  match addr with
  | 0x300010 => s.writePin acc v
  | 0x300018 => s.writeTherm v
  | 0x300060 => if v.testBit 0 then s.onFlt fun f => { f with first := none } else s
  | _ => s.storeAt addr u v

/-- A write of a logbook register (R455, R458): LOG_RD_OFF takes multiples of 4. -/
def State.writeLog (s : State) (acc : Acc) (addr u v : Nat) : State :=
  match addr with
  | 0x400020 => s.logSubmit acc v
  | 0x400024 => if v % 4 = 0 then s.storeAt addr u v else s
  | _ => s.storeAt addr u v

/-- Addresses that SMBus reserves. -/
def smbusReserved (a : Nat) : Bool := decide (a < 8) || decide (0x78 ≤ a) || [0x08, 0x0C, 0x28, 0x37, 0x61].contains a

/-- A write of a front end register (R102, R103). A HIF_MI_CFG write with a WAKE_ADDR that is refused is dropped whole, VDM_EN with it
(DESIGN CHOICE, assumption 124: R103 names WAKE_ADDR alone). -/
def State.writeHif (s : State) (addr u v : Nat) : State :=
  if addr = 0x500050 ∧ smbusReserved (v % 128) then s else s.storeAt addr u v

/-- A write of FCH_CAL (R223, R226): START makes recalibration due. -/
def State.writeCal (s : State) (c v : Nat) : State :=
  match (regAt 0x800040).bind (fun r => s.storeReg r c v) with
  | none => s
  | some s' => if v.testBit 31 then s'.calDue c else s'

/-- A write of a ring's HEAD (R227): dropped beyond TAIL; the ring takes what waits. -/
def State.writeHead (s : State) (head tail : Fld) (g v : Nat) (pump : State → State) : State :=
  let h := s.getF head g
  if (v % 1024 + 1024 - h) % 1024 ≤ (s.getF tail g + 1024 - h) % 1024 then pump (s.setF head (v % 1024) g) else s

/-- A write of a group register or its list memory (R209, R227): the buffer that the sequencers run is not written. -/
def State.writeGrp (s : State) (acc : Acc) (addr g v : Nat) : State :=
  if 0x910000 ≤ addr ∧ addr < 0x914000 then
    if addr / 0x400 % 2 = s.listBuf then s.setF (memFld addr 0) v g else s.accFault acc addr
  else match addr with
    | 0x900004 => s.listCommit g (v % 256) false
    | 0x900008 => s.writeHead F.GRP_CQ_HEAD_HEAD F.GRP_CQ_TAIL_TAIL g v (fun t => t.pumpCq g)
    | 0x900018 => s.writeHead F.GRP_DR_HEAD_HEAD F.GRP_DR_TAIL_TAIL g v (fun t => t.pumpDr g)
    | _ => if memRegion addr then s else s.storeAt addr g v

/-- A write of a quadrant register (R194): one that would leave GC_RSV < GC_LOW < GC_START false is dropped. -/
def State.writeQd (s : State) (addr q v : Nat) : State :=
  let t := s.storeAt addr q v
  if (addr = 0xA0020C ∨ addr = 0xA00210) ∧
     !(decide (t.getF F.QD_GC_CFG1_GC_RSV q < t.getF F.QD_GC_CFG0_GC_LOW q) && decide (t.getF F.QD_GC_CFG0_GC_LOW q < t.getF F.QD_GC_CFG0_GC_START q))
  then s else t

/-- A write of DRC_QOS_TGT: the port's floor, share and target (R354, R368). -/
def State.writeQos (s : State) (acc v : Nat) : State :=
  let p := s.getF F.DRC_QOS_IDX_PORT acc
  if 11 < p ∨ !F.DRC_QOS_TGT_FLOOR.fits v ∨ !F.DRC_QOS_TGT_SHARE.fits v ∨ !F.DRC_QOS_TGT_TARGET.fits v then s
  else ((s.setF F.DRC_QOS_TGT_FLOOR (F.DRC_QOS_TGT_FLOOR.of v) p).setF (qosShare p) (F.DRC_QOS_TGT_SHARE.of v) p).setF (qosTarget p)
    (F.DRC_QOS_TGT_TARGET.of v) p

/-- A write of a DRAM controller register (R361, R364, R368). -/
def State.writeDrc (s : State) (acc addr u v : Nat) : State :=
  match addr with
  | 0xC00408 => s.fspRequest (v % 2)
  | 0xC00410 => s.evacRow (some (BitVec.ofNat 32 v))
  | 0xC00434 => s.writeQos acc v
  | _ => s.storeAt addr u v

/-- A write of MEMP_FLIP_CTL (R345). -/
def State.writeFlip (s : State) (v : Nat) : State := if v.testBit 0 then s.flipArm else s.setF F.MEMP_FLIP_CTL_ARM 0

/-- A write of half of MEMP_FLIP_ADDR: dropped while ARM is 1, or where the address would name no word (R345). -/
def State.writeFlipAddr (s : State) (addr v : Nat) : State :=
  if s.flag F.MEMP_FLIP_CTL_ARM then s
  else
    let a := if addr = 0xD000C4 then v + s.getF F.MEMP_FLIP_ADDR_HI_ADDR * 2 ^ 32 else s.getF F.MEMP_FLIP_ADDR_LO_ADDR + v * 2 ^ 32
    if s.locOk a then s.storeAt addr 0 v else s

/-- A write of a memory protection register (R334, R342, R345, R346). -/
def State.writeMemp (s : State) (addr u v : Nat) : State :=
  match addr with
  | 0xD00030 => s.devCfg v
  | 0xD00040 =>
    let s := if v.testBit 31 then s.passStart else s
    if v.testBit 30 then s.passStop else s
  | 0xD000C0 => s.writeFlip v
  | 0xD000C4 => s.writeFlipAddr addr v
  | 0xD000C8 => s.writeFlipAddr addr v
  | _ => if 0xD000CC ≤ addr ∧ s.flag F.MEMP_FLIP_CTL_ARM then s else s.storeAt addr u v

/-- A write of a security register (R387, R392, R396). -/
def State.writeSec (s : State) (acc : Acc) (addr u v : Nat) : State :=
  match addr with
  | 0xF00008 => s.alarmForce acc v
  | 0xF00010 => s.svnCtl v
  | 0xF00030 => s.revoke acc v
  | _ => s.storeAt addr u v

/-- A write of one copy of a register, or of a memory region's word. -/
def State.writeCopy (s : State) (acc : Acc) (addr u v : Nat) : State :=
  match addr / 0x100000 with
  | 0x0 => if 0x104 ≤ addr ∧ addr < 0x180 then s.writePort acc u addr v
           else if addr = 0x214 then s.retireClear acc v else s.storeAt addr u v
  | 0x1 => s.writeFrm (accIdx acc) addr u v
  | 0x2 => s.writePwr (accIdx acc) addr u v
  | 0x3 => s.writeFlt acc addr u v
  | 0x4 => if 0x400100 ≤ addr then s.setF (memFld addr 0) v u else s.writeLog acc addr u v
  | 0x5 => s.writeHif addr u v
  | 0x8 => if addr = 0x800040 then s.writeCal u v else s.storeAt addr u v
  | 0x9 => s.writeGrp acc addr u v
  | 0xA => s.writeQd addr u v
  | 0xC => s.writeDrc (accIdx acc) addr u v
  | 0xD => s.writeMemp addr u v
  | 0xF => s.writeSec acc addr u v
  | _ => s.storeAt addr u v

/-- A write by an accessor to an aligned address of register space (R6, R16, R24, R27, R485, R488): a broadcast misses the
units that are off and sets no ACC_FAULT. -/
def State.busWrite (s : State) (acc : Acc) (addr v : Nat) : State :=
  match s.place acc addr with
  | .unassigned => s.accFault acc addr
  | .off _ => s.accFault acc addr
  | .all k => ((unitsOfKind k).filter fun i => !s.windowOff (k * 4096 + i) addr).foldl (fun s i => s.writeCopy acc addr i v) s
  | .copy u => s.writeCopy acc addr u v

/-! ### Rows -/

/-- The end of internal register space (R484). -/
def regEnd : Nat := 0x1200000

/-- An accessor that exists: one of the 48 engines of Table 1.2, or the management path (R487). -/
def accOk : Acc → Bool
  | .eng i => isEngine i
  | .mgmt => true

/-- An access row: an engine that does not exist makes no access; an address unaligned or outside register space is
answered with an error response from the management path (R9, R485), and no engine makes it by this row. -/
def accRow (acc : Acc) (addr : Nat) (s : State) (f : State → State) : Out :=
  .next (if !accOk acc then s
    else if addr % 4 = 0 ∧ addr < regEnd then f s
    else match acc with
      | .mgmt => s.send (.busErr 0xFFF addr)
      | .eng _ => s)

/-- A read answered outside. -/
def State.readOut (s : State) (acc : Acc) (addr : Nat) : State :=
  let r := s.busRead acc addr
  r.2.send (.reg (accIdx acc) addr r.1)

/-- A read where no value is given, else a write. -/
def State.access (s : State) (acc : Acc) (addr : Nat) (val : Option W32) : State :=
  match val with
  | none => s.readOut acc addr
  | some v => s.busWrite acc addr v.toNat

/-- PLAIN_REGISTER_WRITE (R6, R7). -/
def execPlainRegisterWrite (acc : Acc) (addr val : W32) (s : State) : Out :=
  accRow acc addr.toNat s fun s => s.busWrite acc addr.toNat val.toNat

/-- RC_READ (R6): of a register with an RC field. -/
def execRcRead (acc : Acc) (addr : W32) (s : State) : Out :=
  accRow acc addr.toNat s fun s =>
    if ((regAt addr.toNat).map (fun r => r.flds.any (fun f => f.ty == .rc))).getD false then s.readOut acc addr.toNat else s

/-- A controller's CAP (NVMe): MQES 0xFFFF and CQR 0 (Table 3.1), AMS 0 (R81), MPSMIN and MPSMAX 0 (Table 3.4), DSTRD 0 (R490); the
fields that the spec does not give are free. -/
def capReg : Nat := 0xFFFF + (Config.capRest % 2 ^ 64 &&& 0xFF00FFF0FF000000)

/-- CSTS (NVMe): RDY from the enable on, CFS, SHST (R78, R124, R448). -/
def Ctrl.csts (c : Ctrl) : Nat := b2n c.en + b2n c.cfs * 2 + c.shst % 4 * 4

/-- AQA (NVMe) of an enabled controller: the sizes of its admin queues, less one; none before the enable. -/
def Ctrl.aqa (c : Ctrl) : Option Nat :=
  match c.en, c.sqs.get none 0, c.cqs.get none 0 with
  | true, some q, some k => some (half (k.size - 1) (q.size - 1))
  | _, _, _ => none

/-- Words of BAR0 of a function that the spec gives: CAP, VER (R490), CSTS and AQA, and the vendor window (Table 3.11), the same for every
function but the latched VW_TIME_HI (R101). -/
def State.bar0Word (s : State) (fn off : Nat) : Option Nat :=
  match off with
  | 0x0 => some (capReg % 2 ^ 32)
  | 0x4 => some (capReg / 2 ^ 32)
  | 0x8 => some 0x20000
  | 0x1C => some (s.ctrl fn).csts
  | 0x24 => (s.ctrl fn).aqa
  | 0x20000 => some (0x10000 + ((s.sec.imgs.get none 1).getD {}).version % 65536)
  | 0x20004 => some (b2n s.halted * 128 + b2n (!s.fencedUnits.isEmpty) * 64 + b2n s.lvl.rdonly * 32 + b2n s.pwr.present * 16 + s.lvl.level % 4)
  | 0x20008 => some (s.time.ms % 2 ^ 32)
  | 0x2000C => some (s.ctrl fn).vwHi
  | 0x20010 => some s.time.pcc
  | _ => none

/-- A byte of BAR0 (R490): of a word that the spec gives, CC with its EN; the other controller registers and the doorbells, which NVMe
has, read as free values, and every other offset as zero. -/
def State.bar0Byte (s : State) (fn off : Nat) : Byte :=
  match s.bar0Word fn (off / 4 * 4) with
  | some v => BitVec.ofNat 8 (v / 2 ^ (8 * (off % 4)))
  | none =>
    let x := Config.freeByte s.free (2 ^ 20 + off)
    if off = 0x14 then (x &&& 0xFE) ||| BitVec.ofNat 8 (b2n (s.ctrl fn).en) else if off < 0x20000 then x else 0

/-- The bytes that a read of BAR0 addresses; one of 8 bytes at 0x2_0008 takes both halves of the time from one instant (R101, R490). -/
def State.bar0Read (s : State) (fn off size : Nat) : Nat :=
  if off = 0x20008 ∧ size = 8 then s.time.ms % 2 ^ 48 else ofLe ((List.range size).map fun i => s.bar0Byte fn (off + i))

/-- A function's read of 1, 2, 4 or 8 bytes in its BAR0 (R490), answered as a register read of accessor 0x10000 plus its number; one that
takes in VW_TIME_LO latches VW_TIME_HI for it (R101). -/
def State.bar0Out (s : State) (fn off size : Nat) : State :=
  if !([1, 2, 4, 8].contains size) ∨ 2 ^ 18 < off + size ∨ !s.fnExists fn then s
  else
    let t := s.send (.reg (0x10000 + fn) off (s.bar0Read fn off size))
    if off < 0x2000C ∧ 0x20008 < off + size then t.onCtrl fn fun c => { c with vwHi := s.time.ms / 2 ^ 32 % 65536 } else t

/-- LO_READ_LATCH (R70): of a LO register of a latched pair. -/
def execLoReadLatch (acc : Acc) (addr : W32) (host : Option (Nat × Nat)) (s : State) : Out :=
  match host with
  | some (fn, size) => .next (s.bar0Out fn addr.toNat size)
  | none => accRow acc addr.toNat s fun s => if loRegs.contains addr.toNat then s.readOut acc addr.toNat else s

/-- OFF_UNIT_ACCESS (R24): an access that reaches no unit, or one that is off; `val` none is a read. -/
def execOffUnitAccess (acc : Acc) (addr : W32) (val : Option W32) (s : State) : Out :=
  accRow acc addr.toNat s fun s =>
    match s.place acc addr.toNat with
    | .off _ => s.access acc addr.toNat val
    | _ => s

/-- BROADCAST_READ (R27). -/
def execBroadcastRead (acc : Acc) (addr : W32) (s : State) : Out :=
  accRow acc addr.toNat s fun s =>
    match s.place acc addr.toNat with
    | .all _ => s.readOut acc addr.toNat
    | _ => s

/-- UNASSIGNED_OFFSET_ACCESS (R485). -/
def execUnassignedOffsetAccess (acc : Acc) (addr : W32) (val : Option W32) (s : State) : Out :=
  accRow acc addr.toNat s fun s => if assigned addr.toNat then s else s.access acc addr.toNat val

/-- RECALIBRATION_START (R482): FCH_CAL written with START through the accessor's FCH_SEL. -/
def execRecalibrationStart (acc : Acc) (val : W32) (s : State) : Out :=
  accRow acc 0x800040 s fun s => s.busWrite acc 0x800040 (putBit val.toNat 31 true)

/-- RETIRE_CLEAR (R481): SYS_RETIRE_CLR written with GO. -/
def execRetireClear (acc : Acc) (unit : Nat) (s : State) : Out :=
  accRow acc 0x214 s fun s => s.retireClear acc (2 ^ 31 + unit % 65536)

end Sys2Proof.Machine
end

