-- ==== Sys2Proof/Machine/BalufReg.lean ====
section
/-! DEFINITION. The Baluf loads and stores of 4 bytes, which reach register space as well as memory (R9, R24, R266, R267,
R485). -/
namespace Sys2Proof.Machine

/-- A load of 4 bytes (R266): from register space a bus read by the engine, where a unit that is off raises the unit-off
trap and leaves the destination unwritten (R24); the unit port, which no unit answers, only its pattern (R16). At least 20 cycles (Table 9.6). -/
def loadWordRow (e : Nat) (op : BOp) (ext : Nat → W64) (s : State) : Out :=
  simpleRow e op (fun i g s =>
    let ea := g.ea i
    let mem : BRes := match s.loadAt e g ea 4 with
      | .error (t, c, v) => .trapIn t c v
      | .ok (v, t) => .go (t.onEng e (·.setW i.d (ext v)))
    if ea % 4 ≠ 0 then mem
    else match s.translate e g ea 4 false with
      | .ok (.reg a) =>
        let r := s.busRead (.eng e) a
        match s.place (.eng e) a with
        | .off _ => if 0x104 ≤ a ∧ a < 0x180 then .go ((r.2.onEng e (·.setW i.d (ext r.1))).spendFar e 2 20) else .trapIn r.2 cUnitOff ea
        | _ => .go ((r.2.onEng e (·.setW i.d (ext r.1))).spendFar e 2 20)
      | _ => mem)
  s

/-- A store of 4 bytes (R267): to register space a bus write by the engine, which raises no trap where a unit is off. At least 10
cycles (Table 9.6). -/
def storeWordRow (e : Nat) (op : BOp) (s : State) : Out :=
  simpleRow e op (fun i g s =>
    let ea := g.ea i
    let v := (g.w i.d).toNat % 2 ^ 32
    let mem : BRes := match s.storeAt_ e g ea 4 v 1 with
      | .error (t, c, x) => .trapIn t c x
      | .ok t => .go t
    if ea % 4 ≠ 0 then mem
    else match s.translate e g ea 4 true with
      | .ok (.reg a) => .go ((s.busWrite (.eng e) a v).spendFar e 1 10)
      | _ => mem)
  s

def execLw (e : Nat) (s : State) : Out := loadWordRow e .lw (sxN 32) s
def execLwu (e : Nat) (s : State) : Out := loadWordRow e .lwu zxN s
def execSw (e : Nat) (s : State) : Out := storeWordRow e .sw s

end Sys2Proof.Machine
end

