-- ==== Sys2Proof/Machine/Mi.lean ====
section
/-! DEFINITION. The management endpoint: NVMe-MI over SMBus, PCIe VDM and in band, the admin command tunnel, register
access of the management path, and the SMBus wake (chapters 3, 16 and 18; R84, R95 to R99, R449, R450, R486). -/
namespace Sys2Proof.Machine

/-! ### Requests -/

/-- NVMe-MI response statuses. -/
def miOk : Nat := 0x00
def miInternal : Nat := 0x02
def miOpcode : Nat := 0x03
def miParam : Nat := 0x04
def miDenied : Nat := 0x07

/-- NVMe-MI opcode of a request; 0xF0 stands for the tunnel. -/
def reqOp : MiReq → Nat
  | .readDs _ _ _ => 0x00 | .healthPoll _ => 0x01 | .ctrlPoll _ _ => 0x02 | .cfgSet _ _ _ => 0x03 | .cfgGet _ _ => 0x04
  | .vpdRead _ _ => 0x05 | .vpdWrite _ _ => 0x06 | .reset => 0x07 | .shutdown => 0x0A | .tunnel _ _ => 0xF0
  | .coldConfirm => 0xC0 | .regRead _ _ _ => 0xC1 | .regWrite _ _ _ => 0xC2

/-- Ports of the endpoint: SMBus, P0, and P1 when the link is split (R72, R95). -/
def State.miPorts (s : State) : Nat := if s.hif.bifur then 3 else 2

/-- The hottest die sensor in degrees C. -/
def State.hottest (s : State) : Nat := (s.gov.dies.foldl max 0).toNat

/-- Read NVMe-MI Data Structure (Table 3.10): subsystem, port, controller list, controller, optional commands. -/
def State.miStruct (s : State) (typ port ctrl : Nat) : Option (List Byte) :=
  match typ with
  | 0 => some (padTo 32 (leBytes 1 (s.miPorts - 1) ++ [1, 2]))
  | 1 =>
    if s.miPorts ≤ port then none
    else if port = 0 then some (padTo 32 ([2, 0] ++ leBytes 2 250 ++ zeros 5 ++ [0] ++ leBytes 1 (s.getF F.HIF_MI_CFG_WAKE_ADDR) ++ [3]))
    else
      let p := s.port (port - 1)
      some (padTo 32 ([1, 0] ++ leBytes 2 4096 ++ zeros 5 ++ leBytes 1 p.gen ++ [16] ++ leBytes 1 (if p.up then 2 ^ p.width else 0) ++ leBytes 1 (port - 1)))
  | 2 =>
    let l := s.allFns.filter fun f => decide (ctrl ≤ f)
    some (leBytes 2 (l.take 2047).length ++ (l.take 2047).flatMap fun f => leBytes 2 f)
  | 3 => if s.fnExists ctrl then some (padTo 32 (leBytes 1 (1 + s.portOf ctrl))) else none
  | 4 => some ([3, 0] ++ [0, 0xC0] ++ [0, 0xC1] ++ [0, 0xC2])
  | _ => none

/-- NVM Subsystem Health Status Poll: functional, links, SMART warnings, temperature, life used, changes of state. -/
def State.miHealth (s : State) : List Byte :=
  leBytes 1 (b2n (!s.halted) * 0x30 + b2n s.hif.p0.up * 8 + b2n s.hif.p1.up * 4) ++ leBytes 1 (255 - s.hif.smart % 256) ++
  leBytes 1 s.hottest ++ leBytes 1 (min 255 s.flt.pctUsed) ++ leBytes 2 s.hif.mhs ++ zeros 2

/-- One controller's health. -/
def State.miCtrl (s : State) (fn : Nat) : List Byte :=
  let c := s.ctrl fn
  padTo 16 (leBytes 2 fn ++ leBytes 2 (b2n c.en + b2n c.cfs * 2 + c.shst % 4 * 4) ++ leBytes 2 (s.hottest + 273) ++
    leBytes 1 (min 255 s.flt.pctUsed) ++ [100] ++ leBytes 1 (s.hif.smart % 256))

/-- A configuration value: SMBus frequency 1 to 3, health status change, MCTP transmission unit. -/
def State.miGet (s : State) (id port : Nat) : Option Nat :=
  match id with
  | 1 => if port = 0 then some (s.getF F.HIF_MI_CFG_SMB_FREQ + 1) else none
  | 2 => some 0
  | 3 => if port < s.miPorts then some (s.hif.mtu.get 64 port) else none
  | _ => none

/-- Set a configuration value (R95): ranges of the SMBus frequency and the transmission unit. -/
def State.miSet (s : State) (id port v : Nat) : Option State :=
  match id with
  | 1 => if port = 0 ∧ 1 ≤ v ∧ v ≤ 3 then some (s.setF F.HIF_MI_CFG_SMB_FREQ (v - 1)) else none
  | 2 => some (s.onHif fun h => { h with mhs := h.mhs &&& (65535 - v % 65536) })
  | 3 =>
    if port < s.miPorts ∧ 64 ≤ v ∧ v ≤ (if port = 0 then 250 else 4096) then some (s.onHif fun h => { h with mtu := h.mtu.set 64 port v })
    else none
  | _ => none

/-- Bytes of the VPD. -/
def vpdSize : Nat := 1024

/-- Register Read: `n` consecutive registers in ascending order, as separate accesses (R486). -/
def State.regReads (s : State) (addr : Nat) : Nat → List Byte × State
  | 0 => ([], s)
  | n + 1 =>
    let r := s.busRead .mgmt addr
    let t := r.2.regReads (addr + 4) n
    (leBytes 4 r.1 ++ t.1, t.2)

/-- A tunnelled opcode of Table 3.2 that the tunnel does not carry (Table 3.10): the queue commands, Abort and
Asynchronous Event Request. -/
def tunnelExcluded (opc : Nat) : Bool := [0x00, 0x01, 0x04, 0x05, 0x08, 0x0C].contains opc

/-- The tunnel: the command takes its FSN and acts at ring O (R97). -/
def State.miTunnel (s : State) (fn : Nat) (q : Sqe) : State :=
  let c : Cmd := { fsn := 0, fn := fn, sq := 0, sqe := q, tunnel := true }
  s.enter c (if tunnelExcluded q.opc then stInvalidOpcode else s.adminStatus fn true q)

/-- The normal shutdown of every controller (Table 3.10, R189). -/
def State.shutdownAll (s : State) : State := s.enabledFns.foldl (fun s f => s.shutdown f) s

/-- Cold Reset Confirm (R450): arms a halted device with REG_CYCLE wired. -/
def State.coldConfirm (s : State) : Nat × State :=
  if s.halted ∧ s.getF F.FLT_REGC_WIRED = 1 then (miOk, s.onFlt fun f => { f with armed := true }) else (miParam, s)

/-- A register access of the management path (R486): an unaligned address, one outside register space, or a count outside
1 to 64 makes none. -/
def regArgsOk (addr count : Nat) : Bool :=
  addr % 4 == 0 && decide (1 ≤ count) && decide (count ≤ 64) && decide (addr + 4 * count ≤ regEnd)

/-- A request carried out: its status and data, and the state. -/
def State.miDo (s : State) (inBand : Bool) (r : MiReq) : Nat × List Byte × State :=
  match r with
  | .readDs t p c => match s.miStruct t p c with | some d => (miOk, d, s) | none => (miParam, [], s)
  | .healthPoll clear => (miOk, s.miHealth, if clear then s.onHif fun h => { h with mhs := 0 } else s)
  | .ctrlPoll f n =>
    let l := (s.allFns.filter fun x => decide (f ≤ x)).take (n % 256 + 1)
    (miOk, leBytes 4 l.length ++ l.flatMap s.miCtrl, s)
  | .cfgGet i p => match s.miGet i p with | some v => (miOk, leBytes 4 v, s) | none => (miParam, [], s)
  | .cfgSet i p v => match s.miSet i p v with | some t => (miOk, [], t) | none => (miParam, [], s)
  | .vpdRead o n => if o + n ≤ vpdSize then (miOk, s.hif.vpd.getRange 0 o n, s) else (miParam, [], s)
  | .vpdWrite o d => if o + d.length ≤ vpdSize then (miOk, [], s.onHif fun h => { h with vpd := h.vpd.setRange 0 o d }) else (miParam, [], s)
  | .reset => (miOk, [], s.nvmReset)
  | .shutdown => (miOk, [], s.shutdownAll)
  | .tunnel _ _ => (miOpcode, [], s)
  | .coldConfirm => if inBand then (miOpcode, [], s) else let x := s.coldConfirm; (x.1, [], x.2)
  | .regRead k a n =>
    if inBand ∨ !s.mayProvision k then (miDenied, [], s)
    else if regArgsOk a.toNat n then let x := s.regReads a.toNat n; (miOk, x.1, x.2) else (miParam, [], s)
  | .regWrite k a v =>
    if inBand ∨ !s.mayProvision k then (miDenied, [], s)
    else if regArgsOk a.toNat 1 then (miOk, [], s.busWrite .mgmt a.toNat v.toNat) else (miParam, [], s)

/-- Requests that a halted device serves (R449, R450). -/
def haltServes : MiReq → Bool
  | .healthPoll _ => true
  | .readDs _ _ _ => true
  | .coldConfirm => true
  | .tunnel _ q => q.opc == 0x02 && [0xC1, 0xC2, 0xC3].contains (q.cdw10 % 256)
  | _ => false

/-- A request served (R96, R449): a tunnelled command answers when it completes. -/
def State.miServe (s : State) (r : MiReq) : State :=
  if s.halted ∧ !haltServes r then s.send (.mi (reqOp r) miInternal [])
  else match r with
    | .tunnel fn q => if s.fnExists fn then s.miTunnel fn q else s.send (.mi 0xF0 miParam [])
    | _ =>
      let x := s.miDo false r
      x.2.2.send (.mi (reqOp r) x.1 x.2.1)

/-- A transport that reaches the endpoint: SMBus, or PCIe VDM where it is enabled on a trained port (R95). -/
def State.miPathUp (s : State) (path : Nat) : Bool := path == 0 || (s.flag F.HIF_MI_CFG_VDM_EN && decide (path < s.miPorts) && (s.port (path - 1)).up)

/-- A request's arrival (R98, R99): a health status poll is answered in every state from the always-on domain; another
request is held in PS3 and PS4, and meets no firmware while the core is in reset. -/
def State.miArrive (s : State) (path : Nat) (r : MiReq) : State :=
  if !s.miPathUp path then s
  else match r with
    | .healthPoll c => s.miServe (.healthPoll c)
    | _ =>
      if !s.lvl.core then s
      else if 3 ≤ s.pwr.cur then s.onHif fun h => { h with held := h.held ++ [(path, r)] }
      else s.miServe r

/-- Requests held are served once the wake has completed (R99). -/
def State.serveHeld (s : State) : State :=
  if s.lvl.core ∧ s.pwr.cur ≤ 2 then
    s.hif.held.foldl (fun s x => s.miServe x.2) (s.onHif fun h => { h with held := [] })
  else s

/-! ### Rows -/

def execReadNvmeMiDataStructure (path typ port ctrl : Nat) (s : State) : Out := .next (s.miArrive path (.readDs typ port ctrl))
def execNvmSubsystemHealthStatusPoll (path : Nat) (clear : Bool) (s : State) : Out := .next (s.miArrive path (.healthPoll clear))
def execControllerHealthStatusPoll (path start max : Nat) (s : State) : Out := .next (s.miArrive path (.ctrlPoll start max))
def execConfigurationGet (path id port : Nat) (s : State) : Out := .next (s.miArrive path (.cfgGet id port))
def execConfigurationSet (path id port val : Nat) (s : State) : Out := .next (s.miArrive path (.cfgSet id port val))
def execVpdRead (path off len : Nat) (s : State) : Out := .next (s.miArrive path (.vpdRead off len))
def execVpdWrite (path off : Nat) (data : List Byte) (s : State) : Out := .next (s.miArrive path (.vpdWrite off data))
def execNvmeMiReset (path : Nat) (s : State) : Out := .next (s.miArrive path .reset)
def execNvmeMiShutdown (path : Nat) (s : State) : Out := .next (s.miArrive path .shutdown)
def execAdminCommandTunnel (path fn : Nat) (sqe : Sqe) (s : State) : Out := .next (s.miArrive path (.tunnel fn sqe))
def execColdResetConfirm (path : Nat) (s : State) : Out := .next (s.miArrive path .coldConfirm)
def execRegisterRead (path sess : Nat) (addr : W32) (count : Nat) (s : State) : Out := .next (s.miArrive path (.regRead sess addr count))
def execRegisterWrite (path sess : Nat) (addr val : W32) (s : State) : Out := .next (s.miArrive path (.regWrite sess addr val))

/-- SMBUS_WAKE_PACKET (R95, R99, R409): an MCTP packet to HIF_MI_CFG.WAKE_ADDR in PS3 or PS4 starts a wake and is then served; one
to the SMBus address arrives as any other; the endpoint takes no packet to another address. -/
def State.wakePacket (s : State) (addr : Nat) (r : MiReq) (inEntry : Bool) (ms : Nat) : State :=
  if 3 ≤ s.pwr.cur ∧ addr = s.getF F.HIF_MI_CFG_WAKE_ADDR then (s.psExit 2 inEntry ms).miArrive 0 r
  else if addr = Config.smbusAddr ∨ addr = s.getF F.HIF_MI_CFG_WAKE_ADDR then s.miArrive 0 r
  else s

def execSmbusWakePacket (addr : Nat) (req : MiReq) (inEntry : Bool) (ms : Nat) (s : State) : Out := .next (s.wakePacket addr req inEntry ms)

/-- MALFORMED_MCTP_PACKET (R95, Table 3.13): discarded; HIF_EVT.MI_ERR. -/
def execMalformedMctpPacket (s : State) : Out := .next (s.raiseEvt F.HIF_EVT_MI_ERR F.HIF_EVT_CNT1_MI_CNT)

/-! ### In band (R84) -/

/-- The management request that an NVMe-MI Send or Receive carries. -/
def Cmd.miReq (c : Cmd) : Option MiReq :=
  let q := c.sqe
  match q.cdw11 % 256 with
  | 0x00 => some (.readDs (q.cdw12 / 2 ^ 24 % 256) (q.cdw12 / 65536 % 256) (q.cdw12 % 65536))
  | 0x01 => some (.healthPoll (q.cdw13.testBit 31))
  | 0x02 => some (.ctrlPoll (q.cdw12 % 65536) (q.cdw12 / 65536 % 256))
  | 0x03 => some (.cfgSet (q.cdw12 % 256) (q.cdw12 / 2 ^ 24 % 256) (q.cdw13 % 65536))
  | 0x04 => some (.cfgGet (q.cdw12 % 256) (q.cdw12 / 2 ^ 24 % 256))
  | 0x05 => some (.vpdRead (q.cdw12 % 65536) (q.cdw13 % 65536))
  | 0x06 => some (.vpdWrite (q.cdw12 % 65536) q.data)
  | 0x07 => some .reset
  | 0x0A => some .shutdown
  | 0xC0 => some .coldConfirm
  | 0xC1 => some (.regRead 0 (BitVec.ofNat 32 q.cdw12) (q.cdw13 % 128))
  | 0xC2 => some (.regWrite 0 (BitVec.ofNat 32 q.cdw12) (BitVec.ofNat 32 q.cdw13))
  | _ => none

/-- A request that returns data, which NVMe-MI Receive carries; the others NVMe-MI Send does. -/
def miReceives : MiReq → Bool
  | .cfgSet _ _ _ => false | .vpdWrite _ _ => false | .reset => false | .shutdown => false | .coldConfirm => false
  | .regWrite _ _ _ => false | _ => true

/-- NVMe-MI Send and Receive (R84): the response status in DW0, the data of a Receive to the host. The command completes
before a reset or shutdown that it asks for. -/
def State.miInBand (s : State) (c : Cmd) (receive : Bool) : State :=
  match c.miReq with
  | none => s.complete c.fsn stOk miOpcode
  | some r =>
    if miReceives r ≠ receive then s.complete c.fsn stOk miOpcode
    else if r = .reset ∨ r = .shutdown then ((s.complete c.fsn stOk miOk).miDo true r).2.2
    else
      let x := s.miDo true r
      x.2.2.complete c.fsn stOk x.1 x.2.1

def execNvmeMiSend (fsn : Nat) (s : State) : Out := adminRow fsn 0x1D (fun c s => s.miInBand c false) s
def execNvmeMiReceive (fsn : Nat) (s : State) : Out := adminRow fsn 0x1E (fun c s => s.miInBand c true) s

/-! ### The debug access port (R461, R486) -/

/-- Registers that stay readable while the device is halted (R461, R396). -/
def haltReadable (addr : Nat) : Bool :=
  (decide (0x300040 ≤ addr) && decide (addr ≤ 0x30005C)) || (decide (0x300080 ≤ addr) && decide (addr ≤ 0x30009C)) ||
  [0x300000, 0x400004, 0x400028, 0xF00000, 0xF00004].contains addr

/-- DEBUG_ACCESS_PORT (R486): a read as the management path; while the device is halted, of the registers kept readable. -/
def execDebugAccessPort (addr : W32) (val : Option W32) (s : State) : Out :=
  accRow .mgmt addr.toNat s fun s =>
    if !s.halted then s.access .mgmt addr.toNat val
    else if val = none ∧ haltReadable addr.toNat then s.readOut .mgmt addr.toNat
    else if addr.toNat = 0x300024 ∨ addr.toNat = 0x400024 then s.access .mgmt addr.toNat val
    else s.send (.busErr 0xFFF addr.toNat)

end Sys2Proof.Machine
end

