-- ==== Sys2Proof/Machine/StartUp.lean ====
section
/-! DEFINITION. Start-up, the ladder of service levels, and the JTAG instructions (chapters 17 and 19; R343, R344, R347,
R359, R360, R390, R398, R412, R413, R451, R452, R456, R462, R466 to R471, R481, R509, R515). -/
namespace Sys2Proof.Machine

/-! ### Time, registers, units -/

/-- This start-up is the first of the device's life. -/
def State.firstStart (s : State) : Bool := s.pwr.cold && s.time.pcc == 0

/-- How the power-on before ended (Table 16.6): halted whatever then removed power (R516), clean after a clean shutdown,
else as it ended, a drain, brown-out or REG_CYCLE cycle. -/
def State.prevEndNow (s : State) : Nat :=
  if s.lvl.endNow = 5 then 5 else if (s.lvl.warm && !s.pwr.cold) || s.jnl.clean then 0 else if 2 ≤ s.lvl.endNow then s.lvl.endNow else 1

/-- The level registers and flags as a start-up begins (Table 17.10); what MRAM holds stays. -/
def LvlSt.begin_ (l : LvlSt) (prev : Nat) (warm clean : Bool) (ms : Nat) (perst0 : Option Nat) : LvlSt :=
  { rdonly := l.rdonly, core := true, prevEnd := prev, warm := warm, lastClean := clean, left := ms, perst0 := perst0,
    fwSlots := l.fwSlots, committed := l.committed, jtag := l.jtag, bsr := l.bsr }

/-- The power-cycle count after this start-up: one more when VDD_CORE was absent (R452). -/
def State.startPcc (s : State) : Nat := if s.pwr.cold then (s.time.pcc + 1) % 2 ^ 32 else s.time.pcc

/-- Device time resumes (R451, R452): at the mark where VDD_AON was lost, and the frame number above the last one held. -/
def State.startTime (s : State) : State :=
  let first := s.firstStart
  let pcc := s.startPcc
  let s := s.onTime fun t =>
    if t.aonLost then { t with ms := t.mark, mark := t.mark + 1000, aonLost := false, lastFrame := t.frame, pcc := pcc, host := none }
    else { t with lastFrame := t.frame, pcc := pcc, host := none }
  if first then s.onTime fun t => { t with frame := t.ms * 125 % 2 ^ 48 } else s.resumeFrames

/-- A field whose reset value comes from MRAM and that the register store holds (DRC_CFG.GRAIN, PWR_EVT.PFAIL). -/
def keptField (k : Nat) : Bool := k == fkey F.DRC_CFG_GRAIN 0 || k == fkey F.PWR_EVT_PFAIL 0

/-- Every register takes its reset value (R10, R515), those marked MRAM being loaded from it. -/
def State.startFields (s : State) : State :=
  let s := (s.onFields fun m => m.keep keptField).onHiLatch fun _ => {}
  (s.onEff2 fun _ => s.fields).onEff4 fun _ => s.fields

/-- The fault collector as a start-up begins: the history, the capture and what the health monitors have recorded stay
(R447, R515). -/
def FltSt.begin_ (f : FltSt) : FltSt :=
  { hist := f.hist, total := f.total, first := f.first, captCnt := f.captCnt, eolLogged := f.eolLogged, healthHour := f.healthHour,
    samples := f.samples, caps := f.caps, evalHour := f.evalHour }

/-- The fault collector, power controller, governor and scheduler begin. A power-fail mark becomes its record (R413). -/
def State.startCore (s : State) : State :=
  let mark := s.pwr.mark
  let s := s.onFlt (·.begin_)
  let s := (s.onPwr fun p => { wakeLow := p.wakeLow, cold := false }).onSched fun _ => {}
  let s := (s.onGov fun g => { g.start with thermAt := s.time.frame }).onLog fun l =>
    { head := l.head, tail := l.tail, used := l.used, seq := l.seq }
  if mark then s.logRec 0 4 (uSvc 5) 48 [] else s

/-! ### Units (R343, R344, R481, R515) -/

/-- A unit whose RETIRED record is to be cleared fails the test that would return it (R481). -/
def failsTest (i : StartIn) (a : Nat) : Bool :=
  i.bad.contains a || (uKind a == 3 && i.chans.any (fun c => c.ch == uIdx a && c.mode == 0)) ||
  (uKind a == 6 && i.bad1.contains (uIdx a))

/-- Every unit begins as R515 states: the recorded ones RETIRED, every other UP until its test fails. -/
def State.startUnits (s : State) (i : StartIn) : State :=
  let clr := s.lvl.retClr
  let s := s.onRetRec fun l => l.filter fun a => !clr.contains a || failsTest i a
  s.onUnits fun _ => s.retRec.foldl (fun m a => m.set {} a { st := .retired }) {}

/-- The SRAM row of a failing March test takes a spare and a soft fuse of SOURCE 1, an F0 event; none where its bank has no
spare or the fuse area is full (Table 11.7, R339). -/
def State.marchRow (s : State) (r : Nat × Nat × Nat) : Option State :=
  match s.freeSpare r.1 r.2.1 with
  | some k =>
    if s.memp.soft.length < 1024 then
      some ((s.onMemp fun m => { m with soft := m.soft ++ [⟨r.1, r.2.1, k, r.2.2, 1⟩] }).raiseFault 0x0009 r.1 (sramLoc r.1 (r.2.1 * 262144 + r.2.2 * 256)))
    else none
  | none => none

/-- Soft fuses that fail their check are skipped and logged (R339). -/
def State.skipFuses (s : State) (l : List Nat) : State :=
  let s := l.foldl (fun s k => if k < s.memp.soft.length then s.logRec 1 9 (uSvc 2) 32 (leBytes 2 k) else s) s
  s.onMemp fun m => { m with soft := (m.soft.zip (List.range m.soft.length)).filterMap fun x => if l.contains x.2 then none else some x.1 }

/-- Units whose self-test fails stay FENCED with SELFTEST_FAIL (R344), and their work moves (Table 1.14). -/
def State.failUnits (s : State) (l : List Nat) : State :=
  let l := (l.filter fun a => isUnit a && (uKind a == 4 || uKind a == 5 || decide (7 ≤ uKind a)) && (s.unit a).st != .retired).eraseDups
  let s := l.foldl (fun s a => s.onUnit a fun u => { u with st := .fenced, code := 4 }) s
  l.foldl (fun s a => (s.raiseFault (selfTestCode a) a).fenceUnit a) s

/-- The self-tests: fuses, the March test's rows, decoders. The protected words are zero with valid check bits. -/
def State.startTests (s : State) (i : StartIn) : State :=
  let s := s.onMemp fun m => { soft := m.soft, failed := m.failed, withheld := m.withheld.filter fun p => !s.dram.repaired.any (fun a => a / 4096 == p) }
  let s := s.skipFuses i.badFuses
  let r := i.rows.foldl (fun (a : State × List Nat) x => match a.1.marchRow x with
    | some t => (t, a.2)
    | none => (a.1, x.1 :: a.2)) (s, [])
  (r.1.failUnits (i.bad ++ r.2)).setF F.MEMP_STAT_ERASURE s.erasures

/-! ### DRAM (R347, R359, R360, R367) -/

/-- Subchannels with an eye narrower than MIN_EYE at a set point. -/
def narrow (i : StartIn) (min fsp : Nat) : List Nat :=
  (i.eyes.filter fun e => e.2.1 / 16 == fsp && (decide (e.2.2.1 < min) || decide (e.2.2.2.2.1 < min))).map (·.1)

/-- One subchannel after training: its eyes, PHASE 7 retired, 8 failed or 3, its fill under way until `full` (R344). -/
def Sub.trained (x : Sub) (i : StartIn) (n phase fsp full : Nat) : Sub :=
  let es := i.eyes.filter fun e => e.1 == n
  { phase := phase, fsp := fsp, ppr := x.ppr, filledAt := full,
    eyes := es.foldl (fun m e => m.set (0, 0, 0, 0) e.2.1 (e.2.2.1, e.2.2.2.1, e.2.2.2.2.1, e.2.2.2.2.2)) {},
    centre := es.foldl (fun m e => m.set (0, 0) e.2.1 (e.2.2.2.1, e.2.2.2.2.2)) {} }

/-- A subchannel left out: its events, F2 of the DRAM controller (R360). -/
def State.subFails (s : State) (n : Nat) : State :=
  (((s.raiseEvt F.DRC_SC_EVT_TRAIN_FAIL F.DRC_SC_EVT_CNT2_TFAIL_CNT n).raiseEvt F.DRC_EVT_SC_FAIL F.DRC_EVT_CNT1_SCF_CNT).raiseFault 0x0207 (uSvc 1) n)

/-- An evacuation under way when power was lost retires its subchannel (R367). -/
def State.startEvac (s : State) : State :=
  match s.dram.evacRec with
  | some n => ((s.onRetRec fun l => if uDram n ∈ l then l else uDram n :: l).onUnit (uDram n) fun u => { u with st := .retired }).onDram
      fun d => { d with evacRec := none }
  | none => s

/-- DRAM training: the interleave of the subchannels that pass FSP1, at FSP0 when every one of them passes it; a new row
key, the recorded grain. `min` is MIN_EYE as last written. -/
def State.startDram (s : State) (i : StartIn) (min : Nat) : State :=
  let s := s.startEvac
  let retired := fun n => (s.unit (uDram n)).st == .retired
  let bad := (i.bad1 ++ narrow i min 1 ++ (i.bad.filter (fun a => uKind a == 6)).map uIdx)
  let left := (List.range 8).filter fun n => !retired n && bad.contains n
  let act := (List.range 8).filter fun n => !retired n && !bad.contains n
  let slow := act.any fun n => (i.bad0 ++ narrow i min 0).contains n
  let fsp := if slow then 1 else 0
  let key := Config.drbg s.drbg % 2 ^ 17
  let s := (s.nextDrbg).onDram fun d =>
    { subs := (List.range 8).foldl (fun m n => m.set {} n ((d.subs.get {} n).trained i n (if retired n then 7 else if bad.contains n then 8 else 3) (if act.contains n then fsp else 1) (s.time.ms + s.fillMs))) {},
      active := act, grain := s.getF F.DRC_CFG_GRAIN, rowkey := key, fsp0ok := !slow, fsp := fsp, repairs := d.repairs, repaired := d.repaired }
  let s := left.foldl State.subFails s
  let s := if slow then (s.raiseEvt F.DRC_EVT_FSP0_BAD F.DRC_EVT_CNT1_BAD_CNT).raiseFault 0x0207 (uSvc 1) else s
  let s := if i.dramBad || !s.regionsFit s.dramSize then s.raiseFault 0x0207 (uSvc 1) else s
  s.onLvl fun l => { l with heldTin := i.dramBad || decide (act.length < 5) || !s.regionsFit s.dramSize }

/-! ### Media (R195, R222, R249, R481) -/

/-- A die is exchanged (R481): its grown records move to the SYS-area list, its chunks enter as good with zero erases but
for its factory marks, and the lines of segments that lay on it miss their units, which their stripes rebuild (R243). -/
def State.newDie (s : State) (ch lun : Nat) (marks : List Nat) : State :=
  let k := lunKey ch lun
  let used := s.med.segs.items.flatMap fun e => match e.2 with
    | some g => if e.1 / 2 ^ 20 = ch / 32 ∧ (g.chunks.getD (ch % 32) 0xFFFFFFFF) / 65536 = lun then [g.chunks.getD (ch % 32) 0 % 65536] else []
    | none => []
  s.onMed fun m =>
    let cs := m.chunks.keep (fun x => x / 65536 != k)
    let cs := used.foldl (fun c x => c.set {} (k * 65536 + x) { used := true, missed := List.range 32 }) cs
    let cs := (m.chunks.items.filter fun e => e.1 / 65536 == k && e.2.slc && e.2.used && e.2.st == 0).foldl (fun c e => c.set {} e.1 { used := true, slc := true }) cs
    { m with grownSys := m.grownSys ++ m.grown.filter (fun g => g.ch == ch && g.lun == lun), grown := m.grown.filter (fun g => !(g.ch == ch && g.lun == lun)),
             luns := m.luns.del k, chunks := marks.foldl (fun c x => c.upd {} (k * 65536 + x) fun y => { y with st := 1 }) cs }

/-- Grown records whose CRC fails are skipped and logged (R250); the record is a trace of service unit 2 (DESIGN CHOICE,
assumption 127). -/
def State.skipGrown (s : State) (l : List Nat) : State :=
  let s := l.foldl (fun s k => if k < s.med.grown.length then s.logRec 1 9 (uSvc 2) 32 (leBytes 2 k) else s) s
  s.onMed fun m => { m with grown := (m.grown.zip (List.range m.grown.length)).filterMap fun x => if l.contains x.2 then none else some x.1 }

/-- A chunk's record as a start-up builds it: state and erase counts from the tables and the journal, the hint and the reads, in units of
1,024, from the latest copy; the lap's counts begin again (R251, R255). -/
def Chunk.reload (c ck : Chunk) : Chunk := { c with hint := ck.hint, reads := min 65535 (ck.reads / 1024) * 1024, early := 0, refr := 0 }

/-- Chunks marked bad in the factory table. -/
def State.factoryBad (s : State) (ch lun : Nat) (l : List Nat) : State :=
  l.foldl (fun s x => s.onChunk (chunkKey ch lun x) fun c => { c with st := 1 }) s

/-- A segment at a start-up is no longer a victim. -/
def Seg.resume (g : Seg) : Seg := { g with victim := false }

/-- The SYS area is found: on the first start-up its factory table is built from the marks (R249); a page lost in both
copies leaves its chunks bad, an F2 event. A chunk with an ERASE_INTENT and no ERASE_DONE is erased again (R253). -/
def State.startSys (s : State) (i : StartIn) : State :=
  let s := if s.med.sysBuilt then s else i.marks.foldl (fun s x => s.factoryBad x.1 x.2.1 [x.2.2]) s
  let s := i.lost.foldl (fun s x => (s.factoryBad x.1 x.2.1 x.2.2).raiseFault 0x020E (uEng (eSE 0))) s
  let s := s.skipGrown i.badGrown
  let s := s.onMed fun m => { m with chunks := m.chunks.mapV fun k c => c.reload (m.ckChunks.get {} k) }
  let s := i.dies.foldl (fun s x => s.newDie x.1 x.2.1 x.2.2) s
  let cut := (s.med.chunks.items.filter fun e => e.2.intent && e.2.st == 0).map (·.1)
  let s := cut.foldl (fun s k => s.eraseFree (k / 65536 / 32) (k / 65536 % 32) (k % 65536)) s
  s.onMed fun m => { m with sysBuilt := true }

/-- What is kept of the media and their tables. After an unclean shutdown the stripe-tail scan closes the lines in progress; after a
clean one their accumulators stand in SLC (R190, R240). -/
def State.startMedia (s : State) (i : StartIn) : State :=
  let s := if s.lvl.lastClean then s else s.tailScan
  let s := s.onMed fun m =>
    { m with chans := {}, luns := m.luns.keepKV (fun _ l => l.st == 3) |>.mapV fun _ _ => ({ st := 3 } : Lun)
             segs := m.segs.mapV fun _ o => o.map Seg.resume
             accs := (m.accs.filter fun a => !a.slc).map fun a => { a with spilled := true }, passed := [], capPend := {}
             slcLines := [], cqWait := {}, drWait := {}, folding := 0, gcOn := 0, slcStop := 0, lastQ := {}, offer := [], lap := {}
             budget := {}, lastWr := {}, shown := {}, ident := true, lunsCh := min 32 i.luns, perLun := min 32768 i.perLun
             blkPages := max 1 i.blkPages }
  let s := s.startSys i
  (List.range 128).foldl (fun s c =>
    if (s.unit (uChan c)).st = .retired then s else s.trainChan ((i.chans.find? (fun x => x.ch == c)).getD { ch := c })) s

/-- The counts that step 2 shows for a quadrant (R162): FORM, PROM, SPARE, FREE, AT_GUARD, AT_FLOOR, USED and EMERG. -/
def State.showCaps (s : State) (q : Nat) : State :=
  let v := [s.form q, s.prom q, s.spare q, s.segFree q, b2n (s.atGuard q), b2n (decide (s.spare q ≤ floorSegs)), s.slcUsed q,
            b2n (decide (s.segFree q < s.get2 F.QD_GC_CFG0_GC_LOW q))]
  s.onMed fun m => { m with shown := (v.zip (List.range 8)).foldl (fun t x => t.set 0 (q * 8 + x.2) x.1) m.shown }

/-! ### Map, landing, journal (R37, R132, R190, R191) -/

/-- Blocks of a namespace that count in NUSE (R157, R168). -/
def State.mappedBlocks (s : State) (n : Ns) : Nat :=
  s.map.coarse.items.foldl (fun a e =>
    if n.granules.contains (e.1 / 16384) then a + ((List.range 16).filter fun k => s.allocated (e.1 * 16 + k)).length else a) 0

/-- NUSE of a namespace: a zoned one counts its zones' write pointers. -/
def State.nuseNow (s : State) (nsid : Nat) (n : Ns) : Nat :=
  if n.zoned then s.zones.items.foldl (fun a e => if e.1 / 2 ^ 24 = nsid then a + e.2.wp else a) 0 else s.mappedBlocks n

/-- The journal scan ends at a bad record: what follows is as if the journal ended there (R190). -/
def State.cutJournal (s : State) (o : Option Nat) : State :=
  match o with
  | some k =>
    if s.lvl.lastClean then s
    else (((s.onJnl fun j => { j with recs := j.recs.take k }).raiseEvt F.MRC_JNL_EVT_SKIP F.MRC_JNL_EVT_CNT_SKIP_CNT).raiseFault 0x020A (uEng (eSE 0)))
  | none => s

/-- The binding saved for a namespace (R86). -/
def State.savedBind (s : State) (nsid : Nat) : Option (Nat × Nat) :=
  (s.hif.saved.get none (0xC0 + 256 * nsid)).map fun v => (v % 4096, bits v 13 12)

/-- The coarse units that a journal record names (Table 6.4). -/
def JRec.units (r : JRec) : List Nat :=
  match r.typ with
  | 2 => [if r.sub = 0xFF then r.a else r.a / 16]
  | 4 => if r.b = 0 then [] else (List.range ((r.a + r.b - 1) / 16 + 1 - r.a / 16)).map (r.a / 16 + ·)
  | 8 => [r.a]
  | _ => []

/-- The journal index: the newest entry of every key that the retained journal names (R190). -/
def State.jnlIndex (s : State) (d : DMap) : SMap Ent :=
  (((wholeGroups (s.jnl.recs.map (·.2)) none).flatten.flatMap JRec.units).eraseDups.flatMap fun u => (List.range 16).map (u * 16 + ·)).foldl
    (fun m k => m.set .unmapped k (d.lookup k)) {}

/-- The map, zones, counts and bindings are those of the checkpoints, the journal and the saved features (R86, R190, R191). No map page
stands in DRAM yet, and after an unclean shutdown the journal index is built. -/
def State.startMap (s : State) (i : StartIn) : State :=
  let s := (s.onJnl fun j => { j with groups := [], wait := [], clean := false, sweepAt := s.time.frame, period := s.getF F.MRC_JNL_CKPT_PERIOD }).cutJournal i.jnlBad
  let d := s.durable
  let s := s.onMap fun m => { coarse := d.coarse, fine := d.fine, pool := m.pool, poisUsed := m.poisUsed, granUsed := m.granUsed,
                              unloaded := d.coarse.keys.foldl (fun t u => t.set false (u / 3072) true) {}
                              index := if s.lvl.lastClean then {} else s.jnlIndex d }
  let s := s.onZones fun _ => d.zones.mapV fun _ z => { z with apRes := 0 }
  s.onNss fun m => m.mapV fun k o => o.map fun n => { n with nuse := s.nuseNow k n, resv := 0, bind := s.savedBind k }

/-- Commands cut off with sectors in a slice, counted as a brown-out finds them (R132). -/
def State.cutOff (s : State) (n : Nat) : Nat :=
  s.lnd.lostDisc.get 0 n + (s.hif.cmds.filter fun c => c.ph == .landing && c.slice == n && decide (c.left < c.blocks) && c.left != 0).length

/-- The landing buffer is empty; the WSN resumes at the recorded mark (R37), and DISC_CNT counts the commands cut off. -/
def State.startLanding (s : State) : State :=
  let lost := (List.range 16).map fun n => (n, s.cutOff n)
  let w := if s.med.sysBuilt then s.lnd.mark else 1
  let s := s.onLnd fun _ => { wsn := w, mark := w + 2 ^ 20 }
  lost.foldl (fun s x => if x.2 = 0 then s else (s.setF F.LND_EVT_DISCARD 1 x.1).setF F.LND_EVT_CNT_DISC_CNT (x.2 % 65536) x.1) s

/-! ### Host front end, keys, programs -/

/-- The default tenants saved (R80, R86): those of feature 0xC1 by controller. -/
def HifSt.savedTids (h : HifSt) : SMap Nat :=
  h.saved.items.foldl (fun m e => if e.1 % 2 ^ 32 = 0xC1 then m.set 0 (e.1 / 2 ^ 32) (e.2.getD 0 % 4096) else m) {}

/-- The host front end: links down, functions reset, FSN from 1 (R36); what MRAM holds stays, and a feature's value that was not
saved is lost (R86). -/
def HifSt.begin_ (h : HifSt) : HifSt :=
  { bifur := h.bifur, p0 := { perst := h.p0.perst }, p1 := { perst := h.p1.perst }, saved := h.saved, defTid := h.savedTids, vpd := h.vpd,
    fdp := (h.saved.get none 0x1D).getD 0 == 1, smart := if h.smart.testBit 3 then 8 else 0 }

/-- The key store and clusters (R378, R389): a slot whose MRAM copy fails is emptied as an F1 event, slot 0 is drawn when
it is empty, and pipelines that fail their known-answer test leave service. -/
def State.startSec (s : State) (i : StartIn) : State :=
  let s := s.onSec fun x =>
    { slots := x.slots, drawn := x.drawn, kik := x.kik, nonce := x.nonce, opkh := x.opkh, alarm := x.alarm, zeroised := x.zeroised,
      svn := x.svn, revoked := x.revoked }
  let s := i.keyBad.foldl (fun s n => if (s.slot n).kind = 0 then s else (s.onSlot n fun _ => {}).raiseFault 0x010E (uSvc 6) n) s
  let s := if (s.slot 0).cur.isNone then s.newSlotKey 0 else s
  i.kat.foldl (fun s x => s.kat (x.1 % 4) x.2 false) s

/-- Programs are loaded again from the SYS area: a draining one is gone, a sealed one whose slot is empty is unloaded as an
F1 event (R302, R379); bindings stand, unsuspended (R308). -/
def State.startProgs (s : State) : State :=
  let gone := s.prg.progs.items.filterMap fun e => match e.2 with
    | some p => (match p.sealSlot with | some n => if (s.slot n).cur.isNone then some e.1 else none | none => none)
    | none => none
  let s := s.onPrg fun p =>
    { progs := (p.progs.keepKV fun k o => !gone.contains k && (match o with | some x => !x.draining | none => false)).mapV fun _ o => o.map fun (x : Prog) => { x with traps := 0 },
      binds := (p.binds.filter fun b => !gone.contains b.handle).map fun b => { b with susp := false, defaults := [] }, osvn := p.osvn, qosStart := s.time.frame }
  gone.foldl (fun s h => s.raiseFault 0x010E (uSvc 6) h) s

/-- Secure boot and identity (R390, R393): the committed slot's package, else slot 1's, else a halt below Tin. -/
def State.startBoot (s : State) : State :=
  let c := s.lvl.committed
  let slot := if s.pkgOk (s.pkgOf c) then c else if c ≠ 1 ∧ s.pkgOk (s.pkgOf 1) then 1 else 0
  let boot := if slot = 0 then 2 else if slot = c then 0 else 1
  let s := (s.onSec fun x => { x with boot := boot }).onLvl fun l => { l with slot := slot, active := slot }
  if slot = 0 then s.raiseFault 0x0305 (uSvc 6)
  else
    let s := s.onSec fun x => { x with vkey := s.pkgKey (s.pkgOf slot) }
    (swapOrder.foldl (fun s e => if (s.unit (uEng e)).st = .up then s.bootEng e else s) s).reportImgs.deriveId

/-- The POWER_ON record (Table 16.6). -/
def State.logPowerOn (s : State) : State :=
  s.logRec 0 3 (uSvc 4) 40 (leBytes 1 s.lvl.prevEnd ++ leBytes 1 s.lvl.slot ++ leBytes 2 (((s.sec.imgs.get none 0).getD {}).version % 65536))

/-- The first hourly sample of the device's life (R459). -/
def State.firstSample (s : State) : State :=
  if s.flt.samples.isEmpty then
    s.onFlt fun f => { f with samples := [(0, (List.range 4).map s.wearFine ++ (List.range 4).map s.form ++ [0, 0])] }
  else s

/-! ### Start-up -/

/-- The core may leave reset (R398, R412, R450). -/
def State.mayStart (s : State) : Bool := !s.lvl.core && !s.pwr.drained && !s.flt.regc

/-- A start-up (R462, R471, Table 17.3). -/
def State.startUp (s : State) (i : StartIn) : State :=
  let min := s.getF F.DRC_CFG_MIN_EYE
  let rail := s.lvl.endNow = 3
  let warm := s.lvl.warm && !s.pwr.cold
  let prev := s.prevEndNow
  let s := s.startTime
  let s := s.startUnits i
  let s := (s.onLvl fun l => l.begin_ prev warm s.jnl.clean s.time.ms (if s.hif.p0.perst then none else some s.time.ms)).startFields
  let s := s.startCore
  let s := if rail then s.raiseEvt F.PWR_EVT_RAIL F.PWR_EVT_CNT2_RAIL_CNT else s
  let s := if 0 < i.torn then s.raiseEvt F.LOG_EVT_CRC_SKIP F.LOG_EVT_CNT0_SKIP_CNT else s
  let s := ((s.startLanding.onHif HifSt.begin_).onLocks fun _ => []).onPrg fun p => { p with scans := [] }
  let s := s.startTests i
  let s := (s.startMap i).startMedia i
  let s := ((s.startSec i).startProgs).startBoot
  let s := s.startDram i min
  let s := (List.range 4).foldl State.showCaps s
  s.firstSample.logPowerOn

/-- TEST_EN holds the core in reset (R509). -/
def State.testHold (s : State) : State := s.onLvl fun l => { l with testEn := true }

/-- START_UP. -/
def execStartUp (i : StartIn) (s : State) : Out :=
  .next (if !s.mayStart then s else if i.testEn then s.testHold else s.startUp i)

/-! ### The ladder (R466 to R470, Table 17.2) -/

/-- Milliseconds since T0 (R466): the later of PERST0#'s first deassertion and the core leaving reset. -/
def State.sinceT0 (s : State) : Nat := s.time.ms - max (s.lvl.perst0.getD s.lvl.left) s.lvl.left

/-- The level rises (R468): its register, the asynchronous event and the STATE record. -/
def State.riseTo (s : State) (n : Nat) : State :=
  let old := s.lvl.level
  ((s.onLvl fun l => { l with level := n }).aenAll { typ := 7, info := 1, lid := 0xC0 }).logState 0 old n

/-- The map regions of DRAM, which are filled first, are written (R344, Table 17.2). -/
def State.mapsWritten (s : State) : Bool :=
  s.dram.active.all fun n => decide (s.poolEnd * s.fillMs ≤ s.dramSize * (s.time.ms + s.fillMs - (s.dram.subs.get {} n).filledAt))

/-- Every subchannel of the interleave is filled (Table 17.2). -/
def State.filled (s : State) : Bool := s.dram.active.all fun n => (s.dram.subs.get {} n).phase != 3

/-- Every unit is UP, FENCED or RETIRED. -/
def State.unitsSettled (s : State) : Bool :=
  s.units.items.all fun e => e.2.st == .up || e.2.st == .fenced || e.2.st == .retired

/-- The conditions of Table 17.2 for a step of the ladder: 1 Tin, 2 Bronze, 3 writes accepted, 4 Steel. -/
def State.mayRise (s : State) (step : Nat) : Bool :=
  s.lvl.core && !s.halted &&
  match step with
  | 1 => s.lvl.level == 0 && s.sec.boot != 2 && s.lvl.perst0.isSome && (s.hif.p0.up || s.hif.p1.up)
  | 2 => s.lvl.level == 1 && !s.lvl.heldTin && s.pwr.tested && s.mapsWritten
  | 3 => s.lvl.level == 2 && !s.lvl.writes
  | 4 => s.lvl.level == 2 && s.lvl.writes && s.map.loaded && s.filled && s.unitsSettled
  | _ => false

/-- A map page is in DRAM, its index entries folded in (R191). -/
def State.pageLoaded (s : State) (p : Nat) : State :=
  s.onMap fun m => { m with unloaded := m.unloaded.set false p false, index := m.index.keep fun k => mapPage k != p }

/-- Background loading, once writes are accepted: one page in a frame (R191, Table 17.3; DESIGN CHOICE, assumption 122), and LOADED with
the last one. -/
def State.loadTick (s : State) : State :=
  if !s.lvl.writes || s.map.loaded then s
  else
    let s := match s.map.unloaded.keys.head? with | some p => s.pageLoaded p | none => s
    if s.map.unloaded.keys.isEmpty then s.onMap fun m => { m with loaded := true, index := {} } else s

/-- Reach a step of the ladder. The journal index and the stripe-tail scan end with the step that needs them (R190). -/
def State.rise (s : State) (step : Nat) : State :=
  let t := s.sinceT0
  if !s.mayRise step then s
  else if step = 1 then (s.onLvl fun l => { l with tin := t }).riseTo 1
  else if step = 2 then ((s.onLvl fun l => { l with bronze := t }).onMap fun m => { m with indexDone := !s.lvl.lastClean }).riseTo 2
  else if step = 3 then (s.onLvl fun l => { l with wrAt := t, writes := true }).onMap fun m => { m with tailDone := !s.lvl.lastClean }
  else
    let s := (s.onLvl fun l => { l with steel := t }).riseTo 3
    if s.flag F.SEC_SVN_CTL_AUTO then s.raiseSvn else s

/-- LEVEL_RISE. -/
def execLevelRise (step : Nat) (s : State) : Out := .next (s.rise step)

/-- The Steel bound in ms (R466). -/
def State.steelBound (s : State) : Nat := if s.lvl.lastClean then 8000 else 60000

/-- LEVEL_BOUND_MISSED (R470): Bronze later than 1 s, or Steel later than its bound; the climb continues. -/
def State.boundMissed (s : State) : State :=
  let t := s.sinceT0
  if !s.lvl.core ∨ s.lvl.perst0.isNone then s
  else
    let s := if s.lvl.level < 2 ∧ 1000 < t ∧ !s.lvl.lateB then
        (s.onLvl fun l => { l with lateB := true }).raiseEvt F.SYS_EVT_LATE_BRONZE F.SYS_EVT_CNT0_BRZ_CNT else s
    if s.lvl.level < 3 ∧ s.steelBound < t ∧ !s.lvl.lateS then
      (s.onLvl fun l => { l with lateS := true }).raiseEvt F.SYS_EVT_LATE_STEEL F.SYS_EVT_CNT1_STL_CNT
    else s

def execLevelBoundMissed (s : State) : Out := .next s.boundMissed

/-! ### JTAG (R509) -/

/-- IDCODE: SYS_ID.MINOR in [31:28], 0x0128 in [27:12], the fused manufacturer code in [11:1], 1 in [0]. -/
def idCode : Nat := Config.fuseSYSIDMINOR % 16 * 2 ^ 28 + 0x0128 * 2 ^ 12 + Config.jtagMaker % 2048 * 2 + 1

/-- The pins that the boundary register samples, as bits: FAULT_N asserted, REG_CYCLE, HU_TEST_N asserted. -/
def State.pinBits (s : State) : Nat := b2n s.faultPin + 2 * b2n s.flt.regc + 4 * b2n s.pwr.test.isSome

/-- A JTAG instruction is selected (IEEE 1149.1 codes of the model's own): its data register's content goes out. -/
def State.jtagIns (s : State) (ins val : Nat) : State := (s.onLvl fun l => { l with jtag := ins }).send (.jtag ins val)

/-- SAMPLE/PRELOAD: the pins are sampled, the boundary register loaded; no pin is disturbed. -/
def State.jtagSample (s : State) (ins : Nat) (pins : List (Nat × Bool)) : State :=
  (s.jtagIns ins s.pinBits).onLvl fun l => { l with bsr := pins }

/-- The instructions that take the pins do so only while TEST_EN holds the core in reset; at any other time they act as
SAMPLE/PRELOAD. -/
def State.jtagDrive (s : State) (ins : Nat) (pins : List (Nat × Bool)) : State :=
  if s.lvl.testEn && !s.lvl.core then pins.foldl (fun s p => s.send (.pin p.1 p.2)) (s.jtagIns ins s.pinBits) else s.jtagSample 2 pins

/-- BYPASS. -/
def execBypass (s : State) : Out := .next (s.jtagIns 0 0)
/-- IDCODE. -/
def execIdcode (s : State) : Out := .next (s.jtagIns 1 idCode)
/-- SAMPLE/PRELOAD. -/
def execSamplePreload (pins : List (Nat × Bool)) (s : State) : Out := .next (s.jtagSample 2 pins)
/-- EXTEST: the boundary register's content drives the pins. -/
def execExtest (pins : List (Nat × Bool)) (s : State) : Out := .next (s.jtagDrive 3 pins)
/-- EXTEST_PULSE (IEEE 1149.6). -/
def execExtestPulse (pins : List (Nat × Bool)) (s : State) : Out := .next (s.jtagDrive 4 pins)
/-- EXTEST_TRAIN (IEEE 1149.6). -/
def execExtestTrain (pins : List (Nat × Bool)) (s : State) : Out := .next (s.jtagDrive 5 pins)
/-- CLAMP: the pins hold what the boundary register was loaded with. -/
def execClamp (s : State) : Out := .next (s.jtagDrive 6 s.lvl.bsr)
/-- HIGHZ: no pin is driven. -/
def execHighz (s : State) : Out := .next (s.jtagDrive 7 [])

end Sys2Proof.Machine
end

