-- ==== Sys2Proof/Machine/Frame.lean ====
section
/-! DEFINITION. The frame tick: what the opening of a frame does in every block, the pipeline of the scheduler, and the
steps of the safe halt (chapters 2 and 16; R34, R40 to R45, R448, R449). -/
namespace Sys2Proof.Machine

/-! ### The safe halt (Table 16.4) -/

/-- Step 2, in the frame after: CSTS.CFS set on every controller, a health status change of the endpoint. -/
def State.haltFatal (s : State) : State :=
  ((s.onHif fun h => { h with ctrls := h.ctrls.mapV fun _ c => { c with cfs := true } }).miChange 1).onFlt fun f =>
    { f with halt := f.halt.map fun h => { h with step := 2 } }

/-- Committed sectors not yet programmed, by quadrant. -/
def State.unprogIn (s : State) (q : Nat) : Nat :=
  (s.lnd.secs.items.filter fun e => e.1 / 4096 / 4 == q && (match e.2 with | some x => x.done && !x.prog | none => false)).length

/-- The domains that the halt holds in reset keep nothing in progress: sectors not programmed are lost (R448, R449). -/
def State.haltHold (s : State) : State :=
  let s := (s.onLnd fun l => { l with secs := {}, waits := [] }).onJnl fun j => { j with groups := [] }
  let s := s.onMed fun m => { m with chans := {}, accs := [], slcLines := [], luns := m.luns.mapV fun _ l => { l with run := [], stream := none } }
  s.onPrg fun p => { p with scans := [], engs := p.engs.mapV fun e g => if e = 0x32 then g else {} }

/-- Step 4: the HALT record with the sectors lost and the quadrants drained, and every other domain held in reset. -/
def State.haltEnds (s : State) (h : Halt) : State :=
  let quads := if h.alarm then 0 else (List.range 4).foldl (fun a q => if s.unprogIn q = 0 then a + 2 ^ q else a) 0
  let s := s.logRec 0 6 (uSvc 4) 48 (leBytes 2 h.code ++ zeros 2 ++ leBytes 4 s.unprogrammed ++ leBytes 1 quads)
  let s := s.onFlt fun f => { f with halt := f.halt.map fun x => { x with step := 4, drained := quads, lost := s.unprogrammed } }
  s.haltHold

/-- The halt's steps at a tick: step 2 in the frame after F; step 3, the drain, until every committed sector is programmed
and every group closed, for 300 frames at most; then step 4. A cipher alarm skips step 3. -/
def State.haltTick (s : State) : State :=
  match s.flt.halt with
  | none => s
  | some h =>
    if h.step = 1 then (if h.frame < s.time.frame then s.haltFatal else s)
    else if h.step = 2 then
      if h.alarm ∨ (s.unprogrammed = 0 ∧ s.jnl.groups.isEmpty) ∨ h.frame + 300 ≤ s.time.frame then s.haltEnds h else s
    else s

/-! ### Step 1: the tick -/

/-- An engine's cycles and steps of the frame that ends are shown, and its counters begin again (R68, Table 18.3). -/
def State.engTick (s : State) : State :=
  let es := (s.sched.cycUsed.keys ++ s.sched.steps.keys ++ s.prg.engs.keys).eraseDups
  let s := es.foldl (fun s e => (s.setF F.ENG_STAT_CYC_LAST (min (s.sched.cycUsed.get 0 e) 16000) e).setF F.ENG_STAT_STEPS_LAST (min (s.sched.steps.get 0 e) 255) e) s
  let s := s.onSched fun c => { c with cycUsed := {}, steps := {} }
  s.onPrg fun p => { p with engs := p.engs.mapV fun _ g => { g with cyc := 0 } }

/-- Priority 1 cipher bytes count by frame (R375). -/
def State.ccTick (s : State) : State := s.onSec fun x => { x with ccs := x.ccs.mapV fun _ c => { c with prio1 := 0 } }

/-- The ASPM state of each port's link as the tick finds it (R74): L0 where the port has work, else what the link has entered. -/
def State.linkPm (s : State) (l : List Nat) : State :=
  let at_ := fun (p : Nat) (x : PortSt) => if x.up ∧ (s.dmaReqs p).isEmpty ∧ (s.fetchable p).isEmpty then { x with pm := min 3 (l.getD p 0) } else { x with pm := 0 }
  s.onHif fun h => { h with p0 := at_ 0 h.p0, p1 := at_ 1 h.p1 }

/-- The frame number advances; the lists and grants of the frame take effect (R40, R42, R45). -/
def State.tickOpen (s : State) (aon : TickIn) : State :=
  let s := s.onTime fun t => { t.countMs aon.aonMs with frame := (t.frame + 1) % 2 ^ 48 }
  let s := (s.onLvl fun l => { l with levelF := l.level }).readOnlyNow
  let s := s.engTick.ccTick
  let s := (List.range 16).foldl (fun s g => s.setF F.GRP_LIST_CTL_COMMIT 0 g) s
  let s := (List.range 128).foldl State.tickChan s
  let s := s.onMap fun m => { m with demoted := {} }
  let s := s.linkPm aon.pm
  let s := s.drainBegin.replaceEffect.adoptOrphans.moveQueues.powerDrains.swapTick
  let s := (s.onSched fun c => { c with budgetNow := s.budgetFor }).takeGrants
  s.raiseUrgency.admitLists.resumeAll

/-! ### Step 2 -/

/-- What SE1's engine allows: it publishes while it is up and not being swapped. -/
def State.se1Runs (s : State) : Bool := s.unitState (uEng 0x31) == .up && !s.swapping 0x31

/-- Quadrant counts at step 2 (R162, R174, R244, R257). -/
def State.quadTick (s : State) (q : Nat) : State :=
  let s := (((s.tickTier q).tickParity q).showCaps q).showCapEvts q
  (s.setF F.QD_WEAR_MAX (s.wearMax q) q).setF F.QD_WEAR_AVG (s.wearAvg q) q

/-- Step 2: fields that take effect there, the ledger, the quadrants, and GC emergency as found. -/
def State.tickStep2 (s : State) : State :=
  let s := s.onEff2 fun _ => s.fields
  let s := s.markAllReady.onSched SchedSt.foldLedger
  let s := (List.range 4).foldl State.quadTick s
  (s.onSched fun c => { c with emergSeen := s.emergFound }).pmDone

/-! ### Steps 3 to 5 -/

/-- Step 3: the governor; a change of the cap in force judges the hold-up test again (R416). -/
def State.tickStep3 (s : State) (i : TickIn) : State :=
  let old := s.gov.cap
  let s := s.govTick { i with onTime := i.onTime && s.se1Runs }
  if s.gov.cap = old then s else s.rejudge

/-- A port's credit that waits comes into use at step 4 (R76). -/
def PortSt.newCredit (p : PortSt) : PortSt := match p.credPend with | some c => { p with credit := c, credPend := none } | none => p

/-- Step 4: shares, weights, credits and the grant tables of the next frame. -/
def State.tickStep4 (s : State) : State :=
  let s := s.onEff4 fun _ => s.fields
  let s := s.onSched fun c => c.sharesEffect.weightsEffect
  (s.onHif fun h => { h with p0 := h.p0.newCredit, p1 := h.p1.newCredit }).publishGrants

/-- The rest of the frame: DMA segments granted, power, sensors, programs, keys, DRAM, self-test, held requests. -/
def State.tickRest (s : State) (i : TickIn) : State :=
  let s := ((s.grantDma 0 512).grantDma 1 512).finishScans
  let s := (s.powerTick i.vhu).drainEnds
  let s := (i.dies.zip (List.range i.dies.length)).foldl (fun s x => s.countTj x.2 x.1) s
  s.reap.rekeyDoneAll.dramTick.dstDone.serveHeld.metaTick.reapSegs.sweepTick.loadTick.shutdownTick.haltTick

/-- Step 4 of the halt has been reached: only the domains of R448 run. -/
def State.heldInReset (s : State) : Bool := match s.flt.halt with | some h => h.step == 4 | none => false

/-- FRAME_TICK (R40, R42): while the core runs and the timebase ticks, one frame opens. -/
def State.frameTick (s : State) (i : TickIn) : State :=
  if !s.lvl.core ∨ s.pwr.cur = 4 then s
  else if s.heldInReset then s.onTime fun t => { t.countMs i.aonMs with frame := (t.frame + 1) % 2 ^ 48 }
  else ((((s.tickOpen i).tickStep2).tickStep3 i).tickStep4).tickRest i

def execFrameTick (i : TickIn) (s : State) : Out := .next (s.frameTick i)

end Sys2Proof.Machine
end

