-- ==== Sys2Proof/Machine/Health.lean ====
section
/-! DEFINITION. The hourly evaluation of the 15 health monitors, the device's end of life and the HEALTH record (chapter
16; R454, R459, R460, Table 16.7). -/
namespace Sys2Proof.Machine

/-- The present operating hour. -/
def State.hourNow (s : State) : Nat := s.time.ms / 3600000

/-- EOL of a monitor that shows no trend toward its limit. -/
def noTrend : Nat := 0xFFFFFFFF

/-- A predicted hour, saturating below the value of no trend. -/
def eolAt (h : Nat) : Nat := min h (noTrend - 1)

/-- A margin: a quotient in 1/1,000, saturating at 65,535. -/
def marginOf (n d : Nat) : Nat := if d = 0 then 65535 else min 65535 (n * 1000 / d)

/-- The present values that rates are taken of: AVG (in 1/1,000,000) and FORM of each quadrant, hard SRAM faults, withheld DRAM pages. -/
def State.healthNow (s : State) : List Nat :=
  (List.range 4).map s.wearFine ++ (List.range 4).map s.form ++ [s.memp.soft.length, s.memp.withheld.length]

/-- The sample that a rate over 30 days is taken from: the oldest of the last 720 hours, at least 24 hours old. -/
def State.rateRef (s : State) : Option (Nat × List Nat) :=
  let t := s.hourNow
  match (s.flt.samples.filter fun x => decide (t ≤ x.1 + 720)).getLast? with
  | some x => if x.1 + 24 ≤ t then some x else none
  | none => none

/-- EOL by a rate: `left` units of way to the limit, `moved` units in `dt` hours. -/
def eolBy (t left moved dt : Nat) : Nat := if left = 0 then t else if moved = 0 then noTrend else eolAt (t + left * dt / moved)

/-- The rise (or fall) of value `i` since the reference sample, with the hours it took. -/
def State.moved (s : State) (i : Nat) (falls : Bool) : Nat × Nat :=
  match s.rateRef with
  | some x =>
    let a := x.2.getD i 0
    let b := s.healthNow.getD i 0
    (if falls then a - b else b - a, s.hourNow - x.1)
  | none => (0, 1)

/-- Monitors 0 to 3: silicon ageing of a quadrant, `d` the slowdown of its worst ring-oscillator pair in 1/2^32. -/
def State.ageing (s : State) (d : Int) : Monitor :=
  let t := s.hourNow
  if d ≤ 0 then { margin := 0, eol := noTrend }
  else
    let n := d.toNat
    { margin := marginOf n Config.dLim, eol := if Config.dLim ≤ n then t else eolAt (t * Config.dLim ^ 4 / n ^ 4) }

/-- Monitors 4 to 7: flash wear of a quadrant. -/
def State.wearMon (s : State) (q : Nat) : Monitor :=
  let m := s.moved q false
  { margin := min 65535 (s.wearAvg q), eol := eolBy s.hourNow (1000000 - s.wearFine q) m.1 m.2 }

/-- Segments of Empty zones bound to a quadrant. -/
def State.emptySegs (s : State) (q : Nat) : Nat :=
  s.nss.items.foldl (fun a e => match e.2 with
    | some n => if n.zoned then
        a + (n.zonesIn e.1 q - (s.zones.items.filter fun z => z.1 / 2 ^ 24 == e.1 && zoneQuad e.1 (z.1 % 2 ^ 24) == q && z.2.st != .empty).length) * zoneSegs n.fmt
      else a
    | none => a) 0

/-- Monitors 8 to 11: flash spares of a quadrant. -/
def State.spareMon (s : State) (q : Nat) : Monitor :=
  let m := s.moved (4 + q) true
  let left := if s.guard < s.spare q then s.spare q - s.guard else s.spare q + s.emptySegs q - floorSegs
  { margin := marginOf s.guard (s.spare q), eol := eolBy s.hourNow left m.1 m.2 }

/-- The capacitance at which the hold time is MIN at the highest cap of PS0 to PS2, in uF, rounded up. -/
def State.capMin (s : State) : Nat :=
  let v := s.getF F.PWR_HU_BRD0_VMIN
  cdiv (s.getF F.PWR_HU_CFG_MIN * 200000000 * psCap 0) (max 1 ((s.pwr.vfin * s.pwr.vfin - v * v) * s.getF F.PWR_HU_BRD1_EFF))

/-- The least-squares slope of capacitance over operating milliseconds as a fraction. -/
def lsSlope (l : List (Nat × Nat)) : Int × Int :=
  let n : Int := l.length
  let sx : Int := l.foldl (fun a x => a + x.1) 0
  let sy : Int := l.foldl (fun a x => a + x.2) 0
  let sxy : Int := l.foldl (fun a x => a + (x.1 : Int) * x.2) 0
  let sxx : Int := l.foldl (fun a x => a + (x.1 : Int) * x.1) 0
  (n * sxy - sx * sy, n * sxx - sx * sx)

/-- Monitor 12: the hold-up bank. -/
def State.holdMon (s : State) : Monitor :=
  if !s.pwr.valid then {}
  else
    let t := s.hourNow
    let c := s.pwr.capN / max 1 s.pwr.capD
    let l := s.flt.caps.filter fun x => decide (s.time.ms ≤ x.1 + 2160 * 3600000)
    let f := lsSlope l
    let eol :=
      if c ≤ s.capMin then t
      else if 3 ≤ l.length ∧ f.1 < 0 ∧ 0 < f.2 then eolAt (t + (((c - s.capMin : Nat) : Int) * f.2 / (-f.1) / 3600000).toNat)
      else noTrend
    { margin := marginOf s.capMin c, eol := eol }

/-- Spares used of a bank. -/
def State.sparesUsed (s : State) (unit bank : Nat) : Nat := (s.fuses.filter fun f => f.unit == unit && f.bank == bank).length

/-- Spares used of the bank with the fewest left. -/
def State.worstBank (s : State) : Nat := s.fuses.foldl (fun a f => max a (s.sparesUsed f.unit f.bank)) 0

/-- Monitor 13: SRAM. -/
def State.sramMon (s : State) : Monitor :=
  let m := s.moved 8 false
  { margin := marginOf s.worstBank 8, eol := eolBy s.hourNow (8 - s.worstBank) m.1 m.2 }

/-- Monitor 14: DRAM. -/
def State.dramMon (s : State) : Monitor :=
  let m := s.moved 9 false
  let lim := s.dramSize / 4096 / 100
  { margin := marginOf s.memp.withheld.length lim, eol := eolBy s.hourNow (lim - s.memp.withheld.length) m.1 m.2 }

/-- The 15 monitors in order (Table 16.7). -/
def State.monitors (s : State) (ring : List Int) : List Monitor :=
  (List.range 4).map (fun q => s.ageing (ring.getD q 0)) ++ (List.range 4).map s.wearMon ++ (List.range 4).map s.spareMon ++
  [s.holdMon, s.sramMon, s.dramMon]

/-- The least EOL and the lowest index that has it. -/
def leastEol (l : List Monitor) : Nat × Nat :=
  (l.zip (List.range l.length)).foldl (fun (b : Nat × Nat) x => if x.1.eol < b.1 then (x.1.eol, x.2) else b) (noTrend, 0)

/-- A HEALTH record is due: 24 operating hours, or an EOL that has moved by 1 % (R454). -/
def State.healthDue (s : State) : Bool :=
  let old := s.flt.eolLogged
  let new := s.flt.eol
  decide (s.flt.healthHour + 24 ≤ s.hourNow) || (old != new && decide (old ≤ ((new - old) + (old - new)) * 100))

/-- Write it (Table 16.6). -/
def State.logHealth (s : State) : State :=
  if s.healthDue then
    (s.logRec 0 7 (uSvc 4) 40 (leBytes 4 (sat32 s.flt.eol) ++ leBytes 1 s.flt.limMon ++ leBytes 1 s.flt.pctUsed)).onFlt fun f =>
      { f with eolLogged := f.eol, healthHour := s.hourNow }
  else s

/-- The evaluation of one operating hour (R459). -/
def State.evaluate (s : State) (ring : List Int) : State :=
  let ms := s.monitors ring
  let e := leastEol ms
  let t := s.hourNow
  (s.onFlt fun f =>
    { f with mons := (ms.zip (List.range 15)).foldl (fun m x => m.set {} x.2 x.1) f.mons, eol := e.1, limMon := e.2, pctUsed := s.pctUsed, evalHour := t,
             samples := ((t, s.healthNow) :: f.samples).filter fun x => decide (t ≤ x.1 + 720),
             caps := f.caps.filter fun x => decide (s.time.ms ≤ x.1 + 2160 * 3600000) }).logHealth

/-- HEALTH_EVALUATION: `ring` is d of the worst ring-oscillator pair of each quadrant, in 1/2^32. -/
def execHealthEvaluation (ring : List Int) (s : State) : Out :=
  .next (if s.lvl.core ∧ s.flt.evalHour < s.hourNow then s.evaluate ring else s)

end Sys2Proof.Machine
end

