-- ==== Sys2Proof/Machine/Dispatch.lean ====
section
/-! DEFINITION. One arm per command of the opcode table, each one direct call of its meaning. -/
namespace Sys2Proof.Machine

/-- The effect of a command on everything but the queue of pending commands. -/
def exec (i : Instr) (s : State) : Host.Outcome State Fault Refusal :=
  match i with
  | .plainRegisterWrite acc addr val => Sys2Proof.Machine.execPlainRegisterWrite acc addr val s
  | .rcRead acc addr => Sys2Proof.Machine.execRcRead acc addr s
  | .loReadLatch acc addr host => Sys2Proof.Machine.execLoReadLatch acc addr host s
  | .offUnitAccess acc addr val => Sys2Proof.Machine.execOffUnitAccess acc addr val s
  | .broadcastRead acc addr => Sys2Proof.Machine.execBroadcastRead acc addr s
  | .unassignedOffsetAccess acc addr val => Sys2Proof.Machine.execUnassignedOffsetAccess acc addr val s
  | .fence acc unit arg => Sys2Proof.Machine.execFence acc unit arg s
  | .unitReset acc unit arg => Sys2Proof.Machine.execUnitReset acc unit arg s
  | .drain acc unit arg => Sys2Proof.Machine.execDrain acc unit arg s
  | .resume acc unit arg => Sys2Proof.Machine.execResume acc unit arg s
  | .adopt acc unit arg => Sys2Proof.Machine.execAdopt acc unit arg s
  | .release acc unit arg => Sys2Proof.Machine.execRelease acc unit arg s
  | .selftest acc unit arg => Sys2Proof.Machine.execSelftest acc unit arg s
  | .retire acc unit arg => Sys2Proof.Machine.execRetire acc unit arg s
  | .unitOperationComplete unit pass tr => Sys2Proof.Machine.execUnitOperationComplete unit pass tr s
  | .drainTimeout unit => Sys2Proof.Machine.execDrainTimeout unit s
  | .unitPowerRequest acc unit val inEntry bad => Sys2Proof.Machine.execUnitPowerRequest acc unit val inEntry bad s
  | .frameTick x => Sys2Proof.Machine.execFrameTick x s
  | .listCommit g mask late => Sys2Proof.Machine.execListCommit g mask late s
  | .apply => Sys2Proof.Machine.execApply s
  | .weightWrite acc val => Sys2Proof.Machine.execWeightWrite acc val s
  | .perstAssert port => Sys2Proof.Machine.execPerstAssert port s
  | .perstDeassert port strap => Sys2Proof.Machine.execPerstDeassert port strap s
  | .linkTrained port gen width flit => Sys2Proof.Machine.execLinkTrained port gen width flit s
  | .linkRetrain port gen width flit => Sys2Proof.Machine.execLinkRetrain port gen width flit s
  | .linkDown port => Sys2Proof.Machine.execLinkDown port s
  | .hostTransferFailure fsn => Sys2Proof.Machine.execHostTransferFailure fsn s
  | .doorbellWrite fn q cq val => Sys2Proof.Machine.execDoorbellWrite fn q cq val s
  | .commandFetch fn sq sqe => Sys2Proof.Machine.execCommandFetch fn sq sqe s
  | .deleteIoSq fsn => Sys2Proof.Machine.execDeleteIoSq fsn s
  | .deleteIoCq fsn => Sys2Proof.Machine.execDeleteIoCq fsn s
  | .createIoSq fsn => Sys2Proof.Machine.execCreateIoSq fsn s
  | .createIoCq fsn => Sys2Proof.Machine.execCreateIoCq fsn s
  | .getLogPage fsn => Sys2Proof.Machine.execGetLogPage fsn s
  | .identify fsn => Sys2Proof.Machine.execIdentify fsn s
  | .abort fsn => Sys2Proof.Machine.execAbort fsn s
  | .setFeatures fsn => Sys2Proof.Machine.execSetFeatures fsn s
  | .getFeatures fsn => Sys2Proof.Machine.execGetFeatures fsn s
  | .asynchronousEventRequest fsn => Sys2Proof.Machine.execAsynchronousEventRequest fsn s
  | .namespaceManagement fsn => Sys2Proof.Machine.execNamespaceManagement fsn s
  | .namespaceAttachment fsn => Sys2Proof.Machine.execNamespaceAttachment fsn s
  | .firmwareCommit fsn => Sys2Proof.Machine.execFirmwareCommit fsn s
  | .firmwareImageDownload fsn => Sys2Proof.Machine.execFirmwareImageDownload fsn s
  | .deviceSelfTest fsn => Sys2Proof.Machine.execDeviceSelfTest fsn s
  | .directiveSend fsn => Sys2Proof.Machine.execDirectiveSend fsn s
  | .directiveReceive fsn => Sys2Proof.Machine.execDirectiveReceive fsn s
  | .virtualizationManagement fsn => Sys2Proof.Machine.execVirtualizationManagement fsn s
  | .nvmeMiSend fsn => Sys2Proof.Machine.execNvmeMiSend fsn s
  | .nvmeMiReceive fsn => Sys2Proof.Machine.execNvmeMiReceive fsn s
  | .formatNvm fsn => Sys2Proof.Machine.execFormatNvm fsn s
  | .securitySend fsn => Sys2Proof.Machine.execSecuritySend fsn s
  | .securityReceive fsn => Sys2Proof.Machine.execSecurityReceive fsn s
  | .sanitizeBlockErase fsn => Sys2Proof.Machine.execSanitizeBlockErase fsn s
  | .sanitizeCryptoErase fsn => Sys2Proof.Machine.execSanitizeCryptoErase fsn s
  | .programLoad fsn => Sys2Proof.Machine.execProgramLoad fsn s
  | .programBind fsn => Sys2Proof.Machine.execProgramBind fsn s
  | .programUnbind fsn => Sys2Proof.Machine.execProgramUnbind fsn s
  | .programReplace fsn => Sys2Proof.Machine.execProgramReplace fsn s
  | .programUnload fsn => Sys2Proof.Machine.execProgramUnload fsn s
  | .programInventoryRead fsn => Sys2Proof.Machine.execProgramInventoryRead fsn s
  | .keyBlobInstall fsn => Sys2Proof.Machine.execKeyBlobInstall fsn s
  | .keyRotation fsn => Sys2Proof.Machine.execKeyRotation fsn s
  | .keySlotZeroise fsn => Sys2Proof.Machine.execKeySlotZeroise fsn s
  | .unitCommand fsn => Sys2Proof.Machine.execUnitCommand fsn s
  | .flush fsn => Sys2Proof.Machine.execFlush fsn s
  | .write fsn => Sys2Proof.Machine.execWrite fsn s
  | .read fsn lost crc => Sys2Proof.Machine.execRead fsn lost crc s
  | .compare fsn lost crc => Sys2Proof.Machine.execCompare fsn lost crc s
  | .writeZeroes fsn => Sys2Proof.Machine.execWriteZeroes fsn s
  | .datasetManagement fsn => Sys2Proof.Machine.execDatasetManagement fsn s
  | .verify fsn lost crc => Sys2Proof.Machine.execVerify fsn lost crc s
  | .copy fsn lost crc => Sys2Proof.Machine.execCopy fsn lost crc s
  | .zoneClose fsn => Sys2Proof.Machine.execZoneClose fsn s
  | .zoneFinish fsn => Sys2Proof.Machine.execZoneFinish fsn s
  | .zoneOpen fsn => Sys2Proof.Machine.execZoneOpen fsn s
  | .zoneReset fsn => Sys2Proof.Machine.execZoneReset fsn s
  | .zoneOffline fsn => Sys2Proof.Machine.execZoneOffline fsn s
  | .zoneManagementReceive fsn => Sys2Proof.Machine.execZoneManagementReceive fsn s
  | .zoneAppend fsn => Sys2Proof.Machine.execZoneAppend fsn s
  | .scan fsn => Sys2Proof.Machine.execScan fsn s
  | .scanCancel fsn => Sys2Proof.Machine.execScanCancel fsn s
  | .controllerReset fn => Sys2Proof.Machine.execControllerReset fn s
  | .functionLevelReset fn => Sys2Proof.Machine.execFunctionLevelReset fn s
  | .nvmSubsystemReset => Sys2Proof.Machine.execNvmSubsystemReset s
  | .controllerShutdown fn => Sys2Proof.Machine.execControllerShutdown fn s
  | .readNvmeMiDataStructure path typ port ctrl => Sys2Proof.Machine.execReadNvmeMiDataStructure path typ port ctrl s
  | .nvmSubsystemHealthStatusPoll path clear => Sys2Proof.Machine.execNvmSubsystemHealthStatusPoll path clear s
  | .controllerHealthStatusPoll path start max => Sys2Proof.Machine.execControllerHealthStatusPoll path start max s
  | .configurationGet path id port => Sys2Proof.Machine.execConfigurationGet path id port s
  | .configurationSet path id port val => Sys2Proof.Machine.execConfigurationSet path id port val s
  | .vpdRead path off len => Sys2Proof.Machine.execVpdRead path off len s
  | .vpdWrite path off data => Sys2Proof.Machine.execVpdWrite path off data s
  | .nvmeMiReset path => Sys2Proof.Machine.execNvmeMiReset path s
  | .nvmeMiShutdown path => Sys2Proof.Machine.execNvmeMiShutdown path s
  | .adminCommandTunnel path fn sqe => Sys2Proof.Machine.execAdminCommandTunnel path fn sqe s
  | .coldResetConfirm path => Sys2Proof.Machine.execColdResetConfirm path s
  | .registerRead path sess addr count => Sys2Proof.Machine.execRegisterRead path sess addr count s
  | .registerWrite path sess addr val => Sys2Proof.Machine.execRegisterWrite path sess addr val s
  | .smbusWakePacket addr req inEntry ms => Sys2Proof.Machine.execSmbusWakePacket addr req inEntry ms s
  | .getVersion => Sys2Proof.Machine.execGetVersion s
  | .getCapabilities => Sys2Proof.Machine.execGetCapabilities s
  | .negotiateAlgorithms => Sys2Proof.Machine.execNegotiateAlgorithms s
  | .getDigests => Sys2Proof.Machine.execGetDigests s
  | .getCertificate off len => Sys2Proof.Machine.execGetCertificate off len s
  | .challenge nonce => Sys2Proof.Machine.execChallenge nonce s
  | .getMeasurements nonce => Sys2Proof.Machine.execGetMeasurements nonce s
  | .keyExchange data => Sys2Proof.Machine.execKeyExchange data s
  | .finish sess auth => Sys2Proof.Machine.execFinish sess auth s
  | .endSession sess => Sys2Proof.Machine.execEndSession sess s
  | .heartbeat sess => Sys2Proof.Machine.execHeartbeat sess s
  | .keyUpdate sess => Sys2Proof.Machine.execKeyUpdate sess s
  | .setKik sess key => Sys2Proof.Machine.execSetKik sess key s
  | .clearKik sess => Sys2Proof.Machine.execClearKik sess s
  | .setOpkh sess hash => Sys2Proof.Machine.execSetOpkh sess hash s
  | .getState sess => Sys2Proof.Machine.execGetState sess s
  | .rangeLockGrant fsn => Sys2Proof.Machine.execRangeLockGrant fsn s
  | .landingAdmit fsn seg wr => Sys2Proof.Machine.execLandingAdmit fsn seg wr s
  | .landingCommit fsn => Sys2Proof.Machine.execLandingCommit fsn s
  | .unitHoldGrant fsn => Sys2Proof.Machine.execUnitHoldGrant fsn s
  | .journalGroupClose gid => Sys2Proof.Machine.execJournalGroupClose gid s
  | .engineSwap faults => Sys2Proof.Machine.execEngineSwap faults s
  | .warmRestart => Sys2Proof.Machine.execWarmRestart s
  | .zoneOfflining q => Sys2Proof.Machine.execZoneOfflining q s
  | .readOnlyTransition q => Sys2Proof.Machine.execReadOnlyTransition q s
  | .fineDemotion unit => Sys2Proof.Machine.execFineDemotion unit s
  | .fold q => Sys2Proof.Machine.execFold q s
  | .gcVictimSelection q hook => Sys2Proof.Machine.execGcVictimSelection q hook s
  | .gcCopy unit hook seg lost => Sys2Proof.Machine.execGcCopy unit hook seg lost s
  | .victimErase seg => Sys2Proof.Machine.execVictimErase seg s
  | .journalPageFlush => Sys2Proof.Machine.execJournalPageFlush s
  | .checkpointSweep => Sys2Proof.Machine.execCheckpointSweep s
  | .mapPageRebuild page => Sys2Proof.Machine.execMapPageRebuild page s
  | .rebuildByScan q page => Sys2Proof.Machine.execRebuildByScan q page s
  | .listRead ch k => Sys2Proof.Machine.execListRead ch k s
  | .streamOpen ch k => Sys2Proof.Machine.execStreamOpen ch k s
  | .streamExt ch k => Sys2Proof.Machine.execStreamExt ch k s
  | .streamClose ch k => Sys2Proof.Machine.execStreamClose ch k s
  | .progSlc ch k => Sys2Proof.Machine.execProgSlc ch k s
  | .progQlc ch k => Sys2Proof.Machine.execProgQlc ch k s
  | .eraseSlc ch k => Sys2Proof.Machine.execEraseSlc ch k s
  | .eraseQlc ch k => Sys2Proof.Machine.execEraseQlc ch k s
  | .getFeat ch k => Sys2Proof.Machine.execGetFeat ch k s
  | .setFeat ch k => Sys2Proof.Machine.execSetFeat ch k s
  | .endEntry ch => Sys2Proof.Machine.execEndEntry ch s
  | .entryCompletion ch seq fail die => Sys2Proof.Machine.execEntryCompletion ch seq fail die s
  | .operationTimeout ch seq => Sys2Proof.Machine.execOperationTimeout ch seq s
  | .caParityError ch k => Sys2Proof.Machine.execCaParityError ch k s
  | .programSuspend ch lun done => Sys2Proof.Machine.execProgramSuspend ch lun done s
  | .suspendResume ch lun => Sys2Proof.Machine.execSuspendResume ch lun s
  | .recalibration ch shift eye moved => Sys2Proof.Machine.execRecalibration ch shift eye moved s
  | .recalibrationStart acc val => Sys2Proof.Machine.execRecalibrationStart acc val s
  | .codewordDecode ch lun page cw retry tag zeros fixed iter erasures => Sys2Proof.Machine.execCodewordDecode ch lun page cw retry tag zeros fixed iter erasures s
  | .slcLineClose q stripe line => Sys2Proof.Machine.execSlcLineClose q stripe line s
  | .chunkRelocation ch lun chunk fails operator => Sys2Proof.Machine.execChunkRelocation ch lun chunk fails operator s
  | .flashPatrol q => Sys2Proof.Machine.execFlashPatrol q s
  | .refresh ch lun chunk fails => Sys2Proof.Machine.execRefresh ch lun chunk fails s
  | .wearLevelCheck q => Sys2Proof.Machine.execWearLevelCheck q s
  | .add e => Sys2Proof.Machine.execAdd e s
  | .sub e => Sys2Proof.Machine.execSub e s
  | .and e => Sys2Proof.Machine.execAnd e s
  | .or e => Sys2Proof.Machine.execOr e s
  | .xor e => Sys2Proof.Machine.execXor e s
  | .andn e => Sys2Proof.Machine.execAndn e s
  | .sll e => Sys2Proof.Machine.execSll e s
  | .srl e => Sys2Proof.Machine.execSrl e s
  | .sra e => Sys2Proof.Machine.execSra e s
  | .ror e => Sys2Proof.Machine.execRor e s
  | .slt e => Sys2Proof.Machine.execSlt e s
  | .sltu e => Sys2Proof.Machine.execSltu e s
  | .min e => Sys2Proof.Machine.execMin e s
  | .max e => Sys2Proof.Machine.execMax e s
  | .minu e => Sys2Proof.Machine.execMinu e s
  | .maxu e => Sys2Proof.Machine.execMaxu e s
  | .addw e => Sys2Proof.Machine.execAddw e s
  | .subw e => Sys2Proof.Machine.execSubw e s
  | .mul e => Sys2Proof.Machine.execMul e s
  | .mulh e => Sys2Proof.Machine.execMulh e s
  | .mulhu e => Sys2Proof.Machine.execMulhu e s
  | .div e => Sys2Proof.Machine.execDiv e s
  | .divu e => Sys2Proof.Machine.execDivu e s
  | .rem e => Sys2Proof.Machine.execRem e s
  | .remu e => Sys2Proof.Machine.execRemu e s
  | .clz e => Sys2Proof.Machine.execClz e s
  | .ctz e => Sys2Proof.Machine.execCtz e s
  | .popc e => Sys2Proof.Machine.execPopc e s
  | .bswap e => Sys2Proof.Machine.execBswap e s
  | .crc32c e => Sys2Proof.Machine.execCrc32c e s
  | .addi e => Sys2Proof.Machine.execAddi e s
  | .andi e => Sys2Proof.Machine.execAndi e s
  | .ori e => Sys2Proof.Machine.execOri e s
  | .xori e => Sys2Proof.Machine.execXori e s
  | .slti e => Sys2Proof.Machine.execSlti e s
  | .sltiu e => Sys2Proof.Machine.execSltiu e s
  | .shi e => Sys2Proof.Machine.execShi e s
  | .lui e => Sys2Proof.Machine.execLui e s
  | .shlori e => Sys2Proof.Machine.execShlori e s
  | .lb e => Sys2Proof.Machine.execLb e s
  | .lbu e => Sys2Proof.Machine.execLbu e s
  | .lh e => Sys2Proof.Machine.execLh e s
  | .lhu e => Sys2Proof.Machine.execLhu e s
  | .lw e => Sys2Proof.Machine.execLw e s
  | .lwu e => Sys2Proof.Machine.execLwu e s
  | .ld e => Sys2Proof.Machine.execLd e s
  | .sb e => Sys2Proof.Machine.execSb e s
  | .sh e => Sys2Proof.Machine.execSh e s
  | .sw e => Sys2Proof.Machine.execSw e s
  | .sd e => Sys2Proof.Machine.execSd e s
  | .beq e => Sys2Proof.Machine.execBeq e s
  | .bne e => Sys2Proof.Machine.execBne e s
  | .blt e => Sys2Proof.Machine.execBlt e s
  | .bge e => Sys2Proof.Machine.execBge e s
  | .bltu e => Sys2Proof.Machine.execBltu e s
  | .bgeu e => Sys2Proof.Machine.execBgeu e s
  | .j e => Sys2Proof.Machine.execJ e s
  | .jal e => Sys2Proof.Machine.execJal e s
  | .jalr e => Sys2Proof.Machine.execJalr e s
  | .loopi e => Sys2Proof.Machine.execLoopi e s
  | .loop e => Sys2Proof.Machine.execLoop e s
  | .sin e => Sys2Proof.Machine.execSin e s
  | .sout e => Sys2Proof.Machine.execSout e s
  | .sskip e => Sys2Proof.Machine.execSskip e s
  | .vand e => Sys2Proof.Machine.execVand e s
  | .vor e => Sys2Proof.Machine.execVor e s
  | .vxor e => Sys2Proof.Machine.execVxor e s
  | .vandn e => Sys2Proof.Machine.execVandn e s
  | .vadd e => Sys2Proof.Machine.execVadd e s
  | .vsub e => Sys2Proof.Machine.execVsub e s
  | .vminu e => Sys2Proof.Machine.execVminu e s
  | .vmaxu e => Sys2Proof.Machine.execVmaxu e s
  | .vcmpeq e => Sys2Proof.Machine.execVcmpeq e s
  | .vcmpgtu e => Sys2Proof.Machine.execVcmpgtu e s
  | .vcmpgt e => Sys2Proof.Machine.execVcmpgt e s
  | .vshuf e => Sys2Proof.Machine.execVshuf e s
  | .vbsl e => Sys2Proof.Machine.execVbsl e s
  | .vsplat e => Sys2Proof.Machine.execVsplat e s
  | .vmovw e => Sys2Proof.Machine.execVmovw e s
  | .vins e => Sys2Proof.Machine.execVins e s
  | .vmask e => Sys2Proof.Machine.execVmask e s
  | .vpopc e => Sys2Proof.Machine.execVpopc e s
  | .vfirst e => Sys2Proof.Machine.execVfirst e s
  | .vcrc e => Sys2Proof.Machine.execVcrc e s
  | .vld e => Sys2Proof.Machine.execVld e s
  | .vst e => Sys2Proof.Machine.execVst e s
  | .vsin e => Sys2Proof.Machine.execVsin e s
  | .vsout e => Sys2Proof.Machine.execVsout e s
  | .vsoutm e => Sys2Proof.Machine.execVsoutm e s
  | .yield e => Sys2Proof.Machine.execYield e s
  | .exit e => Sys2Proof.Machine.execExit e s
  | .balufFence e => Sys2Proof.Machine.execBalufFence e s
  | .xwait e => Sys2Proof.Machine.execXwait e s
  | .enter e => Sys2Proof.Machine.execEnter e s
  | .tret e => Sys2Proof.Machine.execTret e s
  | .mfp e => Sys2Proof.Machine.execMfp e s
  | .mtp e => Sys2Proof.Machine.execMtp e s
  | .xfer e => Sys2Proof.Machine.execXfer e s
  | .cas e => Sys2Proof.Machine.execCas e s
  | .amoadd e => Sys2Proof.Machine.execAmoadd e s
  | .csrr e => Sys2Proof.Machine.execCsrr e s
  | .csrw e => Sys2Proof.Machine.execCsrw e s
  | .scanResident fsn => Sys2Proof.Machine.execScanResident fsn s
  | .scanStep fsn lost crc => Sys2Proof.Machine.execScanStep fsn lost crc s
  | .qosHook res => Sys2Proof.Machine.execQosHook res s
  | .hookDeadlineMiss hook q => Sys2Proof.Machine.execHookDeadlineMiss hook q s
  | .sramPatrol => Sys2Proof.Machine.execSramPatrol s
  | .dramPatrol => Sys2Proof.Machine.execDramPatrol s
  | .declare val => Sys2Proof.Machine.execDeclare val s
  | .hardFaultRepair entry => Sys2Proof.Machine.execHardFaultRepair entry s
  | .passStart => Sys2Proof.Machine.execPassStart s
  | .passStop => Sys2Proof.Machine.execPassStop s
  | .passDone => Sys2Proof.Machine.execPassDone s
  | .flipArm => Sys2Proof.Machine.execFlipArm s
  | .dramRequest ns req slot => Sys2Proof.Machine.execDramRequest ns req slot s
  | .dramRefresh sub rank => Sys2Proof.Machine.execDramRefresh sub rank s
  | .selfRefreshEntry sub => Sys2Proof.Machine.execSelfRefreshEntry sub s
  | .setPointRequest val => Sys2Proof.Machine.execSetPointRequest val s
  | .setPointChange => Sys2Proof.Machine.execSetPointChange s
  | .dramTracking sub centres => Sys2Proof.Machine.execDramTracking sub centres s
  | .postPackageRepair ok => Sys2Proof.Machine.execPostPackageRepair ok s
  | .evacuationStart val => Sys2Proof.Machine.execEvacuationStart val s
  | .evacDone => Sys2Proof.Machine.execEvacDone s
  | .cipherJob cc done job blk stall => Sys2Proof.Machine.execCipherJob cc done job blk stall s
  | .knownAnswerTest cc pipe pass => Sys2Proof.Machine.execKnownAnswerTest cc pipe pass s
  | .drbgReseed cc => Sys2Proof.Machine.execDrbgReseed cc s
  | .entropyBlock cc pass => Sys2Proof.Machine.execEntropyBlock cc pass s
  | .rekeyPass nsid => Sys2Proof.Machine.execRekeyPass nsid s
  | .alarm src => Sys2Proof.Machine.execAlarm src s
  | .force acc val => Sys2Proof.Machine.execForce acc val s
  | .raise val => Sys2Proof.Machine.execRaise val s
  | .revoke acc val => Sys2Proof.Machine.execRevoke acc val s
  | .startUp k => Sys2Proof.Machine.execStartUp k s
  | .brownOut => Sys2Proof.Machine.execBrownOut s
  | .refclkLoss => Sys2Proof.Machine.execRefclkLoss s
  | .drowseEntry group => Sys2Proof.Machine.execDrowseEntry group s
  | .groupWake group bad inEntry => Sys2Proof.Machine.execGroupWake group bad inEntry s
  | .autonomousPowerStateTransition => Sys2Proof.Machine.execAutonomousPowerStateTransition s
  | .powerStateExit src inEntry ms => Sys2Proof.Machine.execPowerStateExit src inEntry ms s
  | .housekeepingExcursion => Sys2Proof.Machine.execHousekeepingExcursion s
  | .pfail => Sys2Proof.Machine.execPfail s
  | .powerRestart => Sys2Proof.Machine.execPowerRestart s
  | .holdUpTest => Sys2Proof.Machine.execHoldUpTest s
  | .holdUpTestStart => Sys2Proof.Machine.execHoldUpTestStart s
  | .holdUpTestEnd => Sys2Proof.Machine.execHoldUpTestEnd s
  | .holdUpVoltageLow => Sys2Proof.Machine.execHoldUpVoltageLow s
  | .powerMeanCheck => Sys2Proof.Machine.execPowerMeanCheck s
  | .thermalLoop => Sys2Proof.Machine.execThermalLoop s
  | .governorFallback => Sys2Proof.Machine.execGovernorFallback s
  | .fallbackExit => Sys2Proof.Machine.execFallbackExit s
  | .governorRevert => Sys2Proof.Machine.execGovernorRevert s
  | .swap => Sys2Proof.Machine.execSwap s
  | .save => Sys2Proof.Machine.execSave s
  | .matDefault => Sys2Proof.Machine.execMatDefault s
  | .traceStart => Sys2Proof.Machine.execTraceStart s
  | .traceStop => Sys2Proof.Machine.execTraceStop s
  | .trcDone => Sys2Proof.Machine.execTrcDone s
  | .faultCollect => Sys2Proof.Machine.execFaultCollect s
  | .faultPulseEnd => Sys2Proof.Machine.execFaultPulseEnd s
  | .junctionOverTemperature sensor => Sys2Proof.Machine.execJunctionOverTemperature sensor s
  | .regCycleAssert => Sys2Proof.Machine.execRegCycleAssert s
  | .regCycleRelease => Sys2Proof.Machine.execRegCycleRelease s
  | .coldResetArmExpiry => Sys2Proof.Machine.execColdResetArmExpiry s
  | .deviceTimeMark => Sys2Proof.Machine.execDeviceTimeMark s
  | .logRecordSubmit acc val => Sys2Proof.Machine.execLogRecordSubmit acc val s
  | .repeatRecord => Sys2Proof.Machine.execRepeatRecord s
  | .healthEvaluation ring => Sys2Proof.Machine.execHealthEvaluation ring s
  | .logRdDataRead acc => Sys2Proof.Machine.execLogRdDataRead acc s
  | .levelRise step => Sys2Proof.Machine.execLevelRise step s
  | .levelBoundMissed => Sys2Proof.Machine.execLevelBoundMissed s
  | .retireClear acc unit => Sys2Proof.Machine.execRetireClear acc unit s
  | .bypass => Sys2Proof.Machine.execBypass s
  | .idcode => Sys2Proof.Machine.execIdcode s
  | .samplePreload pins => Sys2Proof.Machine.execSamplePreload pins s
  | .extest pins => Sys2Proof.Machine.execExtest pins s
  | .extestPulse pins => Sys2Proof.Machine.execExtestPulse pins s
  | .extestTrain pins => Sys2Proof.Machine.execExtestTrain pins s
  | .clamp => Sys2Proof.Machine.execClamp s
  | .highz => Sys2Proof.Machine.execHighz s
  | .debugAccessPort addr val => Sys2Proof.Machine.execDebugAccessPort addr val s
  | .wakeNDeassert => Sys2Proof.Machine.execWakeNDeassert s
  | .vddAonLoss => Sys2Proof.Machine.execVddAonLoss s
  | .mr4Read sub hot => Sys2Proof.Machine.execMr4Read sub hot s
  | .controllerEnable fn sqSize cqSize => Sys2Proof.Machine.execControllerEnable fn sqSize cqSize s
  | .malformedMctpPacket => Sys2Proof.Machine.execMalformedMctpPacket s
  | .evacuationFirstPhaseEnd => Sys2Proof.Machine.execEvacuationFirstPhaseEnd s

end Sys2Proof.Machine
end

