-- ==== Sys2Proof/Safety.lean ====
section
/-! DEFINITION. What a safe run is, in the terms the statements use: a command that answers a next state. -/
namespace Sys2Proof.Machine

/-- Command `c` run on `s` answers a next state, and that state satisfies `P`. -/
def Gives (c : Instr) (s : State) (P : State → Prop) : Prop := ∃ t, exec c s = .next t ∧ P t

/-- An outcome is safe when it is a next state: the block stops on no command (`Fault` has no case, and no arm refuses). -/
def Safe (o : Out) : Prop := ∃ t, o = .next t

/-- An admin command is in turn on its own submission queue, and completions are posted (R36, Table 16.4): what a statement
about the completion of an admin command assumes. -/
def State.inTurn (s : State) (c : Cmd) : Prop :=
  s.adminCmd c.fsn c.sqe.opc = some c ∧ c.mute = false ∧ c.tunnel = false ∧ s.postsStopped = false

/-- A command stands in the state, not muted nor tunnelled, with completions posted: what a statement about the completion
of any other command assumes. -/
def State.runs (s : State) (c : Cmd) : Prop :=
  s.cmd c.fsn = some c ∧ c.mute = false ∧ c.tunnel = false ∧ s.postsStopped = false

/-- The newest thing sent from `t` is the completion of `c` with a status, as a command of state `s`, and `c` is no longer
outstanding. -/
def State.posted (s t : State) (c : Cmd) (st : Nat) (dw0 : Nat := 0) (data : List Byte := []) (dw1 : Nat := 0) : Prop :=
  t.outbox.head? = some (.cqe c.fn c.sq (s.cqOf c.fn c.sq) c.sqe.cid st (dnrOf st) (crdOf st) dw0 dw1 data) ∧ t.cmd c.fsn = none

/-- Engine `e` is about to issue instruction `i`, of row `op` and cycles `c`: it runs, its fetch answers the word, the word
decodes to the row on this engine, its ring may run it, and in rings O and T the step's budget holds its cycles (R263, R274,
R278, R285). -/
def State.issues (s : State) (e : Nat) (op : BOp) (i : Ins) (c : Nat) : Prop :=
  isEngine e = true ∧ s.engRuns e = true ∧ s.fetchB e = .ok i.w ∧
  (∃ r, decodeB (isFe e) i.w = some r ∧ r.op = op ∧ r.cyc = c ∧ (r.v = true → (s.eng e).ring = 0)) ∧
  ((s.eng e).ring ≠ 0 → c ≤ (s.eng e).budget)

/-- Engine `e` has issued an instruction of `c` cycles: its pc and loop levels are those given, its ring stays, its cycles are
taken, and no other engine has changed (R269, R270, R285). -/
def State.issued (s t : State) (e c pc : Nat) (l : Lvl × Lvl) : Prop :=
  (∀ k, k ≠ e → t.eng k = s.eng k) ∧ (t.eng e).pc = pc % 2 ^ 64 ∧ (t.eng e).loops = l ∧ (t.eng e).ring = (s.eng e).ring ∧
  (t.eng e).cyc = (s.eng e).cyc + c ∧ (t.eng e).budget = (if (s.eng e).ring = 0 then (s.eng e).budget else (s.eng e).budget - c)

/-- The same of an instruction that falls through to the next, or to a loop's start. -/
def State.falls (s t : State) (e c : Nat) : Prop :=
  s.issued t e c (loopsNext (s.eng e).loops (s.eng e).pc).1 (loopsNext (s.eng e).loops (s.eng e).pc).2

/-- The engine's w registers of the running bank are as before but for `d`, which holds `v`; w0 reads as zero (Table 9.1). -/
def State.setsW (s t : State) (e d : Nat) (v : W64) : Prop :=
  ∀ j, (t.eng e).w j = if j = d ∧ d ≠ 0 then v else (s.eng e).w j

/-- The engine's u registers are as before but for `d`, which holds `v`. -/
def State.setsU (s t : State) (e d : Nat) (v : W256) : Prop :=
  ∀ j, (t.eng e).uv j = if j = d then v else (s.eng e).uv j

/-- No w register, no u register has changed. -/
def State.keepsW (s t : State) (e : Nat) : Prop := ∀ j, (t.eng e).w j = (s.eng e).w j
def State.keepsU (s t : State) (e : Nat) : Prop := (t.eng e).u = (s.eng e).u

/-- An instruction that touches nothing but the engine's registers: every other part of the state, and of the programs' part
everything but the engines, is as before. -/
def State.onlyEngines (s t : State) : Prop := { t with prg := s.prg } = s ∧ { t.prg with engs := s.prg.engs } = s.prg

/-- What lies in the parts of the state that have one writer each keeps its form: register fields are listed in rising
order, each value within the 32 bits of a register, and the bytes of MRAM stand in canonical form. -/
def State.Inv (s : State) : Prop :=
  risingL s.fields.items = true ∧ (∀ e ∈ s.fields.items, e.2 < 2 ^ 32) ∧ s.mram.wf 0 = true

/-- The parts of the state, as State names them; `pending`, which no command changes, is not among them. -/
inductive Part
  | outbox | free | drbg | fields | eff2 | eff4 | hiLatch | units | retRec | stamps
  | time | flt | log | mram | sched | hif | locks | nss | zones | map
  | lnd | jnl | pwr | lvl | prg | gov | med | sec | memp | dram
  deriving DecidableEq, Repr

/-- A part is the same in two states. -/
def Part.same : Part → State → State → Prop
  | .outbox, s, t => t.outbox = s.outbox
  | .free, s, t => t.free = s.free
  | .drbg, s, t => t.drbg = s.drbg
  | .fields, s, t => t.fields = s.fields
  | .eff2, s, t => t.eff2 = s.eff2
  | .eff4, s, t => t.eff4 = s.eff4
  | .hiLatch, s, t => t.hiLatch = s.hiLatch
  | .units, s, t => t.units = s.units
  | .retRec, s, t => t.retRec = s.retRec
  | .stamps, s, t => t.stamps = s.stamps
  | .time, s, t => t.time = s.time
  | .flt, s, t => t.flt = s.flt
  | .log, s, t => t.log = s.log
  | .mram, s, t => t.mram = s.mram
  | .sched, s, t => t.sched = s.sched
  | .hif, s, t => t.hif = s.hif
  | .locks, s, t => t.locks = s.locks
  | .nss, s, t => t.nss = s.nss
  | .zones, s, t => t.zones = s.zones
  | .map, s, t => t.map = s.map
  | .lnd, s, t => t.lnd = s.lnd
  | .jnl, s, t => t.jnl = s.jnl
  | .pwr, s, t => t.pwr = s.pwr
  | .lvl, s, t => t.lvl = s.lvl
  | .prg, s, t => t.prg = s.prg
  | .gov, s, t => t.gov = s.gov
  | .med, s, t => t.med = s.med
  | .sec, s, t => t.sec = s.sec
  | .memp, s, t => t.memp = s.memp
  | .dram, s, t => t.dram = s.dram

/-- The parts a command may change; every other part stays as it was whenever the command answers a next state. -/
def mayChange : Instr → List Part
  | .plainRegisterWrite _ _ _ | .offUnitAccess _ _ _ | .unassignedOffsetAccess _ _ _ | .recalibrationStart _ _
  | .debugAccessPort _ _ =>
      [.outbox, .drbg, .fields, .hiLatch, .units, .retRec, .stamps, .flt, .log, .sched, .hif, .locks, .map, .lnd, .pwr, .lvl, .prg, .gov, .med, .sec, .memp, .dram]
  | .rcRead _ _ | .broadcastRead _ _ =>
      [.outbox, .fields, .hiLatch, .flt]
  | .loReadLatch _ _ _ =>
      [.outbox, .fields, .hiLatch, .flt, .hif]
  | .fence _ _ _ | .unitReset _ _ _ | .drain _ _ _ | .resume _ _ _ | .adopt _ _ _ | .release _ _ _ | .selftest _ _ _
  | .retire _ _ _ | .unitCommand _ =>
      [.outbox, .fields, .hiLatch, .units, .retRec, .stamps, .flt, .hif, .locks, .map, .lnd, .prg, .med, .sec, .dram]
  | .unitOperationComplete _ _ _ =>
      [.outbox, .fields, .units, .stamps, .flt, .hif, .locks, .map, .prg, .med, .memp]
  | .drainTimeout _ =>
      [.outbox, .fields, .units, .hif, .locks, .map]
  | .unitPowerRequest _ _ _ _ _ =>
      [.outbox, .fields, .units, .stamps, .flt, .hif, .lnd, .pwr, .med, .sec]
  | .frameTick _ | .startUp _ =>
      [.outbox, .drbg, .fields, .eff2, .eff4, .hiLatch, .units, .retRec, .stamps, .time, .flt, .log, .mram, .sched, .hif, .locks, .nss, .zones, .map, .lnd, .jnl, .pwr, .lvl, .prg, .gov, .med, .sec, .memp, .dram]
  | .listCommit _ _ _ | .operationTimeout _ _ | .caParityError _ _ =>
      [.outbox, .fields, .stamps, .flt, .med]
  | .apply | .weightWrite _ _ =>
      [.fields, .sched]
  | .perstAssert _ | .firmwareCommit _ | .virtualizationManagement _ | .controllerReset _ | .functionLevelReset _
  | .nvmSubsystemReset =>
      [.outbox, .fields, .stamps, .flt, .log, .hif, .locks, .nss, .zones, .map, .lnd, .jnl, .lvl, .prg, .med, .memp, .dram]
  | .perstDeassert _ _ =>
      [.hif, .lvl]
  | .linkTrained _ _ _ _ | .controllerEnable _ _ _ =>
      [.hif]
  | .linkRetrain _ _ _ _ =>
      [.fields, .sched, .hif]
  | .linkDown _ =>
      [.outbox, .fields, .stamps, .flt, .log, .sched, .hif, .locks, .nss, .zones, .map, .lnd, .jnl, .lvl, .prg, .med, .memp, .dram]
  | .hostTransferFailure _ =>
      [.outbox, .fields, .stamps, .flt, .hif, .locks, .nss, .zones, .map, .lnd]
  | .doorbellWrite _ _ _ _ | .commandFetch _ _ _ | .deleteIoCq _ | .createIoSq _ | .createIoCq _ | .getFeatures _
  | .asynchronousEventRequest _ | .deviceSelfTest _ | .directiveSend _ | .directiveReceive _ | .programInventoryRead _
  | .flush _ | .write _ | .zoneManagementReceive _ | .zoneAppend _ =>
      [.outbox, .fields, .hif, .locks, .map]
  | .deleteIoSq _ | .abort _ =>
      [.outbox, .fields, .stamps, .flt, .hif, .locks, .nss, .zones, .map, .lnd, .jnl, .prg, .med, .memp, .dram]
  | .getLogPage _ =>
      [.outbox, .free, .drbg, .fields, .stamps, .flt, .log, .hif, .locks, .map, .sec]
  | .identify _ =>
      [.outbox, .free, .fields, .hif, .locks, .map]
  | .setFeatures _ =>
      [.outbox, .fields, .units, .stamps, .time, .log, .mram, .hif, .locks, .nss, .map, .lnd, .pwr, .med, .sec, .dram]
  | .namespaceManagement _ =>
      [.outbox, .fields, .stamps, .log, .mram, .hif, .locks, .nss, .zones, .map, .lnd, .jnl, .lvl, .prg, .med, .sec, .memp]
  | .namespaceAttachment _ =>
      [.outbox, .fields, .hif, .locks, .nss, .map]
  | .firmwareImageDownload _ =>
      [.outbox, .fields, .hif, .locks, .map, .lvl]
  | .nvmeMiSend _ | .nvmeMiReceive _ | .readNvmeMiDataStructure _ _ _ _ | .nvmSubsystemHealthStatusPoll _ _
  | .controllerHealthStatusPoll _ _ _ | .configurationGet _ _ _ | .configurationSet _ _ _ _ | .vpdRead _ _ _
  | .vpdWrite _ _ _ | .nvmeMiReset _ | .nvmeMiShutdown _ | .adminCommandTunnel _ _ _ | .coldResetConfirm _
  | .registerRead _ _ _ _ | .registerWrite _ _ _ _ =>
      [.outbox, .drbg, .fields, .hiLatch, .units, .retRec, .stamps, .flt, .log, .sched, .hif, .locks, .nss, .zones, .map, .lnd, .jnl, .pwr, .lvl, .prg, .gov, .med, .sec, .memp, .dram]
  | .formatNvm _ | .sanitizeCryptoErase _ =>
      [.outbox, .fields, .hif, .locks, .nss, .zones, .map, .lnd, .jnl, .med, .sec, .memp]
  | .securitySend _ | .securityReceive _ | .keyBlobInstall _ | .keyRotation _ | .keySlotZeroise _ =>
      [.outbox, .fields, .hif, .locks, .map, .sec]
  | .sanitizeBlockErase _ =>
      [.outbox, .fields, .stamps, .hif, .locks, .nss, .zones, .map, .lnd, .jnl, .med, .memp]
  | .programLoad _ =>
      [.outbox, .fields, .stamps, .hif, .locks, .map, .prg]
  | .programBind _ | .programUnbind _ | .programUnload _ | .scan _ | .scanCancel _ =>
      [.outbox, .fields, .hif, .locks, .map, .prg]
  | .programReplace _ =>
      [.outbox, .fields, .stamps, .hif, .locks, .map, .prg, .memp]
  | .read _ _ _ | .compare _ _ _ | .verify _ _ _ =>
      [.outbox, .fields, .stamps, .flt, .hif, .locks, .map, .jnl, .memp, .dram]
  | .writeZeroes _ | .rangeLockGrant _ =>
      [.outbox, .fields, .stamps, .flt, .hif, .locks, .nss, .map, .lnd, .jnl, .memp, .dram]
  | .datasetManagement _ =>
      [.outbox, .fields, .hif, .locks, .nss, .map, .jnl, .memp]
  | .copy _ _ _ =>
      [.outbox, .fields, .stamps, .flt, .hif, .locks, .nss, .zones, .map, .lnd, .jnl, .memp, .dram]
  | .zoneClose _ | .zoneFinish _ | .zoneOpen _ | .zoneReset _ | .zoneOffline _ =>
      [.outbox, .fields, .hif, .locks, .nss, .zones, .map, .lnd, .jnl, .med, .memp]
  | .controllerShutdown _ =>
      [.fields, .hif, .jnl, .med]
  | .smbusWakePacket _ _ _ _ =>
      [.outbox, .drbg, .fields, .hiLatch, .units, .retRec, .stamps, .time, .flt, .log, .mram, .sched, .hif, .locks, .nss, .zones, .map, .lnd, .jnl, .pwr, .lvl, .prg, .gov, .med, .sec, .memp, .dram]
  | .getVersion | .getCapabilities | .negotiateAlgorithms | .getDigests | .getCertificate _ _ | .challenge _
  | .getMeasurements _ | .keyExchange _ | .finish _ _ | .endSession _ | .heartbeat _ | .keyUpdate _ =>
      [.outbox, .sec]
  | .setKik _ _ | .clearKik _ | .setOpkh _ _ | .getState _ =>
      [.outbox, .fields, .sec]
  | .landingAdmit _ _ _ =>
      [.outbox, .free, .fields, .stamps, .flt, .sched, .hif, .locks, .nss, .zones, .map, .lnd, .prg, .med]
  | .landingCommit _ =>
      [.outbox, .fields, .stamps, .flt, .hif, .locks, .nss, .zones, .map, .lnd, .jnl, .med, .memp, .dram]
  | .unitHoldGrant _ =>
      [.outbox, .fields, .stamps, .flt, .sched, .map, .memp, .dram]
  | .journalGroupClose _ =>
      [.outbox, .fields, .hif, .locks, .map, .lnd, .jnl, .med, .memp]
  | .engineSwap _ =>
      [.outbox, .fields, .units, .stamps, .flt, .hif, .locks, .map, .lvl, .prg, .sec, .memp]
  | .warmRestart =>
      [.outbox, .fields, .jnl, .pwr, .lvl, .med]
  | .zoneOfflining _ =>
      [.outbox, .fields, .hif, .locks, .nss, .zones, .map, .jnl, .med]
  | .readOnlyTransition _ =>
      [.lvl]
  | .fineDemotion _ | .fold _ | .gcCopy _ _ _ _ =>
      [.outbox, .free, .fields, .stamps, .flt, .sched, .map, .lnd, .jnl, .prg, .med, .memp, .dram]
  | .gcVictimSelection _ _ =>
      [.outbox, .free, .fields, .stamps, .flt, .sched, .prg, .med]
  | .victimErase _ =>
      [.fields, .stamps, .jnl, .med]
  | .journalPageFlush =>
      [.jnl]
  | .checkpointSweep =>
      [.fields, .jnl, .med]
  | .mapPageRebuild _ =>
      [.outbox, .fields, .stamps, .flt, .map, .jnl, .memp]
  | .rebuildByScan _ _ =>
      [.fields, .map, .jnl, .memp]
  | .listRead _ _ | .streamOpen _ _ | .streamExt _ _ | .progSlc _ _ | .progQlc _ _ | .eraseSlc _ _ | .eraseQlc _ _
  | .getFeat _ _ | .setFeat _ _ =>
      [.outbox, .fields, .stamps, .flt, .sched, .map, .lnd, .jnl, .med, .memp, .dram]
  | .streamClose _ _ | .suspendResume _ _ =>
      [.fields, .med]
  | .endEntry _ | .programSuspend _ _ _ | .flashPatrol _ | .wearLevelCheck _ =>
      [.med]
  | .entryCompletion _ _ _ _ =>
      [.fields, .stamps, .lnd, .jnl, .med]
  | .recalibration _ _ _ _ =>
      [.outbox, .fields, .units, .stamps, .flt, .hif, .locks, .map, .prg, .med]
  | .codewordDecode _ _ _ _ _ _ _ _ _ _ =>
      [.outbox, .fields, .stamps, .flt, .map, .jnl, .med, .memp]
  | .slcLineClose _ _ _ =>
      [.lnd, .med]
  | .chunkRelocation _ _ _ _ _ | .refresh _ _ _ _ =>
      [.outbox, .fields, .stamps, .flt, .map, .jnl, .med]
  | .add _ | .sub _ | .and _ | .or _ | .xor _ | .andn _ | .sll _ | .srl _ | .sra _ | .ror _ | .slt _ | .sltu _ | .min _
  | .max _ | .minu _ | .maxu _ | .addw _ | .subw _ | .mul _ | .mulh _ | .mulhu _ | .div _ | .divu _ | .rem _ | .remu _
  | .clz _ | .ctz _ | .popc _ | .bswap _ | .crc32c _ | .addi _ | .andi _ | .ori _ | .xori _ | .slti _ | .sltiu _
  | .shi _ | .lui _ | .shlori _ | .beq _ | .bne _ | .blt _ | .bge _ | .bltu _ | .bgeu _ | .j _ | .jal _ | .jalr _
  | .loopi _ | .loop _ | .sin _ | .sout _ | .sskip _ | .vand _ | .vor _ | .vxor _ | .vandn _ | .vadd _ | .vsub _
  | .vminu _ | .vmaxu _ | .vcmpeq _ | .vcmpgtu _ | .vcmpgt _ | .vshuf _ | .vbsl _ | .vsplat _ | .vmovw _ | .vins _
  | .vmask _ | .vpopc _ | .vfirst _ | .vcrc _ | .vsin _ | .vsout _ | .vsoutm _ | .yield _ | .exit _ | .enter _ | .tret _
  | .mfp _ | .mtp _ | .xfer _ | .csrr _ | .csrw _ =>
      [.outbox, .fields, .units, .stamps, .flt, .sched, .hif, .locks, .map, .prg, .memp, .dram]
  | .lb _ | .lbu _ | .lh _ | .lhu _ | .ld _ | .vld _ | .balufFence _ | .xwait _ | .cas _ | .amoadd _ =>
      [.outbox, .free, .fields, .units, .stamps, .flt, .sched, .hif, .locks, .map, .prg, .memp, .dram]
  | .lw _ | .lwu _ =>
      [.outbox, .free, .fields, .hiLatch, .units, .stamps, .flt, .sched, .hif, .locks, .map, .prg, .memp, .dram]
  | .sb _ | .sh _ | .sd _ | .vst _ =>
      [.outbox, .free, .fields, .units, .stamps, .flt, .mram, .sched, .hif, .locks, .map, .prg, .memp, .dram]
  | .sw _ =>
      [.outbox, .free, .drbg, .fields, .hiLatch, .units, .retRec, .stamps, .flt, .log, .mram, .sched, .hif, .locks, .map, .lnd, .pwr, .lvl, .prg, .gov, .med, .sec, .memp, .dram]
  | .scanResident _ =>
      [.fields, .prg, .memp]
  | .scanStep _ _ _ =>
      [.outbox, .fields, .stamps, .flt, .sched, .hif, .locks, .map, .jnl, .prg, .memp, .dram]
  | .qosHook _ =>
      [.outbox, .free, .fields, .stamps, .flt, .sched, .prg]
  | .hookDeadlineMiss _ _ =>
      [.outbox, .fields, .stamps, .flt]
  | .sramPatrol | .dramPatrol | .passDone =>
      [.outbox, .fields, .stamps, .flt, .map, .lnd, .jnl, .memp, .dram]
  | .declare _ =>
      [.outbox, .fields, .stamps, .flt, .memp]
  | .hardFaultRepair _ =>
      [.outbox, .fields, .units, .stamps, .flt, .hif, .locks, .map, .prg, .memp, .dram]
  | .passStart | .passStop =>
      [.fields, .memp]
  | .flipArm | .malformedMctpPacket =>
      [.fields]
  | .dramRequest _ _ _ | .setPointRequest _ | .setPointChange | .evacuationStart _ =>
      [.fields, .dram]
  | .dramRefresh _ _ | .dramTracking _ _ =>
      [.outbox, .fields, .stamps, .flt, .dram]
  | .selfRefreshEntry _ | .mr4Read _ _ =>
      [.dram]
  | .postPackageRepair _ =>
      [.outbox, .fields, .stamps, .flt, .memp, .dram]
  | .evacDone =>
      [.fields, .units, .retRec, .dram]
  | .cipherJob _ _ _ _ _ =>
      [.fields, .sched, .sec]
  | .knownAnswerTest _ _ _ =>
      [.outbox, .fields, .units, .stamps, .flt, .hif, .locks, .map, .prg, .sec]
  | .drbgReseed _ =>
      [.sec]
  | .entropyBlock _ _ | .force _ _ =>
      [.outbox, .drbg, .fields, .stamps, .flt, .sec]
  | .rekeyPass _ =>
      [.outbox, .free, .fields, .stamps, .flt, .sched, .map, .lnd, .jnl, .prg, .med, .sec, .memp, .dram]
  | .alarm _ =>
      [.outbox, .drbg, .stamps, .flt, .sec]
  | .raise _ | .revoke _ _ =>
      [.fields, .sec]
  | .brownOut | .refclkLoss =>
      [.outbox, .flt, .hif, .pwr, .lvl]
  | .drowseEntry _ =>
      [.units, .med]
  | .groupWake _ _ _ =>
      [.outbox, .fields, .units, .stamps, .flt, .pwr, .med]
  | .autonomousPowerStateTransition | .wakeNDeassert =>
      [.outbox, .fields, .units, .stamps, .time, .log, .mram, .lnd, .pwr, .med, .sec, .dram]
  | .powerStateExit _ _ _ =>
      [.outbox, .fields, .units, .stamps, .time, .flt, .log, .mram, .pwr, .med, .dram]
  | .housekeepingExcursion =>
      [.outbox, .fields, .units, .stamps, .time, .flt, .log, .mram, .lnd, .pwr, .med, .sec, .dram]
  | .pfail =>
      [.outbox, .fields, .pwr, .lvl]
  | .powerRestart =>
      [.hif, .pwr]
  | .holdUpTest | .holdUpTestStart =>
      [.outbox, .pwr]
  | .holdUpTestEnd =>
      [.outbox, .fields, .stamps, .flt, .log, .mram, .hif, .locks, .map, .lnd, .pwr]
  | .holdUpVoltageLow =>
      [.outbox, .fields, .stamps, .log, .mram, .hif, .locks, .map, .lnd, .pwr]
  | .powerMeanCheck | .governorFallback | .governorRevert =>
      [.outbox, .fields, .stamps, .flt, .gov]
  | .thermalLoop | .fallbackExit | .swap | .save | .matDefault | .traceStart | .traceStop =>
      [.gov]
  | .trcDone =>
      [.fields, .gov]
  | .faultCollect =>
      [.outbox, .fields, .units, .flt, .log, .mram, .hif, .locks, .map]
  | .faultPulseEnd | .regCycleAssert | .regCycleRelease =>
      [.outbox, .flt]
  | .junctionOverTemperature _ =>
      [.outbox, .stamps, .flt, .gov]
  | .coldResetArmExpiry =>
      [.flt]
  | .deviceTimeMark =>
      [.time]
  | .logRecordSubmit _ _ =>
      [.fields, .stamps, .log]
  | .repeatRecord =>
      [.stamps, .log, .mram]
  | .healthEvaluation _ =>
      [.stamps, .flt, .log, .mram]
  | .logRdDataRead _ =>
      [.outbox, .fields]
  | .levelRise _ =>
      [.outbox, .fields, .stamps, .log, .mram, .hif, .locks, .map, .lvl, .sec]
  | .levelBoundMissed =>
      [.fields, .lvl]
  | .retireClear _ _ =>
      [.outbox, .fields, .lvl]
  | .bypass | .idcode | .samplePreload _ | .extest _ | .extestPulse _ | .extestTrain _ | .clamp | .highz =>
      [.outbox, .lvl]
  | .vddAonLoss =>
      [.outbox, .time, .flt, .gov]
  | .evacuationFirstPhaseEnd =>
      [.prg, .memp, .dram]

end Sys2Proof.Machine
end

