-- ==== Sys2Proof/WellFormed.lean ====
section
/-! DEFINITION. Which commands are well formed: every part of the block they name exists (Tables 1.1 and 1.2, R10 to R13). -/
namespace Sys2Proof
open Machine

/-- The units, engines, groups, channels, LUNs, quadrants, clusters, subchannels, ports, paths and functions that a command
names are ones the block has. What else an operand says is for the command's meaning to judge. -/
def Instr.wf : Instr → Bool
  | .plainRegisterWrite acc _ _ | .rcRead acc _ | .loReadLatch acc _ _ | .offUnitAccess acc _ _ | .broadcastRead acc _
  | .unassignedOffsetAccess acc _ _ | .weightWrite acc _ | .recalibrationStart acc _ | .force acc _ | .revoke acc _
  | .logRecordSubmit acc _ | .logRdDataRead acc => accOk acc
  | .fence acc unit _ | .unitReset acc unit _ | .drain acc unit _ | .resume acc unit _ | .adopt acc unit _
  | .release acc unit _ | .selftest acc unit _ | .retire acc unit _ | .unitPowerRequest acc unit _ _ _
  | .retireClear acc unit => accOk acc && isUnit unit
  | .cipherJob cc _ _ _ _ | .drbgReseed cc | .entropyBlock cc _ => decide (cc < 4)
  | .knownAnswerTest cc pipe _ => decide (cc < 4) && decide (pipe < 16)
  | .listRead ch _ | .streamOpen ch _ | .streamExt ch _ | .streamClose ch _ | .progSlc ch _ | .progQlc ch _
  | .eraseSlc ch _ | .eraseQlc ch _ | .getFeat ch _ | .setFeat ch _ | .endEntry ch | .entryCompletion ch _ _ _
  | .operationTimeout ch _ | .caParityError ch _ | .recalibration ch _ _ _ => decide (ch < 128)
  | .programSuspend ch lun _ | .suspendResume ch lun | .codewordDecode ch lun _ _ _ _ _ _ _ _
  | .chunkRelocation ch lun _ _ _ | .refresh ch lun _ _ => decide (ch < 128) && decide (lun < 32)
  | .dramRefresh d _ | .selfRefreshEntry d | .dramTracking d _ | .mr4Read d _ => decide (d < 8)
  | .doorbellWrite fn _ _ _ | .commandFetch fn _ _ | .controllerReset fn | .functionLevelReset fn
  | .controllerShutdown fn | .controllerEnable fn _ _ => decide (fn ≤ 1025)
  | .listCommit g _ _ => decide (g < 16)
  | .drowseEntry group | .groupWake group _ _ => decide (group < 16)
  | .readNvmeMiDataStructure path _ _ _ | .nvmSubsystemHealthStatusPoll path _ | .controllerHealthStatusPoll path _ _
  | .configurationGet path _ _ | .configurationSet path _ _ _ | .vpdRead path _ _ | .vpdWrite path _ _
  | .nvmeMiReset path | .nvmeMiShutdown path | .coldResetConfirm path | .registerRead path _ _ _
  | .registerWrite path _ _ _ => decide (path < 3)
  | .adminCommandTunnel path fn _ => decide (path < 3) && decide (fn ≤ 1025)
  | .perstAssert port | .perstDeassert port _ | .linkTrained port _ _ _ | .linkRetrain port _ _ _ | .linkDown port => decide (port < 2)
  | .zoneOfflining q | .readOnlyTransition q | .fold q | .gcVictimSelection q _ | .rebuildByScan q _
  | .slcLineClose q _ _ | .flashPatrol q | .wearLevelCheck q | .hookDeadlineMiss _ q => decide (q < 4)
  | .add e | .sub e | .and e | .or e | .xor e | .andn e | .sll e | .srl e | .sra e | .ror e | .slt e | .sltu e
  | .min e | .max e | .minu e | .maxu e | .addw e | .subw e | .mul e | .mulh e | .mulhu e | .div e | .divu e | .rem e
  | .remu e | .clz e | .ctz e | .popc e | .bswap e | .crc32c e | .addi e | .andi e | .ori e | .xori e | .slti e
  | .sltiu e | .shi e | .lui e | .shlori e | .lb e | .lbu e | .lh e | .lhu e | .lw e | .lwu e | .ld e | .sb e | .sh e
  | .sw e | .sd e | .beq e | .bne e | .blt e | .bge e | .bltu e | .bgeu e | .j e | .jal e | .jalr e | .loopi e
  | .loop e | .sin e | .sout e | .sskip e | .vand e | .vor e | .vxor e | .vandn e | .vadd e | .vsub e | .vminu e
  | .vmaxu e | .vcmpeq e | .vcmpgtu e | .vcmpgt e | .vshuf e | .vbsl e | .vsplat e | .vmovw e | .vins e | .vmask e
  | .vpopc e | .vfirst e | .vcrc e | .vld e | .vst e | .vsin e | .vsout e | .vsoutm e | .yield e | .exit e
  | .balufFence e | .xwait e | .enter e | .tret e | .mfp e | .mtp e | .xfer e | .cas e | .amoadd e | .csrr e | .csrw e => isEngine e
  | .unitOperationComplete unit _ _ | .drainTimeout unit => isUnit unit
  | .frameTick _ | .apply | .hostTransferFailure _ | .deleteIoSq _ | .deleteIoCq _ | .createIoSq _ | .createIoCq _
  | .getLogPage _ | .identify _ | .abort _ | .setFeatures _ | .getFeatures _ | .asynchronousEventRequest _
  | .namespaceManagement _ | .namespaceAttachment _ | .firmwareCommit _ | .firmwareImageDownload _ | .deviceSelfTest _
  | .directiveSend _ | .directiveReceive _ | .virtualizationManagement _ | .nvmeMiSend _ | .nvmeMiReceive _
  | .formatNvm _ | .securitySend _ | .securityReceive _ | .sanitizeBlockErase _ | .sanitizeCryptoErase _
  | .programLoad _ | .programBind _ | .programUnbind _ | .programReplace _ | .programUnload _
  | .programInventoryRead _ | .keyBlobInstall _ | .keyRotation _ | .keySlotZeroise _ | .unitCommand _ | .flush _
  | .write _ | .read _ _ _ | .compare _ _ _ | .writeZeroes _ | .datasetManagement _ | .verify _ _ _ | .copy _ _ _
  | .zoneClose _ | .zoneFinish _ | .zoneOpen _ | .zoneReset _ | .zoneOffline _ | .zoneManagementReceive _
  | .zoneAppend _ | .scan _ | .scanCancel _ | .nvmSubsystemReset | .smbusWakePacket _ _ _ _ | .getVersion
  | .getCapabilities | .negotiateAlgorithms | .getDigests | .getCertificate _ _ | .challenge _ | .getMeasurements _
  | .keyExchange _ | .finish _ _ | .endSession _ | .heartbeat _ | .keyUpdate _ | .setKik _ _ | .clearKik _
  | .setOpkh _ _ | .getState _ | .rangeLockGrant _ | .landingAdmit _ _ _ | .landingCommit _ | .unitHoldGrant _
  | .journalGroupClose _ | .engineSwap _ | .warmRestart | .fineDemotion _ | .gcCopy _ _ _ _ | .victimErase _
  | .journalPageFlush | .checkpointSweep | .mapPageRebuild _ | .scanResident _ | .scanStep _ _ _ | .qosHook _
  | .sramPatrol | .dramPatrol | .declare _ | .hardFaultRepair _ | .passStart | .passStop | .passDone | .flipArm
  | .dramRequest _ _ _ | .setPointRequest _ | .setPointChange | .postPackageRepair _ | .evacuationStart _ | .evacDone
  | .rekeyPass _ | .alarm _ | .raise _ | .startUp _ | .brownOut | .refclkLoss | .autonomousPowerStateTransition
  | .powerStateExit _ _ _ | .housekeepingExcursion | .pfail | .powerRestart | .holdUpTest | .holdUpTestStart
  | .holdUpTestEnd | .holdUpVoltageLow | .powerMeanCheck | .thermalLoop | .governorFallback | .fallbackExit
  | .governorRevert | .swap | .save | .matDefault | .traceStart | .traceStop | .trcDone | .faultCollect
  | .faultPulseEnd | .junctionOverTemperature _ | .regCycleAssert | .regCycleRelease | .coldResetArmExpiry
  | .deviceTimeMark | .repeatRecord | .healthEvaluation _ | .levelRise _ | .levelBoundMissed | .bypass | .idcode
  | .samplePreload _ | .extest _ | .extestPulse _ | .extestTrain _ | .clamp | .highz | .debugAccessPort _ _
  | .wakeNDeassert | .vddAonLoss | .malformedMctpPacket | .evacuationFirstPhaseEnd => true

end Sys2Proof
end

