-- ==== Sys2Proof/Certificates/Slice0/Obligations.lean ====
section
/-! DEFINITION. The statements about the LW128 that are to be proved, family by family. -/
open Sys2Proof Sys2Proof.Machine

/-! ### Register accesses -/

/-- R16: the unit port never broadcasts; with SYS_UNIT_SEL naming no unit, 0xFFFF among them, a read of the port
returns 0xBADD_0000 OR the address, a write is dropped, and the accessor's ACC_FAULT is set. -/
def Obligations.UnitPortNamesNoUnit : Prop :=
  ∀ (s : State) (acc : Acc) (addr v : W32), accOk acc = true → addr.toNat % 4 = 0 → 0x104 ≤ addr.toNat → addr.toNat < 0x180 →
    assigned addr.toNat = true → s.getF F.SYS_UNIT_SEL_UNIT (accIdx acc) < 65536 →
    isUnit (s.getF F.SYS_UNIT_SEL_UNIT (accIdx acc)) = false →
    (∃ t, exec (.offUnitAccess acc addr none) s = .next t ∧
      t.outbox = .reg (accIdx acc) addr.toNat (0xBADD0000 ||| s.getF F.SYS_UNIT_SEL_UNIT (accIdx acc)) :: s.outbox ∧
      t.getF F.SYS_ACC_STAT_ACC_FAULT (accIdx acc) = 1) ∧
    (∃ t, exec (.offUnitAccess acc addr (some v)) s = .next t ∧ t = s.accFault acc addr.toNat ∧ t.units = s.units ∧
      t.getF F.SYS_ACC_STAT_ACC_FAULT (accIdx acc) = 1)

/-- R24, R27, R485: an access that reaches a unit that is off, a read of a broadcast, and an access to an offset that
names no register: what a read answers, that a write is dropped, and that ACC_FAULT is the only effect. R24: what an
access fault records in the accessor's own copies, and that it changes nothing else. -/
def Obligations.AccessesThatReachNothingFault : Prop :=
  (∀ (s : State) (acc : Acc) (addr v : W32), accOk acc = true → addr.toNat % 4 = 0 → addr.toNat < regEnd →
    (∀ a, s.place acc addr.toNat = .off a →
      exec (.offUnitAccess acc addr none) s = .next ((s.accFault acc addr.toNat).send (.reg (accIdx acc) addr.toNat (0xBADD0000 + a % 65536))) ∧
      exec (.offUnitAccess acc addr (some v)) s = .next (s.accFault acc addr.toNat)) ∧
    (∀ k, s.place acc addr.toNat = .all k →
      exec (.broadcastRead acc addr) s =
        .next ((s.accFault acc addr.toNat).send (.reg (accIdx acc) addr.toNat (0xBADD0000 + (k * 4096 + 0xFFF) % 65536)))) ∧
    (assigned addr.toNat = false →
      exec (.unassignedOffsetAccess acc addr none) s = .next ((s.accFault acc addr.toNat).send (.reg (accIdx acc) addr.toNat 0)) ∧
      exec (.unassignedOffsetAccess acc addr (some v)) s = .next (s.accFault acc addr.toNat))) ∧
  (∀ (s : State) (acc : Acc) (addr : Nat),
    (s.accFault acc addr).getF F.SYS_ACC_STAT_ACC_FAULT (accIdx acc) = 1 ∧
    (s.accFault acc addr).getF F.SYS_ACC_CNT_OFF_CNT (accIdx acc) = (s.getF F.SYS_ACC_CNT_OFF_CNT (accIdx acc) + 1) % 65536 ∧
    (s.accFault acc addr).getF F.SYS_ACC_ADDR_ADDR (accIdx acc) = addr % 2 ^ 32 ∧
    (∀ (f : Fld) (u : Nat), fkey f u ≠ fkey F.SYS_ACC_STAT_ACC_FAULT (accIdx acc) → fkey f u ≠ fkey F.SYS_ACC_CNT_OFF_CNT (accIdx acc) →
      fkey f u ≠ fkey F.SYS_ACC_ADDR_ADDR (accIdx acc) → (s.accFault acc addr).getF f u = s.getF f u) ∧
    { s.accFault acc addr with fields := s.fields } = s)

/-- R6, R7: a write stored in a register gives each field what its type says, and leaves every other register as it
was. -/
def Obligations.FieldTypes : Prop :=
  ∀ (s t : State) (r : Reg) (u v : Nat), s.storeReg r u v = some t →
    (∀ f ∈ r.flds, f.reg = r.addr) → (∀ f ∈ r.flds, f.lo < 32) → r.flds.Pairwise (fun f g => f.lo ≠ g.lo) → u < 4096 →
    (∀ f ∈ r.flds,
      (f.ty = .rw → f.fits v = true ∧ t.getF f u = f.of v % 2 ^ f.width) ∧
      (f.ty = .w1c → f.of v = 0 → t.getF f u = s.getF f u) ∧
      (f.ty = .w1c → f.of v ≠ 0 → t.getF f u = (s.getF f u &&& (2 ^ f.width - 1 - f.of v)) % 2 ^ f.width) ∧
      (f.ty = .w1s → t.getF f u = (s.getF f u ||| f.of v) % 2 ^ f.width) ∧
      (f.ty = .ro ∨ f.ty = .rc ∨ f.ty = .wo → t.getF f u = s.getF f u)) ∧
    (∀ (g : Fld) (w : Nat), g.reg ≠ r.addr → g.lo < 32 → w < 4096 → t.getF g w = s.getF g w) ∧
    { t with fields := s.fields } = s

/-- R26, R487: a write of a select register takes the index into the accessor's own copy; a read of an RC field
answers its value and clears it (R6), a read of a latched LO register latches its HI half for the accessor (R70), one
of VW_TIME_LO in BAR0 for its function (R101, R490), and FCH_CAL written with START makes recalibration due (R482). -/
def Obligations.PlainWritesAndReads : Prop :=
  (∀ (s : State) (acc : Acc) (v : W32), accOk acc = true →
    exec (.plainRegisterWrite acc 0x700000 v) s = .next (s.setF F.LND_SEL_IDX (v.toNat % 4096) (accIdx acc)) ∧
    exec (.plainRegisterWrite acc 0x800000 v) s = .next (s.setF F.FCH_SEL_IDX (v.toNat % 4096) (accIdx acc)) ∧
    exec (.plainRegisterWrite acc 0xC00000 v) s = .next (s.setF F.DRC_SEL_IDX (v.toNat % 4096) (accIdx acc)) ∧
    exec (.plainRegisterWrite acc 0xE00000 v) s = .next (s.setF F.CC_SEL_IDX (v.toNat % 4096) (accIdx acc))) ∧
  (∀ (s : State) (acc : Acc), accOk acc = true →
    exec (.rcRead acc 0x600004) s =
      .next ((s.setF F.RLT_HWM_HWM 0).send (.reg (accIdx acc) 0x600004 (s.view (accIdx acc) 0 ⟨0x600004, false, [F.RLT_HWM_HWM]⟩)))) ∧
  (∀ (s : State) (acc : Acc), accOk acc = true →
    exec (.loReadLatch acc 0x100008 none) s =
      .next ((s.onHiLatch fun m => m.set 0 (accIdx acc * 2 ^ 32 + 0x10000C) (s.time.frame / 2 ^ 32 % 2 ^ 32)).send
        (.reg (accIdx acc) 0x100008 (s.time.frame % 2 ^ 32)))) ∧
  (∀ (s : State) (fn : Nat) (acc : Acc), s.fnExists fn = true →
    (Gives (.loReadLatch acc 0x20008 (some (fn, 8))) s fun t => t.outbox = .reg (0x10000 + fn) 0x20008 (s.time.ms % 2 ^ 48) :: s.outbox ∧
      (t.ctrl fn).vwHi = s.time.ms / 2 ^ 32 % 65536) ∧
    (Gives (.loReadLatch acc 0x2000C (some (fn, 4))) s fun t => t.outbox = .reg (0x10000 + fn) 0x2000C ((s.ctrl fn).vwHi % 2 ^ 32) :: s.outbox ∧ t.hif = s.hif) ∧
    (Gives (.loReadLatch acc 0x8 (some (fn, 4))) s fun t => t.outbox = .reg (0x10000 + fn) 0x8 0x20000 :: s.outbox ∧ t.hif = s.hif)) ∧
  (∀ (s : State) (acc : Acc) (c : Nat) (v : W32), accOk acc = true → s.place acc 0x800040 = .copy c →
    F.FCH_CAL_SHIFT_MAX.fits (putBit v.toNat 31 true) = true → F.FCH_CAL_TDELTA.fits (putBit v.toNat 31 true) = true →
    F.FCH_CAL_PERIOD.fits (putBit v.toNat 31 true) = true →
    exec (.recalibrationStart acc v) s = .next ((s.storeAt 0x800040 c (putBit v.toNat 31 true)).calDue c))

/-! ### The unit tree -/

/-- R19 (Table 1.11): an operation that the command port accepts starts: the STATE it gives the unit, LAST_OP, BUSY,
and for ADOPT and RELEASE which ME serves the group. No operation runs on the unit, its STATE is one listed for the
operation, and no case of R19, R479 or R480 stands against it. -/
def Obligations.UnitOperationsStart : Prop :=
  ∀ (s : State) (acc : Acc) (u : Nat), isUnit u = true → (s.unit u).run = none →
    (3 ≤ uKind u → uKind u ≤ 7 → s.lastUp u = false → s.unitState u = .up ∨ s.unitState u = .drowse ∨ s.unitState u = .draining →
      Gives (.fence acc u 0) s fun t => (t.unit u).st = .fenced ∧ (t.unit u).lastOp = 1 ∧ (t.unit u).run.isSome = true) ∧
    (2 ≤ uKind u → uKind u ≤ 7 → s.unitState u = .fenced →
      Gives (.unitReset acc u 0) s fun t => (t.unit u).st = .resetting ∧ (t.unit u).lastOp = 2 ∧ (t.unit u).run.isSome = true ∧
        (t.unit u).own0 = false ∧ (t.unit u).own1 = false ∧ (t.unit u).own2 = false ∧ (t.unit u).own3 = (s.unit u).own3) ∧
    (2 ≤ uKind u → uKind u ≤ 7 → s.unitState u = .up →
      Gives (.drain acc u 0) s fun t => (t.unit u).st = .draining ∧ (t.unit u).lastOp = 3 ∧ (t.unit u).run.isSome = true) ∧
    (2 ≤ uKind u → uKind u ≤ 7 → s.unitState u = .draining →
      Gives (.resume acc u 0) s fun t => (t.unit u).st = .up ∧ (t.unit u).lastOp = 4 ∧ (t.unit u).run.isSome = true) ∧
    (2 ≤ uKind u → uKind u ≤ 7 → s.unitState u = .fenced ∨ s.unitState u = .draining →
      Gives (.selftest acc u 0) s fun t => (t.unit u).st = .selftest ∧ (t.unit u).lastOp = 7 ∧ (t.unit u).run.isSome = true) ∧
    (2 ≤ uKind u → uKind u ≤ 7 → s.unitState u = .fenced → (uKind u = 3 → s.otherRetired (uIdx u) = false) → s.lastUp u = false →
      Gives (.retire acc u 0) s fun t => (t.unit u).st = .retired ∧ (t.unit u).lastOp = 8 ∧ u ∈ t.retRec) ∧
    (∀ m g : Nat, u = uEng (eME m) → m < 16 → g < 16 → g / 4 = m / 4 → s.unitState u = .up → s.serverMe g ≠ m → (s.servedBy m).length < 4 →
      Gives (.adopt acc u (uGroup g)) s fun t => t.serverMe g = m ∧ (t.unit u).lastOp = 5) ∧
    (∀ m g : Nat, u = uEng (eME m) → m < 16 → g < 16 → s.serverMe g = m → s.unitState u = .up → s.unitState (uEng (eME g)) = .up →
      Gives (.release acc u (uGroup g)) s fun t => t.serverMe g = g ∧ (t.unit u).lastOp = 6)

/-- R19, R20, R480: an operation that completes at once leaves only LAST_OP and its CODE; one written while BUSY is
dropped and sets the writer's CMD_REJ. R19, R514: how a running operation ends. A UNIT_RESET or SELFTEST that fails
leaves the unit FENCED (a self-test of a draining unit DRAINING) with CODE SELFTEST_FAIL; a DRAIN beyond its 64 frames
returns to UP with CODE DRAIN_TIMEOUT. -/
def Obligations.UnitOperationsRefusedOrEnded : Prop :=
  (∀ (s : State) (acc : Acc) (u arg : Nat), isUnit u = true →
    ∀ p ∈ [(Instr.fence acc u arg, UOp.fence), (.unitReset acc u arg, .unitReset), (.drain acc u arg, .drain), (.resume acc u arg, .resume),
           (.adopt acc u arg, .adopt), (.release acc u arg, .release), (.selftest acc u arg, .selftest), (.retire acc u arg, .retire)],
      ((s.unit u).run = none → ∀ code, s.judgeOp u p.2 arg = some code →
        exec p.1 s = .next (s.onUnit u fun x => { x with lastOp := p.2.code, code := code })) ∧
      ((s.unit u).run.isSome = true →
        exec p.1 s = .next (s.raiseEvt F.SYS_ACC_STAT_CMD_REJ F.SYS_ACC_CNT_REJ_CNT (accIdx acc)))) ∧
  (∀ (s : State) (u : Nat) (tr : ChanIn) (k : Nat), isUnit u = true → (s.unit u).runFsn = none →
    ((s.unit u).run = some (.unitReset, k) → uKind u ≠ 3 →
      Gives (.unitOperationComplete u true tr) s fun t => (t.unit u).st = .up ∧ (t.unit u).run = none ∧ (t.unit u).code = 0) ∧
    ((s.unit u).run = some (.unitReset, k) →
      Gives (.unitOperationComplete u false tr) s fun t => (t.unit u).st = .fenced ∧ (t.unit u).run = none ∧ (t.unit u).code = 4) ∧
    ((s.unit u).run = some (.selftest, k) →
      Gives (.unitOperationComplete u false tr) s fun t =>
        (t.unit u).st = (if k = 1 then .draining else .fenced) ∧ (t.unit u).run = none ∧ (t.unit u).code = 4) ∧
    (∀ op ∈ [UOp.fence, .resume, .adopt, .release, .retire], (s.unit u).run = some (op, k) → ∀ pass,
      Gives (.unitOperationComplete u pass tr) s fun t => t.unit u = { s.unit u with run := none, code := 0 }) ∧
    ((s.unit u).run = some (.drain, k) →
      (s.domainIdle u = true → ∀ pass, Gives (.unitOperationComplete u pass tr) s fun t => t.unit u = { s.unit u with run := none, code := 0 }) ∧
      ((s.unit u).runAt + 64 ≤ s.time.frame →
        exec (.drainTimeout u) s = .next (s.onUnit u fun x => { x with run := none, code := 1, st := .up })) ∧
      (s.time.frame < (s.unit u).runAt + 64 → exec (.drainTimeout u) s = .next s)))

/-- R21, R23, R401: SYS_UNIT_PWR of a domain's head. REQ on brings the domain up; REQ 1 takes one without work in
flight to that power at once, and lets another drain; one that has drained for 64 frames without coming to an end
stays up with REFUSED set and counted. SYS_RETIRE_CLR with GO from the management path notes a unit whose RETIRED
record stands (R481). -/
def Obligations.UnitPower : Prop :=
  (∀ (s : State) (acc : Acc) (u : Nat) (v : W32) (e : Bool) (bad : List (Nat × Nat)), isUnit u = true → ownPwr u = true → uKind u ≠ 2 →
    (F.SYS_UNIT_PWR_REQ.of v.toNat = 2 →
      Gives (.unitPowerRequest acc u v e bad) s fun t => (t.unit u).cur = 2 ∧ (t.unit u).req = 2 ∧ (t.unit u).auto = v.toNat.testBit 4) ∧
    (uKind u < 7 → F.SYS_UNIT_PWR_REQ.of v.toNat = 1 →
      (s.domainIdle u = true → Gives (.unitPowerRequest acc u v e bad) s fun t => (t.unit u).cur = 1 ∧ (t.unit u).req = 1 ∧ (t.unit u).pdown = none) ∧
      (s.domainIdle u = false → Gives (.unitPowerRequest acc u v e bad) s fun t =>
        (t.unit u).cur = (s.unit u).cur ∧ (t.unit u).req = 1 ∧ (t.unit u).pdown = some (1, s.time.frame)))) ∧
  (∀ (s : State) (u p f : Nat) (x : UnitSt), s.units.items = [(u, x)] → x.pdown = some (p, f) → s.domainIdle u = false →
    (f + 64 ≤ s.time.frame → s.powerDrains = s.onUnit u fun y => { y with pdown := none, refused := true, refCnt := inc16 y.refCnt }) ∧
    (s.time.frame < f + 64 → s.powerDrains = s)) ∧
  (∀ (s : State) (u : Nat), isUnit u = true → u ∈ s.retRec →
    Gives (.retireClear .mgmt u) s fun t => u ∈ t.lvl.retClr ∧ t.retRec = s.retRec)

/-! ### The frame and the scheduler -/

/-- R40, R42, R51: a tick advances the 48-bit frame number by one and puts the accepted share set in force; while the
core is not running, and in PS4, nothing ticks; in a halted device past its step 4 only time advances (R448). R51:
APPLY takes the staged set when the five shares sum to 256, JOURNAL is at least 8 and GC_EMERG is at most HOST + GC:
the set is pending and replaces an earlier one; else it leaves the shares in force and a pending set as they are, and
raises FRM_EVT.CFG_ERR. R57: a weight of 0 is dropped with FRM_EVT.CFG_ERR; another weight of the tenant that
FRM_LED_IDX names waits, the weight in use staying as it is; at the next step 4 it takes effect. R43, R209: a list
committed in time waits for the next frame with its COMMIT bit set; a late one is discarded, counted and reported as
an F0 event. -/
def Obligations.FrameTicksSharesAndLists : Prop :=
  (∀ (s : State) (i : TickIn),
    (s.lvl.core = true → s.pwr.cur ≠ 4 →
      Gives (.frameTick i) s fun t => t.time.frame = (s.time.frame + 1) % 2 ^ 48 ∧
        (s.heldInReset = false → t.sched.shares = s.sched.pendShares.getD s.sched.shares) ∧
        (s.heldInReset = true → { t with time := s.time } = s)) ∧
    ((s.lvl.core = false ∨ s.pwr.cur = 4) → exec (.frameTick i) s = .next s)) ∧
  (∀ s : State,
    (s.staged.host + s.staged.gc + s.staged.scrub + s.staged.scan + s.staged.journal = 256 → 8 ≤ s.staged.journal →
      s.staged.emerg ≤ s.staged.host + s.staged.gc →
      exec .apply s = .next { s with sched := { s.sched with pendShares := some s.staged } }) ∧
    (s.staged.host + s.staged.gc + s.staged.scrub + s.staged.scan + s.staged.journal ≠ 256 ∨ s.staged.journal < 8 ∨
      s.staged.host + s.staged.gc < s.staged.emerg →
      Gives .apply s fun t => t.sched = s.sched ∧ t.getF F.FRM_EVT_CFG_ERR = 1 ∧
        t.getF F.FRM_EVT_CNT0_CFG_ERR_CNT = (s.getF F.FRM_EVT_CNT0_CFG_ERR_CNT + 1) % 65536)) ∧
  ((∀ (s : State) (acc : Acc) (w : W32),
    (w.toNat % 65536 = 0 → Gives (.weightWrite acc w) s fun t => t.sched = s.sched ∧ t.getF F.FRM_EVT_CFG_ERR = 1) ∧
    (w.toNat % 65536 ≠ 0 → Gives (.weightWrite acc w) s fun t =>
      t.sched.weightShown (s.getF F.FRM_LED_IDX_TID (accIdx acc)) = w.toNat % 65536 ∧ t.sched.ledger = s.sched.ledger ∧
      t.fields = s.fields ∧
      (risingL t.sched.pendW.items = true →
        (t.sched.weightsEffect.ledger.get {} (s.getF F.FRM_LED_IDX_TID (accIdx acc))).weight = w.toNat % 65536))) ∧
  (∀ (s : State) (g mask : Nat), g < 16 →
    (Gives (.listCommit g mask false) s fun t => ∀ c, c < 8 → mask.testBit c = true → (s.getF F.GRP_LIST_CTL_COMMIT g).testBit c = false →
      (t.getF F.GRP_LIST_CTL_COMMIT g).testBit c = true ∧ (t.chan (8 * g + c)).next.isSome = true) ∧
    (Gives (.listCommit g mask true) s fun t => t.med = s.med ∧ t.getF F.FRM_EVT_LATE_LIST = 1 ∧ t.getF F.GRP_EVT_LATE g = 1 ∧
      t.flt.queue.map (fun e => (e.code, e.unit)) = s.flt.queue.map (fun e => (e.code, e.unit)) ++ [(0x0002, uEng (eME (s.serverMe g)))])))

/-! ### Resets, links, doorbells and the fetch of commands -/

/-- R121, Table 4.3: each kind of reset puts the controllers it reaches in their reset state, CSTS.CFS staying set in
the halt (R449), and leaves none of their own commands that would still post a completion; the reset of a link also
takes it down, PERST1# being ignored in the x16 configuration (R73, R76). -/
def Obligations.ResetsReachTheirFunctions : Prop :=
  ∀ (s : State) (fn p : Nat), p < 2 →
    (let done := fun (t : State) (f : Nat) => t.ctrl f = { cfs := (s.ctrl f).cfs && s.halted } ∧
        ∀ c ∈ t.hif.cmds, c.fn = f → c.tunnel = true ∨ c.mute = true
     Gives (.controllerReset fn) s (fun t => done t fn) ∧
     Gives (.functionLevelReset fn) s (fun t => done t fn ∧ (fn < 2 → ∀ f, 2 ≤ f → s.portOf f = fn → done t f)) ∧
     ((s.port p).up = true →
       Gives (.linkDown p) s fun t => (∀ f, s.portOf f = p → done t f) ∧ (t.port p).up = false ∧ t.getF F.HIF_EVT_LINK_DOWN = 1) ∧
     ((p = 0 ∨ s.hif.bifur = true) →
       Gives (.perstAssert p) s fun t => (∀ f, s.portOf f = p → done t f) ∧ (t.port p).up = false ∧ (t.port p).perst = true) ∧
     (s.lvl.core = true →
       Gives .nvmSubsystemReset s fun t => (∀ f, done t f) ∧ (t.port 0).up = false ∧ (t.port 1).up = false ∧ t.units = s.units ∧ t.sched = s.sched ∧ t.sec = s.sec) ∧
     (s.hif.bifur = false → Gives (.perstAssert 1) s fun t => t.hif.p0 = s.hif.p0 ∧ t.hif.ctrls = s.hif.ctrls ∧ t.hif.cmds = s.hif.cmds))

/-- R72, R74, R75, R102, R508: PERST# rises, and where PERST0# was asserted the strap is sampled; a port that may
train comes up at the highest common rate and widest common width, with FLIT mode at Gen6 and Gen7, and its DMA
credit; a retrained port keeps its credit until the next step 4 and grants no DMA meanwhile, and no command fails
(R76). -/
def Obligations.LinksTrain : Prop :=
  ∀ (s : State) (p g w : Nat) (flit strap : Bool), p < 2 →
    (Gives (.perstDeassert p strap) s fun t => (t.port p).perst = false ∧ (p = 0 → t.hif.bifur = if (s.port 0).perst then strap else s.hif.bifur) ∧ (p = 1 → t.hif.bifur = s.hif.bifur) ∧
      { t with hif := s.hif, lvl := s.lvl } = s) ∧
    (g ≠ 0 → (s.port p).perst = false → p = 0 ∨ s.hif.bifur = true →
      let gen := min g (s.getF F.HIF_CFG_MAX_GEN)
      let width := min (min w (s.getF F.HIF_CFG_MAX_WIDTH)) (if s.hif.bifur then 3 else 4)
      let fl : Bool := decide (6 ≤ gen) || flit
      (Gives (.linkTrained p g w flit) s fun t => (t.port p).up = true ∧ (t.port p).gen = gen ∧ (t.port p).width = width ∧ (t.port p).flit = fl ∧
        (t.port p).credit = dmaCredit gen width fl ∧ { t with hif := s.hif } = s) ∧
      ((s.port p).up = true →
        Gives (.linkRetrain p g w flit) s fun t => (t.port p).up = true ∧ (t.port p).gen = gen ∧ (t.port p).width = width ∧
          (t.port p).credit = (s.port p).credit ∧ (t.port p).credPend = some (dmaCredit gen width fl) ∧ t.sched.dmaLeft.get 0 p = 0 ∧
          t.hif.cmds = s.hif.cmds ∧
          ((s.port p).gen ≠ gen ∨ (s.port p).width ≠ width → t.getF F.HIF_EVT_RETRAIN = 1)))

/-- R82: a doorbell takes a value below the queue's size; one that names no queue, one being deleted, or a value
beyond its size is dropped, raises HIF_EVT.INV_DB and reports an error event. R36, R80, R81: the fetch unit takes the
entry at the head of the queue whose turn it is, gives it the next FSN, and leaves every other queue's head; one that
the checks of R84 refuse is aborted at once with their status. R78: a host that sets CC.EN enables a controller with
its admin queues. R124, R189: with nothing outstanding and every group closed CC.SHN completes, and the last
controller's leaves the journal clean. R77: a failed host transfer ends the command that owns it with Data Transfer
Error, an F1 event, and a write so ended leaves the map and the journal as they were. The status values and field
places of NVMe are the model's (PRESUMED, assumption 13). -/
def Obligations.DoorbellsAndFetch : Prop :=
  (∀ (s : State) (fn q v : Nat), (s.ctrl fn).en = true →
    let bad := fun (t : State) => (t.ctrl fn).sqs = (s.ctrl fn).sqs ∧ (t.ctrl fn).cqs = (s.ctrl fn).cqs ∧ t.getF F.HIF_EVT_INV_DB = 1 ∧
      ((s.ctrl fn).aers = [] → ∃ a, a.typ = 0 ∧ (t.ctrl fn).aens = (s.ctrl fn).aens ++ [a])
    (∀ k, (s.ctrl fn).sqs.get none q = some k → k.deleting = false → v < k.size →
      Gives (.doorbellWrite fn q false v) s fun t => (t.ctrl fn).sqs.get none q = some { k with tail := v } ∧
        (∀ j, j ≠ q → (t.ctrl fn).sqs.get none j = (s.ctrl fn).sqs.get none j) ∧ { t with hif := s.hif } = s) ∧
    (∀ k, (s.ctrl fn).cqs.get none q = some k → v < k.size →
      Gives (.doorbellWrite fn q true v) s fun t => (t.ctrl fn).cqs.get none q = some { k with head := v } ∧
        (t.ctrl fn).sqs = (s.ctrl fn).sqs ∧ { t with hif := s.hif } = s) ∧
    ((s.ctrl fn).sqs.get none q = none ∨ (∃ k, (s.ctrl fn).sqs.get none q = some k ∧ (k.size ≤ v ∨ k.deleting = true)) →
      Gives (.doorbellWrite fn q false v) s fun t => bad t) ∧
    ((s.ctrl fn).cqs.get none q = none ∨ (∃ k, (s.ctrl fn).cqs.get none q = some k ∧ k.size ≤ v) →
      Gives (.doorbellWrite fn q true v) s fun t => bad t)) ∧
  ((∀ (s : State) (fn sq : Nat) (q : Sqe) (k : Sq), (s.ctrl fn).en = true → s.hif.fetchStop = false → s.lvl.core = true → s.pwr.cur < 3 →
    (s.ctrl fn).sqs.get none sq = some k → k.deleting = false → k.head ≠ k.tail → s.fetchTurn fn sq = true →
    (∀ d ∈ s.hif.cmds, d.fsn < s.hif.fsn) →
    let st := if sq = 0 then s.adminStatus fn (decide (fn < 2)) q else s.ioStatus fn q
    Gives (.commandFetch fn sq q) s fun t => t.hif.fsn = s.hif.fsn + 1 ∧
      (t.ctrl fn).sqs.get none sq = some { k with head := (k.head + 1) % k.size } ∧
      (∀ j, j ≠ sq → (t.ctrl fn).sqs.get none j = (s.ctrl fn).sqs.get none j) ∧
      (st = stOk → ∃ c, t.hif.cmds = s.hif.cmds ++ [c] ∧ c.fsn = s.hif.fsn ∧ c.fn = fn ∧ c.sq = sq ∧ c.sqe = q ∧ c.ph = .fetched ∧
        c.frame = s.time.frame) ∧
      (st ≠ stOk → t.hif.cmds = s.hif.cmds ∧
        (s.postsStopped = false → t.outbox = .cqe fn sq k.cq q.cid st (dnrOf st) (crdOf st) 0 0 [] :: s.outbox))) ∧
  (∀ (s : State) (fn a b : Nat), s.fnExists fn = true → (s.ctrl fn).en = false → s.lvl.core = true → (s.port (s.portOf fn)).up = true →
    1 ≤ s.lvl.level → 2 ≤ a → a ≤ 4096 → 2 ≤ b → b ≤ 4096 →
    Gives (.controllerEnable fn a b) s fun t => (t.ctrl fn).en = true ∧ (t.ctrl fn).shst = 0 ∧
      (t.ctrl fn).sqs.get none 0 = some { size := a, cq := 0 } ∧ (t.ctrl fn).cqs.get none 0 = some { size := b } ∧ { t with hif := s.hif } = s) ∧
  (∀ (s : State) (fn : Nat), (s.ctrl fn).en = true → (s.outstanding (· == fn)).isEmpty = true → s.jnl.groups.isEmpty = true →
    Gives (.controllerShutdown fn) s fun t => (t.ctrl fn).shst = 2 ∧ (s.lastController fn = true → t.jnl.clean = true)) ∧
  (∀ (s : State) (c : Cmd), s.runs c → c.ph = .reading ∨ c.ph = .landing →
    Gives (.hostTransferFailure c.fsn) s fun t => s.posted t c stTransferError ∧ t.map.coarse = s.map.coarse ∧ t.jnl = s.jnl ∧
      ∃ e ∈ t.flt.queue, e.code = 0x0102 ∧ e.fsn = c.fsn))

/-! ### Admin commands -/

/-- R82, R84, R93: an I/O queue is created where its identifier is free and allocated, its size legal and its
completion queue present; it then holds the size and the queue it posts to, and its doorbells stand at 0. A queue with
nothing in flight is deleted; a completion queue still used is not. Every other queue stays. The status values and
field places of NVMe are the model's (PRESUMED, assumption 13). -/
def Obligations.QueuesAreCreatedAndDeleted : Prop :=
  ∀ (s : State) (c : Cmd), s.inTurn c →
    let q := c.sqe.cdw10 % 65536
    let size := c.sqe.cdw10 / 65536 % 65536
    let cq := c.sqe.cdw11 / 65536 % 65536
    (c.sqe.opc = 0x05 → q ≠ 0 → q ≤ s.allocatedQ c.fn true → (s.ctrl c.fn).cqs.get none q = none → size ≠ 0 →
      (c.sqe.cdw11.testBit 1 = true → c.sqe.cdw11 / 65536 < s.assignedV c.fn) →
      Gives (.createIoCq c.fsn) s fun t => s.posted t c stOk ∧ (t.ctrl c.fn).cqs.get none q = some { size := size + 1 } ∧
        (t.ctrl c.fn).sqs = (s.ctrl c.fn).sqs ∧ ∀ j, j ≠ q → (t.ctrl c.fn).cqs.get none j = (s.ctrl c.fn).cqs.get none j) ∧
    (c.sqe.opc = 0x01 → q ≠ 0 → q ≤ s.allocatedQ c.fn false → (s.ctrl c.fn).sqs.get none q = none → size ≠ 0 → cq ≠ 0 →
      ((s.ctrl c.fn).cqs.get none cq).isSome = true →
      Gives (.createIoSq c.fsn) s fun t => s.posted t c stOk ∧ (t.ctrl c.fn).sqs.get none q = some { size := size + 1, cq := cq } ∧
        (t.ctrl c.fn).cqs = (s.ctrl c.fn).cqs ∧ ∀ j, j ≠ q → (t.ctrl c.fn).sqs.get none j = (s.ctrl c.fn).sqs.get none j) ∧
    (c.sqe.opc = 0x04 → q ≠ 0 → ((s.ctrl c.fn).cqs.get none q).isSome = true →
      let used := (s.ctrl c.fn).sqs.items.any (fun e => e.1 != 0 && (match e.2 with | some k => k.cq == q | none => false))
      (used = false → Gives (.deleteIoCq c.fsn) s fun t => s.posted t c stOk ∧ (t.ctrl c.fn).cqs.get none q = none) ∧
      (used = true → Gives (.deleteIoCq c.fsn) s fun t => s.posted t c stQueueDeletion ∧ (t.ctrl c.fn).cqs = (s.ctrl c.fn).cqs)) ∧
    (c.sqe.opc = 0x00 → q ≠ 0 → ((s.ctrl c.fn).sqs.get none q).isSome = true → s.sqCmds c.fn q = [] →
      Gives (.deleteIoSq c.fsn) s fun t => s.posted t c stOk ∧ (t.ctrl c.fn).sqs.get none q = none ∧ (t.ctrl c.fn).cqs = (s.ctrl c.fn).cqs)

/-- Table 3.5, R80, R86, R87, R140: Set Features changes the value it names where it is accepted, and nothing but the
completion and the error log where it is not; Get Features answers the current, default or saved value, or what the
feature allows. Power states PS3 and PS4 complete at once, and are entered then or wanted. The status values and field
places of NVMe are the model's (PRESUMED, assumption 13). -/
def Obligations.FeaturesAreSetAndRead : Prop :=
  ∀ (s : State) (c : Cmd), s.inTurn c →
    let fid := c.sqe.cdw10 % 256
    (c.sqe.opc = 0x09 →
      (s.setStatus c ≠ stOk → Gives (.setFeatures c.fsn) s fun t => s.posted t c (s.setStatus c) ∧ t.hif.saved = s.hif.saved ∧
        t.hif.ctrls = s.hif.ctrls ∧ t.nss = s.nss ∧ t.pwr = s.pwr ∧ t.time = s.time) ∧
      (s.setStatus c = stOk → fid = 0x06 → Gives (.setFeatures c.fsn) s fun t => s.posted t c stOk ∧ (t.ctrl c.fn).wce = c.sqe.cdw11.testBit 0) ∧
      (s.setStatus c = stOk → fid = 0x0E → Gives (.setFeatures c.fsn) s fun t => s.posted t c stOk ∧
        t.time.host = some (leAt (padTo 8 (c.sqe.data.take 8)) 0 6, s.time.ms)) ∧
      (s.setStatus c = stOk → fid = 0xC0 → ∀ n, s.ns c.sqe.nsid = some n → Gives (.setFeatures c.fsn) s fun t => s.posted t c stOk ∧
        t.ns c.sqe.nsid = some { n with bind := some (c.sqe.cdw11 % 4096, bits c.sqe.cdw11 13 12) }) ∧
      (s.setStatus c = stOk → fid = 0xC1 → Gives (.setFeatures c.fsn) s fun t => s.posted t c stOk ∧
        t.hif.defTid.get 0 c.tenantFn = c.sqe.cdw11 % 4096) ∧
      (s.setStatus c = stOk → fid = 0x1D → Gives (.setFeatures c.fsn) s fun t => s.posted t c stOk ∧ t.hif.fdp = c.sqe.cdw12.testBit 0) ∧
      (s.setStatus c = stOk → fid = 0x02 → c.sqe.cdw11 % 32 ≤ 2 → Gives (.setFeatures c.fsn) s fun t =>
        t.pwr.cur = c.sqe.cdw11 % 32 ∧ c.fsn ∈ t.pwr.pmWait ∧ (t.cmd c.fsn).isSome = true) ∧
      (s.setStatus c = stOk → fid = 0x02 → 2 < c.sqe.cdw11 % 32 → Gives (.setFeatures c.fsn) s fun t =>
        t.cmd c.fsn = none ∧ (t.pwr.cur = c.sqe.cdw11 % 32 ∨ t.pwr.want = some (c.sqe.cdw11 % 32))) ∧
      (s.setStatus c = stOk → fid ∉ [0x02, 0x06, 0x0E, 0x1D, 0xC0, 0xC1] → Gives (.setFeatures c.fsn) s fun t =>
        s.posted t c stOk (if fid = 0x07 then s.featValue c else 0) ∧ t.feat (featFn fid c.fn) c.featKey = s.featValue c)) ∧
    (c.sqe.opc = 0x0A → featIds.contains fid = true → (featPf fid = true → c.ringO = true) →
      (fid = 0xC0 → (s.ns c.sqe.nsid).isSome = true) → (fid = 0xC1 → c.tenantFn ≤ 1025) →
      (bits c.sqe.cdw10 10 8 = 0 → Gives (.getFeatures c.fsn) s fun t =>
        s.posted t c stOk (s.featNow c) (s.featData c (s.feat (featFn fid c.fn) c.featKey)) ∧ t.hif.ctrls = s.hif.ctrls) ∧
      (bits c.sqe.cdw10 10 8 = 1 → Gives (.getFeatures c.fsn) s fun t =>
        s.posted t c stOk (s.featDefault c) (s.featData c 0) ∧ t.hif.ctrls = s.hif.ctrls) ∧
      (bits c.sqe.cdw10 10 8 = 2 → Gives (.getFeatures c.fsn) s fun t =>
        s.posted t c stOk (s.featSaved c) (s.featData c ((s.hif.saved.get none c.saveKey).getD 0)) ∧ t.hif.ctrls = s.hif.ctrls) ∧
      (bits c.sqe.cdw10 10 8 = 3 → Gives (.getFeatures c.fsn) s fun t =>
        s.posted t c stOk (4 + b2n (featSaves fid) + 2 * b2n (fid == 0xC0)) ∧ t.hif.ctrls = s.hif.ctrls))

/-- Table 3.2, R88: an event that waits completes the request that comes, and a request with none waiting waits; Abort
stops a command of the same function that is not yet executed, and leaves one admitted to media; self-test, directives
and virtualization change what they name (R79); Identify and Get Log Page return their pages (R90, R395, R457). Table
3.6: the change lists a log page returns are cleared when it is read without Retain Asynchronous Event, and kept with
it. The status values and field places of NVMe are the model's (PRESUMED, assumption 13). -/
def Obligations.OtherAdminCommandsAndLogPages : Prop :=
  (∀ (s : State) (c : Cmd), s.inTurn c →
    (c.sqe.opc = 0x0C → (s.ctrl c.fn).aers.length < 16 →
      ((s.ctrl c.fn).aens = [] → Gives (.asynchronousEventRequest c.fsn) s fun t =>
        (t.ctrl c.fn).aers = (s.ctrl c.fn).aers ++ [c.fsn] ∧ (t.cmd c.fsn).isSome = true ∧ t.outbox = s.outbox) ∧
      (∀ a l, (s.ctrl c.fn).aens = a :: l → Gives (.asynchronousEventRequest c.fsn) s fun t =>
        s.posted t c stOk a.dw0 ∧ (t.ctrl c.fn).aens = l ∧ (t.ctrl c.fn).aers = (s.ctrl c.fn).aers)) ∧
    (c.sqe.opc = 0x08 →
      (∀ d, (s.sqCmds c.fn (c.sqe.cdw10 % 65536)).find? (fun d => d.sqe.cid == c.sqe.cdw10 / 65536 % 65536 && d.fsn != c.fsn) = some d →
        d.ph = .fetched → Gives (.abort c.fsn) s fun t => s.posted t c stOk 0 ∧ t.cmd d.fsn = none) ∧
      ((s.sqCmds c.fn (c.sqe.cdw10 % 65536)).find? (fun d => d.sqe.cid == c.sqe.cdw10 / 65536 % 65536 && d.fsn != c.fsn) = none →
        Gives (.abort c.fsn) s fun t => s.posted t c stOk 1) ∧
      (∀ d, (s.sqCmds c.fn (c.sqe.cdw10 % 65536)).find? (fun d => d.sqe.cid == c.sqe.cdw10 / 65536 % 65536 && d.fsn != c.fsn) = some d →
        d.ph = .reading → Gives (.abort c.fsn) s fun t => s.posted t c stOk 1 ∧ ∀ k, k ≠ c.fsn → t.cmd k = s.cmd k)) ∧
    (c.sqe.opc = 0x14 → c.sqe.cdw10 % 16 = 1 ∨ c.sqe.cdw10 % 16 = 2 → s.hif.dst = 0 →
      Gives (.deviceSelfTest c.fsn) s fun t => s.posted t c stOk ∧ t.hif.dst = c.sqe.cdw10 % 16) ∧
    (c.sqe.opc = 0x14 → c.sqe.cdw10 % 16 = 15 → Gives (.deviceSelfTest c.fsn) s fun t => s.posted t c stOk ∧ t.hif.dst = 0) ∧
    (c.sqe.opc = 0x19 → bits c.sqe.cdw11 15 8 = 0 → c.sqe.cdw11 % 256 = 1 → bits c.sqe.cdw12 15 8 = 0 →
      Gives (.directiveSend c.fsn) s fun t => s.posted t c stOk) ∧
    (c.sqe.opc = 0x1A → bits c.sqe.cdw11 15 8 = 0 → c.sqe.cdw11 % 256 = 1 →
      Gives (.directiveReceive c.fsn) s fun t => s.posted t c stOk 0 (padTo 4096 (padTo 32 [1] ++ [1]))) ∧
    (c.sqe.opc = 0x1C → c.fn < 2 → c.sqe.cdw10 % 16 = 9 → s.secondaryOf c.fn (c.sqe.cdw10 / 65536 % 65536) = true →
      s.hif.flexQ.get 0 (c.sqe.cdw10 / 65536 % 65536) ≠ 0 → s.hif.flexV.get 0 (c.sqe.cdw10 / 65536 % 65536) ≠ 0 →
      Gives (.virtualizationManagement c.fsn) s fun t => s.posted t c stOk ∧ t.hif.online.get false (c.sqe.cdw10 / 65536 % 65536) = true) ∧
    (c.sqe.opc = 0x1C → c.fn < 2 → c.sqe.cdw10 % 16 = 8 → s.secondaryOf c.fn (c.sqe.cdw10 / 65536 % 65536) = true →
      s.hif.online.get false (c.sqe.cdw10 / 65536 % 65536) = false → bits c.sqe.cdw10 10 8 = 0 → c.sqe.cdw11 % 65536 ≤ 4096 →
      c.sqe.cdw11 % 65536 ≤ s.flexFreeQ + s.hif.flexQ.get 0 (c.sqe.cdw10 / 65536 % 65536) →
      Gives (.virtualizationManagement c.fsn) s fun t => s.posted t c stOk (c.sqe.cdw11 % 65536) ∧
        t.hif.flexQ.get 0 (c.sqe.cdw10 / 65536 % 65536) = c.sqe.cdw11 % 65536) ∧
    (c.sqe.opc = 0x1C → c.fn < 2 → c.sqe.cdw10 % 16 = 7 → s.secondaryOf c.fn (c.sqe.cdw10 / 65536 % 65536) = true →
      Gives (.virtualizationManagement c.fsn) s fun t => t.cmd c.fsn = none ∧ t.hif.online.get false (c.sqe.cdw10 / 65536 % 65536) = false ∧
        t.hif.flexQ.get 0 (c.sqe.cdw10 / 65536 % 65536) = 0 ∧ t.hif.flexV.get 0 (c.sqe.cdw10 / 65536 % 65536) = 0) ∧
    (c.sqe.opc = 0x06 → ∀ d, s.idData c = .ok d → Gives (.identify c.fsn) s fun t => s.posted t c stOk 0 d) ∧
    (c.sqe.opc = 0x02 → logIds.contains c.lid = true → c.lid ≠ 0xC0 → c.lid ≠ 0xC3 → c.logStatus (s.logPage c c.lid).length = stOk →
      Gives (.getLogPage c.fsn) s fun t => s.posted t c stOk 0 (((s.logPage c c.lid).drop c.lpo).take c.logLen)) ∧
    (c.sqe.opc = 0x02 → c.lid = 0xC0 → c.lpo = 0 → c.logStatus (s.evidenceOf c.lsi).length = stOk →
      Gives (.getLogPage c.fsn) s fun t => s.posted t c stOk 0 ((s.evidenceOf c.lsi).take c.logLen) ∧
        t.sec.evidence.get [] c.path = s.evidenceOf c.lsi) ∧
    (c.sqe.opc = 0x02 → c.lid = 0xC3 → c.lpo = 0 → c.logStatus (s.snapPage s.snapNow).length = stOk →
      Gives (.getLogPage c.fsn) s fun t => s.posted t c stOk 0 ((s.snapPage s.snapNow).take c.logLen))) ∧
  (∀ (s : State) (c : Cmd), s.inTurn c → c.sqe.opc = 0x02 → c.logStatus (s.logPage c c.lid).length = stOk →
    (c.lid = 0x04 → Gives (.getLogPage c.fsn) s fun t => (t.ctrl c.fn).changedNs = if c.rae then (s.ctrl c.fn).changedNs else []) ∧
    (c.lid = 0xBF → Gives (.getLogPage c.fsn) s fun t => (t.ctrl c.fn).changedZones =
      if c.rae then (s.ctrl c.fn).changedZones else (s.ctrl c.fn).changedZones.filter (·.1 != c.sqe.nsid)) ∧
    (c.lid = 0xC2 → c.ringO = true → Gives (.getLogPage c.fsn) s fun t =>
      t.flt.first = if c.lsp.testBit 0 = true ∧ 608 ≤ c.lpo + c.logLen then none else s.flt.first))

/-- R135, R136, R140, R156, R163, R379: Namespace Management creates a namespace under the lowest free NSID with its
granules and key slot, and deletes one with no command outstanding on it; Namespace Attachment attaches and detaches;
Format NVM and Sanitize take the exclusive locks of whole namespaces, and then leave each one empty, a format under
its new format (R105, R383). R383: a format or a sanitize that holds its locks, with no cipher job on the namespaces'
slots, empties them. The status values and field places of NVMe are the model's (PRESUMED, assumption 13). -/
def Obligations.NamespacesAreManagedAndEmptied : Prop :=
  (∀ (s : State) (c : Cmd), s.inTurn c →
    (c.sqe.opc = 0x0D → c.sqe.cdw10 % 16 = 0 → s.createStatus c (nsOf c) = stOk →
      Gives (.namespaceManagement c.fsn) s fun t => s.posted t c stOk (s.freeNsid.getD 0) ∧
        t.ns (s.freeNsid.getD 0) = some { nsOf c with granules := s.pickGranules (nsOf c).granulesNeeded, slot := s.freeNsid.getD 0 } ∧
        ∀ n, n ≠ s.freeNsid.getD 0 → t.ns n = s.ns n) ∧
    (c.sqe.opc = 0x0D → c.sqe.cdw10 % 16 = 1 → c.sqe.nsid ≠ 0xFFFFFFFF → ∀ n, s.ns c.sqe.nsid = some n → s.nsBusy [(c.sqe.nsid, n)] = false →
      Gives (.namespaceManagement c.fsn) s fun t => t.ns c.sqe.nsid = none ∧ t.cmd c.fsn = none ∧ ∀ m, m ≠ c.sqe.nsid → t.ns m = s.ns m) ∧
    (c.sqe.opc = 0x15 → c.sqe.cdw10 % 16 = 0 → ∀ n, s.ns c.sqe.nsid = some n → c.ctrlList ≠ [] → c.ctrlList.length ≤ 2047 →
      (∀ f ∈ c.ctrlList, f ≤ 1025 ∧ (f = 1 → s.hif.bifur = true) ∧ f ∉ n.attach) →
      Gives (.namespaceAttachment c.fsn) s fun t => t.cmd c.fsn = none ∧ t.ns c.sqe.nsid = some { n with attach := n.attach ++ c.ctrlList.eraseDups }) ∧
    (c.sqe.opc = 0x80 → s.formatStatus c = stOk → s.myTurn c = true → (∀ l ∈ s.locks, l.fsn ≠ c.fsn) →
      Gives (.formatNvm c.fsn) s fun t => ∀ e ∈ s.formatNs c, ∃ l ∈ t.locks, l.fsn = c.fsn ∧ l.ns = e.1 ∧ l.excl = true ∧ l.lo = 0) ∧
    (c.sqe.opc = 0x84 → c.sanact = 4 → s.myTurn c = true → (∀ l ∈ s.locks, l.fsn ≠ c.fsn) →
      Gives (.sanitizeCryptoErase c.fsn) s fun t => ∀ e ∈ s.allNs, ∃ l ∈ t.locks, l.fsn = c.fsn ∧ l.ns = e.1 ∧ l.excl = true ∧ l.lo = 0) ∧
    (c.sqe.opc = 0x84 → c.sanact = 2 → s.lvl.rdonly = false → s.myTurn c = true → (∀ l ∈ s.locks, l.fsn ≠ c.fsn) →
      Gives (.sanitizeBlockErase c.fsn) s fun t => ∀ e ∈ s.allNs, ∃ l ∈ t.locks, l.fsn = c.fsn ∧ l.ns = e.1 ∧ l.excl = true ∧ l.lo = 0)) ∧
  (∀ (s : State) (c : Cmd) (nsid : Nat) (n : Ns), s.cmd c.fsn = some c → c.sq = 0 → c.ph = .running → s.slotBusy [(nsid, n)] = false →
    (c.sqe.opc = 0x80 → s.formatNs c = [(nsid, n)] →
      Gives (.formatNvm c.fsn) s fun t => t.cmd c.fsn = none ∧ t.ns nsid = some (s.formatted c nsid n) ∧ (∀ m, m ≠ nsid → t.ns m = s.ns m)) ∧
    (c.sqe.opc = 0x84 → c.sanact = 4 → s.allNs = [(nsid, n)] → s.ns nsid = some n →
      Gives (.sanitizeCryptoErase c.fsn) s fun t => t.cmd c.fsn = none ∧ t.ns nsid = some { n with nuse := 0, resv := 0 }) ∧
    (c.sqe.opc = 0x84 → c.sanact = 2 → s.allNs = [(nsid, n)] → s.ns nsid = some n →
      Gives (.sanitizeBlockErase c.fsn) s fun t => t.cmd c.fsn = none ∧ t.ns nsid = some { n with nuse := 0, resv := 0 } ∧
        t.med.segs = {}))

/-! ### I/O commands, landing and commit -/

/-- R33, R41, R105, R107, R147, R154, R171, Table 6.1: a read takes its shared range lock, or none in a zoned
namespace, and is admitted to media; it looks its blocks up once, its data is then due over the host link, and at its
end it returns what the blocks hold: Read gives the data, Compare compares them with the host's, and Verify returns
none. A block that is unmapped is zeros with metadata of all ones, one mapped to ZERO is zeros, one in the landing
buffer or on the media its data. R154, R243: a block whose media read can be neither decoded nor rebuilt ends the read
with Unrecovered Read Error, and the quadrant's event for a poisoned sector is raised. The status values and field
places of NVMe are the model's (PRESUMED, assumption 13). -/
def Obligations.ReadsReturnTheBlocksOrPoison : Prop :=
  ((∀ (s : State) (c : Cmd) (n : Ns), s.runs c → c.sq ≠ 0 → s.ns c.sqe.nsid = some n →
    ∀ p ∈ [(0x02, fun a b => Instr.read c.fsn a b), (0x05, fun a b => Instr.compare c.fsn a b), (0x0C, fun a b => Instr.verify c.fsn a b)],
    c.sqe.opc = p.1 →
      let keys := (rangeBlocks n c.sqe.slba c.sqe.cnt).map fun b => b.1 * 16 + b.2
      (c.ph = .fetched → s.myTurn c = true → s.noKey n = true → Gives (p.2 [] []) s fun t => s.posted t c stKeyUnavailable) ∧
      (c.ph = .fetched → s.myTurn c = true → s.noKey n = false → n.zoned = true →
        Gives (p.2 [] []) s fun t => t.locks = s.locks ∧ (t.cmd c.fsn).map (·.ph) = some .reading) ∧
      (c.ph = .fetched → s.myTurn c = true → s.noKey n = false → n.zoned = false →
        ((s.onLocks (· ++ [c.ownLock false])).lockFree c.fsn = true → Gives (p.2 [] []) s fun t =>
          t.locks = (s.locks ++ [c.ownLock false]).map (fun l => if l.fsn = c.fsn then { l with held := true } else l) ∧
          (t.cmd c.fsn).map (·.ph) = some .reading) ∧
        ((s.onLocks (· ++ [c.ownLock false])).lockFree c.fsn = false → Gives (p.2 [] []) s fun t =>
          t.locks = s.locks ++ [c.ownLock false] ∧ (t.cmd c.fsn).map (·.ph) = some .lockWait)) ∧
      (c.ph = .reading → c.found = [] → (s.walkAll keys).pagesOk keys = true → Gives (p.2 [] []) s fun t =>
        (t.cmd c.fsn).map (·.found) = some ((s.walkAll keys).seenRange n c.sqe.nsid c.sqe.slba c.sqe.cnt) ∧
        (t.cmd c.fsn).map (·.left) = some (if c.sqe.opc = 0x0C then 0 else c.sqe.cnt)) ∧
      (c.ph = .reading → c.found ≠ [] → c.left = 0 → ∀ lost crc d u,
        s.readRange n c.sqe.nsid c.fsn lost crc c.sqe.slba 0 c.found = (.data d, u) → n.readGuard c c.sqe.cnt d = stOk →
        Gives (p.2 lost crc) s fun t => (∀ l ∈ t.locks, l.fsn ≠ c.fsn) ∧
          (c.sqe.opc = 0x02 → s.posted t c stOk 0 (n.handed c c.sqe.cnt d)) ∧
          (c.sqe.opc = 0x05 → s.posted t c (if n.handed c c.sqe.cnt d = c.sqe.data then stOk else stCompare)) ∧
          (c.sqe.opc = 0x0C → s.posted t c stOk)) ∧
      (c.ph = .reading → c.found ≠ [] → c.left = 0 → ∀ lost crc st u,
        s.readRange n c.sqe.nsid c.fsn lost crc c.sqe.slba 0 c.found = (.fails st, u) →
        Gives (p.2 lost crc) s fun t => s.posted t c st ∧ ∀ l ∈ t.locks, l.fsn ≠ c.fsn)) ∧
  (∀ (s : State) (n : Ns) (nsid lba fsn : Nat) (lost crc : Bool),
    s.readBlock n nsid lba .unmapped fsn lost crc = (.data n.blank, s) ∧
    s.readBlock n nsid lba .zero fsn lost crc = (.data (zeros n.blockBytes), s) ∧
    s.readBlock n nsid lba .poison fsn lost crc = (.fails stUnrecovered, s) ∧
    (∀ a b sl sec x, s.lookup (n.key lba) = .landing sl sec → s.lnd.secs.get none (sl * 4096 + sec) = some x →
      s.readSector sl sec uFront = (true, s) → s.fabricHits (uLnd sl) = false →
      s.readBlock n nsid lba (.landing a b) fsn lost false = (.data (if x.info.unwritten then n.blank else x.data), s)) ∧
    (∀ ch lun page cw m, s.med.secs.get none (mloc ch lun page cw) = some m → s.beyondRebuild ch lun page = false → m.info.ns = nsid →
      s.keyFor n m.info.wsn = some m.key → s.fabricHits (uCC (ch / 32)) = false →
      s.readBlock n nsid lba (.media ch lun page cw) fsn false false = (.data (if m.info.unwritten then n.blank else m.data), s)))) ∧
  (∀ (s : State) (c : Cmd) (n : Ns) (ch lun page cw : Nat), s.runs c → c.sq ≠ 0 → s.ns c.sqe.nsid = some n →
    c.ph = .reading → c.sqe.opc = 0x02 → c.left = 0 → ch < 128 → c.found = [.media ch lun page cw] →
    Gives (.read c.fsn [0] []) s fun t => s.posted t c stUnrecovered ∧ t.getF F.QD_MED_EVT_POISON (ch / 32) = 1 ∧
      ∃ e ∈ t.flt.queue, e.code = 0x0109 ∧ e.unit = uQuad (ch / 32))

/-- R105 to R107, R111, R117, R142, R144, R149, R153, R160, R166: what each I/O command that writes does at its turn.
The status values and field places of NVMe are the model's (PRESUMED, assumption 13). -/
def Obligations.WritesBegin : Prop :=
  ∀ (s : State) (c : Cmd) (n : Ns), s.runs c → c.sq ≠ 0 → s.ns c.sqe.nsid = some n → s.myTurn c = true → c.ph = .fetched →
    let free := fun (ls : List Lock) => (s.onLocks (· ++ ls)).lockFree c.fsn
    let held := fun (ls : List Lock) => (s.locks ++ ls).map (fun l => if l.fsn = c.fsn then { l with held := true } else l)
    (c.sqe.opc = 0x01 → s.badHandle c n = true → Gives (.write c.fsn) s fun t => s.posted t c stInvalidField) ∧
    (c.sqe.opc = 0x01 → s.badHandle c n = false → s.noKey n = false → n.zoned = true →
      Gives (.write c.fsn) s fun t => (t.cmd c.fsn).map (·.ph) = some .admitWait ∧ t.locks = s.locks) ∧
    (c.sqe.opc = 0x01 → s.badHandle c n = false → s.noKey n = false → n.zoned = false →
      (free [c.ownLock true] = true → Gives (.write c.fsn) s fun t => (t.cmd c.fsn).map (·.ph) = some .admitWait ∧ t.locks = held [c.ownLock true]) ∧
      (free [c.ownLock true] = false → Gives (.write c.fsn) s fun t => (t.cmd c.fsn).map (·.ph) = some .lockWait ∧ t.locks = s.locks ++ [c.ownLock true])) ∧
    (c.sqe.opc = 0x7D → s.noKey n = false → c.sqe.slba % zsze n.fmt = 0 →
      Gives (.zoneAppend c.fsn) s fun t => (t.cmd c.fsn).map (·.ph) = some .admitWait ∧ t.locks = s.locks) ∧
    (c.sqe.opc = 0x7D → c.sqe.slba % zsze n.fmt ≠ 0 → Gives (.zoneAppend c.fsn) s fun t => s.posted t c stInvalidField) ∧
    (c.sqe.opc = 0x08 → free [c.ownLock true] = true → s.lvl.rdonly = true → c.tried = false →
      Gives (.writeZeroes c.fsn) s fun t => s.posted t c stWriteProtected ∧ t.map.coarse = s.map.coarse) ∧
    (c.sqe.opc = 0x08 → free [c.ownLock true] = true → s.lvl.rdonly = false → c.tried = false → c.sqe.cnt = 16 →
      ∀ u, unitsOf (rangeBlocks n c.sqe.slba 16) = [u] →
      (s.fuaLike c = false → Gives (.writeZeroes c.fsn) s fun t => s.posted t c stOk ∧ t.coarse u = .zero ∧ t.lnd.wsn = s.lnd.wsn + 1 ∧
        ∀ l ∈ t.locks, l.fsn ≠ c.fsn) ∧
      (s.fuaLike c = true → Gives (.writeZeroes c.fsn) s fun t => (t.cmd c.fsn).map (·.ph) = some .fuaWait ∧ t.coarse u = .zero ∧
        t.lnd.wsn = s.lnd.wsn + 1 ∧ ∀ l ∈ t.locks, l.fsn ≠ c.fsn)) ∧
    (c.sqe.opc = 0x09 → c.sqe.cdw11.testBit 2 = false →
      Gives (.datasetManagement c.fsn) s fun t => s.posted t c stOk ∧ t.map.coarse = s.map.coarse ∧ t.jnl = s.jnl) ∧
    (c.sqe.opc = 0x09 → c.sqe.cdw11.testBit 2 = true → s.lvl.rdonly = false →
      ∀ lba u, c.dsmRanges = [(lba, 16)] → lba + 16 ≤ n.nsze → unitsOf (rangeBlocks n lba 16) = [u] →
      free [{ fsn := c.fsn, ns := c.sqe.nsid, lo := lba, hi := lba + 16 - 1, excl := true, held := false }] = true →
      Gives (.datasetManagement c.fsn) s fun t => s.posted t c stOk ∧ t.coarse u = .unmapped ∧ ∀ l ∈ t.locks, l.fsn ≠ c.fsn) ∧
    (c.sqe.opc = 0x19 → bits c.sqe.cdw12 11 8 = 0 → s.noKey n = false → ∀ a k, c.copyRanges = [(a, k)] → 0 < k → k ≤ 2048 →
      c.sqe.slba + k ≤ n.nsze → a + k ≤ n.nsze → c.sqe.cdw12 % 256 ≤ 127 →
      let ls : List Lock := [⟨c.fsn, c.sqe.nsid, c.sqe.slba, c.sqe.slba + k - 1, true, false⟩, ⟨c.fsn, c.sqe.nsid, a, a + k - 1, false, false⟩]
      free ls = true → Gives (.copy c.fsn [] []) s fun t => (t.cmd c.fsn).map (·.ph) = some .admitWait ∧ t.locks = held ls) ∧
    (c.sqe.opc = 0x00 →
      (s.pwr.present = false → Gives (.flush c.fsn) s fun t => s.posted t c stOk) ∧
      (s.pwr.present = true → (∀ f ∈ c.cover, s.jnl.groups.any (fun g => g.fsn == f) = false) → Gives (.flush c.fsn) s fun t => t.cmd c.fsn = none) ∧
      (s.pwr.present = true → (∃ f ∈ c.cover, s.jnl.groups.any (fun g => g.fsn == f) = true) → (∀ d ∈ s.hif.cmds, d.fsn = c.fsn → d = c) →
        Gives (.flush c.fsn) s fun t => (t.cmd c.fsn).map (·.ph) = some .flushWait))

/-- R141, R142, R145, R146, Table 5.4: the zone actions, each on the zone its command names or with Select All on the
zones in the states it acts on, once the earlier commands of the zone have executed; and the report of zones. Finish
of an Empty zone is the model's choice (assumption 113). The status values and field places of NVMe are the model's
(PRESUMED, assumption 13). -/
def Obligations.ZoneActions : Prop :=
  (∀ (s : State) (c : Cmd) (n : Ns), s.runs c → c.sq ≠ 0 → s.ns c.sqe.nsid = some n → s.myTurn c = true → s.zoneActTurn c n = true → c.ph = .fetched →
    let z := n.zoneOf c.sqe.slba
    let st := (s.zone c.sqe.nsid z).st
    (c.sqe.opc = 0x79 → s.lvl.rdonly = false → c.sqe.selAll = false → c.sqe.slba % zsze n.fmt = 0 → c.sqe.slba < n.nsze →
      (c.sqe.zsa = 1 → st = .impOpen ∨ st = .expOpen →
        Gives (.zoneClose c.fsn) s fun t => s.posted t c stOk ∧ (t.zone c.sqe.nsid z).st = .closed ∧ (t.zone c.sqe.nsid z).wp = (s.zone c.sqe.nsid z).wp) ∧
      (c.sqe.zsa = 2 → st ≠ .offline →
        Gives (.zoneFinish c.fsn) s fun t => s.posted t c stOk ∧ (t.zone c.sqe.nsid z).st = .full) ∧
      (c.sqe.zsa = 3 → st = .impOpen ∨ st = .closed ∨ (st = .empty ∧ s.quotaUsed c.sqe.nsid z n = false) →
        Gives (.zoneOpen c.fsn) s fun t => s.posted t c stOk ∧ (t.zone c.sqe.nsid z).st = .expOpen) ∧
      (c.sqe.zsa = 3 → st = .empty → s.quotaUsed c.sqe.nsid z n = true →
        Gives (.zoneOpen c.fsn) s fun t => s.posted t c stZoneTooManyActive ∧ t.zones = s.zones) ∧
      (c.sqe.zsa = 4 → st ≠ .offline →
        Gives (.zoneReset c.fsn) s fun t => t.cmd c.fsn = none ∧ (t.zone c.sqe.nsid z).wp = 0 ∧
          ((t.zone c.sqe.nsid z).st = .empty ∨ (t.zone c.sqe.nsid z).st = .offline)) ∧
      (c.sqe.zsa = 5 →
        Gives (.zoneOffline c.fsn) s fun t => s.posted t c stZoneTransition ∧ t.zones = s.zones)) ∧
    (c.sqe.opc = 0x79 → s.lvl.rdonly = false → c.sqe.selAll = true → risingL s.zones.items = true →
      (c.sqe.zsa = 1 → Gives (.zoneClose c.fsn) s fun t => s.posted t c stOk ∧ ∀ y, y < 2 ^ 24 →
        (t.zone c.sqe.nsid y).st = if selStates 1 (s.zone c.sqe.nsid y).st then .closed else (s.zone c.sqe.nsid y).st) ∧
      (c.sqe.zsa = 2 → Gives (.zoneFinish c.fsn) s fun t => s.posted t c stOk ∧ ∀ y, y < 2 ^ 24 →
        (t.zone c.sqe.nsid y).st = if selStates 2 (s.zone c.sqe.nsid y).st then .full else (s.zone c.sqe.nsid y).st) ∧
      (c.sqe.zsa = 3 → Gives (.zoneOpen c.fsn) s fun t => s.posted t c stOk ∧ ∀ y, y < 2 ^ 24 →
        (t.zone c.sqe.nsid y).st = if selStates 3 (s.zone c.sqe.nsid y).st then .expOpen else (s.zone c.sqe.nsid y).st)) ∧
    (c.sqe.opc = 0x79 → s.lvl.rdonly = true →
      ∀ p ∈ [(1, Instr.zoneClose c.fsn), (2, .zoneFinish c.fsn), (3, .zoneOpen c.fsn), (4, .zoneReset c.fsn), (5, .zoneOffline c.fsn)], c.sqe.zsa = p.1 →
        Gives p.2 s fun t => s.posted t c stWriteProtected ∧ t.zones = s.zones)) ∧
  (∀ (s : State) (c : Cmd) (n : Ns), s.runs c → c.sq ≠ 0 → s.ns c.sqe.nsid = some n → s.myTurn c = true → c.ph = .fetched →
    s.zonesTurn c n (fun z => decide (n.zoneOf c.sqe.slba ≤ z)) = true → c.sqe.opc = 0x7A → c.sqe.cdw13 = 0 → 15 ≤ c.sqe.cdw12 →
      Gives (.zoneManagementReceive c.fsn) s fun t =>
        ∃ d, s.posted t c stOk 0 d ∧ d.take 8 = leBytes 8 (n.zones - n.zoneOf c.sqe.slba) ∧ t.zones = s.zones)

/-- R45, R106, R109, R111, R142, R143: a waiting command that may have all its entries, and that no waiting command of
lower FSN may be granted before, is granted them together, and a Write Zeroes then commits; a write judged good for
its zone takes its landing sectors and counts its blocks, or waits for space; one judged bad ends. -/
def Obligations.LocksAndLandingSpace : Prop :=
  (∀ (s : State) (c : Cmd), s.cmd c.fsn = some c → c.ph = .lockWait → s.lockFree c.fsn = true →
    (∀ d ∈ s.hif.cmds, d.ph = .lockWait → d.fsn < c.fsn → s.lockFree d.fsn = false) →
    (c.sq = 0 ∨ c.sqe.opc ≠ 0x08 →
      Gives (.rangeLockGrant c.fsn) s fun t => t.locks = s.locks.map (fun e => if e.fsn = c.fsn then { e with held := true } else e) ∧
        (t.cmd c.fsn).map (·.ph) = some (if c.isRead then .reading else .admitWait)) ∧
    (c.sq ≠ 0 → c.sqe.opc = 0x08 → s.runs c → c.tried = false → ∀ n u, s.ns c.sqe.nsid = some n → s.lvl.rdonly = false → s.fuaLike c = false →
      c.sqe.cnt = 16 → unitsOf (rangeBlocks n c.sqe.slba 16) = [u] →
      Gives (.rangeLockGrant c.fsn) s fun t => s.posted t c stOk ∧ t.coarse u = .zero ∧ ∀ l ∈ t.locks, l.fsn ≠ c.fsn)) ∧
  (∀ (s : State) (c : Cmd), s.cmd c.fsn = some c → c.ph = .lockWait →
    (s.lockFree c.fsn = false ∨ ∃ d ∈ s.hif.cmds, d.ph = .lockWait ∧ d.fsn < c.fsn ∧ s.lockFree d.fsn = true) →
    exec (.rangeLockGrant c.fsn) s = .next s) ∧
  (∀ (s : State) (c : Cmd) (n : Ns), s.runs c → s.ns c.sqe.nsid = some n → c.ph = .admitWait → c.sq ≠ 0 → c.sqe.opc = 0x01 → n.zoned = true →
    s.zoneTurn c n = true → s.sched.drain = false → c.fsn ∈ s.lnd.waits →
    let z := n.zoneOf c.sqe.slba
    let q := zoneQuad c.sqe.nsid z
    let pos := (s.zone c.sqe.nsid z).wp + (s.zone c.sqe.nsid z).apRes
    let bs := rangeBlocks n (z * zsze n.fmt + pos) c.sqe.cnt
    let target := unitGroup q (zoneUnit n.fmt pos).2
    (s.judgeZoneWrite c n ≠ stOk → Gives (.landingAdmit c.fsn none none) s fun t => s.posted t c (s.judgeZoneWrite c n) ∧ c.fsn ∉ t.lnd.waits) ∧
    (s.judgeZoneWrite c n = stOk → c.tried = true → s.unitState (uLnd target) ≠ .drowse → s.heldBack c.fsn q = false →
      (∀ k ∈ [(zoneUnit n.fmt pos).1, (zoneUnit n.fmt (pos + c.sqe.cnt - 1)).1], s.med.zseg.get 0 (zkey c.sqe.nsid z * 32 + k) ≠ 0) →
      (∀ sl p m used, s.reserveIn (s.planOf bs) bs (s.sliceOrder target) = some (sl, p, m, used) →
        Gives (.landingAdmit c.fsn none none) s fun t =>
          (∃ d, t.cmd c.fsn = some d ∧ d.ph = .landing ∧ d.slice = sl ∧ d.secs = used ∧ d.left = c.sqe.cnt ∧ d.plan = p) ∧
          (t.ns c.sqe.nsid).map (·.resv) = some (n.resv + c.sqe.cnt) ∧
          (∀ i ∈ used, (t.lnd.secs.get none (sl * 4096 + i)).isSome = true) ∧ c.fsn ∉ t.lnd.waits) ∧
      (s.reserveIn (s.planOf bs) bs (s.sliceOrder target) = none →
        Gives (.landingAdmit c.fsn none none) s fun t => t.lnd = s.lnd ∧ (t.cmd c.fsn).map (·.ph) = some .admitWait ∧ t.ns c.sqe.nsid = some n))) ∧
  (∀ (s : State) (fsn : Nat), s.sched.drain = true → exec (.landingAdmit fsn none none) s = .next s)

/-- R83, R108, R110, R113, R116, R144: a write, append or Copy whose every sector has arrived commits: it takes the
next WSN, its blocks' entry points at its landing sectors, its locks are released, its zone's write pointer advances,
and its completion is posted, or as FUA waits; one whose protection information fails is discarded with that status.
-/
def Obligations.LandingCommits : Prop :=
  ∀ (s : State) (c : Cmd) (n : Ns), s.runs c → c.sq ≠ 0 → s.ns c.sqe.nsid = some n → c.ph = .landing → c.left = 0 → s.holdsGranted c.fsn = true →
    s.pagesOk (c.plan.map fun p => p.1 * 16) = true →
    let z := n.zoneOf c.sqe.slba
    let start := if c.sqe.opc = 0x7D then z * zsze n.fmt + (s.zone c.sqe.nsid z).wp else c.sqe.slba
    ((c.sqe.opc = 0x01 ∨ c.sqe.opc = 0x7D) → n.writeGuard c c.blocks c.sqe.data ≠ stOk →
      Gives (.landingCommit c.fsn) s fun t => s.posted t c (n.writeGuard c c.blocks c.sqe.data) ∧ t.lnd.wsn = s.lnd.wsn ∧ t.map.coarse = s.map.coarse) ∧
    (c.sqe.opc ∈ [0x01, 0x7D, 0x19] → (c.sqe.opc = 0x19 ∨ n.writeGuard c c.blocks c.sqe.data = stOk) →
      unitsOf (rangeBlocks n start c.blocks) = c.plan.map (·.1) → (c.sqe.opc = 0x7D → (s.zone c.sqe.nsid z).wp = c.apAt) →
      (s.fuaLike c = false →
        Gives (.landingCommit c.fsn) s fun t => s.posted t c stOk (if c.sqe.opc = 0x7D then start else 0)) ∧
      (s.fuaLike c = true →
        Gives (.landingCommit c.fsn) s fun t => (t.cmd c.fsn).map (·.ph) = some .fuaWait ∧ t.hif.posted = s.hif.posted) ∧
      Gives (.landingCommit c.fsn) s fun t => t.lnd.wsn = s.lnd.wsn + 1 ∧ (∀ l ∈ t.locks, l.fsn ≠ c.fsn) ∧
        (n.zoned = true → (t.zone c.sqe.nsid z).wp = (s.zone c.sqe.nsid z).wp + c.blocks ∧
          (zcap n.fmt ≤ (s.zone c.sqe.nsid z).wp + c.blocks → (t.zone c.sqe.nsid z).st = .full)) ∧
        (∀ u b, c.blocks = 16 → c.plan = [(u, 0, b)] → t.coarse u = .landing c.slice b))

/-- R112, R114, R128, R167, R168, R187: a group whose every sector is programmed, whose predecessors have closed and
whose promotions the pool has room for is written to the ring and closed, its landing sectors freed but for those held
over to the command's next group; with no room in the ring it waits, and FULL is raised once. A merged write takes its
unit holds together. -/
def Obligations.GroupsCloseAndHolds : Prop :=
  (∀ (s : State) (g : JGroup), s.jnl.groups.find? (fun h => h.id == g.id) = some g →
    ((s.groupDone g = false ∨ s.groupFirst g = false) → exec (.journalGroupClose g.id) s = .next s) ∧
    (s.groupDone g = true → s.groupFirst g = true → g.kind = 0 → g.moves = [] → s.closeProms g = [] →
      (s.ringRoom ((s.mapRecs g).length + g.recs.length + 2) = true →
        Gives (.journalGroupClose g.id) s fun t => (∀ h ∈ t.jnl.groups, h.id ≠ g.id) ∧ (∀ k ∈ g.secs, k ∉ s.heldOver g → t.lsec k = none) ∧
          t.jnl.ring = s.jnl.ring + (s.mapRecs g).length + g.recs.length + 2 ∧ t.jnl.clean = false) ∧
      (s.ringRoom ((s.mapRecs g).length + g.recs.length + 2) = false → g.waited = false →
        Gives (.journalGroupClose g.id) s fun t => t.jnl.recs = s.jnl.recs ∧ t.jnl.ring = s.jnl.ring ∧ t.lnd = s.lnd ∧ t.map = s.map ∧
          t.getF F.MRC_JNL_EVT_FULL = 1) ∧
      (s.ringRoom ((s.mapRecs g).length + g.recs.length + 2) = false → g.waited = true → exec (.journalGroupClose g.id) s = .next s)) ∧
    (s.groupDone g = true → s.groupFirst g = true → g.moves = [] → s.poolRoom < (s.closeProms g).length →
      exec (.journalGroupClose g.id) s = .next s)) ∧
  (∀ (s : State) (fsn : Nat) (us : List Nat), s.map.holds.find? (fun h => h.1 == fsn && !h.2.2) = some (fsn, us, false) →
    (s.holdFree fsn us = true →
      Gives (.unitHoldGrant fsn) s fun t => t.map.holds = s.map.holds.map (fun x => if x.1 = fsn then (x.1, x.2.1, true) else x)) ∧
    (s.holdFree fsn us = false → exec (.unitHoldGrant fsn) s = .next s))

/-! ### Flash channels -/

/-- R209, R211, R212, R213, R216, R218, R223, R252, R426: an entry whose turn has come and that its channel, LUN,
rings and grant allow leaves the list and starts on its LUN with its time and its current; a stream opens at its page,
goes on to the next page of its block, and closes; an erase is marked in its chunk first. An entry that may not be
issued, or with no room in the completion ring, stays. END ends the list. -/
def Obligations.ListEntriesStart : Prop :=
  (∀ (s u : State) (ch i op : Nat) (e : Entry), s.takeEntry ch i op = some (e, u) →
    let started := fun (t : State) => (t.chan ch).list = (s.chan ch).list.eraseIdx i ∧ ∃ r, (t.lun ch e.lun).run = (s.lun ch e.lun).run ++ [r] ∧ r.e = e ∧
      r.start = s.time.frame ∧ r.since = none ∧ r.susp = 0 ∧ r.time = s.entryTime ch e ∧ r.cur = s.entryCur ch e ∧
      t.sched.lunUsed = s.sched.lunUsed + r.cur
    let kept := fun (t : State) => (t.chan ch).list = (s.chan ch).list.eraseIdx i ∧ (t.lun ch e.lun).run = (s.lun ch e.lun).run
    (op = 0x01 → s.ringWait ch true = none → u.suspConflict ch e = false → Gives (.listRead ch i) s fun t =>
      started t ∧ (t.lun ch e.lun).stream = none ∧ (t.lun ch e.lun).level = (retryLevels e.retry).getLastD 0) ∧
    (op = 0x01 → s.ringWait ch true = none → u.suspConflict ch e = true → Gives (.listRead ch i) s kept) ∧
    (op = 0x02 → s.ringWait ch true = none → (u.closeStream ch e.lun).streams ch < 8 →
      Gives (.streamOpen ch i) s fun t => started t ∧ (t.lun ch e.lun).stream = some (e.page, e.planes)) ∧
    (op = 0x02 → s.ringWait ch true = none → 8 ≤ (u.closeStream ch e.lun).streams ch →
      Gives (.streamOpen ch i) s fun t => kept t ∧ (t.lun ch e.lun).stream = none) ∧
    (op = 0x03 → s.ringWait ch true = none → ∀ p, (u.lun ch e.lun).stream = some (p, e.planes) → e.page = p + 1 → e.page / s.blockPages = p / s.blockPages →
      Gives (.streamExt ch i) s fun t => started t ∧ (t.lun ch e.lun).stream =
        if e.page % s.blockPages = (if s.entrySlc ch e then s.slcPages else s.blockPages) - 1 then none else some (e.page, e.planes)) ∧
    (op = 0x03 → s.ringWait ch true = none → (u.lun ch e.lun).stream = none → Gives (.streamExt ch i) s fun t => kept t ∧ (t.lun ch e.lun).stream = none) ∧
    (op = 0x04 → s.ringWait ch false = none → Gives (.streamClose ch i) s fun t => kept t ∧ (t.lun ch e.lun).stream = none) ∧
    (op = 0x10 → s.ringWait ch false = none → Gives (.progSlc ch i) s fun t => started t ∧ (t.lun ch e.lun).stream = none) ∧
    (op = 0x11 → s.ringWait ch false = none → Gives (.progQlc ch i) s fun t => started t ∧ (t.lun ch e.lun).stream = none) ∧
    (op = 0x20 → s.ringRoom 3 = true → s.ringWait ch false = none → Gives (.eraseSlc ch i) s fun t =>
      started t ∧ (t.chunk (pageChunk ch e.lun e.page)).intent = true) ∧
    (op = 0x21 → s.ringRoom 3 = true → s.ringWait ch false = none → Gives (.eraseQlc ch i) s fun t =>
      started t ∧ (t.chunk (pageChunk ch e.lun e.page)).intent = true) ∧
    (op = 0x40 → s.ringWait ch false = none → Gives (.getFeat ch i) s fun t => started t ∧ (t.lun ch e.lun).stream = none) ∧
    (op = 0x41 → s.ringWait ch false = none → Gives (.setFeat ch i) s fun t => started t ∧ (t.lun ch e.lun).stream = none)) ∧
  (∀ (s : State) (ch i : Nat),
    ∀ p ∈ [(0x01, Instr.listRead ch i), (0x02, .streamOpen ch i), (0x03, .streamExt ch i), (0x04, .streamClose ch i), (0x10, .progSlc ch i),
      (0x11, .progQlc ch i), (0x20, .eraseSlc ch i), (0x21, .eraseQlc ch i), (0x40, .getFeat ch i), (0x41, .setFeat ch i)],
      (s.takeEntry ch i p.1 = none → exec p.2 s = .next s) ∧
      (s.cqFull (ch / 8) = true → Gives p.2 s fun t => t.med = s.med)) ∧
  (∀ (s : State) (ch : Nat), exec (.endEntry ch) s = .next (s.onChan ch fun c => { c with list := c.list.takeWhile (fun e => e.op != 0) }))

/-- R204, R211, R213, R214, R246, R252: a running operation that completes, a program's once its load has ended,
leaves its LUN; an erase counts on its chunk, a failed program or erase retires it, a read is counted; one that is not
ready within twice its time times out with TIMEOUT and an F1 event. R204: on a split channel a sequence that the die
discarded is sent again, at most three times; then its entry completes with CA_ERR, an F1 event. R63, R218 to R220,
R223 to R225: suspension, resumption and recalibration. -/
def Obligations.EntriesEndSuspendAndResend : Prop :=
  (∀ (s : State) (ch seq lun : Nat) (r : RunOp), ch < 128 → s.findRun ch seq = some (lun, r) →
    (∀ fail die, s.loadDone ch lun seq = true → (r.e.isRead = true → s.dqFree ch = true) → (∀ x ∈ (s.lun ch lun).run, x.since = none) → r.since = none →
      Gives (.entryCompletion ch seq fail die) s fun t =>
        (t.lun ch lun).run = (s.lun ch lun).run.erase r ∧ t.sched = s.sched ∧
        (r.e.op = 0x21 → fail = false → (t.chunk (pageChunk ch r.e.lun r.e.page)).qe = min 65535 ((s.chunk (pageChunk ch r.e.lun r.e.page)).qe + 1) ∧
          (t.chunk (pageChunk ch r.e.lun r.e.page)).reads = 0) ∧
        (r.e.op = 0x20 → fail = false → (t.chunk (pageChunk ch r.e.lun r.e.page)).se = min 65535 ((s.chunk (pageChunk ch r.e.lun r.e.page)).se + 1)) ∧
        (r.e.isProg = true ∨ r.e.isErase = true → fail = true → (t.chunk (pageChunk ch r.e.lun r.e.page)).st = 2) ∧
        (r.e.isRead = true → (t.chunk (pageChunk ch r.e.lun r.e.page)).reads = (s.chunk (pageChunk ch r.e.lun r.e.page)).reads + 1)) ∧
    (∀ fail die, (s.loadDone ch lun seq = false ∨ r.since.isSome = true) → exec (.entryCompletion ch seq fail die) s = .next s) ∧
    (s.timedOut ch r = true → Gives (.operationTimeout ch seq) s fun t =>
      (t.lun ch lun).run = (s.lun ch lun).run.erase r ∧ t.getF F.FCH_EVT_TIMEOUT ch = 1 ∧ ∃ e ∈ t.flt.queue, e.code = 0x0106 ∧ e.unit = uChan ch) ∧
    (s.timedOut ch r = false → exec (.operationTimeout ch seq) s = .next s)) ∧
  (∀ (s : State) (ch i : Nat) (e : Entry), ch < 128 → (s.chan ch).list[i]? = some e → (s.chan ch).mode = 3 → e.op ≠ 0 →
    ((s.chan ch).caTries < 3 → Gives (.caParityError ch i) s fun t => (t.chan ch).list = (s.chan ch).list ∧
      (t.chan ch).caTries = (s.chan ch).caTries + 1 ∧ t.fields = s.fields ∧ t.flt = s.flt) ∧
    (3 ≤ (s.chan ch).caTries → Gives (.caParityError ch i) s fun t => (t.chan ch).list = (s.chan ch).list.eraseIdx i ∧ (t.chan ch).caTries = 0 ∧
      t.getF F.FCH_EVT_CA_PAR ch = 1 ∧ ∃ x ∈ t.flt.queue, x.code = 0x0105 ∧ x.unit = uChan ch)) ∧
  ((∀ (s : State) (ch lun : Nat) (r : RunOp), (s.lun ch lun).run = [r] →
    (s.maySuspend ch lun r = true → Gives (.programSuspend ch lun false) s fun t =>
      (t.lun ch lun).run = [{ r with susp := r.susp + 1, since := some s.time.frame, win := s.getF F.FRM_SUSP_WIN }]) ∧
    (s.maySuspend ch lun r = false → exec (.programSuspend ch lun false) s = .next s) ∧
    exec (.programSuspend ch lun true) s = .next s) ∧
  (∀ (s : State) (ch lun : Nat) (r : RunOp), (s.lun ch lun).run = [r] → r.since.isSome = true →
    (s.resumeDue ch lun r = true →
      Gives (.suspendResume ch lun) s fun t => (t.lun ch lun).run = [{ r with since := none, start := s.time.frame }]) ∧
    (s.resumeDue ch lun r = false → exec (.suspendResume ch lun) s = .next s)) ∧
  (∀ (s : State) (ch shift : Nat) (eye : Bool), (s.chan ch).cal = none →
    (s.calMayBegin ch = true → Gives (.recalibration ch shift eye false) s fun t => (t.chan ch).cal = some s.time.frame ∧ (t.chan ch).due = none) ∧
    (s.calMayBegin ch = false → exec (.recalibration ch shift eye false) s = .next s)) ∧
  (∀ (s : State) (ch shift : Nat), ch < 128 → (s.chan ch).cal.isSome = true →
    (shift ≤ s.get2 F.FCH_CAL_SHIFT_MAX ch →
      exec (.recalibration ch shift true false) s = .next (s.onChan ch fun c => { c with cal := none, calLast := s.time.frame })) ∧
    (s.get2 F.FCH_CAL_SHIFT_MAX ch < shift → Gives (.recalibration ch shift true false) s fun t =>
      (t.chan ch).cal = none ∧ t.getF F.FCH_EVT_CAL_SHIFT ch = 1) ∧
    Gives (.recalibration ch shift false false) s fun t => ∃ e ∈ t.flt.queue, e.code = 0x020D ∧ e.unit = uChan ch))

/-- R232 to R237, R241, R245, R248, R255 to R257: a codeword that does not decode is counted; an SLC line whose 30
positions are programmed closes; a chunk that must move moves to a free chunk; a patrol lap, a refresh and a wear
check do what they are for. -/
def Obligations.MediaAreKept : Prop :=
  (∀ (s : State) (ch lun page cw tag z iter er : Nat), ch < 128 → s.getF F.GRP_LDPC_CFG_ERS_MAX (ch / 8) < z →
    Gives (.codewordDecode ch lun page cw 0 tag z none iter er) s fun t => t.getF F.GRP_LDPC_EVT_FAIL (ch / 8) = 1 ∧
      t.getF F.GRP_LDPC_CNT0_FAIL_CNT (ch / 8) = (s.getF F.GRP_LDPC_CNT0_FAIL_CNT (ch / 8) + 1) % 65536) ∧
  (∀ (s : State) (q a b f : Nat), s.med.slcLines.find? (fun x => x.1 == q && x.2.1 == a && x.2.2.1 == b) = some (q, a, b, f, 30) →
    Gives (.slcLineClose q a b) s fun t => t.med.slcLines = s.med.slcLines.erase (q, a, b, f, 30) ∧
      ∀ k x loc, s.lsec k = some x → x.loc = some loc → s.inSlcLine q a b loc = true → (t.lsec k).map (·.prog) = some true) ∧
  (∀ (s : State) (ch lun chunk l k : Nat) (op : Bool), s.needsMove ch lun chunk = true → s.pickChunkCh ch = some (l, k) →
    chunkKey ch l k ≠ chunkKey ch lun chunk →
    Gives (.chunkRelocation ch lun chunk 0 op) s fun t => (t.chunk (chunkKey ch l k)).used = true ∧
      ((s.chunk (chunkKey ch lun chunk)).st = 2 → (t.chunk (chunkKey ch lun chunk)).used = false)) ∧
  (∀ (s : State) (ch lun chunk fails : Nat) (op : Bool), s.needsMove ch lun chunk = false →
    exec (.chunkRelocation ch lun chunk fails op) s = .next s) ∧
  (∀ (s : State) (q : Nat), q < 4 → Gives (.flashPatrol q) s fun t => t.med.lap.get 0 q = s.med.lap.get 0 q + 1 ∧ t.med.secs = s.med.secs ∧
    { t with med := s.med } = s) ∧
  (∀ (s : State) (ch lun chunk l k : Nat), (s.chunk (chunkKey ch lun chunk)).queued = true → (s.chunk (chunkKey ch lun chunk)).st = 0 →
    (s.chunk (chunkKey ch lun chunk)).refr = 0 → s.pickChunkCh ch = some (l, k) → chunkKey ch l k ≠ chunkKey ch lun chunk →
    Gives (.refresh ch lun chunk 0) s fun t => (t.chunk (chunkKey ch lun chunk)).queued = false ∧ (t.chunk (chunkKey ch lun chunk)).fresh = true ∧
      (t.chunk (chunkKey ch l k)).used = true) ∧
  (∀ (s : State) (q : Nat), q < 4 → Gives (.wearLevelCheck q) s fun t => (∀ g ∈ s.med.offer, g ∈ t.med.offer) ∧
    (∀ c g, c < 32 → s.wearOffer (32 * q + c) = some g → g ∈ t.med.offer) ∧ { t with med := s.med } = s)

/-- R134, R238, R243: whatever the 30 data units of a line hold in a slot, P is their sum and Q the sum of the
products with the powers of g; one lost unit is rebuilt from P, or from Q where P is lost too, and two from both; with
three nothing is rebuilt. -/
def Obligations.LinesRebuildTwoErasures : Prop :=
  ∀ (line len : Nat) (slc : Bool) (d : Nat → List Byte), (∀ k, k < 30 → (d k).length = len) →
    let a := (List.range 30).foldl (fun a k => a.add k [d k]) ({ quad := 0, seg := 0, line := line, slc := slc } : PAcc)
    let sum := fun (f : Nat → Byte) => (List.range 30).foldl (fun r k => r ^^^ f k) 0
    let pos := unitPos line
    let solve := fun lost p => solveSlot line (a.p.getD 0 [], a.q.getD 0 []) (fun p => d (posRank line p)) lost p
    (∀ b, b < len → (a.p.getD 0 []).getD b 0 = sum (fun k => (d k).getD b 0) ∧
      (a.q.getD 0 []).getD b 0 = sum (fun k => gfMul (gfPow k) ((d k).getD b 0))) ∧
    (∀ x, x < 30 → solve [pos x] (pos x) = some (d x) ∧ solve [2 * (line % 16), pos x] (pos x) = some (d x)) ∧
    (∀ x y, x < y → y < 30 → solve [pos x, pos y] (pos x) = some (d x) ∧ solve [pos x, pos y] (pos y) = some (d y)) ∧
    (∀ x y z p, x < y → y < z → z < 30 → solve [pos x, pos y, pos z] p = none)

/-! ### Capacity, garbage collection, the journal and the map -/

/-- R158, R160, R161: with SPARE at GUARD the zone chosen goes Offline and its capacity leaves NCAP; with SPARE at
FLOOR every namespace becomes read-only from the start of the next frame, once. -/
def Obligations.CapacityIsWithdrawn : Prop :=
  (∀ (s : State) (q nsid z : Nat) (n : Ns), q < 4 → s.atGuard q = true → s.pickOffline q = some (nsid, z) → s.ns nsid = some n →
    Gives (.zoneOfflining q) s fun t => (t.zone nsid z).st = .offline ∧ (t.zone nsid z).wp = 0 ∧
      (t.ns nsid).map (·.ncap) = some (n.ncap - zcap n.fmt)) ∧
  (∀ (s : State) (q : Nat), s.atGuard q = false → exec (.zoneOfflining q) s = .next s) ∧
  (∀ (s : State) (q : Nat), q < 4 →
    (s.lvl.rdonly = false → s.spare q ≤ floorSegs → Gives (.readOnlyTransition q) s fun t => t.lvl.rdonly = false ∧ t.lvl.roPend.testBit q = true ∧
      t.readOnlyNow.lvl.rdonly = true ∧ t.readOnlyNow.hif.smart.testBit 3 = true) ∧
    (s.lvl.rdonly = true ∨ floorSegs < s.spare q → exec (.readOnlyTransition q) s = .next s))

/-- R169, R177 to R180, R183: demotion and folding copy sectors as a journal group that commits each copy where its
entry still names the source; nothing of the map moves before that. A segment chosen without valid sectors is given up
at once; a victim is erased and free when none of its sectors is valid, its copies are closed and no read of it is
outstanding. R170, R181, R182: GC copies every valid sector of a unit that lies in a victim, in one group of kind GC,
when the sectors can be read, the slice and the GC stream have room and the unit is not a cold record's; sectors that
cannot be rebuilt become POISON. -/
def Obligations.CopiesGcAndVictims : Prop :=
  ((∀ (s : State) (u r : Nat) (f : Fine), s.coarse u = .fine r → s.fineRec r = some f →
    (s.poolLow = false → exec (.fineDemotion u) s = .next s) ∧
    (s.poolLow = true → (∀ e ∈ s.map.fine.items, ∀ x, e.2 = some x → f.frame ≤ x.frame ∨ s.unitQuad x.owner ≠ s.unitQuad u ∨ s.notDemoting x.owner = false) →
      s.notDemoting u = true → s.map.demoted.get 0 (s.unitQuad u) < 64 →
      ((List.range 16).all fun k => (s.copySrc (u * 16 + k)).isSome) = true →
      (s.copyPlaces (s.freestSlice (s.unitQuad u)) 16).isSome = true → (s.gcDest (s.unitQuad u) 0 16 none).isSome = true →
      Gives (.fineDemotion u) s fun t => t.map.coarse = s.map.coarse ∧ t.map.fine = s.map.fine ∧ t.jnl.nextId = s.jnl.nextId + 1 ∧
        ∃ g, t.jnl.groups = s.jnl.groups ++ [g] ∧ g.kind = 3 ∧ g.src = f.writes ∧ g.id = s.jnl.nextId ∧
          g.moves.map (·.1) = (List.range 16).map (u * 16 + ·))) ∧
  (∀ (s : State) (q : Nat), q < 4 →
    (s.med.folding.testBit q = false → exec (.fold q) s = .next s) ∧
    (s.foldable q = none → exec (.fold q) s = .next s) ∧
    (∀ x ps, s.med.folding.testBit q = true → s.foldable q = some x → (∀ y ∈ s.stagedKeys x, s.coldUnit (y.1 / 16) = false) →
      s.foldPlaces (s.freestSlice q) (s.stagedKeys x) = some ps →
      Gives (.fold q) s fun t => t.med.staged = s.med.staged.erase x ∧ t.med.slcUnits.get 0 q = s.med.slcUnits.get 0 q - 1 ∧
        t.map.coarse = s.map.coarse ∧ t.map.fine = s.map.fine ∧
        (s.stagedKeys x ≠ [] → ∃ g, t.jnl.groups = s.jnl.groups ++ [g] ∧ g.kind = 2))) ∧
  (∀ (s : State) (q g : Nat) (x : Seg), q < 4 → s.med.gcOn.testBit q = true → s.hookBind 2 q = none → s.dfltVictim q = some g →
    s.med.segs.get none g = some x →
    Gives (.gcVictimSelection q none) s fun t => t.med.offer = s.med.offer.erase g ∧
      (s.segValid g = 0 → t.med.segs.get none g = some { x with isOpen := false, dead := true }) ∧
      (s.segValid g ≠ 0 → t.med.segs.get none g = some { x with victim := true })) ∧
  (∀ (s : State) (q : Nat), s.med.gcOn.testBit q = false → exec (.gcVictimSelection q none) s = .next s) ∧
  (∀ (s : State) (g : Nat) (x : Seg), s.med.segs.get none g = some x →
    (x.victim = true → s.mayErase g = true → Gives (.victimErase g) s fun t => t.med.segs.get none g = none) ∧
    (x.victim = false ∨ s.mayErase g = false → exec (.victimErase g) s = .next s))) ∧
  (∀ (s : State) (u v : Nat) (keys : List Nat), s.victimKeys u = some (v, keys) → s.hookBind 3 (v / 2 ^ 20) = none →
    (s.jnl.groups.any fun j => (j.kind == 1 || j.kind == 3) && j.moves.any fun m => m.1 / 16 == u && s.lookup m.1 == m.2.1) = false →
    (s.coldUnit u = false → (∀ k ∈ keys, (s.copySrc k).isSome = true) →
      (s.copyPlaces (s.freestSlice (v / 2 ^ 20)) keys.length).isSome = true → (s.gcDest (v / 2 ^ 20) 0 keys.length none).isSome = true →
      Gives (.gcCopy u none none []) s fun t => t.map.coarse = s.map.coarse ∧ t.map.fine = s.map.fine ∧
        ∃ g, t.jnl.groups = s.jnl.groups ++ [g] ∧ g.kind = 1 ∧ g.src = v ∧ g.moves.map (fun m => (m.1, m.2.1)) = keys.map (fun k => (k, s.lookup k))) ∧
    (v / 2 ^ 20 < 4 → ∀ lost, (∀ k ∈ keys, lost.contains (k % 16) = true) →
      Gives (.gcCopy u none none lost) s fun t => t.getF F.QD_MED_EVT_POISON (v / 2 ^ 20) = 1 ∧ t.jnl.groups = s.jnl.groups))

/-- R187, R188, R192, R193: the oldest whole page of the ring goes to flash and groups that waited for room are
written; a checkpoint takes what replay of the journal gives and releases older pages; a map page that cannot be
corrected is built again from them, an F0 event of the DRAM controller; a rebuild by scan begins and ends. -/
def Obligations.JournalAndMapRecover : Prop :=
  ∀ s : State,
    (1024 ≤ s.jnl.ring → Gives .journalPageFlush s fun t => t.jnl.pages = s.jnl.pages ++ [s.jnl.pos - 16 * s.jnl.ring] ∧ { t with jnl := s.jnl } = s ∧
      (s.jnl.wait = [] → t.jnl.ring = s.jnl.ring - 1024 ∧ t.jnl.recs = s.jnl.recs) ∧
      (∀ rs, s.jnl.wait = [rs] → s.jnl.ring - 1024 + rs.length ≤ ringRecs → t.jnl.wait = [] ∧ t.jnl.ring = s.jnl.ring - 1024 + rs.length)) ∧
    (s.jnl.ring < 1024 → exec .journalPageFlush s = .next s) ∧
    (Gives .checkpointSweep s fun t => t.jnl.ckpt = s.durable.coarse ∧ t.jnl.ckFine = s.durable.fine ∧ t.jnl.ckZones = s.durable.zones ∧
      t.jnl.recs = [] ∧ t.jnl.sweeps = (s.jnl.sweeps + 1) % 65536 ∧ t.durable = s.durable ∧
      t.jnl.pages = s.jnl.pages.filter (fun p => decide (s.jnl.pos ≤ p)) ∧ t.med.ckChunks = s.med.chunks ∧ t.map = s.map ∧ t.lnd = s.lnd) ∧
    (∀ p, Gives (.mapPageRebuild p) s fun t => t.map.bad.get false p = false ∧ ∃ e ∈ t.flt.queue, e.code = 0x0008 ∧ e.unit = uSvc 1 ∧ e.detail = p) ∧
    (∀ p u r, u / 3072 = p → (∀ k, k < 16 → ∀ a b, s.lookup (u * 16 + k) ≠ .landing a b) → (∀ x, s.coarse u ≠ .fine x) →
      (∀ x, s.durable.coarse.get .unmapped u ≠ .fine x) → r = s.durable.coarse.get .unmapped u →
      Gives (.mapPageRebuild p) s fun t => t.coarse u = r) ∧
    (∀ q p, q < 4 → s.map.rebuild = false → Gives (.rebuildByScan q p) s fun t => t.map.rebuild = true ∧ t.map.scanPage = some p ∧
      t.getF F.FRM_MAP_EVT_REBUILD = 1 ∧ t.map.coarse = s.map.coarse) ∧
    (∀ q p, q < 4 → s.map.rebuild = true → Gives (.rebuildByScan q p) s fun t => t.map.rebuild = false ∧ t.map.scanPage = none)

/-! ### Baluf instructions -/

/-- Table 9.4, R265: every register ALU instruction writes d with the value of its operands and nothing else; w0 stays
zero; a divisor of zero gives all ones, or the dividend as remainder. Table 9.5: the immediate ALU instructions; the
immediate is sign-extended for ADDI, SLTI, SLTIU and LUI and zero-extended for the others. -/
def Obligations.ScalarArithmetic : Prop :=
  (∀ (s : State) (e c : Nat) (i : Ins),
    let a := (s.eng e).w i.a
    let b := (s.eng e).w i.b
    let h := b.toNat % 64
    ∀ p ∈ [(BOp.add, Instr.add e, a + b), (.sub, .sub e, a - b), (.and, .and e, a &&& b), (.or, .or e, a ||| b), (.xor, .xor e, a ^^^ b),
        (.andn, .andn e, a &&& ~~~b), (.sll, .sll e, a <<< h), (.srl, .srl e, a >>> h), (.sra, .sra e, BitVec.ofInt 64 (a.toInt / 2 ^ h)),
        (.ror, .ror e, (a >>> h) ||| (a <<< ((64 - h) % 64))), (.slt, .slt e, if a.toInt < b.toInt then 1 else 0), (.sltu, .sltu e, if a.toNat < b.toNat then 1 else 0),
        (.min, .min e, if a.toInt ≤ b.toInt then a else b), (.max, .max e, if b.toInt ≤ a.toInt then a else b),
        (.minu, .minu e, if a.toNat ≤ b.toNat then a else b), (.maxu, .maxu e, if b.toNat ≤ a.toNat then a else b),
        (.addw, .addw e, BitVec.ofInt 64 ((a + b).setWidth 32).toInt), (.subw, .subw e, BitVec.ofInt 64 ((a - b).setWidth 32).toInt),
        (.mul, .mul e, BitVec.ofNat 64 (a.toNat * b.toNat)), (.mulh, .mulh e, BitVec.ofInt 64 (a.toInt * b.toInt / 2 ^ 64)),
        (.mulhu, .mulhu e, BitVec.ofNat 64 (a.toNat * b.toNat / 2 ^ 64)),
        (.div, .div e, if b = 0 then BitVec.allOnes 64 else BitVec.ofInt 64 (a.toInt.tdiv b.toInt)),
        (.divu, .divu e, if b = 0 then BitVec.allOnes 64 else BitVec.ofNat 64 (a.toNat / b.toNat)),
        (.rem, .rem e, if b = 0 then a else BitVec.ofInt 64 (a.toInt.tmod b.toInt)),
        (.remu, .remu e, if b = 0 then a else BitVec.ofNat 64 (a.toNat % b.toNat)),
        (.clz, .clz e, BitVec.ofNat 64 (clz64 a.toNat)), (.ctz, .ctz e, BitVec.ofNat 64 (firstSet 64 a.toNat)),
        (.popc, .popc e, BitVec.ofNat 64 (popBits 64 a.toNat)), (.bswap, .bswap e, BitVec.ofNat 64 (ofLe (leBytes 8 a.toNat).reverse)),
        (.crc32c, .crc32c e, BitVec.ofNat 64 ((leBytes 8 b.toNat).foldl crcByte (a.toNat % 2 ^ 32)))],
      s.issues e p.1 i c → Gives p.2.1 s fun t => s.falls t e c ∧ s.setsW t e i.d p.2.2 ∧ s.keepsU t e ∧ s.onlyEngines t) ∧
  (∀ (s : State) (e c : Nat) (i : Ins),
    let a := (s.eng e).w i.a
    let x := BitVec.ofInt 64 (BitVec.ofNat 16 i.imm).toInt
    let z := BitVec.ofNat 64 i.imm
    let n := i.imm % 64
    ∀ p ∈ [(BOp.addi, Instr.addi e, a + x), (.andi, .andi e, a &&& z), (.ori, .ori e, a ||| z), (.xori, .xori e, a ^^^ z),
        (.slti, .slti e, if a.toInt < x.toInt then 1 else 0), (.sltiu, .sltiu e, if a.toNat < x.toNat then 1 else 0),
        (.shi, .shi e, if i.imm / 64 % 4 = 0 then a <<< n else if i.imm / 64 % 4 = 1 then a >>> n else if i.imm / 64 % 4 = 2 then
          BitVec.ofInt 64 (a.toInt / 2 ^ n) else (a >>> n) ||| (a <<< ((64 - n) % 64))),
        (.lui, .lui e, x <<< 16), (.shlori, .shlori e, (a <<< 16) ||| z)],
      s.issues e p.1 i c → Gives p.2.1 s fun t => s.falls t e c ∧ s.setsW t e i.d p.2.2 ∧ s.keepsU t e ∧ s.onlyEngines t)

/-- R265: division never traps: it completes for every pair of operands; a divisor of zero gives a quotient of all
ones and the dividend as remainder, and the lowest number divided by -1 gives itself and a remainder of 0. -/
def Obligations.DivisionNeverTraps : Prop :=
  ∀ (s : State) (e c : Nat) (i : Ins),
    let a := (s.eng e).w i.a
    let b := (s.eng e).w i.b
    let low := BitVec.ofNat 64 (2 ^ 63)
    ∀ p ∈ [(BOp.div, Instr.div e, BitVec.allOnes 64, low), (.divu, .divu e, BitVec.allOnes 64, 0), (.rem, .rem e, a, 0), (.remu, .remu e, a, low)],
      s.issues e p.1 i c → Gives p.2.1 s fun t => s.falls t e c ∧ (∃ v, s.setsW t e i.d v) ∧
        (b = 0 → s.setsW t e i.d p.2.2.1) ∧ (a = low → b = BitVec.allOnes 64 → s.setsW t e i.d p.2.2.2)

/-- Table 9.7, R269, R270: a branch whose condition holds goes to pc plus its offset and leaves the loops its target
lies outside, in 2 cycles; else it falls through. J, JAL and JALR jump, the calls leaving every loop as it is; LOOPI
and LOOP set up a level, and a count of 0 skips the body. -/
def Obligations.ControlTransfer : Prop :=
  ∀ (s : State) (e c : Nat) (i : Ins),
    let g := s.eng e
    let a := g.w i.ba
    let b := g.w i.bb
    let tgt := pcPlus g.pc (BitVec.ofInt 64 ((BitVec.ofNat 16 i.imm).toInt * 4))
    let jto := pcPlus g.pc (BitVec.ofInt 64 ((BitVec.ofNat 26 i.w).toInt * 4))
    (∀ p ∈ [(BOp.beq, Instr.beq e, decide (a = b)), (.bne, .bne e, decide (a ≠ b)), (.blt, .blt e, decide (a.toInt < b.toInt)), (.bge, .bge e, decide (b.toInt ≤ a.toInt)),
        (.bltu, .bltu e, decide (a.toNat < b.toNat)), (.bgeu, .bgeu e, decide (b.toNat ≤ a.toNat))],
      s.issues e p.1 i c →
        (p.2.2 = false → Gives p.2.1 s fun t => s.falls t e 1 ∧ s.keepsW t e ∧ s.keepsU t e ∧ s.onlyEngines t) ∧
        (p.2.2 = true → (g.ring ≠ 0 → 2 ≤ g.budget) →
          Gives p.2.1 s fun t => s.issued t e 2 tgt (loopsLeave g.loops tgt) ∧ s.keepsW t e ∧ s.keepsU t e ∧ s.onlyEngines t)) ∧
    (s.issues e .j i c → Gives (.j e) s fun t => s.issued t e c jto (loopsLeave g.loops jto) ∧ s.keepsW t e ∧ s.onlyEngines t) ∧
    (s.issues e .jal i c → Gives (.jal e) s fun t => s.issued t e c jto g.loops ∧ s.setsW t e 31 (BitVec.ofNat 64 (g.pc + 4)) ∧ s.onlyEngines t) ∧
    (s.issues e .jalr i c → (g.w i.a).toNat % 4 = 0 →
      Gives (.jalr e) s fun t => s.issued t e c (g.w i.a).toNat g.loops ∧ s.setsW t e i.d (BitVec.ofNat 64 (g.pc + 4)) ∧ s.onlyEngines t) ∧
    (s.issues e .loopi i c → loopDepth g.loops = 0 →
      (i.imm % 4096 ≠ 0 → Gives (.loopi e) s fun t => s.issued t e c (g.pc + 4) ({ start := g.pc + 4, fin := g.pc + 4 * i.len, remain := i.imm % 4096 }, {}) ∧ s.keepsW t e) ∧
      (i.imm % 4096 = 0 → Gives (.loopi e) s fun t => s.issued t e c (g.pc + 4 + 4 * i.len) g.loops ∧ s.keepsW t e)) ∧
    (s.issues e .loop i c → loopDepth g.loops = 0 → a.toNat ≤ 16777215 →
      (a ≠ 0 → Gives (.loop e) s fun t => s.issued t e c (g.pc + 4) ({ start := g.pc + 4, fin := g.pc + 4 * i.imm, remain := a.toNat }, {}) ∧ s.keepsW t e) ∧
      (a = 0 → Gives (.loop e) s fun t => s.issued t e c (g.pc + 4 + 4 * i.imm) g.loops ∧ s.keepsW t e))

/-- Table 9.6, R264, R266, R267, R276, R277, R285: a load from protected memory gives its bytes, least significant
first, sign- or zero-extended; a store replaces exactly the bytes of its width in the word that holds them, with fresh
check bits, and no other word. In the engine's own local memory the cycles are those of the instruction; elsewhere,
which only ring V reaches, a load takes at least 120, or 20 from register space, and a store at least 10. -/
def Obligations.LoadsAndStores : Prop :=
  ∀ (s : State) (e c loc : Nat) (i : Ins),
    let g := s.eng e
    let ea := (g.w i.a + BitVec.ofInt 64 (BitVec.ofNat 16 i.imm).toInt).toNat
    let v := (g.w i.d).toNat
    let bytes := fun n => ofLe (s.memBytes loc n)
    let sx := fun n k => BitVec.ofInt 64 (BitVec.ofNat n k).toInt
    let clear := fun (src : Nat) => locSpace loc = 0 → s.fabricHits src = false
    let own := locSpace loc = 1 ∧ locUnit loc = uEng e
    let takes := fun (t : State) (lo : Nat) => (own → s.falls t e c) ∧ (¬ own → g.ring = 0 → ∃ n, lo ≤ n ∧ s.falls t e n)
    (∀ p ∈ [(BOp.lb, Instr.lb e, 1, sx 8 (bytes 1)), (.lbu, .lbu e, 1, BitVec.ofNat 64 (bytes 1)), (.lh, .lh e, 2, sx 16 (bytes 2)),
        (.lhu, .lhu e, 2, BitVec.ofNat 64 (bytes 2)), (.lw, .lw e, 4, sx 32 (bytes 4)), (.lwu, .lwu e, 4, BitVec.ofNat 64 (bytes 4)),
        (.ld, .ld e, 8, BitVec.ofNat 64 (bytes 8))],
      s.issues e p.1 i c → ea % p.2.2.1 = 0 → s.translate e g ea p.2.2.1 false = .ok (.mem loc) → s.memReads loc p.2.2.1 = true → clear (s.locOwner loc) →
        Gives p.2.1 s fun t => takes t 120 ∧ s.setsW t e i.d p.2.2.2) ∧
    (∀ p ∈ [(BOp.sb, Instr.sb e, 1), (.sh, .sh e, 2), (.sw, .sw e, 4), (.sd, .sd e, 8)],
      ∀ d, s.issues e p.1 i c → ea % p.2.2 = 0 → s.translate e g ea p.2.2 true = .ok (.mem loc) → loc % 8 + p.2.2 ≤ 8 →
        s.wordCls (loc / 8 * 8) = .clean d → s.flipHits loc = false → clear (uEng e) →
        Gives p.2.1 s fun t => takes t 10 ∧ s.keepsW t e ∧ t.word loc = protect (mergeWord d (loc % 8) p.2.2 v) ∧
          (∀ a, a / 8 ≠ loc / 8 → t.word a = s.word a) ∧ { t with prg := s.prg, memp := s.memp, free := s.free } = s ∧
          (own → t.free = s.free)) ∧
    (s.issues e .vld i c → (g.w i.r).toNat % 32 = 0 → s.translate e g (g.w i.r).toNat 32 false = .ok (.mem loc) → s.memReads loc 32 = true → clear (s.locOwner loc) →
      Gives (.vld e) s fun t => takes t 120 ∧ s.keepsW t e ∧ s.setsU t e i.vd (BitVec.ofNat 256 (bytes 32))) ∧
    (s.issues e .vst i c → (g.w i.r).toNat % 32 = 0 → s.translate e g (g.w i.r).toNat 32 true = .ok (.mem loc) → loc % 8 = 0 →
      (∀ k, k < 4 → s.flipHits (loc + 8 * k) = false) → clear (uEng e) →
      Gives (.vst e) s fun t => takes t 10 ∧ s.keepsW t e ∧ s.keepsU t e ∧
        (∀ k, k < 4 → t.word (loc + 8 * k) = protect (lane 3 k (g.uv i.va))) ∧ (∀ a, a / 8 < loc / 8 ∨ loc / 8 + 4 ≤ a / 8 → t.word a = s.word a)) ∧
    (∀ p ∈ [(BOp.lw, Instr.lw e), (.lwu, .lwu e)], ∀ r, s.issues e p.1 i c → ea % 4 = 0 → s.translate e g ea 4 false = .ok (.reg r) →
      (∀ u, s.place (.eng e) r ≠ .off u) → Gives p.2 s fun t => (∃ n, 20 ≤ n ∧ s.falls t e n) ∧ ∃ x, s.setsW t e i.d x)

/-- R266, R267, R283, R290, R291: an address that is no multiple of the access size raises misalign; in ring V a trap
with NEST clear writes TRAPCAUSE, TRAPPC and TRAPVAL, sets NEST and goes to TVEC, and the instruction has no effect.
-/
def Obligations.TrapsGoToTheHandler : Prop :=
  ∀ (s : State) (e c : Nat) (i : Ins), (s.eng e).ring = 0 → (s.eng e).nest = false →
    let g := s.eng e
    let ea := (g.w i.a + BitVec.ofInt 64 (BitVec.ofNat 16 i.imm).toInt).toNat
    let handled := fun (t : State) (cause v : Nat) => (t.eng e).cause = cause ∧ (t.eng e).trappc = g.vpc ∧ (t.eng e).trapval = v ∧
      (t.eng e).vpc = g.tvec ∧ (t.eng e).nest = true ∧ s.keepsW t e ∧ s.onlyEngines t
    (∀ p ∈ [(BOp.lh, Instr.lh e, 2), (.lhu, .lhu e, 2), (.lw, .lw e, 4), (.lwu, .lwu e, 4), (.ld, .ld e, 8), (.sh, .sh e, 2), (.sw, .sw e, 4), (.sd, .sd e, 8)],
      s.issues e p.1 i c → ea % p.2.2 ≠ 0 → Gives p.2.1 s fun t => handled t cMisalign ea) ∧
    (s.issues e .jalr i c → (g.w i.a).toNat % 4 ≠ 0 → Gives (.jalr e) s fun t => handled t cMisalign (g.w i.a).toNat) ∧
    (∀ k ∈ [Instr.add e, .ld e, .beq e, .vadd e, .csrr e, .xfer e], isEngine e = true → s.engRuns e = true → s.fetchB e = .ok i.w → decodeB (isFe e) i.w = none →
      Gives k s fun t => handled t cIllegal i.w)

/-- R271, R272, R330: a scalar or vector stream read takes its bytes from the front of the input, and a write appends
to the output within ROOM. -/
def Obligations.StreamsMove : Prop :=
  ∀ (s : State) (e c : Nat) (i : Ins),
    let g := s.eng e
    let n := i.imm
    let k := (g.w i.a + BitVec.ofNat 64 i.imm).toNat
    let taken := fun (t : State) (m : Nat) => (t.eng e).inp = g.inp.drop m ∧ (t.eng e).strpos = g.strpos + m ∧ (t.eng e).outp = g.outp
    let put := fun (t : State) (d : List Byte) => (t.eng e).outp = g.outp ++ d ∧ (t.eng e).room = g.room - d.length ∧ (t.eng e).inp = g.inp
    (s.issues e .sin i c → g.inAtt = true → n ≤ g.inp.length → g.badInput n = false →
      Gives (.sin e) s fun t => s.falls t e c ∧ s.setsW t e i.d (BitVec.ofNat 64 (ofLe (g.inp.take n))) ∧ taken t n ∧ s.onlyEngines t) ∧
    (s.issues e .sskip i c → g.inAtt = true → k ≤ g.inp.length → Gives (.sskip e) s fun t => s.falls t e c ∧ s.keepsW t e ∧ taken t k ∧ s.onlyEngines t) ∧
    (s.issues e .sout i c → g.outAtt = true → n ≤ g.room →
      Gives (.sout e) s fun t => s.falls t e c ∧ s.keepsW t e ∧ put t (leBytes n (g.w i.a).toNat) ∧ s.onlyEngines t) ∧
    (s.issues e .vsin i c → g.inAtt = true → 32 ≤ g.inp.length → g.badInput 32 = false →
      Gives (.vsin e) s fun t => s.falls t e c ∧ s.setsU t e i.vd (BitVec.ofNat 256 (ofLe (g.inp.take 32))) ∧ s.keepsW t e ∧ taken t 32 ∧ s.onlyEngines t) ∧
    (s.issues e .vsout i c → g.outAtt = true → 32 ≤ g.room →
      Gives (.vsout e) s fun t => s.falls t e c ∧ s.keepsW t e ∧ s.keepsU t e ∧ put t (vbytes (g.uv i.va)) ∧ s.onlyEngines t) ∧
    (let d := ((List.range 32).filter fun j => decide (128 ≤ lane 0 j (g.uv i.vb))).map fun j => BitVec.ofNat 8 (lane 0 j (g.uv i.va))
     s.issues e .vsoutm i c → g.outAtt = true → d.length ≤ g.room →
      Gives (.vsoutm e) s fun t => s.falls t e c ∧ s.keepsW t e ∧ s.keepsU t e ∧ put t d ∧ s.onlyEngines t)

/-- R273, Tables 9.9 and 9.10: the vector instructions write one u register, or one w register, with the value of
their operands, element by element where they have elements. -/
def Obligations.VectorArithmetic : Prop :=
  ∀ (s : State) (e c : Nat) (i : Ins),
    let g := s.eng e
    let x := g.uv i.va
    let y := g.uv i.vb
    let r := g.w i.r
    let m := 2 ^ (8 * 2 ^ i.e)
    (∀ p ∈ [(BOp.vand, Instr.vand e, x &&& y), (.vor, .vor e, x ||| y), (.vxor, .vxor e, x ^^^ y), (.vandn, .vandn e, x &&& ~~~y),
        (.vbsl, .vbsl e, (g.uv i.vd &&& x) ||| (~~~(g.uv i.vd) &&& y))],
      s.issues e p.1 i c → Gives p.2.1 s fun t => s.falls t e c ∧ s.setsU t e i.vd p.2.2 ∧ s.keepsW t e ∧ s.onlyEngines t) ∧
    (∀ p ∈ [(BOp.vadd, Instr.vadd e, fun a b => (a + b) % m), (.vsub, .vsub e, fun a b => (a + m - b) % m), (.vminu, .vminu e, fun a b => if a ≤ b then a else b),
        (.vmaxu, .vmaxu e, fun a b => if a ≤ b then b else a), (.vcmpeq, .vcmpeq e, fun a b => if a = b then m - 1 else 0),
        (.vcmpgtu, .vcmpgtu e, fun a b => if b < a then m - 1 else 0), (.vcmpgt, .vcmpgt e, fun a b => if sgtN i.e a b then m - 1 else 0)],
      s.issues e p.1 i c → Gives p.2.1 s fun t => s.falls t e c ∧ s.keepsW t e ∧ s.onlyEngines t ∧ (∀ j, j ≠ i.vd → (t.eng e).uv j = g.uv j) ∧
        ∀ k, k < 32 / 2 ^ i.e → lane i.e k ((t.eng e).uv i.vd) = p.2.2 (lane i.e k x) (lane i.e k y)) ∧
    (s.issues e .vshuf i c → Gives (.vshuf e) s fun t => s.falls t e c ∧ s.keepsW t e ∧ s.onlyEngines t ∧ (∀ j, j ≠ i.vd → (t.eng e).uv j = g.uv j) ∧ ∀ k, k < 32 →
      lane 0 k ((t.eng e).uv i.vd) = if 128 ≤ lane 0 k y then 0 else lane 0 (lane 0 k y % 32) x) ∧
    (s.issues e .vsplat i c → Gives (.vsplat e) s fun t => s.falls t e c ∧ s.keepsW t e ∧ s.onlyEngines t ∧ (∀ j, j ≠ i.vd → (t.eng e).uv j = g.uv j) ∧
      ∀ k, k < 32 / 2 ^ i.e → lane i.e k ((t.eng e).uv i.vd) = r.toNat % m) ∧
    (s.issues e .vins i c → Gives (.vins e) s fun t => s.falls t e c ∧ s.keepsW t e ∧ s.onlyEngines t ∧ (∀ j, j ≠ i.vd → (t.eng e).uv j = g.uv j) ∧
      ∀ k, k < 4 →
      lane 3 k ((t.eng e).uv i.vd) = if k = i.e then r.toNat else lane 3 k (g.uv i.vd)) ∧
    (∀ p ∈ [(BOp.vmovw, Instr.vmovw e, BitVec.ofNat 64 (lane 3 i.e x)),
        (.vmask, .vmask e, BitVec.ofNat 64 (((List.range 32).map fun j => if 128 ≤ lane 0 j x then 2 ^ j else 0).sum)),
        (.vpopc, .vpopc e, BitVec.ofNat 64 ((List.range 256).countP fun j => x.getLsbD j)),
        (.vfirst, .vfirst e, BitVec.ofNat 64 (((List.range 32).find? fun j => decide (128 ≤ lane 0 j x)).getD 32)),
        (.vcrc, .vcrc e, BitVec.ofNat 64 ((vbytes x).foldl crcByte (r.toNat % 2 ^ 32)))],
      s.issues e p.1 i c → Gives p.2.1 s fun t => s.falls t e c ∧ s.setsW t e i.r p.2.2 ∧ s.keepsU t e ∧ s.onlyEngines t)

/-- Table 9.11, R262, R264, R281 to R283, R286 to R288, R292 to R294: the system instructions; FENCE and XWAIT take at
least 1 cycle, CAS and AMOADD at least 120, and ENTER waits until its step fits the frame (R68). -/
def Obligations.SystemInstructions : Prop :=
  ∀ (s : State) (e c : Nat) (i : Ins),
    let g := s.eng e
    (g.ring ≠ 0 → ∀ p ∈ [(BOp.yield, Instr.yield e, cYield, 0), (.exit, .exit e, cExit, (g.w i.a).toNat)], s.issues e p.1 i c →
      Gives p.2.1 s fun t => (t.eng e).ring = 0 ∧ (t.eng e).tring = g.ring ∧ (t.eng e).cause = p.2.2.1 ∧ (t.eng e).trapval = p.2.2.2 ∧
        (t.eng e).trappc = g.pc + 4 ∧ (t.eng e).vpc = g.tvec ∧ (t.eng e).vw = g.vw) ∧
    (g.ring = 0 → g.xfers = [] → ∀ p ∈ [(BOp.yield, Instr.yield e, true), (.exit, .exit e, true), (.fence, .balufFence e, false), (.xwait, .xwait e, false)],
      s.issues e p.1 i c →
      Gives p.2.1 s fun t => (if p.2.2 then s.falls t e c else ∃ n, 1 ≤ n ∧ s.falls t e n) ∧ s.keepsW t e ∧ s.keepsU t e ∧ (t.eng e).xfers = [] ∧
        s.onlyEngines { t with free := s.free }) ∧
    (s.issues e .enter i c → g.ring = 0 → g.pring = 1 ∨ (g.pring = 2 ∧ isFe e = true) → s.cycLeft e < g.stepmax → exec (.enter e) s = .next s) ∧
    (s.issues e .enter i c → g.ring = 0 → g.pring = 1 ∨ (g.pring = 2 ∧ isFe e = true) → g.stepmax ≤ s.cycLeft e →
      Gives (.enter e) s fun t => (t.eng e).ring = g.pring ∧ (t.eng e).ppc = (g.w i.a).toNat ∧ (t.eng e).budget = g.stepmax ∧ (t.eng e).frame = s.time.frame ∧
        (t.eng e).vpc = (g.pc + 4) % 2 ^ 64 ∧ (t.eng e).pw = g.pw ∧ s.onlyEngines t) ∧
    (s.issues e .tret i c → g.nest = true → Gives (.tret e) s fun t => (t.eng e).nest = false ∧ (t.eng e).vpc = g.trappc ∧ (t.eng e).v0 = g.s0 ∧ (t.eng e).v1 = g.s1 ∧
      s.keepsW t e ∧ s.onlyEngines t) ∧
    (s.issues e .mfp i c → Gives (.mfp e) s fun t => s.falls t e c ∧ s.setsW t e i.d (if i.a = 0 then 0 else g.pw.get 0 i.a) ∧ s.onlyEngines t) ∧
    (s.issues e .mtp i c → i.d ≠ 0 → Gives (.mtp e) s fun t => s.falls t e c ∧ s.keepsW t e ∧ (∀ j, (t.eng e).pw.get 0 j = if j = i.d then g.w i.a else g.pw.get 0 j) ∧
      s.onlyEngines t) ∧
    (∀ a b, s.issues e .xfer i c → (g.w i.a).toNat % 64 = 0 → (g.w i.b).toNat % 64 = 0 → (g.w i.d).toNat % 64 = 0 → (g.w i.d).toNat ≠ 0 → (g.w i.d).toNat ≤ 65536 →
      s.xferSide e g (g.w i.a).toNat (g.w i.d).toNat false = some a → s.xferSide e g (g.w i.b).toNat (g.w i.d).toNat true = some b →
      (2 ^ 38 ≤ a ↔ ¬ 2 ^ 38 ≤ b) → g.xfers.length < 16 → g.pendBytes + (g.w i.d).toNat ≤ 262144 →
      Gives (.xfer e) s fun t => s.falls t e c ∧ s.keepsW t e ∧ (t.eng e).xfers = g.xfers ++ [⟨a, b, (g.w i.d).toNat⟩] ∧ s.onlyEngines t) ∧
    (∀ loc old, (g.w i.a).toNat % 8 = 0 → s.translateV e (g.w i.a).toNat 8 = .ok (.mem loc) → loc % 8 = 0 → s.wordCls loc = .clean old → old < 2 ^ 64 → s.flipHits loc = false →
      (s.issues e .cas i c → Gives (.cas e) s fun t => (∃ n, 120 ≤ n ∧ s.falls t e n) ∧ s.setsW t e i.d (BitVec.ofNat 64 old) ∧
        t.word loc = if BitVec.ofNat 64 old = g.w i.d then protect (g.w i.b).toNat else s.word loc) ∧
      (s.issues e .amoadd i c → Gives (.amoadd e) s fun t => (∃ n, 120 ≤ n ∧ s.falls t e n) ∧ s.setsW t e i.d (BitVec.ofNat 64 old) ∧
        t.word loc = protect ((old + (g.w i.b).toNat) % 2 ^ 64))) ∧
    (s.issues e .csrr i c → csrAccess (isFe e) g.ring (i.imm % 4096) ≠ 0 →
      Gives (.csrr e) s fun t => s.falls t e c ∧ s.setsW t e i.d (BitVec.ofNat 64 (s.csr e g (i.imm % 4096))) ∧ s.onlyEngines t) ∧
    (∀ x, s.issues e .csrw i c → csrAccess (isFe e) g.ring (i.imm % 4096) = 2 → g.csrWrite (i.imm % 4096) (g.w i.a).toNat = some x →
      Gives (.csrw e) s fun t => s.falls t e c ∧ s.keepsW t e ∧ s.onlyEngines t ∧
        { t.eng e with vpc := g.vpc, v0 := g.v0, v1 := g.v1, cyc := g.cyc } = x)

/-! ### Firmware and unit commands -/

/-- R84, R125, R126, R391, R472, R473: a downloaded piece is kept for the function; a package that is accepted is
written to its slot and, by its commit action, becomes the committed one, waits for a reset or begins its activation;
one refused for its security version raises SEC_EVT.ROLLBACK. An activation that runs takes no other commit. The
status values and field places of NVMe are the model's (PRESUMED, assumption 13). -/
def Obligations.FirmwareIsCommitted : Prop :=
  ∀ (s : State) (c : Cmd), s.inTurn c →
    let n := 4 * (c.sqe.cdw10 + 1)
    let sl := c.sqe.cdw10 % 8
    let ca := bits c.sqe.cdw10 5 3
    (c.sqe.opc = 0x11 → c.sqe.cdw10 ≤ 0x1FFFFF →
      Gives (.firmwareImageDownload c.fsn) s fun t => s.posted t c stOk ∧ t.lvl.fwOwner = c.fn ∧
        t.lvl.fwBuf.getRange 0 (4 * c.sqe.cdw11) n = padTo n (c.sqe.data.take n) ∧
        (s.lvl.fwOwner = c.fn → t.lvl.fwLen = max s.lvl.fwLen (4 * c.sqe.cdw11 + n) ∧
          ∀ j, j < 4 * c.sqe.cdw11 ∨ 4 * c.sqe.cdw11 + n ≤ j → t.lvl.fwBuf.get 0 j = s.lvl.fwBuf.get 0 j) ∧
        (s.lvl.fwOwner ≠ c.fn → t.lvl.fwLen = 4 * c.sqe.cdw11 + n)) ∧
    (c.sqe.opc = 0x11 → 0x1FFFFF < c.sqe.cdw10 → Gives (.firmwareImageDownload c.fsn) s fun t => s.posted t c stInvalidField ∧ t.lvl = s.lvl) ∧
    (c.sqe.opc = 0x10 → s.lvl.act.isSome = true ∨ s.lvl.warmRun = true → exec (.firmwareCommit c.fsn) s = .next s) ∧
    (c.sqe.opc = 0x10 → s.lvl.act = none → s.lvl.warmRun = false →
      (3 < ca → Gives (.firmwareCommit c.fsn) s fun t => s.posted t c stInvalidField ∧ t.lvl = s.lvl) ∧
      (ca ≤ 3 → 4 < sl → Gives (.firmwareCommit c.fsn) s fun t => s.posted t c stFwSlot ∧ t.lvl = s.lvl) ∧
      (∀ b, ca < 2 → 2 ≤ sl → sl ≤ 4 → s.downloaded = some b →
        (s.pkgOk b = true → Gives (.firmwareCommit c.fsn) s fun t => s.posted t c (if ca = 0 then stOk else stFwNeedsReset) ∧
          t.lvl.fwSlots.get [] sl = b ∧ (∀ k, k ≠ sl → t.lvl.fwSlots.get [] k = s.lvl.fwSlots.get [] k) ∧ t.lvl.fwLen = 0 ∧
          t.lvl.committed = (if ca = 0 then s.lvl.committed else sl) ∧ t.lvl.pendFw = (if ca = 0 then s.lvl.pendFw else some sl)) ∧
        (s.pkgOk b = false → Gives (.firmwareCommit c.fsn) s fun t => s.posted t c stFwImage ∧ t.lvl = s.lvl ∧
          (s.pkgRollback b = true → t.getF F.SEC_EVT_ROLLBACK = 1))) ∧
      (ca = 2 → 1 ≤ sl → sl ≤ 4 →
        (s.pkgOk (s.pkgOf sl) = true → Gives (.firmwareCommit c.fsn) s fun t => s.posted t c stFwNeedsReset ∧ t.lvl.committed = sl ∧
          t.lvl.pendFw = some sl ∧ t.lvl.fwSlots = s.lvl.fwSlots) ∧
        (s.pkgOk (s.pkgOf sl) = false → Gives (.firmwareCommit c.fsn) s fun t => s.posted t c stFwImage ∧ t.lvl = s.lvl)) ∧
      (ca = 3 → 1 ≤ sl → sl ≤ 4 → s.downloaded = none → s.pkgOk (s.pkgOf sl) = true →
        (pkgNeedsReset (s.pkgOf sl) = false →
          Gives (.firmwareCommit c.fsn) s fun t => t.lvl.act = some { todo := swapOrder, fsn := some c.fsn } ∧ t.lvl.committed = sl ∧ t.lvl.active = sl ∧
            (t.cmd c.fsn).map (·.ph) = some .running ∧ t.outbox = s.outbox) ∧
        (pkgNeedsReset (s.pkgOf sl) = true →
          Gives (.firmwareCommit c.fsn) s fun t => t.lvl.warmRun = true ∧ t.hif.fetchStop = true ∧ t.lvl.committed = sl ∧ t.lvl.pendFw = none)))

/-- R125 to R127, R463, R464, R474, R475: an activation swaps its engines one after the other: one that is FENCED or
RETIRED is skipped; another's swap begins at a frame boundary, once its unit port is not BUSY and its step in flight
has ended; one whose swap ends runs the new image from its START, one whose swap faults is fenced and skipped; the
last ends the activation. An NVM subsystem reset activates a package that waits for it; a warm restart holds the core
in reset. -/
def Obligations.EnginesAreSwapped : Prop :=
  (∀ (s : State) (a : Act) (e : Nat), s.lvl.act = some a → isEngine e = true →
    (∀ r f, a.cur = none → a.todo = e :: r →
      ((s.unitState (uEng e) = .fenced ∨ s.unitState (uEng e) = .retired) → r ≠ [] →
        Gives (.engineSwap f) s fun t =>
          t.lvl.act = some { a with todo := r, cur := none, begun := false, moved := [], skipped := a.skipped + 1 } ∧ t.prg = s.prg ∧
          t.getF F.SYS_EVT_ACT_SKIP = 1) ∧
      (s.unitState (uEng e) ≠ .fenced → s.unitState (uEng e) ≠ .retired →
        exec (.engineSwap f) s = .next (s.onLvl fun l => { l with act := some { a with todo := r, cur := some e } }))) ∧
    (a.cur = some e → a.begun = false →
      (∀ f, exec (.engineSwap f) s = .next s) ∧
      ((s.unit (uEng e)).run.isSome = true ∨ (s.eng e).ring ≠ 0 → s.swapTick = s) ∧
      ((s.unit (uEng e)).run = none → (s.eng e).ring = 0 → (s.swapTick.lvl.act).map (·.begun) = some true ∧
        (kindOfEng e = 0 ∨ kindOfEng e = 3 → s.swapTick = s.onLvl fun l => { l with act := some { a with begun := true } }))) ∧
    (a.cur = some e → a.begun = true → a.todo ≠ [] →
      (Gives (.engineSwap false) s fun t => t.lvl.act = some { a with cur := none, begun := false, moved := [], done := a.done + 1 } ∧
          t.eng e = { s.eng e with vpc := (s.activeImg e).start, v0 := {}, v1 := {}, build := (s.activeImg e).version % 65536, svn := (s.activeImg e).svn } ∧
          (∀ k, k ≠ e → t.eng k = s.eng k)) ∧
      (Gives (.engineSwap true) s fun t => (t.lvl.act).map (·.skipped) = some (a.skipped + 1) ∧ (t.unit (uEng e)).st = .fenced))) ∧
  (∀ (s : State) (a : Act) (c : Cmd) (f : Bool), s.runs c → s.lvl.act = some a → a.todo = [] → a.cur = none → a.fsn = some c.fsn →
    Gives (.engineSwap f) s fun t => s.posted t c stOk ∧ t.lvl.act = none ∧ t.lvl.actDone = a.done ∧ t.lvl.actSkip = a.skipped) ∧
  (∀ (s : State) (sl : Nat), s.lvl.core = true → s.lvl.pendFw = some sl → s.halted = false → s.lvl.act = none →
    (pkgNeedsReset (s.pkgOf sl) = false → Gives .nvmSubsystemReset s fun t => t.lvl.act = some { todo := swapOrder } ∧ t.lvl.active = sl ∧ t.lvl.pendFw = none) ∧
    (pkgNeedsReset (s.pkgOf sl) = true → Gives .nvmSubsystemReset s fun t => t.lvl.warmRun = true ∧ t.hif.fetchStop = true ∧ t.lvl.act = none)) ∧
  (∀ s : State, s.lvl.core = true → s.lvl.warmRun = true → s.pwr.pfail = false → s.sched.drain = false → s.unprogrammed = 0 → s.jnl.groups = [] →
    Gives .warmRestart s fun t => t.lvl.core = false ∧ t.lvl.warm = true ∧ t.lvl.warmRun = false ∧ t.jnl.clean = true ∧ t.map = s.map)

/-- R476 to R480, Table 17.7: Unit Command is checked, and runs one operation of a unit's command port or fences one
LUN; its completion tells LAST_OP and CODE. The status values and field places of NVMe are the model's (PRESUMED,
assumption 13). -/
def Obligations.UnitCommandRuns : Prop :=
  ∀ (s : State) (c : Cmd), s.inTurn c → c.sqe.opc = 0xCC →
    (s.lvl.act.isSome = true → exec (.unitCommand c.fsn) s = .next s) ∧
    (s.lvl.act = none → (s.hif.cmds.any fun d => d.sq == 0 && d.sqe.opc == 0xCC && (d.ph == .running || decide (d.fsn < c.fsn))) = false →
    let u := c.ucUnit
    (c.ucBad = true → Gives (.unitCommand c.fsn) s fun t => s.posted t c stInvalidField ∧ t.units = s.units) ∧
    (c.ucBad = false →
      ((s.unit u).run.isSome = true → Gives (.unitCommand c.fsn) s fun t => s.posted t c stSequence ∧ t.units = s.units) ∧
      ((s.unit u).run = none → c.ucSel = false →
        (opOf c.ucOp = none → Gives (.unitCommand c.fsn) s fun t => t.cmd c.fsn = none ∧ t.unit u = { s.unit u with lastOp := c.ucOp, code := 2 }) ∧
        (∀ o code, opOf c.ucOp = some o → s.judgeOp u o c.ucArg = some code →
          Gives (.unitCommand c.fsn) s fun t => t.cmd c.fsn = none ∧ t.unit u = { s.unit u with lastOp := c.ucOp, code := code }) ∧
        (c.ucOp = 1 → s.judgeOp u .fence c.ucArg = none → (s.prg.scans.any fun x => x.fsn == c.fsn) = false →
          Gives (.unitCommand c.fsn) s fun t => (t.unit u).st = .fenced ∧ (t.unit u).lastOp = 1 ∧ (t.unit u).runFsn = some c.fsn ∧
            (t.cmd c.fsn).map (·.ph) = some .running)) ∧
      ((s.unit u).run = none → c.ucSel = true → c.ucOp = 1 → c.ucArg = 0 → (s.lun (uIdx u) c.ucLun).st = 1 →
        Gives (.unitCommand c.fsn) s fun t => t.cmd c.fsn = none ∧ (t.lun (uIdx u) c.ucLun).st = 2 ∧ (t.unit u).lastOp = 1 ∧ (t.unit u).code = 0 ∧
          ∃ e ∈ t.flt.queue, e.code = 0x0203 ∧ e.unit = uChan (uIdx u)) ∧
      ((s.unit u).run = none → c.ucSel = true → c.ucOp = 8 → c.ucArg = 0 → (s.lun (uIdx u) c.ucLun).st = 2 → s.lunEmptied (uIdx u) c.ucLun = true →
        Gives (.unitCommand c.fsn) s fun t => t.cmd c.fsn = none ∧ (t.lun (uIdx u) c.ucLun).st = 3 ∧ (t.unit u).lastOp = 8 ∧ (t.unit u).code = 0)))

/-! ### Power -/

/-- R402, R403, R206: a group idle for its frames with AUTO set drowses, with RE stopped on its channels; work wakes
it, RE runs again on its split channels, and nothing of another group changes; a LUN that fails PING as it wakes
leaves its channel conforming, or leaves service on a mixed one. R404, R406 to R410, R451: an idle device enters the
state its autonomous transition or its host names and gates its domains; a wake source returns it to its last
operational state and records itself; housekeeping leaves a non-operational state for PS2 and goes back to it. -/
def Obligations.GroupsAndDeviceSleepAndWake : Prop :=
  (∀ (s : State) (n : Nat), n < 16 →
    (s.lvl.core = true → (s.unit (uGroup n)).auto = true → (s.unit (uGroup n)).cur = 2 → s.groupIdle n = true → s.get2 F.PWR_DROWSE_IDLE ≤ s.pwr.grpIdle.get 0 n →
      Gives (.drowseEntry n) s fun t => t.unit (uGroup n) = { s.unit (uGroup n) with cur := 1 } ∧ (∀ u, u ≠ uGroup n → t.unit u = s.unit u) ∧
        (∀ c, c / 8 = n → t.chan c = { s.chan c with re := false }) ∧ (∀ c, c / 8 ≠ n → t.chan c = s.chan c) ∧
        { t with units := s.units, med := { t.med with chans := s.med.chans } } = s) ∧
    (s.groupIdle n = false → exec (.drowseEntry n) s = .next s) ∧
    ((s.unit (uGroup n)).cur = 1 →
      (∀ b, Gives (.groupWake n [] b) s fun t => t.unit (uGroup n) = { s.unit (uGroup n) with cur := 2 } ∧ t.pwr.grpIdle.get 0 n = 0 ∧
        (∀ c, c / 8 = n → (s.chan c).mode = 3 → (t.chan c).re = true ∧ (t.chan c).mode = 3) ∧ (∀ c, c / 8 = n → (s.chan c).mode ≠ 3 → t.chan c = s.chan c) ∧
        (∀ c, c / 8 ≠ n → t.chan c = s.chan c) ∧
        (s.med.lunsCh ≤ 32 → ∀ c l, c / 8 ≠ n → l < 32 → t.lun c l = s.lun c l) ∧ { t.med with chans := s.med.chans, luns := s.med.luns } = s.med ∧
        (b = true → t.getF F.PWR_EVT_WAKE_ENTRY = 1)) ∧
      (∀ ch lun, ch / 8 = n → (s.chan ch).mode = 3 → Gives (.groupWake n [(ch, lun)] false) s fun t => t.unit (uGroup n) = { s.unit (uGroup n) with cur := 2 } ∧
        ((s.chan ch).prof.mix = false → (t.chan ch).mode = 2 ∧ (t.chan ch).re = false ∧ (t.chan ch).ceLow = false ∧ t.flt = s.flt) ∧
        ((s.chan ch).prof.mix = true → (t.chan ch).mode = 3 ∧ (t.lun ch lun).st = 2 ∧ ∃ e ∈ t.flt.queue, e.code = 0x0203 ∧ e.unit = uChan ch)))) ∧
  (∀ s : State,
    (∀ p, p = (s.apstEntry s.pwr.cur).1 → p = 3 ∨ p = 4 → s.apste = true → s.pwr.hk = none → 0 < (s.apstEntry s.pwr.cur).2 → s.pwr.cur < p →
      (s.apstEntry s.pwr.cur).2 * 125 ≤ s.pwr.idle → s.devIdle = true →
      Gives .autonomousPowerStateTransition s fun t => t.pwr.cur = p ∧ t.pwr.host = false ∧ (p = 4 → t.time.lastFrame = s.time.frame) ∧
        (∀ a ∈ (if p = 3 then gatedPs3 else gatedPs4), (s.unit a).cur = 2 → (t.unit a).cur = 1) ∧ t.map = s.map ∧ t.hif = s.hif) ∧
    (s.devIdle = false → exec .autonomousPowerStateTransition s = .next s) ∧
    (∀ src ms b, src < 4 → s.lvl.core = true → s.pwr.cur = 3 ∨ s.pwr.cur = 4 →
      Gives (.powerStateExit src b ms) s fun t => t.pwr.cur = s.pwr.lastOp ∧ t.pwr.wakeSrc = 2 ^ src ∧ t.pwr.host = false ∧ t.pwr.idle = 0 ∧
        (src = 3 → t.pwr.wakeLow = true) ∧ (∀ a ∈ gatedPs4, (s.unit a).req = 2 → (s.unit a).cur = 1 → (t.unit a).cur = 2) ∧
        (∀ n, n < 16 → (s.unit (uGroup n)).cur = 1 → (t.unit (uGroup n)).cur = 2) ∧
        (s.pwr.cur = 4 → t.time.frame = max (s.time.lastFrame + 1) (t.time.ms * 125) % 2 ^ 48) ∧ (b = true → t.getF F.PWR_EVT_WAKE_ENTRY = 1)) ∧
    (s.pwr.want = none → exec .wakeNDeassert s = .next { s with pwr := { s.pwr with wakeLow := false } }) ∧
    (∀ p, s.pwr.want = some p → s.pwr.cur < p → ({ s with pwr := { s.pwr with wakeLow := false } } : State).devIdle = true →
      Gives .wakeNDeassert s fun t => t.pwr.cur = p ∧ t.pwr.host = true ∧ t.pwr.want = none ∧ t.pwr.wakeLow = false) ∧
    (s.pwr.hk = none → 3 ≤ s.pwr.cur → (s.feat 0 0x11).testBit 0 = true → s.pwr.hkMs + s.getF F.PWR_HK_PERIOD * 60000 ≤ s.time.ms →
      Gives .housekeepingExcursion s fun t => t.pwr.cur = 2 ∧ t.pwr.hk = some s.pwr.cur ∧ t.pwr.host = s.pwr.host) ∧
    (∀ p, s.pwr.hk = some p → s.devIdle = true → Gives .housekeepingExcursion s fun t => t.pwr.cur = p ∧ t.pwr.hk = none ∧ t.pwr.host = s.pwr.host))

/-- R399, R411 to R413, R438, R450, R451, R507: PFAIL_N commits a drain, or in a non-operational state writes the mark
and ends the drain at once, and is nothing to a device that is halted, drains or is held in reset; a brown-out and the
loss of REFCLK hold the core in reset; the restart after a drain, and the loss of VDD_AON. R119, R414 to R417: a
hold-up test that is due, or started, asserts its pin and records the means to judge it; one that ends releases the
pin and is valid or not, a valid one judging the hold time at the present cap against its minimum; a voltage low for
125 frames degrades the hold-up, and the committed sectors not yet programmed are marked for catch-up. -/
def Obligations.PowerFailuresAndHoldUp : Prop :=
  (∀ s : State,
    (s.lvl.core = true → s.halted = false → s.sched.drain = false → s.pwr.pfail = false →
      (s.pwr.cur ≤ 2 → Gives .pfail s fun t => t.pwr.pfail = true ∧ t.getF F.PWR_EVT_PFAIL = 1 ∧ t.pwr.test = none ∧ t.lnd = s.lnd ∧ t.jnl = s.jnl) ∧
      (3 ≤ s.pwr.cur → Gives .pfail s fun t => t.pwr.mark = true ∧ t.pwr.drained = true ∧ t.pwr.pfail = false ∧ t.pwr.drainAt = none ∧ t.lvl.core = false ∧
        t.getF F.PWR_EVT_PFAIL = 1 ∧ t.lnd = s.lnd ∧ t.jnl = s.jnl)) ∧
    (s.lvl.core = false ∨ s.halted = true ∨ s.sched.drain = true ∨ s.pwr.pfail = true → exec .pfail s = .next s) ∧
    (s.lvl.core = true → ∀ c ∈ [Instr.brownOut, .refclkLoss], Gives c s fun t => t.lvl.core = false ∧ t.pwr.cold = true ∧ t.pwr.test = none ∧
      t.pwr.drainAt = none ∧ (t.port 0).up = false ∧ (t.port 1).up = false ∧ (s.flt.regc = true → t.flt.regcFell = true) ∧
      t.lnd = s.lnd ∧ t.jnl = s.jnl ∧ t.map = s.map ∧ t.nss = s.nss) ∧
    (s.pwr.drained = true → Gives .powerRestart s fun t => t.pwr = { s.pwr with drained := false, cold := true } ∧ (t.port 0).up = false ∧ (t.port 1).up = false ∧
      { t with pwr := s.pwr, hif := s.hif } = s) ∧
    (s.pwr.drained = false → exec .powerRestart s = .next s) ∧
    (Gives .vddAonLoss s fun t => t.time.aonLost = true ∧ t.gov.trc = {} ∧ t.gov.armed = false ∧ t.flt.regc = false ∧
      (s.flt.regc = true → t.outbox = .pin 1 false :: s.outbox) ∧ (s.flt.regc = false → t.outbox = s.outbox))) ∧
  (∀ s : State,
    (s.testMay = true →
      let begun := fun (t : State) => (∃ x, t.pwr.test = some x ∧ x.n = 0 ∧ x.stop = false ∧ x.drop = s.getF F.PWR_HU_CFG_DROP ∧ x.min = s.getF F.PWR_HU_CFG_MIN) ∧
        t.outbox = .pin 2 true :: s.outbox ∧ { t with pwr := s.pwr, outbox := s.outbox } = s
      Gives .holdUpTestStart s begun ∧
      (s.pwr.tested = false → 1 ≤ s.lvl.level → 125 ≤ s.pwr.steadyN → Gives .holdUpTest s begun) ∧
      (s.pwr.tested = true → s.pwr.testMs + s.getF F.PWR_HU_CFG_PERIOD * 3600000 ≤ s.time.ms → Gives .holdUpTest s begun)) ∧
    (∀ x, s.pwr.test = some x → x.stop = true →
      (x.invalid = true → Gives .holdUpTestEnd s fun t => t.pwr.test = none ∧ t.pwr.result = 2 ∧ t.pwr.valid = s.pwr.valid ∧ .pin 2 false ∈ t.outbox ∧
        t.getF F.PWR_EVT_HU_INVALID = 1 ∧ ∃ e ∈ t.flt.queue, e.code = 0x010C ∧ e.unit = uSvc 5) ∧
      (x.invalid = false → Gives .holdUpTestEnd s fun t => t.pwr.test = none ∧ t.pwr.result = 1 ∧ t.pwr.valid = true ∧ t.pwr.vfin = x.v ∧
        t.pwr.testMs = s.time.ms ∧ t.pwr.capN = s.getF F.PWR_HU_BRD0_ITEST * x.n * 128 ∧ t.pwr.capD = x.sum - 16 * x.v ∧ .pin 2 false ∈ t.outbox ∧
        let h := t.holdFrac s.gov.cap
        t.pwr.present = if h.1 < x.min * h.2 then true else if s.pwr.present = true ∧ 11 * x.min * h.2 ≤ 10 * h.1 then false else s.pwr.present)) ∧
    (s.lvl.core = true → s.pwr.valid = true → s.pwr.test = none → 125 ≤ s.pwr.lowN → s.pwr.present = false →
      Gives .holdUpVoltageLow s fun t => t.pwr.present = true ∧ t.getF F.PWR_EVT_HU_DEG = 1 ∧
        ∀ k x, s.lsec k = some x → x.done = true → x.prog = false → (t.lsec k).map (·.catchup) = some true))

/-- R415: PFAIL_N asserted during a hold-up test releases HU_TEST_N at once with RESULT 3; health stays as it was, and
the drain is committed (R411). -/
def Obligations.TestsAreAbortedByPowerFailure : Prop :=
  ∀ (s : State) (x : HuTest), s.pwr.test = some x → s.lvl.core = true → s.halted = false → s.sched.drain = false → s.pwr.pfail = false → s.pwr.cur ≤ 2 →
    Gives .pfail s fun t => t.outbox = .pin 2 false :: s.outbox ∧ t.pwr.test = none ∧ t.pwr.result = 3 ∧ t.pwr.present = s.pwr.present ∧ t.pwr.valid = s.pwr.valid ∧
      t.pwr.capN = s.pwr.capN ∧ t.pwr.capD = s.pwr.capD ∧ t.pwr.vfin = s.pwr.vfin ∧ t.pwr.pfail = true

/-! ### The management endpoint -/

/-- R95, R97, R100, R384, R450, R486, Table 3.10: what each management request answers and does, on a transport that
is up, in a device that runs and is not halted. The request and response layouts are the model's (PRESUMED, assumption
14). -/
def Obligations.ManagementRequests : Prop :=
  ∀ (s : State) (path : Nat), s.miPathUp path = true → s.lvl.core = true → s.pwr.cur ≤ 2 → s.halted = false →
    (∀ typ port ctrl d, s.miStruct typ port ctrl = some d → exec (.readNvmeMiDataStructure path typ port ctrl) s = .next (s.send (.mi 0x00 miOk d))) ∧
    (∀ p, p < s.miPorts → exec (.configurationGet path 3 p) s = .next (s.send (.mi 0x04 miOk (leBytes 4 (s.hif.mtu.get 64 p))))) ∧
    (∀ p v, p < s.miPorts →
      (64 ≤ v ∧ v ≤ (if p = 0 then 250 else 4096) → Gives (.configurationSet path 3 p v) s fun t => t.hif.mtu.get 64 p = v ∧
        (∀ k, k ≠ p → t.hif.mtu.get 64 k = s.hif.mtu.get 64 k) ∧ t.outbox = .mi 0x03 miOk [] :: s.outbox) ∧
      (v < 64 → exec (.configurationSet path 3 p v) s = .next (s.send (.mi 0x03 miParam [])))) ∧
    (∀ o n, (o + n ≤ 1024 → exec (.vpdRead path o n) s = .next (s.send (.mi 0x05 miOk (s.hif.vpd.getRange 0 o n)))) ∧
      (1024 < o + n → exec (.vpdRead path o n) s = .next (s.send (.mi 0x05 miParam [])))) ∧
    (∀ o d, o + d.length ≤ 1024 → Gives (.vpdWrite path o d) s fun t => t.hif.vpd.getRange 0 o d.length = d ∧
      (∀ k, k < o ∨ o + d.length ≤ k → t.hif.vpd.get 0 k = s.hif.vpd.get 0 k) ∧ t.outbox = .mi 0x06 miOk [] :: s.outbox) ∧
    (∃ t : State, exec .nvmSubsystemReset s = .next t ∧ exec (.nvmeMiReset path) s = .next (t.send (.mi 0x07 miOk []))) ∧
    ((∀ f, (s.outstanding (· == f)).isEmpty = true) → s.jnl.groups = [] →
      Gives (.nvmeMiShutdown path) s fun t => ∀ f ∈ s.enabledFns, (s.ctrl f).en = true → (t.ctrl f).shst = 2) ∧
    (∀ fn q, s.fnExists fn = true → (∀ d ∈ s.hif.cmds, d.fsn < s.hif.fsn) →
      (tunnelExcluded q.opc = false → s.adminStatus fn true q = stOk → Gives (.adminCommandTunnel path fn q) s fun t =>
        t.hif.cmds = s.hif.cmds ++ [{ fsn := s.hif.fsn, fn := fn, sq := 0, sqe := q, tunnel := true, frame := s.time.frame }] ∧ t.outbox = s.outbox) ∧
      (tunnelExcluded q.opc = true → Gives (.adminCommandTunnel path fn q) s fun t =>
        t.hif.cmds = s.hif.cmds ∧ ∃ d, t.outbox = .mi 0xF0 stInvalidOpcode d :: s.outbox)) ∧
    (∀ sess a n, s.mayProvision sess = false → exec (.registerRead path sess a n) s = .next (s.send (.mi 0xC1 miDenied []))) ∧
    (∀ sess a v, s.mayProvision sess = false → exec (.registerWrite path sess a v) s = .next (s.send (.mi 0xC2 miDenied []))) ∧
    (∀ (sess : Nat) (a v : W32), s.mayProvision sess = true → a.toNat % 4 = 0 → a.toNat < regEnd →
      (∃ t : State, exec (.debugAccessPort a none) s = .next (t.send (.reg 0xFFF a.toNat (s.busRead .mgmt a.toNat).1)) ∧
        exec (.registerRead path sess a 1) s = .next (t.send (.mi 0xC1 miOk (leBytes 4 (s.busRead .mgmt a.toNat).1)))) ∧
      (∃ t : State, exec (.plainRegisterWrite .mgmt a v) s = .next t ∧ exec (.debugAccessPort a (some v)) s = .next t ∧
        exec (.registerWrite path sess a v) s = .next (t.send (.mi 0xC2 miOk []))))

/-- R84, R96, R98, R99, R409, R449, R450, R461: which requests are answered where: a health status poll in every
state, others held in a non-operational state; the wake address wakes the device, the SMBus address does not, and no
other is served; a halted one serves what the halt leaves; in band the same requests ride on NVMe-MI Send and Receive.
The request and response layouts are the model's (PRESUMED, assumption 14). -/
def Obligations.ManagementPaths : Prop :=
  (∀ (s : State) (path : Nat) (clear : Bool), s.miPathUp path = true →
    Gives (.nvmSubsystemHealthStatusPoll path clear) s fun t => t.outbox = .mi 0x01 miOk s.miHealth :: s.outbox ∧
      t.hif.mhs = (if clear then 0 else s.hif.mhs) ∧ { t with hif := s.hif, outbox := s.outbox } = s) ∧
  (∀ (s : State) (path a n : Nat), s.miPathUp path = true → s.lvl.core = true →
    (3 ≤ s.pwr.cur → Gives (.controllerHealthStatusPoll path a n) s fun t => t.hif.held = s.hif.held ++ [(path, .ctrlPoll a n)] ∧ t.outbox = s.outbox) ∧
    (s.pwr.cur ≤ 2 → s.halted = true → exec (.controllerHealthStatusPoll path a n) s = .next (s.send (.mi 0x02 miInternal []))) ∧
    (s.pwr.cur ≤ 2 → s.halted = false → n = 0 → ∀ f l, s.allFns.filter (fun x => decide (a ≤ x)) = f :: l →
      exec (.controllerHealthStatusPoll path a n) s = .next (s.send (.mi 0x02 miOk ([1, 0, 0, 0] ++ s.miCtrl f)))) ∧
    (s.pwr.cur ≤ 2 → s.halted = true ∧ s.getF F.FLT_REGC_WIRED = 1 → Gives (.coldResetConfirm path) s fun t => t.flt.armed = true ∧
      t.outbox = .mi 0xC0 miOk [] :: s.outbox) ∧
    (s.pwr.cur ≤ 2 → s.halted = false → exec (.coldResetConfirm path) s = .next (s.send (.mi 0xC0 miParam [])))) ∧
  (∀ (s u : State) (b c : Bool) (ms addr : Nat), 
    (3 ≤ s.pwr.cur → addr = s.getF F.HIF_MI_CFG_WAKE_ADDR → exec (.powerStateExit 2 b ms) s = .next u →
      ∃ t : State, exec (.nvmSubsystemHealthStatusPoll 0 c) u = .next t ∧ exec (.smbusWakePacket addr (.healthPoll c) b ms) s = .next t) ∧
    (addr ≠ s.getF F.HIF_MI_CFG_WAKE_ADDR → addr = Config.smbusAddr → Gives (.smbusWakePacket addr (.healthPoll c) b ms) s fun t =>
      t.outbox = .mi 0x01 miOk s.miHealth :: s.outbox ∧ t.pwr = s.pwr) ∧
    (addr ≠ s.getF F.HIF_MI_CFG_WAKE_ADDR → addr ≠ Config.smbusAddr → ∀ r, exec (.smbusWakePacket addr r b ms) s = .next s)) ∧
  (∀ s : State, Gives .malformedMctpPacket s fun t => t.getF F.HIF_EVT_MI_ERR = 1 ∧ { t with fields := s.fields } = s) ∧
  (∀ (s : State) (c : Cmd), s.inTurn c →
    (c.sqe.opc = 0x1D → ∀ o d, c.miReq = some (.vpdWrite o d) → o + d.length ≤ 1024 →
      Gives (.nvmeMiSend c.fsn) s fun t => s.posted t c stOk miOk ∧ t.hif.vpd.getRange 0 o d.length = d) ∧
    (c.sqe.opc = 0x1E → ∀ o n, c.miReq = some (.vpdRead o n) → o + n ≤ 1024 →
      Gives (.nvmeMiReceive c.fsn) s fun t => s.posted t c stOk miOk (s.hif.vpd.getRange 0 o n)) ∧
    (c.sqe.opc = 0x1D → c.miReq = some (.regWrite 0 0 0) → Gives (.nvmeMiSend c.fsn) s fun t => s.posted t c stOk miDenied ∧ t.units = s.units)) ∧
  (∀ (s : State) (a v : W32), s.halted = true → a.toNat % 4 = 0 → a.toNat < regEnd → a ≠ 0x300024 → a ≠ 0x400024 →
    exec (.debugAccessPort a (some v)) s = .next (s.send (.busErr 0xFFF a.toNat)))

/-! ### Security -/

/-- R379, R381 to R386, R394, Tables 13.6 and 13.7: Key Blob Import fills, rotates and zeroises a slot or gives its
reason; the rekey pass ends with PREVIOUS gone; Security Send carries a request and Security Receive returns the
response that waits. The status values and field places of NVMe are the model's (PRESUMED, assumption 13). -/
def Obligations.KeysAreImported : Prop :=
  (∀ (s : State) (nsid : Nat) (n : Ns), s.ns nsid = some n → n.zoned = false → (s.slot nsid).prev.isSome = true → s.oldKeys nsid = [] →
    Gives (.rekeyPass nsid) s fun t => t.slot nsid = { s.slot nsid with prev := none, rotWsn := 0, rekey := false } ∧ { t with sec := s.sec } = s) ∧
  ∀ (s : State) (c : Cmd), s.inTurn c →
    let imp := s.importer c
    let act := c.blobAction
    (c.sqe.opc = 0xC9 → s.foreignSlot c c.blobSlot = false → c.sqe.cdw11 / 2 ^ 18 = 0 →
      (act = 2 → c.sqe.cdw10 = 0 → isGenSlot c.blobSlot = true → (s.slot c.blobSlot).kind ≠ 0 → c.blobSlot ≠ 0xFFFF →
        Gives (.keySlotZeroise c.fsn) s fun t => s.posted t c stOk c.blobSlot ∧ t.slot c.blobSlot = { ctr := (s.slot c.blobSlot).ctr } ∧ ∀ k, k ≠ c.blobSlot → t.slot k = s.slot k) ∧
      (∀ dst, s.blobDst c = some dst →
        (act = 0 → s.blobReason imp act c.blobSlot dst c.sqe.cdw10 c.sqe.data ≠ 0 →
          Gives (.keyBlobInstall c.fsn) s fun t => s.posted t c stInvalidField (s.blobReason imp act c.blobSlot dst c.sqe.cdw10 c.sqe.data) ∧
            t.sec = s.sec ∧ t.getF F.SEC_EVT_BLOB_REJ = 1) ∧
        (∀ k w, s.wrapKey imp (leAt c.sqe.data 4 2) = some w → blobKey w c.sqe.data = some k →
          s.blobReason imp act c.blobSlot dst c.sqe.cdw10 c.sqe.data = 0 →
          (act = 0 → (isNsSlot dst = true → s.nsEmpty dst = true) →
            Gives (.keyBlobInstall c.fsn) s fun t => s.posted t c stOk dst ∧ (t.slot dst).cur = some (2 * ofLe k + 1) ∧ (t.slot dst).prev = none ∧
              (t.slot dst).kind = bKind c.sqe.data ∧ (t.slot dst).ctr = leAt c.sqe.data 16 8 ∧ ∀ j, j ≠ dst → t.slot j = s.slot j) ∧
          (act = 1 → (s.slot dst).prev = none →
            Gives (.keyRotation c.fsn) s fun t => s.posted t c stOk dst ∧ (t.slot dst).cur = some (2 * ofLe k + 1) ∧
              ((t.slot dst).prev = (s.slot dst).cur ∧ (t.slot dst).rotWsn = s.lnd.wsn ∨ (t.slot dst).prev = none)) ∧
          (act = 1 → (s.slot dst).prev.isSome = true → Gives (.keyRotation c.fsn) s fun t => s.posted t c stSequence ∧ t.sec = s.sec)))) ∧
    (c.sqe.opc = 0x81 → sglStatus c.sqe c.sqe.cdw11 = stOk →
      (c.sqe.cdw10 / 2 ^ 24 % 256 ≠ 0xE8 → Gives (.securitySend c.fsn) s fun t => s.posted t c stInvalidField ∧ t.sec = s.sec) ∧
      (c.sqe.cdw10 / 2 ^ 24 % 256 = 0xE8 → leAt c.sqe.data 1 1 = 0xFE → Gives (.securitySend c.fsn) s fun t => s.posted t c stOk ∧
        t.sec.resp.get [] c.fn = spdmMsg 0x7F 0x06 0 [] ∧ t.sec.sessions = s.sec.sessions)) ∧
    (c.sqe.opc = 0x82 → sglStatus c.sqe c.sqe.cdw11 = stOk →
      (c.sqe.cdw10 / 2 ^ 24 % 256 = 0 → Gives (.securityReceive c.fsn) s fun t => s.posted t c stOk 0 ((zeros 6 ++ [0, 2, 0, 0xE8]).take c.sqe.cdw11)) ∧
      (c.sqe.cdw10 / 2 ^ 24 % 256 = 0xE8 → Gives (.securityReceive c.fsn) s fun t => s.posted t c stOk 0 ((s.sec.resp.get [] c.fn).take c.sqe.cdw11) ∧
        t.sec.resp.get [] c.fn = []))

/-- R384, R394, R395, Table 13.6: the SPDM responder over MCTP: the connection goes through its three steps and
answers one out of order with ERROR; a session is opened, finished and ended; provisioning needs a session of the
owner. The message layouts are the model's (PRESUMED, assumption 15). -/
def Obligations.SpdmAnswersInOrder : Prop :=
  ∀ s : State, s.lvl.core = true → s.halted = false →
    let conn := s.sec.conn.get 0 0
    (Gives .getVersion s fun t => t.sec.conn.get 0 0 = 1 ∧ (∀ x ∈ t.sec.sessions, x.mctp = false) ∧ ∃ d, t.outbox = .spdm 0x84 d :: s.outbox) ∧
    (∀ p ∈ [(Instr.getCapabilities, 0xE1, 1), (.negotiateAlgorithms, 0xE3, 2)],
      (p.2.2 ≤ conn → Gives p.1 s fun t => t.sec.conn.get 0 0 = p.2.2 + 1 ∧ ∃ d, t.outbox = .spdm p.2.1 (spdmMsg (p.2.1 - 0x80) 0 0 d) :: s.outbox) ∧
      (conn < p.2.2 → exec p.1 s = .next (s.send (.spdm p.2.1 spdmUnexpected)))) ∧
    (∀ n d a b, ∀ p ∈ [(Instr.getDigests, 0x81), (.getCertificate a b, 0x82), (.challenge n, 0x83), (.getMeasurements n, 0xE0), (.keyExchange d, 0xE4)],
      conn ≠ 3 → exec p.1 s = .next (s.send (.spdm p.2 spdmUnexpected))) ∧
    (conn = 3 →
      exec .getDigests s = .next (s.send (.spdm 0x81 (spdmMsg 0x01 0 1 (Config.sha3 s.sec.chain)))) ∧
      (∀ a b, Gives (.getCertificate a b) s fun t => { t with outbox := s.outbox } = s ∧
        ∃ h, t.outbox = .spdm 0x82 (spdmMsg 0x02 0 0 (h ++ (s.sec.chain.drop a).take b)) :: s.outbox) ∧
      (∀ n, exec (.challenge n) s = .next (s.send (.spdm 0x83 (spdmMsg 0x03 0 1 (Config.sha3 s.sec.chain ++ Config.mldsaSign s.sec.alias_ (Config.sha3 n)))))) ∧
      (∀ n, Gives (.getMeasurements n) s fun t => { t with outbox := s.outbox } = s ∧
        ∃ h, t.outbox = .spdm 0xE0 (spdmMsg 0x60 s.measures.length 0 (h ++ s.measures.flatten ++ n ++ Config.mldsaSign s.sec.alias_ (Config.sha3 (h ++ s.measures.flatten ++ n)))) :: s.outbox) ∧
      (∀ d, Gives (.keyExchange d) s fun t => t.sec.sessions = s.sec.sessions ++ [{ id := s.sec.nextSess, mctp := true }] ∧ t.sec.nextSess = s.sec.nextSess + 1)) ∧
    (∀ k x, s.session 0 k = some x →
      (∀ a, x.up = false → Gives (.finish k a) s fun t => t.session 0 k = some { x with up := true, auth := if a.isEmpty then none else some a } ∧
        t.outbox = .spdm 0xE5 (spdmMsg 0x65 0 0 []) :: s.outbox) ∧
      (x.up = true → (Gives (.endSession k) s fun t => t.session 0 k = none ∧ t.outbox = .spdm 0xEC (spdmMsg 0x6C 0 0 []) :: s.outbox) ∧
        exec (.heartbeat k) s = .next (s.send (.spdm 0xE8 (spdmMsg 0x68 0 0 []))) ∧ exec (.keyUpdate k) s = .next (s.send (.spdm 0xE9 (spdmMsg 0x69 0 0 []))))) ∧
    (∀ k d, d.length = 32 →
      (s.mayProvision k = true →
        (Gives (.setKik k d) s fun t => t.sec.kik = some (2 * ofLe d + 1) ∧ t.getF F.SEC_EVT_PROV = 1 ∧ t.outbox = .spdm 0x7E [] :: s.outbox) ∧
        (Gives (.clearKik k) s fun t => t.sec.kik = none ∧ t.getF F.SEC_EVT_PROV = 1 ∧ t.sec.slots = s.sec.slots) ∧
        (Gives (.setOpkh k d) s fun t => t.sec.opkh = some d ∧ t.getF F.SEC_EVT_PROV = 1) ∧
        exec (.getState k) s = .next (s.send (.spdm 0x7E (leBytes 4 s.secStat)))) ∧
      (s.mayProvision k = false → ∀ c ∈ [Instr.setKik k d, .clearKik k, .setOpkh k d, .getState k], exec c s = .next (s.send (.mi 0xFE miDenied []))))

/-- R371 to R377, R387, R388, R392, R396: a cipher job takes a free pipeline with a seed, stalls without one, and
waits where the frame's grant does not hold it; a failed test fences its pipeline, and the cluster with its last one;
entropy blocks, reseeding; an alarm stops the clusters and overwrites every key; the fused counters and the revoke
fuses only go up. -/
def Obligations.ClustersAndAlarms : Prop :=
  ∀ (s : State) (q : Nat), q < 4 → s.sec.stopped = false →
    let c := s.cc q
    let alarmed := fun (t : State) (src : Nat) => t.sec.stopped = true ∧ t.sec.zeroised = true ∧ t.sec.alarm = 2 ^ src ∧ t.sec.slots = {} ∧ t.sec.kik = none ∧
      (∃ e ∈ t.flt.queue, e.code = 0x0301 ∧ e.unit = uSvc 6 ∧ e.detail = 2 ^ src)
    (∀ (j : JobIn) p b k, c.queue = [] → c.freePipe = some p → s.unitState (uCC q) = .up → s.sched.drain = false → j.prio ≤ 3 → j.prio ≠ 1 →
      j.cls ≤ 4 → 1 ≤ j.blocks → j.blocks ≤ 4096 →
      let job := fun (prio : Nat) => ({ id := c.jobs, prio := prio, slot := j.slot, blocks := j.blocks, cls := j.cls, tid := j.tid, fsn := j.fsn,
                                        born := s.time.frame } : CJob)
      let fits := s.sched.ccUsed.get 0 q + 16 * j.blocks ≤ s.sched.ccGrant
      (fits → c.pool ≠ 0 → Gives (.cipherJob q [] (some j) b k) s fun t =>
        (∃ prio, (prio = j.prio ∨ j.prio = 0 ∧ prio = 2) ∧ ((t.cc q).pipes.get {} p).run = some (job prio)) ∧ (t.cc q).queue = [] ∧
        (t.cc q).jobs = c.jobs + 1 ∧ (∀ i, i ≠ p → (t.cc q).pipes.get {} i = c.pipes.get {} i) ∧
        t.sched.ccUsed.get 0 q = s.sched.ccUsed.get 0 q + 16 * j.blocks ∧ { t with sec := s.sec, sched := s.sched } = s) ∧
      (fits → c.pool = 0 → Gives (.cipherJob q [] (some j) b k) s fun t => (t.cc q).pipes = c.pipes ∧ (t.cc q).queue = [job j.prio] ∧
        t.getF F.CC_EVT_RNG_STALL q = 1) ∧
      (¬ fits → Gives (.cipherJob q [] (some j) b k) s fun t => (t.cc q).pipes = c.pipes ∧ (t.cc q).queue = [job j.prio] ∧ t.fields = s.fields)) ∧
    (∀ p, p < 16 → c.up.testBit p = true →
      exec (.knownAnswerTest q p true) s = .next s ∧
      (Gives (.knownAnswerTest q p false) s fun t => (t.cc q).up = putBit c.up p false ∧ t.getF F.CC_EVT_KAT_FAIL q = 1 ∧
        (∃ e ∈ t.flt.queue, e.code = 0x0208 ∧ e.unit = uCC q ∧ e.detail = p) ∧
        (putBit c.up p false = 0 → (t.unit (uCC q)).st = .fenced) ∧ (putBit c.up p false ≠ 0 → t.units = s.units))) ∧
    (c.gens < 4096 → exec (.drbgReseed q) s = .next s) ∧
    (4096 ≤ c.gens → Gives (.drbgReseed q) s fun t => (t.cc q).gens ≤ 4 ∧ c.pool ≤ (t.cc q).pool ∧ { t with sec := s.sec } = s) ∧
    (Gives (.entropyBlock q true) s fun t => t.cc q = { c with bad := 0 } ∧ { t with sec := s.sec } = s) ∧
    (c.bad < 15 → Gives (.entropyBlock q false) s fun t => t.cc q = { c with bad := c.bad + 1 } ∧ t.getF F.CC_EVT_TRNG_BAD q = 1 ∧ t.sec.slots = s.sec.slots) ∧
    (15 ≤ c.bad → s.lvl.core = true → Gives (.entropyBlock q false) s fun t => alarmed t 4) ∧
    (∀ src, src < 8 → s.lvl.core = true → Gives (.alarm src) s fun t => alarmed t src) ∧
    (∀ (e : Nat) (v : W32), s.lvl.core = true → v.toNat % 2 = 1 → Gives (.force (.eng e) v) s fun t => alarmed t 7) ∧
    (∀ v : W32, exec (.force .mgmt v) s = .next (s.accFault .mgmt 0xF00008) ∧ exec (.revoke .mgmt v) s = .next (s.accFault .mgmt 0xF00030)) ∧
    (∀ v : W32, v.toNat.testBit 31 = true → Gives (.raise v) s fun t =>
      ∀ k, k < 4 → t.sec.svn.get 0 k = max (s.sec.svn.get 0 k) ((s.sec.imgs.get none k).getD {}).svn) ∧
    (∀ (e : Nat) (v : W32),
      ((v.toNat % 16).testBit s.sec.vkey = false → exec (.revoke (.eng e) v) s = .next { s with sec := { s.sec with revoked := s.sec.revoked ||| (v.toNat % 16) } }) ∧
      ((v.toNat % 16).testBit s.sec.vkey = true → exec (.revoke (.eng e) v) s = .next s))

/-! ### Programs, scans and hooks -/

/-- R94, R295, R301, R303, R307 to R312: a container that the verifier accepts becomes a program under the lowest free
handle; one it refuses leaves its code and offset; bindings are made and undone, a program replaced under its handle,
unloaded, and listed. All but the listing wait for the Scans of lower FSN to take their images. The status values and
field places of NVMe are the model's (PRESUMED, assumption 13). -/
def Obligations.ProgramsAreLoadedAndBound : Prop :=
  ∀ (s : State) (c : Cmd), s.inTurn c →
    (s.scanBefore c.fsn = true → ∀ i ∈ [Instr.programLoad c.fsn, .programBind c.fsn, .programUnbind c.fsn, .programReplace c.fsn, .programUnload c.fsn],
      exec i s = .next s) ∧
    (s.scanBefore c.fsn = false →
    let b := c.sqe.data.take c.sqe.cdw10
    let tid := if cRing b = 2 then (if c.ringO then c.sqe.cdw11 else s.cmdTid c) else 0
    let here := fun (b : Bind) => b.target == c.bTarget && b.handle == c.bHandle && b.nsid == c.sqe.nsid && (b.target == 1 || b.scope == c.bScope)
    let bind : Bind := { handle := c.bHandle, target := c.bTarget, nsid := c.sqe.nsid, scope := c.bScope }
    (c.sqe.opc = 0xC1 → sglStatus c.sqe c.sqe.cdw10 = stOk → c.badLoad = false → c.sqe.cdw11 < 4096 → (c.ringO = false → c.sqe.cdw11 = 0) →
      (verdict (s.vIn c) b = none → s.progLimit (s.newProg c b tid) = false →
        Gives (.programLoad c.fsn) s fun t => s.posted t c stOk s.freeHandle ∧ t.prog s.freeHandle = some (s.newProg c b tid) ∧
          ∀ h, h ≠ s.freeHandle → t.prog h = s.prog h) ∧
      (∀ code off, verdict (s.vIn c) b = some (code, off) →
        Gives (.programLoad c.fsn) s fun t => s.posted t c stProgRejected (code % 256 + off % 2 ^ 24 * 256) ∧ t.prg.progs = s.prg.progs ∧
          t.prg.vres = code % 256 + off % 2 ^ 24 * 256 ∧ t.getF F.PRG_EVT_REJECT = 1)) ∧
    (c.sqe.opc = 0xC4 → s.bindStatus c = stOk → ∀ p, s.live c.bHandle = some p →
      (c.bUnbind = false → s.bindOk c p = true →
        (s.bindTaken c = false → Gives (.programBind c.fsn) s fun t => s.posted t c stOk ∧ t.prg.binds = s.prg.binds ++ [bind] ∧
          t.prg.osvn = (if p.ring = 1 then max s.prg.osvn p.svn else s.prg.osvn)) ∧
        (s.bindTaken c = true → Gives (.programBind c.fsn) s fun t => s.posted t c stSequence ∧ t.prg = s.prg)) ∧
      (c.bUnbind = true →
        (s.prg.binds.any here = true → Gives (.programUnbind c.fsn) s fun t => s.posted t c stOk ∧ t.prg.binds = s.prg.binds.filter (fun b => !here b)) ∧
        (s.prg.binds.any here = false → Gives (.programUnbind c.fsn) s fun t => s.posted t c stInvalidField ∧ t.prg = s.prg))) ∧
    (c.sqe.opc = 0xC5 → sglStatus c.sqe c.sqe.cdw10 = stOk → c.badLoad = false → c.sqe.cdw11 < 65536 → c.sqe.cdw11 ≠ 0 → s.foreignProg c c.sqe.cdw11 = false →
      ∀ old, s.live c.sqe.cdw11 = some old → verdict (s.vIn c) b = none → (s.newProg c b old.tid).ring = old.ring →
        (s.usedKinds c.sqe.cdw11).any (fun k => ((s.newProg c b old.tid).entry k).isNone) = false →
        Gives (.programReplace c.fsn) s fun t => s.posted t c stOk c.sqe.cdw11 ∧ t.prg.binds = s.prg.binds ∧ t.prg.scans = s.prg.scans ∧
          (∃ n, t.prog c.sqe.cdw11 = some { s.newProg c b old.tid with statePage := n }) ∧ ∀ h, h ≠ c.sqe.cdw11 → t.prog h = s.prog h) ∧
    (c.sqe.opc = 0xC8 → c.sqe.cdw10 < 65536 → c.sqe.cdw10 ≠ 0 → c.sqe.cdw11 < 2 → s.foreignProg c c.sqe.cdw10 = false → (s.live c.sqe.cdw10).isSome = true →
      (c.sqe.cdw11 = 0 → s.prg.binds.any (fun b => b.handle == c.sqe.cdw10) = true → Gives (.programUnload c.fsn) s fun t => s.posted t c stSequence ∧ t.prg = s.prg) ∧
      (c.sqe.cdw11 = 1 → s.scansOf c.sqe.cdw10 = [] → risingL s.prg.progs.items = true →
        Gives (.programUnload c.fsn) s fun t => s.posted t c stOk ∧ t.prog c.sqe.cdw10 = none ∧ ∀ x ∈ t.prg.binds, x.handle ≠ c.sqe.cdw10))) ∧
    (c.sqe.opc = 0xCA → c.sqe.cdw11 < 65536 → sglStatus c.sqe (4 * (c.sqe.cdw10 + 1)) = stOk →
      let rs := (s.visible c.ringO (s.cmdTid c) c.sqe.cdw11).map s.progRec
      Gives (.programInventoryRead c.fsn) s fun t => s.posted t c stOk (min rs.length (4 * (c.sqe.cdw10 + 1) / 64)) (rs.flatten.take (4 * (c.sqe.cdw10 + 1))) ∧
        t.prg = s.prg)

/-- R297, R298, R313 to R321: a scan is queued with the image of its program, becomes resident, and runs its steps
within its engine's frame; it ends with END when its results have no room or it is cancelled, and completes once its
results have crossed the host link. The QOS hook's weights wait for the next frame; a hook that does not fit its
engine's frame waits, and one that misses its deadline is replaced by its default. -/
def Obligations.ScansAndHooks : Prop :=
  (∀ (s : State) (c : Cmd) (n : Ns) (p : Prog), s.runs c → c.sq ≠ 0 → c.sqe.opc = 0x83 → s.ns c.sqe.nsid = some n → c.ph = .fetched → s.progBefore c.fsn = false →
    s.behindWhole c = false → c.badScan = false → s.foreignNs c c.sqe.nsid = false →
    let rs := (List.range (dNrange c.sqe.data)).map (scanRange c.sqe.data)
    (rs.any (fun r => decide (n.nsze < r.1 + r.2)) = true → Gives (.scan c.fsn) s fun t => s.posted t c stLbaRange ∧ t.prg = s.prg) ∧
    (rs.any (fun r => decide (n.nsze < r.1 + r.2)) = false → s.live c.sqe.cdw12 = some p → (p.ring = 1 ↔ c.ringO = true) → s.noKey n = false →
      s.prg.binds.any (fun b => b.target == 1 && b.handle == c.sqe.cdw12 && b.nsid == c.sqe.nsid) = true →
      Gives (.scan c.fsn) s fun t => (t.cmd c.fsn).map (·.ph) = some .running ∧
        ∃ x, t.prg.scans = s.prg.scans ++ [x] ∧ x.fsn = c.fsn ∧ x.fe = s.scanFe ∧ x.prog = p ∧ x.nsid = c.sqe.nsid ∧ x.ranges = rs ∧ x.rlen = c.sqe.cdw11 ∧
          x.room = dRoom c.sqe.data ∧ x.resident = false ∧ x.stage = (if (p.entry 1).isSome then 0 else 1))) ∧
  (∀ (s : State) (x : Scan) (r : Nat), s.scanOf x.fsn = some x → x.resident = false →
    ((s.prg.scans.filter (fun y => y.fe == x.fe && !y.resident)).head?).map (·.fsn) = some x.fsn → (List.range 4).find? (fun r => !(s.feRegions x.fe).contains r) = some r →
    s.unitState (uEng (eFE x.fe)) = .up → s.swapping (eFE x.fe) = false →
    s.scratchFit x.prog.scratchPages + 4096 * x.prog.scratchPages ≤ s.scratchTop → s.scratchHeld x.prog.tid + x.prog.scratchPages ≤ s.getF F.PRG_TQUOTA_PAGES →
    Gives (.scanResident x.fsn) s fun t =>
      t.scanOf x.fsn = some { x with resident := true, region := r, scratch := x.prog.scratchPages, scrBase := s.scratchFit x.prog.scratchPages }) ∧
  (∀ (s : State) (x : Scan) (l cr : List Nat), s.scanOf x.fsn = some x → x.resident = true → s.unitState (uEng (eFE x.fe)) = .up →
    s.swapping (eFE x.fe) = false → (s.eng (eFE x.fe)).ring = 0 → (s.eng (eFE x.fe)).scan = none → x.cancel = none →
    let ended := fun (t : State) (n : Nat) => t.scanOf x.fsn = none ∧ ∀ d, s.cmd x.fsn = some d → (t.cmd x.fsn).map (·.fin) = some (some (stOk, x.result.length, n))
    let e := eFE x.fe
    (x.rlen - 32 - x.result.length < x.room → Gives (.scanStep x.fsn l cr) s fun t => ended t 2) ∧
    (x.room ≤ x.rlen - 32 - x.result.length → s.stepPicked x = false ∨ s.cycLeft e < x.prog.needCyc → exec (.scanStep x.fsn l cr) s = .next s) ∧
    (∀ n s' d, x.room ≤ x.rlen - 32 - x.result.length → s.stepPicked x = true → x.prog.needCyc ≤ s.cycLeft e → x.stage = 1 → s.ns x.nsid = some n →
      s.noKey n = false →
      let from_ := (x.ranges.getD x.rng (0, 0)).1 + x.blk
      let keys := (List.range x.slabBlocks).map fun i => n.key (from_ + i)
      let w := (s.lookAt (arbEng e) (s.stepReqs x.fe)).walkAll keys
      w.pagesOk keys = true → w.readRange n x.nsid x.fsn l cr from_ 0 (w.seenRange n x.nsid from_ x.slabBlocks) = (.data d, s') →
      Gives (.scanStep x.fsn l cr) s fun t => (t.eng e).scan = some x.fsn ∧ (t.eng e).ring = x.prog.ring ∧ (t.eng e).inAtt = true ∧
        (t.eng e).inp = ((List.range x.slabBlocks).flatMap fun i => (d.drop (i * n.blockBytes)).take 4096) ∧
        (t.eng e).inLast = decide (x.ranges.length ≤ x.advance.rng)) ∧
    (x.room ≤ x.rlen - 32 - x.result.length → s.stepPicked x = true → x.prog.needCyc ≤ s.cycLeft e → x.stage ≠ 1 →
      Gives (.scanStep x.fsn l cr) s fun t => (t.eng (eFE x.fe)).ring = x.prog.ring ∧ (t.eng (eFE x.fe)).budget = x.prog.stepmax ∧
        (t.eng (eFE x.fe)).scan = some x.fsn ∧ (t.eng (eFE x.fe)).inAtt = false ∧ (t.eng (eFE x.fe)).outAtt = true ∧ (t.eng (eFE x.fe)).room = x.room ∧
        (t.eng (eFE x.fe)).frame = s.time.frame ∧ (t.eng (eFE x.fe)).vpc = (s.eng (eFE x.fe)).vpc ∧ (∀ k, k ≠ eFE x.fe → t.eng k = s.eng k))) ∧
  (∀ (s : State) (c : Cmd), s.runs c → c.sq ≠ 0 → c.sqe.opc = 0x84 → c.ph = .fetched →
    (s.cancelTarget c = none → Gives (.scanCancel c.fsn) s fun t => s.posted t c stOk 1 ∧ t.prg = s.prg) ∧
    (∀ x, s.cancelTarget c = some x → x.cancel = none → x.fsn ≠ c.fsn →
      ((s.eng (eFE x.fe)).scan ≠ some x.fsn → Gives (.scanCancel c.fsn) s fun t => s.posted t c stOk 0 ∧ t.scanOf x.fsn = none ∧
        (t.cmd x.fsn).map (·.fin) = some (some (stOk, x.result.length, 3))) ∧
      ((s.eng (eFE x.fe)).scan = some x.fsn → Gives (.scanCancel c.fsn) s fun t => (t.scanOf x.fsn).map (·.cancel) = some (some c.fsn) ∧
        (t.cmd c.fsn).map (·.ph) = some .running ∧ t.outbox = s.outbox))) ∧
  (∀ (s : State) (c : Cmd) (f : Nat × Nat × Nat), s.hif.cmds = [c] → c.fin = some f →
    (c.left = 0 → s.finishScans = s.complete c.fsn f.1 f.2.1 c.sqe.data f.2.2) ∧ (c.left ≠ 0 → s.finishScans = s)) ∧
  (∀ (s : State) (tid w : Nat), s.prg.qosStart + 1024 * s.prg.qosPer ≤ s.time.frame → (s.prg.binds.any fun b => b.target == 0x14 && !b.susp) = true →
    s.firstHe.isSome = true → s.hookFits 4 0 = true → tid < 4096 → w % 65536 ≠ 0 →
    Gives (.qosHook (some (0, [(tid, w)]))) s fun t => t.sched.pendW.get none tid = some (w % 65536, 1) ∧ t.sched.ledger = s.sched.ledger ∧
      t.prg.qosStart = s.time.frame) ∧
  (∀ (s : State) (r : Option (Nat × List (Nat × Nat))), s.time.frame < s.prg.qosStart + 1024 * s.prg.qosPer → exec (.qosHook r) s = .next s) ∧
  (∀ (s : State) (r : Option (Nat × List (Nat × Nat))), s.hookFits 4 0 = false → exec (.qosHook r) s = .next s) ∧
  (∀ (s : State) (h q : Nat) (b : Bind), s.hookBind h q = some b → Gives (.hookDeadlineMiss h q) s fun t => t.getF F.PRG_EVT_LATE = 1 ∧ t.getF F.PRG_EVT_REPL = 1 ∧
    t.prg = s.prg ∧ ∃ e ∈ t.flt.queue, e.code = 0x0104 ∧ e.detail = b.handle)

/-! ### Memory protection and DRAM -/

/-- R324, R325, R329, R334: every word as it is written decodes clean; one bit in error, of the data or of the check
bits, is corrected and attributed to the device that holds it; a poisoned word decodes as poisoned, with one bit in
error too. -/
def Obligations.WordsAreCoded : Prop :=
  ∀ d : Nat, d < 2 ^ 64 →
    decodeWord (protect d) = .clean d ∧
    (∀ r c, r < 8 → c < 8 → decodeWord (protect d ^^^ 2 ^ (8 * r + c)) = .corr d r (protect d)) ∧
    (∀ k, k < 8 → decodeWord (protect d ^^^ 2 ^ (64 + k)) = .corr d 8 (protect d) ∧ decodeWord (protect d ^^^ 2 ^ (72 + k)) = .corr d 9 (protect d)) ∧
    decodeWord (poisonWord d) = .poisoned ∧
    (∀ k, k < 80 → decodeWord (poisonWord d ^^^ 2 ^ k) = .poisoned)

/-- R328, R332, R334, R337 to R342, R345, R346: a patrol lap writes a correction back and counts; a device is declared
failed once; a hard fault takes a spare row, or none is left, or its page is withheld; a pass starts, stops and ends
with its code; ARM. -/
def Obligations.MemoryIsScrubbed : Prop :=
  (∀ s : State,
    (s.flag F.MEMP_CTL_SRAM_EN = false → exec .sramPatrol s = .next s) ∧
    (s.flag F.MEMP_CTL_DRAM_EN = false → exec .dramPatrol s = .next s) ∧
    (s.pwr.cur = 4 → exec .dramPatrol s = .next s) ∧
    ((∀ k ∈ s.memp.words.keys, ∃ d, s.wordCls (k * 8) = .clean d) →
      (s.flag F.MEMP_CTL_SRAM_EN = true → exec .sramPatrol s = .next { s with memp := { s.memp with lapS := (s.memp.lapS + 1) % 65536 } }) ∧
      (s.flag F.MEMP_CTL_DRAM_EN = true → s.pwr.cur ≠ 4 → exec .dramPatrol s = .next { s with memp := { s.memp with lapD := (s.memp.lapD + 1) % 65536, attr := {} } })) ∧
    (∀ a w d dev f, s.memp.words.items = [(a / 8, w)] → a % 8 = 0 → locSpace a = 1 → s.curPwr (locUnit a) = 2 → s.wordCls a = .corr d dev f →
      s.flipHits a = false → s.flag F.MEMP_CTL_SRAM_EN = true →
      Gives .sramPatrol s fun t => t.word a = f ∧ t.memp.lapS = (s.memp.lapS + 1) % 65536 ∧ t.getF F.MEMP_EVT_CORR = 1 ∧
        ∃ e ∈ t.flt.queue, e.code = 0x0001 ∧ e.unit = locUnit a ∧ e.detail = a)) ∧
  (∀ (s u : State) (v : W32) (r : Reg), regAt 0xD00030 = some r → s.storeReg r 0 v.toNat = some u →
    (v.toNat.testBit 31 = false → exec (.declare v) s = .next u) ∧
    (v.toNat.testBit 31 = true → bits v.toNat 23 20 ≤ 9 → s.memp.failed.get 0 (bits v.toNat 26 24) = 0 →
      Gives (.declare v) s fun t => t.memp.failed.get 0 (bits v.toNat 26 24) = bits v.toNat 23 20 + 1 ∧
        (∀ k, k ≠ bits v.toNat 26 24 → t.memp.failed.get 0 k = s.memp.failed.get 0 k) ∧ t.getF F.MEMP_EVT_DEVFAIL = 1 ∧
        ∃ e ∈ t.flt.queue, e.code = 0x0205 ∧ e.unit = uDram (bits v.toNat 26 24) ∧ e.detail = bits v.toNat 23 20) ∧
    (v.toNat.testBit 31 = true → s.memp.failed.get 0 (bits v.toNat 26 24) ≠ 0 → exec (.declare v) s = .next u)) ∧
  (∀ (s : State) (i : Nat) (e : RepEnt), s.memp.rep.get none i = some e → e.st = 2 →
    (locSpace e.addr = 0 → Gives (.hardFaultRepair i) s fun t => e.addr / 4096 ∈ t.memp.withheld ∧ t.dram.repairs = s.dram.repairs ++ [e.addr] ∧
      t.memp.rep.get none i = some { e with st := 3 } ∧ t.memp.words = s.memp.words) ∧
    (locSpace e.addr ≠ 0 → ∀ k, s.freeSpare (locUnit e.addr) (locOff e.addr / 262144) = some k → s.memp.soft.length < 1024 →
      Gives (.hardFaultRepair i) s fun t => t.memp.soft = s.memp.soft ++ [⟨locUnit e.addr, locOff e.addr / 262144, k, locOff e.addr % 262144 / 256, 2⟩] ∧
        t.units = s.units ∧ ∃ x ∈ t.flt.queue, x.code = 0x0009 ∧ x.unit = locUnit e.addr) ∧
    (locSpace e.addr ≠ 0 → s.freeSpare (locUnit e.addr) (locOff e.addr / 262144) = none ∨ 1024 ≤ s.memp.soft.length →
      Gives (.hardFaultRepair i) s fun t => t.getF F.MEMP_EVT_NOSPARE = 1 ∧ t.memp.soft = s.memp.soft ∧ (∃ x ∈ t.flt.queue, x.code = 0x0206 ∧ x.unit = locUnit e.addr) ∧
        (uKind (locUnit e.addr) = 4 → (t.unit (locUnit e.addr)).st = .fenced) ∧ (uKind (locUnit e.addr) ≠ 4 → e.addr / 256 * 256 ∈ t.memp.removed))) ∧
  (∀ s : State,
    (s.memp.pass.isSome = true →
      (Gives .passStart s fun t => t.getF F.MEMP_EVT_PASS_REJ = 1 ∧ t.memp = s.memp) ∧
      (Gives .passStop s fun t => t.memp = { s.memp with pass := none, passCode := 1 } ∧ t.getF F.MEMP_EVT_PASS_DONE = 1)) ∧
    (s.memp.pass = none →
      exec .passStop s = .next s ∧
      (s.locOk s.passAddr = true → locSpace s.passAddr < 2 → (locSpace s.passAddr = 1 → s.curPwr (locUnit s.passAddr) = 2) →
        Gives .passStart s fun t => t.memp.pass = some { addr := s.passAddr, left := s.getF F.MEMP_PASS_LEN_PAGES } ∧ t.memp.passCode = 0 ∧ t.memp.passDone = 0 ∧
          t.memp.sumCorr = 0 ∧ t.memp.sumUnc = 0 ∧ { t with memp := s.memp } = s) ∧
      (s.locOk s.passAddr = false → Gives .passStart s fun t => t.memp.pass = none ∧ t.memp.passCode = 3 ∧ t.getF F.MEMP_EVT_PASS_DONE = 1)) ∧
    (∀ p, s.memp.pass = some p → (locSpace p.addr = 1 → s.curPwr (locUnit p.addr) = 2) →
      (∀ k ∈ s.memp.words.keys, k * 8 < p.addr ∨ p.addr + 4096 * p.left ≤ k * 8) →
      let n := min p.left ((s.locEnd p.addr - p.addr) / 4096)
      Gives .passDone s fun t => t.memp = { s.memp with pass := none, passCode := if n < p.left then 3 else 0, passDone := n } ∧ t.getF F.MEMP_EVT_PASS_DONE = 1) ∧
    (∀ p, s.memp.pass = some p → locSpace p.addr = 1 → s.curPwr (locUnit p.addr) ≠ 2 →
      Gives .passDone s fun t => t.memp = { s.memp with pass := none, passCode := 2 } ∧ t.getF F.MEMP_EVT_PASS_DONE = 1) ∧
    (Gives .flipArm s fun t => t.getF F.MEMP_FLIP_CTL_ARM = 1 ∧ { t with fields := s.fields } = s))

/-- R353 to R357, R361 to R367: requests age, enter and are issued; refresh, self-refresh and set points; tracking
steps toward its measured centres; a row is repaired or not, at its bank's quiesce; an evacuation starts with its
code, ends where no space is free for what it clears, copies, and leaves its subchannel retired. -/
def Obligations.DramIsServed : Prop :=
  (∀ (s : State) (ns p off l tid : Nat), p < 12 → off < s.dramSize → (∀ r ∈ s.dram.reqs, r.port < 12) →
    Gives (.dramRequest ns (some (p, off, l, tid)) none) s fun t => ∃ r, t.dram.reqs = s.dram.reqs.map (fun r => r.aged ns) ++ [r] ∧ r.port = p ∧
      r.lines = (if l = 0 then 2 else l) ∧ r.line = off / 64 ∧
      r.tid = tid ∧ r.sub = s.subOf off ∧ r.age = 0 ∧ r.target = s.getF (qosTarget p) p) ∧
  (∀ (s : State) (n : Nat) (r : DReq), s.dram.reqs = [r] → r.sub = n → r.port < 12 → (s.sub n).phase = 4 ∨ (s.sub n).phase = 6 →
    Gives (.dramRequest 0 none (some n)) s fun t => t.dram.reqs = [] ∧
      t.dram.vt.get 0 r.port = (s.dram.vt.get 0 r.port + cdiv (r.lines * 65536) (max 1 (s.getF (qosShare r.port) r.port))) % 2 ^ 64 ∧
      ∀ k, k ≠ r.port → t.dram.vt.get 0 k = s.dram.vt.get 0 k) ∧
  (∀ (s : State) (n rank : Nat), n < 8 → rank < 2 → (s.sub n).phase = 4 →
    (s.urgentAt n rank = false → exec (.dramRefresh n rank) s = .next (s.onSub n fun x => x.setOwed rank 0)) ∧
    (s.urgentAt n rank = true → (s.sub n).owed rank < 8 → s.flag F.DRC_CFG_POSTPONE = true →
      exec (.dramRefresh n rank) s = .next (s.onSub n fun x => x.setOwed rank (x.owed rank + 1))) ∧
    (s.urgentAt n rank = true → 8 ≤ (s.sub n).owed rank →
      Gives (.dramRefresh n rank) s fun t => t.dram = s.dram ∧ t.getF F.DRC_SC_EVT_REF_FORCE n = 1 ∧ ∃ e ∈ t.flt.queue, e.code = 0x0005 ∧ e.unit = uDram n) ∧
    (∀ h, exec (.mr4Read n h) s = .next (s.onSub n fun x => { x with hot := h })) ∧
    (0 < s.getF F.DRC_CFG_SR_IDLE → s.getF F.DRC_CFG_SR_IDLE ≤ (s.sub n).idle → (s.dram.reqs.any fun r => r.sub == n) = false →
      Gives (.selfRefreshEntry n) s fun t => (t.sub n).phase = 5 ∧ (t.sub n).owed0 = 0 ∧ (t.sub n).owed1 = 0 ∧ ∀ k, k ≠ n → t.sub k = s.sub k) ∧
    (∀ w rd, Gives (.dramTracking n [(w, rd)]) s fun t =>
      let k := (s.sub n).fsp * 16
      let x := (s.sub n).eyes.get (0, 0, 0, 0) k
      (t.sub n).eyes.get (0, 0, 0, 0) k = (x.1, stepTo x.2.1 w, x.2.2.1, stepTo x.2.2.2 rd) ∧ (t.sub n).phase = 4 ∧ ∀ j, j ≠ n → t.sub j = s.sub j)) ∧
  (∀ (s : State) (v : W32), let x := v.toNat % 2
    (x = s.dram.fsp → Gives (.setPointRequest v) s fun t => t.dram = { s.dram with want := none } ∧ t.getF F.DRC_EVT_FSP_DONE = 1) ∧
    (x ≠ s.dram.fsp → x = 1 ∨ s.dram.fsp0ok = true → exec (.setPointRequest v) s = .next { s with dram := { s.dram with want := some x } }) ∧
    (x ≠ s.dram.fsp → x = 0 → s.dram.fsp0ok = false → exec (.setPointRequest v) s = .next s)) ∧
  (∀ (s : State) (x : Nat), s.dram.want = some x → s.pwr.cur ≠ 4 → Gives .setPointChange s fun t => t.dram.fsp = x ∧ t.dram.want = none ∧
    t.getF F.DRC_EVT_FSP_DONE = 1 ∧ ∀ n ∈ s.dram.active, (t.sub n).fsp = x) ∧
  (∀ (s : State) (a : Nat) (l : List Nat), s.dram.repairs = a :: l →
    (s.memp.failed.get 0 (s.subOf (locOff a)) ≠ 0 → ∀ ok, exec (.postPackageRepair ok) s = .next { s with dram := { s.dram with repairs := l } }) ∧
    (s.memp.failed.get 0 (s.subOf (locOff a)) = 0 → s.bankQuiet a = false → ∀ ok, exec (.postPackageRepair ok) s = .next s) ∧
    (s.memp.failed.get 0 (s.subOf (locOff a)) = 0 → s.bankQuiet a = true →
    (Gives (.postPackageRepair true) s fun t => t.dram.repairs = l ∧ t.dram.repaired = s.dram.repaired ++ [a] ∧ a / 4096 ∉ t.memp.withheld ∧ t.getF F.DRC_SC_EVT_PPR_DONE (s.subOf (locOff a)) = 1) ∧
    (Gives (.postPackageRepair false) s fun t => t.dram = { s.dram with repairs := l } ∧ t.getF F.DRC_SC_EVT_PPR_FAIL (s.subOf (locOff a)) = 1 ∧
      t.memp = s.memp ∧ ∃ e ∈ t.flt.queue, e.code = 0x010B ∧ e.detail = a))) ∧
  (∀ (s : State) (v : W32), v.toNat.testBit 31 = true →
    (s.evacJudge (v.toNat % 8) = 1 → Gives (.evacuationStart (some v)) s fun t => t.dram.evac = some { sub := v.toNat % 8 } ∧ t.dram.evacRec = some (v.toNat % 8) ∧
      t.dram.evacCode = 1 ∧ (t.sub (v.toNat % 8)).phase = 6 ∧ t.dram.active = s.dram.active) ∧
    (s.evacJudge (v.toNat % 8) ≠ 1 → Gives (.evacuationStart (some v)) s fun t => t.dram = { s.dram with evacCode := s.evacJudge (v.toNat % 8) })) ∧
  (∀ (s : State) (e : Evac), s.dram.evac = some e →
    (e.phase = 1 → (∀ x ∈ s.prg.scans, x.resident = false) → Gives .evacuationFirstPhaseEnd s fun t => t.dram = { s.dram with evac := some { e with phase := 2, left :=
      s.evacTop / 2 ^ s.dram.grain - (s.dram.active.length - 1) * (s.dram.active.length - 2) } }) ∧
    (e.phase = 1 → s.topBusy s.evacTop = true → exec .evacuationFirstPhaseEnd s = .next s) ∧
    (e.phase = 1 → s.topBusy s.evacTop = false → s.clearTop s.evacTop = none → Gives .evacuationFirstPhaseEnd s fun t => t.dram.evac = none ∧
      t.dram.evacRec = none ∧ t.dram.evacCode = 3 ∧ (t.sub e.sub).phase = 4 ∧ t.memp = s.memp) ∧
    (e.phase = 2 → e.left = 0 → e.sub < 8 → Gives .evacDone s fun t => t.dram.active = s.dram.active.filter (· != e.sub) ∧ t.dram.evac = none ∧ t.dram.evacRec = none ∧
      t.dram.evacCode = 2 ∧ (t.unit (uDram e.sub)).st = .retired ∧ (t.unit (uDram e.sub)).cur = 0 ∧ uDram e.sub ∈ t.retRec ∧ t.getF F.DRC_EVT_EVAC_DONE = 1))

/-! ### The governor -/

/-- R428, R430, R432, R434 to R438: the window mean is judged, the thermal cap follows the larger error, eight misses
fall back and 125 frames on time leave it, 125 bad frames revert to the default matrix; the matrix banks; the trace
buffers. -/
def Obligations.TheGovernorGuards : Prop :=
  ∀ s : State,
    let g := s.gov
    (g.winMean = none → exec .powerMeanCheck s = .next s) ∧
    (∀ m, g.winMean = some m →
      (qOfTenth g.cap * (1000 + s.get2 F.PWR_GOV_GUARD_TOL) < m * 1000 → Gives .powerMeanCheck s fun t => t.gov.winMean = none ∧ t.getF F.PWR_GOV_EVT_OVER = 1 ∧
        ∃ e ∈ t.flt.queue, e.code = 0x0006 ∧ e.unit = uSvc 5) ∧
      (m * 1000 ≤ qOfTenth g.cap * (1000 + s.get2 F.PWR_GOV_GUARD_TOL) → exec .powerMeanCheck s = .next { s with gov := { g with winMean := none } })) ∧
    (s.time.frame < g.thermAt + 125000 → exec .thermalLoop s = .next s) ∧
    (g.thermAt + 125000 ≤ s.time.frame → s.pwr.cur ≤ 2 →
      let k := s.getF F.PWR_GOV_THERM1_K
      let lo := s.getF F.PWR_GOV_THERM1_MIN
      (s.flag F.PWR_GOV_CTL_THERM_EN = true → s.thermErr ≤ 0 → Gives .thermalLoop s fun t =>
        t.gov = { g with therm := if g.therm < s.stateCap then min (g.therm + s.getF F.PWR_GOV_THERM1_RISE) s.stateCap else g.therm, thermJ := false, thermAt := s.time.frame }) ∧
      (s.flag F.PWR_GOV_CTL_THERM_EN = true → 0 < s.thermErr → lo ≤ g.therm - k * s.thermErr.toNat / 10 → Gives .thermalLoop s fun t =>
        t.gov = { g with therm := g.therm - k * s.thermErr.toNat / 10, thermJ := false, thermAt := s.time.frame }) ∧
      (s.flag F.PWR_GOV_CTL_THERM_EN = true → 0 < s.thermErr → g.therm - k * s.thermErr.toNat / 10 < lo → Gives .thermalLoop s fun t =>
        t.gov = { g with therm := min g.therm lo, thermJ := false, thermAt := s.time.frame }) ∧
      (s.flag F.PWR_GOV_CTL_THERM_EN = false → Gives .thermalLoop s fun t => t.gov = { g with therm := s.stateCap, thermJ := false, thermAt := s.time.frame })) ∧
    (8 ≤ g.miss → g.fallback = false → Gives .governorFallback s fun t => t.gov = { g with fallback := true } ∧ t.getF F.PWR_GOV_EVT_MISS = 1 ∧
      ∃ e ∈ t.flt.queue, e.code = 0x0209 ∧ e.unit = uSvc 5) ∧
    (g.miss < 8 → exec .governorFallback s = .next s) ∧
    (g.fallback = true → 125 ≤ g.onTime → Gives .fallbackExit s fun t => t.gov.fallback = false ∧ t.gov.x5 = 0 ∧ t.gov.x6 = 0 ∧ t.gov.rk ≤ rkOf g.cap ∧
      { t with gov := g } = s) ∧
    (g.onTime < 125 → exec .fallbackExit s = .next s) ∧
    (125 ≤ g.residN ∨ 125 ≤ g.satN → Gives .governorRevert s fun t => t.gov.act = {} ∧ t.gov.x1 = g.iin ∧ t.gov.x2 = g.vbus ∧ t.gov.x3 = g.iin ∧ t.gov.x4 = 0 ∧
      t.gov.x5 = 0 ∧ t.gov.x6 = 0 ∧ t.gov.reverted = true ∧ t.gov.shadow = g.shadow ∧ t.getF F.PWR_GOV_EVT_REVERT = 1 ∧ ∃ e ∈ t.flt.queue, e.code = 0x010D ∧ e.unit = uSvc 5) ∧
    (g.drain = false → exec .swap s = .next { s with gov := { g with swap := true } } ∧ exec .save s = .next { s with gov := { g with saved := some g.act } } ∧
      exec .matDefault s = .next { s with gov := { g with shadow := {} } }) ∧
    (g.drain = true → ∀ c ∈ [Instr.swap, .save, .matDefault], exec c s = .next s) ∧
    (Gives .traceStart s fun t => t.gov.armed = true ∧ t.gov.done = false ∧ t.gov.wptr = 0 ∧ t.gov.trcN = 0 ∧ t.gov.trc = g.trc ∧
      (t.gov.trig = true ↔ s.getF F.PWR_TRC_CTL_TRIG = 0)) ∧
    (g.armed = true → g.trig = false → exec .traceStop s = .next { s with gov := { g with trig := true, trcLeft := 4096 - s.getF F.PWR_TRC_CTL_PRE } }) ∧
    (g.armed = false → exec .traceStop s = .next s) ∧
    (g.armed = true → g.trig = true → g.trcLeft = 0 → Gives .trcDone s fun t => t.gov = { g with armed := false, done := true } ∧ t.getF F.PWR_GOV_EVT_TRC_DONE = 1)

/-! ### Faults, the logbook and health -/

/-- R444, R447, R448, Tables 16.2 to 16.4: the collector takes the oldest event whose frame has come and gives it
every outcome of its class: the unit's own bit and count, the device's event bit, the history and the first-error
capture, and for F3 the safe halt. -/
def Obligations.FaultsAreCollected : Prop :=
  ∀ (s : State) (e : FaultEv), s.nextFault = some e → s.log.subs = [] →
    let k := faultClass e.code
    Gives .faultCollect s fun t =>
      t.flt.queue = s.flt.queue.erase e ∧
      (k = 0 → (t.unit e.unit).own0 = true ∧ (t.unit e.unit).cnt0 = ((s.unit e.unit).cnt0 + 1) % 65536 ∧ t.getF F.FLT_EVT_F0 = 1 ∧ t.flt.hist = s.flt.hist ∧
        t.flt.halt = s.flt.halt) ∧
      (k = 1 → (t.unit e.unit).own1 = true ∧ (t.unit e.unit).cnt1 = ((s.unit e.unit).cnt1 + 1) % 65536 ∧ t.getF F.FLT_EVT_F1 = 1 ∧ t.flt.first = s.flt.first ∧
        t.flt.halt = s.flt.halt) ∧
      (k = 2 → (t.unit e.unit).own2 = true ∧ (t.unit e.unit).cnt2 = ((s.unit e.unit).cnt2 + 1) % 65536 ∧ t.getF F.FLT_EVT_F2 = 1 ∧ t.flt.halt = s.flt.halt) ∧
      (k = 3 → (t.unit e.unit).own3 = true ∧ (t.unit e.unit).cnt3 = ((s.unit e.unit).cnt3 + 1) % 65536 ∧ t.getF F.FLT_EVT_F3 = 1 ∧ t.flt.halt.isSome = true ∧
        (s.flt.halt = none → t.hif.fetchStop = true)) ∧
      (1 ≤ k → t.flt.hist = ({ stamp := e.stamp, unit := e.unit, code := e.code, pcc := s.time.pcc, detail := e.detail, fsn := e.fsn } :: s.flt.hist).take 16 ∧
        t.flt.total = (s.flt.total + 1) % 65536 ∧ s.log.seq < t.log.seq) ∧
      (2 ≤ k → s.flt.first = none → t.flt.first = some { stamp := e.stamp, unit := e.unit, code := e.code, pcc := s.time.pcc, detail := e.detail, fsn := e.fsn }) ∧
      (2 ≤ k → s.flt.first.isSome = true → t.flt.first = s.flt.first)

/-- R442, R445, R446, R450, R451, R454 to R456, R459 to R461: the pin's pulse ends; a junction too hot for its frames
is a fault; the cold reset line is asserted only when armed, halted, wired and with PERST0# low; device time takes its
mark; records are submitted, counted and read back; the hourly evaluation keeps the least end of life. -/
def Obligations.FaultOutputsAndLogs : Prop :=
  ∀ s : State,
    (s.flt.pulse = true → Gives .faultPulseEnd s fun t => t.flt.pulse = false ∧ t.outbox = .pin 0 (s.lvl.core && (s.flt.f3pin || s.flag F.FLT_PIN_HOLD)) :: s.outbox) ∧
    (s.flt.pulse = false → exec .faultPulseEnd s = .next s) ∧
    (∀ k, (s.flt.tjF2.get 0 k < 125 → s.flt.tjF3.get 0 k < 1250 → exec (.junctionOverTemperature k) s = .next s) ∧
      (125 ≤ s.flt.tjF2.get 0 k → Gives (.junctionOverTemperature k) s fun t => t.gov.therm = s.getF F.PWR_GOV_THERM1_MIN ∧ t.flt.tjF2.get 0 k = 0 ∧
        ∃ e ∈ t.flt.queue, e.code = 0x0210 ∧ e.unit = if k < 4 then uQuad k else uFront) ∧
      (1250 ≤ s.flt.tjF3.get 0 k → Gives (.junctionOverTemperature k) s fun t => t.flt.tjF3.get 0 k = 0 ∧ ∃ e ∈ t.flt.queue, e.code = 0x0306)) ∧
    (s.flt.armed = true → s.halted = true → s.getF F.FLT_REGC_WIRED = 1 → s.hif.p0.perst = true →
      Gives .regCycleAssert s fun t => t.flt.regc = true ∧ t.outbox = .pin 1 true :: s.outbox ∧ { t with flt := s.flt, outbox := s.outbox } = s) ∧
    (s.flt.armed = false ∨ s.halted = false ∨ s.getF F.FLT_REGC_WIRED ≠ 1 ∨ s.hif.p0.perst = false → exec .regCycleAssert s = .next s) ∧
    (s.flt.regc = true → Gives .regCycleRelease s fun t => t.flt.regc = false ∧ t.outbox = .pin 1 false :: s.outbox ∧ (s.flt.regcFell = false → t.flt.armed = false) ∧
      t.flt.halt = s.flt.halt) ∧
    (s.flt.regc = false → exec .coldResetArmExpiry s = .next { s with flt := { s.flt with armed := false } }) ∧
    (s.flt.regc = true → exec .coldResetArmExpiry s = .next s) ∧
    exec .deviceTimeMark s = .next { s with time := { s.time with ms := s.time.mark, mark := s.time.mark + 1000 } } ∧
    (∀ (a : Acc) (v : W32), let typ := bits v.toNat 14 8; let len8 := bits v.toNat 7 0
      (v.toNat.testBit 16 = false → exec (.logRecordSubmit a v) s = .next s) ∧
      (v.toNat.testBit 16 = true → typ < 2 ∨ 9 < typ ∨ len8 < 4 ∨ 32 < len8 → Gives (.logRecordSubmit a v) s fun t => t.log = s.log ∧ t.getF F.LOG_EVT_WDROP = 1) ∧
      (v.toNat.testBit 16 = true → 2 ≤ typ → typ ≤ 9 → 4 ≤ len8 → len8 ≤ 32 → (∀ b ∈ s.log.subs, b.acc ≠ accIdx a) →
        Gives (.logRecordSubmit a v) s fun t => t.fields = s.fields ∧ ∃ b, t.log.subs = s.log.subs ++ [b] ∧ b.acc = accIdx a ∧ b.typ = typ ∧
          b.unit = (match a with | .eng i => uEng i | .mgmt => uFront) ∧ b.body = s.wbuf (accIdx a) (8 * len8 - 28))) ∧
    (Gives .repeatRecord s fun t => t.log.f0w = {} ∧ t.log.f0n = {} ∧ t.log.rate = s.getF F.LOG_CFG_F0_RATE ∧ (s.log.f0n.items ≠ [] → s.log.seq < t.log.seq)) ∧
    (∀ a, Gives (.logRdDataRead a) s fun t => t.getF F.LOG_RD_OFF_OFF (accIdx a) = (s.getF F.LOG_RD_OFF_OFF (accIdx a) + 4) % 8388608 ∧
      t.outbox = .reg (accIdx a) 0x400028 (ofLe ((List.range 4).map fun i => s.logByte (s.getF F.LOG_RD_OFF_OFF (accIdx a) + i))) :: s.outbox ∧ t.mram = s.mram) ∧
    (∀ l, (s.lvl.core = true → s.flt.evalHour < s.time.ms / 3600000 → Gives (.healthEvaluation l) s fun t =>
        (∀ i, i < 15 → t.flt.mons.get {} i = (s.monitors l).getD i {}) ∧ (∀ m ∈ s.monitors l, t.flt.eol ≤ m.eol) ∧ t.flt.evalHour = s.time.ms / 3600000 ∧
        t.flt.pctUsed = s.pctUsed) ∧
      (s.lvl.core = false ∨ s.time.ms / 3600000 ≤ s.flt.evalHour → exec (.healthEvaluation l) s = .next s))

/-! ### Start-up and JTAG -/

/-- R390, R393, R412, R451, R452, R462, R466 to R470, R509, R515: a start-up clears what does not survive and keeps
what MRAM and flash hold, boots the committed package, else slot 1's, else stops below Tin with a fault, and derives
the identity of the images that run; the levels rise one after the other; TEST_EN holds the core; the JTAG
instructions drive the pins only then. -/
def Obligations.StartUpAndLadder : Prop :=
  (∀ (s : State) (i : StartIn), s.lvl.core = true ∨ s.pwr.drained = true ∨ s.flt.regc = true → exec (.startUp i) s = .next s) ∧
  (∀ (s : State) (i : StartIn), s.lvl.core = false → s.pwr.drained = false → s.flt.regc = false →
    (i.testEn = true → exec (.startUp i) s = .next { s with lvl := { s.lvl with testEn := true } }) ∧
    (i.testEn = false → Gives (.startUp i) s fun t => t.lvl.core = true ∧ t.lvl.level = 0 ∧ t.hif.cmds = [] ∧ t.locks = [] ∧ t.prg.scans = [] ∧ t.flt.halt = none ∧
      t.jnl.groups = [] ∧ t.pwr.cur = 0 ∧ t.pwr.present = true ∧ t.sec.kik = s.sec.kik ∧ t.sec.opkh = s.sec.opkh ∧ t.lvl.committed = s.lvl.committed ∧
      t.hif.saved = s.hif.saved ∧ t.time.pcc = (if s.pwr.cold then (s.time.pcc + 1) % 2 ^ 32 else s.time.pcc) ∧
      (i.jnlBad = none → t.map.coarse = s.durable.coarse) ∧
      (let com := s.pkgOk (s.pkgOf s.lvl.committed)
       (s.lvl.committed ≠ 0 → com = true → t.sec.boot = 0 ∧ t.lvl.slot = s.lvl.committed) ∧
       (com = false → s.lvl.committed ≠ 1 → s.pkgOk (s.pkgOf 1) = true → t.sec.boot = 1 ∧ t.lvl.slot = 1) ∧
       (com = false → s.lvl.committed = 1 ∨ s.pkgOk (s.pkgOf 1) = false → t.sec.boot = 2 ∧ ∃ e ∈ t.flt.queue, e.code = 0x0305 ∧ e.unit = uSvc 6) ∧
       (t.sec.boot ≠ 2 → t.sec.udsLock = true ∧ t.sec.cdi0 = Config.kmac Config.uds ((t.sec.imgs.get none 0).getD {}).digest (ascii "CDI") ∧
         t.sec.alias_ = Config.kmac t.sec.cdi1 [] (ascii "ALIAS"))))) ∧
  (∀ (s : State) (n : Nat), (s.mayRise n = false → exec (.levelRise n) s = .next s) ∧
    (s.mayRise n = true →
      (n = 1 → Gives (.levelRise n) s fun t => t.lvl.level = 1 ∧ t.lvl.tin = s.sinceT0) ∧
      (n = 2 → Gives (.levelRise n) s fun t => t.lvl.level = 2 ∧ t.lvl.bronze = s.sinceT0) ∧
      (n = 3 → Gives (.levelRise n) s fun t => t.lvl = { s.lvl with wrAt := s.sinceT0, writes := true }) ∧
      (n = 4 → Gives (.levelRise n) s fun t => t.lvl.level = 3 ∧ t.lvl.steel = s.sinceT0))) ∧
  (∀ s : State, s.lvl.core = true → s.lvl.perst0.isSome = true →
    (s.lvl.level < 2 → 1000 < s.sinceT0 → s.lvl.lateB = false → Gives .levelBoundMissed s fun t => t.lvl.lateB = true ∧ t.getF F.SYS_EVT_LATE_BRONZE = 1 ∧
      t.lvl.level = s.lvl.level) ∧
    (s.sinceT0 ≤ 1000 → exec .levelBoundMissed s = .next s)) ∧
  (∀ (s : State) (pins : List (Nat × Bool)),
    exec .bypass s = .next { s with lvl := { s.lvl with jtag := 0 }, outbox := .jtag 0 0 :: s.outbox } ∧
    exec .idcode s = .next { s with lvl := { s.lvl with jtag := 1 }, outbox := .jtag 1 idCode :: s.outbox } ∧
    exec (.samplePreload pins) s = .next { s with lvl := { s.lvl with jtag := 2, bsr := pins }, outbox := .jtag 2 s.pinBits :: s.outbox } ∧
    (∀ p ∈ [(Instr.extest pins, 3, pins), (.extestPulse pins, 4, pins), (.extestTrain pins, 5, pins), (.clamp, 6, s.lvl.bsr), (.highz, 7, [])],
      (s.lvl.testEn = true → s.lvl.core = false → Gives p.1 s fun t => t.lvl = { s.lvl with jtag := p.2.1 } ∧
        t.outbox = (p.2.2.map fun x => Sent.pin x.1 x.2).reverse ++ .jtag p.2.1 s.pinBits :: s.outbox) ∧
      (s.lvl.testEn = false ∨ s.lvl.core = true → exec p.1 s = exec (.samplePreload p.2.2) s)))

/-! ### The block as a whole -/

/-- The queue: a step takes the command at its front and runs it with the queue's rest; an empty queue idles (the
model's choice, assumption 1). -/
def Obligations.StepRunsTheFrontCommand : Prop :=
  ∀ s : State, (s.pending = [] → step s = .next s) ∧
    ∀ (c : Instr) (rest : List Instr), s.pending = c :: rest → step s = exec c { s with pending := rest }

/-- Every command ends in a next state, whatever the state it is given: none stops in a fault and none is refused. It
leaves the queue and every part of the state outside its own as they were. -/
def Obligations.CommandsKeepToTheirParts : Prop :=
  ∀ (c : Instr) (s : State), Gives c s fun t => t.pending = s.pending ∧ ∀ p, p ∉ mayChange c → p.same s t

/-- The state after reset satisfies the invariant: no command waits, nothing has been sent, the core is held, every
register field reads its reset value and every byte of MRAM as zero. -/
def Obligations.ResetMeetsTheInvariant : Prop :=
  State.reset.Inv ∧ State.reset.pending = [] ∧ State.reset.outbox = [] ∧ State.reset.lvl.core = false ∧ State.reset.time.frame = 0 ∧
    (∀ (f : Fld) (u : Nat), State.reset.getF f u = f.reset) ∧ (∀ a, State.reset.mram.get 0 a = 0)

/-- Every step keeps the invariant: the register fields stay listed in rising order with each value within a
register's 32 bits, and the bytes of MRAM stay in canonical form. -/
def Obligations.EveryStepKeepsTheInvariant : Prop :=
  ∀ s t : State, s.Inv → step s = .next t → t.Inv
end

