-- ==== Sys2Proof/Laws/SMap.lean ====
section
/-! SUPPORT. What the map operations do: what a key reads as after a write, and that every operation keeps the canonical
form. -/
namespace Sys2Proof.Machine

section read
variable {α : Type}

theorem lookupL_insertL (k j : Nat) (v : α) (l : List (Nat × α)) :
    lookupL j (insertL k v l) = if j = k then some v else lookupL j l := by
  induction l with
  | nil => simp [insertL, lookupL]
  | cons e t ih =>
    obtain ⟨k', v'⟩ := e
    by_cases h1 : k = k'
    · subst h1
      by_cases h2 : j = k <;> simp [insertL, lookupL, h2]
    · by_cases h2 : k < k'
      · by_cases h3 : j = k <;> simp [insertL, lookupL, h1, h2, h3]
      · by_cases h3 : j = k'
        · subst h3
          simp [insertL, lookupL, h1, h2, Ne.symm h1]
        · simp [insertL, lookupL, h1, h2, h3, ih]

theorem lookupL_eraseL (k j : Nat) (l : List (Nat × α)) :
    lookupL j (eraseL k l) = if j = k then none else lookupL j l := by
  induction l with
  | nil => simp [eraseL, lookupL]
  | cons e t ih =>
    obtain ⟨k', v'⟩ := e
    by_cases h1 : k = k'
    · subst h1
      by_cases h2 : j = k
      · subst h2
        simpa [eraseL] using ih
      · simp [eraseL, lookupL, ih, h2]
    · by_cases h3 : j = k'
      · subst h3
        simp [eraseL, lookupL, h1, Ne.symm h1]
      · simp [eraseL, lookupL, h1, h3, ih]

@[simp] theorem SMap.find_put (m : SMap α) (k j : Nat) (v : α) : (m.put k v).find j = if j = k then some v else m.find j :=
  lookupL_insertL k j v m.items

@[simp] theorem SMap.find_del (m : SMap α) (k j : Nat) : (m.del k).find j = if j = k then none else m.find j :=
  lookupL_eraseL k j m.items

variable [DecidableEq α]

theorem SMap.get_set (m : SMap α) (d : α) (k j : Nat) (v : α) : (m.set d k v).get d j = if j = k then v else m.get d j := by
  unfold SMap.set SMap.get
  by_cases hv : v = d
  · by_cases hj : j = k <;> simp [hv, hj]
  · by_cases hj : j = k <;> simp [hv, hj]

@[simp] theorem SMap.get_set_same (m : SMap α) (d : α) (k : Nat) (v : α) : (m.set d k v).get d k = v := by
  simp [SMap.get_set]

theorem SMap.get_set_ne (m : SMap α) (d : α) {k j : Nat} (v : α) (h : j ≠ k) : (m.set d k v).get d j = m.get d j := by
  simp [SMap.get_set, h]

@[simp] theorem SMap.get_upd_same (m : SMap α) (d : α) (k : Nat) (f : α → α) : (m.upd d k f).get d k = f (m.get d k) := by
  simp [SMap.upd]

theorem SMap.get_upd_ne (m : SMap α) (d : α) {k j : Nat} (f : α → α) (h : j ≠ k) : (m.upd d k f).get d j = m.get d j := by
  simp [SMap.upd, SMap.get_set, h]

/-- A key outside the range written reads as before. -/
theorem SMap.get_setRange_out (m : SMap α) (d : α) (k j : Nat) (l : List α) (h : j < k ∨ k + l.length ≤ j) :
    (m.setRange d k l).get d j = m.get d j := by
  induction l generalizing m k with
  | nil => rfl
  | cons v t ih =>
    simp only [List.length_cons] at h
    unfold SMap.setRange
    rw [ih (m.set d k v) (k + 1) (by omega), SMap.get_set_ne _ _ _ (by omega)]

/-- A key of the range written reads as its value. -/
theorem SMap.get_setRange_in (m : SMap α) (d : α) (k i : Nat) (l : List α) (h : i < l.length) :
    (m.setRange d k l).get d (k + i) = l.getD i d := by
  induction l generalizing m k i with
  | nil => simp at h
  | cons v t ih =>
    unfold SMap.setRange
    cases i with
    | zero => rw [SMap.get_setRange_out _ _ _ _ _ (by omega)]; simp
    | succ i =>
      have := ih (m.set d k v) (k + 1) i (by simpa using h)
      rw [show k + (i + 1) = k + 1 + i by omega, this]
      simp
end read

section canon
variable {α : Type}

/-- Rising, with every key above a bound. -/
theorem risingL_cons (a : Nat) (v : α) (l : List (Nat × α)) :
    risingL ((a, v) :: l) = true ↔ (∀ e ∈ l, a < e.1) ∧ risingL l = true := by
  induction l generalizing a v with
  | nil => simp [risingL]
  | cons e t ih =>
    obtain ⟨b, w⟩ := e
    simp only [risingL, Bool.and_eq_true, decide_eq_true_eq]
    constructor
    · rintro ⟨h1, h2⟩
      refine ⟨?_, h2⟩
      have h3 := ((ih b w).1 h2).1
      intro e he
      rcases List.mem_cons.1 he with rfl | he
      · exact h1
      · exact Nat.lt_trans h1 (h3 e he)
    · rintro ⟨h1, h2⟩
      exact ⟨h1 (b, w) (by simp), h2⟩

theorem mem_insertL {k : Nat} {v : α} {l : List (Nat × α)} {e : Nat × α} (h : e ∈ insertL k v l) : e = (k, v) ∨ e ∈ l := by
  induction l with
  | nil => exact .inl (by simpa [insertL] using h)
  | cons x t ih =>
    obtain ⟨k', v'⟩ := x
    simp only [insertL] at h
    split at h
    · rcases List.mem_cons.1 h with h | h
      · exact .inl h
      · exact .inr (List.mem_cons_of_mem _ h)
    · split at h
      · rcases List.mem_cons.1 h with h | h
        · exact .inl h
        · exact .inr h
      · rcases List.mem_cons.1 h with h | h
        · exact .inr (by simp [h])
        · rcases ih h with h | h
          · exact .inl h
          · exact .inr (List.mem_cons_of_mem _ h)

theorem mem_eraseL {k : Nat} {l : List (Nat × α)} {e : Nat × α} (h : e ∈ eraseL k l) : e ∈ l := by
  induction l with
  | nil => simp [eraseL] at h
  | cons x t ih =>
    obtain ⟨k', v'⟩ := x
    simp only [eraseL] at h
    split at h
    · exact List.mem_cons_of_mem _ (ih h)
    · rcases List.mem_cons.1 h with h | h
      · simp [h]
      · exact List.mem_cons_of_mem _ (ih h)

theorem risingL_insertL (k : Nat) (v : α) (l : List (Nat × α)) (h : risingL l = true) : risingL (insertL k v l) = true := by
  induction l with
  | nil => rfl
  | cons x t ih =>
    obtain ⟨k', v'⟩ := x
    have ht := (risingL_cons k' v' t).1 h
    simp only [insertL]
    split
    · rename_i hk
      exact (risingL_cons k v t).2 ⟨by simpa [hk] using ht.1, ht.2⟩
    · split
      · rename_i hk
        exact (risingL_cons k v _).2 ⟨fun e he => by
          rcases List.mem_cons.1 he with rfl | he
          · exact hk
          · exact Nat.lt_trans hk (ht.1 e he), h⟩
      · rename_i h1 h2
        refine (risingL_cons k' v' _).2 ⟨fun e he => ?_, ih ht.2⟩
        rcases mem_insertL he with rfl | he
        · exact Nat.lt_of_le_of_ne (Nat.le_of_not_lt h2) (Ne.symm h1)
        · exact ht.1 e he

theorem risingL_eraseL (k : Nat) (l : List (Nat × α)) (h : risingL l = true) : risingL (eraseL k l) = true := by
  induction l with
  | nil => rfl
  | cons x t ih =>
    obtain ⟨k', v'⟩ := x
    have ht := (risingL_cons k' v' t).1 h
    simp only [eraseL]
    split
    · exact ih ht.2
    · exact (risingL_cons k' v' _).2 ⟨fun e he => ht.1 e (mem_eraseL he), ih ht.2⟩

theorem risingL_filter (p : Nat × α → Bool) (l : List (Nat × α)) (h : risingL l = true) : risingL (l.filter p) = true := by
  induction l with
  | nil => rfl
  | cons x t ih =>
    obtain ⟨k', v'⟩ := x
    have ht := (risingL_cons k' v' t).1 h
    rw [List.filter_cons]
    split
    · exact (risingL_cons k' v' _).2 ⟨fun e he => ht.1 e (List.mem_filter.1 he).1, ih ht.2⟩
    · exact ih ht.2

variable [DecidableEq α]

theorem SMap.wf_iff (m : SMap α) (d : α) : m.wf d = true ↔ risingL m.items = true ∧ ∀ e ∈ m.items, e.2 ≠ d := by
  simp [SMap.wf]

/-- Writing a key keeps the canonical form. -/
theorem SMap.set_wf (m : SMap α) (d : α) (k : Nat) (v : α) (h : m.wf d = true) : (m.set d k v).wf d = true := by
  rw [SMap.wf_iff] at *
  unfold SMap.set
  split
  · exact ⟨risingL_eraseL k _ h.1, fun e he => h.2 e (mem_eraseL he)⟩
  · rename_i hv
    refine ⟨risingL_insertL k v _ h.1, fun e he => ?_⟩
    rcases mem_insertL he with rfl | he
    · exact hv
    · exact h.2 e he

theorem SMap.upd_wf (m : SMap α) (d : α) (k : Nat) (f : α → α) (h : m.wf d = true) : (m.upd d k f).wf d = true :=
  SMap.set_wf m d k _ h

/-- Writing a range keeps the canonical form. -/
theorem SMap.setRange_wf (m : SMap α) (d : α) (k : Nat) (l : List α) (h : m.wf d = true) : (m.setRange d k l).wf d = true := by
  induction l generalizing m k with
  | nil => exact h
  | cons v t ih => exact ih _ _ (SMap.set_wf m d k v h)

/-- Keeping some entries keeps the canonical form. -/
theorem SMap.keep_wf (m : SMap α) (d : α) (p : Nat → Bool) (h : m.wf d = true) : (m.keep p).wf d = true := by
  rw [SMap.wf_iff] at *
  exact ⟨risingL_filter _ _ h.1, fun e he => h.2 e (List.mem_filter.1 he).1⟩

/-- Keys keep rising whatever default is written. -/
theorem SMap.set_rising (m : SMap α) (d : α) (k : Nat) (v : α) (h : risingL m.items = true) : risingL (m.set d k v).items = true := by
  unfold SMap.set
  split
  · exact risingL_eraseL k _ h
  · exact risingL_insertL k v _ h

/-- Every value listed after a write was listed before, or is the value written. -/
theorem SMap.mem_set {m : SMap α} {d : α} {k : Nat} {v : α} {e : Nat × α} (h : e ∈ (m.set d k v).items) :
    e = (k, v) ∨ e ∈ m.items := by
  unfold SMap.set at h
  split at h
  · exact .inr (mem_eraseL h)
  · exact mem_insertL h
end canon

end Sys2Proof.Machine
end

