-- ==== Sys2Proof/Laws/State.lean ====
section
/-! SUPPORT. One lemma per part of the state per update of a part: what each update reads as. -/
namespace Sys2Proof.Machine

@[simp] theorem State.onPending_pending (s : State) (f : List Instr → List Instr) : (s.onPending f).pending = f s.pending := rfl
@[simp] theorem State.onPending_outbox (s : State) (f : List Instr → List Instr) : (s.onPending f).outbox = s.outbox := rfl
@[simp] theorem State.onPending_free (s : State) (f : List Instr → List Instr) : (s.onPending f).free = s.free := rfl
@[simp] theorem State.onPending_drbg (s : State) (f : List Instr → List Instr) : (s.onPending f).drbg = s.drbg := rfl
@[simp] theorem State.onPending_fields (s : State) (f : List Instr → List Instr) : (s.onPending f).fields = s.fields := rfl
@[simp] theorem State.onPending_eff2 (s : State) (f : List Instr → List Instr) : (s.onPending f).eff2 = s.eff2 := rfl
@[simp] theorem State.onPending_eff4 (s : State) (f : List Instr → List Instr) : (s.onPending f).eff4 = s.eff4 := rfl
@[simp] theorem State.onPending_hiLatch (s : State) (f : List Instr → List Instr) : (s.onPending f).hiLatch = s.hiLatch := rfl
@[simp] theorem State.onPending_units (s : State) (f : List Instr → List Instr) : (s.onPending f).units = s.units := rfl
@[simp] theorem State.onPending_retRec (s : State) (f : List Instr → List Instr) : (s.onPending f).retRec = s.retRec := rfl
@[simp] theorem State.onPending_stamps (s : State) (f : List Instr → List Instr) : (s.onPending f).stamps = s.stamps := rfl
@[simp] theorem State.onPending_time (s : State) (f : List Instr → List Instr) : (s.onPending f).time = s.time := rfl
@[simp] theorem State.onPending_flt (s : State) (f : List Instr → List Instr) : (s.onPending f).flt = s.flt := rfl
@[simp] theorem State.onPending_log (s : State) (f : List Instr → List Instr) : (s.onPending f).log = s.log := rfl
@[simp] theorem State.onPending_mram (s : State) (f : List Instr → List Instr) : (s.onPending f).mram = s.mram := rfl
@[simp] theorem State.onPending_sched (s : State) (f : List Instr → List Instr) : (s.onPending f).sched = s.sched := rfl
@[simp] theorem State.onPending_hif (s : State) (f : List Instr → List Instr) : (s.onPending f).hif = s.hif := rfl
@[simp] theorem State.onPending_locks (s : State) (f : List Instr → List Instr) : (s.onPending f).locks = s.locks := rfl
@[simp] theorem State.onPending_nss (s : State) (f : List Instr → List Instr) : (s.onPending f).nss = s.nss := rfl
@[simp] theorem State.onPending_zones (s : State) (f : List Instr → List Instr) : (s.onPending f).zones = s.zones := rfl
@[simp] theorem State.onPending_map (s : State) (f : List Instr → List Instr) : (s.onPending f).map = s.map := rfl
@[simp] theorem State.onPending_lnd (s : State) (f : List Instr → List Instr) : (s.onPending f).lnd = s.lnd := rfl
@[simp] theorem State.onPending_jnl (s : State) (f : List Instr → List Instr) : (s.onPending f).jnl = s.jnl := rfl
@[simp] theorem State.onPending_pwr (s : State) (f : List Instr → List Instr) : (s.onPending f).pwr = s.pwr := rfl
@[simp] theorem State.onPending_lvl (s : State) (f : List Instr → List Instr) : (s.onPending f).lvl = s.lvl := rfl
@[simp] theorem State.onPending_prg (s : State) (f : List Instr → List Instr) : (s.onPending f).prg = s.prg := rfl
@[simp] theorem State.onPending_gov (s : State) (f : List Instr → List Instr) : (s.onPending f).gov = s.gov := rfl
@[simp] theorem State.onPending_med (s : State) (f : List Instr → List Instr) : (s.onPending f).med = s.med := rfl
@[simp] theorem State.onPending_sec (s : State) (f : List Instr → List Instr) : (s.onPending f).sec = s.sec := rfl
@[simp] theorem State.onPending_memp (s : State) (f : List Instr → List Instr) : (s.onPending f).memp = s.memp := rfl
@[simp] theorem State.onPending_dram (s : State) (f : List Instr → List Instr) : (s.onPending f).dram = s.dram := rfl
@[simp] theorem State.onOutbox_pending (s : State) (f : List Sent → List Sent) : (s.onOutbox f).pending = s.pending := rfl
@[simp] theorem State.onOutbox_outbox (s : State) (f : List Sent → List Sent) : (s.onOutbox f).outbox = f s.outbox := rfl
@[simp] theorem State.onOutbox_free (s : State) (f : List Sent → List Sent) : (s.onOutbox f).free = s.free := rfl
@[simp] theorem State.onOutbox_drbg (s : State) (f : List Sent → List Sent) : (s.onOutbox f).drbg = s.drbg := rfl
@[simp] theorem State.onOutbox_fields (s : State) (f : List Sent → List Sent) : (s.onOutbox f).fields = s.fields := rfl
@[simp] theorem State.onOutbox_eff2 (s : State) (f : List Sent → List Sent) : (s.onOutbox f).eff2 = s.eff2 := rfl
@[simp] theorem State.onOutbox_eff4 (s : State) (f : List Sent → List Sent) : (s.onOutbox f).eff4 = s.eff4 := rfl
@[simp] theorem State.onOutbox_hiLatch (s : State) (f : List Sent → List Sent) : (s.onOutbox f).hiLatch = s.hiLatch := rfl
@[simp] theorem State.onOutbox_units (s : State) (f : List Sent → List Sent) : (s.onOutbox f).units = s.units := rfl
@[simp] theorem State.onOutbox_retRec (s : State) (f : List Sent → List Sent) : (s.onOutbox f).retRec = s.retRec := rfl
@[simp] theorem State.onOutbox_stamps (s : State) (f : List Sent → List Sent) : (s.onOutbox f).stamps = s.stamps := rfl
@[simp] theorem State.onOutbox_time (s : State) (f : List Sent → List Sent) : (s.onOutbox f).time = s.time := rfl
@[simp] theorem State.onOutbox_flt (s : State) (f : List Sent → List Sent) : (s.onOutbox f).flt = s.flt := rfl
@[simp] theorem State.onOutbox_log (s : State) (f : List Sent → List Sent) : (s.onOutbox f).log = s.log := rfl
@[simp] theorem State.onOutbox_mram (s : State) (f : List Sent → List Sent) : (s.onOutbox f).mram = s.mram := rfl
@[simp] theorem State.onOutbox_sched (s : State) (f : List Sent → List Sent) : (s.onOutbox f).sched = s.sched := rfl
@[simp] theorem State.onOutbox_hif (s : State) (f : List Sent → List Sent) : (s.onOutbox f).hif = s.hif := rfl
@[simp] theorem State.onOutbox_locks (s : State) (f : List Sent → List Sent) : (s.onOutbox f).locks = s.locks := rfl
@[simp] theorem State.onOutbox_nss (s : State) (f : List Sent → List Sent) : (s.onOutbox f).nss = s.nss := rfl
@[simp] theorem State.onOutbox_zones (s : State) (f : List Sent → List Sent) : (s.onOutbox f).zones = s.zones := rfl
@[simp] theorem State.onOutbox_map (s : State) (f : List Sent → List Sent) : (s.onOutbox f).map = s.map := rfl
@[simp] theorem State.onOutbox_lnd (s : State) (f : List Sent → List Sent) : (s.onOutbox f).lnd = s.lnd := rfl
@[simp] theorem State.onOutbox_jnl (s : State) (f : List Sent → List Sent) : (s.onOutbox f).jnl = s.jnl := rfl
@[simp] theorem State.onOutbox_pwr (s : State) (f : List Sent → List Sent) : (s.onOutbox f).pwr = s.pwr := rfl
@[simp] theorem State.onOutbox_lvl (s : State) (f : List Sent → List Sent) : (s.onOutbox f).lvl = s.lvl := rfl
@[simp] theorem State.onOutbox_prg (s : State) (f : List Sent → List Sent) : (s.onOutbox f).prg = s.prg := rfl
@[simp] theorem State.onOutbox_gov (s : State) (f : List Sent → List Sent) : (s.onOutbox f).gov = s.gov := rfl
@[simp] theorem State.onOutbox_med (s : State) (f : List Sent → List Sent) : (s.onOutbox f).med = s.med := rfl
@[simp] theorem State.onOutbox_sec (s : State) (f : List Sent → List Sent) : (s.onOutbox f).sec = s.sec := rfl
@[simp] theorem State.onOutbox_memp (s : State) (f : List Sent → List Sent) : (s.onOutbox f).memp = s.memp := rfl
@[simp] theorem State.onOutbox_dram (s : State) (f : List Sent → List Sent) : (s.onOutbox f).dram = s.dram := rfl
@[simp] theorem State.onFree_pending (s : State) (f : Nat → Nat) : (s.onFree f).pending = s.pending := rfl
@[simp] theorem State.onFree_outbox (s : State) (f : Nat → Nat) : (s.onFree f).outbox = s.outbox := rfl
@[simp] theorem State.onFree_free (s : State) (f : Nat → Nat) : (s.onFree f).free = f s.free := rfl
@[simp] theorem State.onFree_drbg (s : State) (f : Nat → Nat) : (s.onFree f).drbg = s.drbg := rfl
@[simp] theorem State.onFree_fields (s : State) (f : Nat → Nat) : (s.onFree f).fields = s.fields := rfl
@[simp] theorem State.onFree_eff2 (s : State) (f : Nat → Nat) : (s.onFree f).eff2 = s.eff2 := rfl
@[simp] theorem State.onFree_eff4 (s : State) (f : Nat → Nat) : (s.onFree f).eff4 = s.eff4 := rfl
@[simp] theorem State.onFree_hiLatch (s : State) (f : Nat → Nat) : (s.onFree f).hiLatch = s.hiLatch := rfl
@[simp] theorem State.onFree_units (s : State) (f : Nat → Nat) : (s.onFree f).units = s.units := rfl
@[simp] theorem State.onFree_retRec (s : State) (f : Nat → Nat) : (s.onFree f).retRec = s.retRec := rfl
@[simp] theorem State.onFree_stamps (s : State) (f : Nat → Nat) : (s.onFree f).stamps = s.stamps := rfl
@[simp] theorem State.onFree_time (s : State) (f : Nat → Nat) : (s.onFree f).time = s.time := rfl
@[simp] theorem State.onFree_flt (s : State) (f : Nat → Nat) : (s.onFree f).flt = s.flt := rfl
@[simp] theorem State.onFree_log (s : State) (f : Nat → Nat) : (s.onFree f).log = s.log := rfl
@[simp] theorem State.onFree_mram (s : State) (f : Nat → Nat) : (s.onFree f).mram = s.mram := rfl
@[simp] theorem State.onFree_sched (s : State) (f : Nat → Nat) : (s.onFree f).sched = s.sched := rfl
@[simp] theorem State.onFree_hif (s : State) (f : Nat → Nat) : (s.onFree f).hif = s.hif := rfl
@[simp] theorem State.onFree_locks (s : State) (f : Nat → Nat) : (s.onFree f).locks = s.locks := rfl
@[simp] theorem State.onFree_nss (s : State) (f : Nat → Nat) : (s.onFree f).nss = s.nss := rfl
@[simp] theorem State.onFree_zones (s : State) (f : Nat → Nat) : (s.onFree f).zones = s.zones := rfl
@[simp] theorem State.onFree_map (s : State) (f : Nat → Nat) : (s.onFree f).map = s.map := rfl
@[simp] theorem State.onFree_lnd (s : State) (f : Nat → Nat) : (s.onFree f).lnd = s.lnd := rfl
@[simp] theorem State.onFree_jnl (s : State) (f : Nat → Nat) : (s.onFree f).jnl = s.jnl := rfl
@[simp] theorem State.onFree_pwr (s : State) (f : Nat → Nat) : (s.onFree f).pwr = s.pwr := rfl
@[simp] theorem State.onFree_lvl (s : State) (f : Nat → Nat) : (s.onFree f).lvl = s.lvl := rfl
@[simp] theorem State.onFree_prg (s : State) (f : Nat → Nat) : (s.onFree f).prg = s.prg := rfl
@[simp] theorem State.onFree_gov (s : State) (f : Nat → Nat) : (s.onFree f).gov = s.gov := rfl
@[simp] theorem State.onFree_med (s : State) (f : Nat → Nat) : (s.onFree f).med = s.med := rfl
@[simp] theorem State.onFree_sec (s : State) (f : Nat → Nat) : (s.onFree f).sec = s.sec := rfl
@[simp] theorem State.onFree_memp (s : State) (f : Nat → Nat) : (s.onFree f).memp = s.memp := rfl
@[simp] theorem State.onFree_dram (s : State) (f : Nat → Nat) : (s.onFree f).dram = s.dram := rfl
@[simp] theorem State.onDrbg_pending (s : State) (f : Nat → Nat) : (s.onDrbg f).pending = s.pending := rfl
@[simp] theorem State.onDrbg_outbox (s : State) (f : Nat → Nat) : (s.onDrbg f).outbox = s.outbox := rfl
@[simp] theorem State.onDrbg_free (s : State) (f : Nat → Nat) : (s.onDrbg f).free = s.free := rfl
@[simp] theorem State.onDrbg_drbg (s : State) (f : Nat → Nat) : (s.onDrbg f).drbg = f s.drbg := rfl
@[simp] theorem State.onDrbg_fields (s : State) (f : Nat → Nat) : (s.onDrbg f).fields = s.fields := rfl
@[simp] theorem State.onDrbg_eff2 (s : State) (f : Nat → Nat) : (s.onDrbg f).eff2 = s.eff2 := rfl
@[simp] theorem State.onDrbg_eff4 (s : State) (f : Nat → Nat) : (s.onDrbg f).eff4 = s.eff4 := rfl
@[simp] theorem State.onDrbg_hiLatch (s : State) (f : Nat → Nat) : (s.onDrbg f).hiLatch = s.hiLatch := rfl
@[simp] theorem State.onDrbg_units (s : State) (f : Nat → Nat) : (s.onDrbg f).units = s.units := rfl
@[simp] theorem State.onDrbg_retRec (s : State) (f : Nat → Nat) : (s.onDrbg f).retRec = s.retRec := rfl
@[simp] theorem State.onDrbg_stamps (s : State) (f : Nat → Nat) : (s.onDrbg f).stamps = s.stamps := rfl
@[simp] theorem State.onDrbg_time (s : State) (f : Nat → Nat) : (s.onDrbg f).time = s.time := rfl
@[simp] theorem State.onDrbg_flt (s : State) (f : Nat → Nat) : (s.onDrbg f).flt = s.flt := rfl
@[simp] theorem State.onDrbg_log (s : State) (f : Nat → Nat) : (s.onDrbg f).log = s.log := rfl
@[simp] theorem State.onDrbg_mram (s : State) (f : Nat → Nat) : (s.onDrbg f).mram = s.mram := rfl
@[simp] theorem State.onDrbg_sched (s : State) (f : Nat → Nat) : (s.onDrbg f).sched = s.sched := rfl
@[simp] theorem State.onDrbg_hif (s : State) (f : Nat → Nat) : (s.onDrbg f).hif = s.hif := rfl
@[simp] theorem State.onDrbg_locks (s : State) (f : Nat → Nat) : (s.onDrbg f).locks = s.locks := rfl
@[simp] theorem State.onDrbg_nss (s : State) (f : Nat → Nat) : (s.onDrbg f).nss = s.nss := rfl
@[simp] theorem State.onDrbg_zones (s : State) (f : Nat → Nat) : (s.onDrbg f).zones = s.zones := rfl
@[simp] theorem State.onDrbg_map (s : State) (f : Nat → Nat) : (s.onDrbg f).map = s.map := rfl
@[simp] theorem State.onDrbg_lnd (s : State) (f : Nat → Nat) : (s.onDrbg f).lnd = s.lnd := rfl
@[simp] theorem State.onDrbg_jnl (s : State) (f : Nat → Nat) : (s.onDrbg f).jnl = s.jnl := rfl
@[simp] theorem State.onDrbg_pwr (s : State) (f : Nat → Nat) : (s.onDrbg f).pwr = s.pwr := rfl
@[simp] theorem State.onDrbg_lvl (s : State) (f : Nat → Nat) : (s.onDrbg f).lvl = s.lvl := rfl
@[simp] theorem State.onDrbg_prg (s : State) (f : Nat → Nat) : (s.onDrbg f).prg = s.prg := rfl
@[simp] theorem State.onDrbg_gov (s : State) (f : Nat → Nat) : (s.onDrbg f).gov = s.gov := rfl
@[simp] theorem State.onDrbg_med (s : State) (f : Nat → Nat) : (s.onDrbg f).med = s.med := rfl
@[simp] theorem State.onDrbg_sec (s : State) (f : Nat → Nat) : (s.onDrbg f).sec = s.sec := rfl
@[simp] theorem State.onDrbg_memp (s : State) (f : Nat → Nat) : (s.onDrbg f).memp = s.memp := rfl
@[simp] theorem State.onDrbg_dram (s : State) (f : Nat → Nat) : (s.onDrbg f).dram = s.dram := rfl
@[simp] theorem State.onFields_pending (s : State) (f : SMap Nat → SMap Nat) : (s.onFields f).pending = s.pending := rfl
@[simp] theorem State.onFields_outbox (s : State) (f : SMap Nat → SMap Nat) : (s.onFields f).outbox = s.outbox := rfl
@[simp] theorem State.onFields_free (s : State) (f : SMap Nat → SMap Nat) : (s.onFields f).free = s.free := rfl
@[simp] theorem State.onFields_drbg (s : State) (f : SMap Nat → SMap Nat) : (s.onFields f).drbg = s.drbg := rfl
@[simp] theorem State.onFields_fields (s : State) (f : SMap Nat → SMap Nat) : (s.onFields f).fields = f s.fields := rfl
@[simp] theorem State.onFields_eff2 (s : State) (f : SMap Nat → SMap Nat) : (s.onFields f).eff2 = s.eff2 := rfl
@[simp] theorem State.onFields_eff4 (s : State) (f : SMap Nat → SMap Nat) : (s.onFields f).eff4 = s.eff4 := rfl
@[simp] theorem State.onFields_hiLatch (s : State) (f : SMap Nat → SMap Nat) : (s.onFields f).hiLatch = s.hiLatch := rfl
@[simp] theorem State.onFields_units (s : State) (f : SMap Nat → SMap Nat) : (s.onFields f).units = s.units := rfl
@[simp] theorem State.onFields_retRec (s : State) (f : SMap Nat → SMap Nat) : (s.onFields f).retRec = s.retRec := rfl
@[simp] theorem State.onFields_stamps (s : State) (f : SMap Nat → SMap Nat) : (s.onFields f).stamps = s.stamps := rfl
@[simp] theorem State.onFields_time (s : State) (f : SMap Nat → SMap Nat) : (s.onFields f).time = s.time := rfl
@[simp] theorem State.onFields_flt (s : State) (f : SMap Nat → SMap Nat) : (s.onFields f).flt = s.flt := rfl
@[simp] theorem State.onFields_log (s : State) (f : SMap Nat → SMap Nat) : (s.onFields f).log = s.log := rfl
@[simp] theorem State.onFields_mram (s : State) (f : SMap Nat → SMap Nat) : (s.onFields f).mram = s.mram := rfl
@[simp] theorem State.onFields_sched (s : State) (f : SMap Nat → SMap Nat) : (s.onFields f).sched = s.sched := rfl
@[simp] theorem State.onFields_hif (s : State) (f : SMap Nat → SMap Nat) : (s.onFields f).hif = s.hif := rfl
@[simp] theorem State.onFields_locks (s : State) (f : SMap Nat → SMap Nat) : (s.onFields f).locks = s.locks := rfl
@[simp] theorem State.onFields_nss (s : State) (f : SMap Nat → SMap Nat) : (s.onFields f).nss = s.nss := rfl
@[simp] theorem State.onFields_zones (s : State) (f : SMap Nat → SMap Nat) : (s.onFields f).zones = s.zones := rfl
@[simp] theorem State.onFields_map (s : State) (f : SMap Nat → SMap Nat) : (s.onFields f).map = s.map := rfl
@[simp] theorem State.onFields_lnd (s : State) (f : SMap Nat → SMap Nat) : (s.onFields f).lnd = s.lnd := rfl
@[simp] theorem State.onFields_jnl (s : State) (f : SMap Nat → SMap Nat) : (s.onFields f).jnl = s.jnl := rfl
@[simp] theorem State.onFields_pwr (s : State) (f : SMap Nat → SMap Nat) : (s.onFields f).pwr = s.pwr := rfl
@[simp] theorem State.onFields_lvl (s : State) (f : SMap Nat → SMap Nat) : (s.onFields f).lvl = s.lvl := rfl
@[simp] theorem State.onFields_prg (s : State) (f : SMap Nat → SMap Nat) : (s.onFields f).prg = s.prg := rfl
@[simp] theorem State.onFields_gov (s : State) (f : SMap Nat → SMap Nat) : (s.onFields f).gov = s.gov := rfl
@[simp] theorem State.onFields_med (s : State) (f : SMap Nat → SMap Nat) : (s.onFields f).med = s.med := rfl
@[simp] theorem State.onFields_sec (s : State) (f : SMap Nat → SMap Nat) : (s.onFields f).sec = s.sec := rfl
@[simp] theorem State.onFields_memp (s : State) (f : SMap Nat → SMap Nat) : (s.onFields f).memp = s.memp := rfl
@[simp] theorem State.onFields_dram (s : State) (f : SMap Nat → SMap Nat) : (s.onFields f).dram = s.dram := rfl
@[simp] theorem State.onEff2_pending (s : State) (f : SMap Nat → SMap Nat) : (s.onEff2 f).pending = s.pending := rfl
@[simp] theorem State.onEff2_outbox (s : State) (f : SMap Nat → SMap Nat) : (s.onEff2 f).outbox = s.outbox := rfl
@[simp] theorem State.onEff2_free (s : State) (f : SMap Nat → SMap Nat) : (s.onEff2 f).free = s.free := rfl
@[simp] theorem State.onEff2_drbg (s : State) (f : SMap Nat → SMap Nat) : (s.onEff2 f).drbg = s.drbg := rfl
@[simp] theorem State.onEff2_fields (s : State) (f : SMap Nat → SMap Nat) : (s.onEff2 f).fields = s.fields := rfl
@[simp] theorem State.onEff2_eff2 (s : State) (f : SMap Nat → SMap Nat) : (s.onEff2 f).eff2 = f s.eff2 := rfl
@[simp] theorem State.onEff2_eff4 (s : State) (f : SMap Nat → SMap Nat) : (s.onEff2 f).eff4 = s.eff4 := rfl
@[simp] theorem State.onEff2_hiLatch (s : State) (f : SMap Nat → SMap Nat) : (s.onEff2 f).hiLatch = s.hiLatch := rfl
@[simp] theorem State.onEff2_units (s : State) (f : SMap Nat → SMap Nat) : (s.onEff2 f).units = s.units := rfl
@[simp] theorem State.onEff2_retRec (s : State) (f : SMap Nat → SMap Nat) : (s.onEff2 f).retRec = s.retRec := rfl
@[simp] theorem State.onEff2_stamps (s : State) (f : SMap Nat → SMap Nat) : (s.onEff2 f).stamps = s.stamps := rfl
@[simp] theorem State.onEff2_time (s : State) (f : SMap Nat → SMap Nat) : (s.onEff2 f).time = s.time := rfl
@[simp] theorem State.onEff2_flt (s : State) (f : SMap Nat → SMap Nat) : (s.onEff2 f).flt = s.flt := rfl
@[simp] theorem State.onEff2_log (s : State) (f : SMap Nat → SMap Nat) : (s.onEff2 f).log = s.log := rfl
@[simp] theorem State.onEff2_mram (s : State) (f : SMap Nat → SMap Nat) : (s.onEff2 f).mram = s.mram := rfl
@[simp] theorem State.onEff2_sched (s : State) (f : SMap Nat → SMap Nat) : (s.onEff2 f).sched = s.sched := rfl
@[simp] theorem State.onEff2_hif (s : State) (f : SMap Nat → SMap Nat) : (s.onEff2 f).hif = s.hif := rfl
@[simp] theorem State.onEff2_locks (s : State) (f : SMap Nat → SMap Nat) : (s.onEff2 f).locks = s.locks := rfl
@[simp] theorem State.onEff2_nss (s : State) (f : SMap Nat → SMap Nat) : (s.onEff2 f).nss = s.nss := rfl
@[simp] theorem State.onEff2_zones (s : State) (f : SMap Nat → SMap Nat) : (s.onEff2 f).zones = s.zones := rfl
@[simp] theorem State.onEff2_map (s : State) (f : SMap Nat → SMap Nat) : (s.onEff2 f).map = s.map := rfl
@[simp] theorem State.onEff2_lnd (s : State) (f : SMap Nat → SMap Nat) : (s.onEff2 f).lnd = s.lnd := rfl
@[simp] theorem State.onEff2_jnl (s : State) (f : SMap Nat → SMap Nat) : (s.onEff2 f).jnl = s.jnl := rfl
@[simp] theorem State.onEff2_pwr (s : State) (f : SMap Nat → SMap Nat) : (s.onEff2 f).pwr = s.pwr := rfl
@[simp] theorem State.onEff2_lvl (s : State) (f : SMap Nat → SMap Nat) : (s.onEff2 f).lvl = s.lvl := rfl
@[simp] theorem State.onEff2_prg (s : State) (f : SMap Nat → SMap Nat) : (s.onEff2 f).prg = s.prg := rfl
@[simp] theorem State.onEff2_gov (s : State) (f : SMap Nat → SMap Nat) : (s.onEff2 f).gov = s.gov := rfl
@[simp] theorem State.onEff2_med (s : State) (f : SMap Nat → SMap Nat) : (s.onEff2 f).med = s.med := rfl
@[simp] theorem State.onEff2_sec (s : State) (f : SMap Nat → SMap Nat) : (s.onEff2 f).sec = s.sec := rfl
@[simp] theorem State.onEff2_memp (s : State) (f : SMap Nat → SMap Nat) : (s.onEff2 f).memp = s.memp := rfl
@[simp] theorem State.onEff2_dram (s : State) (f : SMap Nat → SMap Nat) : (s.onEff2 f).dram = s.dram := rfl
@[simp] theorem State.onEff4_pending (s : State) (f : SMap Nat → SMap Nat) : (s.onEff4 f).pending = s.pending := rfl
@[simp] theorem State.onEff4_outbox (s : State) (f : SMap Nat → SMap Nat) : (s.onEff4 f).outbox = s.outbox := rfl
@[simp] theorem State.onEff4_free (s : State) (f : SMap Nat → SMap Nat) : (s.onEff4 f).free = s.free := rfl
@[simp] theorem State.onEff4_drbg (s : State) (f : SMap Nat → SMap Nat) : (s.onEff4 f).drbg = s.drbg := rfl
@[simp] theorem State.onEff4_fields (s : State) (f : SMap Nat → SMap Nat) : (s.onEff4 f).fields = s.fields := rfl
@[simp] theorem State.onEff4_eff2 (s : State) (f : SMap Nat → SMap Nat) : (s.onEff4 f).eff2 = s.eff2 := rfl
@[simp] theorem State.onEff4_eff4 (s : State) (f : SMap Nat → SMap Nat) : (s.onEff4 f).eff4 = f s.eff4 := rfl
@[simp] theorem State.onEff4_hiLatch (s : State) (f : SMap Nat → SMap Nat) : (s.onEff4 f).hiLatch = s.hiLatch := rfl
@[simp] theorem State.onEff4_units (s : State) (f : SMap Nat → SMap Nat) : (s.onEff4 f).units = s.units := rfl
@[simp] theorem State.onEff4_retRec (s : State) (f : SMap Nat → SMap Nat) : (s.onEff4 f).retRec = s.retRec := rfl
@[simp] theorem State.onEff4_stamps (s : State) (f : SMap Nat → SMap Nat) : (s.onEff4 f).stamps = s.stamps := rfl
@[simp] theorem State.onEff4_time (s : State) (f : SMap Nat → SMap Nat) : (s.onEff4 f).time = s.time := rfl
@[simp] theorem State.onEff4_flt (s : State) (f : SMap Nat → SMap Nat) : (s.onEff4 f).flt = s.flt := rfl
@[simp] theorem State.onEff4_log (s : State) (f : SMap Nat → SMap Nat) : (s.onEff4 f).log = s.log := rfl
@[simp] theorem State.onEff4_mram (s : State) (f : SMap Nat → SMap Nat) : (s.onEff4 f).mram = s.mram := rfl
@[simp] theorem State.onEff4_sched (s : State) (f : SMap Nat → SMap Nat) : (s.onEff4 f).sched = s.sched := rfl
@[simp] theorem State.onEff4_hif (s : State) (f : SMap Nat → SMap Nat) : (s.onEff4 f).hif = s.hif := rfl
@[simp] theorem State.onEff4_locks (s : State) (f : SMap Nat → SMap Nat) : (s.onEff4 f).locks = s.locks := rfl
@[simp] theorem State.onEff4_nss (s : State) (f : SMap Nat → SMap Nat) : (s.onEff4 f).nss = s.nss := rfl
@[simp] theorem State.onEff4_zones (s : State) (f : SMap Nat → SMap Nat) : (s.onEff4 f).zones = s.zones := rfl
@[simp] theorem State.onEff4_map (s : State) (f : SMap Nat → SMap Nat) : (s.onEff4 f).map = s.map := rfl
@[simp] theorem State.onEff4_lnd (s : State) (f : SMap Nat → SMap Nat) : (s.onEff4 f).lnd = s.lnd := rfl
@[simp] theorem State.onEff4_jnl (s : State) (f : SMap Nat → SMap Nat) : (s.onEff4 f).jnl = s.jnl := rfl
@[simp] theorem State.onEff4_pwr (s : State) (f : SMap Nat → SMap Nat) : (s.onEff4 f).pwr = s.pwr := rfl
@[simp] theorem State.onEff4_lvl (s : State) (f : SMap Nat → SMap Nat) : (s.onEff4 f).lvl = s.lvl := rfl
@[simp] theorem State.onEff4_prg (s : State) (f : SMap Nat → SMap Nat) : (s.onEff4 f).prg = s.prg := rfl
@[simp] theorem State.onEff4_gov (s : State) (f : SMap Nat → SMap Nat) : (s.onEff4 f).gov = s.gov := rfl
@[simp] theorem State.onEff4_med (s : State) (f : SMap Nat → SMap Nat) : (s.onEff4 f).med = s.med := rfl
@[simp] theorem State.onEff4_sec (s : State) (f : SMap Nat → SMap Nat) : (s.onEff4 f).sec = s.sec := rfl
@[simp] theorem State.onEff4_memp (s : State) (f : SMap Nat → SMap Nat) : (s.onEff4 f).memp = s.memp := rfl
@[simp] theorem State.onEff4_dram (s : State) (f : SMap Nat → SMap Nat) : (s.onEff4 f).dram = s.dram := rfl
@[simp] theorem State.onHiLatch_pending (s : State) (f : SMap Nat → SMap Nat) : (s.onHiLatch f).pending = s.pending := rfl
@[simp] theorem State.onHiLatch_outbox (s : State) (f : SMap Nat → SMap Nat) : (s.onHiLatch f).outbox = s.outbox := rfl
@[simp] theorem State.onHiLatch_free (s : State) (f : SMap Nat → SMap Nat) : (s.onHiLatch f).free = s.free := rfl
@[simp] theorem State.onHiLatch_drbg (s : State) (f : SMap Nat → SMap Nat) : (s.onHiLatch f).drbg = s.drbg := rfl
@[simp] theorem State.onHiLatch_fields (s : State) (f : SMap Nat → SMap Nat) : (s.onHiLatch f).fields = s.fields := rfl
@[simp] theorem State.onHiLatch_eff2 (s : State) (f : SMap Nat → SMap Nat) : (s.onHiLatch f).eff2 = s.eff2 := rfl
@[simp] theorem State.onHiLatch_eff4 (s : State) (f : SMap Nat → SMap Nat) : (s.onHiLatch f).eff4 = s.eff4 := rfl
@[simp] theorem State.onHiLatch_hiLatch (s : State) (f : SMap Nat → SMap Nat) : (s.onHiLatch f).hiLatch = f s.hiLatch := rfl
@[simp] theorem State.onHiLatch_units (s : State) (f : SMap Nat → SMap Nat) : (s.onHiLatch f).units = s.units := rfl
@[simp] theorem State.onHiLatch_retRec (s : State) (f : SMap Nat → SMap Nat) : (s.onHiLatch f).retRec = s.retRec := rfl
@[simp] theorem State.onHiLatch_stamps (s : State) (f : SMap Nat → SMap Nat) : (s.onHiLatch f).stamps = s.stamps := rfl
@[simp] theorem State.onHiLatch_time (s : State) (f : SMap Nat → SMap Nat) : (s.onHiLatch f).time = s.time := rfl
@[simp] theorem State.onHiLatch_flt (s : State) (f : SMap Nat → SMap Nat) : (s.onHiLatch f).flt = s.flt := rfl
@[simp] theorem State.onHiLatch_log (s : State) (f : SMap Nat → SMap Nat) : (s.onHiLatch f).log = s.log := rfl
@[simp] theorem State.onHiLatch_mram (s : State) (f : SMap Nat → SMap Nat) : (s.onHiLatch f).mram = s.mram := rfl
@[simp] theorem State.onHiLatch_sched (s : State) (f : SMap Nat → SMap Nat) : (s.onHiLatch f).sched = s.sched := rfl
@[simp] theorem State.onHiLatch_hif (s : State) (f : SMap Nat → SMap Nat) : (s.onHiLatch f).hif = s.hif := rfl
@[simp] theorem State.onHiLatch_locks (s : State) (f : SMap Nat → SMap Nat) : (s.onHiLatch f).locks = s.locks := rfl
@[simp] theorem State.onHiLatch_nss (s : State) (f : SMap Nat → SMap Nat) : (s.onHiLatch f).nss = s.nss := rfl
@[simp] theorem State.onHiLatch_zones (s : State) (f : SMap Nat → SMap Nat) : (s.onHiLatch f).zones = s.zones := rfl
@[simp] theorem State.onHiLatch_map (s : State) (f : SMap Nat → SMap Nat) : (s.onHiLatch f).map = s.map := rfl
@[simp] theorem State.onHiLatch_lnd (s : State) (f : SMap Nat → SMap Nat) : (s.onHiLatch f).lnd = s.lnd := rfl
@[simp] theorem State.onHiLatch_jnl (s : State) (f : SMap Nat → SMap Nat) : (s.onHiLatch f).jnl = s.jnl := rfl
@[simp] theorem State.onHiLatch_pwr (s : State) (f : SMap Nat → SMap Nat) : (s.onHiLatch f).pwr = s.pwr := rfl
@[simp] theorem State.onHiLatch_lvl (s : State) (f : SMap Nat → SMap Nat) : (s.onHiLatch f).lvl = s.lvl := rfl
@[simp] theorem State.onHiLatch_prg (s : State) (f : SMap Nat → SMap Nat) : (s.onHiLatch f).prg = s.prg := rfl
@[simp] theorem State.onHiLatch_gov (s : State) (f : SMap Nat → SMap Nat) : (s.onHiLatch f).gov = s.gov := rfl
@[simp] theorem State.onHiLatch_med (s : State) (f : SMap Nat → SMap Nat) : (s.onHiLatch f).med = s.med := rfl
@[simp] theorem State.onHiLatch_sec (s : State) (f : SMap Nat → SMap Nat) : (s.onHiLatch f).sec = s.sec := rfl
@[simp] theorem State.onHiLatch_memp (s : State) (f : SMap Nat → SMap Nat) : (s.onHiLatch f).memp = s.memp := rfl
@[simp] theorem State.onHiLatch_dram (s : State) (f : SMap Nat → SMap Nat) : (s.onHiLatch f).dram = s.dram := rfl
@[simp] theorem State.onUnits_pending (s : State) (f : SMap UnitSt → SMap UnitSt) : (s.onUnits f).pending = s.pending := rfl
@[simp] theorem State.onUnits_outbox (s : State) (f : SMap UnitSt → SMap UnitSt) : (s.onUnits f).outbox = s.outbox := rfl
@[simp] theorem State.onUnits_free (s : State) (f : SMap UnitSt → SMap UnitSt) : (s.onUnits f).free = s.free := rfl
@[simp] theorem State.onUnits_drbg (s : State) (f : SMap UnitSt → SMap UnitSt) : (s.onUnits f).drbg = s.drbg := rfl
@[simp] theorem State.onUnits_fields (s : State) (f : SMap UnitSt → SMap UnitSt) : (s.onUnits f).fields = s.fields := rfl
@[simp] theorem State.onUnits_eff2 (s : State) (f : SMap UnitSt → SMap UnitSt) : (s.onUnits f).eff2 = s.eff2 := rfl
@[simp] theorem State.onUnits_eff4 (s : State) (f : SMap UnitSt → SMap UnitSt) : (s.onUnits f).eff4 = s.eff4 := rfl
@[simp] theorem State.onUnits_hiLatch (s : State) (f : SMap UnitSt → SMap UnitSt) : (s.onUnits f).hiLatch = s.hiLatch := rfl
@[simp] theorem State.onUnits_units (s : State) (f : SMap UnitSt → SMap UnitSt) : (s.onUnits f).units = f s.units := rfl
@[simp] theorem State.onUnits_retRec (s : State) (f : SMap UnitSt → SMap UnitSt) : (s.onUnits f).retRec = s.retRec := rfl
@[simp] theorem State.onUnits_stamps (s : State) (f : SMap UnitSt → SMap UnitSt) : (s.onUnits f).stamps = s.stamps := rfl
@[simp] theorem State.onUnits_time (s : State) (f : SMap UnitSt → SMap UnitSt) : (s.onUnits f).time = s.time := rfl
@[simp] theorem State.onUnits_flt (s : State) (f : SMap UnitSt → SMap UnitSt) : (s.onUnits f).flt = s.flt := rfl
@[simp] theorem State.onUnits_log (s : State) (f : SMap UnitSt → SMap UnitSt) : (s.onUnits f).log = s.log := rfl
@[simp] theorem State.onUnits_mram (s : State) (f : SMap UnitSt → SMap UnitSt) : (s.onUnits f).mram = s.mram := rfl
@[simp] theorem State.onUnits_sched (s : State) (f : SMap UnitSt → SMap UnitSt) : (s.onUnits f).sched = s.sched := rfl
@[simp] theorem State.onUnits_hif (s : State) (f : SMap UnitSt → SMap UnitSt) : (s.onUnits f).hif = s.hif := rfl
@[simp] theorem State.onUnits_locks (s : State) (f : SMap UnitSt → SMap UnitSt) : (s.onUnits f).locks = s.locks := rfl
@[simp] theorem State.onUnits_nss (s : State) (f : SMap UnitSt → SMap UnitSt) : (s.onUnits f).nss = s.nss := rfl
@[simp] theorem State.onUnits_zones (s : State) (f : SMap UnitSt → SMap UnitSt) : (s.onUnits f).zones = s.zones := rfl
@[simp] theorem State.onUnits_map (s : State) (f : SMap UnitSt → SMap UnitSt) : (s.onUnits f).map = s.map := rfl
@[simp] theorem State.onUnits_lnd (s : State) (f : SMap UnitSt → SMap UnitSt) : (s.onUnits f).lnd = s.lnd := rfl
@[simp] theorem State.onUnits_jnl (s : State) (f : SMap UnitSt → SMap UnitSt) : (s.onUnits f).jnl = s.jnl := rfl
@[simp] theorem State.onUnits_pwr (s : State) (f : SMap UnitSt → SMap UnitSt) : (s.onUnits f).pwr = s.pwr := rfl
@[simp] theorem State.onUnits_lvl (s : State) (f : SMap UnitSt → SMap UnitSt) : (s.onUnits f).lvl = s.lvl := rfl
@[simp] theorem State.onUnits_prg (s : State) (f : SMap UnitSt → SMap UnitSt) : (s.onUnits f).prg = s.prg := rfl
@[simp] theorem State.onUnits_gov (s : State) (f : SMap UnitSt → SMap UnitSt) : (s.onUnits f).gov = s.gov := rfl
@[simp] theorem State.onUnits_med (s : State) (f : SMap UnitSt → SMap UnitSt) : (s.onUnits f).med = s.med := rfl
@[simp] theorem State.onUnits_sec (s : State) (f : SMap UnitSt → SMap UnitSt) : (s.onUnits f).sec = s.sec := rfl
@[simp] theorem State.onUnits_memp (s : State) (f : SMap UnitSt → SMap UnitSt) : (s.onUnits f).memp = s.memp := rfl
@[simp] theorem State.onUnits_dram (s : State) (f : SMap UnitSt → SMap UnitSt) : (s.onUnits f).dram = s.dram := rfl
@[simp] theorem State.onRetRec_pending (s : State) (f : List Nat → List Nat) : (s.onRetRec f).pending = s.pending := rfl
@[simp] theorem State.onRetRec_outbox (s : State) (f : List Nat → List Nat) : (s.onRetRec f).outbox = s.outbox := rfl
@[simp] theorem State.onRetRec_free (s : State) (f : List Nat → List Nat) : (s.onRetRec f).free = s.free := rfl
@[simp] theorem State.onRetRec_drbg (s : State) (f : List Nat → List Nat) : (s.onRetRec f).drbg = s.drbg := rfl
@[simp] theorem State.onRetRec_fields (s : State) (f : List Nat → List Nat) : (s.onRetRec f).fields = s.fields := rfl
@[simp] theorem State.onRetRec_eff2 (s : State) (f : List Nat → List Nat) : (s.onRetRec f).eff2 = s.eff2 := rfl
@[simp] theorem State.onRetRec_eff4 (s : State) (f : List Nat → List Nat) : (s.onRetRec f).eff4 = s.eff4 := rfl
@[simp] theorem State.onRetRec_hiLatch (s : State) (f : List Nat → List Nat) : (s.onRetRec f).hiLatch = s.hiLatch := rfl
@[simp] theorem State.onRetRec_units (s : State) (f : List Nat → List Nat) : (s.onRetRec f).units = s.units := rfl
@[simp] theorem State.onRetRec_retRec (s : State) (f : List Nat → List Nat) : (s.onRetRec f).retRec = f s.retRec := rfl
@[simp] theorem State.onRetRec_stamps (s : State) (f : List Nat → List Nat) : (s.onRetRec f).stamps = s.stamps := rfl
@[simp] theorem State.onRetRec_time (s : State) (f : List Nat → List Nat) : (s.onRetRec f).time = s.time := rfl
@[simp] theorem State.onRetRec_flt (s : State) (f : List Nat → List Nat) : (s.onRetRec f).flt = s.flt := rfl
@[simp] theorem State.onRetRec_log (s : State) (f : List Nat → List Nat) : (s.onRetRec f).log = s.log := rfl
@[simp] theorem State.onRetRec_mram (s : State) (f : List Nat → List Nat) : (s.onRetRec f).mram = s.mram := rfl
@[simp] theorem State.onRetRec_sched (s : State) (f : List Nat → List Nat) : (s.onRetRec f).sched = s.sched := rfl
@[simp] theorem State.onRetRec_hif (s : State) (f : List Nat → List Nat) : (s.onRetRec f).hif = s.hif := rfl
@[simp] theorem State.onRetRec_locks (s : State) (f : List Nat → List Nat) : (s.onRetRec f).locks = s.locks := rfl
@[simp] theorem State.onRetRec_nss (s : State) (f : List Nat → List Nat) : (s.onRetRec f).nss = s.nss := rfl
@[simp] theorem State.onRetRec_zones (s : State) (f : List Nat → List Nat) : (s.onRetRec f).zones = s.zones := rfl
@[simp] theorem State.onRetRec_map (s : State) (f : List Nat → List Nat) : (s.onRetRec f).map = s.map := rfl
@[simp] theorem State.onRetRec_lnd (s : State) (f : List Nat → List Nat) : (s.onRetRec f).lnd = s.lnd := rfl
@[simp] theorem State.onRetRec_jnl (s : State) (f : List Nat → List Nat) : (s.onRetRec f).jnl = s.jnl := rfl
@[simp] theorem State.onRetRec_pwr (s : State) (f : List Nat → List Nat) : (s.onRetRec f).pwr = s.pwr := rfl
@[simp] theorem State.onRetRec_lvl (s : State) (f : List Nat → List Nat) : (s.onRetRec f).lvl = s.lvl := rfl
@[simp] theorem State.onRetRec_prg (s : State) (f : List Nat → List Nat) : (s.onRetRec f).prg = s.prg := rfl
@[simp] theorem State.onRetRec_gov (s : State) (f : List Nat → List Nat) : (s.onRetRec f).gov = s.gov := rfl
@[simp] theorem State.onRetRec_med (s : State) (f : List Nat → List Nat) : (s.onRetRec f).med = s.med := rfl
@[simp] theorem State.onRetRec_sec (s : State) (f : List Nat → List Nat) : (s.onRetRec f).sec = s.sec := rfl
@[simp] theorem State.onRetRec_memp (s : State) (f : List Nat → List Nat) : (s.onRetRec f).memp = s.memp := rfl
@[simp] theorem State.onRetRec_dram (s : State) (f : List Nat → List Nat) : (s.onRetRec f).dram = s.dram := rfl
@[simp] theorem State.onStamps_pending (s : State) (f : SMap (Nat × Nat) → SMap (Nat × Nat)) : (s.onStamps f).pending = s.pending := rfl
@[simp] theorem State.onStamps_outbox (s : State) (f : SMap (Nat × Nat) → SMap (Nat × Nat)) : (s.onStamps f).outbox = s.outbox := rfl
@[simp] theorem State.onStamps_free (s : State) (f : SMap (Nat × Nat) → SMap (Nat × Nat)) : (s.onStamps f).free = s.free := rfl
@[simp] theorem State.onStamps_drbg (s : State) (f : SMap (Nat × Nat) → SMap (Nat × Nat)) : (s.onStamps f).drbg = s.drbg := rfl
@[simp] theorem State.onStamps_fields (s : State) (f : SMap (Nat × Nat) → SMap (Nat × Nat)) : (s.onStamps f).fields = s.fields := rfl
@[simp] theorem State.onStamps_eff2 (s : State) (f : SMap (Nat × Nat) → SMap (Nat × Nat)) : (s.onStamps f).eff2 = s.eff2 := rfl
@[simp] theorem State.onStamps_eff4 (s : State) (f : SMap (Nat × Nat) → SMap (Nat × Nat)) : (s.onStamps f).eff4 = s.eff4 := rfl
@[simp] theorem State.onStamps_hiLatch (s : State) (f : SMap (Nat × Nat) → SMap (Nat × Nat)) : (s.onStamps f).hiLatch = s.hiLatch := rfl
@[simp] theorem State.onStamps_units (s : State) (f : SMap (Nat × Nat) → SMap (Nat × Nat)) : (s.onStamps f).units = s.units := rfl
@[simp] theorem State.onStamps_retRec (s : State) (f : SMap (Nat × Nat) → SMap (Nat × Nat)) : (s.onStamps f).retRec = s.retRec := rfl
@[simp] theorem State.onStamps_stamps (s : State) (f : SMap (Nat × Nat) → SMap (Nat × Nat)) : (s.onStamps f).stamps = f s.stamps := rfl
@[simp] theorem State.onStamps_time (s : State) (f : SMap (Nat × Nat) → SMap (Nat × Nat)) : (s.onStamps f).time = s.time := rfl
@[simp] theorem State.onStamps_flt (s : State) (f : SMap (Nat × Nat) → SMap (Nat × Nat)) : (s.onStamps f).flt = s.flt := rfl
@[simp] theorem State.onStamps_log (s : State) (f : SMap (Nat × Nat) → SMap (Nat × Nat)) : (s.onStamps f).log = s.log := rfl
@[simp] theorem State.onStamps_mram (s : State) (f : SMap (Nat × Nat) → SMap (Nat × Nat)) : (s.onStamps f).mram = s.mram := rfl
@[simp] theorem State.onStamps_sched (s : State) (f : SMap (Nat × Nat) → SMap (Nat × Nat)) : (s.onStamps f).sched = s.sched := rfl
@[simp] theorem State.onStamps_hif (s : State) (f : SMap (Nat × Nat) → SMap (Nat × Nat)) : (s.onStamps f).hif = s.hif := rfl
@[simp] theorem State.onStamps_locks (s : State) (f : SMap (Nat × Nat) → SMap (Nat × Nat)) : (s.onStamps f).locks = s.locks := rfl
@[simp] theorem State.onStamps_nss (s : State) (f : SMap (Nat × Nat) → SMap (Nat × Nat)) : (s.onStamps f).nss = s.nss := rfl
@[simp] theorem State.onStamps_zones (s : State) (f : SMap (Nat × Nat) → SMap (Nat × Nat)) : (s.onStamps f).zones = s.zones := rfl
@[simp] theorem State.onStamps_map (s : State) (f : SMap (Nat × Nat) → SMap (Nat × Nat)) : (s.onStamps f).map = s.map := rfl
@[simp] theorem State.onStamps_lnd (s : State) (f : SMap (Nat × Nat) → SMap (Nat × Nat)) : (s.onStamps f).lnd = s.lnd := rfl
@[simp] theorem State.onStamps_jnl (s : State) (f : SMap (Nat × Nat) → SMap (Nat × Nat)) : (s.onStamps f).jnl = s.jnl := rfl
@[simp] theorem State.onStamps_pwr (s : State) (f : SMap (Nat × Nat) → SMap (Nat × Nat)) : (s.onStamps f).pwr = s.pwr := rfl
@[simp] theorem State.onStamps_lvl (s : State) (f : SMap (Nat × Nat) → SMap (Nat × Nat)) : (s.onStamps f).lvl = s.lvl := rfl
@[simp] theorem State.onStamps_prg (s : State) (f : SMap (Nat × Nat) → SMap (Nat × Nat)) : (s.onStamps f).prg = s.prg := rfl
@[simp] theorem State.onStamps_gov (s : State) (f : SMap (Nat × Nat) → SMap (Nat × Nat)) : (s.onStamps f).gov = s.gov := rfl
@[simp] theorem State.onStamps_med (s : State) (f : SMap (Nat × Nat) → SMap (Nat × Nat)) : (s.onStamps f).med = s.med := rfl
@[simp] theorem State.onStamps_sec (s : State) (f : SMap (Nat × Nat) → SMap (Nat × Nat)) : (s.onStamps f).sec = s.sec := rfl
@[simp] theorem State.onStamps_memp (s : State) (f : SMap (Nat × Nat) → SMap (Nat × Nat)) : (s.onStamps f).memp = s.memp := rfl
@[simp] theorem State.onStamps_dram (s : State) (f : SMap (Nat × Nat) → SMap (Nat × Nat)) : (s.onStamps f).dram = s.dram := rfl
@[simp] theorem State.onTime_pending (s : State) (f : TimeSt → TimeSt) : (s.onTime f).pending = s.pending := rfl
@[simp] theorem State.onTime_outbox (s : State) (f : TimeSt → TimeSt) : (s.onTime f).outbox = s.outbox := rfl
@[simp] theorem State.onTime_free (s : State) (f : TimeSt → TimeSt) : (s.onTime f).free = s.free := rfl
@[simp] theorem State.onTime_drbg (s : State) (f : TimeSt → TimeSt) : (s.onTime f).drbg = s.drbg := rfl
@[simp] theorem State.onTime_fields (s : State) (f : TimeSt → TimeSt) : (s.onTime f).fields = s.fields := rfl
@[simp] theorem State.onTime_eff2 (s : State) (f : TimeSt → TimeSt) : (s.onTime f).eff2 = s.eff2 := rfl
@[simp] theorem State.onTime_eff4 (s : State) (f : TimeSt → TimeSt) : (s.onTime f).eff4 = s.eff4 := rfl
@[simp] theorem State.onTime_hiLatch (s : State) (f : TimeSt → TimeSt) : (s.onTime f).hiLatch = s.hiLatch := rfl
@[simp] theorem State.onTime_units (s : State) (f : TimeSt → TimeSt) : (s.onTime f).units = s.units := rfl
@[simp] theorem State.onTime_retRec (s : State) (f : TimeSt → TimeSt) : (s.onTime f).retRec = s.retRec := rfl
@[simp] theorem State.onTime_stamps (s : State) (f : TimeSt → TimeSt) : (s.onTime f).stamps = s.stamps := rfl
@[simp] theorem State.onTime_time (s : State) (f : TimeSt → TimeSt) : (s.onTime f).time = f s.time := rfl
@[simp] theorem State.onTime_flt (s : State) (f : TimeSt → TimeSt) : (s.onTime f).flt = s.flt := rfl
@[simp] theorem State.onTime_log (s : State) (f : TimeSt → TimeSt) : (s.onTime f).log = s.log := rfl
@[simp] theorem State.onTime_mram (s : State) (f : TimeSt → TimeSt) : (s.onTime f).mram = s.mram := rfl
@[simp] theorem State.onTime_sched (s : State) (f : TimeSt → TimeSt) : (s.onTime f).sched = s.sched := rfl
@[simp] theorem State.onTime_hif (s : State) (f : TimeSt → TimeSt) : (s.onTime f).hif = s.hif := rfl
@[simp] theorem State.onTime_locks (s : State) (f : TimeSt → TimeSt) : (s.onTime f).locks = s.locks := rfl
@[simp] theorem State.onTime_nss (s : State) (f : TimeSt → TimeSt) : (s.onTime f).nss = s.nss := rfl
@[simp] theorem State.onTime_zones (s : State) (f : TimeSt → TimeSt) : (s.onTime f).zones = s.zones := rfl
@[simp] theorem State.onTime_map (s : State) (f : TimeSt → TimeSt) : (s.onTime f).map = s.map := rfl
@[simp] theorem State.onTime_lnd (s : State) (f : TimeSt → TimeSt) : (s.onTime f).lnd = s.lnd := rfl
@[simp] theorem State.onTime_jnl (s : State) (f : TimeSt → TimeSt) : (s.onTime f).jnl = s.jnl := rfl
@[simp] theorem State.onTime_pwr (s : State) (f : TimeSt → TimeSt) : (s.onTime f).pwr = s.pwr := rfl
@[simp] theorem State.onTime_lvl (s : State) (f : TimeSt → TimeSt) : (s.onTime f).lvl = s.lvl := rfl
@[simp] theorem State.onTime_prg (s : State) (f : TimeSt → TimeSt) : (s.onTime f).prg = s.prg := rfl
@[simp] theorem State.onTime_gov (s : State) (f : TimeSt → TimeSt) : (s.onTime f).gov = s.gov := rfl
@[simp] theorem State.onTime_med (s : State) (f : TimeSt → TimeSt) : (s.onTime f).med = s.med := rfl
@[simp] theorem State.onTime_sec (s : State) (f : TimeSt → TimeSt) : (s.onTime f).sec = s.sec := rfl
@[simp] theorem State.onTime_memp (s : State) (f : TimeSt → TimeSt) : (s.onTime f).memp = s.memp := rfl
@[simp] theorem State.onTime_dram (s : State) (f : TimeSt → TimeSt) : (s.onTime f).dram = s.dram := rfl
@[simp] theorem State.onFlt_pending (s : State) (f : FltSt → FltSt) : (s.onFlt f).pending = s.pending := rfl
@[simp] theorem State.onFlt_outbox (s : State) (f : FltSt → FltSt) : (s.onFlt f).outbox = s.outbox := rfl
@[simp] theorem State.onFlt_free (s : State) (f : FltSt → FltSt) : (s.onFlt f).free = s.free := rfl
@[simp] theorem State.onFlt_drbg (s : State) (f : FltSt → FltSt) : (s.onFlt f).drbg = s.drbg := rfl
@[simp] theorem State.onFlt_fields (s : State) (f : FltSt → FltSt) : (s.onFlt f).fields = s.fields := rfl
@[simp] theorem State.onFlt_eff2 (s : State) (f : FltSt → FltSt) : (s.onFlt f).eff2 = s.eff2 := rfl
@[simp] theorem State.onFlt_eff4 (s : State) (f : FltSt → FltSt) : (s.onFlt f).eff4 = s.eff4 := rfl
@[simp] theorem State.onFlt_hiLatch (s : State) (f : FltSt → FltSt) : (s.onFlt f).hiLatch = s.hiLatch := rfl
@[simp] theorem State.onFlt_units (s : State) (f : FltSt → FltSt) : (s.onFlt f).units = s.units := rfl
@[simp] theorem State.onFlt_retRec (s : State) (f : FltSt → FltSt) : (s.onFlt f).retRec = s.retRec := rfl
@[simp] theorem State.onFlt_stamps (s : State) (f : FltSt → FltSt) : (s.onFlt f).stamps = s.stamps := rfl
@[simp] theorem State.onFlt_time (s : State) (f : FltSt → FltSt) : (s.onFlt f).time = s.time := rfl
@[simp] theorem State.onFlt_flt (s : State) (f : FltSt → FltSt) : (s.onFlt f).flt = f s.flt := rfl
@[simp] theorem State.onFlt_log (s : State) (f : FltSt → FltSt) : (s.onFlt f).log = s.log := rfl
@[simp] theorem State.onFlt_mram (s : State) (f : FltSt → FltSt) : (s.onFlt f).mram = s.mram := rfl
@[simp] theorem State.onFlt_sched (s : State) (f : FltSt → FltSt) : (s.onFlt f).sched = s.sched := rfl
@[simp] theorem State.onFlt_hif (s : State) (f : FltSt → FltSt) : (s.onFlt f).hif = s.hif := rfl
@[simp] theorem State.onFlt_locks (s : State) (f : FltSt → FltSt) : (s.onFlt f).locks = s.locks := rfl
@[simp] theorem State.onFlt_nss (s : State) (f : FltSt → FltSt) : (s.onFlt f).nss = s.nss := rfl
@[simp] theorem State.onFlt_zones (s : State) (f : FltSt → FltSt) : (s.onFlt f).zones = s.zones := rfl
@[simp] theorem State.onFlt_map (s : State) (f : FltSt → FltSt) : (s.onFlt f).map = s.map := rfl
@[simp] theorem State.onFlt_lnd (s : State) (f : FltSt → FltSt) : (s.onFlt f).lnd = s.lnd := rfl
@[simp] theorem State.onFlt_jnl (s : State) (f : FltSt → FltSt) : (s.onFlt f).jnl = s.jnl := rfl
@[simp] theorem State.onFlt_pwr (s : State) (f : FltSt → FltSt) : (s.onFlt f).pwr = s.pwr := rfl
@[simp] theorem State.onFlt_lvl (s : State) (f : FltSt → FltSt) : (s.onFlt f).lvl = s.lvl := rfl
@[simp] theorem State.onFlt_prg (s : State) (f : FltSt → FltSt) : (s.onFlt f).prg = s.prg := rfl
@[simp] theorem State.onFlt_gov (s : State) (f : FltSt → FltSt) : (s.onFlt f).gov = s.gov := rfl
@[simp] theorem State.onFlt_med (s : State) (f : FltSt → FltSt) : (s.onFlt f).med = s.med := rfl
@[simp] theorem State.onFlt_sec (s : State) (f : FltSt → FltSt) : (s.onFlt f).sec = s.sec := rfl
@[simp] theorem State.onFlt_memp (s : State) (f : FltSt → FltSt) : (s.onFlt f).memp = s.memp := rfl
@[simp] theorem State.onFlt_dram (s : State) (f : FltSt → FltSt) : (s.onFlt f).dram = s.dram := rfl
@[simp] theorem State.onLog_pending (s : State) (f : LogSt → LogSt) : (s.onLog f).pending = s.pending := rfl
@[simp] theorem State.onLog_outbox (s : State) (f : LogSt → LogSt) : (s.onLog f).outbox = s.outbox := rfl
@[simp] theorem State.onLog_free (s : State) (f : LogSt → LogSt) : (s.onLog f).free = s.free := rfl
@[simp] theorem State.onLog_drbg (s : State) (f : LogSt → LogSt) : (s.onLog f).drbg = s.drbg := rfl
@[simp] theorem State.onLog_fields (s : State) (f : LogSt → LogSt) : (s.onLog f).fields = s.fields := rfl
@[simp] theorem State.onLog_eff2 (s : State) (f : LogSt → LogSt) : (s.onLog f).eff2 = s.eff2 := rfl
@[simp] theorem State.onLog_eff4 (s : State) (f : LogSt → LogSt) : (s.onLog f).eff4 = s.eff4 := rfl
@[simp] theorem State.onLog_hiLatch (s : State) (f : LogSt → LogSt) : (s.onLog f).hiLatch = s.hiLatch := rfl
@[simp] theorem State.onLog_units (s : State) (f : LogSt → LogSt) : (s.onLog f).units = s.units := rfl
@[simp] theorem State.onLog_retRec (s : State) (f : LogSt → LogSt) : (s.onLog f).retRec = s.retRec := rfl
@[simp] theorem State.onLog_stamps (s : State) (f : LogSt → LogSt) : (s.onLog f).stamps = s.stamps := rfl
@[simp] theorem State.onLog_time (s : State) (f : LogSt → LogSt) : (s.onLog f).time = s.time := rfl
@[simp] theorem State.onLog_flt (s : State) (f : LogSt → LogSt) : (s.onLog f).flt = s.flt := rfl
@[simp] theorem State.onLog_log (s : State) (f : LogSt → LogSt) : (s.onLog f).log = f s.log := rfl
@[simp] theorem State.onLog_mram (s : State) (f : LogSt → LogSt) : (s.onLog f).mram = s.mram := rfl
@[simp] theorem State.onLog_sched (s : State) (f : LogSt → LogSt) : (s.onLog f).sched = s.sched := rfl
@[simp] theorem State.onLog_hif (s : State) (f : LogSt → LogSt) : (s.onLog f).hif = s.hif := rfl
@[simp] theorem State.onLog_locks (s : State) (f : LogSt → LogSt) : (s.onLog f).locks = s.locks := rfl
@[simp] theorem State.onLog_nss (s : State) (f : LogSt → LogSt) : (s.onLog f).nss = s.nss := rfl
@[simp] theorem State.onLog_zones (s : State) (f : LogSt → LogSt) : (s.onLog f).zones = s.zones := rfl
@[simp] theorem State.onLog_map (s : State) (f : LogSt → LogSt) : (s.onLog f).map = s.map := rfl
@[simp] theorem State.onLog_lnd (s : State) (f : LogSt → LogSt) : (s.onLog f).lnd = s.lnd := rfl
@[simp] theorem State.onLog_jnl (s : State) (f : LogSt → LogSt) : (s.onLog f).jnl = s.jnl := rfl
@[simp] theorem State.onLog_pwr (s : State) (f : LogSt → LogSt) : (s.onLog f).pwr = s.pwr := rfl
@[simp] theorem State.onLog_lvl (s : State) (f : LogSt → LogSt) : (s.onLog f).lvl = s.lvl := rfl
@[simp] theorem State.onLog_prg (s : State) (f : LogSt → LogSt) : (s.onLog f).prg = s.prg := rfl
@[simp] theorem State.onLog_gov (s : State) (f : LogSt → LogSt) : (s.onLog f).gov = s.gov := rfl
@[simp] theorem State.onLog_med (s : State) (f : LogSt → LogSt) : (s.onLog f).med = s.med := rfl
@[simp] theorem State.onLog_sec (s : State) (f : LogSt → LogSt) : (s.onLog f).sec = s.sec := rfl
@[simp] theorem State.onLog_memp (s : State) (f : LogSt → LogSt) : (s.onLog f).memp = s.memp := rfl
@[simp] theorem State.onLog_dram (s : State) (f : LogSt → LogSt) : (s.onLog f).dram = s.dram := rfl
@[simp] theorem State.onMram_pending (s : State) (f : SMap Byte → SMap Byte) : (s.onMram f).pending = s.pending := rfl
@[simp] theorem State.onMram_outbox (s : State) (f : SMap Byte → SMap Byte) : (s.onMram f).outbox = s.outbox := rfl
@[simp] theorem State.onMram_free (s : State) (f : SMap Byte → SMap Byte) : (s.onMram f).free = s.free := rfl
@[simp] theorem State.onMram_drbg (s : State) (f : SMap Byte → SMap Byte) : (s.onMram f).drbg = s.drbg := rfl
@[simp] theorem State.onMram_fields (s : State) (f : SMap Byte → SMap Byte) : (s.onMram f).fields = s.fields := rfl
@[simp] theorem State.onMram_eff2 (s : State) (f : SMap Byte → SMap Byte) : (s.onMram f).eff2 = s.eff2 := rfl
@[simp] theorem State.onMram_eff4 (s : State) (f : SMap Byte → SMap Byte) : (s.onMram f).eff4 = s.eff4 := rfl
@[simp] theorem State.onMram_hiLatch (s : State) (f : SMap Byte → SMap Byte) : (s.onMram f).hiLatch = s.hiLatch := rfl
@[simp] theorem State.onMram_units (s : State) (f : SMap Byte → SMap Byte) : (s.onMram f).units = s.units := rfl
@[simp] theorem State.onMram_retRec (s : State) (f : SMap Byte → SMap Byte) : (s.onMram f).retRec = s.retRec := rfl
@[simp] theorem State.onMram_stamps (s : State) (f : SMap Byte → SMap Byte) : (s.onMram f).stamps = s.stamps := rfl
@[simp] theorem State.onMram_time (s : State) (f : SMap Byte → SMap Byte) : (s.onMram f).time = s.time := rfl
@[simp] theorem State.onMram_flt (s : State) (f : SMap Byte → SMap Byte) : (s.onMram f).flt = s.flt := rfl
@[simp] theorem State.onMram_log (s : State) (f : SMap Byte → SMap Byte) : (s.onMram f).log = s.log := rfl
@[simp] theorem State.onMram_mram (s : State) (f : SMap Byte → SMap Byte) : (s.onMram f).mram = f s.mram := rfl
@[simp] theorem State.onMram_sched (s : State) (f : SMap Byte → SMap Byte) : (s.onMram f).sched = s.sched := rfl
@[simp] theorem State.onMram_hif (s : State) (f : SMap Byte → SMap Byte) : (s.onMram f).hif = s.hif := rfl
@[simp] theorem State.onMram_locks (s : State) (f : SMap Byte → SMap Byte) : (s.onMram f).locks = s.locks := rfl
@[simp] theorem State.onMram_nss (s : State) (f : SMap Byte → SMap Byte) : (s.onMram f).nss = s.nss := rfl
@[simp] theorem State.onMram_zones (s : State) (f : SMap Byte → SMap Byte) : (s.onMram f).zones = s.zones := rfl
@[simp] theorem State.onMram_map (s : State) (f : SMap Byte → SMap Byte) : (s.onMram f).map = s.map := rfl
@[simp] theorem State.onMram_lnd (s : State) (f : SMap Byte → SMap Byte) : (s.onMram f).lnd = s.lnd := rfl
@[simp] theorem State.onMram_jnl (s : State) (f : SMap Byte → SMap Byte) : (s.onMram f).jnl = s.jnl := rfl
@[simp] theorem State.onMram_pwr (s : State) (f : SMap Byte → SMap Byte) : (s.onMram f).pwr = s.pwr := rfl
@[simp] theorem State.onMram_lvl (s : State) (f : SMap Byte → SMap Byte) : (s.onMram f).lvl = s.lvl := rfl
@[simp] theorem State.onMram_prg (s : State) (f : SMap Byte → SMap Byte) : (s.onMram f).prg = s.prg := rfl
@[simp] theorem State.onMram_gov (s : State) (f : SMap Byte → SMap Byte) : (s.onMram f).gov = s.gov := rfl
@[simp] theorem State.onMram_med (s : State) (f : SMap Byte → SMap Byte) : (s.onMram f).med = s.med := rfl
@[simp] theorem State.onMram_sec (s : State) (f : SMap Byte → SMap Byte) : (s.onMram f).sec = s.sec := rfl
@[simp] theorem State.onMram_memp (s : State) (f : SMap Byte → SMap Byte) : (s.onMram f).memp = s.memp := rfl
@[simp] theorem State.onMram_dram (s : State) (f : SMap Byte → SMap Byte) : (s.onMram f).dram = s.dram := rfl
@[simp] theorem State.onSched_pending (s : State) (f : SchedSt → SchedSt) : (s.onSched f).pending = s.pending := rfl
@[simp] theorem State.onSched_outbox (s : State) (f : SchedSt → SchedSt) : (s.onSched f).outbox = s.outbox := rfl
@[simp] theorem State.onSched_free (s : State) (f : SchedSt → SchedSt) : (s.onSched f).free = s.free := rfl
@[simp] theorem State.onSched_drbg (s : State) (f : SchedSt → SchedSt) : (s.onSched f).drbg = s.drbg := rfl
@[simp] theorem State.onSched_fields (s : State) (f : SchedSt → SchedSt) : (s.onSched f).fields = s.fields := rfl
@[simp] theorem State.onSched_eff2 (s : State) (f : SchedSt → SchedSt) : (s.onSched f).eff2 = s.eff2 := rfl
@[simp] theorem State.onSched_eff4 (s : State) (f : SchedSt → SchedSt) : (s.onSched f).eff4 = s.eff4 := rfl
@[simp] theorem State.onSched_hiLatch (s : State) (f : SchedSt → SchedSt) : (s.onSched f).hiLatch = s.hiLatch := rfl
@[simp] theorem State.onSched_units (s : State) (f : SchedSt → SchedSt) : (s.onSched f).units = s.units := rfl
@[simp] theorem State.onSched_retRec (s : State) (f : SchedSt → SchedSt) : (s.onSched f).retRec = s.retRec := rfl
@[simp] theorem State.onSched_stamps (s : State) (f : SchedSt → SchedSt) : (s.onSched f).stamps = s.stamps := rfl
@[simp] theorem State.onSched_time (s : State) (f : SchedSt → SchedSt) : (s.onSched f).time = s.time := rfl
@[simp] theorem State.onSched_flt (s : State) (f : SchedSt → SchedSt) : (s.onSched f).flt = s.flt := rfl
@[simp] theorem State.onSched_log (s : State) (f : SchedSt → SchedSt) : (s.onSched f).log = s.log := rfl
@[simp] theorem State.onSched_mram (s : State) (f : SchedSt → SchedSt) : (s.onSched f).mram = s.mram := rfl
@[simp] theorem State.onSched_sched (s : State) (f : SchedSt → SchedSt) : (s.onSched f).sched = f s.sched := rfl
@[simp] theorem State.onSched_hif (s : State) (f : SchedSt → SchedSt) : (s.onSched f).hif = s.hif := rfl
@[simp] theorem State.onSched_locks (s : State) (f : SchedSt → SchedSt) : (s.onSched f).locks = s.locks := rfl
@[simp] theorem State.onSched_nss (s : State) (f : SchedSt → SchedSt) : (s.onSched f).nss = s.nss := rfl
@[simp] theorem State.onSched_zones (s : State) (f : SchedSt → SchedSt) : (s.onSched f).zones = s.zones := rfl
@[simp] theorem State.onSched_map (s : State) (f : SchedSt → SchedSt) : (s.onSched f).map = s.map := rfl
@[simp] theorem State.onSched_lnd (s : State) (f : SchedSt → SchedSt) : (s.onSched f).lnd = s.lnd := rfl
@[simp] theorem State.onSched_jnl (s : State) (f : SchedSt → SchedSt) : (s.onSched f).jnl = s.jnl := rfl
@[simp] theorem State.onSched_pwr (s : State) (f : SchedSt → SchedSt) : (s.onSched f).pwr = s.pwr := rfl
@[simp] theorem State.onSched_lvl (s : State) (f : SchedSt → SchedSt) : (s.onSched f).lvl = s.lvl := rfl
@[simp] theorem State.onSched_prg (s : State) (f : SchedSt → SchedSt) : (s.onSched f).prg = s.prg := rfl
@[simp] theorem State.onSched_gov (s : State) (f : SchedSt → SchedSt) : (s.onSched f).gov = s.gov := rfl
@[simp] theorem State.onSched_med (s : State) (f : SchedSt → SchedSt) : (s.onSched f).med = s.med := rfl
@[simp] theorem State.onSched_sec (s : State) (f : SchedSt → SchedSt) : (s.onSched f).sec = s.sec := rfl
@[simp] theorem State.onSched_memp (s : State) (f : SchedSt → SchedSt) : (s.onSched f).memp = s.memp := rfl
@[simp] theorem State.onSched_dram (s : State) (f : SchedSt → SchedSt) : (s.onSched f).dram = s.dram := rfl
@[simp] theorem State.onHif_pending (s : State) (f : HifSt → HifSt) : (s.onHif f).pending = s.pending := rfl
@[simp] theorem State.onHif_outbox (s : State) (f : HifSt → HifSt) : (s.onHif f).outbox = s.outbox := rfl
@[simp] theorem State.onHif_free (s : State) (f : HifSt → HifSt) : (s.onHif f).free = s.free := rfl
@[simp] theorem State.onHif_drbg (s : State) (f : HifSt → HifSt) : (s.onHif f).drbg = s.drbg := rfl
@[simp] theorem State.onHif_fields (s : State) (f : HifSt → HifSt) : (s.onHif f).fields = s.fields := rfl
@[simp] theorem State.onHif_eff2 (s : State) (f : HifSt → HifSt) : (s.onHif f).eff2 = s.eff2 := rfl
@[simp] theorem State.onHif_eff4 (s : State) (f : HifSt → HifSt) : (s.onHif f).eff4 = s.eff4 := rfl
@[simp] theorem State.onHif_hiLatch (s : State) (f : HifSt → HifSt) : (s.onHif f).hiLatch = s.hiLatch := rfl
@[simp] theorem State.onHif_units (s : State) (f : HifSt → HifSt) : (s.onHif f).units = s.units := rfl
@[simp] theorem State.onHif_retRec (s : State) (f : HifSt → HifSt) : (s.onHif f).retRec = s.retRec := rfl
@[simp] theorem State.onHif_stamps (s : State) (f : HifSt → HifSt) : (s.onHif f).stamps = s.stamps := rfl
@[simp] theorem State.onHif_time (s : State) (f : HifSt → HifSt) : (s.onHif f).time = s.time := rfl
@[simp] theorem State.onHif_flt (s : State) (f : HifSt → HifSt) : (s.onHif f).flt = s.flt := rfl
@[simp] theorem State.onHif_log (s : State) (f : HifSt → HifSt) : (s.onHif f).log = s.log := rfl
@[simp] theorem State.onHif_mram (s : State) (f : HifSt → HifSt) : (s.onHif f).mram = s.mram := rfl
@[simp] theorem State.onHif_sched (s : State) (f : HifSt → HifSt) : (s.onHif f).sched = s.sched := rfl
@[simp] theorem State.onHif_hif (s : State) (f : HifSt → HifSt) : (s.onHif f).hif = f s.hif := rfl
@[simp] theorem State.onHif_locks (s : State) (f : HifSt → HifSt) : (s.onHif f).locks = s.locks := rfl
@[simp] theorem State.onHif_nss (s : State) (f : HifSt → HifSt) : (s.onHif f).nss = s.nss := rfl
@[simp] theorem State.onHif_zones (s : State) (f : HifSt → HifSt) : (s.onHif f).zones = s.zones := rfl
@[simp] theorem State.onHif_map (s : State) (f : HifSt → HifSt) : (s.onHif f).map = s.map := rfl
@[simp] theorem State.onHif_lnd (s : State) (f : HifSt → HifSt) : (s.onHif f).lnd = s.lnd := rfl
@[simp] theorem State.onHif_jnl (s : State) (f : HifSt → HifSt) : (s.onHif f).jnl = s.jnl := rfl
@[simp] theorem State.onHif_pwr (s : State) (f : HifSt → HifSt) : (s.onHif f).pwr = s.pwr := rfl
@[simp] theorem State.onHif_lvl (s : State) (f : HifSt → HifSt) : (s.onHif f).lvl = s.lvl := rfl
@[simp] theorem State.onHif_prg (s : State) (f : HifSt → HifSt) : (s.onHif f).prg = s.prg := rfl
@[simp] theorem State.onHif_gov (s : State) (f : HifSt → HifSt) : (s.onHif f).gov = s.gov := rfl
@[simp] theorem State.onHif_med (s : State) (f : HifSt → HifSt) : (s.onHif f).med = s.med := rfl
@[simp] theorem State.onHif_sec (s : State) (f : HifSt → HifSt) : (s.onHif f).sec = s.sec := rfl
@[simp] theorem State.onHif_memp (s : State) (f : HifSt → HifSt) : (s.onHif f).memp = s.memp := rfl
@[simp] theorem State.onHif_dram (s : State) (f : HifSt → HifSt) : (s.onHif f).dram = s.dram := rfl
@[simp] theorem State.onLocks_pending (s : State) (f : List Lock → List Lock) : (s.onLocks f).pending = s.pending := rfl
@[simp] theorem State.onLocks_outbox (s : State) (f : List Lock → List Lock) : (s.onLocks f).outbox = s.outbox := rfl
@[simp] theorem State.onLocks_free (s : State) (f : List Lock → List Lock) : (s.onLocks f).free = s.free := rfl
@[simp] theorem State.onLocks_drbg (s : State) (f : List Lock → List Lock) : (s.onLocks f).drbg = s.drbg := rfl
@[simp] theorem State.onLocks_fields (s : State) (f : List Lock → List Lock) : (s.onLocks f).fields = s.fields := rfl
@[simp] theorem State.onLocks_eff2 (s : State) (f : List Lock → List Lock) : (s.onLocks f).eff2 = s.eff2 := rfl
@[simp] theorem State.onLocks_eff4 (s : State) (f : List Lock → List Lock) : (s.onLocks f).eff4 = s.eff4 := rfl
@[simp] theorem State.onLocks_hiLatch (s : State) (f : List Lock → List Lock) : (s.onLocks f).hiLatch = s.hiLatch := rfl
@[simp] theorem State.onLocks_units (s : State) (f : List Lock → List Lock) : (s.onLocks f).units = s.units := rfl
@[simp] theorem State.onLocks_retRec (s : State) (f : List Lock → List Lock) : (s.onLocks f).retRec = s.retRec := rfl
@[simp] theorem State.onLocks_stamps (s : State) (f : List Lock → List Lock) : (s.onLocks f).stamps = s.stamps := rfl
@[simp] theorem State.onLocks_time (s : State) (f : List Lock → List Lock) : (s.onLocks f).time = s.time := rfl
@[simp] theorem State.onLocks_flt (s : State) (f : List Lock → List Lock) : (s.onLocks f).flt = s.flt := rfl
@[simp] theorem State.onLocks_log (s : State) (f : List Lock → List Lock) : (s.onLocks f).log = s.log := rfl
@[simp] theorem State.onLocks_mram (s : State) (f : List Lock → List Lock) : (s.onLocks f).mram = s.mram := rfl
@[simp] theorem State.onLocks_sched (s : State) (f : List Lock → List Lock) : (s.onLocks f).sched = s.sched := rfl
@[simp] theorem State.onLocks_hif (s : State) (f : List Lock → List Lock) : (s.onLocks f).hif = s.hif := rfl
@[simp] theorem State.onLocks_locks (s : State) (f : List Lock → List Lock) : (s.onLocks f).locks = f s.locks := rfl
@[simp] theorem State.onLocks_nss (s : State) (f : List Lock → List Lock) : (s.onLocks f).nss = s.nss := rfl
@[simp] theorem State.onLocks_zones (s : State) (f : List Lock → List Lock) : (s.onLocks f).zones = s.zones := rfl
@[simp] theorem State.onLocks_map (s : State) (f : List Lock → List Lock) : (s.onLocks f).map = s.map := rfl
@[simp] theorem State.onLocks_lnd (s : State) (f : List Lock → List Lock) : (s.onLocks f).lnd = s.lnd := rfl
@[simp] theorem State.onLocks_jnl (s : State) (f : List Lock → List Lock) : (s.onLocks f).jnl = s.jnl := rfl
@[simp] theorem State.onLocks_pwr (s : State) (f : List Lock → List Lock) : (s.onLocks f).pwr = s.pwr := rfl
@[simp] theorem State.onLocks_lvl (s : State) (f : List Lock → List Lock) : (s.onLocks f).lvl = s.lvl := rfl
@[simp] theorem State.onLocks_prg (s : State) (f : List Lock → List Lock) : (s.onLocks f).prg = s.prg := rfl
@[simp] theorem State.onLocks_gov (s : State) (f : List Lock → List Lock) : (s.onLocks f).gov = s.gov := rfl
@[simp] theorem State.onLocks_med (s : State) (f : List Lock → List Lock) : (s.onLocks f).med = s.med := rfl
@[simp] theorem State.onLocks_sec (s : State) (f : List Lock → List Lock) : (s.onLocks f).sec = s.sec := rfl
@[simp] theorem State.onLocks_memp (s : State) (f : List Lock → List Lock) : (s.onLocks f).memp = s.memp := rfl
@[simp] theorem State.onLocks_dram (s : State) (f : List Lock → List Lock) : (s.onLocks f).dram = s.dram := rfl
@[simp] theorem State.onNss_pending (s : State) (f : SMap (Option Ns) → SMap (Option Ns)) : (s.onNss f).pending = s.pending := rfl
@[simp] theorem State.onNss_outbox (s : State) (f : SMap (Option Ns) → SMap (Option Ns)) : (s.onNss f).outbox = s.outbox := rfl
@[simp] theorem State.onNss_free (s : State) (f : SMap (Option Ns) → SMap (Option Ns)) : (s.onNss f).free = s.free := rfl
@[simp] theorem State.onNss_drbg (s : State) (f : SMap (Option Ns) → SMap (Option Ns)) : (s.onNss f).drbg = s.drbg := rfl
@[simp] theorem State.onNss_fields (s : State) (f : SMap (Option Ns) → SMap (Option Ns)) : (s.onNss f).fields = s.fields := rfl
@[simp] theorem State.onNss_eff2 (s : State) (f : SMap (Option Ns) → SMap (Option Ns)) : (s.onNss f).eff2 = s.eff2 := rfl
@[simp] theorem State.onNss_eff4 (s : State) (f : SMap (Option Ns) → SMap (Option Ns)) : (s.onNss f).eff4 = s.eff4 := rfl
@[simp] theorem State.onNss_hiLatch (s : State) (f : SMap (Option Ns) → SMap (Option Ns)) : (s.onNss f).hiLatch = s.hiLatch := rfl
@[simp] theorem State.onNss_units (s : State) (f : SMap (Option Ns) → SMap (Option Ns)) : (s.onNss f).units = s.units := rfl
@[simp] theorem State.onNss_retRec (s : State) (f : SMap (Option Ns) → SMap (Option Ns)) : (s.onNss f).retRec = s.retRec := rfl
@[simp] theorem State.onNss_stamps (s : State) (f : SMap (Option Ns) → SMap (Option Ns)) : (s.onNss f).stamps = s.stamps := rfl
@[simp] theorem State.onNss_time (s : State) (f : SMap (Option Ns) → SMap (Option Ns)) : (s.onNss f).time = s.time := rfl
@[simp] theorem State.onNss_flt (s : State) (f : SMap (Option Ns) → SMap (Option Ns)) : (s.onNss f).flt = s.flt := rfl
@[simp] theorem State.onNss_log (s : State) (f : SMap (Option Ns) → SMap (Option Ns)) : (s.onNss f).log = s.log := rfl
@[simp] theorem State.onNss_mram (s : State) (f : SMap (Option Ns) → SMap (Option Ns)) : (s.onNss f).mram = s.mram := rfl
@[simp] theorem State.onNss_sched (s : State) (f : SMap (Option Ns) → SMap (Option Ns)) : (s.onNss f).sched = s.sched := rfl
@[simp] theorem State.onNss_hif (s : State) (f : SMap (Option Ns) → SMap (Option Ns)) : (s.onNss f).hif = s.hif := rfl
@[simp] theorem State.onNss_locks (s : State) (f : SMap (Option Ns) → SMap (Option Ns)) : (s.onNss f).locks = s.locks := rfl
@[simp] theorem State.onNss_nss (s : State) (f : SMap (Option Ns) → SMap (Option Ns)) : (s.onNss f).nss = f s.nss := rfl
@[simp] theorem State.onNss_zones (s : State) (f : SMap (Option Ns) → SMap (Option Ns)) : (s.onNss f).zones = s.zones := rfl
@[simp] theorem State.onNss_map (s : State) (f : SMap (Option Ns) → SMap (Option Ns)) : (s.onNss f).map = s.map := rfl
@[simp] theorem State.onNss_lnd (s : State) (f : SMap (Option Ns) → SMap (Option Ns)) : (s.onNss f).lnd = s.lnd := rfl
@[simp] theorem State.onNss_jnl (s : State) (f : SMap (Option Ns) → SMap (Option Ns)) : (s.onNss f).jnl = s.jnl := rfl
@[simp] theorem State.onNss_pwr (s : State) (f : SMap (Option Ns) → SMap (Option Ns)) : (s.onNss f).pwr = s.pwr := rfl
@[simp] theorem State.onNss_lvl (s : State) (f : SMap (Option Ns) → SMap (Option Ns)) : (s.onNss f).lvl = s.lvl := rfl
@[simp] theorem State.onNss_prg (s : State) (f : SMap (Option Ns) → SMap (Option Ns)) : (s.onNss f).prg = s.prg := rfl
@[simp] theorem State.onNss_gov (s : State) (f : SMap (Option Ns) → SMap (Option Ns)) : (s.onNss f).gov = s.gov := rfl
@[simp] theorem State.onNss_med (s : State) (f : SMap (Option Ns) → SMap (Option Ns)) : (s.onNss f).med = s.med := rfl
@[simp] theorem State.onNss_sec (s : State) (f : SMap (Option Ns) → SMap (Option Ns)) : (s.onNss f).sec = s.sec := rfl
@[simp] theorem State.onNss_memp (s : State) (f : SMap (Option Ns) → SMap (Option Ns)) : (s.onNss f).memp = s.memp := rfl
@[simp] theorem State.onNss_dram (s : State) (f : SMap (Option Ns) → SMap (Option Ns)) : (s.onNss f).dram = s.dram := rfl
@[simp] theorem State.onZones_pending (s : State) (f : SMap Zone → SMap Zone) : (s.onZones f).pending = s.pending := rfl
@[simp] theorem State.onZones_outbox (s : State) (f : SMap Zone → SMap Zone) : (s.onZones f).outbox = s.outbox := rfl
@[simp] theorem State.onZones_free (s : State) (f : SMap Zone → SMap Zone) : (s.onZones f).free = s.free := rfl
@[simp] theorem State.onZones_drbg (s : State) (f : SMap Zone → SMap Zone) : (s.onZones f).drbg = s.drbg := rfl
@[simp] theorem State.onZones_fields (s : State) (f : SMap Zone → SMap Zone) : (s.onZones f).fields = s.fields := rfl
@[simp] theorem State.onZones_eff2 (s : State) (f : SMap Zone → SMap Zone) : (s.onZones f).eff2 = s.eff2 := rfl
@[simp] theorem State.onZones_eff4 (s : State) (f : SMap Zone → SMap Zone) : (s.onZones f).eff4 = s.eff4 := rfl
@[simp] theorem State.onZones_hiLatch (s : State) (f : SMap Zone → SMap Zone) : (s.onZones f).hiLatch = s.hiLatch := rfl
@[simp] theorem State.onZones_units (s : State) (f : SMap Zone → SMap Zone) : (s.onZones f).units = s.units := rfl
@[simp] theorem State.onZones_retRec (s : State) (f : SMap Zone → SMap Zone) : (s.onZones f).retRec = s.retRec := rfl
@[simp] theorem State.onZones_stamps (s : State) (f : SMap Zone → SMap Zone) : (s.onZones f).stamps = s.stamps := rfl
@[simp] theorem State.onZones_time (s : State) (f : SMap Zone → SMap Zone) : (s.onZones f).time = s.time := rfl
@[simp] theorem State.onZones_flt (s : State) (f : SMap Zone → SMap Zone) : (s.onZones f).flt = s.flt := rfl
@[simp] theorem State.onZones_log (s : State) (f : SMap Zone → SMap Zone) : (s.onZones f).log = s.log := rfl
@[simp] theorem State.onZones_mram (s : State) (f : SMap Zone → SMap Zone) : (s.onZones f).mram = s.mram := rfl
@[simp] theorem State.onZones_sched (s : State) (f : SMap Zone → SMap Zone) : (s.onZones f).sched = s.sched := rfl
@[simp] theorem State.onZones_hif (s : State) (f : SMap Zone → SMap Zone) : (s.onZones f).hif = s.hif := rfl
@[simp] theorem State.onZones_locks (s : State) (f : SMap Zone → SMap Zone) : (s.onZones f).locks = s.locks := rfl
@[simp] theorem State.onZones_nss (s : State) (f : SMap Zone → SMap Zone) : (s.onZones f).nss = s.nss := rfl
@[simp] theorem State.onZones_zones (s : State) (f : SMap Zone → SMap Zone) : (s.onZones f).zones = f s.zones := rfl
@[simp] theorem State.onZones_map (s : State) (f : SMap Zone → SMap Zone) : (s.onZones f).map = s.map := rfl
@[simp] theorem State.onZones_lnd (s : State) (f : SMap Zone → SMap Zone) : (s.onZones f).lnd = s.lnd := rfl
@[simp] theorem State.onZones_jnl (s : State) (f : SMap Zone → SMap Zone) : (s.onZones f).jnl = s.jnl := rfl
@[simp] theorem State.onZones_pwr (s : State) (f : SMap Zone → SMap Zone) : (s.onZones f).pwr = s.pwr := rfl
@[simp] theorem State.onZones_lvl (s : State) (f : SMap Zone → SMap Zone) : (s.onZones f).lvl = s.lvl := rfl
@[simp] theorem State.onZones_prg (s : State) (f : SMap Zone → SMap Zone) : (s.onZones f).prg = s.prg := rfl
@[simp] theorem State.onZones_gov (s : State) (f : SMap Zone → SMap Zone) : (s.onZones f).gov = s.gov := rfl
@[simp] theorem State.onZones_med (s : State) (f : SMap Zone → SMap Zone) : (s.onZones f).med = s.med := rfl
@[simp] theorem State.onZones_sec (s : State) (f : SMap Zone → SMap Zone) : (s.onZones f).sec = s.sec := rfl
@[simp] theorem State.onZones_memp (s : State) (f : SMap Zone → SMap Zone) : (s.onZones f).memp = s.memp := rfl
@[simp] theorem State.onZones_dram (s : State) (f : SMap Zone → SMap Zone) : (s.onZones f).dram = s.dram := rfl
@[simp] theorem State.onMap_pending (s : State) (f : MapSt → MapSt) : (s.onMap f).pending = s.pending := rfl
@[simp] theorem State.onMap_outbox (s : State) (f : MapSt → MapSt) : (s.onMap f).outbox = s.outbox := rfl
@[simp] theorem State.onMap_free (s : State) (f : MapSt → MapSt) : (s.onMap f).free = s.free := rfl
@[simp] theorem State.onMap_drbg (s : State) (f : MapSt → MapSt) : (s.onMap f).drbg = s.drbg := rfl
@[simp] theorem State.onMap_fields (s : State) (f : MapSt → MapSt) : (s.onMap f).fields = s.fields := rfl
@[simp] theorem State.onMap_eff2 (s : State) (f : MapSt → MapSt) : (s.onMap f).eff2 = s.eff2 := rfl
@[simp] theorem State.onMap_eff4 (s : State) (f : MapSt → MapSt) : (s.onMap f).eff4 = s.eff4 := rfl
@[simp] theorem State.onMap_hiLatch (s : State) (f : MapSt → MapSt) : (s.onMap f).hiLatch = s.hiLatch := rfl
@[simp] theorem State.onMap_units (s : State) (f : MapSt → MapSt) : (s.onMap f).units = s.units := rfl
@[simp] theorem State.onMap_retRec (s : State) (f : MapSt → MapSt) : (s.onMap f).retRec = s.retRec := rfl
@[simp] theorem State.onMap_stamps (s : State) (f : MapSt → MapSt) : (s.onMap f).stamps = s.stamps := rfl
@[simp] theorem State.onMap_time (s : State) (f : MapSt → MapSt) : (s.onMap f).time = s.time := rfl
@[simp] theorem State.onMap_flt (s : State) (f : MapSt → MapSt) : (s.onMap f).flt = s.flt := rfl
@[simp] theorem State.onMap_log (s : State) (f : MapSt → MapSt) : (s.onMap f).log = s.log := rfl
@[simp] theorem State.onMap_mram (s : State) (f : MapSt → MapSt) : (s.onMap f).mram = s.mram := rfl
@[simp] theorem State.onMap_sched (s : State) (f : MapSt → MapSt) : (s.onMap f).sched = s.sched := rfl
@[simp] theorem State.onMap_hif (s : State) (f : MapSt → MapSt) : (s.onMap f).hif = s.hif := rfl
@[simp] theorem State.onMap_locks (s : State) (f : MapSt → MapSt) : (s.onMap f).locks = s.locks := rfl
@[simp] theorem State.onMap_nss (s : State) (f : MapSt → MapSt) : (s.onMap f).nss = s.nss := rfl
@[simp] theorem State.onMap_zones (s : State) (f : MapSt → MapSt) : (s.onMap f).zones = s.zones := rfl
@[simp] theorem State.onMap_map (s : State) (f : MapSt → MapSt) : (s.onMap f).map = f s.map := rfl
@[simp] theorem State.onMap_lnd (s : State) (f : MapSt → MapSt) : (s.onMap f).lnd = s.lnd := rfl
@[simp] theorem State.onMap_jnl (s : State) (f : MapSt → MapSt) : (s.onMap f).jnl = s.jnl := rfl
@[simp] theorem State.onMap_pwr (s : State) (f : MapSt → MapSt) : (s.onMap f).pwr = s.pwr := rfl
@[simp] theorem State.onMap_lvl (s : State) (f : MapSt → MapSt) : (s.onMap f).lvl = s.lvl := rfl
@[simp] theorem State.onMap_prg (s : State) (f : MapSt → MapSt) : (s.onMap f).prg = s.prg := rfl
@[simp] theorem State.onMap_gov (s : State) (f : MapSt → MapSt) : (s.onMap f).gov = s.gov := rfl
@[simp] theorem State.onMap_med (s : State) (f : MapSt → MapSt) : (s.onMap f).med = s.med := rfl
@[simp] theorem State.onMap_sec (s : State) (f : MapSt → MapSt) : (s.onMap f).sec = s.sec := rfl
@[simp] theorem State.onMap_memp (s : State) (f : MapSt → MapSt) : (s.onMap f).memp = s.memp := rfl
@[simp] theorem State.onMap_dram (s : State) (f : MapSt → MapSt) : (s.onMap f).dram = s.dram := rfl
@[simp] theorem State.onLnd_pending (s : State) (f : LndSt → LndSt) : (s.onLnd f).pending = s.pending := rfl
@[simp] theorem State.onLnd_outbox (s : State) (f : LndSt → LndSt) : (s.onLnd f).outbox = s.outbox := rfl
@[simp] theorem State.onLnd_free (s : State) (f : LndSt → LndSt) : (s.onLnd f).free = s.free := rfl
@[simp] theorem State.onLnd_drbg (s : State) (f : LndSt → LndSt) : (s.onLnd f).drbg = s.drbg := rfl
@[simp] theorem State.onLnd_fields (s : State) (f : LndSt → LndSt) : (s.onLnd f).fields = s.fields := rfl
@[simp] theorem State.onLnd_eff2 (s : State) (f : LndSt → LndSt) : (s.onLnd f).eff2 = s.eff2 := rfl
@[simp] theorem State.onLnd_eff4 (s : State) (f : LndSt → LndSt) : (s.onLnd f).eff4 = s.eff4 := rfl
@[simp] theorem State.onLnd_hiLatch (s : State) (f : LndSt → LndSt) : (s.onLnd f).hiLatch = s.hiLatch := rfl
@[simp] theorem State.onLnd_units (s : State) (f : LndSt → LndSt) : (s.onLnd f).units = s.units := rfl
@[simp] theorem State.onLnd_retRec (s : State) (f : LndSt → LndSt) : (s.onLnd f).retRec = s.retRec := rfl
@[simp] theorem State.onLnd_stamps (s : State) (f : LndSt → LndSt) : (s.onLnd f).stamps = s.stamps := rfl
@[simp] theorem State.onLnd_time (s : State) (f : LndSt → LndSt) : (s.onLnd f).time = s.time := rfl
@[simp] theorem State.onLnd_flt (s : State) (f : LndSt → LndSt) : (s.onLnd f).flt = s.flt := rfl
@[simp] theorem State.onLnd_log (s : State) (f : LndSt → LndSt) : (s.onLnd f).log = s.log := rfl
@[simp] theorem State.onLnd_mram (s : State) (f : LndSt → LndSt) : (s.onLnd f).mram = s.mram := rfl
@[simp] theorem State.onLnd_sched (s : State) (f : LndSt → LndSt) : (s.onLnd f).sched = s.sched := rfl
@[simp] theorem State.onLnd_hif (s : State) (f : LndSt → LndSt) : (s.onLnd f).hif = s.hif := rfl
@[simp] theorem State.onLnd_locks (s : State) (f : LndSt → LndSt) : (s.onLnd f).locks = s.locks := rfl
@[simp] theorem State.onLnd_nss (s : State) (f : LndSt → LndSt) : (s.onLnd f).nss = s.nss := rfl
@[simp] theorem State.onLnd_zones (s : State) (f : LndSt → LndSt) : (s.onLnd f).zones = s.zones := rfl
@[simp] theorem State.onLnd_map (s : State) (f : LndSt → LndSt) : (s.onLnd f).map = s.map := rfl
@[simp] theorem State.onLnd_lnd (s : State) (f : LndSt → LndSt) : (s.onLnd f).lnd = f s.lnd := rfl
@[simp] theorem State.onLnd_jnl (s : State) (f : LndSt → LndSt) : (s.onLnd f).jnl = s.jnl := rfl
@[simp] theorem State.onLnd_pwr (s : State) (f : LndSt → LndSt) : (s.onLnd f).pwr = s.pwr := rfl
@[simp] theorem State.onLnd_lvl (s : State) (f : LndSt → LndSt) : (s.onLnd f).lvl = s.lvl := rfl
@[simp] theorem State.onLnd_prg (s : State) (f : LndSt → LndSt) : (s.onLnd f).prg = s.prg := rfl
@[simp] theorem State.onLnd_gov (s : State) (f : LndSt → LndSt) : (s.onLnd f).gov = s.gov := rfl
@[simp] theorem State.onLnd_med (s : State) (f : LndSt → LndSt) : (s.onLnd f).med = s.med := rfl
@[simp] theorem State.onLnd_sec (s : State) (f : LndSt → LndSt) : (s.onLnd f).sec = s.sec := rfl
@[simp] theorem State.onLnd_memp (s : State) (f : LndSt → LndSt) : (s.onLnd f).memp = s.memp := rfl
@[simp] theorem State.onLnd_dram (s : State) (f : LndSt → LndSt) : (s.onLnd f).dram = s.dram := rfl
@[simp] theorem State.onJnl_pending (s : State) (f : JnlSt → JnlSt) : (s.onJnl f).pending = s.pending := rfl
@[simp] theorem State.onJnl_outbox (s : State) (f : JnlSt → JnlSt) : (s.onJnl f).outbox = s.outbox := rfl
@[simp] theorem State.onJnl_free (s : State) (f : JnlSt → JnlSt) : (s.onJnl f).free = s.free := rfl
@[simp] theorem State.onJnl_drbg (s : State) (f : JnlSt → JnlSt) : (s.onJnl f).drbg = s.drbg := rfl
@[simp] theorem State.onJnl_fields (s : State) (f : JnlSt → JnlSt) : (s.onJnl f).fields = s.fields := rfl
@[simp] theorem State.onJnl_eff2 (s : State) (f : JnlSt → JnlSt) : (s.onJnl f).eff2 = s.eff2 := rfl
@[simp] theorem State.onJnl_eff4 (s : State) (f : JnlSt → JnlSt) : (s.onJnl f).eff4 = s.eff4 := rfl
@[simp] theorem State.onJnl_hiLatch (s : State) (f : JnlSt → JnlSt) : (s.onJnl f).hiLatch = s.hiLatch := rfl
@[simp] theorem State.onJnl_units (s : State) (f : JnlSt → JnlSt) : (s.onJnl f).units = s.units := rfl
@[simp] theorem State.onJnl_retRec (s : State) (f : JnlSt → JnlSt) : (s.onJnl f).retRec = s.retRec := rfl
@[simp] theorem State.onJnl_stamps (s : State) (f : JnlSt → JnlSt) : (s.onJnl f).stamps = s.stamps := rfl
@[simp] theorem State.onJnl_time (s : State) (f : JnlSt → JnlSt) : (s.onJnl f).time = s.time := rfl
@[simp] theorem State.onJnl_flt (s : State) (f : JnlSt → JnlSt) : (s.onJnl f).flt = s.flt := rfl
@[simp] theorem State.onJnl_log (s : State) (f : JnlSt → JnlSt) : (s.onJnl f).log = s.log := rfl
@[simp] theorem State.onJnl_mram (s : State) (f : JnlSt → JnlSt) : (s.onJnl f).mram = s.mram := rfl
@[simp] theorem State.onJnl_sched (s : State) (f : JnlSt → JnlSt) : (s.onJnl f).sched = s.sched := rfl
@[simp] theorem State.onJnl_hif (s : State) (f : JnlSt → JnlSt) : (s.onJnl f).hif = s.hif := rfl
@[simp] theorem State.onJnl_locks (s : State) (f : JnlSt → JnlSt) : (s.onJnl f).locks = s.locks := rfl
@[simp] theorem State.onJnl_nss (s : State) (f : JnlSt → JnlSt) : (s.onJnl f).nss = s.nss := rfl
@[simp] theorem State.onJnl_zones (s : State) (f : JnlSt → JnlSt) : (s.onJnl f).zones = s.zones := rfl
@[simp] theorem State.onJnl_map (s : State) (f : JnlSt → JnlSt) : (s.onJnl f).map = s.map := rfl
@[simp] theorem State.onJnl_lnd (s : State) (f : JnlSt → JnlSt) : (s.onJnl f).lnd = s.lnd := rfl
@[simp] theorem State.onJnl_jnl (s : State) (f : JnlSt → JnlSt) : (s.onJnl f).jnl = f s.jnl := rfl
@[simp] theorem State.onJnl_pwr (s : State) (f : JnlSt → JnlSt) : (s.onJnl f).pwr = s.pwr := rfl
@[simp] theorem State.onJnl_lvl (s : State) (f : JnlSt → JnlSt) : (s.onJnl f).lvl = s.lvl := rfl
@[simp] theorem State.onJnl_prg (s : State) (f : JnlSt → JnlSt) : (s.onJnl f).prg = s.prg := rfl
@[simp] theorem State.onJnl_gov (s : State) (f : JnlSt → JnlSt) : (s.onJnl f).gov = s.gov := rfl
@[simp] theorem State.onJnl_med (s : State) (f : JnlSt → JnlSt) : (s.onJnl f).med = s.med := rfl
@[simp] theorem State.onJnl_sec (s : State) (f : JnlSt → JnlSt) : (s.onJnl f).sec = s.sec := rfl
@[simp] theorem State.onJnl_memp (s : State) (f : JnlSt → JnlSt) : (s.onJnl f).memp = s.memp := rfl
@[simp] theorem State.onJnl_dram (s : State) (f : JnlSt → JnlSt) : (s.onJnl f).dram = s.dram := rfl
@[simp] theorem State.onPwr_pending (s : State) (f : PwrSt → PwrSt) : (s.onPwr f).pending = s.pending := rfl
@[simp] theorem State.onPwr_outbox (s : State) (f : PwrSt → PwrSt) : (s.onPwr f).outbox = s.outbox := rfl
@[simp] theorem State.onPwr_free (s : State) (f : PwrSt → PwrSt) : (s.onPwr f).free = s.free := rfl
@[simp] theorem State.onPwr_drbg (s : State) (f : PwrSt → PwrSt) : (s.onPwr f).drbg = s.drbg := rfl
@[simp] theorem State.onPwr_fields (s : State) (f : PwrSt → PwrSt) : (s.onPwr f).fields = s.fields := rfl
@[simp] theorem State.onPwr_eff2 (s : State) (f : PwrSt → PwrSt) : (s.onPwr f).eff2 = s.eff2 := rfl
@[simp] theorem State.onPwr_eff4 (s : State) (f : PwrSt → PwrSt) : (s.onPwr f).eff4 = s.eff4 := rfl
@[simp] theorem State.onPwr_hiLatch (s : State) (f : PwrSt → PwrSt) : (s.onPwr f).hiLatch = s.hiLatch := rfl
@[simp] theorem State.onPwr_units (s : State) (f : PwrSt → PwrSt) : (s.onPwr f).units = s.units := rfl
@[simp] theorem State.onPwr_retRec (s : State) (f : PwrSt → PwrSt) : (s.onPwr f).retRec = s.retRec := rfl
@[simp] theorem State.onPwr_stamps (s : State) (f : PwrSt → PwrSt) : (s.onPwr f).stamps = s.stamps := rfl
@[simp] theorem State.onPwr_time (s : State) (f : PwrSt → PwrSt) : (s.onPwr f).time = s.time := rfl
@[simp] theorem State.onPwr_flt (s : State) (f : PwrSt → PwrSt) : (s.onPwr f).flt = s.flt := rfl
@[simp] theorem State.onPwr_log (s : State) (f : PwrSt → PwrSt) : (s.onPwr f).log = s.log := rfl
@[simp] theorem State.onPwr_mram (s : State) (f : PwrSt → PwrSt) : (s.onPwr f).mram = s.mram := rfl
@[simp] theorem State.onPwr_sched (s : State) (f : PwrSt → PwrSt) : (s.onPwr f).sched = s.sched := rfl
@[simp] theorem State.onPwr_hif (s : State) (f : PwrSt → PwrSt) : (s.onPwr f).hif = s.hif := rfl
@[simp] theorem State.onPwr_locks (s : State) (f : PwrSt → PwrSt) : (s.onPwr f).locks = s.locks := rfl
@[simp] theorem State.onPwr_nss (s : State) (f : PwrSt → PwrSt) : (s.onPwr f).nss = s.nss := rfl
@[simp] theorem State.onPwr_zones (s : State) (f : PwrSt → PwrSt) : (s.onPwr f).zones = s.zones := rfl
@[simp] theorem State.onPwr_map (s : State) (f : PwrSt → PwrSt) : (s.onPwr f).map = s.map := rfl
@[simp] theorem State.onPwr_lnd (s : State) (f : PwrSt → PwrSt) : (s.onPwr f).lnd = s.lnd := rfl
@[simp] theorem State.onPwr_jnl (s : State) (f : PwrSt → PwrSt) : (s.onPwr f).jnl = s.jnl := rfl
@[simp] theorem State.onPwr_pwr (s : State) (f : PwrSt → PwrSt) : (s.onPwr f).pwr = f s.pwr := rfl
@[simp] theorem State.onPwr_lvl (s : State) (f : PwrSt → PwrSt) : (s.onPwr f).lvl = s.lvl := rfl
@[simp] theorem State.onPwr_prg (s : State) (f : PwrSt → PwrSt) : (s.onPwr f).prg = s.prg := rfl
@[simp] theorem State.onPwr_gov (s : State) (f : PwrSt → PwrSt) : (s.onPwr f).gov = s.gov := rfl
@[simp] theorem State.onPwr_med (s : State) (f : PwrSt → PwrSt) : (s.onPwr f).med = s.med := rfl
@[simp] theorem State.onPwr_sec (s : State) (f : PwrSt → PwrSt) : (s.onPwr f).sec = s.sec := rfl
@[simp] theorem State.onPwr_memp (s : State) (f : PwrSt → PwrSt) : (s.onPwr f).memp = s.memp := rfl
@[simp] theorem State.onPwr_dram (s : State) (f : PwrSt → PwrSt) : (s.onPwr f).dram = s.dram := rfl
@[simp] theorem State.onLvl_pending (s : State) (f : LvlSt → LvlSt) : (s.onLvl f).pending = s.pending := rfl
@[simp] theorem State.onLvl_outbox (s : State) (f : LvlSt → LvlSt) : (s.onLvl f).outbox = s.outbox := rfl
@[simp] theorem State.onLvl_free (s : State) (f : LvlSt → LvlSt) : (s.onLvl f).free = s.free := rfl
@[simp] theorem State.onLvl_drbg (s : State) (f : LvlSt → LvlSt) : (s.onLvl f).drbg = s.drbg := rfl
@[simp] theorem State.onLvl_fields (s : State) (f : LvlSt → LvlSt) : (s.onLvl f).fields = s.fields := rfl
@[simp] theorem State.onLvl_eff2 (s : State) (f : LvlSt → LvlSt) : (s.onLvl f).eff2 = s.eff2 := rfl
@[simp] theorem State.onLvl_eff4 (s : State) (f : LvlSt → LvlSt) : (s.onLvl f).eff4 = s.eff4 := rfl
@[simp] theorem State.onLvl_hiLatch (s : State) (f : LvlSt → LvlSt) : (s.onLvl f).hiLatch = s.hiLatch := rfl
@[simp] theorem State.onLvl_units (s : State) (f : LvlSt → LvlSt) : (s.onLvl f).units = s.units := rfl
@[simp] theorem State.onLvl_retRec (s : State) (f : LvlSt → LvlSt) : (s.onLvl f).retRec = s.retRec := rfl
@[simp] theorem State.onLvl_stamps (s : State) (f : LvlSt → LvlSt) : (s.onLvl f).stamps = s.stamps := rfl
@[simp] theorem State.onLvl_time (s : State) (f : LvlSt → LvlSt) : (s.onLvl f).time = s.time := rfl
@[simp] theorem State.onLvl_flt (s : State) (f : LvlSt → LvlSt) : (s.onLvl f).flt = s.flt := rfl
@[simp] theorem State.onLvl_log (s : State) (f : LvlSt → LvlSt) : (s.onLvl f).log = s.log := rfl
@[simp] theorem State.onLvl_mram (s : State) (f : LvlSt → LvlSt) : (s.onLvl f).mram = s.mram := rfl
@[simp] theorem State.onLvl_sched (s : State) (f : LvlSt → LvlSt) : (s.onLvl f).sched = s.sched := rfl
@[simp] theorem State.onLvl_hif (s : State) (f : LvlSt → LvlSt) : (s.onLvl f).hif = s.hif := rfl
@[simp] theorem State.onLvl_locks (s : State) (f : LvlSt → LvlSt) : (s.onLvl f).locks = s.locks := rfl
@[simp] theorem State.onLvl_nss (s : State) (f : LvlSt → LvlSt) : (s.onLvl f).nss = s.nss := rfl
@[simp] theorem State.onLvl_zones (s : State) (f : LvlSt → LvlSt) : (s.onLvl f).zones = s.zones := rfl
@[simp] theorem State.onLvl_map (s : State) (f : LvlSt → LvlSt) : (s.onLvl f).map = s.map := rfl
@[simp] theorem State.onLvl_lnd (s : State) (f : LvlSt → LvlSt) : (s.onLvl f).lnd = s.lnd := rfl
@[simp] theorem State.onLvl_jnl (s : State) (f : LvlSt → LvlSt) : (s.onLvl f).jnl = s.jnl := rfl
@[simp] theorem State.onLvl_pwr (s : State) (f : LvlSt → LvlSt) : (s.onLvl f).pwr = s.pwr := rfl
@[simp] theorem State.onLvl_lvl (s : State) (f : LvlSt → LvlSt) : (s.onLvl f).lvl = f s.lvl := rfl
@[simp] theorem State.onLvl_prg (s : State) (f : LvlSt → LvlSt) : (s.onLvl f).prg = s.prg := rfl
@[simp] theorem State.onLvl_gov (s : State) (f : LvlSt → LvlSt) : (s.onLvl f).gov = s.gov := rfl
@[simp] theorem State.onLvl_med (s : State) (f : LvlSt → LvlSt) : (s.onLvl f).med = s.med := rfl
@[simp] theorem State.onLvl_sec (s : State) (f : LvlSt → LvlSt) : (s.onLvl f).sec = s.sec := rfl
@[simp] theorem State.onLvl_memp (s : State) (f : LvlSt → LvlSt) : (s.onLvl f).memp = s.memp := rfl
@[simp] theorem State.onLvl_dram (s : State) (f : LvlSt → LvlSt) : (s.onLvl f).dram = s.dram := rfl
@[simp] theorem State.onPrg_pending (s : State) (f : PrgSt → PrgSt) : (s.onPrg f).pending = s.pending := rfl
@[simp] theorem State.onPrg_outbox (s : State) (f : PrgSt → PrgSt) : (s.onPrg f).outbox = s.outbox := rfl
@[simp] theorem State.onPrg_free (s : State) (f : PrgSt → PrgSt) : (s.onPrg f).free = s.free := rfl
@[simp] theorem State.onPrg_drbg (s : State) (f : PrgSt → PrgSt) : (s.onPrg f).drbg = s.drbg := rfl
@[simp] theorem State.onPrg_fields (s : State) (f : PrgSt → PrgSt) : (s.onPrg f).fields = s.fields := rfl
@[simp] theorem State.onPrg_eff2 (s : State) (f : PrgSt → PrgSt) : (s.onPrg f).eff2 = s.eff2 := rfl
@[simp] theorem State.onPrg_eff4 (s : State) (f : PrgSt → PrgSt) : (s.onPrg f).eff4 = s.eff4 := rfl
@[simp] theorem State.onPrg_hiLatch (s : State) (f : PrgSt → PrgSt) : (s.onPrg f).hiLatch = s.hiLatch := rfl
@[simp] theorem State.onPrg_units (s : State) (f : PrgSt → PrgSt) : (s.onPrg f).units = s.units := rfl
@[simp] theorem State.onPrg_retRec (s : State) (f : PrgSt → PrgSt) : (s.onPrg f).retRec = s.retRec := rfl
@[simp] theorem State.onPrg_stamps (s : State) (f : PrgSt → PrgSt) : (s.onPrg f).stamps = s.stamps := rfl
@[simp] theorem State.onPrg_time (s : State) (f : PrgSt → PrgSt) : (s.onPrg f).time = s.time := rfl
@[simp] theorem State.onPrg_flt (s : State) (f : PrgSt → PrgSt) : (s.onPrg f).flt = s.flt := rfl
@[simp] theorem State.onPrg_log (s : State) (f : PrgSt → PrgSt) : (s.onPrg f).log = s.log := rfl
@[simp] theorem State.onPrg_mram (s : State) (f : PrgSt → PrgSt) : (s.onPrg f).mram = s.mram := rfl
@[simp] theorem State.onPrg_sched (s : State) (f : PrgSt → PrgSt) : (s.onPrg f).sched = s.sched := rfl
@[simp] theorem State.onPrg_hif (s : State) (f : PrgSt → PrgSt) : (s.onPrg f).hif = s.hif := rfl
@[simp] theorem State.onPrg_locks (s : State) (f : PrgSt → PrgSt) : (s.onPrg f).locks = s.locks := rfl
@[simp] theorem State.onPrg_nss (s : State) (f : PrgSt → PrgSt) : (s.onPrg f).nss = s.nss := rfl
@[simp] theorem State.onPrg_zones (s : State) (f : PrgSt → PrgSt) : (s.onPrg f).zones = s.zones := rfl
@[simp] theorem State.onPrg_map (s : State) (f : PrgSt → PrgSt) : (s.onPrg f).map = s.map := rfl
@[simp] theorem State.onPrg_lnd (s : State) (f : PrgSt → PrgSt) : (s.onPrg f).lnd = s.lnd := rfl
@[simp] theorem State.onPrg_jnl (s : State) (f : PrgSt → PrgSt) : (s.onPrg f).jnl = s.jnl := rfl
@[simp] theorem State.onPrg_pwr (s : State) (f : PrgSt → PrgSt) : (s.onPrg f).pwr = s.pwr := rfl
@[simp] theorem State.onPrg_lvl (s : State) (f : PrgSt → PrgSt) : (s.onPrg f).lvl = s.lvl := rfl
@[simp] theorem State.onPrg_prg (s : State) (f : PrgSt → PrgSt) : (s.onPrg f).prg = f s.prg := rfl
@[simp] theorem State.onPrg_gov (s : State) (f : PrgSt → PrgSt) : (s.onPrg f).gov = s.gov := rfl
@[simp] theorem State.onPrg_med (s : State) (f : PrgSt → PrgSt) : (s.onPrg f).med = s.med := rfl
@[simp] theorem State.onPrg_sec (s : State) (f : PrgSt → PrgSt) : (s.onPrg f).sec = s.sec := rfl
@[simp] theorem State.onPrg_memp (s : State) (f : PrgSt → PrgSt) : (s.onPrg f).memp = s.memp := rfl
@[simp] theorem State.onPrg_dram (s : State) (f : PrgSt → PrgSt) : (s.onPrg f).dram = s.dram := rfl
@[simp] theorem State.onGov_pending (s : State) (f : GovSt → GovSt) : (s.onGov f).pending = s.pending := rfl
@[simp] theorem State.onGov_outbox (s : State) (f : GovSt → GovSt) : (s.onGov f).outbox = s.outbox := rfl
@[simp] theorem State.onGov_free (s : State) (f : GovSt → GovSt) : (s.onGov f).free = s.free := rfl
@[simp] theorem State.onGov_drbg (s : State) (f : GovSt → GovSt) : (s.onGov f).drbg = s.drbg := rfl
@[simp] theorem State.onGov_fields (s : State) (f : GovSt → GovSt) : (s.onGov f).fields = s.fields := rfl
@[simp] theorem State.onGov_eff2 (s : State) (f : GovSt → GovSt) : (s.onGov f).eff2 = s.eff2 := rfl
@[simp] theorem State.onGov_eff4 (s : State) (f : GovSt → GovSt) : (s.onGov f).eff4 = s.eff4 := rfl
@[simp] theorem State.onGov_hiLatch (s : State) (f : GovSt → GovSt) : (s.onGov f).hiLatch = s.hiLatch := rfl
@[simp] theorem State.onGov_units (s : State) (f : GovSt → GovSt) : (s.onGov f).units = s.units := rfl
@[simp] theorem State.onGov_retRec (s : State) (f : GovSt → GovSt) : (s.onGov f).retRec = s.retRec := rfl
@[simp] theorem State.onGov_stamps (s : State) (f : GovSt → GovSt) : (s.onGov f).stamps = s.stamps := rfl
@[simp] theorem State.onGov_time (s : State) (f : GovSt → GovSt) : (s.onGov f).time = s.time := rfl
@[simp] theorem State.onGov_flt (s : State) (f : GovSt → GovSt) : (s.onGov f).flt = s.flt := rfl
@[simp] theorem State.onGov_log (s : State) (f : GovSt → GovSt) : (s.onGov f).log = s.log := rfl
@[simp] theorem State.onGov_mram (s : State) (f : GovSt → GovSt) : (s.onGov f).mram = s.mram := rfl
@[simp] theorem State.onGov_sched (s : State) (f : GovSt → GovSt) : (s.onGov f).sched = s.sched := rfl
@[simp] theorem State.onGov_hif (s : State) (f : GovSt → GovSt) : (s.onGov f).hif = s.hif := rfl
@[simp] theorem State.onGov_locks (s : State) (f : GovSt → GovSt) : (s.onGov f).locks = s.locks := rfl
@[simp] theorem State.onGov_nss (s : State) (f : GovSt → GovSt) : (s.onGov f).nss = s.nss := rfl
@[simp] theorem State.onGov_zones (s : State) (f : GovSt → GovSt) : (s.onGov f).zones = s.zones := rfl
@[simp] theorem State.onGov_map (s : State) (f : GovSt → GovSt) : (s.onGov f).map = s.map := rfl
@[simp] theorem State.onGov_lnd (s : State) (f : GovSt → GovSt) : (s.onGov f).lnd = s.lnd := rfl
@[simp] theorem State.onGov_jnl (s : State) (f : GovSt → GovSt) : (s.onGov f).jnl = s.jnl := rfl
@[simp] theorem State.onGov_pwr (s : State) (f : GovSt → GovSt) : (s.onGov f).pwr = s.pwr := rfl
@[simp] theorem State.onGov_lvl (s : State) (f : GovSt → GovSt) : (s.onGov f).lvl = s.lvl := rfl
@[simp] theorem State.onGov_prg (s : State) (f : GovSt → GovSt) : (s.onGov f).prg = s.prg := rfl
@[simp] theorem State.onGov_gov (s : State) (f : GovSt → GovSt) : (s.onGov f).gov = f s.gov := rfl
@[simp] theorem State.onGov_med (s : State) (f : GovSt → GovSt) : (s.onGov f).med = s.med := rfl
@[simp] theorem State.onGov_sec (s : State) (f : GovSt → GovSt) : (s.onGov f).sec = s.sec := rfl
@[simp] theorem State.onGov_memp (s : State) (f : GovSt → GovSt) : (s.onGov f).memp = s.memp := rfl
@[simp] theorem State.onGov_dram (s : State) (f : GovSt → GovSt) : (s.onGov f).dram = s.dram := rfl
@[simp] theorem State.onMed_pending (s : State) (f : MedSt → MedSt) : (s.onMed f).pending = s.pending := rfl
@[simp] theorem State.onMed_outbox (s : State) (f : MedSt → MedSt) : (s.onMed f).outbox = s.outbox := rfl
@[simp] theorem State.onMed_free (s : State) (f : MedSt → MedSt) : (s.onMed f).free = s.free := rfl
@[simp] theorem State.onMed_drbg (s : State) (f : MedSt → MedSt) : (s.onMed f).drbg = s.drbg := rfl
@[simp] theorem State.onMed_fields (s : State) (f : MedSt → MedSt) : (s.onMed f).fields = s.fields := rfl
@[simp] theorem State.onMed_eff2 (s : State) (f : MedSt → MedSt) : (s.onMed f).eff2 = s.eff2 := rfl
@[simp] theorem State.onMed_eff4 (s : State) (f : MedSt → MedSt) : (s.onMed f).eff4 = s.eff4 := rfl
@[simp] theorem State.onMed_hiLatch (s : State) (f : MedSt → MedSt) : (s.onMed f).hiLatch = s.hiLatch := rfl
@[simp] theorem State.onMed_units (s : State) (f : MedSt → MedSt) : (s.onMed f).units = s.units := rfl
@[simp] theorem State.onMed_retRec (s : State) (f : MedSt → MedSt) : (s.onMed f).retRec = s.retRec := rfl
@[simp] theorem State.onMed_stamps (s : State) (f : MedSt → MedSt) : (s.onMed f).stamps = s.stamps := rfl
@[simp] theorem State.onMed_time (s : State) (f : MedSt → MedSt) : (s.onMed f).time = s.time := rfl
@[simp] theorem State.onMed_flt (s : State) (f : MedSt → MedSt) : (s.onMed f).flt = s.flt := rfl
@[simp] theorem State.onMed_log (s : State) (f : MedSt → MedSt) : (s.onMed f).log = s.log := rfl
@[simp] theorem State.onMed_mram (s : State) (f : MedSt → MedSt) : (s.onMed f).mram = s.mram := rfl
@[simp] theorem State.onMed_sched (s : State) (f : MedSt → MedSt) : (s.onMed f).sched = s.sched := rfl
@[simp] theorem State.onMed_hif (s : State) (f : MedSt → MedSt) : (s.onMed f).hif = s.hif := rfl
@[simp] theorem State.onMed_locks (s : State) (f : MedSt → MedSt) : (s.onMed f).locks = s.locks := rfl
@[simp] theorem State.onMed_nss (s : State) (f : MedSt → MedSt) : (s.onMed f).nss = s.nss := rfl
@[simp] theorem State.onMed_zones (s : State) (f : MedSt → MedSt) : (s.onMed f).zones = s.zones := rfl
@[simp] theorem State.onMed_map (s : State) (f : MedSt → MedSt) : (s.onMed f).map = s.map := rfl
@[simp] theorem State.onMed_lnd (s : State) (f : MedSt → MedSt) : (s.onMed f).lnd = s.lnd := rfl
@[simp] theorem State.onMed_jnl (s : State) (f : MedSt → MedSt) : (s.onMed f).jnl = s.jnl := rfl
@[simp] theorem State.onMed_pwr (s : State) (f : MedSt → MedSt) : (s.onMed f).pwr = s.pwr := rfl
@[simp] theorem State.onMed_lvl (s : State) (f : MedSt → MedSt) : (s.onMed f).lvl = s.lvl := rfl
@[simp] theorem State.onMed_prg (s : State) (f : MedSt → MedSt) : (s.onMed f).prg = s.prg := rfl
@[simp] theorem State.onMed_gov (s : State) (f : MedSt → MedSt) : (s.onMed f).gov = s.gov := rfl
@[simp] theorem State.onMed_med (s : State) (f : MedSt → MedSt) : (s.onMed f).med = f s.med := rfl
@[simp] theorem State.onMed_sec (s : State) (f : MedSt → MedSt) : (s.onMed f).sec = s.sec := rfl
@[simp] theorem State.onMed_memp (s : State) (f : MedSt → MedSt) : (s.onMed f).memp = s.memp := rfl
@[simp] theorem State.onMed_dram (s : State) (f : MedSt → MedSt) : (s.onMed f).dram = s.dram := rfl
@[simp] theorem State.onSec_pending (s : State) (f : SecSt → SecSt) : (s.onSec f).pending = s.pending := rfl
@[simp] theorem State.onSec_outbox (s : State) (f : SecSt → SecSt) : (s.onSec f).outbox = s.outbox := rfl
@[simp] theorem State.onSec_free (s : State) (f : SecSt → SecSt) : (s.onSec f).free = s.free := rfl
@[simp] theorem State.onSec_drbg (s : State) (f : SecSt → SecSt) : (s.onSec f).drbg = s.drbg := rfl
@[simp] theorem State.onSec_fields (s : State) (f : SecSt → SecSt) : (s.onSec f).fields = s.fields := rfl
@[simp] theorem State.onSec_eff2 (s : State) (f : SecSt → SecSt) : (s.onSec f).eff2 = s.eff2 := rfl
@[simp] theorem State.onSec_eff4 (s : State) (f : SecSt → SecSt) : (s.onSec f).eff4 = s.eff4 := rfl
@[simp] theorem State.onSec_hiLatch (s : State) (f : SecSt → SecSt) : (s.onSec f).hiLatch = s.hiLatch := rfl
@[simp] theorem State.onSec_units (s : State) (f : SecSt → SecSt) : (s.onSec f).units = s.units := rfl
@[simp] theorem State.onSec_retRec (s : State) (f : SecSt → SecSt) : (s.onSec f).retRec = s.retRec := rfl
@[simp] theorem State.onSec_stamps (s : State) (f : SecSt → SecSt) : (s.onSec f).stamps = s.stamps := rfl
@[simp] theorem State.onSec_time (s : State) (f : SecSt → SecSt) : (s.onSec f).time = s.time := rfl
@[simp] theorem State.onSec_flt (s : State) (f : SecSt → SecSt) : (s.onSec f).flt = s.flt := rfl
@[simp] theorem State.onSec_log (s : State) (f : SecSt → SecSt) : (s.onSec f).log = s.log := rfl
@[simp] theorem State.onSec_mram (s : State) (f : SecSt → SecSt) : (s.onSec f).mram = s.mram := rfl
@[simp] theorem State.onSec_sched (s : State) (f : SecSt → SecSt) : (s.onSec f).sched = s.sched := rfl
@[simp] theorem State.onSec_hif (s : State) (f : SecSt → SecSt) : (s.onSec f).hif = s.hif := rfl
@[simp] theorem State.onSec_locks (s : State) (f : SecSt → SecSt) : (s.onSec f).locks = s.locks := rfl
@[simp] theorem State.onSec_nss (s : State) (f : SecSt → SecSt) : (s.onSec f).nss = s.nss := rfl
@[simp] theorem State.onSec_zones (s : State) (f : SecSt → SecSt) : (s.onSec f).zones = s.zones := rfl
@[simp] theorem State.onSec_map (s : State) (f : SecSt → SecSt) : (s.onSec f).map = s.map := rfl
@[simp] theorem State.onSec_lnd (s : State) (f : SecSt → SecSt) : (s.onSec f).lnd = s.lnd := rfl
@[simp] theorem State.onSec_jnl (s : State) (f : SecSt → SecSt) : (s.onSec f).jnl = s.jnl := rfl
@[simp] theorem State.onSec_pwr (s : State) (f : SecSt → SecSt) : (s.onSec f).pwr = s.pwr := rfl
@[simp] theorem State.onSec_lvl (s : State) (f : SecSt → SecSt) : (s.onSec f).lvl = s.lvl := rfl
@[simp] theorem State.onSec_prg (s : State) (f : SecSt → SecSt) : (s.onSec f).prg = s.prg := rfl
@[simp] theorem State.onSec_gov (s : State) (f : SecSt → SecSt) : (s.onSec f).gov = s.gov := rfl
@[simp] theorem State.onSec_med (s : State) (f : SecSt → SecSt) : (s.onSec f).med = s.med := rfl
@[simp] theorem State.onSec_sec (s : State) (f : SecSt → SecSt) : (s.onSec f).sec = f s.sec := rfl
@[simp] theorem State.onSec_memp (s : State) (f : SecSt → SecSt) : (s.onSec f).memp = s.memp := rfl
@[simp] theorem State.onSec_dram (s : State) (f : SecSt → SecSt) : (s.onSec f).dram = s.dram := rfl
@[simp] theorem State.onMemp_pending (s : State) (f : MempSt → MempSt) : (s.onMemp f).pending = s.pending := rfl
@[simp] theorem State.onMemp_outbox (s : State) (f : MempSt → MempSt) : (s.onMemp f).outbox = s.outbox := rfl
@[simp] theorem State.onMemp_free (s : State) (f : MempSt → MempSt) : (s.onMemp f).free = s.free := rfl
@[simp] theorem State.onMemp_drbg (s : State) (f : MempSt → MempSt) : (s.onMemp f).drbg = s.drbg := rfl
@[simp] theorem State.onMemp_fields (s : State) (f : MempSt → MempSt) : (s.onMemp f).fields = s.fields := rfl
@[simp] theorem State.onMemp_eff2 (s : State) (f : MempSt → MempSt) : (s.onMemp f).eff2 = s.eff2 := rfl
@[simp] theorem State.onMemp_eff4 (s : State) (f : MempSt → MempSt) : (s.onMemp f).eff4 = s.eff4 := rfl
@[simp] theorem State.onMemp_hiLatch (s : State) (f : MempSt → MempSt) : (s.onMemp f).hiLatch = s.hiLatch := rfl
@[simp] theorem State.onMemp_units (s : State) (f : MempSt → MempSt) : (s.onMemp f).units = s.units := rfl
@[simp] theorem State.onMemp_retRec (s : State) (f : MempSt → MempSt) : (s.onMemp f).retRec = s.retRec := rfl
@[simp] theorem State.onMemp_stamps (s : State) (f : MempSt → MempSt) : (s.onMemp f).stamps = s.stamps := rfl
@[simp] theorem State.onMemp_time (s : State) (f : MempSt → MempSt) : (s.onMemp f).time = s.time := rfl
@[simp] theorem State.onMemp_flt (s : State) (f : MempSt → MempSt) : (s.onMemp f).flt = s.flt := rfl
@[simp] theorem State.onMemp_log (s : State) (f : MempSt → MempSt) : (s.onMemp f).log = s.log := rfl
@[simp] theorem State.onMemp_mram (s : State) (f : MempSt → MempSt) : (s.onMemp f).mram = s.mram := rfl
@[simp] theorem State.onMemp_sched (s : State) (f : MempSt → MempSt) : (s.onMemp f).sched = s.sched := rfl
@[simp] theorem State.onMemp_hif (s : State) (f : MempSt → MempSt) : (s.onMemp f).hif = s.hif := rfl
@[simp] theorem State.onMemp_locks (s : State) (f : MempSt → MempSt) : (s.onMemp f).locks = s.locks := rfl
@[simp] theorem State.onMemp_nss (s : State) (f : MempSt → MempSt) : (s.onMemp f).nss = s.nss := rfl
@[simp] theorem State.onMemp_zones (s : State) (f : MempSt → MempSt) : (s.onMemp f).zones = s.zones := rfl
@[simp] theorem State.onMemp_map (s : State) (f : MempSt → MempSt) : (s.onMemp f).map = s.map := rfl
@[simp] theorem State.onMemp_lnd (s : State) (f : MempSt → MempSt) : (s.onMemp f).lnd = s.lnd := rfl
@[simp] theorem State.onMemp_jnl (s : State) (f : MempSt → MempSt) : (s.onMemp f).jnl = s.jnl := rfl
@[simp] theorem State.onMemp_pwr (s : State) (f : MempSt → MempSt) : (s.onMemp f).pwr = s.pwr := rfl
@[simp] theorem State.onMemp_lvl (s : State) (f : MempSt → MempSt) : (s.onMemp f).lvl = s.lvl := rfl
@[simp] theorem State.onMemp_prg (s : State) (f : MempSt → MempSt) : (s.onMemp f).prg = s.prg := rfl
@[simp] theorem State.onMemp_gov (s : State) (f : MempSt → MempSt) : (s.onMemp f).gov = s.gov := rfl
@[simp] theorem State.onMemp_med (s : State) (f : MempSt → MempSt) : (s.onMemp f).med = s.med := rfl
@[simp] theorem State.onMemp_sec (s : State) (f : MempSt → MempSt) : (s.onMemp f).sec = s.sec := rfl
@[simp] theorem State.onMemp_memp (s : State) (f : MempSt → MempSt) : (s.onMemp f).memp = f s.memp := rfl
@[simp] theorem State.onMemp_dram (s : State) (f : MempSt → MempSt) : (s.onMemp f).dram = s.dram := rfl
@[simp] theorem State.onDram_pending (s : State) (f : DramSt → DramSt) : (s.onDram f).pending = s.pending := rfl
@[simp] theorem State.onDram_outbox (s : State) (f : DramSt → DramSt) : (s.onDram f).outbox = s.outbox := rfl
@[simp] theorem State.onDram_free (s : State) (f : DramSt → DramSt) : (s.onDram f).free = s.free := rfl
@[simp] theorem State.onDram_drbg (s : State) (f : DramSt → DramSt) : (s.onDram f).drbg = s.drbg := rfl
@[simp] theorem State.onDram_fields (s : State) (f : DramSt → DramSt) : (s.onDram f).fields = s.fields := rfl
@[simp] theorem State.onDram_eff2 (s : State) (f : DramSt → DramSt) : (s.onDram f).eff2 = s.eff2 := rfl
@[simp] theorem State.onDram_eff4 (s : State) (f : DramSt → DramSt) : (s.onDram f).eff4 = s.eff4 := rfl
@[simp] theorem State.onDram_hiLatch (s : State) (f : DramSt → DramSt) : (s.onDram f).hiLatch = s.hiLatch := rfl
@[simp] theorem State.onDram_units (s : State) (f : DramSt → DramSt) : (s.onDram f).units = s.units := rfl
@[simp] theorem State.onDram_retRec (s : State) (f : DramSt → DramSt) : (s.onDram f).retRec = s.retRec := rfl
@[simp] theorem State.onDram_stamps (s : State) (f : DramSt → DramSt) : (s.onDram f).stamps = s.stamps := rfl
@[simp] theorem State.onDram_time (s : State) (f : DramSt → DramSt) : (s.onDram f).time = s.time := rfl
@[simp] theorem State.onDram_flt (s : State) (f : DramSt → DramSt) : (s.onDram f).flt = s.flt := rfl
@[simp] theorem State.onDram_log (s : State) (f : DramSt → DramSt) : (s.onDram f).log = s.log := rfl
@[simp] theorem State.onDram_mram (s : State) (f : DramSt → DramSt) : (s.onDram f).mram = s.mram := rfl
@[simp] theorem State.onDram_sched (s : State) (f : DramSt → DramSt) : (s.onDram f).sched = s.sched := rfl
@[simp] theorem State.onDram_hif (s : State) (f : DramSt → DramSt) : (s.onDram f).hif = s.hif := rfl
@[simp] theorem State.onDram_locks (s : State) (f : DramSt → DramSt) : (s.onDram f).locks = s.locks := rfl
@[simp] theorem State.onDram_nss (s : State) (f : DramSt → DramSt) : (s.onDram f).nss = s.nss := rfl
@[simp] theorem State.onDram_zones (s : State) (f : DramSt → DramSt) : (s.onDram f).zones = s.zones := rfl
@[simp] theorem State.onDram_map (s : State) (f : DramSt → DramSt) : (s.onDram f).map = s.map := rfl
@[simp] theorem State.onDram_lnd (s : State) (f : DramSt → DramSt) : (s.onDram f).lnd = s.lnd := rfl
@[simp] theorem State.onDram_jnl (s : State) (f : DramSt → DramSt) : (s.onDram f).jnl = s.jnl := rfl
@[simp] theorem State.onDram_pwr (s : State) (f : DramSt → DramSt) : (s.onDram f).pwr = s.pwr := rfl
@[simp] theorem State.onDram_lvl (s : State) (f : DramSt → DramSt) : (s.onDram f).lvl = s.lvl := rfl
@[simp] theorem State.onDram_prg (s : State) (f : DramSt → DramSt) : (s.onDram f).prg = s.prg := rfl
@[simp] theorem State.onDram_gov (s : State) (f : DramSt → DramSt) : (s.onDram f).gov = s.gov := rfl
@[simp] theorem State.onDram_med (s : State) (f : DramSt → DramSt) : (s.onDram f).med = s.med := rfl
@[simp] theorem State.onDram_sec (s : State) (f : DramSt → DramSt) : (s.onDram f).sec = s.sec := rfl
@[simp] theorem State.onDram_memp (s : State) (f : DramSt → DramSt) : (s.onDram f).memp = s.memp := rfl
@[simp] theorem State.onDram_dram (s : State) (f : DramSt → DramSt) : (s.onDram f).dram = f s.dram := rfl

end Sys2Proof.Machine
end

