-- ==== Sys2Proof/Laws/Ops.lean ====
section
/-! SUPPORT. What each shared operation does to the state, said once: the parts it can change, and the value it gives
the part it is for. -/
namespace Sys2Proof.Machine

/-! ### Register fields -/

@[simp] theorem getF_setF_same (s : State) (f : Fld) (v u : Nat) : (s.setF f v u).getF f u = v % 2 ^ f.width := by
  simp [State.getF, State.setF]

/-- A field at another key reads as before. -/
theorem getF_setF_ne (s : State) (f g : Fld) (v u w : Nat) (h : fkey g w ≠ fkey f u) : (s.setF f v u).getF g w = s.getF g w := by
  have hf : ((s.fields.set f.reset (fkey f u) (v % 2 ^ f.width)).find (fkey g w)) = s.fields.find (fkey g w) := by
    unfold SMap.set
    split <;> simp [h]
  simp only [State.getF, State.setF, State.onFields_fields, SMap.get, hf]

/-- Setting a field changes the register fields alone. -/
theorem setF_frame (s : State) (f : Fld) (v u : Nat) : { s.setF f v u with fields := s.fields } = s := rfl

/-- Raising an event flag changes the register fields alone. -/
theorem raiseEvt_frame (s : State) (f cnt : Fld) (u : Nat) : { s.raiseEvt f cnt u with fields := s.fields } = s := rfl

/-! ### Units and faults -/

@[simp] theorem unit_onUnit_same (s : State) (a : Nat) (f : UnitSt → UnitSt) : (s.onUnit a f).unit a = f (s.unit a) := by
  simp [State.unit, State.onUnit]

theorem unit_onUnit_ne (s : State) (a b : Nat) (f : UnitSt → UnitSt) (h : b ≠ a) : (s.onUnit a f).unit b = s.unit b := by
  simp [State.unit, State.onUnit, SMap.get_upd_ne _ _ _ h]

/-- A fault event changes stamps, the collector and what is sent, and nothing else. -/
theorem raiseFault_frame (s : State) (code unit detail fsn : Nat) :
    { s.raiseFault code unit detail fsn with stamps := s.stamps, flt := s.flt, outbox := s.outbox } = s := by
  unfold State.raiseFault
  dsimp only
  split <;> rfl

/-- The event of a fault joins the collector's queue with the stamp of its unit. -/
theorem raiseFault_queue (s : State) (code unit detail fsn : Nat) :
    (s.raiseFault code unit detail fsn).flt.queue =
      s.flt.queue ++ [{ stamp := s.stampNow unit, unit := unit, code := code, detail := detail, fsn := fsn }] := by
  unfold State.raiseFault
  dsimp only
  split <;> rfl

@[simp] theorem raiseFault_units (s : State) (c u d f : Nat) : (s.raiseFault c u d f).units = s.units :=
  (congrArg State.units (raiseFault_frame s c u d f) :)

@[simp] theorem raiseFault_unit (s : State) (c u d f a : Nat) : (s.raiseFault c u d f).unit a = s.unit a := by
  simp [State.unit]

@[simp] theorem raiseFault_fields (s : State) (c u d f : Nat) : (s.raiseFault c u d f).fields = s.fields :=
  (congrArg State.fields (raiseFault_frame s c u d f) :)

@[simp] theorem raiseFault_prg (s : State) (c u d f : Nat) : (s.raiseFault c u d f).prg = s.prg :=
  (congrArg State.prg (raiseFault_frame s c u d f) :)

@[simp] theorem raiseFault_hif (s : State) (c u d f : Nat) : (s.raiseFault c u d f).hif = s.hif :=
  (congrArg State.hif (raiseFault_frame s c u d f) :)

@[simp] theorem raiseFault_med (s : State) (c u d f : Nat) : (s.raiseFault c u d f).med = s.med :=
  (congrArg State.med (raiseFault_frame s c u d f) :)

@[simp] theorem raiseFault_retRec (s : State) (c u d f : Nat) : (s.raiseFault c u d f).retRec = s.retRec :=
  (congrArg State.retRec (raiseFault_frame s c u d f) :)

/-! ### Completions -/

/-- Counting a late read changes register fields alone. -/
theorem countMiss_frame (s : State) (c : Cmd) : { s.countMiss c with fields := s.fields } = s := by
  unfold State.countMiss
  repeat' first
    | rfl
    | split

theorem countMiss_pending (s : State) (c : Cmd) : (s.countMiss c).pending = s.pending := (congrArg State.pending (countMiss_frame s c) :)
theorem countMiss_outbox (s : State) (c : Cmd) : (s.countMiss c).outbox = s.outbox := (congrArg State.outbox (countMiss_frame s c) :)
theorem countMiss_free (s : State) (c : Cmd) : (s.countMiss c).free = s.free := (congrArg State.free (countMiss_frame s c) :)
theorem countMiss_drbg (s : State) (c : Cmd) : (s.countMiss c).drbg = s.drbg := (congrArg State.drbg (countMiss_frame s c) :)
theorem countMiss_eff2 (s : State) (c : Cmd) : (s.countMiss c).eff2 = s.eff2 := (congrArg State.eff2 (countMiss_frame s c) :)
theorem countMiss_eff4 (s : State) (c : Cmd) : (s.countMiss c).eff4 = s.eff4 := (congrArg State.eff4 (countMiss_frame s c) :)
theorem countMiss_hiLatch (s : State) (c : Cmd) : (s.countMiss c).hiLatch = s.hiLatch := (congrArg State.hiLatch (countMiss_frame s c) :)
theorem countMiss_units (s : State) (c : Cmd) : (s.countMiss c).units = s.units := (congrArg State.units (countMiss_frame s c) :)
theorem countMiss_retRec (s : State) (c : Cmd) : (s.countMiss c).retRec = s.retRec := (congrArg State.retRec (countMiss_frame s c) :)
theorem countMiss_stamps (s : State) (c : Cmd) : (s.countMiss c).stamps = s.stamps := (congrArg State.stamps (countMiss_frame s c) :)
theorem countMiss_time (s : State) (c : Cmd) : (s.countMiss c).time = s.time := (congrArg State.time (countMiss_frame s c) :)
theorem countMiss_flt (s : State) (c : Cmd) : (s.countMiss c).flt = s.flt := (congrArg State.flt (countMiss_frame s c) :)
theorem countMiss_log (s : State) (c : Cmd) : (s.countMiss c).log = s.log := (congrArg State.log (countMiss_frame s c) :)
theorem countMiss_mram (s : State) (c : Cmd) : (s.countMiss c).mram = s.mram := (congrArg State.mram (countMiss_frame s c) :)
theorem countMiss_sched (s : State) (c : Cmd) : (s.countMiss c).sched = s.sched := (congrArg State.sched (countMiss_frame s c) :)
theorem countMiss_hif (s : State) (c : Cmd) : (s.countMiss c).hif = s.hif := (congrArg State.hif (countMiss_frame s c) :)
theorem countMiss_locks (s : State) (c : Cmd) : (s.countMiss c).locks = s.locks := (congrArg State.locks (countMiss_frame s c) :)
theorem countMiss_nss (s : State) (c : Cmd) : (s.countMiss c).nss = s.nss := (congrArg State.nss (countMiss_frame s c) :)
theorem countMiss_zones (s : State) (c : Cmd) : (s.countMiss c).zones = s.zones := (congrArg State.zones (countMiss_frame s c) :)
theorem countMiss_map (s : State) (c : Cmd) : (s.countMiss c).map = s.map := (congrArg State.map (countMiss_frame s c) :)
theorem countMiss_lnd (s : State) (c : Cmd) : (s.countMiss c).lnd = s.lnd := (congrArg State.lnd (countMiss_frame s c) :)
theorem countMiss_jnl (s : State) (c : Cmd) : (s.countMiss c).jnl = s.jnl := (congrArg State.jnl (countMiss_frame s c) :)
theorem countMiss_pwr (s : State) (c : Cmd) : (s.countMiss c).pwr = s.pwr := (congrArg State.pwr (countMiss_frame s c) :)
theorem countMiss_lvl (s : State) (c : Cmd) : (s.countMiss c).lvl = s.lvl := (congrArg State.lvl (countMiss_frame s c) :)
theorem countMiss_prg (s : State) (c : Cmd) : (s.countMiss c).prg = s.prg := (congrArg State.prg (countMiss_frame s c) :)
theorem countMiss_gov (s : State) (c : Cmd) : (s.countMiss c).gov = s.gov := (congrArg State.gov (countMiss_frame s c) :)
theorem countMiss_med (s : State) (c : Cmd) : (s.countMiss c).med = s.med := (congrArg State.med (countMiss_frame s c) :)
theorem countMiss_sec (s : State) (c : Cmd) : (s.countMiss c).sec = s.sec := (congrArg State.sec (countMiss_frame s c) :)
theorem countMiss_memp (s : State) (c : Cmd) : (s.countMiss c).memp = s.memp := (congrArg State.memp (countMiss_frame s c) :)
theorem countMiss_dram (s : State) (c : Cmd) : (s.countMiss c).dram = s.dram := (congrArg State.dram (countMiss_frame s c) :)

/-! A completion changes only register counts, the host side, the range-lock table, unit holds and what is sent. -/

@[simp] theorem complete_pending (s : State) (fsn st dw0 : Nat) (data : List Byte) (dw1 : Nat) :
    (s.complete fsn st dw0 data dw1).pending = s.pending := by
  unfold State.complete
  cases s.cmd fsn with
  | none => rfl
  | some c => simp [apply_ite State.pending, State.dropCmd, State.send, countMiss_pending]

@[simp] theorem complete_free (s : State) (fsn st dw0 : Nat) (data : List Byte) (dw1 : Nat) :
    (s.complete fsn st dw0 data dw1).free = s.free := by
  unfold State.complete
  cases s.cmd fsn with
  | none => rfl
  | some c => simp [apply_ite State.free, State.dropCmd, State.send, countMiss_free]

@[simp] theorem complete_drbg (s : State) (fsn st dw0 : Nat) (data : List Byte) (dw1 : Nat) :
    (s.complete fsn st dw0 data dw1).drbg = s.drbg := by
  unfold State.complete
  cases s.cmd fsn with
  | none => rfl
  | some c => simp [apply_ite State.drbg, State.dropCmd, State.send, countMiss_drbg]

@[simp] theorem complete_eff2 (s : State) (fsn st dw0 : Nat) (data : List Byte) (dw1 : Nat) :
    (s.complete fsn st dw0 data dw1).eff2 = s.eff2 := by
  unfold State.complete
  cases s.cmd fsn with
  | none => rfl
  | some c => simp [apply_ite State.eff2, State.dropCmd, State.send, countMiss_eff2]

@[simp] theorem complete_eff4 (s : State) (fsn st dw0 : Nat) (data : List Byte) (dw1 : Nat) :
    (s.complete fsn st dw0 data dw1).eff4 = s.eff4 := by
  unfold State.complete
  cases s.cmd fsn with
  | none => rfl
  | some c => simp [apply_ite State.eff4, State.dropCmd, State.send, countMiss_eff4]

@[simp] theorem complete_hiLatch (s : State) (fsn st dw0 : Nat) (data : List Byte) (dw1 : Nat) :
    (s.complete fsn st dw0 data dw1).hiLatch = s.hiLatch := by
  unfold State.complete
  cases s.cmd fsn with
  | none => rfl
  | some c => simp [apply_ite State.hiLatch, State.dropCmd, State.send, countMiss_hiLatch]

@[simp] theorem complete_units (s : State) (fsn st dw0 : Nat) (data : List Byte) (dw1 : Nat) :
    (s.complete fsn st dw0 data dw1).units = s.units := by
  unfold State.complete
  cases s.cmd fsn with
  | none => rfl
  | some c => simp [apply_ite State.units, State.dropCmd, State.send, countMiss_units]

@[simp] theorem complete_retRec (s : State) (fsn st dw0 : Nat) (data : List Byte) (dw1 : Nat) :
    (s.complete fsn st dw0 data dw1).retRec = s.retRec := by
  unfold State.complete
  cases s.cmd fsn with
  | none => rfl
  | some c => simp [apply_ite State.retRec, State.dropCmd, State.send, countMiss_retRec]

@[simp] theorem complete_stamps (s : State) (fsn st dw0 : Nat) (data : List Byte) (dw1 : Nat) :
    (s.complete fsn st dw0 data dw1).stamps = s.stamps := by
  unfold State.complete
  cases s.cmd fsn with
  | none => rfl
  | some c => simp [apply_ite State.stamps, State.dropCmd, State.send, countMiss_stamps]

@[simp] theorem complete_time (s : State) (fsn st dw0 : Nat) (data : List Byte) (dw1 : Nat) :
    (s.complete fsn st dw0 data dw1).time = s.time := by
  unfold State.complete
  cases s.cmd fsn with
  | none => rfl
  | some c => simp [apply_ite State.time, State.dropCmd, State.send, countMiss_time]

@[simp] theorem complete_flt (s : State) (fsn st dw0 : Nat) (data : List Byte) (dw1 : Nat) :
    (s.complete fsn st dw0 data dw1).flt = s.flt := by
  unfold State.complete
  cases s.cmd fsn with
  | none => rfl
  | some c => simp [apply_ite State.flt, State.dropCmd, State.send, countMiss_flt]

@[simp] theorem complete_log (s : State) (fsn st dw0 : Nat) (data : List Byte) (dw1 : Nat) :
    (s.complete fsn st dw0 data dw1).log = s.log := by
  unfold State.complete
  cases s.cmd fsn with
  | none => rfl
  | some c => simp [apply_ite State.log, State.dropCmd, State.send, countMiss_log]

@[simp] theorem complete_mram (s : State) (fsn st dw0 : Nat) (data : List Byte) (dw1 : Nat) :
    (s.complete fsn st dw0 data dw1).mram = s.mram := by
  unfold State.complete
  cases s.cmd fsn with
  | none => rfl
  | some c => simp [apply_ite State.mram, State.dropCmd, State.send, countMiss_mram]

@[simp] theorem complete_sched (s : State) (fsn st dw0 : Nat) (data : List Byte) (dw1 : Nat) :
    (s.complete fsn st dw0 data dw1).sched = s.sched := by
  unfold State.complete
  cases s.cmd fsn with
  | none => rfl
  | some c => simp [apply_ite State.sched, State.dropCmd, State.send, countMiss_sched]

@[simp] theorem complete_nss (s : State) (fsn st dw0 : Nat) (data : List Byte) (dw1 : Nat) :
    (s.complete fsn st dw0 data dw1).nss = s.nss := by
  unfold State.complete
  cases s.cmd fsn with
  | none => rfl
  | some c => simp [apply_ite State.nss, State.dropCmd, State.send, countMiss_nss]

@[simp] theorem complete_zones (s : State) (fsn st dw0 : Nat) (data : List Byte) (dw1 : Nat) :
    (s.complete fsn st dw0 data dw1).zones = s.zones := by
  unfold State.complete
  cases s.cmd fsn with
  | none => rfl
  | some c => simp [apply_ite State.zones, State.dropCmd, State.send, countMiss_zones]

@[simp] theorem complete_lnd (s : State) (fsn st dw0 : Nat) (data : List Byte) (dw1 : Nat) :
    (s.complete fsn st dw0 data dw1).lnd = s.lnd := by
  unfold State.complete
  cases s.cmd fsn with
  | none => rfl
  | some c => simp [apply_ite State.lnd, State.dropCmd, State.send, countMiss_lnd]

@[simp] theorem complete_jnl (s : State) (fsn st dw0 : Nat) (data : List Byte) (dw1 : Nat) :
    (s.complete fsn st dw0 data dw1).jnl = s.jnl := by
  unfold State.complete
  cases s.cmd fsn with
  | none => rfl
  | some c => simp [apply_ite State.jnl, State.dropCmd, State.send, countMiss_jnl]

@[simp] theorem complete_pwr (s : State) (fsn st dw0 : Nat) (data : List Byte) (dw1 : Nat) :
    (s.complete fsn st dw0 data dw1).pwr = s.pwr := by
  unfold State.complete
  cases s.cmd fsn with
  | none => rfl
  | some c => simp [apply_ite State.pwr, State.dropCmd, State.send, countMiss_pwr]

@[simp] theorem complete_lvl (s : State) (fsn st dw0 : Nat) (data : List Byte) (dw1 : Nat) :
    (s.complete fsn st dw0 data dw1).lvl = s.lvl := by
  unfold State.complete
  cases s.cmd fsn with
  | none => rfl
  | some c => simp [apply_ite State.lvl, State.dropCmd, State.send, countMiss_lvl]

@[simp] theorem complete_prg (s : State) (fsn st dw0 : Nat) (data : List Byte) (dw1 : Nat) :
    (s.complete fsn st dw0 data dw1).prg = s.prg := by
  unfold State.complete
  cases s.cmd fsn with
  | none => rfl
  | some c => simp [apply_ite State.prg, State.dropCmd, State.send, countMiss_prg]

@[simp] theorem complete_gov (s : State) (fsn st dw0 : Nat) (data : List Byte) (dw1 : Nat) :
    (s.complete fsn st dw0 data dw1).gov = s.gov := by
  unfold State.complete
  cases s.cmd fsn with
  | none => rfl
  | some c => simp [apply_ite State.gov, State.dropCmd, State.send, countMiss_gov]

@[simp] theorem complete_med (s : State) (fsn st dw0 : Nat) (data : List Byte) (dw1 : Nat) :
    (s.complete fsn st dw0 data dw1).med = s.med := by
  unfold State.complete
  cases s.cmd fsn with
  | none => rfl
  | some c => simp [apply_ite State.med, State.dropCmd, State.send, countMiss_med]

@[simp] theorem complete_sec (s : State) (fsn st dw0 : Nat) (data : List Byte) (dw1 : Nat) :
    (s.complete fsn st dw0 data dw1).sec = s.sec := by
  unfold State.complete
  cases s.cmd fsn with
  | none => rfl
  | some c => simp [apply_ite State.sec, State.dropCmd, State.send, countMiss_sec]

@[simp] theorem complete_memp (s : State) (fsn st dw0 : Nat) (data : List Byte) (dw1 : Nat) :
    (s.complete fsn st dw0 data dw1).memp = s.memp := by
  unfold State.complete
  cases s.cmd fsn with
  | none => rfl
  | some c => simp [apply_ite State.memp, State.dropCmd, State.send, countMiss_memp]

@[simp] theorem complete_dram (s : State) (fsn st dw0 : Nat) (data : List Byte) (dw1 : Nat) :
    (s.complete fsn st dw0 data dw1).dram = s.dram := by
  unfold State.complete
  cases s.cmd fsn with
  | none => rfl
  | some c => simp [apply_ite State.dram, State.dropCmd, State.send, countMiss_dram]

@[simp] theorem complete_unit (s : State) (fsn st dw0 : Nat) (data : List Byte) (dw1 a : Nat) :
    (s.complete fsn st dw0 data dw1).unit a = s.unit a := by simp [State.unit]

/-- The command completed is no longer outstanding, and every other command is. -/
theorem complete_cmds (s : State) (fsn st dw0 : Nat) (data : List Byte) (dw1 : Nat) (c : Cmd) (h : s.cmd fsn = some c) :
    (s.complete fsn st dw0 data dw1).hif.cmds = s.hif.cmds.filter (fun c => c.fsn != fsn) := by
  have hm := countMiss_hif s c
  unfold State.complete
  rw [h]
  dsimp only
  repeat' first
    | (simp only [State.dropCmd, State.send, State.onOutbox_hif, State.onMap_hif, State.onLocks_hif, State.onHif_hif, hm]; done)
    | split

/-- A command that completes is no longer outstanding. -/
@[simp] theorem complete_cmd (s : State) (fsn st dw0 : Nat) (data : List Byte) (dw1 : Nat) : (s.complete fsn st dw0 data dw1).cmd fsn = none := by
  cases h : s.cmd fsn with
  | none => simp only [State.complete, h]
  | some c =>
    unfold State.cmd
    rw [complete_cmds s fsn st dw0 data dw1 c h]
    simp [List.find?_eq_none]

/-- What completing a command posts, where completions are posted. -/
theorem complete_posts (s : State) (c : Cmd) (st dw0 : Nat) (data : List Byte) (dw1 : Nat) (h : s.cmd c.fsn = some c) (hm : c.mute = false)
    (ht : c.tunnel = false) (hp : s.postsStopped = false) :
    (s.complete c.fsn st dw0 data dw1).outbox.head? =
      some (.cqe c.fn c.sq (s.cqOf c.fn c.sq) c.sqe.cid st (dnrOf st) (crdOf st) dw0 dw1 data) := by
  have hh : (s.countMiss c).hif = s.hif := countMiss_hif s c
  have hf : (s.countMiss c).flt = s.flt := countMiss_flt s c
  simp only [State.complete, h, hm, ht, Bool.false_or, Bool.not_false, Bool.and_true]
  split <;> simp_all [State.postsStopped, State.dropCmd, State.send, State.cqOf, State.ctrl]

/-- The turn of an admin command names a command that stands. -/
theorem adminCmd_cmd (s : State) (fsn opc : Nat) (c : Cmd) (h : s.adminCmd fsn opc = some c) : s.cmd fsn = some c ∧ c.sq = 0 ∧ c.sqe.opc = opc ∧ c.ph = .fetched := by
  unfold State.adminCmd at h
  split at h
  · split at h
    · rename_i hc hh
      cases h
      exact ⟨hc, hh.1, hh.2.1, hh.2.2.1⟩
    · cases h
  · cases h

end Sys2Proof.Machine
end

