-- ==== Sys2Proof/Laws/Upd.lean ====
section
/-! SUPPORT. What any command can do to the state, said once. `Upd B r t` says that t was reached from r by changing only
the parts whose bits stand in the mask B (bit k is the k-th part of State), the parts that have one writer each through that
writer alone: the queue of waiting commands is never touched, the record of what was sent only grows, register fields are
set within the 32 bits of a register or forgotten, MRAM is written byte by byte. The lemmas of the Laws/Upd files say it of
every function of the machine, and upd_exec of every command. -/
namespace Sys2Proof.Machine

/-- Every bit of a mask stands in another. -/
def within (a b : Nat) : Prop := a &&& b = a

theorem within_trans {a b c : Nat} (h : a &&& b = a) (k : within b c) : within a c := by
  unfold within at *
  calc a &&& c = (a &&& b) &&& c := by rw [h]
    _ = a &&& (b &&& c) := Nat.and_assoc a b c
    _ = a := by rw [k, h]

theorem within_bit {b : Nat} (k : Nat) (h : within (2 ^ k) b) (hb : b.testBit k = false) : False := by
  have e := congrArg (fun n => n.testBit k) h
  simp [hb] at e

/-- Two states are the same in every part without a bit in the mask, and in the parts with one writer each. -/
structure Same (B : Nat) (s t : State) : Prop where
  pending : t.pending = s.pending
  outbox : t.outbox = s.outbox
  free : t.free = s.free
  drbg : t.drbg = s.drbg
  fields : t.fields = s.fields
  eff2 : B.testBit 5 = false → t.eff2 = s.eff2
  eff4 : B.testBit 6 = false → t.eff4 = s.eff4
  hiLatch : B.testBit 7 = false → t.hiLatch = s.hiLatch
  units : B.testBit 8 = false → t.units = s.units
  retRec : B.testBit 9 = false → t.retRec = s.retRec
  stamps : B.testBit 10 = false → t.stamps = s.stamps
  time : B.testBit 11 = false → t.time = s.time
  flt : B.testBit 12 = false → t.flt = s.flt
  log : B.testBit 13 = false → t.log = s.log
  mram : t.mram = s.mram
  sched : B.testBit 15 = false → t.sched = s.sched
  hif : B.testBit 16 = false → t.hif = s.hif
  locks : B.testBit 17 = false → t.locks = s.locks
  nss : B.testBit 18 = false → t.nss = s.nss
  zones : B.testBit 19 = false → t.zones = s.zones
  map : B.testBit 20 = false → t.map = s.map
  lnd : B.testBit 21 = false → t.lnd = s.lnd
  jnl : B.testBit 22 = false → t.jnl = s.jnl
  pwr : B.testBit 23 = false → t.pwr = s.pwr
  lvl : B.testBit 24 = false → t.lvl = s.lvl
  prg : B.testBit 25 = false → t.prg = s.prg
  gov : B.testBit 26 = false → t.gov = s.gov
  med : B.testBit 27 = false → t.med = s.med
  sec : B.testBit 28 = false → t.sec = s.sec
  memp : B.testBit 29 = false → t.memp = s.memp
  dram : B.testBit 30 = false → t.dram = s.dram

/-- The state t is reached from r by changes of the parts in B. -/
inductive Upd (B : Nat) (r : State) : State → Prop
  | refl : Upd B r r
  | rest {s t : State} : Upd B r s → Same B s t → Upd B r t
  | field {s : State} (f : Fld) (v u : Nat) : Upd B r s → within 16 B → Upd B r (s.setF f v u)
  | forget {s : State} (p : Nat → Bool) : Upd B r s → within 16 B → Upd B r (s.onFields fun m => m.keep p)
  | bytes {s : State} (f : SMap Byte → Nat) (g : SMap Byte → List Byte) : Upd B r s → within 16384 B →
      Upd B r (s.onMram fun m => m.setRange 0 (f m) (g m))
  | sent {s : State} (o : Sent) : Upd B r s → within 2 B → Upd B r (s.send o)
  | drawn {s : State} : Upd B r s → within 8 B → Upd B r s.nextDrbg
  | freed {s : State} : Upd B r s → within 4 B → Upd B r s.nextFree

/-- The same of an optional state. -/
def UpdO (B : Nat) (r : State) (o : Option State) : Prop := ∀ t, o = some t → Upd B r t
/-- The same of a value and a state. -/
def UpdP {α : Type} (B : Nat) (r : State) (p : α × State) : Prop := Upd B r p.2
def UpdPP {α β : Type} (B : Nat) (r : State) (p : α × β × State) : Prop := Upd B r p.2.2
def UpdSP {α : Type} (B : Nat) (r : State) (p : State × α) : Prop := Upd B r p.1
def UpdOP {α : Type} (B : Nat) (r : State) (o : Option (α × State)) : Prop := ∀ a t, o = some (a, t) → Upd B r t
def UpdOPP {α β : Type} (B : Nat) (r : State) (o : Option (α × β × State)) : Prop := ∀ a b t, o = some (a, b, t) → Upd B r t
/-- The same of a result, and of the state that an error carries. -/
def UpdE {ε : Type} (B : Nat) (r : State) (o : Except (State × ε) State) : Prop :=
  (∀ t, o = .ok t → Upd B r t) ∧ ∀ t e, o = .error (t, e) → Upd B r t
def UpdEP {ε α : Type} (B : Nat) (r : State) (o : Except (State × ε) (α × State)) : Prop :=
  (∀ a t, o = .ok (a, t) → Upd B r t) ∧ ∀ t e, o = .error (t, e) → Upd B r t
/-- The same of an outcome that answers a next state. -/
def UpdOut (B : Nat) (r : State) (o : Out) : Prop := ∀ t, o = .next t → Upd B r t
/-- The same of what an instruction did. -/
def UpdB (B : Nat) (r : State) : BRes → Prop
  | .go s => Upd B r s
  | .done s => Upd B r s
  | .jump s _ _ => Upd B r s
  | .trapIn s _ _ => Upd B r s
  | .trap _ _ => True

section
variable {B : Nat} {r s t x : State} {α β ε : Type}
theorem updO_none : UpdO B r none := by simp [UpdO]
theorem updO_some (h : Upd B r s) : UpdO B r (some s) := by simpa [UpdO] using h
theorem UpdO.get {o : Option State} (h : UpdO B r o) (e : o = some t) : Upd B r t := h t e
theorem UpdO.getD {o : Option State} (h : UpdO B r o) (hs : Upd B r s) : Upd B r (o.getD s) := by
  cases o with
  | none => exact hs
  | some t => exact h t rfl
theorem updP_mk (a : α) (h : Upd B r s) : UpdP B r (a, s) := h
theorem UpdP.snd {p : α × State} (h : UpdP B r p) : Upd B r p.2 := h
theorem UpdP.get {p : α × State} {a : α} (h : UpdP B r p) (e : p = (a, t)) : Upd B r t := by subst e; exact h
theorem updPP_mk (a : α) (b : β) (h : Upd B r s) : UpdPP B r (a, b, s) := h
theorem UpdPP.snd {p : α × β × State} (h : UpdPP B r p) : Upd B r p.2.2 := h
theorem UpdPP.get {p : α × β × State} {a : α} {b : β} (h : UpdPP B r p) (e : p = (a, b, t)) : Upd B r t := by subst e; exact h
theorem updSP_mk (a : α) (h : Upd B r s) : UpdSP B r (s, a) := h
theorem UpdSP.fst {p : State × α} (h : UpdSP B r p) : Upd B r p.1 := h
theorem UpdSP.get {p : State × α} {a : α} (h : UpdSP B r p) (e : p = (t, a)) : Upd B r t := by subst e; exact h
theorem updOP_none : UpdOP (α := α) B r none := by simp [UpdOP]
theorem updOP_some (a : α) (h : Upd B r s) : UpdOP B r (some (a, s)) := by
  intro b t e
  cases e
  exact h
theorem UpdOP.get {o : Option (α × State)} {a : α} (h : UpdOP B r o) (e : o = some (a, t)) : Upd B r t := h a t e
theorem updOPP_none : UpdOPP (α := α) (β := β) B r none := by simp [UpdOPP]
theorem updOPP_some (a : α) (b : β) (h : Upd B r s) : UpdOPP B r (some (a, b, s)) := by
  intro x y t e
  cases e
  exact h
theorem UpdOPP.get {o : Option (α × β × State)} {a : α} {b : β} (h : UpdOPP B r o) (e : o = some (a, b, t)) : Upd B r t := h a b t e
theorem UpdOP.get2 {o : Option (α × State)} {p : α × State} (h : UpdOP B r o) (e : o = some p) : Upd B r p.2 := h p.1 p.2 e
theorem UpdOPP.get2 {o : Option (α × β × State)} {p : α × β × State} (h : UpdOPP B r o) (e : o = some p) : Upd B r p.2.2 := h p.1 p.2.1 p.2.2 e
theorem updO_map {f : α → State} (o : Option α) (k : ∀ a, o = some a → Upd B r (f a)) : UpdO B r (o.map f) := by
  cases o with
  | none => exact updO_none
  | some a => exact updO_some (k a rfl)
theorem updOP_map {f : α → β × State} (o : Option α) (k : ∀ a, o = some a → Upd B r (f a).2) : UpdOP B r (o.map f) := by
  cases o with
  | none => exact updOP_none
  | some a =>
    intro b t e
    have := k a rfl
    simp only [Option.map_some, Option.some.injEq] at e
    rw [e] at this
    exact this
theorem updOPP_map {γ : Type} {f : α → β × γ × State} (o : Option α) (k : ∀ a, o = some a → Upd B r (f a).2.2) :
    UpdOPP B r (o.map f) := by
  cases o with
  | none => exact updOPP_none
  | some a =>
    intro b c t e
    have := k a rfl
    simp only [Option.map_some, Option.some.injEq] at e
    rw [e] at this
    exact this
theorem updE_error (e : ε) (h : Upd B r s) : UpdE B r (.error (s, e)) := by
  refine ⟨by simp, fun t e k => ?_⟩
  cases k
  exact h
theorem updE_ok (h : Upd B r s) : UpdE (ε := ε) B r (.ok s) := by simpa [UpdE] using h
theorem UpdE.get {o : Except (State × ε) State} (h : UpdE B r o) (e : o = .ok t) : Upd B r t := h.1 t e
theorem UpdE.err {o : Except (State × ε) State} {x : ε} (h : UpdE B r o) (e : o = .error (t, x)) : Upd B r t := h.2 t x e
theorem updEP_error (e : ε) (h : Upd B r s) : UpdEP (α := α) B r (.error (s, e)) := by
  refine ⟨by simp, fun t e k => ?_⟩
  cases k
  exact h
theorem updEP_ok (a : α) (h : Upd B r s) : UpdEP (ε := ε) B r (.ok (a, s)) := by
  refine ⟨fun b t e => ?_, by simp⟩
  cases e
  exact h
theorem UpdEP.get {o : Except (State × ε) (α × State)} {a : α} (h : UpdEP B r o) (e : o = .ok (a, t)) : Upd B r t := h.1 a t e
theorem UpdEP.err {o : Except (State × ε) (α × State)} {x : ε} (h : UpdEP B r o) (e : o = .error (t, x)) : Upd B r t := h.2 t x e
theorem updOut_next (h : Upd B r s) : UpdOut B r (.next s) := by
  intro t e
  cases e
  exact h
theorem updOut_fault (f : Fault) : UpdOut B r (.fault f) := by intro t e; cases e
theorem updB_go (h : Upd B r s) : UpdB B r (.go s) := h
theorem updB_done (h : Upd B r s) : UpdB B r (.done s) := h
theorem updB_jump (p : Nat) (c : Bool) (h : Upd B r s) : UpdB B r (.jump s p c) := h
theorem updB_trapIn (a b : Nat) (h : Upd B r s) : UpdB B r (.trapIn s a b) := h
theorem updB_trap (a b : Nat) : UpdB B r (.trap a b) := trivial
theorem UpdB.go {o : BRes} (h : UpdB B r o) (e : o = .go t) : Upd B r t := by subst e; exact h
theorem UpdB.done {o : BRes} (h : UpdB B r o) (e : o = .done t) : Upd B r t := by subst e; exact h
theorem UpdB.jump {o : BRes} {a b} (h : UpdB B r o) (e : o = .jump t a b) : Upd B r t := by subst e; exact h
theorem UpdB.trapIn {o : BRes} {a b} (h : UpdB B r o) (e : o = .trapIn t a b) : Upd B r t := by subst e; exact h

/-- Introduce a state named by a let with what is known of it. -/
theorem upd_let {Q : Prop} (h : Upd B r x) (k : Upd B r x → Q) : Q := k h

/-- The same of a pair. -/
theorem upd_letP {x : α × State} {Q : Prop} (h : UpdP B r x) (k : UpdP B r x → Q) : Q := k h

theorem upd_letB {x : BRes} {Q : Prop} (h : UpdB B r x) (k : UpdB B r x → Q) : Q := k h
theorem upd_letPP {x : α × β × State} {Q : Prop} (h : UpdPP B r x) (k : UpdPP B r x → Q) : Q := k h
theorem upd_letSP {x : State × α} {Q : Prop} (h : UpdSP B r x) (k : UpdSP B r x → Q) : Q := k h
theorem updO_bind {f : α → Option State} (o : Option α) (k : ∀ a, o = some a → UpdO B r (f a)) : UpdO B r (o.bind f) := by
  cases o with
  | none => exact updO_none
  | some a => exact k a rfl
theorem updO_foldl {f : Option State → α → Option State} (l : List α) {o : Option State} (h : UpdO B r o)
    (k : ∀ o a, UpdO B r o → UpdO B r (f o a)) : UpdO B r (l.foldl f o) := by
  induction l generalizing o with
  | nil => exact h
  | cons a l ih => exact ih (k o a h)

theorem upd_foldl {f : State → α → State} (l : List α) (h : Upd B r s) (k : ∀ s a, Upd B r s → Upd B r (f s a)) :
    Upd B r (l.foldl f s) := by
  induction l generalizing s with
  | nil => exact h
  | cons a l ih => exact ih (k s a h)
theorem updP_foldl {f : β × State → α → β × State} (l : List α) {p : β × State} (h : UpdP B r p)
    (k : ∀ s a, UpdP B r s → UpdP B r (f s a)) : UpdP B r (l.foldl f p) := by
  induction l generalizing p with
  | nil => exact h
  | cons a l ih => exact ih (k p a h)
theorem updSP_foldl {f : State × β → α → State × β} (l : List α) {p : State × β} (h : UpdSP B r p)
    (k : ∀ s a, UpdSP B r s → UpdSP B r (f s a)) : UpdSP B r (l.foldl f p) := by
  induction l generalizing p with
  | nil => exact h
  | cons a l ih => exact ih (k p a h)
end

section
variable {B : Nat} {r s : State}
theorem upd_onEff2 (f) (h : Upd B r s) (hB : within 32 B) : Upd B r (s.onEff2 f) :=
  h.rest ⟨rfl, rfl, rfl, rfl, rfl, fun h => (within_bit 5 hB h).elim, fun _ => rfl, fun _ => rfl, fun _ => rfl, fun _ => rfl, fun _ => rfl, fun _ => rfl, fun _ => rfl, fun _ => rfl, rfl, fun _ => rfl, fun _ => rfl, fun _ => rfl, fun _ => rfl, fun _ => rfl, fun _ => rfl, fun _ => rfl, fun _ => rfl, fun _ => rfl, fun _ => rfl, fun _ => rfl, fun _ => rfl, fun _ => rfl, fun _ => rfl, fun _ => rfl, fun _ => rfl⟩
theorem upd_onEff4 (f) (h : Upd B r s) (hB : within 64 B) : Upd B r (s.onEff4 f) :=
  h.rest ⟨rfl, rfl, rfl, rfl, rfl, fun _ => rfl, fun h => (within_bit 6 hB h).elim, fun _ => rfl, fun _ => rfl, fun _ => rfl, fun _ => rfl, fun _ => rfl, fun _ => rfl, fun _ => rfl, rfl, fun _ => rfl, fun _ => rfl, fun _ => rfl, fun _ => rfl, fun _ => rfl, fun _ => rfl, fun _ => rfl, fun _ => rfl, fun _ => rfl, fun _ => rfl, fun _ => rfl, fun _ => rfl, fun _ => rfl, fun _ => rfl, fun _ => rfl, fun _ => rfl⟩
theorem upd_onHiLatch (f) (h : Upd B r s) (hB : within 128 B) : Upd B r (s.onHiLatch f) :=
  h.rest ⟨rfl, rfl, rfl, rfl, rfl, fun _ => rfl, fun _ => rfl, fun h => (within_bit 7 hB h).elim, fun _ => rfl, fun _ => rfl, fun _ => rfl, fun _ => rfl, fun _ => rfl, fun _ => rfl, rfl, fun _ => rfl, fun _ => rfl, fun _ => rfl, fun _ => rfl, fun _ => rfl, fun _ => rfl, fun _ => rfl, fun _ => rfl, fun _ => rfl, fun _ => rfl, fun _ => rfl, fun _ => rfl, fun _ => rfl, fun _ => rfl, fun _ => rfl, fun _ => rfl⟩
theorem upd_onUnits (f) (h : Upd B r s) (hB : within 256 B) : Upd B r (s.onUnits f) :=
  h.rest ⟨rfl, rfl, rfl, rfl, rfl, fun _ => rfl, fun _ => rfl, fun _ => rfl, fun h => (within_bit 8 hB h).elim, fun _ => rfl, fun _ => rfl, fun _ => rfl, fun _ => rfl, fun _ => rfl, rfl, fun _ => rfl, fun _ => rfl, fun _ => rfl, fun _ => rfl, fun _ => rfl, fun _ => rfl, fun _ => rfl, fun _ => rfl, fun _ => rfl, fun _ => rfl, fun _ => rfl, fun _ => rfl, fun _ => rfl, fun _ => rfl, fun _ => rfl, fun _ => rfl⟩
theorem upd_onRetRec (f) (h : Upd B r s) (hB : within 512 B) : Upd B r (s.onRetRec f) :=
  h.rest ⟨rfl, rfl, rfl, rfl, rfl, fun _ => rfl, fun _ => rfl, fun _ => rfl, fun _ => rfl, fun h => (within_bit 9 hB h).elim, fun _ => rfl, fun _ => rfl, fun _ => rfl, fun _ => rfl, rfl, fun _ => rfl, fun _ => rfl, fun _ => rfl, fun _ => rfl, fun _ => rfl, fun _ => rfl, fun _ => rfl, fun _ => rfl, fun _ => rfl, fun _ => rfl, fun _ => rfl, fun _ => rfl, fun _ => rfl, fun _ => rfl, fun _ => rfl, fun _ => rfl⟩
theorem upd_onStamps (f) (h : Upd B r s) (hB : within 1024 B) : Upd B r (s.onStamps f) :=
  h.rest ⟨rfl, rfl, rfl, rfl, rfl, fun _ => rfl, fun _ => rfl, fun _ => rfl, fun _ => rfl, fun _ => rfl, fun h => (within_bit 10 hB h).elim, fun _ => rfl, fun _ => rfl, fun _ => rfl, rfl, fun _ => rfl, fun _ => rfl, fun _ => rfl, fun _ => rfl, fun _ => rfl, fun _ => rfl, fun _ => rfl, fun _ => rfl, fun _ => rfl, fun _ => rfl, fun _ => rfl, fun _ => rfl, fun _ => rfl, fun _ => rfl, fun _ => rfl, fun _ => rfl⟩
theorem upd_onTime (f) (h : Upd B r s) (hB : within 2048 B) : Upd B r (s.onTime f) :=
  h.rest ⟨rfl, rfl, rfl, rfl, rfl, fun _ => rfl, fun _ => rfl, fun _ => rfl, fun _ => rfl, fun _ => rfl, fun _ => rfl, fun h => (within_bit 11 hB h).elim, fun _ => rfl, fun _ => rfl, rfl, fun _ => rfl, fun _ => rfl, fun _ => rfl, fun _ => rfl, fun _ => rfl, fun _ => rfl, fun _ => rfl, fun _ => rfl, fun _ => rfl, fun _ => rfl, fun _ => rfl, fun _ => rfl, fun _ => rfl, fun _ => rfl, fun _ => rfl, fun _ => rfl⟩
theorem upd_onFlt (f) (h : Upd B r s) (hB : within 4096 B) : Upd B r (s.onFlt f) :=
  h.rest ⟨rfl, rfl, rfl, rfl, rfl, fun _ => rfl, fun _ => rfl, fun _ => rfl, fun _ => rfl, fun _ => rfl, fun _ => rfl, fun _ => rfl, fun h => (within_bit 12 hB h).elim, fun _ => rfl, rfl, fun _ => rfl, fun _ => rfl, fun _ => rfl, fun _ => rfl, fun _ => rfl, fun _ => rfl, fun _ => rfl, fun _ => rfl, fun _ => rfl, fun _ => rfl, fun _ => rfl, fun _ => rfl, fun _ => rfl, fun _ => rfl, fun _ => rfl, fun _ => rfl⟩
theorem upd_onLog (f) (h : Upd B r s) (hB : within 8192 B) : Upd B r (s.onLog f) :=
  h.rest ⟨rfl, rfl, rfl, rfl, rfl, fun _ => rfl, fun _ => rfl, fun _ => rfl, fun _ => rfl, fun _ => rfl, fun _ => rfl, fun _ => rfl, fun _ => rfl, fun h => (within_bit 13 hB h).elim, rfl, fun _ => rfl, fun _ => rfl, fun _ => rfl, fun _ => rfl, fun _ => rfl, fun _ => rfl, fun _ => rfl, fun _ => rfl, fun _ => rfl, fun _ => rfl, fun _ => rfl, fun _ => rfl, fun _ => rfl, fun _ => rfl, fun _ => rfl, fun _ => rfl⟩
theorem upd_onSched (f) (h : Upd B r s) (hB : within 32768 B) : Upd B r (s.onSched f) :=
  h.rest ⟨rfl, rfl, rfl, rfl, rfl, fun _ => rfl, fun _ => rfl, fun _ => rfl, fun _ => rfl, fun _ => rfl, fun _ => rfl, fun _ => rfl, fun _ => rfl, fun _ => rfl, rfl, fun h => (within_bit 15 hB h).elim, fun _ => rfl, fun _ => rfl, fun _ => rfl, fun _ => rfl, fun _ => rfl, fun _ => rfl, fun _ => rfl, fun _ => rfl, fun _ => rfl, fun _ => rfl, fun _ => rfl, fun _ => rfl, fun _ => rfl, fun _ => rfl, fun _ => rfl⟩
theorem upd_onHif (f) (h : Upd B r s) (hB : within 65536 B) : Upd B r (s.onHif f) :=
  h.rest ⟨rfl, rfl, rfl, rfl, rfl, fun _ => rfl, fun _ => rfl, fun _ => rfl, fun _ => rfl, fun _ => rfl, fun _ => rfl, fun _ => rfl, fun _ => rfl, fun _ => rfl, rfl, fun _ => rfl, fun h => (within_bit 16 hB h).elim, fun _ => rfl, fun _ => rfl, fun _ => rfl, fun _ => rfl, fun _ => rfl, fun _ => rfl, fun _ => rfl, fun _ => rfl, fun _ => rfl, fun _ => rfl, fun _ => rfl, fun _ => rfl, fun _ => rfl, fun _ => rfl⟩
theorem upd_onLocks (f) (h : Upd B r s) (hB : within 131072 B) : Upd B r (s.onLocks f) :=
  h.rest ⟨rfl, rfl, rfl, rfl, rfl, fun _ => rfl, fun _ => rfl, fun _ => rfl, fun _ => rfl, fun _ => rfl, fun _ => rfl, fun _ => rfl, fun _ => rfl, fun _ => rfl, rfl, fun _ => rfl, fun _ => rfl, fun h => (within_bit 17 hB h).elim, fun _ => rfl, fun _ => rfl, fun _ => rfl, fun _ => rfl, fun _ => rfl, fun _ => rfl, fun _ => rfl, fun _ => rfl, fun _ => rfl, fun _ => rfl, fun _ => rfl, fun _ => rfl, fun _ => rfl⟩
theorem upd_onNss (f) (h : Upd B r s) (hB : within 262144 B) : Upd B r (s.onNss f) :=
  h.rest ⟨rfl, rfl, rfl, rfl, rfl, fun _ => rfl, fun _ => rfl, fun _ => rfl, fun _ => rfl, fun _ => rfl, fun _ => rfl, fun _ => rfl, fun _ => rfl, fun _ => rfl, rfl, fun _ => rfl, fun _ => rfl, fun _ => rfl, fun h => (within_bit 18 hB h).elim, fun _ => rfl, fun _ => rfl, fun _ => rfl, fun _ => rfl, fun _ => rfl, fun _ => rfl, fun _ => rfl, fun _ => rfl, fun _ => rfl, fun _ => rfl, fun _ => rfl, fun _ => rfl⟩
theorem upd_onZones (f) (h : Upd B r s) (hB : within 524288 B) : Upd B r (s.onZones f) :=
  h.rest ⟨rfl, rfl, rfl, rfl, rfl, fun _ => rfl, fun _ => rfl, fun _ => rfl, fun _ => rfl, fun _ => rfl, fun _ => rfl, fun _ => rfl, fun _ => rfl, fun _ => rfl, rfl, fun _ => rfl, fun _ => rfl, fun _ => rfl, fun _ => rfl, fun h => (within_bit 19 hB h).elim, fun _ => rfl, fun _ => rfl, fun _ => rfl, fun _ => rfl, fun _ => rfl, fun _ => rfl, fun _ => rfl, fun _ => rfl, fun _ => rfl, fun _ => rfl, fun _ => rfl⟩
theorem upd_onMap (f) (h : Upd B r s) (hB : within 1048576 B) : Upd B r (s.onMap f) :=
  h.rest ⟨rfl, rfl, rfl, rfl, rfl, fun _ => rfl, fun _ => rfl, fun _ => rfl, fun _ => rfl, fun _ => rfl, fun _ => rfl, fun _ => rfl, fun _ => rfl, fun _ => rfl, rfl, fun _ => rfl, fun _ => rfl, fun _ => rfl, fun _ => rfl, fun _ => rfl, fun h => (within_bit 20 hB h).elim, fun _ => rfl, fun _ => rfl, fun _ => rfl, fun _ => rfl, fun _ => rfl, fun _ => rfl, fun _ => rfl, fun _ => rfl, fun _ => rfl, fun _ => rfl⟩
theorem upd_onLnd (f) (h : Upd B r s) (hB : within 2097152 B) : Upd B r (s.onLnd f) :=
  h.rest ⟨rfl, rfl, rfl, rfl, rfl, fun _ => rfl, fun _ => rfl, fun _ => rfl, fun _ => rfl, fun _ => rfl, fun _ => rfl, fun _ => rfl, fun _ => rfl, fun _ => rfl, rfl, fun _ => rfl, fun _ => rfl, fun _ => rfl, fun _ => rfl, fun _ => rfl, fun _ => rfl, fun h => (within_bit 21 hB h).elim, fun _ => rfl, fun _ => rfl, fun _ => rfl, fun _ => rfl, fun _ => rfl, fun _ => rfl, fun _ => rfl, fun _ => rfl, fun _ => rfl⟩
theorem upd_onJnl (f) (h : Upd B r s) (hB : within 4194304 B) : Upd B r (s.onJnl f) :=
  h.rest ⟨rfl, rfl, rfl, rfl, rfl, fun _ => rfl, fun _ => rfl, fun _ => rfl, fun _ => rfl, fun _ => rfl, fun _ => rfl, fun _ => rfl, fun _ => rfl, fun _ => rfl, rfl, fun _ => rfl, fun _ => rfl, fun _ => rfl, fun _ => rfl, fun _ => rfl, fun _ => rfl, fun _ => rfl, fun h => (within_bit 22 hB h).elim, fun _ => rfl, fun _ => rfl, fun _ => rfl, fun _ => rfl, fun _ => rfl, fun _ => rfl, fun _ => rfl, fun _ => rfl⟩
theorem upd_onPwr (f) (h : Upd B r s) (hB : within 8388608 B) : Upd B r (s.onPwr f) :=
  h.rest ⟨rfl, rfl, rfl, rfl, rfl, fun _ => rfl, fun _ => rfl, fun _ => rfl, fun _ => rfl, fun _ => rfl, fun _ => rfl, fun _ => rfl, fun _ => rfl, fun _ => rfl, rfl, fun _ => rfl, fun _ => rfl, fun _ => rfl, fun _ => rfl, fun _ => rfl, fun _ => rfl, fun _ => rfl, fun _ => rfl, fun h => (within_bit 23 hB h).elim, fun _ => rfl, fun _ => rfl, fun _ => rfl, fun _ => rfl, fun _ => rfl, fun _ => rfl, fun _ => rfl⟩
theorem upd_onLvl (f) (h : Upd B r s) (hB : within 16777216 B) : Upd B r (s.onLvl f) :=
  h.rest ⟨rfl, rfl, rfl, rfl, rfl, fun _ => rfl, fun _ => rfl, fun _ => rfl, fun _ => rfl, fun _ => rfl, fun _ => rfl, fun _ => rfl, fun _ => rfl, fun _ => rfl, rfl, fun _ => rfl, fun _ => rfl, fun _ => rfl, fun _ => rfl, fun _ => rfl, fun _ => rfl, fun _ => rfl, fun _ => rfl, fun _ => rfl, fun h => (within_bit 24 hB h).elim, fun _ => rfl, fun _ => rfl, fun _ => rfl, fun _ => rfl, fun _ => rfl, fun _ => rfl⟩
theorem upd_onPrg (f) (h : Upd B r s) (hB : within 33554432 B) : Upd B r (s.onPrg f) :=
  h.rest ⟨rfl, rfl, rfl, rfl, rfl, fun _ => rfl, fun _ => rfl, fun _ => rfl, fun _ => rfl, fun _ => rfl, fun _ => rfl, fun _ => rfl, fun _ => rfl, fun _ => rfl, rfl, fun _ => rfl, fun _ => rfl, fun _ => rfl, fun _ => rfl, fun _ => rfl, fun _ => rfl, fun _ => rfl, fun _ => rfl, fun _ => rfl, fun _ => rfl, fun h => (within_bit 25 hB h).elim, fun _ => rfl, fun _ => rfl, fun _ => rfl, fun _ => rfl, fun _ => rfl⟩
theorem upd_onGov (f) (h : Upd B r s) (hB : within 67108864 B) : Upd B r (s.onGov f) :=
  h.rest ⟨rfl, rfl, rfl, rfl, rfl, fun _ => rfl, fun _ => rfl, fun _ => rfl, fun _ => rfl, fun _ => rfl, fun _ => rfl, fun _ => rfl, fun _ => rfl, fun _ => rfl, rfl, fun _ => rfl, fun _ => rfl, fun _ => rfl, fun _ => rfl, fun _ => rfl, fun _ => rfl, fun _ => rfl, fun _ => rfl, fun _ => rfl, fun _ => rfl, fun _ => rfl, fun h => (within_bit 26 hB h).elim, fun _ => rfl, fun _ => rfl, fun _ => rfl, fun _ => rfl⟩
theorem upd_onMed (f) (h : Upd B r s) (hB : within 134217728 B) : Upd B r (s.onMed f) :=
  h.rest ⟨rfl, rfl, rfl, rfl, rfl, fun _ => rfl, fun _ => rfl, fun _ => rfl, fun _ => rfl, fun _ => rfl, fun _ => rfl, fun _ => rfl, fun _ => rfl, fun _ => rfl, rfl, fun _ => rfl, fun _ => rfl, fun _ => rfl, fun _ => rfl, fun _ => rfl, fun _ => rfl, fun _ => rfl, fun _ => rfl, fun _ => rfl, fun _ => rfl, fun _ => rfl, fun _ => rfl, fun h => (within_bit 27 hB h).elim, fun _ => rfl, fun _ => rfl, fun _ => rfl⟩
theorem upd_onSec (f) (h : Upd B r s) (hB : within 268435456 B) : Upd B r (s.onSec f) :=
  h.rest ⟨rfl, rfl, rfl, rfl, rfl, fun _ => rfl, fun _ => rfl, fun _ => rfl, fun _ => rfl, fun _ => rfl, fun _ => rfl, fun _ => rfl, fun _ => rfl, fun _ => rfl, rfl, fun _ => rfl, fun _ => rfl, fun _ => rfl, fun _ => rfl, fun _ => rfl, fun _ => rfl, fun _ => rfl, fun _ => rfl, fun _ => rfl, fun _ => rfl, fun _ => rfl, fun _ => rfl, fun _ => rfl, fun h => (within_bit 28 hB h).elim, fun _ => rfl, fun _ => rfl⟩
theorem upd_onMemp (f) (h : Upd B r s) (hB : within 536870912 B) : Upd B r (s.onMemp f) :=
  h.rest ⟨rfl, rfl, rfl, rfl, rfl, fun _ => rfl, fun _ => rfl, fun _ => rfl, fun _ => rfl, fun _ => rfl, fun _ => rfl, fun _ => rfl, fun _ => rfl, fun _ => rfl, rfl, fun _ => rfl, fun _ => rfl, fun _ => rfl, fun _ => rfl, fun _ => rfl, fun _ => rfl, fun _ => rfl, fun _ => rfl, fun _ => rfl, fun _ => rfl, fun _ => rfl, fun _ => rfl, fun _ => rfl, fun _ => rfl, fun h => (within_bit 29 hB h).elim, fun _ => rfl⟩
theorem upd_onDram (f) (h : Upd B r s) (hB : within 1073741824 B) : Upd B r (s.onDram f) :=
  h.rest ⟨rfl, rfl, rfl, rfl, rfl, fun _ => rfl, fun _ => rfl, fun _ => rfl, fun _ => rfl, fun _ => rfl, fun _ => rfl, fun _ => rfl, fun _ => rfl, fun _ => rfl, rfl, fun _ => rfl, fun _ => rfl, fun _ => rfl, fun _ => rfl, fun _ => rfl, fun _ => rfl, fun _ => rfl, fun _ => rfl, fun _ => rfl, fun _ => rfl, fun _ => rfl, fun _ => rfl, fun _ => rfl, fun _ => rfl, fun _ => rfl, fun h => (within_bit 30 hB h).elim⟩
end

/-! ### What a part keeps -/

section
variable {B : Nat} {r t : State}

theorem Upd.pending (h : Upd B r t) : t.pending = r.pending := by
  induction h with
  | refl => rfl
  | rest _ e ih => exact e.pending.trans ih
  | _ => assumption

theorem Upd.outbox (h : Upd B r t) (hb : B.testBit 1 = false) : t.outbox = r.outbox := by
  induction h with
  | refl => rfl
  | rest _ e ih => exact e.outbox.trans ih
  | sent _ _ hB _ => exact (within_bit 1 hB hb).elim
  | _ => assumption

theorem Upd.free (h : Upd B r t) (hb : B.testBit 2 = false) : t.free = r.free := by
  induction h with
  | refl => rfl
  | rest _ e ih => exact e.free.trans ih
  | freed _ hB _ => exact (within_bit 2 hB hb).elim
  | _ => assumption

theorem Upd.drbg (h : Upd B r t) (hb : B.testBit 3 = false) : t.drbg = r.drbg := by
  induction h with
  | refl => rfl
  | rest _ e ih => exact e.drbg.trans ih
  | drawn _ hB _ => exact (within_bit 3 hB hb).elim
  | _ => assumption

theorem Upd.fields (h : Upd B r t) (hb : B.testBit 4 = false) : t.fields = r.fields := by
  induction h with
  | refl => rfl
  | rest _ e ih => exact e.fields.trans ih
  | field _ _ _ _ hB _ => exact (within_bit 4 hB hb).elim
  | forget _ _ hB _ => exact (within_bit 4 hB hb).elim
  | _ => assumption

theorem Upd.eff2 (h : Upd B r t) (hb : B.testBit 5 = false) : t.eff2 = r.eff2 := by
  induction h with
  | refl => rfl
  | rest _ e ih => exact (e.eff2 hb).trans ih
  | _ => assumption

theorem Upd.eff4 (h : Upd B r t) (hb : B.testBit 6 = false) : t.eff4 = r.eff4 := by
  induction h with
  | refl => rfl
  | rest _ e ih => exact (e.eff4 hb).trans ih
  | _ => assumption

theorem Upd.hiLatch (h : Upd B r t) (hb : B.testBit 7 = false) : t.hiLatch = r.hiLatch := by
  induction h with
  | refl => rfl
  | rest _ e ih => exact (e.hiLatch hb).trans ih
  | _ => assumption

theorem Upd.units (h : Upd B r t) (hb : B.testBit 8 = false) : t.units = r.units := by
  induction h with
  | refl => rfl
  | rest _ e ih => exact (e.units hb).trans ih
  | _ => assumption

theorem Upd.retRec (h : Upd B r t) (hb : B.testBit 9 = false) : t.retRec = r.retRec := by
  induction h with
  | refl => rfl
  | rest _ e ih => exact (e.retRec hb).trans ih
  | _ => assumption

theorem Upd.stamps (h : Upd B r t) (hb : B.testBit 10 = false) : t.stamps = r.stamps := by
  induction h with
  | refl => rfl
  | rest _ e ih => exact (e.stamps hb).trans ih
  | _ => assumption

theorem Upd.time (h : Upd B r t) (hb : B.testBit 11 = false) : t.time = r.time := by
  induction h with
  | refl => rfl
  | rest _ e ih => exact (e.time hb).trans ih
  | _ => assumption

theorem Upd.flt (h : Upd B r t) (hb : B.testBit 12 = false) : t.flt = r.flt := by
  induction h with
  | refl => rfl
  | rest _ e ih => exact (e.flt hb).trans ih
  | _ => assumption

theorem Upd.log (h : Upd B r t) (hb : B.testBit 13 = false) : t.log = r.log := by
  induction h with
  | refl => rfl
  | rest _ e ih => exact (e.log hb).trans ih
  | _ => assumption

theorem Upd.mram (h : Upd B r t) (hb : B.testBit 14 = false) : t.mram = r.mram := by
  induction h with
  | refl => rfl
  | rest _ e ih => exact e.mram.trans ih
  | bytes _ _ _ hB _ => exact (within_bit 14 hB hb).elim
  | _ => assumption

theorem Upd.sched (h : Upd B r t) (hb : B.testBit 15 = false) : t.sched = r.sched := by
  induction h with
  | refl => rfl
  | rest _ e ih => exact (e.sched hb).trans ih
  | _ => assumption

theorem Upd.hif (h : Upd B r t) (hb : B.testBit 16 = false) : t.hif = r.hif := by
  induction h with
  | refl => rfl
  | rest _ e ih => exact (e.hif hb).trans ih
  | _ => assumption

theorem Upd.locks (h : Upd B r t) (hb : B.testBit 17 = false) : t.locks = r.locks := by
  induction h with
  | refl => rfl
  | rest _ e ih => exact (e.locks hb).trans ih
  | _ => assumption

theorem Upd.nss (h : Upd B r t) (hb : B.testBit 18 = false) : t.nss = r.nss := by
  induction h with
  | refl => rfl
  | rest _ e ih => exact (e.nss hb).trans ih
  | _ => assumption

theorem Upd.zones (h : Upd B r t) (hb : B.testBit 19 = false) : t.zones = r.zones := by
  induction h with
  | refl => rfl
  | rest _ e ih => exact (e.zones hb).trans ih
  | _ => assumption

theorem Upd.map (h : Upd B r t) (hb : B.testBit 20 = false) : t.map = r.map := by
  induction h with
  | refl => rfl
  | rest _ e ih => exact (e.map hb).trans ih
  | _ => assumption

theorem Upd.lnd (h : Upd B r t) (hb : B.testBit 21 = false) : t.lnd = r.lnd := by
  induction h with
  | refl => rfl
  | rest _ e ih => exact (e.lnd hb).trans ih
  | _ => assumption

theorem Upd.jnl (h : Upd B r t) (hb : B.testBit 22 = false) : t.jnl = r.jnl := by
  induction h with
  | refl => rfl
  | rest _ e ih => exact (e.jnl hb).trans ih
  | _ => assumption

theorem Upd.pwr (h : Upd B r t) (hb : B.testBit 23 = false) : t.pwr = r.pwr := by
  induction h with
  | refl => rfl
  | rest _ e ih => exact (e.pwr hb).trans ih
  | _ => assumption

theorem Upd.lvl (h : Upd B r t) (hb : B.testBit 24 = false) : t.lvl = r.lvl := by
  induction h with
  | refl => rfl
  | rest _ e ih => exact (e.lvl hb).trans ih
  | _ => assumption

theorem Upd.prg (h : Upd B r t) (hb : B.testBit 25 = false) : t.prg = r.prg := by
  induction h with
  | refl => rfl
  | rest _ e ih => exact (e.prg hb).trans ih
  | _ => assumption

theorem Upd.gov (h : Upd B r t) (hb : B.testBit 26 = false) : t.gov = r.gov := by
  induction h with
  | refl => rfl
  | rest _ e ih => exact (e.gov hb).trans ih
  | _ => assumption

theorem Upd.med (h : Upd B r t) (hb : B.testBit 27 = false) : t.med = r.med := by
  induction h with
  | refl => rfl
  | rest _ e ih => exact (e.med hb).trans ih
  | _ => assumption

theorem Upd.sec (h : Upd B r t) (hb : B.testBit 28 = false) : t.sec = r.sec := by
  induction h with
  | refl => rfl
  | rest _ e ih => exact (e.sec hb).trans ih
  | _ => assumption

theorem Upd.memp (h : Upd B r t) (hb : B.testBit 29 = false) : t.memp = r.memp := by
  induction h with
  | refl => rfl
  | rest _ e ih => exact (e.memp hb).trans ih
  | _ => assumption

theorem Upd.dram (h : Upd B r t) (hb : B.testBit 30 = false) : t.dram = r.dram := by
  induction h with
  | refl => rfl
  | rest _ e ih => exact (e.dram hb).trans ih
  | _ => assumption
end

end Sys2Proof.Machine
end

