-- ==== Sys2Proof/Laws/UpdOps.lean ====
section
/-! SUPPORT. What the functions of Machine/Ops.lean can change (Laws/Upd.lean). -/
namespace Sys2Proof.Machine
variable {B : Nat} {r s : State}

theorem upd_bump (f) (u) (h : Upd B r s) (hB : within 16 B) : Upd B r (State.bump s f u) := by
  unfold State.bump
  repeat' first
    | exact within_trans (by decide) hB
    | with_reducible assumption
    | with_reducible apply Upd.field

theorem upd_countMiss (c) (h : Upd B r s) (hB : within 16 B) : Upd B r (State.countMiss s c) := by
  unfold State.countMiss
  repeat' first
    | exact within_trans (by decide) hB
    | with_reducible assumption
    | with_reducible apply upd_bump
    | split

theorem upd_dropCmd (fsn) (h : Upd B r s) (hB : within 1245184 B) : Upd B r (State.dropCmd s fsn) := by
  unfold State.dropCmd
  repeat' first
    | exact within_trans (by decide) hB
    | with_reducible assumption
    | with_reducible apply upd_onMap
    | with_reducible apply upd_onLocks
    | with_reducible apply upd_onHif

theorem upd_complete (fsn) (st) (dw0) (data) (dw1) (h : Upd B r s) (hB : within 1245202 B) : Upd B r (State.complete s fsn st dw0 data dw1) := by
  unfold State.complete
  repeat' first
    | exact within_trans (by decide) hB
    | with_reducible assumption
    | with_reducible apply upd_countMiss
    | with_reducible apply upd_dropCmd
    | with_reducible apply Upd.sent
    | with_reducible apply upd_onHif
    | (extract_lets +onlyGivenNames x; refine upd_let (B := B) (r := r) (x := x) ?_ (fun hx => ?_); rotate_left; clear_value x; revert x; intro _ _; rotate_left; unfold x; clear x)
    | split

theorem upd_raiseEvt (f) (cnt) (u) (h : Upd B r s) (hB : within 16 B) : Upd B r (State.raiseEvt s f cnt u) := by
  unfold State.raiseEvt
  repeat' first
    | exact within_trans (by decide) hB
    | with_reducible assumption
    | with_reducible apply Upd.field

theorem upd_takeStamp (unit) (h : Upd B r s) (hB : within 1024 B) : Upd B r (State.takeStamp s unit) := by
  unfold State.takeStamp
  repeat' first
    | exact within_trans (by decide) hB
    | with_reducible assumption
    | with_reducible apply upd_onStamps

theorem upd_assertFault (code) (h : Upd B r s) (hB : within 4098 B) : Upd B r (State.assertFault s code) := by
  unfold State.assertFault
  repeat' first
    | exact within_trans (by decide) hB
    | with_reducible assumption
    | with_reducible apply Upd.sent
    | with_reducible apply upd_onFlt

theorem upd_raiseFault (code) (unit) (detail) (fsn) (h : Upd B r s) (hB : within 5122 B) : Upd B r (State.raiseFault s code unit detail fsn) := by
  unfold State.raiseFault
  repeat' first
    | exact within_trans (by decide) hB
    | with_reducible assumption
    | with_reducible apply upd_takeStamp
    | with_reducible apply upd_assertFault
    | with_reducible apply upd_onFlt
    | split

theorem upd_onNs (n) (f) (h : Upd B r s) (hB : within 262144 B) : Upd B r (State.onNs s n f) := by
  unfold State.onNs
  repeat' first
    | exact within_trans (by decide) hB
    | with_reducible assumption
    | with_reducible apply upd_onNss

theorem upd_unlock (fsn) (h : Upd B r s) (hB : within 131072 B) : Upd B r (State.unlock s fsn) := by
  unfold State.unlock
  repeat' first
    | exact within_trans (by decide) hB
    | with_reducible assumption
    | with_reducible apply upd_onLocks

theorem upd_onCmd (fsn) (f) (h : Upd B r s) (hB : within 65536 B) : Upd B r (State.onCmd s fsn f) := by
  unfold State.onCmd
  repeat' first
    | exact within_trans (by decide) hB
    | with_reducible assumption
    | with_reducible apply upd_onHif
    | with_reducible refine updO_map _ ?_
    | with_reducible refine updOP_map _ ?_
    | with_reducible refine updOPP_map _ ?_

theorem upd_onCtrl (fn) (f) (h : Upd B r s) (hB : within 65536 B) : Upd B r (State.onCtrl s fn f) := by
  unfold State.onCtrl
  repeat' first
    | exact within_trans (by decide) hB
    | with_reducible assumption
    | with_reducible apply upd_onHif

theorem upd_onUnit (a) (f) (h : Upd B r s) (hB : within 256 B) : Upd B r (State.onUnit s a f) := by
  unfold State.onUnit
  repeat' first
    | exact within_trans (by decide) hB
    | with_reducible assumption
    | with_reducible apply upd_onUnits

theorem upd_storeFld (f) (u) (v) (h : Upd B r s) (hB : within 16 B) : Upd B r (State.storeFld s f u v) := by
  unfold State.storeFld
  repeat' first
    | exact within_trans (by decide) hB
    | with_reducible assumption
    | with_reducible apply Upd.field
    | split

theorem upd_storeReg (y_r) (u) (v) (h : Upd B r s) (hB : within 16 B) : UpdO B r (State.storeReg s y_r u v) := by
  unfold State.storeReg
  repeat' first
    | exact within_trans (by decide) hB
    | with_reducible assumption
    | with_reducible refine updO_some ?_
    | exact updO_none
    | with_reducible apply upd_storeFld
    | with_reducible refine upd_foldl _ ?_ ?_
    | with_reducible intro _ _ _
    | split

theorem upd_storeAt (addr) (u) (v) (h : Upd B r s) (hB : within 16 B) : Upd B r (State.storeAt s addr u v) := by
  unfold State.storeAt
  repeat' first
    | exact within_trans (by decide) hB
    | with_reducible assumption
    | with_reducible refine UpdO.getD ?_ ?_
    | with_reducible apply upd_storeReg
    | split

theorem upd_aenTo (fn) (a) (h : Upd B r s) (hB : within 1245202 B) : Upd B r (State.aenTo s fn a) := by
  unfold State.aenTo
  repeat' first
    | exact within_trans (by decide) hB
    | with_reducible assumption
    | with_reducible apply upd_onCtrl
    | with_reducible apply upd_complete
    | split

theorem upd_aenAll (a) (h : Upd B r s) (hB : within 1245202 B) : Upd B r (State.aenAll s a) := by
  unfold State.aenAll
  repeat' first
    | exact within_trans (by decide) hB
    | with_reducible assumption
    | with_reducible apply upd_aenTo
    | with_reducible refine upd_foldl _ ?_ ?_
    | with_reducible intro _ _ _

theorem upd_logPut (d) (h : Upd B r s) (hB : within 24576 B) : Upd B r (State.logPut s d) := by
  unfold State.logPut
  exact upd_onLog _ (Upd.bytes (fun _ => _) (fun _ => d) h (within_trans (by decide) hB)) (within_trans (by decide) hB)

theorem upd_logRoom (n k) (h : Upd B r s) (hB : within 8192 B) : Upd B r (State.logRoom s n k) := by
  induction k generalizing s with
  | zero => exact h
  | succ k ih =>
    unfold State.logRoom
    split
    · exact h
    · exact ih (upd_onLog _ h (within_trans (by decide) hB))

theorem upd_logPad (len) (h : Upd B r s) (hB : within 24576 B) : Upd B r (State.logPad s len) := by
  unfold State.logPad
  repeat' first
    | exact within_trans (by decide) hB
    | with_reducible assumption
    | with_reducible apply upd_logPut
    | with_reducible apply upd_logRoom
    | (extract_lets +onlyGivenNames x; clear_value x; revert x; intro _)
    | split

theorem upd_logWrite (cls) (typ) (unit) (stamp) (len) (body) (h : Upd B r s) (hB : within 24576 B) : Upd B r (State.logWrite s cls typ unit stamp len body) := by
  unfold State.logWrite
  repeat' first
    | exact within_trans (by decide) hB
    | with_reducible assumption
    | with_reducible apply upd_logPad
    | with_reducible apply upd_logRoom
    | with_reducible apply upd_logPut
    | with_reducible apply upd_onLog

theorem upd_logRec (cls) (typ) (unit) (len) (body) (h : Upd B r s) (hB : within 25600 B) : Upd B r (State.logRec s cls typ unit len body) := by
  unfold State.logRec
  repeat' first
    | exact within_trans (by decide) hB
    | with_reducible assumption
    | with_reducible apply upd_logWrite
    | with_reducible apply upd_takeStamp

theorem upd_logState (kind) (frm) (dst) (h : Upd B r s) (hB : within 25600 B) : Upd B r (State.logState s kind frm dst) := by
  unfold State.logState
  repeat' first
    | exact within_trans (by decide) hB
    | with_reducible assumption
    | with_reducible apply upd_logRec

theorem upd_charge (arb) (tid) (kind) (work) (h : Upd B r s) (hB : within 32768 B) : Upd B r (State.charge s arb tid kind work) := by
  unfold State.charge
  repeat' first
    | exact within_trans (by decide) hB
    | with_reducible assumption
    | with_reducible apply upd_onSched

theorem upd_markReady (tid) (kind) (h : Upd B r s) (hB : within 32768 B) : Upd B r (State.markReady s tid kind) := by
  unfold State.markReady
  repeat' first
    | exact within_trans (by decide) hB
    | with_reducible assumption
    | with_reducible apply upd_onSched

theorem upd_miChange (k) (h : Upd B r s) (hB : within 65536 B) : Upd B r (State.miChange s k) := by
  unfold State.miChange
  repeat' first
    | exact within_trans (by decide) hB
    | with_reducible assumption
    | with_reducible apply upd_onHif

theorem upd_setFlag (f) (b) (u) (h : Upd B r s) (hB : within 16 B) : Upd B r (State.setFlag s f b u) := by
  unfold State.setFlag
  repeat' first
    | exact within_trans (by decide) hB
    | with_reducible assumption
    | with_reducible apply Upd.field

end Sys2Proof.Machine
end

