-- ==== Sys2Proof/Laws/UpdUnits.lean ====
section
/-! SUPPORT. What the functions of Machine/Units.lean can change (Laws/Upd.lean). -/
namespace Sys2Proof.Machine
variable {B : Nat} {r s : State}

theorem upd_accFault (acc) (addr) (h : Upd B r s) (hB : within 16 B) : Upd B r (State.accFault s acc addr) := by
  unfold State.accFault
  repeat' first
    | exact within_trans (by decide) hB
    | with_reducible assumption
    | with_reducible apply Upd.field
    | with_reducible apply upd_raiseEvt

theorem upd_giveQueue (but) (q) (h : Upd B r s) (hB : within 65536 B) : Upd B r (State.giveQueue s but q) := by
  unfold State.giveQueue
  repeat' first
    | exact within_trans (by decide) hB
    | with_reducible assumption
    | with_reducible apply upd_onHif
    | with_reducible intro _ _ _ _
    | with_reducible intro _ _ _
    | with_reducible intro _ _
    | split

theorem upd_moveHe (n) (h : Upd B r s) (hB : within 65536 B) : Upd B r (State.moveHe s n) := by
  unfold State.moveHe
  repeat' first
    | exact within_trans (by decide) hB
    | with_reducible assumption
    | with_reducible apply upd_giveQueue
    | with_reducible refine upd_foldl _ ?_ ?_
    | with_reducible intro _ _ _ _
    | with_reducible intro _ _ _
    | with_reducible intro _ _

theorem upd_adoptFrom (failed) (g) (h : Upd B r s) (hB : within 5378 B) : Upd B r (State.adoptFrom s failed g) := by
  unfold State.adoptFrom
  repeat' first
    | exact within_trans (by decide) hB
    | with_reducible assumption
    | with_reducible apply upd_raiseFault
    | with_reducible apply upd_onUnit
    | split

theorem upd_moveMe (n) (h : Upd B r s) (hB : within 5378 B) : Upd B r (State.moveMe s n) := by
  unfold State.moveMe
  repeat' first
    | exact within_trans (by decide) hB
    | with_reducible assumption
    | with_reducible apply upd_adoptFrom
    | with_reducible apply upd_raiseFault
    | with_reducible refine upd_foldl _ ?_ ?_
    | with_reducible intro _ _ _
    | split

theorem upd_moveFe (n) (h : Upd B r s) (hB : within 34799634 B) : Upd B r (State.moveFe s n) := by
  unfold State.moveFe
  repeat' first
    | exact within_trans (by decide) hB
    | with_reducible assumption
    | with_reducible apply upd_complete
    | with_reducible apply upd_onPrg
    | with_reducible refine updO_map _ ?_
    | with_reducible refine updOP_map _ ?_
    | with_reducible refine updOPP_map _ ?_
    | with_reducible refine upd_foldl _ ?_ ?_
    | with_reducible intro _ _ _
    | split

theorem upd_moveWork (a) (h : Upd B r s) (hB : within 34805010 B) : Upd B r (State.moveWork s a) := by
  unfold State.moveWork
  repeat' first
    | exact within_trans (by decide) hB
    | with_reducible assumption
    | with_reducible apply upd_moveHe
    | with_reducible apply upd_moveMe
    | with_reducible apply upd_moveFe
    | with_reducible apply upd_raiseFault
    | (extract_lets +onlyGivenNames x; clear_value x; revert x; intro _)
    | split

theorem upd_fenceUnit (a) (h : Upd B r s) (hB : within 34805010 B) : Upd B r (State.fenceUnit s a) := by
  unfold State.fenceUnit
  repeat' first
    | exact within_trans (by decide) hB
    | with_reducible assumption
    | with_reducible apply upd_moveWork
    | with_reducible apply upd_onUnit

theorem upd_unitResetParts (a) (h : Upd B r s) (hB : within 1512116352 B) : Upd B r (State.unitResetParts s a) := by
  unfold State.unitResetParts
  repeat' first
    | exact within_trans (by decide) hB
    | with_reducible assumption
    | with_reducible apply upd_onMed
    | with_reducible apply upd_onPrg
    | with_reducible apply upd_onHiLatch
    | with_reducible apply upd_onFlt
    | with_reducible apply upd_onSec
    | with_reducible apply upd_onDram
    | with_reducible apply upd_onHif
    | with_reducible apply upd_onLnd
    | (extract_lets +onlyGivenNames x; refine upd_let (B := B) (r := r) (x := x) ?_ (fun hx => ?_); rotate_left; clear_value x; revert x; intro _ _; rotate_left; unfold x; clear x)
    | (extract_lets +onlyGivenNames x; clear_value x; revert x; intro _)
    | with_reducible intro _ _ _ _
    | with_reducible intro _ _ _
    | with_reducible intro _ _
    | split

theorem upd_unitResetRegs (a) (h : Upd B r s) (hB : within 272 B) : Upd B r (State.unitResetRegs s a) := by
  unfold State.unitResetRegs
  exact upd_onUnit _ _ (Upd.forget (fun k => !ownField a k) h (within_trans (by decide) hB)) (within_trans (by decide) hB)

theorem upd_beginOp (a) (op) (arg) (h : Upd B r s) (hB : within 1513297810 B) : Upd B r (State.beginOp s a op arg) := by
  unfold State.beginOp
  repeat' first
    | exact within_trans (by decide) hB
    | with_reducible assumption
    | with_reducible apply upd_fenceUnit
    | with_reducible apply upd_raiseFault
    | with_reducible apply upd_onUnit
    | with_reducible apply upd_unitResetParts
    | with_reducible apply upd_unitResetRegs
    | with_reducible apply upd_onRetRec
    | split

theorem upd_issueOp (a) (op) (arg) (fsn) (h : Upd B r s) (hB : within 1513297810 B) : Upd B r (State.issueOp s a op arg fsn) := by
  unfold State.issueOp
  repeat' first
    | exact within_trans (by decide) hB
    | with_reducible assumption
    | with_reducible apply upd_onUnit
    | with_reducible apply upd_beginOp
    | split

theorem upd_writeUnitCmd (acc) (a) (op) (arg) (h : Upd B r s) (hB : within 1513297810 B) : Upd B r (State.writeUnitCmd s acc a op arg) := by
  unfold State.writeUnitCmd
  repeat' first
    | exact within_trans (by decide) hB
    | with_reducible assumption
    | with_reducible apply upd_accFault
    | with_reducible apply upd_raiseEvt
    | with_reducible apply upd_issueOp
    | with_reducible apply upd_onUnit
    | split

theorem upd_adoptOrphans (h : Upd B r s) (hB : within 5378 B) : Upd B r (State.adoptOrphans s) := by
  unfold State.adoptOrphans
  repeat' first
    | exact within_trans (by decide) hB
    | with_reducible assumption
    | with_reducible apply upd_adoptFrom
    | with_reducible refine upd_foldl _ ?_ ?_
    | with_reducible intro _ _ _ _
    | with_reducible intro _ _ _
    | with_reducible intro _ _
    | split

theorem upd_drainTimeout (a) (h : Upd B r s) (hB : within 256 B) : Upd B r (State.drainTimeout s a) := by
  unfold State.drainTimeout
  repeat' first
    | exact within_trans (by decide) hB
    | with_reducible assumption
    | with_reducible apply upd_onUnit
    | split

theorem upd_endOp (a) (pass) (h : Upd B r s) (hB : within 5378 B) : Upd B r (State.endOp s a pass) := by
  unfold State.endOp
  repeat' first
    | exact within_trans (by decide) hB
    | with_reducible assumption
    | with_reducible apply upd_onUnit
    | with_reducible apply upd_raiseFault
    | split

theorem upd_finishUnitCmd (a) (h : Upd B r s) (hB : within 1245458 B) : Upd B r (State.finishUnitCmd s a) := by
  unfold State.finishUnitCmd
  repeat' first
    | exact within_trans (by decide) hB
    | with_reducible assumption
    | with_reducible apply upd_onUnit
    | with_reducible apply upd_complete
    | split

theorem upd_moveQueues (h : Upd B r s) (hB : within 65536 B) : Upd B r (State.moveQueues s) := by
  unfold State.moveQueues
  repeat' first
    | exact within_trans (by decide) hB
    | with_reducible assumption
    | with_reducible apply upd_moveHe
    | with_reducible refine upd_foldl _ ?_ ?_
    | with_reducible intro _ _ _ _
    | with_reducible intro _ _ _
    | with_reducible intro _ _
    | split

theorem upd_unitOpRow (acc) (unit) (arg) (op) (h : Upd B r s) (hB : within 1513297810 B) : UpdOut B r (unitOpRow acc unit arg op s) := by
  unfold unitOpRow
  repeat' first
    | exact within_trans (by decide) hB
    | with_reducible assumption
    | with_reducible refine updOut_next ?_
    | exact updOut_fault _
    | with_reducible apply upd_writeUnitCmd

theorem upd_execFence (acc) (unit) (arg) (h : Upd B r s) (hB : within 1513297810 B) : UpdOut B r (execFence acc unit arg s) := by
  unfold execFence
  repeat' first
    | exact within_trans (by decide) hB
    | with_reducible assumption
    | with_reducible apply upd_unitOpRow

theorem upd_execUnitReset (acc) (unit) (arg) (h : Upd B r s) (hB : within 1513297810 B) : UpdOut B r (execUnitReset acc unit arg s) := by
  unfold execUnitReset
  repeat' first
    | exact within_trans (by decide) hB
    | with_reducible assumption
    | with_reducible apply upd_unitOpRow

theorem upd_execDrain (acc) (unit) (arg) (h : Upd B r s) (hB : within 1513297810 B) : UpdOut B r (execDrain acc unit arg s) := by
  unfold execDrain
  repeat' first
    | exact within_trans (by decide) hB
    | with_reducible assumption
    | with_reducible apply upd_unitOpRow

theorem upd_execResume (acc) (unit) (arg) (h : Upd B r s) (hB : within 1513297810 B) : UpdOut B r (execResume acc unit arg s) := by
  unfold execResume
  repeat' first
    | exact within_trans (by decide) hB
    | with_reducible assumption
    | with_reducible apply upd_unitOpRow

theorem upd_execAdopt (acc) (unit) (arg) (h : Upd B r s) (hB : within 1513297810 B) : UpdOut B r (execAdopt acc unit arg s) := by
  unfold execAdopt
  repeat' first
    | exact within_trans (by decide) hB
    | with_reducible assumption
    | with_reducible apply upd_unitOpRow

theorem upd_execRelease (acc) (unit) (arg) (h : Upd B r s) (hB : within 1513297810 B) : UpdOut B r (execRelease acc unit arg s) := by
  unfold execRelease
  repeat' first
    | exact within_trans (by decide) hB
    | with_reducible assumption
    | with_reducible apply upd_unitOpRow

theorem upd_execSelftest (acc) (unit) (arg) (h : Upd B r s) (hB : within 1513297810 B) : UpdOut B r (execSelftest acc unit arg s) := by
  unfold execSelftest
  repeat' first
    | exact within_trans (by decide) hB
    | with_reducible assumption
    | with_reducible apply upd_unitOpRow

theorem upd_execRetire (acc) (unit) (arg) (h : Upd B r s) (hB : within 1513297810 B) : UpdOut B r (execRetire acc unit arg s) := by
  unfold execRetire
  repeat' first
    | exact within_trans (by decide) hB
    | with_reducible assumption
    | with_reducible apply upd_unitOpRow

theorem upd_execDrainTimeout (unit) (h : Upd B r s) (hB : within 1245458 B) : UpdOut B r (execDrainTimeout unit s) := by
  unfold execDrainTimeout
  repeat' first
    | exact within_trans (by decide) hB
    | with_reducible assumption
    | with_reducible refine updOut_next ?_
    | exact updOut_fault _
    | with_reducible apply upd_finishUnitCmd
    | with_reducible apply upd_drainTimeout

end Sys2Proof.Machine
end

