-- ==== Sys2Proof/Laws/UpdFaults.lean ====
section
/-! SUPPORT. What the functions of Machine/Faults.lean can change (Laws/Upd.lean). -/
namespace Sys2Proof.Machine
variable {B : Nat} {r s : State}

theorem upd_logRdData (acc) (h : Upd B r s) (hB : within 16 B) : UpdP B r (State.logRdData s acc) := by
  unfold State.logRdData
  repeat' first
    | exact within_trans (by decide) hB
    | with_reducible assumption
    | with_reducible refine updP_mk _ ?_
    | with_reducible apply Upd.field
    | with_reducible refine updO_map _ ?_
    | with_reducible refine updOP_map _ ?_
    | with_reducible refine updOPP_map _ ?_

theorem upd_logSubmit (acc) (v) (h : Upd B r s) (hB : within 9232 B) : Upd B r (State.logSubmit s acc v) := by
  unfold State.logSubmit
  repeat' first
    | exact within_trans (by decide) hB
    | with_reducible assumption
    | with_reducible apply upd_raiseEvt
    | with_reducible apply upd_takeStamp
    | with_reducible apply upd_onLog
    | (extract_lets +onlyGivenNames x; clear_value x; revert x; intro _)
    | split

theorem upd_armExpiry (h : Upd B r s) (hB : within 4096 B) : Upd B r (State.armExpiry s) := by
  unfold State.armExpiry
  repeat' first
    | exact within_trans (by decide) hB
    | with_reducible assumption
    | with_reducible apply upd_onFlt
    | split

theorem upd_beginHalt (code) (h : Upd B r s) (hB : within 69632 B) : Upd B r (State.beginHalt s code) := by
  unfold State.beginHalt
  repeat' first
    | exact within_trans (by decide) hB
    | with_reducible assumption
    | with_reducible apply upd_onHif
    | with_reducible apply upd_onFlt
    | split

theorem upd_coreDown (h : Upd B r s) (hB : within 16777218 B) : Upd B r (State.coreDown s) := by
  unfold State.coreDown
  repeat' first
    | exact within_trans (by decide) hB
    | with_reducible assumption
    | with_reducible apply Upd.sent
    | with_reducible apply upd_onLvl
    | (extract_lets +onlyGivenNames x; refine upd_let (B := B) (r := r) (x := x) ?_ (fun hx => ?_); rotate_left; clear_value x; revert x; intro _ _; rotate_left; unfold x; clear x)
    | (extract_lets +onlyGivenNames x; clear_value x; revert x; intro _)
    | split

theorem upd_clearReliability (h : Upd B r s) (hB : within 65536 B) : Upd B r (State.clearReliability s) := by
  unfold State.clearReliability
  repeat' first
    | exact within_trans (by decide) hB
    | with_reducible assumption
    | with_reducible apply upd_onHif
    | split

theorem upd_publishSub (b) (h : Upd B r s) (hB : within 24576 B) : Upd B r (State.publishSub s b) := by
  unfold State.publishSub
  repeat' first
    | exact within_trans (by decide) hB
    | with_reducible assumption
    | with_reducible apply upd_logWrite
    | split

theorem upd_publishSubs (h : Upd B r s) (hB : within 24576 B) : Upd B r (State.publishSubs s) := by
  unfold State.publishSubs
  repeat' first
    | exact within_trans (by decide) hB
    | with_reducible assumption
    | with_reducible apply upd_publishSub
    | with_reducible apply upd_onLog
    | with_reducible refine upd_foldl _ ?_ ?_
    | with_reducible intro _ _ _ _
    | with_reducible intro _ _ _
    | with_reducible intro _ _

theorem upd_evtClass (k) (h : Upd B r s) (hB : within 16 B) : Upd B r (State.evtClass s k) := by
  unfold State.evtClass
  repeat' first
    | exact within_trans (by decide) hB
    | with_reducible assumption
    | with_reducible apply upd_raiseEvt
    | split

theorem upd_logF0 (e) (h : Upd B r s) (hB : within 24576 B) : Upd B r (State.logF0 s e) := by
  unfold State.logF0
  repeat' first
    | exact within_trans (by decide) hB
    | with_reducible assumption
    | with_reducible apply upd_logWrite
    | with_reducible apply upd_onLog
    | (extract_lets +onlyGivenNames x; clear_value x; revert x; intro _)
    | split

theorem upd_setReliability (h : Upd B r s) (hB : within 65536 B) : Upd B r (State.setReliability s) := by
  unfold State.setReliability
  repeat' first
    | exact within_trans (by decide) hB
    | with_reducible assumption
    | with_reducible apply upd_onHif
    | split

theorem upd_takeFault (e) (h : Upd B r s) (hB : within 1274130 B) : Upd B r (State.takeFault s e) := by
  unfold State.takeFault
  repeat' first
    | exact within_trans (by decide) hB
    | with_reducible assumption
    | with_reducible apply upd_onUnit
    | with_reducible apply upd_evtClass
    | with_reducible apply upd_logF0
    | with_reducible apply upd_logWrite
    | with_reducible apply upd_setReliability
    | with_reducible apply upd_aenAll
    | with_reducible apply upd_beginHalt
    | with_reducible apply upd_onFlt
    | (extract_lets +onlyGivenNames x; refine upd_let (B := B) (r := r) (x := x) ?_ (fun hx => ?_); rotate_left; clear_value x; revert x; intro _ _; rotate_left; unfold x; clear x)
    | (extract_lets +onlyGivenNames x; clear_value x; revert x; intro _)
    | split

theorem upd_collect (h : Upd B r s) (hB : within 1274130 B) : Upd B r (State.collect s) := by
  unfold State.collect
  repeat' first
    | exact within_trans (by decide) hB
    | with_reducible assumption
    | with_reducible apply upd_clearReliability
    | with_reducible apply upd_publishSubs
    | with_reducible apply upd_takeFault
    | with_reducible apply upd_onFlt
    | (extract_lets +onlyGivenNames x; refine upd_let (B := B) (r := r) (x := x) ?_ (fun hx => ?_); rotate_left; clear_value x; revert x; intro _ _; rotate_left; unfold x; clear x)
    | split

theorem upd_countTj (k) (t) (h : Upd B r s) (hB : within 4096 B) : Upd B r (State.countTj s k t) := by
  unfold State.countTj
  repeat' first
    | exact within_trans (by decide) hB
    | with_reducible assumption
    | with_reducible apply upd_onFlt

theorem upd_endPulse (h : Upd B r s) (hB : within 4098 B) : Upd B r (State.endPulse s) := by
  unfold State.endPulse
  repeat' first
    | exact within_trans (by decide) hB
    | with_reducible assumption
    | with_reducible apply Upd.sent
    | with_reducible apply upd_onFlt
    | split

theorem upd_logRepeat (key) (n) (h : Upd B r s) (hB : within 25600 B) : Upd B r (State.logRepeat s key n) := by
  unfold State.logRepeat
  repeat' first
    | exact within_trans (by decide) hB
    | with_reducible assumption
    | with_reducible apply upd_logRec

theorem upd_endSecond (h : Upd B r s) (hB : within 25600 B) : Upd B r (State.endSecond s) := by
  unfold State.endSecond
  repeat' first
    | exact within_trans (by decide) hB
    | with_reducible assumption
    | with_reducible apply upd_logRepeat
    | with_reducible apply upd_onLog
    | with_reducible refine upd_foldl _ ?_ ?_
    | with_reducible intro _ _ _

theorem upd_junction (k) (h : Upd B r s) (hB : within 67113986 B) : Upd B r (State.junction s k) := by
  unfold State.junction
  repeat' first
    | exact within_trans (by decide) hB
    | with_reducible assumption
    | with_reducible apply upd_raiseFault
    | with_reducible apply upd_onFlt
    | with_reducible apply upd_onGov
    | (extract_lets +onlyGivenNames x; refine upd_let (B := B) (r := r) (x := x) ?_ (fun hx => ?_); rotate_left; clear_value x; revert x; intro _ _; rotate_left; unfold x; clear x)
    | split

theorem upd_regCycle (h : Upd B r s) (hB : within 4098 B) : Upd B r (State.regCycle s) := by
  unfold State.regCycle
  repeat' first
    | exact within_trans (by decide) hB
    | with_reducible assumption
    | with_reducible apply Upd.sent
    | with_reducible apply upd_onFlt
    | split

theorem upd_regRelease (h : Upd B r s) (hB : within 4098 B) : Upd B r (State.regRelease s) := by
  unfold State.regRelease
  repeat' first
    | exact within_trans (by decide) hB
    | with_reducible assumption
    | with_reducible apply Upd.sent
    | with_reducible apply upd_onFlt
    | split

theorem upd_timeMark (h : Upd B r s) (hB : within 2048 B) : Upd B r (State.timeMark s) := by
  unfold State.timeMark
  repeat' first
    | exact within_trans (by decide) hB
    | with_reducible assumption
    | with_reducible apply upd_onTime

theorem upd_execFaultCollect (h : Upd B r s) (hB : within 1274130 B) : UpdOut B r (execFaultCollect s) := by
  unfold execFaultCollect
  repeat' first
    | exact within_trans (by decide) hB
    | with_reducible assumption
    | with_reducible refine updOut_next ?_
    | with_reducible apply upd_collect

theorem upd_execFaultPulseEnd (h : Upd B r s) (hB : within 4098 B) : UpdOut B r (execFaultPulseEnd s) := by
  unfold execFaultPulseEnd
  repeat' first
    | exact within_trans (by decide) hB
    | with_reducible assumption
    | with_reducible refine updOut_next ?_
    | with_reducible apply upd_endPulse

theorem upd_execJunctionOverTemperature (sensor) (h : Upd B r s) (hB : within 67113986 B) : UpdOut B r (execJunctionOverTemperature sensor s) := by
  unfold execJunctionOverTemperature
  repeat' first
    | exact within_trans (by decide) hB
    | with_reducible assumption
    | with_reducible refine updOut_next ?_
    | with_reducible apply upd_junction

theorem upd_execRegCycleAssert (h : Upd B r s) (hB : within 4098 B) : UpdOut B r (execRegCycleAssert s) := by
  unfold execRegCycleAssert
  repeat' first
    | exact within_trans (by decide) hB
    | with_reducible assumption
    | with_reducible refine updOut_next ?_
    | with_reducible apply upd_regCycle

theorem upd_execRegCycleRelease (h : Upd B r s) (hB : within 4098 B) : UpdOut B r (execRegCycleRelease s) := by
  unfold execRegCycleRelease
  repeat' first
    | exact within_trans (by decide) hB
    | with_reducible assumption
    | with_reducible refine updOut_next ?_
    | with_reducible apply upd_regRelease

theorem upd_execColdResetArmExpiry (h : Upd B r s) (hB : within 4096 B) : UpdOut B r (execColdResetArmExpiry s) := by
  unfold execColdResetArmExpiry
  repeat' first
    | exact within_trans (by decide) hB
    | with_reducible assumption
    | with_reducible refine updOut_next ?_
    | with_reducible apply upd_armExpiry

theorem upd_execDeviceTimeMark (h : Upd B r s) (hB : within 2048 B) : UpdOut B r (execDeviceTimeMark s) := by
  unfold execDeviceTimeMark
  repeat' first
    | exact within_trans (by decide) hB
    | with_reducible assumption
    | with_reducible refine updOut_next ?_
    | with_reducible apply upd_timeMark

theorem upd_execLogRecordSubmit (acc) (val) (h : Upd B r s) (hB : within 9232 B) : UpdOut B r (execLogRecordSubmit acc val s) := by
  unfold execLogRecordSubmit
  repeat' first
    | exact within_trans (by decide) hB
    | with_reducible assumption
    | with_reducible refine updOut_next ?_
    | with_reducible apply upd_logSubmit

theorem upd_execRepeatRecord (h : Upd B r s) (hB : within 25600 B) : UpdOut B r (execRepeatRecord s) := by
  unfold execRepeatRecord
  repeat' first
    | exact within_trans (by decide) hB
    | with_reducible assumption
    | with_reducible refine updOut_next ?_
    | with_reducible apply upd_endSecond

theorem upd_execLogRdDataRead (acc) (h : Upd B r s) (hB : within 18 B) : UpdOut B r (execLogRdDataRead acc s) := by
  unfold execLogRdDataRead
  repeat' first
    | exact within_trans (by decide) hB
    | with_reducible assumption
    | with_reducible refine updOut_next ?_
    | with_reducible refine UpdP.snd (upd_logRdData (h := ?_) (hB := ?_) ..)
    | with_reducible apply Upd.sent

end Sys2Proof.Machine
end

