-- ==== Sys2Proof/Laws/UpdSched.lean ====
section
/-! SUPPORT. What the functions of Machine/Sched.lean can change (Laws/Upd.lean). -/
namespace Sys2Proof.Machine
variable {B : Nat} {r s : State}

theorem upd_cfgErr (h : Upd B r s) (hB : within 16 B) : Upd B r (State.cfgErr s) := by
  unfold State.cfgErr
  repeat' first
    | exact within_trans (by decide) hB
    | with_reducible assumption
    | with_reducible apply upd_raiseEvt

theorem upd_applyShares (h : Upd B r s) (hB : within 32784 B) : Upd B r (State.applyShares s) := by
  unfold State.applyShares
  repeat' first
    | exact within_trans (by decide) hB
    | with_reducible assumption
    | with_reducible apply upd_cfgErr
    | with_reducible apply upd_onSched
    | split

theorem upd_weightWrite (acc) (w) (h : Upd B r s) (hB : within 32784 B) : Upd B r (State.weightWrite s acc w) := by
  unfold State.weightWrite
  repeat' first
    | exact within_trans (by decide) hB
    | with_reducible assumption
    | with_reducible apply upd_cfgErr
    | with_reducible apply upd_onSched
    | split

theorem upd_lookAt (arb) (l) (h : Upd B r s) (hB : within 32768 B) : Upd B r (State.lookAt s arb l) := by
  unfold State.lookAt
  repeat' first
    | exact within_trans (by decide) hB
    | with_reducible assumption
    | with_reducible apply upd_onSched
    | with_reducible intro _ _ _ _
    | with_reducible intro _ _ _
    | with_reducible intro _ _

theorem upd_chargeAt (arb) (y_r) (cls) (tid) (work) (h : Upd B r s) (hB : within 32768 B) : Upd B r (State.chargeAt s arb y_r cls tid work) := by
  unfold State.chargeAt
  repeat' first
    | exact within_trans (by decide) hB
    | with_reducible assumption
    | with_reducible apply upd_markReady
    | with_reducible apply upd_charge
    | with_reducible apply upd_onSched
    | (extract_lets +onlyGivenNames x; refine upd_let (B := B) (r := r) (x := x) ?_ (fun hx => ?_); rotate_left; clear_value x; revert x; intro _ _; rotate_left; unfold x; clear x)
    | (extract_lets +onlyGivenNames x; clear_value x; revert x; intro _)
    | with_reducible intro _ _ _ _
    | with_reducible intro _ _ _
    | with_reducible intro _ _
    | split

theorem upd_grantDma (p k) (h : Upd B r s) (hB : within 98304 B) : Upd B r (State.grantDma s p k) := by
  induction k generalizing s with
  | zero => exact h
  | succ k ih =>
    unfold State.grantDma
    repeat' first
      | exact within_trans (by decide) hB
      | with_reducible assumption
      | apply ih
      | with_reducible apply upd_lookAt
      | with_reducible apply upd_chargeAt
      | with_reducible apply upd_onCmd
      | with_reducible apply upd_onSched
      | (extract_lets +onlyGivenNames x; refine upd_let (B := B) (r := r) (x := x) ?_ (fun hx => ?_); rotate_left; clear_value x; revert x; intro _ _; rotate_left; unfold x; clear x)
      | (extract_lets +onlyGivenNames x; clear_value x; revert x; intro _)
      | split

theorem upd_publishGrants (h : Upd B r s) (hB : within 32768 B) : Upd B r (State.publishGrants s) := by
  unfold State.publishGrants
  repeat' first
    | exact within_trans (by decide) hB
    | with_reducible assumption
    | with_reducible apply upd_onSched
    | (extract_lets +onlyGivenNames x; refine upd_let (B := B) (r := r) (x := x) ?_ (fun hx => ?_); rotate_left; clear_value x; revert x; intro _ _; rotate_left; unfold x; clear x)
    | (extract_lets +onlyGivenNames x; clear_value x; revert x; intro _)
    | with_reducible intro _ _ _ _
    | with_reducible intro _ _ _
    | with_reducible intro _ _
    | split

theorem upd_markAllReady (h : Upd B r s) (hB : within 32768 B) : Upd B r (State.markAllReady s) := by
  unfold State.markAllReady
  repeat' first
    | exact within_trans (by decide) hB
    | with_reducible assumption
    | with_reducible apply upd_markReady
    | with_reducible refine upd_foldl _ ?_ ?_
    | with_reducible intro _ _ _

theorem upd_takeGrants (h : Upd B r s) (hB : within 32768 B) : Upd B r (State.takeGrants s) := by
  unfold State.takeGrants
  repeat' first
    | exact within_trans (by decide) hB
    | with_reducible assumption
    | with_reducible apply upd_onSched
    | (extract_lets +onlyGivenNames x; refine upd_let (B := B) (r := r) (x := x) ?_ (fun hx => ?_); rotate_left; clear_value x; revert x; intro _ _; rotate_left; unfold x; clear x)
    | (extract_lets +onlyGivenNames x; clear_value x; revert x; intro _)
    | with_reducible intro _ _ _ _
    | with_reducible intro _ _ _
    | with_reducible intro _ _
    | split

theorem upd_raiseUrgency (h : Upd B r s) (hB : within 65552 B) : Upd B r (State.raiseUrgency s) := by
  unfold State.raiseUrgency
  repeat' first
    | exact within_trans (by decide) hB
    | with_reducible assumption
    | with_reducible apply upd_raiseEvt
    | with_reducible apply upd_onCmd
    | with_reducible refine upd_foldl _ ?_ ?_
    | with_reducible intro _ _ _
    | split

theorem upd_execApply (h : Upd B r s) (hB : within 32784 B) : UpdOut B r (execApply s) := by
  unfold execApply
  repeat' first
    | exact within_trans (by decide) hB
    | with_reducible assumption
    | with_reducible refine updOut_next ?_
    | with_reducible apply upd_applyShares

theorem upd_execWeightWrite (acc) (val) (h : Upd B r s) (hB : within 32784 B) : UpdOut B r (execWeightWrite acc val s) := by
  unfold execWeightWrite
  repeat' first
    | exact within_trans (by decide) hB
    | with_reducible assumption
    | with_reducible refine updOut_next ?_
    | with_reducible apply upd_weightWrite

end Sys2Proof.Machine
end

