-- ==== Sys2Proof/Laws/UpdWords.lean ====
section
/-! SUPPORT. What the functions of Machine/Words.lean can change (Laws/Upd.lean). -/
namespace Sys2Proof.Machine
variable {B : Nat} {r s : State}

theorem upd_storeWord (a) (w) (h : Upd B r s) (hB : within 536870928 B) : Upd B r (State.storeWord s a w) := by
  unfold State.storeWord
  repeat' first
    | exact within_trans (by decide) hB
    | with_reducible assumption
    | with_reducible apply upd_raiseEvt
    | with_reducible apply Upd.field
    | with_reducible apply upd_onMemp
    | (extract_lets +onlyGivenNames x; refine upd_let (B := B) (r := r) (x := x) ?_ (fun hx => ?_); rotate_left; clear_value x; revert x; intro _ _; rotate_left; unfold x; clear x)
    | (extract_lets +onlyGivenNames x; clear_value x; revert x; intro _)
    | split

theorem upd_declareFailed (sub) (dev) (h : Upd B r s) (hB : within 536876050 B) : Upd B r (State.declareFailed s sub dev) := by
  unfold State.declareFailed
  repeat' first
    | exact within_trans (by decide) hB
    | with_reducible assumption
    | with_reducible apply Upd.field
    | with_reducible apply upd_raiseFault
    | with_reducible apply upd_raiseEvt
    | with_reducible apply upd_onMemp
    | split

theorem upd_attribute_ (a) (dev) (h : Upd B r s) (hB : within 1610617874 B) : Upd B r (State.attribute_ s a dev) := by
  unfold State.attribute_
  repeat' first
    | exact within_trans (by decide) hB
    | with_reducible assumption
    | with_reducible apply upd_declareFailed
    | with_reducible apply upd_raiseFault
    | with_reducible apply upd_onMemp
    | with_reducible apply upd_onDram
    | (extract_lets +onlyGivenNames x; refine upd_let (B := B) (r := r) (x := x) ?_ (fun hx => ?_); rotate_left; clear_value x; revert x; intro _ _; rotate_left; unfold x; clear x)
    | (extract_lets +onlyGivenNames x; clear_value x; revert x; intro _)
    | split

theorem upd_repNote (a) (h : Upd B r s) (hB : within 536870928 B) : Upd B r (State.repNote s a) := by
  unfold State.repNote
  repeat' first
    | exact within_trans (by decide) hB
    | with_reducible assumption
    | with_reducible apply upd_raiseEvt
    | with_reducible apply upd_onMemp
    | (extract_lets +onlyGivenNames x; refine upd_let (B := B) (r := r) (x := x) ?_ (fun hx => ?_); rotate_left; clear_value x; revert x; intro _ _; rotate_left; unfold x; clear x)
    | (extract_lets +onlyGivenNames x; clear_value x; revert x; intro _)
    | split

theorem upd_writeBack (a) (dev) (fixed) (h : Upd B r s) (hB : within 1610617874 B) : Upd B r (State.writeBack s a dev fixed) := by
  unfold State.writeBack
  repeat' first
    | exact within_trans (by decide) hB
    | with_reducible assumption
    | with_reducible apply upd_storeWord
    | with_reducible apply upd_raiseEvt
    | with_reducible apply upd_raiseFault
    | with_reducible apply upd_attribute_
    | with_reducible apply upd_repNote

theorem upd_readLine (l) (h : Upd B r s) (hB : within 1610617874 B) : UpdP B r (State.readLine s l) := by
  unfold State.readLine
  refine updP_foldl _ (updP_mk _ h) (fun p a hp => ?_)
  repeat' first
    | exact within_trans (by decide) hB
    | with_reducible assumption
    | with_reducible refine updP_mk _ ?_
    | with_reducible apply upd_writeBack
    | with_reducible apply upd_raiseEvt
    | with_reducible exact UpdP.snd (by assumption)
    | split

theorem upd_walk (key) (h : Upd B r s) (hB : within 1611666450 B) : Upd B r (State.walk s key) := by
  unfold State.walk
  extract_lets ls miss w sets t
  have hw : UpdP B r w := updP_foldl _ (updP_mk _ h) (fun p a hp => updP_mk _ (UpdP.snd (upd_readLine _ (UpdP.snd hp) (within_trans (by decide) hB))))
  clear_value w
  exact upd_bump _ _ (upd_onMap _ hw.snd (within_trans (by decide) hB)) (within_trans (by decide) hB)

theorem upd_walkAll (keys) (h : Upd B r s) (hB : within 1611666450 B) : Upd B r (State.walkAll s keys) := by
  unfold State.walkAll
  repeat' first
    | exact within_trans (by decide) hB
    | with_reducible assumption
    | with_reducible apply upd_walk
    | with_reducible refine upd_foldl _ ?_ ?_
    | with_reducible intro _ _ _ _
    | with_reducible intro _ _ _
    | with_reducible intro _ _

theorem upd_fabric (src) (dst) (d) (h : Upd B r s) (hB : within 5138 B) : UpdP B r (State.fabric s src dst d) := by
  unfold State.fabric
  repeat' first
    | exact within_trans (by decide) hB
    | with_reducible assumption
    | with_reducible refine updP_mk _ ?_
    | with_reducible apply upd_raiseEvt
    | with_reducible apply Upd.field
    | with_reducible apply upd_raiseFault
    | (extract_lets +onlyGivenNames x; refine upd_let (B := B) (r := r) (x := x) ?_ (fun hx => ?_); rotate_left; clear_value x; revert x; intro _ _; rotate_left; unfold x; clear x)
    | (extract_lets +onlyGivenNames x; clear_value x; revert x; intro _)
    | split

theorem upd_writeWord (a) (d) (h : Upd B r s) (hB : within 536870928 B) : Upd B r (State.writeWord s a d) := by
  unfold State.writeWord
  repeat' first
    | exact within_trans (by decide) hB
    | with_reducible assumption
    | with_reducible apply upd_storeWord

theorem upd_sendWord (src) (dst) (a) (d) (h : Upd B r s) (hB : within 536876050 B) : Upd B r (State.sendWord s src dst a d) := by
  unfold State.sendWord
  repeat' first
    | exact within_trans (by decide) hB
    | with_reducible assumption
    | with_reducible refine UpdP.get ?_ (by assumption)
    | with_reducible apply upd_fabric
    | with_reducible refine UpdP.snd (upd_fabric (h := ?_) (hB := ?_) ..)
    | with_reducible apply upd_writeWord
    | with_reducible apply upd_storeWord
    | split

theorem upd_wroteWord (a) (h : Upd B r s) (hB : within 536870928 B) : Upd B r (State.wroteWord s a) := by
  unfold State.wroteWord
  repeat' first
    | exact within_trans (by decide) hB
    | with_reducible assumption
    | with_reducible apply upd_storeWord
    | split

theorem upd_wroteSector (slice) (sec) (h : Upd B r s) (hB : within 536870928 B) : Upd B r (State.wroteSector s slice sec) := by
  unfold State.wroteSector
  repeat' first
    | exact within_trans (by decide) hB
    | with_reducible assumption
    | with_reducible apply upd_wroteWord
    | with_reducible apply upd_onMemp
    | (extract_lets +onlyGivenNames x; refine upd_let (B := B) (r := r) (x := x) ?_ (fun hx => ?_); rotate_left; clear_value x; revert x; intro _ _; rotate_left; unfold x; clear x)
    | (extract_lets +onlyGivenNames x; clear_value x; revert x; intro _)
    | with_reducible intro _ _ _ _
    | with_reducible intro _ _ _
    | with_reducible intro _ _
    | split

theorem upd_foundBad (a) (h : Upd B r s) (hB : within 5138 B) : Upd B r (State.foundBad s a) := by
  unfold State.foundBad
  repeat' first
    | exact within_trans (by decide) hB
    | with_reducible assumption
    | with_reducible apply upd_raiseEvt
    | with_reducible apply upd_raiseFault
    | (extract_lets +onlyGivenNames x; refine upd_let (B := B) (r := r) (x := x) ?_ (fun hx => ?_); rotate_left; clear_value x; revert x; intro _ _; rotate_left; unfold x; clear x)
    | (extract_lets +onlyGivenNames x; clear_value x; revert x; intro _)
    | split

theorem upd_loadWord (a) (consumer) (h : Upd B r s) (hB : within 1610617874 B) : UpdP B r (State.loadWord s a consumer) := by
  unfold State.loadWord
  repeat' first
    | exact within_trans (by decide) hB
    | with_reducible assumption
    | with_reducible refine updP_mk _ ?_
    | with_reducible apply upd_writeBack
    | with_reducible apply upd_raiseFault
    | with_reducible apply upd_raiseEvt
    | with_reducible apply upd_foundBad
    | split

theorem upd_readSector (sl sec cons) (h : Upd B r s) (hB : within 1610617874 B) : UpdP B r (State.readSector s sl sec cons) := by
  unfold State.readSector
  exact updP_foldl _ (updP_mk _ h) (fun p a hp => updP_mk _ (UpdP.snd (upd_loadWord _ _ (UpdP.snd hp) (within_trans (by decide) hB))))

theorem upd_healWord (a) (h : Upd B r s) (hB : within 536870928 B) : Upd B r (State.healWord s a) := by
  unfold State.healWord
  repeat' first
    | exact within_trans (by decide) hB
    | with_reducible assumption
    | with_reducible apply upd_storeWord

theorem upd_poisonAt (a) (h : Upd B r s) (hB : within 536876050 B) : Upd B r (State.poisonAt s a) := by
  unfold State.poisonAt
  repeat' first
    | exact within_trans (by decide) hB
    | with_reducible assumption
    | with_reducible apply upd_storeWord
    | with_reducible apply upd_raiseFault
    | with_reducible apply upd_raiseEvt

end Sys2Proof.Machine
end

