-- ==== Sys2Proof/Laws/UpdMap.lean ====
section
/-! SUPPORT. What the functions of Machine/Map.lean can change (Laws/Upd.lean). -/
namespace Sys2Proof.Machine
variable {B : Nat} {r s : State}

theorem upd_checkLow (h : Upd B r s) (hB : within 1048592 B) : Upd B r (State.checkLow s) := by
  unfold State.checkLow
  repeat' first
    | exact within_trans (by decide) hB
    | with_reducible assumption
    | with_reducible apply upd_raiseEvt
    | with_reducible apply upd_onMap
    | split

theorem upd_dirtyUnit (u) (h : Upd B r s) (hB : within 541065232 B) : Upd B r (State.dirtyUnit s u) := by
  unfold State.dirtyUnit
  repeat' first
    | exact within_trans (by decide) hB
    | with_reducible assumption
    | with_reducible apply upd_wroteWord
    | with_reducible apply upd_onJnl
    | with_reducible refine upd_foldl _ ?_ ?_
    | with_reducible intro _ _ _ _
    | with_reducible intro _ _ _
    | with_reducible intro _ _

theorem upd_setCoarse (u) (e) (h : Upd B r s) (hB : within 542113808 B) : Upd B r (State.setCoarse s u e) := by
  unfold State.setCoarse
  repeat' first
    | exact within_trans (by decide) hB
    | with_reducible assumption
    | with_reducible apply upd_checkLow
    | with_reducible apply upd_dirtyUnit
    | with_reducible apply upd_onMap
    | split

theorem upd_touchFine (u) (h : Upd B r s) (hB : within 542113808 B) : Upd B r (State.touchFine s u) := by
  unfold State.touchFine
  repeat' first
    | exact within_trans (by decide) hB
    | with_reducible assumption
    | with_reducible apply upd_dirtyUnit
    | with_reducible apply upd_onMap
    | with_reducible refine updO_map _ ?_
    | with_reducible refine updOP_map _ ?_
    | with_reducible refine updOPP_map _ ?_
    | split

theorem upd_setFine (key) (e) (h : Upd B r s) (hB : within 542113808 B) : Upd B r (State.setFine s key e) := by
  unfold State.setFine
  repeat' first
    | exact within_trans (by decide) hB
    | with_reducible assumption
    | with_reducible apply upd_dirtyUnit
    | with_reducible apply upd_onMap
    | with_reducible refine updO_map _ ?_
    | with_reducible refine updOP_map _ ?_
    | with_reducible refine updOPP_map _ ?_
    | split

theorem upd_promote (u) (h : Upd B r s) (hB : within 542113808 B) : Upd B r (State.promote s u) := by
  unfold State.promote
  repeat' first
    | exact within_trans (by decide) hB
    | with_reducible assumption
    | with_reducible apply upd_checkLow
    | with_reducible apply upd_dirtyUnit
    | with_reducible apply upd_onMap

theorem upd_onZone (nsid) (z) (f) (h : Upd B r s) (hB : within 524288 B) : Upd B r (State.onZone s nsid z f) := by
  unfold State.onZone
  repeat' first
    | exact within_trans (by decide) hB
    | with_reducible assumption
    | with_reducible apply upd_onZones

theorem upd_onLun (ch) (lun) (f) (h : Upd B r s) (hB : within 134217728 B) : Upd B r (State.onLun s ch lun f) := by
  unfold State.onLun
  repeat' first
    | exact within_trans (by decide) hB
    | with_reducible assumption
    | with_reducible apply upd_onMed

theorem upd_hookRan (y_h) (q) (w) (win) (h : Upd B r s) (hB : within 33587204 B) : Upd B r (State.hookRan s y_h q w win) := by
  unfold State.hookRan
  repeat' first
    | exact within_trans (by decide) hB
    | with_reducible assumption
    | with_reducible apply Upd.freed
    | with_reducible apply upd_onSched
    | with_reducible apply upd_onPrg
    | (extract_lets +onlyGivenNames x; refine upd_let (B := B) (r := r) (x := x) ?_ (fun hx => ?_); rotate_left; clear_value x; revert x; intro _ _; rotate_left; unfold x; clear x)
    | (extract_lets +onlyGivenNames x; clear_value x; revert x; intro _)
    | with_reducible intro _ _ _ _
    | with_reducible intro _ _ _
    | with_reducible intro _ _
    | split

theorem upd_replacedChoice (q) (handle) (h : Upd B r s) (hB : within 5138 B) : Upd B r (State.replacedChoice s q handle) := by
  unfold State.replacedChoice
  repeat' first
    | exact within_trans (by decide) hB
    | with_reducible assumption
    | with_reducible apply upd_raiseFault
    | with_reducible apply upd_raiseEvt

theorem upd_hookTrap (b) (q) (h : Upd B r s) (hB : within 33559570 B) : Upd B r (State.hookTrap s b q) := by
  unfold State.hookTrap
  repeat' first
    | exact within_trans (by decide) hB
    | with_reducible assumption
    | with_reducible apply upd_replacedChoice
    | with_reducible apply upd_raiseEvt
    | with_reducible apply upd_bump
    | with_reducible apply upd_onPrg
    | (extract_lets +onlyGivenNames x; refine upd_let (B := B) (r := r) (x := x) ?_ (fun hx => ?_); rotate_left; clear_value x; revert x; intro _ _; rotate_left; unfold x; clear x)
    | (extract_lets +onlyGivenNames x; clear_value x; revert x; intro _)
    | with_reducible refine updO_map _ ?_
    | with_reducible refine updOP_map _ ?_
    | with_reducible refine updOPP_map _ ?_
    | split

theorem upd_onChunk (k) (f) (h : Upd B r s) (hB : within 134217728 B) : Upd B r (State.onChunk s k f) := by
  unfold State.onChunk
  repeat' first
    | exact within_trans (by decide) hB
    | with_reducible assumption
    | with_reducible apply upd_onMed

theorem upd_allocSeg (q kind gc hook who) (h : Upd B r s) (hB : within 167810070 B) : UpdOP B r (State.allocSeg s q kind gc hook who) := by
  unfold State.allocSeg
  split
  · exact updOP_none
  · extract_lets t
    have ht : Upd B r t := by
      subst t
      repeat' first
        | exact within_trans (by decide) hB
        | with_reducible assumption
        | with_reducible apply upd_hookRan
        | split
    clear_value t
    have hp : UpdP B r (match t.hookBind 0 q with
      | none => (t.dfltStripe q, t)
      | some b => match hook with
        | some l => if l < t.med.lunsCh ∧ 0 < t.stripeFree q l then (l, t) else (t.dfltStripe q, t.replacedChoice q b.handle)
        | none => (t.dfltStripe q, t.hookTrap b q)) := by
      repeat' first
        | exact within_trans (by decide) hB
        | with_reducible assumption
        | with_reducible refine updP_mk _ ?_
        | with_reducible apply upd_replacedChoice
        | with_reducible apply upd_hookTrap
        | split
    split
    have h1 := hp.get (by assumption)
    repeat' first
      | exact within_trans (by decide) hB
      | with_reducible assumption
      | with_reducible refine updOP_some _ ?_
      | exact updOP_none
      | with_reducible refine upd_foldl _ ?_ ?_
      | with_reducible apply upd_onChunk
      | with_reducible apply upd_onMed
      | (extract_lets +onlyGivenNames x; refine upd_let (B := B) (r := r) (x := x) ?_ (fun hx => ?_); rotate_left; clear_value x; revert x; intro _ _; rotate_left; unfold x; clear x)
      | (extract_lets +onlyGivenNames x; clear_value x; revert x; intro _)
      | with_reducible intro _ _ _
      | split

theorem upd_nextSeg (k) (kind) (gc) (hook) (who) (h : Upd B r s) (hB : within 167810070 B) : UpdOP B r (State.nextSeg s k kind gc hook who) := by
  unfold State.nextSeg
  repeat' first
    | exact within_trans (by decide) hB
    | with_reducible assumption
    | with_reducible refine updOP_some _ ?_
    | exact updOP_none
    | with_reducible refine UpdOP.get ?_ (by assumption)
    | with_reducible refine UpdOP.get2 ?_ (by assumption)
    | with_reducible apply upd_allocSeg
    | with_reducible apply upd_onMed
    | with_reducible refine updO_map _ ?_
    | with_reducible refine updOP_map _ ?_
    | with_reducible refine updOPP_map _ ?_
    | with_reducible intro _ _ _ _
    | with_reducible intro _ _ _
    | with_reducible intro _ _
    | split

theorem upd_streamSeg (k kind gc hook who) (h : Upd B r s) (hB : within 167810070 B) : UpdO B r (State.streamSeg s k kind gc hook who) := by
  unfold State.streamSeg
  split
  · exact updO_some h
  · exact updO_map _ (fun _ e => UpdOP.get2 (upd_nextSeg _ _ _ _ _ h (within_trans (by decide) hB)) e)

theorem upd_streamTake (k kind n gc hook who) (h : Upd B r s) (hB : within 167810070 B) : UpdOPP B r (State.streamTake s k kind n gc hook who) := by
  unfold State.streamTake
  extract_lets p d move
  have hm : ∀ s x, Upd B r s → Upd B r (move s x) := fun _ _ h => upd_onMed _ h (within_trans (by decide) hB)
  clear_value move
  split
  · exact updOPP_some _ _ (hm _ _ h)
  · exact updOPP_map _ (fun _ e => hm _ _ (UpdOP.get2 (upd_nextSeg _ _ _ _ _ h (within_trans (by decide) hB)) e))

theorem upd_heatBump (u) (h : Upd B r s) (hB : within 1048576 B) : Upd B r (State.heatBump s u) := by
  unfold State.heatBump
  repeat' first
    | exact within_trans (by decide) hB
    | with_reducible assumption
    | with_reducible apply upd_onMap

theorem upd_noteQuad (tid) (q) (n) (h : Upd B r s) (hB : within 134217728 B) : Upd B r (State.noteQuad s tid q n) := by
  unfold State.noteQuad
  repeat' first
    | exact within_trans (by decide) hB
    | with_reducible assumption
    | with_reducible apply upd_onMed

theorem upd_freeSeg (g) (h : Upd B r s) (hB : within 134217728 B) : Upd B r (State.freeSeg s g) := by
  unfold State.freeSeg
  repeat' first
    | exact within_trans (by decide) hB
    | with_reducible assumption
    | with_reducible apply upd_onMed
    | with_reducible refine updO_map _ ?_
    | with_reducible refine updOP_map _ ?_
    | with_reducible refine updOPP_map _ ?_
    | with_reducible intro _ _ _

theorem upd_markPoison (key) (h : Upd B r s) (hB : within 542118930 B) : Upd B r (State.markPoison s key) := by
  unfold State.markPoison
  repeat' first
    | exact within_trans (by decide) hB
    | with_reducible assumption
    | with_reducible apply upd_setFine
    | with_reducible apply upd_promote
    | with_reducible apply upd_raiseFault
    | with_reducible apply upd_setCoarse
    | (extract_lets +onlyGivenNames x; clear_value x; revert x; intro _)
    | split

theorem upd_moveKey (key) (old) (new) (h : Upd B r s) (hB : within 542113808 B) : Upd B r (State.moveKey s key old new) := by
  unfold State.moveKey
  repeat' first
    | exact within_trans (by decide) hB
    | with_reducible assumption
    | with_reducible apply upd_setFine
    | split

end Sys2Proof.Machine
end

