-- ==== Sys2Proof/Laws/UpdLanding.lean ====
section
/-! SUPPORT. What the functions of Machine/Landing.lean can change (Laws/Upd.lean). -/
namespace Sys2Proof.Machine
variable {B : Nat} {r s : State}

theorem upd_takeWsn (h : Upd B r s) (hB : within 2097152 B) : Upd B r (State.takeWsn s) := by
  unfold State.takeWsn
  repeat' first
    | exact within_trans (by decide) hB
    | with_reducible assumption
    | with_reducible apply upd_onLnd

theorem upd_ingress (slice) (i) (d) (h : Upd B r s) (hB : within 536876050 B) : Upd B r (State.ingress s slice i d) := by
  unfold State.ingress
  repeat' first
    | exact within_trans (by decide) hB
    | with_reducible assumption
    | with_reducible apply upd_sendWord
    | split

theorem upd_landSec (slice) (i) (fsn) (grp) (info) (d) (dest) (h : Upd B r s) (hB : within 538973202 B) : Upd B r (State.landSec s slice i fsn grp info d dest) := by
  unfold State.landSec
  repeat' first
    | exact within_trans (by decide) hB
    | with_reducible assumption
    | with_reducible apply upd_ingress
    | with_reducible apply upd_wroteSector
    | with_reducible apply upd_onLnd

theorem upd_setBlock (key) (e) (h : Upd B r s) (hB : within 542113808 B) : Upd B r (State.setBlock s key e) := by
  unfold State.setBlock
  repeat' first
    | exact within_trans (by decide) hB
    | with_reducible assumption
    | with_reducible apply upd_setFine
    | with_reducible apply upd_promote
    | split

theorem upd_mapZeroes (plan) (bs) (h : Upd B r s) (hB : within 542113808 B) : Upd B r (State.mapZeroes s plan bs) := by
  unfold State.mapZeroes
  repeat' first
    | exact within_trans (by decide) hB
    | with_reducible assumption
    | with_reducible apply upd_setCoarse
    | with_reducible apply upd_touchFine
    | with_reducible apply upd_setBlock
    | (extract_lets +onlyGivenNames x; refine upd_let (B := B) (r := r) (x := x) ?_ (fun hx => ?_); rotate_left; clear_value x; revert x; intro _ _; rotate_left; unfold x; clear x)
    | (extract_lets +onlyGivenNames x; clear_value x; revert x; intro _)
    | with_reducible refine upd_foldl _ ?_ ?_
    | with_reducible intro _ _ _ _
    | with_reducible intro _ _ _
    | with_reducible intro _ _
    | split

theorem upd_openGroup (kind) (fsn) (ns) (wsn) (secs) (recs) (h : Upd B r s) (hB : within 4194304 B) : Upd B r (State.openGroup s kind fsn ns wsn secs recs) := by
  unfold State.openGroup
  repeat' first
    | exact within_trans (by decide) hB
    | with_reducible assumption
    | with_reducible apply upd_onJnl

theorem upd_commitDone (c) (dw0) (h : Upd B r s) (hB : within 1245202 B) : Upd B r (State.commitDone s c dw0) := by
  unfold State.commitDone
  repeat' first
    | exact within_trans (by decide) hB
    | with_reducible assumption
    | with_reducible apply upd_complete
    | with_reducible apply upd_onHif
    | (extract_lets +onlyGivenNames x; refine upd_let (B := B) (r := r) (x := x) ?_ (fun hx => ?_); rotate_left; clear_value x; revert x; intro _ _; rotate_left; unfold x; clear x)
    | (extract_lets +onlyGivenNames x; clear_value x; revert x; intro _)
    | with_reducible intro _ _ _ _
    | with_reducible intro _ _ _
    | with_reducible intro _ _
    | split

theorem upd_commitZeroes (c) (n) (h : Upd B r s) (hB : within 1618416658 B) : Upd B r (State.commitZeroes s c n) := by
  unfold State.commitZeroes
  repeat' first
    | exact within_trans (by decide) hB
    | with_reducible assumption
    | with_reducible apply upd_walkAll
    | with_reducible apply upd_takeWsn
    | with_reducible apply upd_landSec
    | with_reducible apply upd_setCoarse
    | with_reducible apply upd_mapZeroes
    | with_reducible apply upd_onNs
    | with_reducible apply upd_openGroup
    | with_reducible apply upd_unlock
    | with_reducible apply upd_onCmd
    | with_reducible apply upd_commitDone
    | with_reducible apply upd_onMap
    | (extract_lets +onlyGivenNames x; refine upd_let (B := B) (r := r) (x := x) ?_ (fun hx => ?_); rotate_left; clear_value x; revert x; intro _ _; rotate_left; unfold x; clear x)
    | (extract_lets +onlyGivenNames x; clear_value x; revert x; intro _)
    | with_reducible refine updO_map _ ?_
    | with_reducible refine updOP_map _ ?_
    | with_reducible refine updOPP_map _ ?_
    | with_reducible refine upd_foldl _ ?_ ?_
    | with_reducible intro _ _ _
    | split

theorem upd_takeSecs (slice) (fsn) (used) (h : Upd B r s) (hB : within 2097152 B) : Upd B r (State.takeSecs s slice fsn used) := by
  unfold State.takeSecs
  repeat' first
    | exact within_trans (by decide) hB
    | with_reducible assumption
    | with_reducible apply upd_onLnd

theorem upd_freeLnd (slice) (used) (h : Upd B r s) (hB : within 2097152 B) : Upd B r (State.freeLnd s slice used) := by
  unfold State.freeLnd
  repeat' first
    | exact within_trans (by decide) hB
    | with_reducible assumption
    | with_reducible apply upd_onLnd

theorem upd_stageMeta (nsid) (n) (z) (b) (info) (md) (h : Upd B r s) (hB : within 134217728 B) : Upd B r (State.stageMeta s nsid n z b info md) := by
  unfold State.stageMeta
  repeat' first
    | exact within_trans (by decide) hB
    | with_reducible assumption
    | with_reducible apply upd_onMed
    | (extract_lets +onlyGivenNames x; refine upd_let (B := B) (r := r) (x := x) ?_ (fun hx => ?_); rotate_left; clear_value x; revert x; intro _ _; rotate_left; unfold x; clear x)
    | (extract_lets +onlyGivenNames x; clear_value x; revert x; intro _)
    | with_reducible intro _ _ _ _
    | with_reducible intro _ _ _
    | with_reducible intro _ _
    | split

theorem upd_commitUnit (slice) (p) (blocks) (h : Upd B r s) (hB : within 542113808 B) : Upd B r (State.commitUnit s slice p blocks) := by
  unfold State.commitUnit
  repeat' first
    | exact within_trans (by decide) hB
    | with_reducible assumption
    | with_reducible apply upd_setCoarse
    | with_reducible apply upd_promote
    | with_reducible apply upd_touchFine
    | with_reducible apply upd_setFine
    | with_reducible refine upd_foldl _ ?_ ?_
    | with_reducible intro _ _ _
    | split

theorem upd_commitWrite (c) (n) (src) (h : Upd B r s) (hB : within 1753158674 B) : Upd B r (State.commitWrite s c n src) := by
  unfold State.commitWrite
  repeat' first
    | exact within_trans (by decide) hB
    | with_reducible assumption
    | with_reducible apply upd_takeWsn
    | with_reducible apply upd_takeSecs
    | with_reducible apply upd_freeLnd
    | with_reducible apply upd_walk
    | with_reducible apply upd_landSec
    | with_reducible apply upd_stageMeta
    | with_reducible apply upd_walkAll
    | with_reducible apply upd_commitUnit
    | with_reducible apply upd_onZone
    | with_reducible apply upd_onNs
    | with_reducible apply upd_openGroup
    | with_reducible apply upd_unlock
    | with_reducible apply upd_onCmd
    | with_reducible apply upd_commitDone
    | with_reducible apply upd_onLnd
    | with_reducible apply upd_onMap
    | (extract_lets +onlyGivenNames x; refine upd_let (B := B) (r := r) (x := x) ?_ (fun hx => ?_); rotate_left; clear_value x; revert x; intro _ _; rotate_left; unfold x; clear x)
    | (extract_lets +onlyGivenNames x; clear_value x; revert x; intro _)
    | with_reducible refine updO_map _ ?_
    | with_reducible refine updOP_map _ ?_
    | with_reducible refine updOPP_map _ ?_
    | with_reducible refine upd_foldl _ ?_ ?_
    | with_reducible intro _ _ _
    | split

theorem upd_discardWrite (c) (event) (h : Upd B r s) (hB : within 3932176 B) : Upd B r (State.discardWrite s c event) := by
  unfold State.discardWrite
  repeat' first
    | exact within_trans (by decide) hB
    | with_reducible assumption
    | with_reducible apply upd_freeLnd
    | with_reducible apply upd_onNs
    | with_reducible apply upd_onZone
    | with_reducible apply upd_raiseEvt
    | with_reducible apply upd_onLnd
    | with_reducible apply upd_onMap
    | (extract_lets +onlyGivenNames x; refine upd_let (B := B) (r := r) (x := x) ?_ (fun hx => ?_); rotate_left; clear_value x; revert x; intro _ _; rotate_left; unfold x; clear x)
    | split

theorem upd_landingCommit (fsn) (h : Upd B r s) (hB : within 1753158674 B) : Upd B r (State.landingCommit s fsn) := by
  unfold State.landingCommit
  repeat' first
    | exact within_trans (by decide) hB
    | with_reducible assumption
    | with_reducible apply upd_commitZeroes
    | with_reducible apply upd_commitWrite
    | with_reducible apply upd_complete
    | with_reducible apply upd_discardWrite
    | with_reducible refine updO_map _ ?_
    | with_reducible refine updOP_map _ ?_
    | with_reducible refine updOPP_map _ ?_
    | with_reducible intro _ _ _ _
    | with_reducible intro _ _ _
    | with_reducible intro _ _
    | split

theorem upd_jnlAppend (rs) (h : Upd B r s) (hB : within 4194304 B) : Upd B r (State.jnlAppend s rs) := by
  unfold State.jnlAppend
  repeat' first
    | exact within_trans (by decide) hB
    | with_reducible assumption
    | with_reducible apply upd_onJnl
    | with_reducible refine updO_map _ ?_
    | with_reducible refine updOP_map _ ?_
    | with_reducible refine updOPP_map _ ?_

theorem upd_jnlGroup (rs) (h : Upd B r s) (hB : within 4194320 B) : Upd B r (State.jnlGroup s rs) := by
  unfold State.jnlGroup
  repeat' first
    | exact within_trans (by decide) hB
    | with_reducible assumption
    | with_reducible apply upd_jnlAppend
    | with_reducible apply upd_raiseEvt
    | with_reducible apply upd_onJnl
    | with_reducible intro _ _ _ _
    | with_reducible intro _ _ _
    | with_reducible intro _ _
    | split

theorem upd_jnlSystem (rs) (h : Upd B r s) (hB : within 4194320 B) : Upd B r (State.jnlSystem s rs) := by
  unfold State.jnlSystem
  repeat' first
    | exact within_trans (by decide) hB
    | with_reducible assumption
    | with_reducible apply upd_jnlGroup

theorem upd_placeWrite (c) (hook) (h : Upd B r s) (hB : within 33592342 B) : UpdOPP B r (State.placeWrite s c hook) := by
  unfold State.placeWrite
  repeat' first
    | exact within_trans (by decide) hB
    | with_reducible assumption
    | with_reducible refine updOPP_some _ _ ?_
    | exact updOPP_none
    | with_reducible apply upd_hookRan
    | with_reducible apply upd_replacedChoice
    | with_reducible apply upd_hookTrap
    | (extract_lets +onlyGivenNames x; refine upd_let (B := B) (r := r) (x := x) ?_ (fun hx => ?_); rotate_left; clear_value x; revert x; intro _ _; rotate_left; unfold x; clear x)
    | (extract_lets +onlyGivenNames x; clear_value x; revert x; intro _)
    | split

theorem upd_convStream (c) (n) (hook) (h : Upd B r s) (hB : within 33592342 B) : UpdOP B r (State.convStream s c n hook) := by
  unfold State.convStream
  repeat' first
    | exact within_trans (by decide) hB
    | with_reducible assumption
    | with_reducible refine updOP_some _ ?_
    | exact updOP_none
    | with_reducible refine UpdOPP.get ?_ (by assumption)
    | with_reducible refine UpdOPP.get2 ?_ (by assumption)
    | with_reducible apply upd_placeWrite
    | with_reducible apply upd_replacedChoice
    | with_reducible apply upd_hookTrap
    | (extract_lets +onlyGivenNames x; refine upd_let (B := B) (r := r) (x := x) ?_ (fun hx => ?_); rotate_left; clear_value x; revert x; intro _ _; rotate_left; unfold x; clear x)
    | (extract_lets +onlyGivenNames x; clear_value x; revert x; intro _)
    | with_reducible refine updO_map _ ?_
    | with_reducible refine updOP_map _ ?_
    | with_reducible refine updOPP_map _ ?_
    | with_reducible intro _ _ _ _
    | with_reducible intro _ _ _
    | with_reducible intro _ _
    | split

theorem upd_admitWaits (c) (h : Upd B r s) (hB : within 2097152 B) : Upd B r (State.admitWaits s c) := by
  unfold State.admitWaits
  repeat' first
    | exact within_trans (by decide) hB
    | with_reducible assumption
    | with_reducible apply upd_onLnd
    | with_reducible intro _ _ _ _
    | with_reducible intro _ _ _
    | with_reducible intro _ _
    | split

theorem upd_admitTo (c) (bs) (q) (target) (new) (take) (hf : ∀ s p, Upd B r s → UpdOP B r (take s p)) (h : Upd B r s) (hB : within 137723920 B) : Upd B r (State.admitTo s c bs q target new take) := by
  unfold State.admitTo
  repeat' first
    | exact within_trans (by decide) hB
    | with_reducible assumption
    | with_reducible apply upd_onCmd
    | with_reducible apply upd_admitWaits
    | with_reducible apply upd_raiseEvt
    | with_reducible apply upd_takeSecs
    | with_reducible apply upd_onNs
    | with_reducible apply upd_onMap
    | with_reducible apply upd_onSched
    | with_reducible apply upd_onLnd
    | with_reducible apply upd_onMed
    | with_reducible apply hf
    | with_reducible exact UpdP.snd (by assumption)
    | with_reducible exact UpdPP.snd (by assumption)
    | with_reducible exact UpdSP.fst (by assumption)
    | (extract_lets +onlyGivenNames x; refine upd_let (B := B) (r := r) (x := x) ?_ (fun hx => ?_); rotate_left; clear_value x; revert x; intro _ _; rotate_left; unfold x; clear x)
    | (extract_lets +onlyGivenNames x; clear_value x; revert x; intro _)
    | with_reducible refine updO_map _ ?_
    | with_reducible refine updOP_map _ ?_
    | with_reducible refine updOPP_map _ ?_
    | with_reducible intro _ _ _ _
    | with_reducible intro _ _ _
    | with_reducible intro _ _
    | with_reducible refine UpdOP.get ?_ (by assumption)
    | split

theorem upd_takePlan (k) (kind) (n) (c) (plan) (bs) (seg) (h : Upd B r s) (hB : within 167810070 B) : UpdOPP B r (State.takePlan s k kind n c plan bs seg) := by
  unfold State.takePlan
  repeat' first
    | exact within_trans (by decide) hB
    | with_reducible assumption
    | with_reducible refine updOPP_some _ _ ?_
    | exact updOPP_none
    | with_reducible refine UpdO.get ?_ (by assumption)
    | with_reducible refine UpdO.getD ?_ ?_
    | with_reducible refine UpdOPP.get ?_ (by assumption)
    | with_reducible refine UpdOPP.get2 ?_ (by assumption)
    | with_reducible apply upd_streamSeg
    | with_reducible apply upd_streamTake
    | with_reducible apply upd_onMed
    | (extract_lets +onlyGivenNames x; refine upd_let (B := B) (r := r) (x := x) ?_ (fun hx => ?_); rotate_left; clear_value x; revert x; intro _ _; rotate_left; unfold x; clear x)
    | (extract_lets +onlyGivenNames x; clear_value x; revert x; intro _)
    | with_reducible refine updO_map _ ?_
    | with_reducible refine updOP_map _ ?_
    | with_reducible refine updOPP_map _ ?_
    | with_reducible refine upd_foldl _ ?_ ?_
    | with_reducible intro _ _ _ _
    | with_reducible intro _ _ _
    | with_reducible intro _ _
    | split

theorem upd_heatPlan (bs) (h : Upd B r s) (hB : within 1048592 B) : Upd B r (State.heatPlan s bs) := by
  unfold State.heatPlan
  repeat' first
    | exact within_trans (by decide) hB
    | with_reducible assumption
    | with_reducible apply upd_heatBump
    | with_reducible apply upd_raiseEvt
    | (extract_lets +onlyGivenNames x; refine upd_let (B := B) (r := r) (x := x) ?_ (fun hx => ?_); rotate_left; clear_value x; revert x; intro _ _; rotate_left; unfold x; clear x)
    | with_reducible refine upd_foldl _ ?_ ?_
    | with_reducible intro _ _ _
    | split

theorem upd_noteRealloc (c) (q) (h : Upd B r s) (hB : within 65536 B) : Upd B r (State.noteRealloc s c q) := by
  unfold State.noteRealloc
  repeat' first
    | exact within_trans (by decide) hB
    | with_reducible assumption
    | with_reducible apply upd_onHif
    | with_reducible intro _ _ _ _
    | with_reducible intro _ _ _
    | with_reducible intro _ _
    | split

theorem upd_admitConv (c) (n) (seg) (wr) (h : Upd B r s) (hB : within 171283478 B) : Upd B r (State.admitConv s c n seg wr) := by
  unfold State.admitConv
  repeat' first
    | exact within_trans (by decide) hB
    | with_reducible assumption
    | with_reducible refine UpdOPP.get ?_ (by assumption)
    | with_reducible refine UpdOPP.get2 ?_ (by assumption)
    | with_reducible refine UpdOP.get ?_ (by assumption)
    | with_reducible refine UpdOP.get2 ?_ (by assumption)
    | with_reducible apply upd_convStream
    | with_reducible apply upd_onCmd
    | with_reducible apply upd_admitTo
    | with_reducible apply upd_takePlan
    | with_reducible apply upd_heatPlan
    | with_reducible apply upd_noteRealloc
    | with_reducible apply upd_noteQuad
    | with_reducible exact UpdP.snd (by assumption)
    | with_reducible exact UpdPP.snd (by assumption)
    | with_reducible exact UpdSP.fst (by assumption)
    | (extract_lets +onlyGivenNames x; refine upd_let (B := B) (r := r) (x := x) ?_ (fun hx => ?_); rotate_left; clear_value x; revert x; intro _ _; rotate_left; unfold x; clear x)
    | (extract_lets +onlyGivenNames x; clear_value x; revert x; intro _)
    | with_reducible refine updO_map _ ?_
    | with_reducible refine updOP_map _ ?_
    | with_reducible refine updOPP_map _ ?_
    | with_reducible intro _ _ _ _
    | with_reducible intro _ _ _
    | with_reducible intro _ _
    | with_reducible refine updOP_some _ ?_
    | exact updOP_none
    | split

theorem upd_zoneSeg (nsid) (z) (k) (hook) (h : Upd B r s) (hB : within 167810070 B) : UpdO B r (State.zoneSeg s nsid z k hook) := by
  unfold State.zoneSeg
  repeat' first
    | exact within_trans (by decide) hB
    | with_reducible assumption
    | with_reducible refine updO_some ?_
    | exact updO_none
    | with_reducible refine UpdOP.get ?_ (by assumption)
    | with_reducible refine UpdOP.get2 ?_ (by assumption)
    | with_reducible apply upd_allocSeg
    | with_reducible apply upd_onMed
    | with_reducible refine updO_map _ ?_
    | with_reducible refine updOP_map _ ?_
    | with_reducible refine updOPP_map _ ?_
    | with_reducible intro _ _ _ _
    | with_reducible intro _ _ _
    | with_reducible intro _ _
    | split

theorem upd_admitZone (c) (n) (seg) (h : Upd B r s) (hB : within 171807766 B) : Upd B r (State.admitZone s c n seg) := by
  unfold State.admitZone
  repeat' first
    | exact within_trans (by decide) hB
    | with_reducible assumption
    | with_reducible refine UpdO.get ?_ (by assumption)
    | with_reducible refine UpdO.getD ?_ ?_
    | with_reducible apply upd_heatPlan
    | with_reducible apply upd_admitTo
    | with_reducible apply upd_onZone
    | with_reducible apply upd_zoneSeg
    | (extract_lets +onlyGivenNames x; refine upd_let (B := B) (r := r) (x := x) ?_ (fun hx => ?_); rotate_left; clear_value x; revert x; intro _ _; rotate_left; unfold x; clear x)
    | (extract_lets +onlyGivenNames x; clear_value x; revert x; intro _)
    | with_reducible refine updO_bind _ ?_
    | with_reducible refine updO_map _ ?_
    | with_reducible refine updOP_map _ ?_
    | with_reducible refine updOPP_map _ ?_
    | with_reducible intro _ _ _ _
    | with_reducible intro _ _ _
    | with_reducible intro _ _
    | split

theorem upd_grantLocks (fsn) (h : Upd B r s) (hB : within 196624 B) : Upd B r (State.grantLocks s fsn) := by
  unfold State.grantLocks
  repeat' first
    | exact within_trans (by decide) hB
    | with_reducible assumption
    | with_reducible apply Upd.field
    | with_reducible apply upd_onCmd
    | with_reducible apply upd_onLocks
    | with_reducible refine updO_map _ ?_
    | with_reducible refine updOP_map _ ?_
    | with_reducible refine updOPP_map _ ?_

theorem upd_askLocks (fsn) (ls) (h : Upd B r s) (hB : within 196624 B) : Upd B r (State.askLocks s fsn ls) := by
  unfold State.askLocks
  repeat' first
    | exact within_trans (by decide) hB
    | with_reducible assumption
    | with_reducible apply upd_grantLocks
    | with_reducible apply upd_raiseEvt
    | with_reducible apply upd_onCmd
    | with_reducible apply upd_onLocks
    | (extract_lets +onlyGivenNames x; refine upd_let (B := B) (r := r) (x := x) ?_ (fun hx => ?_); rotate_left; clear_value x; revert x; intro _ _; rotate_left; unfold x; clear x)
    | split

theorem upd_chargePages (cls) (tid) (pages) (h : Upd B r s) (hB : within 32768 B) : Upd B r (State.chargePages s cls tid pages) := by
  unfold State.chargePages
  repeat' first
    | exact within_trans (by decide) hB
    | with_reducible assumption
    | with_reducible apply upd_chargeAt
    | (extract_lets +onlyGivenNames x; refine upd_let (B := B) (r := r) (x := x) ?_ (fun hx => ?_); rotate_left; clear_value x; revert x; intro _ _; rotate_left; unfold x; clear x)
    | (extract_lets +onlyGivenNames x; clear_value x; revert x; intro _)
    | with_reducible refine upd_foldl _ ?_ ?_
    | with_reducible intro _ _ _ _
    | with_reducible intro _ _ _
    | with_reducible intro _ _
    | split

theorem upd_chargeFills (c) (us) (h : Upd B r s) (hB : within 1611699218 B) : Upd B r (State.chargeFills s c us) := by
  unfold State.chargeFills
  repeat' first
    | exact within_trans (by decide) hB
    | with_reducible assumption
    | with_reducible apply upd_chargePages
    | with_reducible apply upd_walkAll
    | (extract_lets +onlyGivenNames x; refine upd_let (B := B) (r := r) (x := x) ?_ (fun hx => ?_); rotate_left; clear_value x; revert x; intro _ _; rotate_left; unfold x; clear x)
    | (extract_lets +onlyGivenNames x; clear_value x; revert x; intro _)
    | with_reducible refine updO_map _ ?_
    | with_reducible refine updOP_map _ ?_
    | with_reducible refine updOPP_map _ ?_
    | with_reducible intro _ _ _ _
    | with_reducible intro _ _ _
    | with_reducible intro _ _
    | split

theorem upd_flushDone (h : Upd B r s) (hB : within 1245202 B) : Upd B r (State.flushDone s) := by
  unfold State.flushDone
  repeat' first
    | exact within_trans (by decide) hB
    | with_reducible assumption
    | with_reducible apply upd_complete
    | with_reducible refine upd_foldl _ ?_ ?_
    | with_reducible intro _ _ _
    | split

theorem upd_commitMoves (kind) (ms) (h : Upd B r s) (hB : within 542113808 B) : Upd B r (State.commitMoves s kind ms) := by
  unfold State.commitMoves
  repeat' first
    | exact within_trans (by decide) hB
    | with_reducible assumption
    | with_reducible apply upd_setCoarse
    | with_reducible apply upd_setFine
    | with_reducible apply upd_promote
    | with_reducible refine updO_map _ ?_
    | with_reducible refine updOP_map _ ?_
    | with_reducible refine updOPP_map _ ?_
    | with_reducible refine upd_foldl _ ?_ ?_
    | with_reducible intro _ _ _
    | split

theorem upd_moveToMedia (k) (key) (loc) (h : Upd B r s) (hB : within 542113808 B) : Upd B r (State.moveToMedia s k key loc) := by
  unfold State.moveToMedia
  repeat' first
    | exact within_trans (by decide) hB
    | with_reducible assumption
    | with_reducible apply upd_setFine
    | with_reducible apply upd_setCoarse
    | with_reducible apply upd_promote
    | split

theorem upd_settleGroup (g) (ms) (h : Upd B r s) (hB : within 678428688 B) : Upd B r (State.settleGroup s g ms) := by
  unfold State.settleGroup
  repeat' first
    | exact within_trans (by decide) hB
    | with_reducible assumption
    | with_reducible apply upd_commitMoves
    | with_reducible apply upd_moveToMedia
    | with_reducible apply upd_onMed
    | with_reducible apply upd_onLnd
    | with_reducible apply upd_onJnl
    | (extract_lets +onlyGivenNames x; refine upd_let (B := B) (r := r) (x := x) ?_ (fun hx => ?_); rotate_left; clear_value x; revert x; intro _ _; rotate_left; unfold x; clear x)
    | (extract_lets +onlyGivenNames x; clear_value x; revert x; intro _)
    | with_reducible refine updO_map _ ?_
    | with_reducible refine updOP_map _ ?_
    | with_reducible refine updOPP_map _ ?_
    | with_reducible refine upd_foldl _ ?_ ?_
    | with_reducible intro _ _ _ _
    | with_reducible intro _ _ _
    | with_reducible intro _ _
    | split

theorem upd_fuaDone (fsn) (gid) (h : Upd B r s) (hB : within 1245202 B) : Upd B r (State.fuaDone s fsn gid) := by
  unfold State.fuaDone
  repeat' first
    | exact within_trans (by decide) hB
    | with_reducible assumption
    | with_reducible apply upd_complete
    | with_reducible apply upd_onCmd
    | (extract_lets +onlyGivenNames x; clear_value x; revert x; intro _)
    | split

theorem upd_closeGroup (gid) (h : Upd B r s) (hB : within 678625298 B) : Upd B r (State.closeGroup s gid) := by
  unfold State.closeGroup
  repeat' first
    | exact within_trans (by decide) hB
    | with_reducible assumption
    | with_reducible apply upd_settleGroup
    | with_reducible apply upd_raiseEvt
    | with_reducible apply upd_fuaDone
    | with_reducible apply upd_jnlAppend
    | with_reducible apply upd_flushDone
    | with_reducible apply upd_onJnl
    | with_reducible apply upd_onHif
    | (extract_lets +onlyGivenNames x; refine upd_let (B := B) (r := r) (x := x) ?_ (fun hx => ?_); rotate_left; clear_value x; revert x; intro _ _; rotate_left; unfold x; clear x)
    | (extract_lets +onlyGivenNames x; clear_value x; revert x; intro _)
    | with_reducible refine updO_map _ ?_
    | with_reducible refine updOP_map _ ?_
    | with_reducible refine updOPP_map _ ?_
    | with_reducible intro _ _ _
    | split

theorem upd_poisonKey (key) (h : Upd B r s) (hB : within 542118930 B) : Upd B r (State.poisonKey s key) := by
  unfold State.poisonKey
  repeat' first
    | exact within_trans (by decide) hB
    | with_reducible assumption
    | with_reducible apply upd_markPoison
    | with_reducible apply upd_jnlSystem
    | (extract_lets +onlyGivenNames x; refine upd_let (B := B) (r := r) (x := x) ?_ (fun hx => ?_); rotate_left; clear_value x; revert x; intro _ _; rotate_left; unfold x; clear x)
    | (extract_lets +onlyGivenNames x; clear_value x; revert x; intro _)
    | split

theorem upd_holdGrant (fsn) (h : Upd B r s) (hB : within 1611699218 B) : Upd B r (State.holdGrant s fsn) := by
  unfold State.holdGrant
  repeat' first
    | exact within_trans (by decide) hB
    | with_reducible assumption
    | with_reducible apply upd_chargeFills
    | with_reducible apply upd_onMap
    | (extract_lets +onlyGivenNames x; refine upd_let (B := B) (r := r) (x := x) ?_ (fun hx => ?_); rotate_left; clear_value x; revert x; intro _ _; rotate_left; unfold x; clear x)
    | with_reducible refine updO_map _ ?_
    | with_reducible refine updOP_map _ ?_
    | with_reducible refine updOPP_map _ ?_
    | split

theorem upd_drainWait (n) (h : Upd B r s) (hB : within 4194304 B) : Upd B r (State.drainWait s n) := by
  induction n generalizing s with
  | zero => exact h
  | succ n ih =>
    unfold State.drainWait
    split
    · exact h
    · split
      · exact ih (upd_onJnl _ (upd_jnlAppend _ h (within_trans (by decide) hB)) (within_trans (by decide) hB))
      · exact h

theorem upd_poisonLanded (lk) (x) (h : Upd B r s) (hB : within 542118930 B) : Upd B r (State.poisonLanded s lk x) := by
  unfold State.poisonLanded
  repeat' first
    | exact within_trans (by decide) hB
    | with_reducible assumption
    | with_reducible apply upd_poisonKey
    | split

theorem upd_landingAdmit (fsn) (seg) (wr) (h : Upd B r s) (hB : within 171938838 B) : Upd B r (State.landingAdmit s fsn seg wr) := by
  unfold State.landingAdmit
  repeat' first
    | exact within_trans (by decide) hB
    | with_reducible assumption
    | with_reducible apply upd_lookAt
    | with_reducible apply upd_complete
    | with_reducible apply upd_admitZone
    | with_reducible apply upd_admitConv
    | with_reducible apply upd_onLnd
    | (extract_lets +onlyGivenNames x; refine upd_let (B := B) (r := r) (x := x) ?_ (fun hx => ?_); rotate_left; clear_value x; revert x; intro _ _; rotate_left; unfold x; clear x)
    | (extract_lets +onlyGivenNames x; clear_value x; revert x; intro _)
    | split

theorem upd_zeroesGranted (fsn) (h : Upd B r s) (hB : within 1618416658 B) : Upd B r (State.zeroesGranted s fsn) := by
  unfold State.zeroesGranted
  repeat' first
    | exact within_trans (by decide) hB
    | with_reducible assumption
    | with_reducible apply upd_complete
    | with_reducible apply upd_heatPlan
    | with_reducible apply upd_onCmd
    | with_reducible apply upd_commitZeroes
    | (extract_lets +onlyGivenNames x; refine upd_let (B := B) (r := r) (x := x) ?_ (fun hx => ?_); rotate_left; clear_value x; revert x; intro _ _; rotate_left; unfold x; clear x)
    | (extract_lets +onlyGivenNames x; clear_value x; revert x; intro _)
    | with_reducible intro _ _ _ _
    | with_reducible intro _ _ _
    | with_reducible intro _ _
    | split

theorem upd_rangeGrant (fsn) (h : Upd B r s) (hB : within 1618416658 B) : Upd B r (State.rangeGrant s fsn) := by
  unfold State.rangeGrant
  repeat' first
    | exact within_trans (by decide) hB
    | with_reducible assumption
    | with_reducible apply upd_zeroesGranted
    | with_reducible apply upd_grantLocks
    | with_reducible intro _ _ _ _
    | with_reducible intro _ _ _
    | with_reducible intro _ _
    | split

theorem upd_execRangeLockGrant (fsn) (h : Upd B r s) (hB : within 1618416658 B) : UpdOut B r (execRangeLockGrant fsn s) := by
  unfold execRangeLockGrant
  repeat' first
    | exact within_trans (by decide) hB
    | with_reducible assumption
    | with_reducible refine updOut_next ?_
    | with_reducible apply upd_rangeGrant

theorem upd_execLandingAdmit (fsn) (seg) (wr) (h : Upd B r s) (hB : within 171938838 B) : UpdOut B r (execLandingAdmit fsn seg wr s) := by
  unfold execLandingAdmit
  repeat' first
    | exact within_trans (by decide) hB
    | with_reducible assumption
    | with_reducible refine updOut_next ?_
    | with_reducible apply upd_landingAdmit

theorem upd_execLandingCommit (fsn) (h : Upd B r s) (hB : within 1753158674 B) : UpdOut B r (execLandingCommit fsn s) := by
  unfold execLandingCommit
  repeat' first
    | exact within_trans (by decide) hB
    | with_reducible assumption
    | with_reducible refine updOut_next ?_
    | with_reducible apply upd_landingCommit

theorem upd_execUnitHoldGrant (fsn) (h : Upd B r s) (hB : within 1611699218 B) : UpdOut B r (execUnitHoldGrant fsn s) := by
  unfold execUnitHoldGrant
  repeat' first
    | exact within_trans (by decide) hB
    | with_reducible assumption
    | with_reducible refine updOut_next ?_
    | with_reducible apply upd_holdGrant

theorem upd_execJournalGroupClose (gid) (h : Upd B r s) (hB : within 678625298 B) : UpdOut B r (execJournalGroupClose gid s) := by
  unfold execJournalGroupClose
  repeat' first
    | exact within_trans (by decide) hB
    | with_reducible assumption
    | with_reducible refine updOut_next ?_
    | with_reducible apply upd_closeGroup

end Sys2Proof.Machine
end

