-- ==== Sys2Proof/Laws/UpdStripe.lean ====
section
/-! SUPPORT. What the functions of Machine/Stripe.lean can change (Laws/Upd.lean). -/
namespace Sys2Proof.Machine
variable {B : Nat} {r s : State}

theorem upd_spillOldest (q) (h : Upd B r s) (hB : within 138412048 B) : Upd B r (State.spillOldest s q) := by
  unfold State.spillOldest
  repeat' first
    | exact within_trans (by decide) hB
    | with_reducible assumption
    | with_reducible apply upd_jnlSystem
    | with_reducible apply upd_onMed
    | (extract_lets +onlyGivenNames x; clear_value x; revert x; intro _)
    | with_reducible refine updO_map _ ?_
    | with_reducible refine updOP_map _ ?_
    | with_reducible refine updOPP_map _ ?_
    | split

theorem upd_accTake (q) (seg) (line) (slc) (p) (unit) (h : Upd B r s) (hB : within 138412048 B) : Upd B r (State.accTake s q seg line slc p unit) := by
  unfold State.accTake
  repeat' first
    | exact within_trans (by decide) hB
    | with_reducible assumption
    | with_reducible apply upd_spillOldest
    | with_reducible apply upd_onMed
    | with_reducible refine updO_map _ ?_
    | with_reducible refine updOP_map _ ?_
    | with_reducible refine updOPP_map _ ?_
    | split

theorem upd_eraseBlocks (ch) (lun) (chunk) (bs) (slc) (h : Upd B r s) (hB : within 138413072 B) : Upd B r (State.eraseBlocks s ch lun chunk bs slc) := by
  unfold State.eraseBlocks
  repeat' first
    | exact within_trans (by decide) hB
    | with_reducible assumption
    | with_reducible apply upd_takeStamp
    | with_reducible apply upd_jnlSystem
    | with_reducible apply upd_onChunk
    | with_reducible apply upd_onMed
    | (extract_lets +onlyGivenNames x; refine upd_let (B := B) (r := r) (x := x) ?_ (fun hx => ?_); rotate_left; clear_value x; revert x; intro _ _; rotate_left; unfold x; clear x)
    | (extract_lets +onlyGivenNames x; clear_value x; revert x; intro _)
    | with_reducible intro _ _ _ _
    | with_reducible intro _ _ _
    | with_reducible intro _ _
    | split

theorem upd_eraseAs (ch) (lun) (chunk) (slc) (h : Upd B r s) (hB : within 138413072 B) : Upd B r (State.eraseAs s ch lun chunk slc) := by
  unfold State.eraseAs
  repeat' first
    | exact within_trans (by decide) hB
    | with_reducible assumption
    | with_reducible apply upd_takeStamp
    | with_reducible apply upd_jnlSystem
    | with_reducible apply upd_eraseBlocks
    | (extract_lets +onlyGivenNames x; refine upd_let (B := B) (r := r) (x := x) ?_ (fun hx => ?_); rotate_left; clear_value x; revert x; intro _ _; rotate_left; unfold x; clear x)
    | (extract_lets +onlyGivenNames x; clear_value x; revert x; intro _)

theorem upd_eraseFree (ch) (lun) (chunk) (h : Upd B r s) (hB : within 138413072 B) : Upd B r (State.eraseFree s ch lun chunk) := by
  unfold State.eraseFree
  repeat' first
    | exact within_trans (by decide) hB
    | with_reducible assumption
    | with_reducible apply upd_onChunk
    | with_reducible apply upd_eraseAs
    | with_reducible intro _ _ _ _
    | with_reducible intro _ _ _
    | with_reducible intro _ _

theorem upd_putParity (line) (a) (loc) (h : Upd B r s) (hB : within 134217728 B) : Upd B r (State.putParity s line a loc) := by
  unfold State.putParity
  repeat' first
    | exact within_trans (by decide) hB
    | with_reducible assumption
    | with_reducible apply upd_onMed
    | (extract_lets +onlyGivenNames x; refine upd_let (B := B) (r := r) (x := x) ?_ (fun hx => ?_); rotate_left; clear_value x; revert x; intro _ _; rotate_left; unfold x; clear x)
    | (extract_lets +onlyGivenNames x; clear_value x; revert x; intro _)
    | with_reducible refine upd_foldl _ ?_ ?_
    | with_reducible intro _ _ _ _
    | with_reducible intro _ _ _
    | with_reducible intro _ _
    | split

theorem upd_closeLine (q) (seg) (line) (a) (cs) (h : Upd B r s) (hB : within 134217728 B) : Upd B r (State.closeLine s q seg line a cs) := by
  unfold State.closeLine
  repeat' first
    | exact within_trans (by decide) hB
    | with_reducible assumption
    | with_reducible apply upd_putParity
    | with_reducible apply upd_onMed
    | with_reducible refine updO_map _ ?_
    | with_reducible refine updOP_map _ ?_
    | with_reducible refine updOPP_map _ ?_
    | with_reducible intro _ _ _ _
    | with_reducible intro _ _ _
    | with_reducible intro _ _

theorem upd_putSector (lk) (loc) (qlc) (h : Upd B r s) (hB : within 136314880 B) : Upd B r (State.putSector s lk loc qlc) := by
  unfold State.putSector
  repeat' first
    | exact within_trans (by decide) hB
    | with_reducible assumption
    | with_reducible apply upd_onMed
    | with_reducible apply upd_onLnd
    | split

theorem upd_putMeta (g) (u) (h : Upd B r s) (hB : within 134217728 B) : Upd B r (State.putMeta s g u) := by
  unfold State.putMeta
  repeat' first
    | exact within_trans (by decide) hB
    | with_reducible assumption
    | with_reducible apply upd_onMed
    | (extract_lets +onlyGivenNames x; refine upd_let (B := B) (r := r) (x := x) ?_ (fun hx => ?_); rotate_left; clear_value x; revert x; intro _ _; rotate_left; unfold x; clear x)
    | (extract_lets +onlyGivenNames x; clear_value x; revert x; intro _)
    | with_reducible refine upd_foldl _ ?_ ?_
    | with_reducible intro _ _ _ _
    | with_reducible intro _ _ _
    | with_reducible intro _ _
    | split

theorem upd_markMissed (q) (seg) (line) (h : Upd B r s) (hB : within 134217728 B) : Upd B r (State.markMissed s q seg line) := by
  unfold State.markMissed
  repeat' first
    | exact within_trans (by decide) hB
    | with_reducible assumption
    | with_reducible apply upd_onChunk
    | with_reducible refine upd_foldl _ ?_ ?_
    | with_reducible intro _ _ _ _
    | with_reducible intro _ _ _
    | with_reducible intro _ _
    | split

theorem upd_lineDone (q seg line) (h : Upd B r s) (hB : within 136314880 B) : Upd B r (State.lineDone s q seg line) := by
  unfold State.lineDone
  split
  · extract_lets gone
    split
    · exact h
    · rename_i cs w hne
      have hw : UpdSP B r w := updSP_foldl _ (updSP_mk _ h) (fun p a hp => by
        refine updSP_mk _ ?_
        exact upd_foldl _ hp.fst (fun _ _ h => upd_putSector _ _ _ h (within_trans (by decide) hB)))
      clear_value w
      exact upd_closeLine _ _ _ _ _ hw.fst (within_trans (by decide) hB)
  · exact h

theorem upd_eraseSeg (g) (h : Upd B r s) (hB : within 138413072 B) : Upd B r (State.eraseSeg s g) := by
  unfold State.eraseSeg
  repeat' first
    | exact within_trans (by decide) hB
    | with_reducible assumption
    | with_reducible apply upd_eraseFree
    | with_reducible apply upd_onMed
    | (extract_lets +onlyGivenNames x; refine upd_let (B := B) (r := r) (x := x) ?_ (fun hx => ?_); rotate_left; clear_value x; revert x; intro _ _; rotate_left; unfold x; clear x)
    | (extract_lets +onlyGivenNames x; clear_value x; revert x; intro _)
    | with_reducible refine upd_foldl _ ?_ ?_
    | with_reducible intro _ _ _ _
    | with_reducible intro _ _ _
    | with_reducible intro _ _
    | split

theorem upd_putMetaUnit (g) (u) (h : Upd B r s) (hB : within 140509200 B) : Upd B r (State.putMetaUnit s g u) := by
  unfold State.putMetaUnit
  repeat' first
    | exact within_trans (by decide) hB
    | with_reducible assumption
    | with_reducible apply upd_putMeta
    | with_reducible apply upd_onChunk
    | with_reducible apply upd_lineDone
    | with_reducible apply upd_accTake
    | (extract_lets +onlyGivenNames x; refine upd_let (B := B) (r := r) (x := x) ?_ (fun hx => ?_); rotate_left; clear_value x; revert x; intro _ _; rotate_left; unfold x; clear x)
    | (extract_lets +onlyGivenNames x; clear_value x; revert x; intro _)
    | with_reducible refine updO_map _ ?_
    | with_reducible refine updOP_map _ ?_
    | with_reducible refine updOPP_map _ ?_
    | with_reducible intro _ _ _ _
    | with_reducible intro _ _ _
    | with_reducible intro _ _

theorem upd_finishSeg (g) (h : Upd B r s) (hB : within 140509200 B) : Upd B r (State.finishSeg s g) := by
  unfold State.finishSeg
  repeat' first
    | exact within_trans (by decide) hB
    | with_reducible assumption
    | with_reducible apply upd_putMetaUnit
    | with_reducible apply upd_closeLine
    | with_reducible apply upd_onMed
    | (extract_lets +onlyGivenNames x; refine upd_let (B := B) (r := r) (x := x) ?_ (fun hx => ?_); rotate_left; clear_value x; revert x; intro _ _; rotate_left; unfold x; clear x)
    | (extract_lets +onlyGivenNames x; clear_value x; revert x; intro _)
    | with_reducible refine updO_map _ ?_
    | with_reducible refine updOP_map _ ?_
    | with_reducible refine updOPP_map _ ?_
    | with_reducible refine upd_foldl _ ?_ ?_
    | with_reducible intro _ _ _ _
    | with_reducible intro _ _ _
    | with_reducible intro _ _

theorem upd_tailScan (h : Upd B r s) (hB : within 134217728 B) : Upd B r (State.tailScan s) := by
  unfold State.tailScan
  repeat' first
    | exact within_trans (by decide) hB
    | with_reducible assumption
    | with_reducible apply upd_closeLine
    | (extract_lets +onlyGivenNames x; refine upd_let (B := B) (r := r) (x := x) ?_ (fun hx => ?_); rotate_left; clear_value x; revert x; intro _ _; rotate_left; unfold x; clear x)
    | (extract_lets +onlyGivenNames x; clear_value x; revert x; intro _)
    | with_reducible refine updO_map _ ?_
    | with_reducible refine updOP_map _ ?_
    | with_reducible refine updOPP_map _ ?_
    | with_reducible refine upd_foldl _ ?_ ?_
    | with_reducible intro _ _ _ _
    | with_reducible intro _ _ _
    | with_reducible intro _ _

end Sys2Proof.Machine
end

