-- ==== Sys2Proof/Laws/UpdHostIo.lean ====
section
/-! SUPPORT. What the functions of Machine/HostIo.lean can change (Laws/Upd.lean). -/
namespace Sys2Proof.Machine
variable {B : Nat} {r s : State}

theorem upd_appendRow (fsn) (h : Upd B r s) (hB : within 1245202 B) : Upd B r (State.appendRow s fsn) := by
  unfold State.appendRow
  repeat' first
    | exact within_trans (by decide) hB
    | with_reducible assumption
    | with_reducible apply upd_complete
    | with_reducible apply upd_onCmd
    | split

theorem upd_beginRead (c) (n) (h : Upd B r s) (hB : within 1245202 B) : Upd B r (State.beginRead s c n) := by
  unfold State.beginRead
  repeat' first
    | exact within_trans (by decide) hB
    | with_reducible assumption
    | with_reducible apply upd_complete
    | with_reducible apply upd_onCmd
    | with_reducible apply upd_askLocks
    | split

theorem upd_poisonSlot (q) (key) (fsn) (h : Upd B r s) (hB : within 542118930 B) : Upd B r (State.poisonSlot s q key fsn) := by
  unfold State.poisonSlot
  repeat' first
    | exact within_trans (by decide) hB
    | with_reducible assumption
    | with_reducible apply upd_raiseFault
    | with_reducible apply upd_raiseEvt
    | with_reducible apply upd_poisonKey

theorem upd_egress (src) (key) (fsn) (d) (h : Upd B r s) (hB : within 5138 B) : UpdP B r (State.egress s src key fsn d) := by
  unfold State.egress
  repeat' first
    | exact within_trans (by decide) hB
    | with_reducible assumption
    | with_reducible refine updP_mk _ ?_
    | with_reducible refine UpdP.get ?_ (by assumption)
    | with_reducible apply upd_fabric
    | with_reducible refine UpdP.snd (upd_fabric (h := ?_) (hB := ?_) ..)
    | with_reducible apply upd_raiseFault
    | with_reducible apply upd_raiseEvt
    | split

theorem upd_mediaBlock (n) (nsid) (key) (ch) (lun) (page) (cw) (fsn) (lost) (crc) (h : Upd B r s) (hB : within 542118930 B) : UpdP B r (State.mediaBlock s n nsid key ch lun page cw fsn lost crc) := by
  unfold State.mediaBlock
  repeat' first
    | exact within_trans (by decide) hB
    | with_reducible assumption
    | with_reducible refine updP_mk _ ?_
    | with_reducible refine UpdP.get ?_ (by assumption)
    | with_reducible apply upd_poisonSlot
    | with_reducible apply upd_raiseFault
    | with_reducible apply upd_egress
    | with_reducible refine UpdP.snd (upd_egress (h := ?_) (hB := ?_) ..)
    | with_reducible exact UpdP.snd (by assumption)
    | split

theorem upd_readBlock (n nsid lba e fsn lost crc) (h : Upd B r s) (hB : within 1615860754 B) : UpdP B r (State.readBlock s n nsid lba e fsn lost crc) := by
  unfold State.readBlock
  repeat' first
    | exact within_trans (by decide) hB
    | with_reducible assumption
    | with_reducible apply upd_raiseFault
    | with_reducible apply upd_egress
    | with_reducible apply upd_mediaBlock
    | with_reducible apply upd_readSector
    | with_reducible exact UpdP.snd (by assumption)
    | (extract_lets +onlyGivenNames x; refine upd_letP (B := B) (r := r) (x := x) ?_ (fun hx => ?_); rotate_left; clear_value x; revert x; intro _ _; rotate_left; unfold x; clear x)
    | split
    | with_reducible refine updP_mk _ ?_

theorem upd_readRange (n nsid fsn lost crc a i l) (h : Upd B r s) (hB : within 1615860754 B) : UpdP B r (State.readRange s n nsid fsn lost crc a i l) := by
  induction l generalizing s a i with
  | nil => exact h
  | cons e l ih =>
    have h1 := upd_readBlock n nsid a e fsn (lost.contains i) (crc.contains i) h (within_trans (by decide) hB)
    unfold State.readRange
    split
    · exact h1.get (by assumption)
    · have h2 := ih (a + 1) (i + 1) (h1.get (by assumption))
      split
      · exact h2.get (by assumption)
      · exact h2

theorem upd_readAll (n nsid fsn lost crc i l) (h : Upd B r s) (hB : within 1615860754 B) : UpdP B r (State.readAll s n nsid fsn lost crc i l) := by
  induction l generalizing s i with
  | nil => exact h
  | cons p l ih =>
    have h1 := upd_readRange n nsid fsn lost crc p.1 i (s.seenRange n nsid p.1 p.2) h (within_trans (by decide) hB)
    unfold State.readAll
    split
    · exact h1.get (by assumption)
    · have h2 := ih (i + p.2) (h1.get (by assumption))
      split
      · exact h2.get (by assumption)
      · exact h2

theorem upd_copyRow (fsn) (lost) (crc) (h : Upd B r s) (hB : within 1618940946 B) : Upd B r (State.copyRow s fsn lost crc) := by
  unfold State.copyRow
  repeat' first
    | exact within_trans (by decide) hB
    | with_reducible assumption
    | with_reducible refine UpdP.get ?_ (by assumption)
    | with_reducible apply upd_complete
    | with_reducible apply upd_onCmd
    | with_reducible apply upd_askLocks
    | with_reducible apply upd_walkAll
    | with_reducible apply upd_readAll
    | with_reducible apply upd_discardWrite
    | (extract_lets +onlyGivenNames x; refine upd_let (B := B) (r := r) (x := x) ?_ (fun hx => ?_); rotate_left; clear_value x; revert x; intro _ _; rotate_left; unfold x; clear x)
    | (extract_lets +onlyGivenNames x; clear_value x; revert x; intro _)
    | with_reducible refine updO_map _ ?_
    | with_reducible refine updOP_map _ ?_
    | with_reducible refine updOPP_map _ ?_
    | split

theorem upd_deallocUnit (nsid) (u) (mine) (h : Upd B r s) (hB : within 542375952 B) : UpdP B r (State.deallocUnit s nsid u mine) := by
  unfold State.deallocUnit
  repeat' first
    | exact within_trans (by decide) hB
    | with_reducible assumption
    | with_reducible refine updP_mk _ ?_
    | with_reducible apply upd_onNs
    | with_reducible apply upd_setCoarse
    | with_reducible apply upd_setBlock
    | with_reducible refine upd_foldl _ ?_ ?_
    | with_reducible intro _ _ _
    | split

theorem upd_deallocAll (nsid) (n) (rs) (h : Upd B r s) (hB : within 542375952 B) : UpdP B r (State.deallocAll s nsid n rs) := by
  unfold State.deallocAll
  repeat' first
    | exact within_trans (by decide) hB
    | with_reducible assumption
    | with_reducible refine updP_mk _ ?_
    | with_reducible refine UpdP.snd (upd_deallocUnit (h := ?_) (hB := ?_) ..)
    | with_reducible exact UpdP.snd (by assumption)
    | with_reducible intro _ _ _
    | with_reducible refine UpdP.snd (updP_foldl _ ?_ ?_)
    | with_reducible refine updP_mk _ ?_
    | with_reducible exact UpdP.snd (by assumption)

theorem upd_dsmRow (fsn) (h : Upd B r s) (hB : within 542572562 B) : Upd B r (State.dsmRow s fsn) := by
  unfold State.dsmRow
  repeat' first
    | exact within_trans (by decide) hB
    | with_reducible assumption
    | with_reducible apply upd_complete
    | with_reducible apply upd_askLocks
    | with_reducible apply upd_deallocAll
    | with_reducible apply upd_openGroup
    | (extract_lets +onlyGivenNames x; refine upd_letP (B := B) (r := r) (x := x) ?_ (fun hx => ?_); rotate_left; clear_value x; revert x; intro _ _; rotate_left; unfold x; clear x)
    | with_reducible exact UpdP.snd (by assumption)
    | (extract_lets +onlyGivenNames x; refine upd_let (B := B) (r := r) (x := x) ?_ (fun hx => ?_); rotate_left; clear_value x; revert x; intro _ _; rotate_left; unfold x; clear x)
    | (extract_lets +onlyGivenNames x; clear_value x; revert x; intro _)
    | with_reducible refine updO_map _ ?_
    | with_reducible refine updOP_map _ ?_
    | with_reducible refine updOPP_map _ ?_
    | with_reducible refine upd_foldl _ ?_ ?_
    | with_reducible intro _ _ _
    | split

theorem upd_flushRow (fsn) (h : Upd B r s) (hB : within 1245202 B) : Upd B r (State.flushRow s fsn) := by
  unfold State.flushRow
  repeat' first
    | exact within_trans (by decide) hB
    | with_reducible assumption
    | with_reducible apply upd_complete
    | with_reducible apply upd_flushDone
    | with_reducible apply upd_onCmd
    | split

theorem upd_lookRead (c) (n) (h : Upd B r s) (hB : within 1611731986 B) : Upd B r (State.lookRead s c n) := by
  unfold State.lookRead
  repeat' first
    | exact within_trans (by decide) hB
    | with_reducible assumption
    | with_reducible apply upd_walkAll
    | with_reducible apply upd_onCmd
    | (extract_lets +onlyGivenNames x; refine upd_let (B := B) (r := r) (x := x) ?_ (fun hx => ?_); rotate_left; clear_value x; revert x; intro _ _; rotate_left; unfold x; clear x)
    | (extract_lets +onlyGivenNames x; clear_value x; revert x; intro _)
    | with_reducible refine updO_map _ ?_
    | with_reducible refine updOP_map _ ?_
    | with_reducible refine updOPP_map _ ?_
    | with_reducible intro _ _ _ _
    | with_reducible intro _ _ _
    | with_reducible intro _ _
    | split

theorem upd_offlineZone (nsid) (n) (z) (h : Upd B r s) (hB : within 140443666 B) : Upd B r (State.offlineZone s nsid n z) := by
  unfold State.offlineZone
  repeat' first
    | exact within_trans (by decide) hB
    | with_reducible assumption
    | with_reducible apply upd_onZone
    | with_reducible apply upd_onNs
    | with_reducible apply upd_onCtrl
    | with_reducible apply upd_aenTo
    | with_reducible apply upd_jnlSystem
    | with_reducible apply upd_onMed
    | with_reducible refine upd_foldl _ ?_ ?_
    | with_reducible intro _ _ _

theorem upd_readRow (fsn) (opc) (lost) (crc) (finish) (h : Upd B r s) (hB : within 1616057362 B) : Upd B r (State.readRow s fsn opc lost crc finish) := by
  unfold State.readRow
  repeat' first
    | exact within_trans (by decide) hB
    | with_reducible assumption
    | with_reducible refine UpdP.get ?_ (by assumption)
    | with_reducible apply upd_beginRead
    | with_reducible apply upd_lookRead
    | with_reducible apply upd_readRange
    | with_reducible apply upd_complete
    | split

theorem upd_unmapZone (nsid) (n) (z) (h : Upd B r s) (hB : within 676331536 B) : Upd B r (State.unmapZone s nsid n z) := by
  unfold State.unmapZone
  repeat' first
    | exact within_trans (by decide) hB
    | with_reducible assumption
    | with_reducible apply upd_setCoarse
    | with_reducible apply upd_freeSeg
    | with_reducible apply upd_onMed
    | with_reducible refine upd_foldl _ ?_ ?_
    | with_reducible intro _ _ _

theorem upd_writeRow (fsn) (h : Upd B r s) (hB : within 1245202 B) : Upd B r (State.writeRow s fsn) := by
  unfold State.writeRow
  repeat' first
    | exact within_trans (by decide) hB
    | with_reducible assumption
    | with_reducible apply upd_complete
    | with_reducible apply upd_onCmd
    | with_reducible apply upd_askLocks
    | split

theorem upd_zeroesRow (fsn) (h : Upd B r s) (hB : within 1618416658 B) : Upd B r (State.zeroesRow s fsn) := by
  unfold State.zeroesRow
  repeat' first
    | exact within_trans (by decide) hB
    | with_reducible assumption
    | with_reducible apply upd_zeroesGranted
    | with_reducible apply upd_askLocks
    | split

theorem upd_zoneAct (c) (n) (act) (z) (h : Upd B r s) (hB : within 679411730 B) : UpdP B r (State.zoneAct s c n act z) := by
  unfold State.zoneAct
  repeat' first
    | exact within_trans (by decide) hB
    | with_reducible assumption
    | with_reducible refine updP_mk _ ?_
    | with_reducible apply upd_onZone
    | with_reducible apply upd_openGroup
    | with_reducible apply upd_finishSeg
    | with_reducible apply upd_onNs
    | with_reducible apply upd_unmapZone
    | with_reducible apply upd_offlineZone
    | (extract_lets +onlyGivenNames x; refine upd_let (B := B) (r := r) (x := x) ?_ (fun hx => ?_); rotate_left; clear_value x; revert x; intro _ _; rotate_left; unfold x; clear x)
    | (extract_lets +onlyGivenNames x; clear_value x; revert x; intro _)
    | with_reducible refine upd_foldl _ ?_ ?_
    | with_reducible intro _ _ _ _
    | with_reducible intro _ _ _
    | with_reducible intro _ _
    | split

theorem upd_zoneReport (fsn) (h : Upd B r s) (hB : within 1245202 B) : Upd B r (State.zoneReport s fsn) := by
  unfold State.zoneReport
  repeat' first
    | exact within_trans (by decide) hB
    | with_reducible assumption
    | with_reducible apply upd_complete
    | split

theorem upd_zoneRow (fsn) (act) (h : Upd B r s) (hB : within 679411730 B) : Upd B r (State.zoneRow s fsn act) := by
  unfold State.zoneRow
  repeat' first
    | exact within_trans (by decide) hB
    | with_reducible assumption
    | with_reducible apply upd_complete
    | with_reducible refine UpdP.snd (upd_zoneAct (h := ?_) (hB := ?_) ..)
    | with_reducible exact UpdP.snd (by assumption)
    | with_reducible intro _ _ _
    | with_reducible refine UpdP.snd (updP_foldl _ ?_ ?_)
    | with_reducible refine updP_mk _ ?_
    | with_reducible exact UpdP.snd (by assumption)
    | split

theorem upd_execFlush (fsn) (h : Upd B r s) (hB : within 1245202 B) : UpdOut B r (execFlush fsn s) := by
  unfold execFlush
  repeat' first
    | exact within_trans (by decide) hB
    | with_reducible assumption
    | with_reducible refine updOut_next ?_
    | with_reducible apply upd_flushRow

theorem upd_execWrite (fsn) (h : Upd B r s) (hB : within 1245202 B) : UpdOut B r (execWrite fsn s) := by
  unfold execWrite
  repeat' first
    | exact within_trans (by decide) hB
    | with_reducible assumption
    | with_reducible refine updOut_next ?_
    | with_reducible apply upd_writeRow

theorem upd_execRead (fsn) (lost) (crc) (h : Upd B r s) (hB : within 1616057362 B) : UpdOut B r (execRead fsn lost crc s) := by
  unfold execRead
  repeat' first
    | exact within_trans (by decide) hB
    | with_reducible assumption
    | with_reducible refine updOut_next ?_
    | with_reducible apply upd_readRow

theorem upd_execCompare (fsn) (lost) (crc) (h : Upd B r s) (hB : within 1616057362 B) : UpdOut B r (execCompare fsn lost crc s) := by
  unfold execCompare
  repeat' first
    | exact within_trans (by decide) hB
    | with_reducible assumption
    | with_reducible refine updOut_next ?_
    | with_reducible apply upd_readRow

theorem upd_execWriteZeroes (fsn) (h : Upd B r s) (hB : within 1618416658 B) : UpdOut B r (execWriteZeroes fsn s) := by
  unfold execWriteZeroes
  repeat' first
    | exact within_trans (by decide) hB
    | with_reducible assumption
    | with_reducible refine updOut_next ?_
    | with_reducible apply upd_zeroesRow

theorem upd_execDatasetManagement (fsn) (h : Upd B r s) (hB : within 542572562 B) : UpdOut B r (execDatasetManagement fsn s) := by
  unfold execDatasetManagement
  repeat' first
    | exact within_trans (by decide) hB
    | with_reducible assumption
    | with_reducible refine updOut_next ?_
    | with_reducible apply upd_dsmRow

theorem upd_execVerify (fsn) (lost) (crc) (h : Upd B r s) (hB : within 1616057362 B) : UpdOut B r (execVerify fsn lost crc s) := by
  unfold execVerify
  repeat' first
    | exact within_trans (by decide) hB
    | with_reducible assumption
    | with_reducible refine updOut_next ?_
    | with_reducible apply upd_readRow

theorem upd_execCopy (fsn) (lost) (crc) (h : Upd B r s) (hB : within 1618940946 B) : UpdOut B r (execCopy fsn lost crc s) := by
  unfold execCopy
  repeat' first
    | exact within_trans (by decide) hB
    | with_reducible assumption
    | with_reducible refine updOut_next ?_
    | with_reducible apply upd_copyRow

theorem upd_execZoneClose (fsn) (h : Upd B r s) (hB : within 679411730 B) : UpdOut B r (execZoneClose fsn s) := by
  unfold execZoneClose
  repeat' first
    | exact within_trans (by decide) hB
    | with_reducible assumption
    | with_reducible refine updOut_next ?_
    | with_reducible apply upd_zoneRow

theorem upd_execZoneFinish (fsn) (h : Upd B r s) (hB : within 679411730 B) : UpdOut B r (execZoneFinish fsn s) := by
  unfold execZoneFinish
  repeat' first
    | exact within_trans (by decide) hB
    | with_reducible assumption
    | with_reducible refine updOut_next ?_
    | with_reducible apply upd_zoneRow

theorem upd_execZoneOpen (fsn) (h : Upd B r s) (hB : within 679411730 B) : UpdOut B r (execZoneOpen fsn s) := by
  unfold execZoneOpen
  repeat' first
    | exact within_trans (by decide) hB
    | with_reducible assumption
    | with_reducible refine updOut_next ?_
    | with_reducible apply upd_zoneRow

theorem upd_execZoneReset (fsn) (h : Upd B r s) (hB : within 679411730 B) : UpdOut B r (execZoneReset fsn s) := by
  unfold execZoneReset
  repeat' first
    | exact within_trans (by decide) hB
    | with_reducible assumption
    | with_reducible refine updOut_next ?_
    | with_reducible apply upd_zoneRow

theorem upd_execZoneOffline (fsn) (h : Upd B r s) (hB : within 679411730 B) : UpdOut B r (execZoneOffline fsn s) := by
  unfold execZoneOffline
  repeat' first
    | exact within_trans (by decide) hB
    | with_reducible assumption
    | with_reducible refine updOut_next ?_
    | with_reducible apply upd_zoneRow

theorem upd_execZoneManagementReceive (fsn) (h : Upd B r s) (hB : within 1245202 B) : UpdOut B r (execZoneManagementReceive fsn s) := by
  unfold execZoneManagementReceive
  repeat' first
    | exact within_trans (by decide) hB
    | with_reducible assumption
    | with_reducible refine updOut_next ?_
    | with_reducible apply upd_zoneReport

theorem upd_execZoneAppend (fsn) (h : Upd B r s) (hB : within 1245202 B) : UpdOut B r (execZoneAppend fsn s) := by
  unfold execZoneAppend
  repeat' first
    | exact within_trans (by decide) hB
    | with_reducible assumption
    | with_reducible refine updOut_next ?_
    | with_reducible apply upd_appendRow

end Sys2Proof.Machine
end

