-- ==== Sys2Proof/Laws/UpdCaLane.lean ====
section
/-! SUPPORT. What the functions of Machine/CaLane.lean can change (Laws/Upd.lean). -/
namespace Sys2Proof.Machine
variable {B : Nat} {r s : State}

theorem upd_onChan (c) (f) (h : Upd B r s) (hB : within 134217728 B) : Upd B r (State.onChan s c f) := by
  unfold State.onChan
  repeat' first
    | exact within_trans (by decide) hB
    | with_reducible assumption
    | with_reducible apply upd_onMed

theorem upd_stopRe (ch) (h : Upd B r s) (hB : within 134217728 B) : Upd B r (State.stopRe s ch) := by
  unfold State.stopRe
  repeat' first
    | exact within_trans (by decide) hB
    | with_reducible assumption
    | with_reducible apply upd_onChan
    | with_reducible intro _ _ _ _
    | with_reducible intro _ _ _
    | with_reducible intro _ _

theorem upd_laneWord (ch) (w) (first) (h : Upd B r s) (hB : within 134217728 B) : Upd B r (State.laneWord s ch w first) := by
  unfold State.laneWord
  repeat' first
    | exact within_trans (by decide) hB
    | with_reducible assumption
    | with_reducible apply upd_onChan
    | with_reducible apply upd_onLun
    | (extract_lets +onlyGivenNames x; refine upd_let (B := B) (r := r) (x := x) ?_ (fun hx => ?_); rotate_left; clear_value x; revert x; intro _ _; rotate_left; unfold x; clear x)
    | (extract_lets +onlyGivenNames x; clear_value x; revert x; intro _)
    | with_reducible refine upd_foldl _ ?_ ?_
    | with_reducible intro _ _ _ _
    | with_reducible intro _ _ _
    | with_reducible intro _ _
    | split

theorem upd_laneSync (ch) (h : Upd B r s) (hB : within 134217728 B) : Upd B r (State.laneSync s ch) := by
  unfold State.laneSync
  repeat' first
    | exact within_trans (by decide) hB
    | with_reducible assumption
    | with_reducible apply upd_laneWord

theorem upd_sendCa (ch) (lun) (ws) (h : Upd B r s) (hB : within 134217728 B) : Upd B r (State.sendCa s ch lun ws) := by
  unfold State.sendCa
  repeat' first
    | exact within_trans (by decide) hB
    | with_reducible assumption
    | with_reducible apply upd_onChan
    | with_reducible apply upd_laneSync
    | with_reducible apply upd_laneWord
    | (extract_lets +onlyGivenNames x; refine upd_let (B := B) (r := r) (x := x) ?_ (fun hx => ?_); rotate_left; clear_value x; revert x; intro _ _; rotate_left; unfold x; clear x)
    | (extract_lets +onlyGivenNames x; clear_value x; revert x; intro _)
    | with_reducible refine updO_map _ ?_
    | with_reducible refine updOP_map _ ?_
    | with_reducible refine updOPP_map _ ?_
    | with_reducible refine upd_foldl _ ?_ ?_
    | with_reducible intro _ _ _ _
    | with_reducible intro _ _ _
    | with_reducible intro _ _
    | split

theorem upd_pingLuns (ch) (ls) (h : Upd B r s) (hB : within 134217728 B) : Upd B r (State.pingLuns s ch ls) := by
  unfold State.pingLuns
  repeat' first
    | exact within_trans (by decide) hB
    | with_reducible assumption
    | with_reducible apply upd_onChan
    | with_reducible apply upd_sendCa
    | with_reducible refine upd_foldl _ ?_ ?_
    | with_reducible intro _ _ _ _
    | with_reducible intro _ _ _
    | with_reducible intro _ _

theorem upd_pingAll (ch) (h : Upd B r s) (hB : within 134217728 B) : Upd B r (State.pingAll s ch) := by
  unfold State.pingAll
  repeat' first
    | exact within_trans (by decide) hB
    | with_reducible assumption
    | with_reducible apply upd_pingLuns
    | split

theorem upd_startRe (ch) (h : Upd B r s) (hB : within 134217728 B) : Upd B r (State.startRe s ch) := by
  unfold State.startRe
  repeat' first
    | exact within_trans (by decide) hB
    | with_reducible assumption
    | with_reducible apply upd_laneSync
    | with_reducible apply upd_onChan
    | with_reducible intro _ _ _ _
    | with_reducible intro _ _ _
    | with_reducible intro _ _
    | split

theorem upd_exitSplit (ch) (ls) (h : Upd B r s) (hB : within 134217728 B) : Upd B r (State.exitSplit s ch ls) := by
  unfold State.exitSplit
  repeat' first
    | exact within_trans (by decide) hB
    | with_reducible assumption
    | with_reducible apply upd_sendCa
    | with_reducible refine upd_foldl _ ?_ ?_
    | with_reducible intro _ _ _ _
    | with_reducible intro _ _ _
    | with_reducible intro _ _

theorem upd_leaveSplit (ch) (h : Upd B r s) (hB : within 134217728 B) : Upd B r (State.leaveSplit s ch) := by
  unfold State.leaveSplit
  repeat' first
    | exact within_trans (by decide) hB
    | with_reducible assumption
    | with_reducible apply upd_onChan
    | with_reducible apply upd_exitSplit
    | with_reducible intro _ _ _ _
    | with_reducible intro _ _ _
    | with_reducible intro _ _

theorem upd_announce (ch) (bs) (h : Upd B r s) (hB : within 134217728 B) : Upd B r (State.announce s ch bs) := by
  unfold State.announce
  repeat' first
    | exact within_trans (by decide) hB
    | with_reducible assumption
    | with_reducible apply upd_onChan
    | with_reducible intro _ _ _ _
    | with_reducible intro _ _ _
    | with_reducible intro _ _

theorem upd_armSplit (ch) (ls) (h : Upd B r s) (hB : within 134217728 B) : Upd B r (State.armSplit s ch ls) := by
  unfold State.armSplit
  repeat' first
    | exact within_trans (by decide) hB
    | with_reducible assumption
    | with_reducible apply upd_onLun
    | with_reducible apply upd_laneSync
    | with_reducible apply upd_onChan
    | with_reducible apply upd_pingLuns
    | (extract_lets +onlyGivenNames x; refine upd_let (B := B) (r := r) (x := x) ?_ (fun hx => ?_); rotate_left; clear_value x; revert x; intro _ _; rotate_left; unfold x; clear x)
    | (extract_lets +onlyGivenNames x; clear_value x; revert x; intro _)
    | with_reducible refine upd_foldl _ ?_ ?_
    | with_reducible intro _ _ _ _
    | with_reducible intro _ _ _
    | with_reducible intro _ _

theorem upd_busFrame (ch) (h : Upd B r s) (hB : within 134217728 B) : Upd B r (State.busFrame s ch) := by
  unfold State.busFrame
  repeat' first
    | exact within_trans (by decide) hB
    | with_reducible assumption
    | with_reducible apply upd_onChan
    | with_reducible apply upd_laneSync
    | (extract_lets +onlyGivenNames x; refine upd_let (B := B) (r := r) (x := x) ?_ (fun hx => ?_); rotate_left; clear_value x; revert x; intro _ _; rotate_left; unfold x; clear x)
    | (extract_lets +onlyGivenNames x; clear_value x; revert x; intro _)
    | with_reducible intro _ _ _ _
    | with_reducible intro _ _ _
    | with_reducible intro _ _
    | split

theorem upd_statusSlot (ch) (lun) (page) (byte) (h : Upd B r s) (hB : within 134217728 B) : Upd B r (State.statusSlot s ch lun page byte) := by
  unfold State.statusSlot
  repeat' first
    | exact within_trans (by decide) hB
    | with_reducible assumption
    | with_reducible apply upd_sendCa
    | with_reducible apply upd_onChan
    | (extract_lets +onlyGivenNames x; refine upd_let (B := B) (r := r) (x := x) ?_ (fun hx => ?_); rotate_left; clear_value x; revert x; intro _ _; rotate_left; unfold x; clear x)
    | (extract_lets +onlyGivenNames x; clear_value x; revert x; intro _)
    | with_reducible intro _ _ _ _
    | with_reducible intro _ _ _
    | with_reducible intro _ _
    | split

theorem upd_calBus (ch) (h : Upd B r s) (hB : within 134217728 B) : Upd B r (State.calBus s ch) := by
  unfold State.calBus
  repeat' first
    | exact within_trans (by decide) hB
    | with_reducible assumption
    | with_reducible apply upd_sendCa
    | with_reducible refine upd_foldl _ ?_ ?_
    | with_reducible intro _ _ _ _
    | with_reducible intro _ _ _
    | with_reducible intro _ _
    | split

theorem upd_initBus (ch) (h : Upd B r s) (hB : within 134217728 B) : Upd B r (State.initBus s ch) := by
  unfold State.initBus
  repeat' first
    | exact within_trans (by decide) hB
    | with_reducible assumption
    | with_reducible apply upd_sendCa
    | with_reducible refine upd_foldl _ ?_ ?_
    | with_reducible intro _ _ _ _
    | with_reducible intro _ _ _
    | with_reducible intro _ _

end Sys2Proof.Machine
end

