-- ==== Sys2Proof/Laws/UpdMedia.lean ====
section
/-! SUPPORT. What the functions of Machine/Media.lean can change (Laws/Upd.lean). -/
namespace Sys2Proof.Machine
variable {B : Nat} {r s : State}

theorem upd_lunOut (ch) (lun) (h : Upd B r s) (hB : within 134222850 B) : Upd B r (State.lunOut s ch lun) := by
  unfold State.lunOut
  repeat' first
    | exact within_trans (by decide) hB
    | with_reducible assumption
    | with_reducible apply upd_raiseFault
    | with_reducible apply upd_onLun

theorem upd_calDue (ch) (h : Upd B r s) (hB : within 134217728 B) : Upd B r (State.calDue s ch) := by
  unfold State.calDue
  repeat' first
    | exact within_trans (by decide) hB
    | with_reducible assumption
    | with_reducible apply upd_onChan

theorem upd_pumpRing (b hd tl g l) (h : Upd B r s) (hB : within 16 B) : UpdSP B r (State.pumpRing s b hd tl g l) := by
  induction l generalizing s with
  | nil => exact h
  | cons p l ih =>
    unfold State.pumpRing
    split
    · exact h
    · exact ih (Upd.field _ _ _ (Upd.field _ _ _ (Upd.field _ _ _ h (within_trans (by decide) hB)) (within_trans (by decide) hB)) (within_trans (by decide) hB))

theorem upd_pumpCq (g) (h : Upd B r s) (hB : within 134217744 B) : Upd B r (State.pumpCq s g) := by
  unfold State.pumpCq
  repeat' first
    | exact within_trans (by decide) hB
    | with_reducible assumption
    | with_reducible refine UpdSP.fst (upd_pumpRing (h := ?_) (hB := ?_) ..)
    | with_reducible apply upd_onMed

theorem upd_endEntry (ch) (e) (status) (die) (h : Upd B r s) (hB : within 134217744 B) : Upd B r (State.endEntry s ch e status die) := by
  unfold State.endEntry
  repeat' first
    | exact within_trans (by decide) hB
    | with_reducible assumption
    | with_reducible apply upd_pumpCq
    | with_reducible apply upd_onMed

theorem upd_commitList (ch) (h : Upd B r s) (hB : within 134217744 B) : Upd B r (State.commitList s ch) := by
  unfold State.commitList
  repeat' first
    | exact within_trans (by decide) hB
    | with_reducible assumption
    | with_reducible apply upd_endEntry
    | with_reducible apply Upd.field
    | with_reducible apply upd_onChan
    | with_reducible exact UpdSP.fst (by assumption)
    | with_reducible intro _ _ _
    | with_reducible refine UpdSP.fst (updSP_foldl _ ?_ ?_)
    | with_reducible refine updSP_mk _ ?_
    | with_reducible exact UpdSP.fst (by assumption)
    | dsimp only
    | split

theorem upd_listCommit (g) (mask) (late) (h : Upd B r s) (hB : within 134222866 B) : Upd B r (State.listCommit s g mask late) := by
  unfold State.listCommit
  repeat' first
    | exact within_trans (by decide) hB
    | with_reducible assumption
    | with_reducible apply upd_raiseEvt
    | with_reducible apply upd_raiseFault
    | with_reducible apply upd_commitList
    | with_reducible refine upd_foldl _ ?_ ?_
    | with_reducible intro _ _ _
    | split

theorem upd_pumpDr (g) (h : Upd B r s) (hB : within 134217744 B) : Upd B r (State.pumpDr s g) := by
  unfold State.pumpDr
  repeat' first
    | exact within_trans (by decide) hB
    | with_reducible assumption
    | with_reducible refine UpdSP.fst (upd_pumpRing (h := ?_) (hB := ?_) ..)
    | with_reducible apply upd_onMed

theorem upd_admitLists (h : Upd B r s) (hB : within 134250496 B) : Upd B r (State.admitLists s) := by
  unfold State.admitLists
  repeat' first
    | exact within_trans (by decide) hB
    | with_reducible assumption
    | with_reducible apply upd_lookAt
    | with_reducible apply upd_onChan
    | with_reducible apply upd_onMed
    | with_reducible apply upd_onSched
    | (extract_lets +onlyGivenNames x; refine upd_let (B := B) (r := r) (x := x) ?_ (fun hx => ?_); rotate_left; clear_value x; revert x; intro _ _; rotate_left; unfold x; clear x)
    | (extract_lets +onlyGivenNames x; clear_value x; revert x; intro _)
    | with_reducible refine updO_map _ ?_
    | with_reducible refine updOP_map _ ?_
    | with_reducible refine updOPP_map _ ?_
    | with_reducible refine upd_foldl _ ?_ ?_
    | with_reducible intro _ _ _ _
    | with_reducible intro _ _ _
    | with_reducible intro _ _
    | split

theorem upd_caParity (ch) (i) (h : Upd B r s) (hB : within 134222866 B) : Upd B r (State.caParity s ch i) := by
  unfold State.caParity
  repeat' first
    | exact within_trans (by decide) hB
    | with_reducible assumption
    | with_reducible apply upd_onLun
    | with_reducible apply upd_onChan
    | with_reducible apply upd_sendCa
    | with_reducible apply upd_laneSync
    | with_reducible apply upd_statusSlot
    | with_reducible apply upd_raiseFault
    | with_reducible apply upd_raiseEvt
    | with_reducible apply upd_endEntry
    | with_reducible apply upd_calDue
    | (extract_lets +onlyGivenNames x; refine upd_let (B := B) (r := r) (x := x) ?_ (fun hx => ?_); rotate_left; clear_value x; revert x; intro _ _; rotate_left; unfold x; clear x)
    | (extract_lets +onlyGivenNames x; clear_value x; revert x; intro _)
    | split

theorem upd_calEnd (ch) (shift) (eye) (h : Upd B r s) (hB : within 169022738 B) : Upd B r (State.calEnd s ch shift eye) := by
  unfold State.calEnd
  repeat' first
    | exact within_trans (by decide) hB
    | with_reducible assumption
    | with_reducible apply upd_onChan
    | with_reducible apply upd_raiseEvt
    | with_reducible apply upd_leaveSplit
    | with_reducible apply upd_fenceUnit
    | with_reducible apply upd_raiseFault
    | (extract_lets +onlyGivenNames x; refine upd_let (B := B) (r := r) (x := x) ?_ (fun hx => ?_); rotate_left; clear_value x; revert x; intro _ _; rotate_left; unfold x; clear x)
    | split

theorem upd_grownDone (ch) (lun) (chunk) (h : Upd B r s) (hB : within 134217728 B) : Upd B r (State.grownDone s ch lun chunk) := by
  unfold State.grownDone
  repeat' first
    | exact within_trans (by decide) hB
    | with_reducible assumption
    | with_reducible apply upd_onMed
    | with_reducible refine updO_map _ ?_
    | with_reducible refine updOP_map _ ?_
    | with_reducible refine updOPP_map _ ?_

theorem upd_moveChunk (k) (k2) (h : Upd B r s) (hB : within 139460624 B) : Upd B r (State.moveChunk s k k2) := by
  unfold State.moveChunk
  repeat' first
    | exact within_trans (by decide) hB
    | with_reducible assumption
    | with_reducible apply upd_jnlGroup
    | with_reducible apply upd_onChunk
    | with_reducible apply upd_onMed
    | with_reducible apply upd_onMap
    | with_reducible refine updO_map _ ?_
    | with_reducible refine updOP_map _ ?_
    | with_reducible refine updOPP_map _ ?_
    | with_reducible refine upd_foldl _ ?_ ?_
    | with_reducible intro _ _ _

theorem upd_grownRoom (h : Upd B r s) (hB : within 134217728 B) : Upd B r (State.grownRoom s) := by
  unfold State.grownRoom
  repeat' first
    | exact within_trans (by decide) hB
    | with_reducible assumption
    | with_reducible apply upd_onMed
    | split

theorem upd_retireChunk (ch) (lun) (chunk) (reason) (h : Upd B r s) (hB : within 134218768 B) : Upd B r (State.retireChunk s ch lun chunk reason) := by
  unfold State.retireChunk
  repeat' first
    | exact within_trans (by decide) hB
    | with_reducible assumption
    | with_reducible apply upd_grownRoom
    | with_reducible apply upd_takeStamp
    | with_reducible apply upd_raiseEvt
    | with_reducible apply upd_onChunk
    | with_reducible apply upd_onMed
    | (extract_lets +onlyGivenNames x; refine upd_let (B := B) (r := r) (x := x) ?_ (fun hx => ?_); rotate_left; clear_value x; revert x; intro _ _; rotate_left; unfold x; clear x)
    | (extract_lets +onlyGivenNames x; clear_value x; revert x; intro _)
    | split

theorem upd_relocate (ch lun chunk fails n) (h : Upd B r s) (hB : within 139465746 B) : UpdP B r (State.relocate s ch lun chunk fails n) := by
  induction n generalizing s fails with
  | zero => exact updP_mk _ (upd_raiseFault _ _ _ _ (upd_onChunk _ _ h (within_trans (by decide) hB)) (within_trans (by decide) hB))
  | succ n ih =>
    unfold State.relocate
    dsimp only
    repeat' first
      | exact within_trans (by decide) hB
      | with_reducible assumption
      | with_reducible apply ih
      | with_reducible refine UpdP.snd (ih _ ?_)
      | with_reducible refine updP_mk _ ?_
      | with_reducible apply upd_onChunk
      | with_reducible apply upd_moveChunk
      | with_reducible apply upd_grownDone
      | with_reducible apply upd_retireChunk
      | split

theorem upd_chunkReloc (ch) (lun) (chunk) (fails) (operator) (h : Upd B r s) (hB : within 139465746 B) : Upd B r (State.chunkReloc s ch lun chunk fails operator) := by
  unfold State.chunkReloc
  repeat' first
    | exact within_trans (by decide) hB
    | with_reducible assumption
    | with_reducible refine UpdP.get ?_ (by assumption)
    | with_reducible apply upd_relocate
    | with_reducible refine UpdP.snd (upd_relocate (h := ?_) (hB := ?_) ..)
    | with_reducible apply upd_grownDone
    | with_reducible apply upd_retireChunk
    | with_reducible apply upd_eraseFree
    | (extract_lets +onlyGivenNames x; refine upd_letP (B := B) (r := r) (x := x) ?_ (fun hx => ?_); rotate_left; clear_value x; revert x; intro _ _; rotate_left; unfold x; clear x)
    | with_reducible exact UpdP.snd (by assumption)
    | (extract_lets +onlyGivenNames x; refine upd_let (B := B) (r := r) (x := x) ?_ (fun hx => ?_); rotate_left; clear_value x; revert x; intro _ _; rotate_left; unfold x; clear x)
    | (extract_lets +onlyGivenNames x; clear_value x; revert x; intro _)
    | split

theorem upd_climb (ch) (lun) (page) (cw) (retry) (h : Upd B r s) (hB : within 134217728 B) : Upd B r (State.climb s ch lun page cw retry) := by
  unfold State.climb
  repeat' first
    | exact within_trans (by decide) hB
    | with_reducible assumption
    | with_reducible apply upd_onChan
    | with_reducible intro _ _ _ _
    | with_reducible intro _ _ _
    | with_reducible intro _ _
    | split

theorem upd_closeSlcLine (q) (stripe) (line) (h : Upd B r s) (hB : within 136314880 B) : Upd B r (State.closeSlcLine s q stripe line) := by
  unfold State.closeSlcLine
  repeat' first
    | exact within_trans (by decide) hB
    | with_reducible assumption
    | with_reducible apply upd_putParity
    | with_reducible apply upd_onMed
    | with_reducible apply upd_onLnd
    | with_reducible refine updO_map _ ?_
    | with_reducible refine updOP_map _ ?_
    | with_reducible refine updOPP_map _ ?_
    | split

theorem upd_closeStream (ch) (lun) (h : Upd B r s) (hB : within 134217728 B) : Upd B r (State.closeStream s ch lun) := by
  unfold State.closeStream
  repeat' first
    | exact within_trans (by decide) hB
    | with_reducible assumption
    | with_reducible apply upd_onLun
    | with_reducible apply upd_sendCa
    | split

theorem upd_eraseCheck (ch) (lun) (page) (cw) (status) (h : Upd B r s) (hB : within 138413072 B) : Upd B r (State.eraseCheck s ch lun page cw status) := by
  unfold State.eraseCheck
  repeat' first
    | exact within_trans (by decide) hB
    | with_reducible assumption
    | with_reducible apply upd_onChunk
    | with_reducible apply upd_eraseFree
    | with_reducible apply upd_grownDone
    | with_reducible apply upd_retireChunk
    | (extract_lets +onlyGivenNames x; clear_value x; revert x; intro _)
    | split

theorem upd_queueRefresh (ch) (lun) (chunk) (h : Upd B r s) (hB : within 134217744 B) : Upd B r (State.queueRefresh s ch lun chunk) := by
  unfold State.queueRefresh
  repeat' first
    | exact within_trans (by decide) hB
    | with_reducible assumption
    | with_reducible apply upd_raiseEvt
    | with_reducible apply upd_onChunk
    | (extract_lets +onlyGivenNames x; clear_value x; revert x; intro _)
    | split

theorem upd_listRebuild (ch) (lun) (page) (cw) (e) (erasures) (h : Upd B r s) (hB : within 134217728 B) : Upd B r (State.listRebuild s ch lun page cw e erasures) := by
  unfold State.listRebuild
  repeat' first
    | exact within_trans (by decide) hB
    | with_reducible assumption
    | with_reducible apply upd_onChan
    | (extract_lets +onlyGivenNames x; refine upd_let (B := B) (r := r) (x := x) ?_ (fun hx => ?_); rotate_left; clear_value x; revert x; intro _ _; rotate_left; unfold x; clear x)
    | (extract_lets +onlyGivenNames x; clear_value x; revert x; intro _)
    | with_reducible refine upd_foldl _ ?_ ?_
    | with_reducible intro _ _ _ _
    | with_reducible intro _ _ _
    | with_reducible intro _ _
    | split

theorem upd_rebuildSlot (ch) (lun) (page) (cw) (erasures) (e) (h : Upd B r s) (hB : within 676336658 B) : Upd B r (State.rebuildSlot s ch lun page cw erasures e) := by
  unfold State.rebuildSlot
  repeat' first
    | exact within_trans (by decide) hB
    | with_reducible assumption
    | with_reducible apply upd_retireChunk
    | with_reducible apply upd_queueRefresh
    | with_reducible apply upd_listRebuild
    | with_reducible apply upd_poisonSlot
    | (extract_lets +onlyGivenNames x; refine upd_let (B := B) (r := r) (x := x) ?_ (fun hx => ?_); rotate_left; clear_value x; revert x; intro _ _; rotate_left; unfold x; clear x)
    | (extract_lets +onlyGivenNames x; revert x; intro _)
    | split

theorem upd_codeword (ch) (lun) (page) (cw) (retry) (tag) (zeros) (fixed) (iter) (erasures) (h : Upd B r s) (hB : within 676336658 B) : Upd B r (State.codeword s ch lun page cw retry tag zeros fixed iter erasures) := by
  unfold State.codeword
  repeat' first
    | exact within_trans (by decide) hB
    | with_reducible assumption
    | with_reducible apply upd_pumpDr
    | with_reducible apply upd_eraseCheck
    | with_reducible apply upd_onChunk
    | with_reducible apply upd_queueRefresh
    | with_reducible apply upd_raiseEvt
    | with_reducible apply upd_rebuildSlot
    | with_reducible apply upd_climb
    | with_reducible apply upd_onMed
    | (extract_lets +onlyGivenNames x; refine upd_let (B := B) (r := r) (x := x) ?_ (fun hx => ?_); rotate_left; clear_value x; revert x; intro _ _; rotate_left; unfold x; clear x)
    | (extract_lets +onlyGivenNames x; clear_value x; revert x; intro _)
    | split

theorem upd_countRead (ch) (e) (h : Upd B r s) (hB : within 134217744 B) : Upd B r (State.countRead s ch e) := by
  unfold State.countRead
  repeat' first
    | exact within_trans (by decide) hB
    | with_reducible assumption
    | with_reducible apply upd_onChunk
    | with_reducible apply upd_queueRefresh
    | (extract_lets +onlyGivenNames x; refine upd_let (B := B) (r := r) (x := x) ?_ (fun hx => ?_); rotate_left; clear_value x; revert x; intro _ _; rotate_left; unfold x; clear x)
    | (extract_lets +onlyGivenNames x; clear_value x; revert x; intro _)
    | split

theorem upd_dropReads (ch) (lun) (h : Upd B r s) (hB : within 134217744 B) : Upd B r (State.dropReads s ch lun) := by
  unfold State.dropReads
  repeat' first
    | exact within_trans (by decide) hB
    | with_reducible assumption
    | with_reducible apply upd_onChan
    | with_reducible apply upd_endEntry
    | (extract_lets +onlyGivenNames x; refine upd_let (B := B) (r := r) (x := x) ?_ (fun hx => ?_); rotate_left; clear_value x; revert x; intro _ _; rotate_left; unfold x; clear x)
    | (extract_lets +onlyGivenNames x; clear_value x; revert x; intro _)
    | with_reducible refine upd_foldl _ ?_ ?_
    | with_reducible intro _ _ _ _
    | with_reducible intro _ _ _
    | with_reducible intro _ _

theorem upd_encodeSecs (ch) (e) (h : Upd B r s) (hB : within 1617957906 B) : Upd B r (State.encodeSecs s ch e) := by
  unfold State.encodeSecs
  repeat' first
    | exact within_trans (by decide) hB
    | with_reducible assumption
    | with_reducible refine UpdP.get ?_ (by assumption)
    | with_reducible apply upd_readSector
    | with_reducible refine UpdP.snd (upd_readSector (h := ?_) (hB := ?_) ..)
    | with_reducible apply upd_poisonLanded
    | with_reducible apply upd_onLnd
    | (extract_lets +onlyGivenNames x; refine upd_letP (B := B) (r := r) (x := x) ?_ (fun hx => ?_); rotate_left; clear_value x; revert x; intro _ _; rotate_left; unfold x; clear x)
    | with_reducible exact UpdP.snd (by assumption)
    | (extract_lets +onlyGivenNames x; refine upd_let (B := B) (r := r) (x := x) ?_ (fun hx => ?_); rotate_left; clear_value x; revert x; intro _ _; rotate_left; unfold x; clear x)
    | (extract_lets +onlyGivenNames x; clear_value x; revert x; intro _)
    | with_reducible refine upd_foldl _ ?_ ?_
    | with_reducible intro _ _ _ _
    | with_reducible intro _ _ _
    | with_reducible intro _ _
    | split

theorem upd_endRun (ch) (lun) (y_r) (h : Upd B r s) (hB : within 134217728 B) : Upd B r (State.endRun s ch lun y_r) := by
  unfold State.endRun
  repeat' first
    | exact within_trans (by decide) hB
    | with_reducible assumption
    | with_reducible apply upd_onLun

theorem upd_progOk (ch) (e) (h : Upd B r s) (hB : within 140509200 B) : Upd B r (State.progOk s ch e) := by
  unfold State.progOk
  repeat' first
    | exact within_trans (by decide) hB
    | with_reducible assumption
    | with_reducible apply upd_putSector
    | with_reducible apply upd_onChunk
    | with_reducible apply upd_putMeta
    | with_reducible apply upd_markMissed
    | with_reducible apply upd_lineDone
    | with_reducible apply upd_accTake
    | with_reducible apply upd_onMed
    | (extract_lets +onlyGivenNames x; refine upd_let (B := B) (r := r) (x := x) ?_ (fun hx => ?_); rotate_left; clear_value x; revert x; intro _ _; rotate_left; unfold x; clear x)
    | (extract_lets +onlyGivenNames x; clear_value x; revert x; intro _)
    | with_reducible refine updO_map _ ?_
    | with_reducible refine updOP_map _ ?_
    | with_reducible refine updOPP_map _ ?_
    | with_reducible refine upd_foldl _ ?_ ?_
    | with_reducible intro _ _ _
    | split

theorem upd_eraseOk (ch) (e) (h : Upd B r s) (hB : within 138413072 B) : Upd B r (State.eraseOk s ch e) := by
  unfold State.eraseOk
  repeat' first
    | exact within_trans (by decide) hB
    | with_reducible assumption
    | with_reducible apply upd_eraseBlocks

theorem upd_resume (ch) (lun) (h : Upd B r s) (hB : within 134217744 B) : Upd B r (State.resume s ch lun) := by
  unfold State.resume
  repeat' first
    | exact within_trans (by decide) hB
    | with_reducible assumption
    | with_reducible apply upd_sendCa
    | with_reducible apply upd_onLun
    | with_reducible apply upd_dropReads
    | (extract_lets +onlyGivenNames x; refine upd_let (B := B) (r := r) (x := x) ?_ (fun hx => ?_); rotate_left; clear_value x; revert x; intro _ _; rotate_left; unfold x; clear x)
    | (extract_lets +onlyGivenNames x; clear_value x; revert x; intro _)
    | with_reducible refine updO_map _ ?_
    | with_reducible refine updOP_map _ ?_
    | with_reducible refine updOPP_map _ ?_
    | split

theorem upd_entryComplete (ch) (seq) (fail) (die) (h : Upd B r s) (hB : within 140510224 B) : Upd B r (State.entryComplete s ch seq fail die) := by
  unfold State.entryComplete
  repeat' first
    | exact within_trans (by decide) hB
    | with_reducible assumption
    | with_reducible apply upd_statusSlot
    | with_reducible apply upd_sendCa
    | with_reducible apply upd_endRun
    | with_reducible apply upd_onChan
    | with_reducible apply upd_countRead
    | with_reducible apply upd_retireChunk
    | with_reducible apply upd_progOk
    | with_reducible apply upd_eraseOk
    | with_reducible apply upd_resume
    | with_reducible apply upd_endEntry
    | with_reducible intro _ _ _ _
    | with_reducible intro _ _ _
    | with_reducible intro _ _
    | split

theorem upd_failRecs (ch) (e) (h : Upd B r s) (hB : within 134217744 B) : Upd B r (State.failRecs s ch e) := by
  unfold State.failRecs
  repeat' first
    | exact within_trans (by decide) hB
    | with_reducible assumption
    | with_reducible apply upd_raiseEvt
    | with_reducible apply upd_listRebuild
    | with_reducible apply upd_pumpDr
    | with_reducible apply upd_onMed
    | (extract_lets +onlyGivenNames x; refine upd_let (B := B) (r := r) (x := x) ?_ (fun hx => ?_); rotate_left; clear_value x; revert x; intro _ _; rotate_left; unfold x; clear x)
    | (extract_lets +onlyGivenNames x; clear_value x; revert x; intro _)
    | with_reducible refine updO_map _ ?_
    | with_reducible refine updOP_map _ ?_
    | with_reducible refine updOPP_map _ ?_
    | with_reducible refine upd_foldl _ ?_ ?_
    | with_reducible intro _ _ _ _
    | with_reducible intro _ _ _
    | with_reducible intro _ _

theorem upd_tickParity (q) (h : Upd B r s) (hB : within 140509200 B) : Upd B r (State.tickParity s q) := by
  unfold State.tickParity
  repeat' first
    | exact within_trans (by decide) hB
    | with_reducible assumption
    | with_reducible apply upd_raiseEvt
    | with_reducible apply Upd.field
    | with_reducible apply upd_setFlag
    | with_reducible apply upd_spillOldest
    | with_reducible apply upd_lineDone
    | with_reducible refine upd_foldl _ ?_ ?_
    | with_reducible intro _ _ _
    | split

theorem upd_tickChan (ch) (h : Upd B r s) (hB : within 134217744 B) : Upd B r (State.tickChan s ch) := by
  unfold State.tickChan
  repeat' first
    | exact within_trans (by decide) hB
    | with_reducible assumption
    | with_reducible apply upd_endEntry
    | with_reducible apply upd_closeStream
    | with_reducible apply upd_busFrame
    | with_reducible apply upd_onChan
    | with_reducible apply upd_calDue
    | with_reducible refine upd_foldl _ ?_ ?_
    | with_reducible intro _ _ _
    | (extract_lets +onlyGivenNames x; revert x; intro _)
    | split

theorem upd_resumeAll (h : Upd B r s) (hB : within 134217744 B) : Upd B r (State.resumeAll s) := by
  unfold State.resumeAll
  repeat' first
    | exact within_trans (by decide) hB
    | with_reducible assumption
    | with_reducible apply upd_resume
    | with_reducible refine upd_foldl _ ?_ ?_
    | with_reducible intro _ _ _ _
    | with_reducible intro _ _ _
    | with_reducible intro _ _

theorem upd_takeEntry (ch) (i) (op) (h : Upd B r s) (hB : within 134217728 B) : UpdOP B r (State.takeEntry s ch i op) := by
  unfold State.takeEntry
  repeat' first
    | exact within_trans (by decide) hB
    | with_reducible assumption
    | with_reducible refine updOP_some _ ?_
    | exact updOP_none
    | with_reducible apply upd_onChan
    | (extract_lets +onlyGivenNames x; refine upd_let (B := B) (r := r) (x := x) ?_ (fun hx => ?_); rotate_left; clear_value x; revert x; intro _ _; rotate_left; unfold x; clear x)
    | (extract_lets +onlyGivenNames x; clear_value x; revert x; intro _)
    | split

theorem upd_ringWait (ch) (read) (h : Upd B r s) (hB : within 16 B) : UpdO B r (State.ringWait s ch read) := by
  unfold State.ringWait
  repeat' first
    | exact within_trans (by decide) hB
    | with_reducible assumption
    | with_reducible refine updO_some ?_
    | exact updO_none
    | with_reducible apply upd_raiseEvt
    | (extract_lets +onlyGivenNames x; clear_value x; revert x; intro _)
    | split

theorem upd_issueRow (ch) (i) (op) (read) (f) (hf : ∀ e s, Upd B r s → Upd B r (f e s)) (h : Upd B r s) (hB : within 134217744 B) : Upd B r (State.issueRow s ch i op read f) := by
  unfold State.issueRow
  repeat' first
    | exact within_trans (by decide) hB
    | with_reducible assumption
    | with_reducible refine UpdO.get ?_ (by assumption)
    | with_reducible refine UpdOP.get ?_ (by assumption)
    | with_reducible refine UpdOP.get2 ?_ (by assumption)
    | with_reducible apply upd_takeEntry
    | with_reducible apply upd_ringWait
    | with_reducible apply hf
    | split

theorem upd_opTimeout (ch) (seq) (h : Upd B r s) (hB : within 134222866 B) : Upd B r (State.opTimeout s ch seq) := by
  unfold State.opTimeout
  repeat' first
    | exact within_trans (by decide) hB
    | with_reducible assumption
    | with_reducible apply upd_raiseFault
    | with_reducible apply upd_raiseEvt
    | with_reducible apply upd_endRun
    | with_reducible apply upd_onChan
    | with_reducible apply upd_sendCa
    | with_reducible apply upd_retireChunk
    | with_reducible apply upd_failRecs
    | with_reducible apply upd_onLun
    | with_reducible apply upd_lunOut
    | with_reducible apply upd_endEntry
    | split

theorem upd_patrol (q) (h : Upd B r s) (hB : within 134217728 B) : Upd B r (State.patrol s q) := by
  unfold State.patrol
  repeat' first
    | exact within_trans (by decide) hB
    | with_reducible assumption
    | with_reducible apply upd_onMed

theorem upd_recal (ch) (shift) (eye) (moved) (h : Upd B r s) (hB : within 169022738 B) : Upd B r (State.recal s ch shift eye moved) := by
  unfold State.recal
  repeat' first
    | exact within_trans (by decide) hB
    | with_reducible assumption
    | with_reducible apply upd_calDue
    | with_reducible apply upd_calEnd
    | with_reducible apply upd_onChan
    | with_reducible apply upd_calBus
    | (extract_lets +onlyGivenNames x; refine upd_let (B := B) (r := r) (x := x) ?_ (fun hx => ?_); rotate_left; clear_value x; revert x; intro _ _; rotate_left; unfold x; clear x)
    | split

theorem upd_refresh (ch) (lun) (chunk) (fails) (h : Upd B r s) (hB : within 139465746 B) : Upd B r (State.refresh s ch lun chunk fails) := by
  unfold State.refresh
  repeat' first
    | exact within_trans (by decide) hB
    | with_reducible assumption
    | with_reducible apply upd_relocate
    | with_reducible apply upd_onChunk
    | with_reducible apply upd_grownDone
    | with_reducible apply upd_retireChunk
    | with_reducible apply upd_eraseFree
    | (extract_lets +onlyGivenNames x; refine upd_letP (B := B) (r := r) (x := x) ?_ (fun hx => ?_); rotate_left; clear_value x; revert x; intro _ _; rotate_left; unfold x; clear x)
    | with_reducible exact UpdP.snd (by assumption)
    | (extract_lets +onlyGivenNames x; refine upd_let (B := B) (r := r) (x := x) ?_ (fun hx => ?_); rotate_left; clear_value x; revert x; intro _ _; rotate_left; unfold x; clear x)
    | (extract_lets +onlyGivenNames x; clear_value x; revert x; intro _)
    | split

theorem upd_startEntry (ch) (e) (h : Upd B r s) (hB : within 1752208402 B) : Upd B r (State.startEntry s ch e) := by
  unfold State.startEntry
  repeat' first
    | exact within_trans (by decide) hB
    | with_reducible assumption
    | with_reducible apply upd_chargeAt
    | with_reducible apply upd_encodeSecs
    | with_reducible apply upd_announce
    | with_reducible apply upd_sendCa
    | with_reducible apply upd_onLun
    | with_reducible apply upd_onSched
    | split

theorem upd_suspend (ch) (lun) (done) (h : Upd B r s) (hB : within 134217728 B) : Upd B r (State.suspend s ch lun done) := by
  unfold State.suspend
  repeat' first
    | exact within_trans (by decide) hB
    | with_reducible assumption
    | with_reducible apply upd_sendCa
    | with_reducible apply upd_onLun
    | (extract_lets +onlyGivenNames x; refine upd_let (B := B) (r := r) (x := x) ?_ (fun hx => ?_); rotate_left; clear_value x; revert x; intro _ _; rotate_left; unfold x; clear x)
    | (extract_lets +onlyGivenNames x; clear_value x; revert x; intro _)
    | with_reducible refine updO_map _ ?_
    | with_reducible refine updOP_map _ ?_
    | with_reducible refine updOPP_map _ ?_
    | split

theorem upd_wearCheck (q) (h : Upd B r s) (hB : within 134217728 B) : Upd B r (State.wearCheck s q) := by
  unfold State.wearCheck
  repeat' first
    | exact within_trans (by decide) hB
    | with_reducible assumption
    | with_reducible apply upd_onMed
    | with_reducible refine upd_foldl _ ?_ ?_
    | with_reducible intro _ _ _
    | split

theorem upd_eraseRow (ch) (i) (op) (h : Upd B r s) (hB : within 1752208402 B) : Upd B r (eraseRow ch i op s) := by
  unfold eraseRow
  repeat' first
    | exact within_trans (by decide) hB
    | with_reducible assumption
    | with_reducible apply upd_issueRow
    | with_reducible apply upd_takeStamp
    | with_reducible apply upd_jnlSystem
    | with_reducible apply upd_startEntry
    | with_reducible apply upd_closeStream
    | with_reducible apply upd_onChunk
    | with_reducible intro _ _ _
    | split

theorem upd_execListCommit (g) (mask) (late) (h : Upd B r s) (hB : within 134222866 B) : UpdOut B r (execListCommit g mask late s) := by
  unfold execListCommit
  repeat' first
    | exact within_trans (by decide) hB
    | with_reducible assumption
    | with_reducible refine updOut_next ?_
    | exact updOut_fault _
    | with_reducible apply upd_listCommit
    | split

theorem upd_execListRead (ch) (i) (h : Upd B r s) (hB : within 1752208402 B) : UpdOut B r (execListRead ch i s) := by
  unfold execListRead
  repeat' first
    | exact within_trans (by decide) hB
    | with_reducible assumption
    | with_reducible refine updOut_next ?_
    | with_reducible apply upd_issueRow
    | with_reducible apply upd_endEntry
    | with_reducible apply upd_startEntry
    | with_reducible apply upd_closeStream
    | with_reducible intro _ _ _
    | split

theorem upd_execStreamOpen (ch) (i) (h : Upd B r s) (hB : within 1752208402 B) : UpdOut B r (execStreamOpen ch i s) := by
  unfold execStreamOpen
  repeat' first
    | exact within_trans (by decide) hB
    | with_reducible assumption
    | with_reducible refine updOut_next ?_
    | with_reducible apply upd_issueRow
    | with_reducible apply upd_closeStream
    | with_reducible apply upd_endEntry
    | with_reducible apply upd_onLun
    | with_reducible apply upd_startEntry
    | (extract_lets +onlyGivenNames x; refine upd_let (B := B) (r := r) (x := x) ?_ (fun hx => ?_); rotate_left; clear_value x; revert x; intro _ _; rotate_left; unfold x; clear x)
    | with_reducible intro _ _ _
    | split

theorem upd_execStreamExt (ch) (i) (h : Upd B r s) (hB : within 1752208402 B) : UpdOut B r (execStreamExt ch i s) := by
  unfold execStreamExt
  repeat' first
    | exact within_trans (by decide) hB
    | with_reducible assumption
    | with_reducible refine updOut_next ?_
    | exact updOut_fault _
    | with_reducible apply upd_issueRow
    | with_reducible apply upd_startEntry
    | with_reducible apply upd_closeStream
    | with_reducible apply upd_onLun
    | with_reducible apply upd_endEntry
    | (extract_lets +onlyGivenNames x; refine upd_let (B := B) (r := r) (x := x) ?_ (fun hx => ?_); rotate_left; clear_value x; revert x; intro _ _; rotate_left; unfold x; clear x)
    | (extract_lets +onlyGivenNames x; clear_value x; revert x; intro _)
    | with_reducible intro _ _ _ _
    | with_reducible intro _ _ _
    | with_reducible intro _ _
    | split

theorem upd_execStreamClose (ch) (i) (h : Upd B r s) (hB : within 134217744 B) : UpdOut B r (execStreamClose ch i s) := by
  unfold execStreamClose
  repeat' first
    | exact within_trans (by decide) hB
    | with_reducible assumption
    | with_reducible refine updOut_next ?_
    | with_reducible apply upd_issueRow
    | with_reducible apply upd_endEntry
    | with_reducible apply upd_closeStream
    | with_reducible intro _ _ _

theorem upd_startOther (ch) (i) (op) (h : Upd B r s) (hB : within 1752208402 B) : Upd B r (startOther ch i op s) := by
  unfold startOther
  repeat' first
    | exact within_trans (by decide) hB
    | with_reducible assumption
    | with_reducible apply upd_issueRow
    | with_reducible apply upd_startEntry
    | with_reducible apply upd_closeStream
    | with_reducible intro _ _ _

theorem upd_execProgSlc (ch) (i) (h : Upd B r s) (hB : within 1752208402 B) : UpdOut B r (execProgSlc ch i s) := by
  unfold execProgSlc
  repeat' first
    | exact within_trans (by decide) hB
    | with_reducible assumption
    | with_reducible refine updOut_next ?_
    | with_reducible apply upd_startOther

theorem upd_execProgQlc (ch) (i) (h : Upd B r s) (hB : within 1752208402 B) : UpdOut B r (execProgQlc ch i s) := by
  unfold execProgQlc
  repeat' first
    | exact within_trans (by decide) hB
    | with_reducible assumption
    | with_reducible refine updOut_next ?_
    | with_reducible apply upd_startOther

theorem upd_execEraseSlc (ch) (i) (h : Upd B r s) (hB : within 1752208402 B) : UpdOut B r (execEraseSlc ch i s) := by
  unfold execEraseSlc
  repeat' first
    | exact within_trans (by decide) hB
    | with_reducible assumption
    | with_reducible refine updOut_next ?_
    | with_reducible apply upd_eraseRow

theorem upd_execEraseQlc (ch) (i) (h : Upd B r s) (hB : within 1752208402 B) : UpdOut B r (execEraseQlc ch i s) := by
  unfold execEraseQlc
  repeat' first
    | exact within_trans (by decide) hB
    | with_reducible assumption
    | with_reducible refine updOut_next ?_
    | with_reducible apply upd_eraseRow

theorem upd_execGetFeat (ch) (i) (h : Upd B r s) (hB : within 1752208402 B) : UpdOut B r (execGetFeat ch i s) := by
  unfold execGetFeat
  repeat' first
    | exact within_trans (by decide) hB
    | with_reducible assumption
    | with_reducible refine updOut_next ?_
    | with_reducible apply upd_startOther

theorem upd_execSetFeat (ch) (i) (h : Upd B r s) (hB : within 1752208402 B) : UpdOut B r (execSetFeat ch i s) := by
  unfold execSetFeat
  repeat' first
    | exact within_trans (by decide) hB
    | with_reducible assumption
    | with_reducible refine updOut_next ?_
    | with_reducible apply upd_startOther

theorem upd_execEndEntry (ch) (h : Upd B r s) (hB : within 134217728 B) : UpdOut B r (execEndEntry ch s) := by
  unfold execEndEntry
  repeat' first
    | exact within_trans (by decide) hB
    | with_reducible assumption
    | with_reducible refine updOut_next ?_
    | with_reducible apply upd_onChan

theorem upd_execEntryCompletion (ch) (seq) (fail) (die) (h : Upd B r s) (hB : within 140510224 B) : UpdOut B r (execEntryCompletion ch seq fail die s) := by
  unfold execEntryCompletion
  repeat' first
    | exact within_trans (by decide) hB
    | with_reducible assumption
    | with_reducible refine updOut_next ?_
    | with_reducible apply upd_entryComplete

theorem upd_execOperationTimeout (ch) (seq) (h : Upd B r s) (hB : within 134222866 B) : UpdOut B r (execOperationTimeout ch seq s) := by
  unfold execOperationTimeout
  repeat' first
    | exact within_trans (by decide) hB
    | with_reducible assumption
    | with_reducible refine updOut_next ?_
    | with_reducible apply upd_opTimeout

theorem upd_execCaParityError (ch) (i) (h : Upd B r s) (hB : within 134222866 B) : UpdOut B r (execCaParityError ch i s) := by
  unfold execCaParityError
  repeat' first
    | exact within_trans (by decide) hB
    | with_reducible assumption
    | with_reducible refine updOut_next ?_
    | with_reducible apply upd_caParity

theorem upd_execProgramSuspend (ch) (lun) (done) (h : Upd B r s) (hB : within 134217728 B) : UpdOut B r (execProgramSuspend ch lun done s) := by
  unfold execProgramSuspend
  repeat' first
    | exact within_trans (by decide) hB
    | with_reducible assumption
    | with_reducible refine updOut_next ?_
    | with_reducible apply upd_suspend

theorem upd_execSuspendResume (ch) (lun) (h : Upd B r s) (hB : within 134217744 B) : UpdOut B r (execSuspendResume ch lun s) := by
  unfold execSuspendResume
  repeat' first
    | exact within_trans (by decide) hB
    | with_reducible assumption
    | with_reducible refine updOut_next ?_
    | with_reducible apply upd_resume

theorem upd_execRecalibration (ch) (shift) (eye) (moved) (h : Upd B r s) (hB : within 169022738 B) : UpdOut B r (execRecalibration ch shift eye moved s) := by
  unfold execRecalibration
  repeat' first
    | exact within_trans (by decide) hB
    | with_reducible assumption
    | with_reducible refine updOut_next ?_
    | with_reducible apply upd_recal

theorem upd_execCodewordDecode (ch) (lun) (page) (cw) (retry) (tag) (zeros) (fixed) (iter) (erasures) (h : Upd B r s) (hB : within 676336658 B) : UpdOut B r (execCodewordDecode ch lun page cw retry tag zeros fixed iter erasures s) := by
  unfold execCodewordDecode
  repeat' first
    | exact within_trans (by decide) hB
    | with_reducible assumption
    | with_reducible refine updOut_next ?_
    | with_reducible apply upd_codeword

theorem upd_execSlcLineClose (q) (stripe) (line) (h : Upd B r s) (hB : within 136314880 B) : UpdOut B r (execSlcLineClose q stripe line s) := by
  unfold execSlcLineClose
  repeat' first
    | exact within_trans (by decide) hB
    | with_reducible assumption
    | with_reducible refine updOut_next ?_
    | with_reducible apply upd_closeSlcLine

theorem upd_execChunkRelocation (ch) (lun) (chunk) (fails) (operator) (h : Upd B r s) (hB : within 139465746 B) : UpdOut B r (execChunkRelocation ch lun chunk fails operator s) := by
  unfold execChunkRelocation
  repeat' first
    | exact within_trans (by decide) hB
    | with_reducible assumption
    | with_reducible refine updOut_next ?_
    | with_reducible apply upd_chunkReloc

theorem upd_execFlashPatrol (q) (h : Upd B r s) (hB : within 134217728 B) : UpdOut B r (execFlashPatrol q s) := by
  unfold execFlashPatrol
  repeat' first
    | exact within_trans (by decide) hB
    | with_reducible assumption
    | with_reducible refine updOut_next ?_
    | exact updOut_fault _
    | with_reducible apply upd_patrol
    | split

theorem upd_execRefresh (ch) (lun) (chunk) (fails) (h : Upd B r s) (hB : within 139465746 B) : UpdOut B r (execRefresh ch lun chunk fails s) := by
  unfold execRefresh
  repeat' first
    | exact within_trans (by decide) hB
    | with_reducible assumption
    | with_reducible refine updOut_next ?_
    | with_reducible apply upd_refresh

theorem upd_execWearLevelCheck (q) (h : Upd B r s) (hB : within 134217728 B) : UpdOut B r (execWearLevelCheck q s) := by
  unfold execWearLevelCheck
  repeat' first
    | exact within_trans (by decide) hB
    | with_reducible assumption
    | with_reducible refine updOut_next ?_
    | exact updOut_fault _
    | with_reducible apply upd_wearCheck
    | split

end Sys2Proof.Machine
end

