-- ==== Sys2Proof/Laws/UpdService.lean ====
section
/-! SUPPORT. What the functions of Machine/Service.lean can change (Laws/Upd.lean). -/
namespace Sys2Proof.Machine
variable {B : Nat} {r s : State}

theorem upd_chooseVictim (q hook) (h : Upd B r s) (hB : within 167810070 B) : Upd B r (State.chooseVictim s q hook) := by
  unfold State.chooseVictim
  extract_lets cs
  split
  · exact h
  · rename_i t hne
    have ht : Upd B r t := by
      subst t
      repeat' first
        | exact within_trans (by decide) hB
        | with_reducible assumption
        | with_reducible apply upd_hookRan
        | split
    clear_value t
    have hp : UpdP B r (match t.hookBind 2 q with
      | none => (t.dfltVictim q, t)
      | some b => match hook.bind (fun i => cs[i]?) with
        | some x => (some x.1, t)
        | none => (t.dfltVictim q, (if hook.isSome then t.replacedChoice q b.handle else t.hookTrap b q).raiseEvt F.QD_GC_EVT_HOOK F.QD_GC_CNT_HOOK_CNT q)) := by
      repeat' first
        | exact within_trans (by decide) hB
        | with_reducible assumption
        | with_reducible refine updP_mk _ ?_
        | with_reducible apply upd_raiseEvt
        | with_reducible apply upd_replacedChoice
        | with_reducible apply upd_hookTrap
        | split
    split
    have h1 := hp.get (by assumption)
    repeat' first
      | exact within_trans (by decide) hB
      | with_reducible assumption
      | with_reducible apply upd_freeSeg
      | with_reducible apply upd_onMed
      | (extract_lets +onlyGivenNames x; refine upd_let (B := B) (r := r) (x := x) ?_ (fun hx => ?_); rotate_left; clear_value x; revert x; intro _ _; rotate_left; unfold x; clear x)
      | split

theorem upd_sweep (h : Upd B r s) (hB : within 138412048 B) : Upd B r (State.sweep s) := by
  unfold State.sweep
  repeat' first
    | exact within_trans (by decide) hB
    | with_reducible assumption
    | with_reducible apply upd_jnlSystem
    | with_reducible apply upd_onMed
    | with_reducible apply upd_onJnl
    | with_reducible refine upd_foldl _ ?_ ?_

theorem upd_cleanShutdown (h : Upd B r s) (hB : within 138412048 B) : Upd B r (State.cleanShutdown s) := by
  unfold State.cleanShutdown
  repeat' first
    | exact within_trans (by decide) hB
    | with_reducible assumption
    | with_reducible apply upd_sweep
    | with_reducible apply upd_jnlSystem
    | with_reducible apply upd_onJnl

theorem upd_gcDest (q) (st) (cnt) (seg) (h : Upd B r s) (hB : within 167810070 B) : UpdOP B r (State.gcDest s q st cnt seg) := by
  unfold State.gcDest
  repeat' first
    | exact within_trans (by decide) hB
    | with_reducible assumption
    | with_reducible refine updOP_some _ ?_
    | exact updOP_none
    | with_reducible refine UpdO.get ?_ (by assumption)
    | with_reducible refine UpdO.getD ?_ ?_
    | with_reducible refine UpdOPP.get ?_ (by assumption)
    | with_reducible refine UpdOPP.get2 ?_ (by assumption)
    | with_reducible apply upd_streamSeg
    | with_reducible apply upd_streamTake
    | (extract_lets +onlyGivenNames x; refine upd_let (B := B) (r := r) (x := x) ?_ (fun hx => ?_); rotate_left; clear_value x; revert x; intro _ _; rotate_left; unfold x; clear x)
    | (extract_lets +onlyGivenNames x; clear_value x; revert x; intro _)
    | with_reducible refine updO_map _ ?_
    | with_reducible refine updOP_map _ ?_
    | with_reducible refine updOPP_map _ ?_
    | with_reducible intro _ _ _ _
    | with_reducible intro _ _ _
    | with_reducible intro _ _
    | split

theorem upd_noteInto (src) (ds) (h : Upd B r s) (hB : within 134217728 B) : Upd B r (State.noteInto s src ds) := by
  unfold State.noteInto
  repeat' first
    | exact within_trans (by decide) hB
    | with_reducible assumption
    | with_reducible apply upd_onMed
    | (extract_lets +onlyGivenNames x; refine upd_let (B := B) (r := r) (x := x) ?_ (fun hx => ?_); rotate_left; clear_value x; revert x; intro _ _; rotate_left; unfold x; clear x)
    | (extract_lets +onlyGivenNames x; clear_value x; revert x; intro _)
    | with_reducible refine updO_map _ ?_
    | with_reducible refine updOP_map _ ?_
    | with_reducible refine updOPP_map _ ?_
    | with_reducible intro _ _ _ _
    | with_reducible intro _ _ _
    | with_reducible intro _ _

theorem upd_readCopies (keys) (h : Upd B r s) (hB : within 1611699218 B) : Upd B r (State.readCopies s keys) := by
  unfold State.readCopies
  repeat' first
    | exact within_trans (by decide) hB
    | with_reducible assumption
    | with_reducible apply upd_chargePages
    | with_reducible apply upd_walkAll

theorem upd_copyTo (n) (kind) (src) (items) (h : Upd B r s) (hB : within 6291456 B) : Upd B r (State.copyTo s n kind src items) := by
  unfold State.copyTo
  repeat' first
    | exact within_trans (by decide) hB
    | with_reducible assumption
    | with_reducible apply upd_onLnd
    | with_reducible apply upd_onJnl
    | (extract_lets +onlyGivenNames x; refine upd_let (B := B) (r := r) (x := x) ?_ (fun hx => ?_); rotate_left; clear_value x; revert x; intro _ _; rotate_left; unfold x; clear x)
    | (extract_lets +onlyGivenNames x; clear_value x; revert x; intro _)
    | with_reducible refine updO_map _ ?_
    | with_reducible refine updOP_map _ ?_
    | with_reducible refine updOPP_map _ ?_
    | with_reducible refine upd_foldl _ ?_ ?_
    | with_reducible intro _ _ _ _
    | with_reducible intro _ _ _
    | with_reducible intro _ _
    | split

theorem upd_copyOut (q) (kind) (src) (keys) (st) (seg) (from_) (h : Upd B r s) (hB : within 1785762838 B) : Upd B r (State.copyOut s q kind src keys st seg from_) := by
  unfold State.copyOut
  repeat' first
    | exact within_trans (by decide) hB
    | with_reducible assumption
    | with_reducible refine UpdOP.get ?_ (by assumption)
    | with_reducible refine UpdOP.get2 ?_ (by assumption)
    | with_reducible apply upd_gcDest
    | with_reducible apply upd_noteInto
    | with_reducible apply upd_readCopies
    | with_reducible apply upd_copyTo
    | (extract_lets +onlyGivenNames x; refine upd_let (B := B) (r := r) (x := x) ?_ (fun hx => ?_); rotate_left; clear_value x; revert x; intro _ _; rotate_left; unfold x; clear x)
    | (extract_lets +onlyGivenNames x; clear_value x; revert x; intro _)
    | with_reducible refine updO_map _ ?_
    | with_reducible refine updOP_map _ ?_
    | with_reducible refine updOPP_map _ ?_
    | with_reducible refine upd_foldl _ ?_ ?_
    | with_reducible intro _ _ _
    | split

theorem upd_demote (u) (q) (st) (seg) (h : Upd B r s) (hB : within 1785762838 B) : Upd B r (State.demote s u q st seg) := by
  unfold State.demote
  repeat' first
    | exact within_trans (by decide) hB
    | with_reducible assumption
    | with_reducible apply upd_copyOut
    | split

theorem upd_setUnit (u) (coarse) (es) (h : Upd B r s) (hB : within 542113808 B) : Upd B r (State.setUnit s u coarse es) := by
  unfold State.setUnit
  repeat' first
    | exact within_trans (by decide) hB
    | with_reducible assumption
    | with_reducible apply upd_setCoarse
    | with_reducible apply upd_setBlock
    | with_reducible refine upd_foldl _ ?_ ?_
    | with_reducible intro _ _ _ _
    | with_reducible intro _ _ _
    | with_reducible intro _ _
    | split

theorem upd_pageHealed (p) (h : Upd B r s) (hB : within 537919488 B) : Upd B r (State.pageHealed s p) := by
  unfold State.pageHealed
  repeat' first
    | exact within_trans (by decide) hB
    | with_reducible assumption
    | with_reducible apply upd_onMap
    | with_reducible apply upd_onMemp
    | (extract_lets +onlyGivenNames x; refine upd_let (B := B) (r := r) (x := x) ?_ (fun hx => ?_); rotate_left; clear_value x; revert x; intro _ _; rotate_left; unfold x; clear x)
    | (extract_lets +onlyGivenNames x; clear_value x; revert x; intro _)
    | with_reducible intro _ _ _ _
    | with_reducible intro _ _ _
    | with_reducible intro _ _
    | split

theorem upd_pageRebuild (p) (h : Upd B r s) (hB : within 542118930 B) : Upd B r (State.pageRebuild s p) := by
  unfold State.pageRebuild
  repeat' first
    | exact within_trans (by decide) hB
    | with_reducible assumption
    | with_reducible apply upd_setUnit
    | with_reducible apply upd_raiseFault
    | with_reducible apply upd_pageHealed
    | (extract_lets +onlyGivenNames x; refine upd_let (B := B) (r := r) (x := x) ?_ (fun hx => ?_); rotate_left; clear_value x; revert x; intro _ _; rotate_left; unfold x; clear x)
    | (extract_lets +onlyGivenNames x; clear_value x; revert x; intro _)
    | with_reducible refine updO_map _ ?_
    | with_reducible refine updOP_map _ ?_
    | with_reducible refine updOPP_map _ ?_
    | with_reducible refine upd_foldl _ ?_ ?_
    | with_reducible intro _ _ _ _
    | with_reducible intro _ _ _
    | with_reducible intro _ _
    | split

theorem upd_endReadOnly (h : Upd B r s) (hB : within 16868352 B) : Upd B r (State.endReadOnly s) := by
  unfold State.endReadOnly
  repeat' first
    | exact within_trans (by decide) hB
    | with_reducible assumption
    | with_reducible apply upd_logState
    | with_reducible apply upd_onHif
    | with_reducible apply upd_onLvl
    | split

theorem upd_fineDemotion (u) (h : Upd B r s) (hB : within 1785762838 B) : Upd B r (State.fineDemotion s u) := by
  unfold State.fineDemotion
  repeat' first
    | exact within_trans (by decide) hB
    | with_reducible assumption
    | with_reducible apply upd_demote
    | with_reducible apply upd_onMap
    | (extract_lets +onlyGivenNames x; clear_value x; revert x; intro _)
    | split

theorem upd_fold (q) (h : Upd B r s) (hB : within 1785762838 B) : Upd B r (State.fold s q) := by
  unfold State.fold
  split
  · exact h
  · split
    · exact h
    · extract_lets ks cold warm done n
      have hd : ∀ s, Upd B r s → Upd B r (done s) := fun _ h => upd_onMed _ h (within_trans (by decide) hB)
      clear_value done
      split
      · exact h
      · extract_lets t
        have ht : Upd B r t := by
          subst t
          repeat' first
            | exact within_trans (by decide) hB
            | with_reducible assumption
            | with_reducible apply upd_copyTo
            | with_reducible apply upd_readCopies
            | split
        clear_value t
        exact hd _ (upd_foldl _ ht (fun s u h => by
          repeat' first
            | exact within_trans (by decide) hB
            | with_reducible assumption
            | with_reducible apply upd_demote
            | split))

theorem upd_sweepTick (h : Upd B r s) (hB : within 138412048 B) : Upd B r (State.sweepTick s) := by
  unfold State.sweepTick
  repeat' first
    | exact within_trans (by decide) hB
    | with_reducible assumption
    | with_reducible apply upd_sweep
    | split

theorem upd_reapSegs (h : Upd B r s) (hB : within 138413072 B) : Upd B r (State.reapSegs s) := by
  unfold State.reapSegs
  repeat' first
    | exact within_trans (by decide) hB
    | with_reducible assumption
    | with_reducible apply upd_eraseSeg
    | with_reducible refine upd_foldl _ ?_ ?_
    | with_reducible intro _ _ _ _
    | with_reducible intro _ _ _
    | with_reducible intro _ _
    | split

theorem upd_metaTick (h : Upd B r s) (hB : within 140509200 B) : Upd B r (State.metaTick s) := by
  unfold State.metaTick
  repeat' first
    | exact within_trans (by decide) hB
    | with_reducible assumption
    | with_reducible apply upd_putMetaUnit
    | with_reducible refine upd_foldl _ ?_ ?_
    | with_reducible intro _ _ _ _
    | with_reducible intro _ _ _
    | with_reducible intro _ _
    | split

theorem upd_showCapEvts (q) (h : Upd B r s) (hB : within 134217744 B) : Upd B r (State.showCapEvts s q) := by
  unfold State.showCapEvts
  repeat' first
    | exact within_trans (by decide) hB
    | with_reducible assumption
    | with_reducible apply upd_raiseEvt
    | with_reducible apply upd_onMed
    | (extract_lets +onlyGivenNames x; refine upd_let (B := B) (r := r) (x := x) ?_ (fun hx => ?_); rotate_left; clear_value x; revert x; intro _ _; rotate_left; unfold x; clear x)
    | (extract_lets +onlyGivenNames x; clear_value x; revert x; intro _)
    | with_reducible refine upd_foldl _ ?_ ?_
    | with_reducible intro _ _ _ _
    | with_reducible intro _ _ _
    | with_reducible intro _ _

theorem upd_tickTier (q) (h : Upd B r s) (hB : within 134217744 B) : Upd B r (State.tickTier s q) := by
  unfold State.tickTier
  repeat' first
    | exact within_trans (by decide) hB
    | with_reducible assumption
    | with_reducible apply upd_raiseEvt
    | with_reducible apply upd_onMed
    | split

theorem upd_readOnlyNow (h : Upd B r s) (hB : within 152265746 B) : Upd B r (State.readOnlyNow s) := by
  unfold State.readOnlyNow
  repeat' first
    | exact within_trans (by decide) hB
    | with_reducible assumption
    | with_reducible apply upd_logState
    | with_reducible apply upd_aenAll
    | with_reducible apply upd_onHif
    | with_reducible apply upd_onLvl
    | with_reducible apply upd_onMed
    | (extract_lets +onlyGivenNames x; refine upd_let (B := B) (r := r) (x := x) ?_ (fun hx => ?_); rotate_left; clear_value x; revert x; intro _ _; rotate_left; unfold x; clear x)
    | (extract_lets +onlyGivenNames x; clear_value x; revert x; intro _)
    | with_reducible refine upd_foldl _ ?_ ?_
    | with_reducible intro _ _ _ _
    | with_reducible intro _ _ _
    | with_reducible intro _ _
    | split

theorem upd_gcStream (q) (u) (g) (hook) (h : Upd B r s) (hB : within 33592342 B) : UpdP B r (State.gcStream s q u g hook) := by
  unfold State.gcStream
  repeat' first
    | exact within_trans (by decide) hB
    | with_reducible assumption
    | with_reducible refine updP_mk _ ?_
    | with_reducible apply upd_hookRan
    | with_reducible apply upd_replacedChoice
    | with_reducible apply upd_hookTrap
    | (extract_lets +onlyGivenNames x; refine upd_let (B := B) (r := r) (x := x) ?_ (fun hx => ?_); rotate_left; clear_value x; revert x; intro _ _; rotate_left; unfold x; clear x)
    | (extract_lets +onlyGivenNames x; clear_value x; revert x; intro _)
    | split

theorem upd_gcCopy (u) (hook) (seg) (lost) (h : Upd B r s) (hB : within 1785762838 B) : Upd B r (State.gcCopy s u hook seg lost) := by
  unfold State.gcCopy
  repeat' first
    | exact within_trans (by decide) hB
    | with_reducible assumption
    | with_reducible refine UpdP.get ?_ (by assumption)
    | with_reducible apply upd_gcStream
    | with_reducible refine UpdP.snd (upd_gcStream (h := ?_) (hB := ?_) ..)
    | with_reducible apply upd_poisonSlot
    | with_reducible apply upd_demote
    | with_reducible apply upd_copyOut
    | (extract_lets +onlyGivenNames x; refine upd_letP (B := B) (r := r) (x := x) ?_ (fun hx => ?_); rotate_left; clear_value x; revert x; intro _ _; rotate_left; unfold x; clear x)
    | with_reducible exact UpdP.snd (by assumption)
    | (extract_lets +onlyGivenNames x; refine upd_let (B := B) (r := r) (x := x) ?_ (fun hx => ?_); rotate_left; clear_value x; revert x; intro _ _; rotate_left; unfold x; clear x)
    | (extract_lets +onlyGivenNames x; clear_value x; revert x; intro _)
    | with_reducible refine upd_foldl _ ?_ ?_
    | with_reducible intro _ _ _
    | split

theorem upd_pageFlush (h : Upd B r s) (hB : within 4194304 B) : Upd B r (State.pageFlush s) := by
  unfold State.pageFlush
  repeat' first
    | exact within_trans (by decide) hB
    | with_reducible assumption
    | with_reducible apply upd_drainWait
    | with_reducible apply upd_onJnl
    | split

theorem upd_readOnly (q) (h : Upd B r s) (hB : within 16777216 B) : Upd B r (State.readOnly s q) := by
  unfold State.readOnly
  repeat' first
    | exact within_trans (by decide) hB
    | with_reducible assumption
    | with_reducible apply upd_onLvl
    | split

theorem upd_scanRebuild (q) (p) (h : Upd B r s) (hB : within 542113808 B) : Upd B r (State.scanRebuild s q p) := by
  unfold State.scanRebuild
  repeat' first
    | exact within_trans (by decide) hB
    | with_reducible assumption
    | with_reducible apply upd_raiseEvt
    | with_reducible apply upd_setUnit
    | with_reducible apply upd_pageHealed
    | with_reducible apply upd_onMap
    | (extract_lets +onlyGivenNames x; refine upd_let (B := B) (r := r) (x := x) ?_ (fun hx => ?_); rotate_left; clear_value x; revert x; intro _ _; rotate_left; unfold x; clear x)
    | (extract_lets +onlyGivenNames x; clear_value x; revert x; intro _)
    | with_reducible refine updO_map _ ?_
    | with_reducible refine updOP_map _ ?_
    | with_reducible refine updOPP_map _ ?_
    | with_reducible refine upd_foldl _ ?_ ?_
    | with_reducible intro _ _ _
    | split

theorem upd_victimErase (g) (h : Upd B r s) (hB : within 138413072 B) : Upd B r (State.victimErase s g) := by
  unfold State.victimErase
  repeat' first
    | exact within_trans (by decide) hB
    | with_reducible assumption
    | with_reducible apply upd_eraseSeg
    | split

theorem upd_zoneOfflining (q) (h : Upd B r s) (hB : within 140443666 B) : Upd B r (State.zoneOfflining s q) := by
  unfold State.zoneOfflining
  repeat' first
    | exact within_trans (by decide) hB
    | with_reducible assumption
    | with_reducible apply upd_offlineZone
    | split

theorem upd_execZoneOfflining (q) (h : Upd B r s) (hB : within 140443666 B) : UpdOut B r (execZoneOfflining q s) := by
  unfold execZoneOfflining
  repeat' first
    | exact within_trans (by decide) hB
    | with_reducible assumption
    | with_reducible refine updOut_next ?_
    | exact updOut_fault _
    | with_reducible apply upd_zoneOfflining
    | split

theorem upd_execReadOnlyTransition (q) (h : Upd B r s) (hB : within 16777216 B) : UpdOut B r (execReadOnlyTransition q s) := by
  unfold execReadOnlyTransition
  repeat' first
    | exact within_trans (by decide) hB
    | with_reducible assumption
    | with_reducible refine updOut_next ?_
    | exact updOut_fault _
    | with_reducible apply upd_readOnly
    | split

theorem upd_execFineDemotion (unit) (h : Upd B r s) (hB : within 1785762838 B) : UpdOut B r (execFineDemotion unit s) := by
  unfold execFineDemotion
  repeat' first
    | exact within_trans (by decide) hB
    | with_reducible assumption
    | with_reducible refine updOut_next ?_
    | with_reducible apply upd_fineDemotion

theorem upd_execFold (q) (h : Upd B r s) (hB : within 1785762838 B) : UpdOut B r (execFold q s) := by
  unfold execFold
  repeat' first
    | exact within_trans (by decide) hB
    | with_reducible assumption
    | with_reducible refine updOut_next ?_
    | exact updOut_fault _
    | with_reducible apply upd_fold
    | split

theorem upd_execGcVictimSelection (q) (hook) (h : Upd B r s) (hB : within 167810070 B) : UpdOut B r (execGcVictimSelection q hook s) := by
  unfold execGcVictimSelection
  repeat' first
    | exact within_trans (by decide) hB
    | with_reducible assumption
    | with_reducible refine updOut_next ?_
    | exact updOut_fault _
    | with_reducible apply upd_chooseVictim
    | split

theorem upd_execGcCopy (unit) (hook) (seg) (lost) (h : Upd B r s) (hB : within 1785762838 B) : UpdOut B r (execGcCopy unit hook seg lost s) := by
  unfold execGcCopy
  repeat' first
    | exact within_trans (by decide) hB
    | with_reducible assumption
    | with_reducible refine updOut_next ?_
    | with_reducible apply upd_gcCopy

theorem upd_execVictimErase (seg) (h : Upd B r s) (hB : within 138413072 B) : UpdOut B r (execVictimErase seg s) := by
  unfold execVictimErase
  repeat' first
    | exact within_trans (by decide) hB
    | with_reducible assumption
    | with_reducible refine updOut_next ?_
    | with_reducible apply upd_victimErase

theorem upd_execJournalPageFlush (h : Upd B r s) (hB : within 4194304 B) : UpdOut B r (execJournalPageFlush s) := by
  unfold execJournalPageFlush
  repeat' first
    | exact within_trans (by decide) hB
    | with_reducible assumption
    | with_reducible refine updOut_next ?_
    | with_reducible apply upd_pageFlush

theorem upd_execCheckpointSweep (h : Upd B r s) (hB : within 138412048 B) : UpdOut B r (execCheckpointSweep s) := by
  unfold execCheckpointSweep
  repeat' first
    | exact within_trans (by decide) hB
    | with_reducible assumption
    | with_reducible refine updOut_next ?_
    | with_reducible apply upd_sweep

theorem upd_execMapPageRebuild (page) (h : Upd B r s) (hB : within 542118930 B) : UpdOut B r (execMapPageRebuild page s) := by
  unfold execMapPageRebuild
  repeat' first
    | exact within_trans (by decide) hB
    | with_reducible assumption
    | with_reducible refine updOut_next ?_
    | with_reducible apply upd_pageRebuild

theorem upd_execRebuildByScan (q) (page) (h : Upd B r s) (hB : within 542113808 B) : UpdOut B r (execRebuildByScan q page s) := by
  unfold execRebuildByScan
  repeat' first
    | exact within_trans (by decide) hB
    | with_reducible assumption
    | with_reducible refine updOut_next ?_
    | exact updOut_fault _
    | with_reducible apply upd_scanRebuild
    | split

end Sys2Proof.Machine
end

