-- ==== Sys2Proof/Laws/UpdMemProt.lean ====
section
/-! SUPPORT. What the functions of Machine/MemProt.lean can change (Laws/Upd.lean). -/
namespace Sys2Proof.Machine
variable {B : Nat} {r s : State}

theorem upd_devCfg (v) (h : Upd B r s) (hB : within 536876050 B) : Upd B r (State.devCfg s v) := by
  unfold State.devCfg
  repeat' first
    | exact within_trans (by decide) hB
    | with_reducible assumption
    | with_reducible refine UpdO.get ?_ (by assumption)
    | with_reducible apply upd_storeReg
    | with_reducible apply upd_declareFailed
    | with_reducible refine updO_bind _ ?_
    | with_reducible intro _ _
    | split

theorem upd_passEnds (code) (h : Upd B r s) (hB : within 536870928 B) : Upd B r (State.passEnds s code) := by
  unfold State.passEnds
  repeat' first
    | exact within_trans (by decide) hB
    | with_reducible assumption
    | with_reducible apply upd_raiseEvt
    | with_reducible apply upd_onMemp

theorem upd_passStart (h : Upd B r s) (hB : within 536870928 B) : Upd B r (State.passStart s) := by
  unfold State.passStart
  repeat' first
    | exact within_trans (by decide) hB
    | with_reducible assumption
    | with_reducible apply upd_raiseEvt
    | with_reducible apply upd_passEnds
    | with_reducible apply upd_onMemp
    | (extract_lets +onlyGivenNames x; refine upd_let (B := B) (r := r) (x := x) ?_ (fun hx => ?_); rotate_left; clear_value x; revert x; intro _ _; rotate_left; unfold x; clear x)
    | (extract_lets +onlyGivenNames x; clear_value x; revert x; intro _)
    | split

theorem upd_passStop (h : Upd B r s) (hB : within 536870928 B) : Upd B r (State.passStop s) := by
  unfold State.passStop
  repeat' first
    | exact within_trans (by decide) hB
    | with_reducible assumption
    | with_reducible apply upd_passEnds
    | split

theorem upd_flipArm (h : Upd B r s) (hB : within 16 B) : Upd B r (State.flipArm s) := by
  unfold State.flipArm
  repeat' first
    | exact within_trans (by decide) hB
    | with_reducible assumption
    | with_reducible apply Upd.field

theorem upd_scrubBad (a) (h : Upd B r s) (hB : within 544216082 B) : Upd B r (State.scrubBad s a) := by
  unfold State.scrubBad
  repeat' first
    | exact within_trans (by decide) hB
    | with_reducible assumption
    | with_reducible apply upd_raiseEvt
    | with_reducible apply upd_pageRebuild
    | with_reducible apply upd_healWord
    | with_reducible apply upd_raiseFault
    | with_reducible apply upd_poisonAt
    | with_reducible apply upd_poisonLanded
    | with_reducible apply upd_writeWord
    | with_reducible apply upd_onLnd
    | (extract_lets +onlyGivenNames x; refine upd_let (B := B) (r := r) (x := x) ?_ (fun hx => ?_); rotate_left; clear_value x; revert x; intro _ _; rotate_left; unfold x; clear x)
    | (extract_lets +onlyGivenNames x; clear_value x; revert x; intro _)
    | with_reducible intro _ _ _ _
    | with_reducible intro _ _ _
    | with_reducible intro _ _
    | split

theorem upd_scrubWord (a) (h : Upd B r s) (hB : within 1617957906 B) : Upd B r (State.scrubWord s a) := by
  unfold State.scrubWord
  repeat' first
    | exact within_trans (by decide) hB
    | with_reducible assumption
    | with_reducible apply upd_writeBack
    | with_reducible apply upd_scrubBad
    | split

theorem upd_dramPatrol (h : Upd B r s) (hB : within 1617957906 B) : Upd B r (State.dramPatrol s) := by
  unfold State.dramPatrol
  repeat' first
    | exact within_trans (by decide) hB
    | with_reducible assumption
    | with_reducible apply upd_scrubWord
    | with_reducible apply upd_onMemp
    | with_reducible refine upd_foldl _ ?_ ?_
    | with_reducible intro _ _ _ _
    | with_reducible intro _ _ _
    | with_reducible intro _ _
    | split

theorem upd_noSpare (a) (h : Upd B r s) (hB : within 571675922 B) : Upd B r (State.noSpare s a) := by
  unfold State.noSpare
  repeat' first
    | exact within_trans (by decide) hB
    | with_reducible assumption
    | with_reducible apply upd_raiseFault
    | with_reducible apply upd_raiseEvt
    | with_reducible apply upd_fenceUnit
    | with_reducible apply upd_onMemp
    | (extract_lets +onlyGivenNames x; refine upd_let (B := B) (r := r) (x := x) ?_ (fun hx => ?_); rotate_left; clear_value x; revert x; intro _ _; rotate_left; unfold x; clear x)
    | (extract_lets +onlyGivenNames x; clear_value x; revert x; intro _)
    | split

theorem upd_hardRepair (i) (h : Upd B r s) (hB : within 1645417746 B) : Upd B r (State.hardRepair s i) := by
  unfold State.hardRepair
  repeat' first
    | exact within_trans (by decide) hB
    | with_reducible assumption
    | with_reducible apply upd_storeWord
    | with_reducible apply upd_raiseFault
    | with_reducible apply upd_noSpare
    | with_reducible apply upd_onMemp
    | with_reducible apply upd_onDram
    | (extract_lets +onlyGivenNames x; refine upd_let (B := B) (r := r) (x := x) ?_ (fun hx => ?_); rotate_left; clear_value x; revert x; intro _ _; rotate_left; unfold x; clear x)
    | (extract_lets +onlyGivenNames x; clear_value x; revert x; intro _)
    | with_reducible refine updO_map _ ?_
    | with_reducible refine updOP_map _ ?_
    | with_reducible refine updOPP_map _ ?_
    | with_reducible refine upd_foldl _ ?_ ?_
    | with_reducible intro _ _ _
    | split

theorem upd_passWord (a) (h : Upd B r s) (hB : within 1617957906 B) : Upd B r (State.passWord s a) := by
  unfold State.passWord
  extract_lets note
  have hn : ∀ s, Upd B r s → Upd B r (note s) := fun _ h => upd_onMemp _ h (within_trans (by decide) hB)
  clear_value note
  repeat' first
    | exact within_trans (by decide) hB
    | with_reducible assumption
    | with_reducible apply hn
    | with_reducible apply upd_onMemp
    | with_reducible apply upd_scrubWord
    | (extract_lets +onlyGivenNames x; refine upd_let (B := B) (r := r) (x := x) ?_ (fun hx => ?_); rotate_left; clear_value x; revert x; intro _ _; rotate_left; unfold x; clear x)
    | (extract_lets +onlyGivenNames x; clear_value x; revert x; intro _)
    | split

theorem upd_passFinish (h : Upd B r s) (hB : within 1617957906 B) : Upd B r (State.passFinish s) := by
  unfold State.passFinish
  repeat' first
    | exact within_trans (by decide) hB
    | with_reducible assumption
    | with_reducible apply upd_passEnds
    | with_reducible apply upd_passWord
    | with_reducible apply upd_onMemp
    | (extract_lets +onlyGivenNames x; refine upd_let (B := B) (r := r) (x := x) ?_ (fun hx => ?_); rotate_left; clear_value x; revert x; intro _ _; rotate_left; unfold x; clear x)
    | (extract_lets +onlyGivenNames x; clear_value x; revert x; intro _)
    | with_reducible refine upd_foldl _ ?_ ?_
    | with_reducible intro _ _ _ _
    | with_reducible intro _ _ _
    | with_reducible intro _ _
    | split

theorem upd_sramPatrol (h : Upd B r s) (hB : within 1617957906 B) : Upd B r (State.sramPatrol s) := by
  unfold State.sramPatrol
  repeat' first
    | exact within_trans (by decide) hB
    | with_reducible assumption
    | with_reducible apply upd_scrubWord
    | with_reducible apply upd_onMemp
    | with_reducible refine upd_foldl _ ?_ ?_
    | with_reducible intro _ _ _ _
    | with_reducible intro _ _ _
    | with_reducible intro _ _
    | split

theorem upd_execSramPatrol (h : Upd B r s) (hB : within 1617957906 B) : UpdOut B r (execSramPatrol s) := by
  unfold execSramPatrol
  repeat' first
    | exact within_trans (by decide) hB
    | with_reducible assumption
    | with_reducible refine updOut_next ?_
    | with_reducible apply upd_sramPatrol

theorem upd_execDramPatrol (h : Upd B r s) (hB : within 1617957906 B) : UpdOut B r (execDramPatrol s) := by
  unfold execDramPatrol
  repeat' first
    | exact within_trans (by decide) hB
    | with_reducible assumption
    | with_reducible refine updOut_next ?_
    | with_reducible apply upd_dramPatrol

theorem upd_execDeclare (val) (h : Upd B r s) (hB : within 536876050 B) : UpdOut B r (execDeclare val s) := by
  unfold execDeclare
  repeat' first
    | exact within_trans (by decide) hB
    | with_reducible assumption
    | with_reducible refine updOut_next ?_
    | with_reducible apply upd_devCfg

theorem upd_execHardFaultRepair (entry) (h : Upd B r s) (hB : within 1645417746 B) : UpdOut B r (execHardFaultRepair entry s) := by
  unfold execHardFaultRepair
  repeat' first
    | exact within_trans (by decide) hB
    | with_reducible assumption
    | with_reducible refine updOut_next ?_
    | with_reducible apply upd_hardRepair

theorem upd_execPassStart (h : Upd B r s) (hB : within 536870928 B) : UpdOut B r (execPassStart s) := by
  unfold execPassStart
  repeat' first
    | exact within_trans (by decide) hB
    | with_reducible assumption
    | with_reducible refine updOut_next ?_
    | with_reducible apply upd_passStart

theorem upd_execPassStop (h : Upd B r s) (hB : within 536870928 B) : UpdOut B r (execPassStop s) := by
  unfold execPassStop
  repeat' first
    | exact within_trans (by decide) hB
    | with_reducible assumption
    | with_reducible refine updOut_next ?_
    | with_reducible apply upd_passStop

theorem upd_execPassDone (h : Upd B r s) (hB : within 1617957906 B) : UpdOut B r (execPassDone s) := by
  unfold execPassDone
  repeat' first
    | exact within_trans (by decide) hB
    | with_reducible assumption
    | with_reducible refine updOut_next ?_
    | with_reducible apply upd_passFinish

theorem upd_execFlipArm (h : Upd B r s) (hB : within 16 B) : UpdOut B r (execFlipArm s) := by
  unfold execFlipArm
  repeat' first
    | exact within_trans (by decide) hB
    | with_reducible assumption
    | with_reducible refine updOut_next ?_
    | with_reducible apply upd_flipArm

end Sys2Proof.Machine
end

