-- ==== Sys2Proof/Laws/UpdEngine.lean ====
section
/-! SUPPORT. What the functions of Machine/Engine.lean can change (Laws/Upd.lean). -/
namespace Sys2Proof.Machine
variable {B : Nat} {r s : State}

theorem upd_onEng (e) (f) (h : Upd B r s) (hB : within 33554432 B) : Upd B r (State.onEng s e f) := by
  unfold State.onEng
  repeat' first
    | exact within_trans (by decide) hB
    | with_reducible assumption
    | with_reducible apply upd_onPrg

theorem upd_advance (e) (h : Upd B r s) (hB : within 33554432 B) : Upd B r (State.advance s e) := by
  unfold State.advance
  repeat' first
    | exact within_trans (by decide) hB
    | with_reducible assumption
    | with_reducible apply upd_onEng

theorem upd_memFill (l d n) (h : Upd B r s) (hB : within 536870928 B) : Upd B r (State.memFill s l d n) := by
  induction n generalizing s l d with
  | zero => exact h
  | succ n ih => exact ih _ _ (upd_writeWord _ _ h (within_trans (by decide) hB))

theorem upd_chargeStep (e) (h : Upd B r s) (hB : within 32768 B) : Upd B r (State.chargeStep s e) := by
  unfold State.chargeStep
  repeat' first
    | exact within_trans (by decide) hB
    | with_reducible assumption
    | with_reducible apply upd_chargeAt
    | with_reducible apply upd_onSched
    | split

theorem upd_consume (loc) (n) (unit) (h : Upd B r s) (hB : within 1610617874 B) : Upd B r (State.consume s loc n unit) := by
  unfold State.consume
  repeat' first
    | exact within_trans (by decide) hB
    | with_reducible assumption
    | with_reducible refine UpdP.snd (upd_loadWord (h := ?_) (hB := ?_) ..)
    | with_reducible refine upd_foldl _ ?_ ?_
    | with_reducible intro _ _ _

theorem upd_copyWord (e) (src) (dst) (h : Upd B r s) (hB : within 1610617874 B) : Upd B r (State.copyWord s e src dst) := by
  unfold State.copyWord
  repeat' first
    | exact within_trans (by decide) hB
    | with_reducible assumption
    | with_reducible apply upd_sendWord
    | with_reducible apply upd_writeBack
    | with_reducible apply upd_storeWord
    | with_reducible apply upd_raiseFault
    | with_reducible apply upd_raiseEvt
    | split

theorem upd_doXfer (e) (x) (h : Upd B r s) (hB : within 1610617874 B) : Upd B r (State.doXfer s e x) := by
  unfold State.doXfer
  repeat' first
    | exact within_trans (by decide) hB
    | with_reducible assumption
    | with_reducible apply upd_copyWord
    | with_reducible refine upd_foldl _ ?_ ?_
    | with_reducible intro _ _ _

theorem upd_doXfers (e) (h : Upd B r s) (hB : within 1644172306 B) : Upd B r (State.doXfers s e) := by
  unfold State.doXfers
  repeat' first
    | exact within_trans (by decide) hB
    | with_reducible assumption
    | with_reducible apply upd_onEng
    | with_reducible apply upd_doXfer
    | with_reducible refine upd_foldl _ ?_ ?_
    | with_reducible intro _ _ _

theorem upd_reap (h : Upd B r s) (hB : within 33554432 B) : Upd B r (State.reap s) := by
  unfold State.reap
  repeat' first
    | exact within_trans (by decide) hB
    | with_reducible assumption
    | with_reducible apply upd_onPrg

theorem upd_dropScan (c) (cancelled) (h : Upd B r s) (hB : within 34799634 B) : Upd B r (State.dropScan s c cancelled) := by
  unfold State.dropScan
  repeat' first
    | exact within_trans (by decide) hB
    | with_reducible assumption
    | with_reducible apply upd_reap
    | with_reducible apply upd_complete
    | with_reducible apply upd_onPrg
    | split

theorem upd_endScan (c) (endc) (cause) (xval) (stop) (h : Upd B r s) (hB : within 34799634 B) : Upd B r (State.endScan s c endc cause xval stop) := by
  unfold State.endScan
  repeat' first
    | exact within_trans (by decide) hB
    | with_reducible assumption
    | with_reducible apply upd_dropScan
    | with_reducible apply upd_onCmd
    | (extract_lets +onlyGivenNames x; refine upd_let (B := B) (r := r) (x := x) ?_ (fun hx => ?_); rotate_left; clear_value x; revert x; intro _ _; rotate_left; unfold x; clear x)
    | (extract_lets +onlyGivenNames x; clear_value x; revert x; intro _)
    | with_reducible intro _ _ _ _
    | with_reducible intro _ _ _
    | with_reducible intro _ _

theorem upd_leaveStep (e) (cause) (pc) (val) (h : Upd B r s) (hB : within 1644172306 B) : Upd B r (State.leaveStep s e cause pc val) := by
  unfold State.leaveStep
  repeat' first
    | exact within_trans (by decide) hB
    | with_reducible assumption
    | with_reducible apply upd_doXfers
    | with_reducible apply upd_onEng
    | split

theorem upd_onScan (fsn) (f) (h : Upd B r s) (hB : within 33554432 B) : Upd B r (State.onScan s fsn f) := by
  unfold State.onScan
  repeat' first
    | exact within_trans (by decide) hB
    | with_reducible assumption
    | with_reducible apply upd_onPrg
    | with_reducible refine updO_map _ ?_
    | with_reducible refine updOP_map _ ?_
    | with_reducible refine updOPP_map _ ?_

theorem upd_scanAfter (c) (cause) (val) (g) (h : Upd B r s) (hB : within 34799634 B) : Upd B r (State.scanAfter s c cause val g) := by
  unfold State.scanAfter
  repeat' first
    | exact within_trans (by decide) hB
    | with_reducible assumption
    | with_reducible apply upd_endScan
    | with_reducible apply upd_onScan
    | (extract_lets +onlyGivenNames x; clear_value x; revert x; intro _)
    | split

theorem upd_progTrap (e) (ring) (cause) (handle) (h : Upd B r s) (hB : within 33559570 B) : Upd B r (State.progTrap s e ring cause handle) := by
  unfold State.progTrap
  repeat' first
    | exact within_trans (by decide) hB
    | with_reducible assumption
    | with_reducible apply upd_bump
    | with_reducible apply upd_raiseEvt
    | with_reducible apply upd_raiseFault
    | with_reducible apply upd_onPrg
    | with_reducible refine updO_map _ ?_
    | with_reducible refine updOP_map _ ?_
    | with_reducible refine updOPP_map _ ?_
    | split

theorem upd_endStep (e) (cause) (pc) (val) (h : Upd B r s) (hB : within 1645450258 B) : Upd B r (State.endStep s e cause pc val) := by
  unfold State.endStep
  repeat' first
    | exact within_trans (by decide) hB
    | with_reducible assumption
    | with_reducible apply upd_chargeStep
    | with_reducible apply upd_leaveStep
    | with_reducible apply upd_onEng
    | with_reducible apply upd_scanAfter
    | with_reducible apply upd_progTrap
    | (extract_lets +onlyGivenNames x; refine upd_let (B := B) (r := r) (x := x) ?_ (fun hx => ?_); rotate_left; clear_value x; revert x; intro _ _; rotate_left; unfold x; clear x)
    | (extract_lets +onlyGivenNames x; clear_value x; revert x; intro _)
    | split

theorem upd_failScan (c) (st) (h : Upd B r s) (hB : within 34799634 B) : Upd B r (State.failScan s c st) := by
  unfold State.failScan
  repeat' first
    | exact within_trans (by decide) hB
    | with_reducible assumption
    | with_reducible apply upd_dropScan
    | with_reducible apply upd_complete

theorem upd_finishScans (h : Upd B r s) (hB : within 1245202 B) : Upd B r (State.finishScans s) := by
  unfold State.finishScans
  repeat' first
    | exact within_trans (by decide) hB
    | with_reducible assumption
    | with_reducible apply upd_complete
    | with_reducible refine upd_foldl _ ?_ ?_
    | with_reducible intro _ _ _ _
    | with_reducible intro _ _ _
    | with_reducible intro _ _
    | split

theorem upd_jumpTo (e) (pc) (call) (h : Upd B r s) (hB : within 33554432 B) : Upd B r (State.jumpTo s e pc call) := by
  unfold State.jumpTo
  repeat' first
    | exact within_trans (by decide) hB
    | with_reducible assumption
    | with_reducible apply upd_onEng

theorem upd_spendFar (e) (c) (lo) (h : Upd B r s) (hB : within 33554436 B) : Upd B r (State.spendFar s e c lo) := by
  unfold State.spendFar
  repeat' first
    | exact within_trans (by decide) hB
    | with_reducible assumption
    | with_reducible apply Upd.freed
    | with_reducible apply upd_onEng
    | with_reducible intro _ _ _ _
    | with_reducible intro _ _ _
    | with_reducible intro _ _

theorem upd_spendAt (e) (loc) (c) (lo) (h : Upd B r s) (hB : within 33554436 B) : Upd B r (State.spendAt s e loc c lo) := by
  unfold State.spendAt
  repeat' first
    | exact within_trans (by decide) hB
    | with_reducible assumption
    | with_reducible apply upd_spendFar
    | split

theorem upd_memStore (loc) (n) (v) (h : Upd B r s) (hB : within 536870928 B) : Upd B r (State.memStore s loc n v) := by
  unfold State.memStore
  repeat' first
    | exact within_trans (by decide) hB
    | with_reducible assumption
    | with_reducible apply upd_writeWord

theorem upd_memSend (e) (loc) (n) (v) (h : Upd B r s) (hB : within 536876050 B) : Upd B r (State.memSend s e loc n v) := by
  unfold State.memSend
  repeat' first
    | exact within_trans (by decide) hB
    | with_reducible assumption
    | with_reducible apply upd_sendWord
    | with_reducible apply upd_memStore
    | split

theorem upd_spend (e) (cyc) (h : Upd B r s) (hB : within 33554432 B) : Upd B r (State.spend s e cyc) := by
  unfold State.spend
  repeat' first
    | exact within_trans (by decide) hB
    | with_reducible assumption
    | with_reducible apply upd_onEng

theorem upd_trap (e) (cause) (val) (h : Upd B r s) (hB : within 1645450514 B) : Upd B r (State.trap s e cause val) := by
  unfold State.trap
  repeat' first
    | exact within_trans (by decide) hB
    | with_reducible assumption
    | with_reducible apply upd_raiseFault
    | with_reducible apply upd_raiseEvt
    | with_reducible apply upd_endStep
    | with_reducible apply upd_fenceUnit
    | with_reducible apply upd_onEng
    | (extract_lets +onlyGivenNames x; refine upd_let (B := B) (r := r) (x := x) ?_ (fun hx => ?_); rotate_left; clear_value x; revert x; intro _ _; rotate_left; unfold x; clear x)
    | (extract_lets +onlyGivenNames x; clear_value x; revert x; intro _)
    | split

theorem upd_balufRow (e op cost f) (hf : ∀ i g s, Upd B r s → UpdB B r (f i g s)) (h : Upd B r s) (hB : within 1645450514 B) : UpdOut B r (balufRow e op cost f s) := by
  unfold balufRow
  repeat' first
    | exact within_trans (by decide) hB
    | with_reducible assumption
    | with_reducible refine updOut_next ?_
    | with_reducible apply upd_trap
    | split
  extract_lets g c t res ill
  have ht : Upd B r t := upd_spend _ _ h (within_trans (by decide) hB)
  have hr : UpdB B r res := hf _ _ _ ht
  clear_value res t
  repeat' first
    | exact within_trans (by decide) hB
    | with_reducible assumption
    | with_reducible refine updOut_next ?_
    | with_reducible apply upd_trap
    | with_reducible apply upd_advance
    | with_reducible apply upd_jumpTo
    | with_reducible refine UpdB.go hr (by rfl)
    | with_reducible refine UpdB.done hr (by rfl)
    | with_reducible refine UpdB.jump hr (by rfl)
    | with_reducible refine UpdB.trapIn hr (by rfl)
    | split

theorem upd_simpleRow (e) (op) (f) (hf : ∀ i g s, Upd B r s → UpdB B r (f i g s)) (h : Upd B r s) (hB : within 1645450514 B) : UpdOut B r (simpleRow e op f s) := by
  unfold simpleRow
  repeat' first
    | exact within_trans (by decide) hB
    | with_reducible assumption
    | with_reducible apply upd_balufRow

end Sys2Proof.Machine
end

