-- ==== Sys2Proof/Laws/UpdReset.lean ====
section
/-! SUPPORT. What the functions of Machine/Reset.lean can change (Laws/Upd.lean). -/
namespace Sys2Proof.Machine
variable {B : Nat} {r s : State}

theorem upd_resetCmd (c) (h : Upd B r s) (hB : within 1786713106 B) : Upd B r (State.resetCmd s c) := by
  unfold State.resetCmd
  repeat' first
    | exact within_trans (by decide) hB
    | with_reducible assumption
    | with_reducible apply upd_onCmd
    | with_reducible apply upd_landingCommit
    | with_reducible apply upd_discardWrite
    | with_reducible apply upd_dropCmd
    | with_reducible apply upd_onPrg
    | (extract_lets +onlyGivenNames x; refine upd_let (B := B) (r := r) (x := x) ?_ (fun hx => ?_); rotate_left; clear_value x; revert x; intro _ _; rotate_left; unfold x; clear x)
    | split

theorem upd_resetFns (p) (h : Upd B r s) (hB : within 1803498514 B) : Upd B r (State.resetFns s p) := by
  unfold State.resetFns
  repeat' first
    | exact within_trans (by decide) hB
    | with_reducible assumption
    | with_reducible apply upd_resetCmd
    | with_reducible apply upd_onHif
    | with_reducible apply upd_onLog
    | with_reducible apply upd_onLvl
    | (extract_lets +onlyGivenNames x; refine upd_let (B := B) (r := r) (x := x) ?_ (fun hx => ?_); rotate_left; clear_value x; revert x; intro _ _; rotate_left; unfold x; clear x)
    | (extract_lets +onlyGivenNames x; clear_value x; revert x; intro _)
    | with_reducible refine upd_foldl _ ?_ ?_
    | with_reducible intro _ _ _ _
    | with_reducible intro _ _ _
    | with_reducible intro _ _
    | split

theorem upd_subsystemReset (h : Upd B r s) (hB : within 1803498514 B) : Upd B r (State.subsystemReset s) := by
  unfold State.subsystemReset
  repeat' first
    | exact within_trans (by decide) hB
    | with_reducible assumption
    | with_reducible apply upd_resetFns
    | with_reducible apply upd_onHif

theorem upd_dmaOff (p) (h : Upd B r s) (hB : within 32768 B) : Upd B r (State.dmaOff s p) := by
  unfold State.dmaOff
  repeat' first
    | exact within_trans (by decide) hB
    | with_reducible assumption
    | with_reducible apply upd_onSched
    | with_reducible refine updO_map _ ?_
    | with_reducible refine updOP_map _ ?_
    | with_reducible refine updOPP_map _ ?_
    | with_reducible intro _ _ _ _
    | with_reducible intro _ _ _
    | with_reducible intro _ _
    | split

theorem upd_enable (fn) (sqSize) (cqSize) (h : Upd B r s) (hB : within 65536 B) : Upd B r (State.enable s fn sqSize cqSize) := by
  unfold State.enable
  repeat' first
    | exact within_trans (by decide) hB
    | with_reducible assumption
    | with_reducible apply upd_giveQueue
    | with_reducible apply upd_onCtrl
    | with_reducible apply upd_miChange
    | split

theorem upd_setShst (fn) (v) (h : Upd B r s) (hB : within 65536 B) : Upd B r (State.setShst s fn v) := by
  unfold State.setShst
  repeat' first
    | exact within_trans (by decide) hB
    | with_reducible assumption
    | with_reducible apply upd_miChange
    | with_reducible apply upd_onCtrl
    | split

theorem upd_shutdown (fn) (h : Upd B r s) (hB : within 138477584 B) : Upd B r (State.shutdown s fn) := by
  unfold State.shutdown
  repeat' first
    | exact within_trans (by decide) hB
    | with_reducible assumption
    | with_reducible apply upd_setShst
    | with_reducible apply upd_cleanShutdown
    | split

theorem upd_shutdownTick (h : Upd B r s) (hB : within 138477584 B) : Upd B r (State.shutdownTick s) := by
  unfold State.shutdownTick
  repeat' first
    | exact within_trans (by decide) hB
    | with_reducible assumption
    | with_reducible apply upd_shutdown
    | with_reducible refine upd_foldl _ ?_ ?_
    | with_reducible intro _ _ _ _
    | with_reducible intro _ _ _
    | with_reducible intro _ _

theorem upd_onPort (p) (f) (h : Upd B r s) (hB : within 65536 B) : Upd B r (State.onPort s p f) := by
  unfold State.onPort
  repeat' first
    | exact within_trans (by decide) hB
    | with_reducible assumption
    | with_reducible apply upd_onHif

theorem upd_linkDown (p) (h : Upd B r s) (hB : within 1803531282 B) : Upd B r (State.linkDown s p) := by
  unfold State.linkDown
  repeat' first
    | exact within_trans (by decide) hB
    | with_reducible assumption
    | with_reducible apply upd_raiseEvt
    | with_reducible apply upd_onPort
    | with_reducible apply upd_dmaOff
    | with_reducible apply upd_resetFns
    | split

theorem upd_linkRetrain (p) (gen) (width) (flit) (h : Upd B r s) (hB : within 98320 B) : Upd B r (State.linkRetrain s p gen width flit) := by
  unfold State.linkRetrain
  repeat' first
    | exact within_trans (by decide) hB
    | with_reducible assumption
    | with_reducible apply upd_onPort
    | with_reducible apply upd_dmaOff
    | with_reducible apply upd_raiseEvt
    | (extract_lets +onlyGivenNames x; refine upd_let (B := B) (r := r) (x := x) ?_ (fun hx => ?_); rotate_left; clear_value x; revert x; intro _ _; rotate_left; unfold x; clear x)
    | (extract_lets +onlyGivenNames x; clear_value x; revert x; intro _)
    | split

theorem upd_linkUp (p) (gen) (width) (flit) (h : Upd B r s) (hB : within 65536 B) : Upd B r (State.linkUp s p gen width flit) := by
  unfold State.linkUp
  repeat' first
    | exact within_trans (by decide) hB
    | with_reducible assumption
    | with_reducible apply upd_onPort
    | split

theorem upd_perstHigh (p) (strap) (h : Upd B r s) (hB : within 16842752 B) : Upd B r (State.perstHigh s p strap) := by
  unfold State.perstHigh
  repeat' first
    | exact within_trans (by decide) hB
    | with_reducible assumption
    | with_reducible apply upd_onPort
    | with_reducible apply upd_onLvl
    | with_reducible apply upd_onHif
    | (extract_lets +onlyGivenNames x; refine upd_let (B := B) (r := r) (x := x) ?_ (fun hx => ?_); rotate_left; clear_value x; revert x; intro _ _; rotate_left; unfold x; clear x)
    | (extract_lets +onlyGivenNames x; clear_value x; revert x; intro _)
    | with_reducible intro _ _ _ _
    | with_reducible intro _ _ _
    | with_reducible intro _ _
    | split

theorem upd_perstLow (p) (h : Upd B r s) (hB : within 1803498514 B) : Upd B r (State.perstLow s p) := by
  unfold State.perstLow
  repeat' first
    | exact within_trans (by decide) hB
    | with_reducible assumption
    | with_reducible apply upd_onPort
    | with_reducible apply upd_resetFns
    | split

theorem upd_transferFails (fsn) (h : Upd B r s) (hB : within 4133906 B) : Upd B r (State.transferFails s fsn) := by
  unfold State.transferFails
  repeat' first
    | exact within_trans (by decide) hB
    | with_reducible assumption
    | with_reducible apply upd_discardWrite
    | with_reducible apply upd_complete
    | with_reducible apply upd_raiseFault
    | split

theorem upd_execPerstAssert (port) (h : Upd B r s) (hB : within 1803498514 B) : UpdOut B r (execPerstAssert port s) := by
  unfold execPerstAssert
  repeat' first
    | exact within_trans (by decide) hB
    | with_reducible assumption
    | with_reducible refine updOut_next ?_
    | exact updOut_fault _
    | with_reducible apply upd_perstLow
    | split

theorem upd_execPerstDeassert (port) (strap) (h : Upd B r s) (hB : within 16842752 B) : UpdOut B r (execPerstDeassert port strap s) := by
  unfold execPerstDeassert
  repeat' first
    | exact within_trans (by decide) hB
    | with_reducible assumption
    | with_reducible refine updOut_next ?_
    | exact updOut_fault _
    | with_reducible apply upd_perstHigh
    | split

theorem upd_execLinkTrained (port) (gen) (width) (flit) (h : Upd B r s) (hB : within 65536 B) : UpdOut B r (execLinkTrained port gen width flit s) := by
  unfold execLinkTrained
  repeat' first
    | exact within_trans (by decide) hB
    | with_reducible assumption
    | with_reducible refine updOut_next ?_
    | exact updOut_fault _
    | with_reducible apply upd_linkUp
    | split

theorem upd_execLinkRetrain (port) (gen) (width) (flit) (h : Upd B r s) (hB : within 98320 B) : UpdOut B r (execLinkRetrain port gen width flit s) := by
  unfold execLinkRetrain
  repeat' first
    | exact within_trans (by decide) hB
    | with_reducible assumption
    | with_reducible refine updOut_next ?_
    | exact updOut_fault _
    | with_reducible apply upd_linkRetrain
    | split

theorem upd_execLinkDown (port) (h : Upd B r s) (hB : within 1803531282 B) : UpdOut B r (execLinkDown port s) := by
  unfold execLinkDown
  repeat' first
    | exact within_trans (by decide) hB
    | with_reducible assumption
    | with_reducible refine updOut_next ?_
    | exact updOut_fault _
    | with_reducible apply upd_linkDown
    | split

theorem upd_execHostTransferFailure (fsn) (h : Upd B r s) (hB : within 4133906 B) : UpdOut B r (execHostTransferFailure fsn s) := by
  unfold execHostTransferFailure
  repeat' first
    | exact within_trans (by decide) hB
    | with_reducible assumption
    | with_reducible refine updOut_next ?_
    | with_reducible apply upd_transferFails

theorem upd_execControllerReset (fn) (h : Upd B r s) (hB : within 1803498514 B) : UpdOut B r (execControllerReset fn s) := by
  unfold execControllerReset
  repeat' first
    | exact within_trans (by decide) hB
    | with_reducible assumption
    | with_reducible refine updOut_next ?_
    | with_reducible apply upd_resetFns

theorem upd_execFunctionLevelReset (fn) (h : Upd B r s) (hB : within 1803498514 B) : UpdOut B r (execFunctionLevelReset fn s) := by
  unfold execFunctionLevelReset
  repeat' first
    | exact within_trans (by decide) hB
    | with_reducible assumption
    | with_reducible refine updOut_next ?_
    | with_reducible apply upd_resetFns

theorem upd_execControllerShutdown (fn) (h : Upd B r s) (hB : within 138477584 B) : UpdOut B r (execControllerShutdown fn s) := by
  unfold execControllerShutdown
  repeat' first
    | exact within_trans (by decide) hB
    | with_reducible assumption
    | with_reducible refine updOut_next ?_
    | with_reducible apply upd_shutdown

theorem upd_execControllerEnable (fn) (sqSize) (cqSize) (h : Upd B r s) (hB : within 65536 B) : UpdOut B r (execControllerEnable fn sqSize cqSize s) := by
  unfold execControllerEnable
  repeat' first
    | exact within_trans (by decide) hB
    | with_reducible assumption
    | with_reducible refine updOut_next ?_
    | with_reducible apply upd_enable

end Sys2Proof.Machine
end

