-- ==== Sys2Proof/Laws/UpdFetch.lean ====
section
/-! SUPPORT. What the functions of Machine/Fetch.lean can change (Laws/Upd.lean). -/
namespace Sys2Proof.Machine
variable {B : Nat} {r s : State}

theorem upd_badDoorbell (fn) (info) (h : Upd B r s) (hB : within 1245202 B) : Upd B r (State.badDoorbell s fn info) := by
  unfold State.badDoorbell
  repeat' first
    | exact within_trans (by decide) hB
    | with_reducible assumption
    | with_reducible apply upd_aenTo
    | with_reducible apply upd_raiseEvt

theorem upd_doorbell (fn) (q) (cq) (val) (h : Upd B r s) (hB : within 1245202 B) : Upd B r (State.doorbell s fn q cq val) := by
  unfold State.doorbell
  repeat' first
    | exact within_trans (by decide) hB
    | with_reducible assumption
    | with_reducible apply upd_badDoorbell
    | with_reducible apply upd_onCtrl
    | split

theorem upd_enter (c) (st) (h : Upd B r s) (hB : within 1245202 B) : Upd B r (State.enter s c st) := by
  unfold State.enter
  repeat' first
    | exact within_trans (by decide) hB
    | with_reducible assumption
    | with_reducible apply upd_complete
    | with_reducible apply upd_onHif
    | split

theorem upd_fetch (fn) (sq) (q) (h : Upd B r s) (hB : within 1245202 B) : Upd B r (State.fetch s fn sq q) := by
  unfold State.fetch
  repeat' first
    | exact within_trans (by decide) hB
    | with_reducible assumption
    | with_reducible apply upd_onCtrl
    | with_reducible apply upd_enter
    | split

theorem upd_adminRow (fsn) (opc) (f) (hf : ∀ e s, Upd B r s → Upd B r (f e s)) (h : Upd B r s) : UpdOut B r (adminRow fsn opc f s) := by
  unfold adminRow
  repeat' first
    | with_reducible assumption
    | with_reducible refine updOut_next ?_
    | with_reducible apply hf
    | split

theorem upd_execDoorbellWrite (fn) (q) (cq) (val) (h : Upd B r s) (hB : within 1245202 B) : UpdOut B r (execDoorbellWrite fn q cq val s) := by
  unfold execDoorbellWrite
  repeat' first
    | exact within_trans (by decide) hB
    | with_reducible assumption
    | with_reducible refine updOut_next ?_
    | with_reducible apply upd_doorbell

theorem upd_execCommandFetch (fn) (sq) (sqe) (h : Upd B r s) (hB : within 1245202 B) : UpdOut B r (execCommandFetch fn sq sqe s) := by
  unfold execCommandFetch
  repeat' first
    | exact within_trans (by decide) hB
    | with_reducible assumption
    | with_reducible refine updOut_next ?_
    | with_reducible apply upd_fetch

end Sys2Proof.Machine
end

