-- ==== Sys2Proof/Laws/UpdSec.lean ====
section
/-! SUPPORT. What the functions of Machine/Sec.lean can change (Laws/Upd.lean). -/
namespace Sys2Proof.Machine
variable {B : Nat} {r s : State}

theorem upd_onCc (q) (f) (h : Upd B r s) (hB : within 268435456 B) : Upd B r (State.onCc s q f) := by
  unfold State.onCc
  repeat' first
    | exact within_trans (by decide) hB
    | with_reducible assumption
    | with_reducible apply upd_onSec

theorem upd_secOnly (acc) (addr) (f) (hf : ∀ s, Upd B r s → Upd B r (f s)) (h : Upd B r s) (hB : within 16 B) : Upd B r (State.secOnly s acc addr f) := by
  unfold State.secOnly
  repeat' first
    | exact within_trans (by decide) hB
    | with_reducible assumption
    | with_reducible apply upd_accFault
    | with_reducible apply hf
    | split

theorem upd_alarm (src) (h : Upd B r s) (hB : within 268440586 B) : Upd B r (State.alarm s src) := by
  unfold State.alarm
  repeat' first
    | exact within_trans (by decide) hB
    | with_reducible assumption
    | with_reducible apply upd_raiseFault
    | with_reducible apply Upd.drawn
    | with_reducible apply upd_onSec
    | split

theorem upd_alarmForce (acc) (v) (h : Upd B r s) (hB : within 268440602 B) : Upd B r (State.alarmForce s acc v) := by
  unfold State.alarmForce
  repeat' first
    | exact within_trans (by decide) hB
    | with_reducible assumption
    | with_reducible apply upd_secOnly
    | with_reducible apply upd_alarm
    | with_reducible intro _ _
    | split

theorem upd_raiseSvn (h : Upd B r s) (hB : within 268435456 B) : Upd B r (State.raiseSvn s) := by
  unfold State.raiseSvn
  repeat' first
    | exact within_trans (by decide) hB
    | with_reducible assumption
    | with_reducible apply upd_onSec

theorem upd_svnCtl (v) (h : Upd B r s) (hB : within 268435472 B) : Upd B r (State.svnCtl s v) := by
  unfold State.svnCtl
  repeat' first
    | exact within_trans (by decide) hB
    | with_reducible assumption
    | with_reducible apply upd_storeAt
    | with_reducible apply upd_raiseSvn
    | split

theorem upd_revoke (acc) (v) (h : Upd B r s) (hB : within 268435472 B) : Upd B r (State.revoke s acc v) := by
  unfold State.revoke
  repeat' first
    | exact within_trans (by decide) hB
    | with_reducible assumption
    | with_reducible apply upd_secOnly
    | with_reducible apply upd_onSec
    | with_reducible intro _ _
    | split

theorem upd_blobFail (fsn) (reason) (h : Upd B r s) (hB : within 1245202 B) : Upd B r (State.blobFail s fsn reason) := by
  unfold State.blobFail
  repeat' first
    | exact within_trans (by decide) hB
    | with_reducible assumption
    | with_reducible apply upd_raiseEvt
    | with_reducible apply upd_complete

theorem upd_keysBack (h : Upd B r s) (hB : within 268435456 B) : Upd B r (State.keysBack s) := by
  unfold State.keysBack
  repeat' first
    | exact within_trans (by decide) hB
    | with_reducible assumption
    | with_reducible apply upd_onSec
    | with_reducible intro _ _ _ _
    | with_reducible intro _ _ _
    | with_reducible intro _ _
    | split

theorem upd_onSlot (n) (f) (h : Upd B r s) (hB : within 268435456 B) : Upd B r (State.onSlot s n f) := by
  unfold State.onSlot
  repeat' first
    | exact within_trans (by decide) hB
    | with_reducible assumption
    | with_reducible apply upd_onSec

theorem upd_rekeyDone (nsid) (h : Upd B r s) (hB : within 268435456 B) : Upd B r (State.rekeyDone s nsid) := by
  unfold State.rekeyDone
  repeat' first
    | exact within_trans (by decide) hB
    | with_reducible assumption
    | with_reducible apply upd_onSlot
    | split

theorem upd_putKey (dst) (imp) (b) (k) (rotate) (h : Upd B r s) (hB : within 268435456 B) : Upd B r (State.putKey s dst imp b k rotate) := by
  unfold State.putKey
  repeat' first
    | exact within_trans (by decide) hB
    | with_reducible assumption
    | with_reducible apply upd_onSlot

theorem upd_blobImport (c) (h : Upd B r s) (hB : within 269680658 B) : Upd B r (State.blobImport s c) := by
  unfold State.blobImport
  repeat' first
    | exact within_trans (by decide) hB
    | with_reducible assumption
    | with_reducible apply upd_complete
    | with_reducible apply upd_blobFail
    | with_reducible apply upd_keysBack
    | with_reducible apply upd_rekeyDone
    | with_reducible apply upd_putKey
    | (extract_lets +onlyGivenNames x; clear_value x; revert x; intro _)
    | split

theorem upd_zeroSlot (n) (h : Upd B r s) (hB : within 268435456 B) : Upd B r (State.zeroSlot s n) := by
  unfold State.zeroSlot
  repeat' first
    | exact within_trans (by decide) hB
    | with_reducible assumption
    | with_reducible apply upd_onSlot

theorem upd_blobZero (c) (h : Upd B r s) (hB : within 269680658 B) : Upd B r (State.blobZero s c) := by
  unfold State.blobZero
  repeat' first
    | exact within_trans (by decide) hB
    | with_reducible assumption
    | with_reducible apply upd_complete
    | with_reducible apply upd_blobFail
    | with_reducible apply upd_zeroSlot
    | (extract_lets +onlyGivenNames x; clear_value x; revert x; intro _)
    | split

theorem upd_queueJob (q) (job) (h : Upd B r s) (hB : within 268435456 B) : Upd B r (State.queueJob s q job) := by
  unfold State.queueJob
  repeat' first
    | exact within_trans (by decide) hB
    | with_reducible assumption
    | with_reducible apply upd_onCc
    | with_reducible intro _ _ _ _
    | with_reducible intro _ _ _
    | with_reducible intro _ _
    | split

theorem upd_startJob (q) (j) (stall) (p) (susp) (h : Upd B r s) (hB : within 268468240 B) : Upd B r (State.startJob s q j stall p susp) := by
  unfold State.startJob
  repeat' first
    | exact within_trans (by decide) hB
    | with_reducible assumption
    | with_reducible apply Upd.field
    | with_reducible apply upd_raiseEvt
    | with_reducible apply upd_chargeAt
    | with_reducible apply upd_onCc
    | with_reducible apply upd_onSched
    | (extract_lets +onlyGivenNames x; refine upd_let (B := B) (r := r) (x := x) ?_ (fun hx => ?_); rotate_left; clear_value x; revert x; intro _ _; rotate_left; unfold x; clear x)
    | (extract_lets +onlyGivenNames x; clear_value x; revert x; intro _)
    | with_reducible intro _ _ _ _
    | with_reducible intro _ _ _
    | with_reducible intro _ _
    | split

theorem upd_cipherJob (q) (done) (job) (blk) (stall) (h : Upd B r s) (hB : within 268468240 B) : Upd B r (State.cipherJob s q done job blk stall) := by
  unfold State.cipherJob
  repeat' first
    | exact within_trans (by decide) hB
    | with_reducible assumption
    | with_reducible apply upd_queueJob
    | with_reducible apply upd_onCc
    | with_reducible apply upd_lookAt
    | with_reducible apply upd_startJob
    | with_reducible apply upd_onCc
    | with_reducible apply upd_raiseEvt
    | (extract_lets +onlyGivenNames x; refine upd_let (B := B) (r := r) (x := x) ?_ (fun hx => ?_); rotate_left; clear_value x; revert x; intro _ _; rotate_left; unfold x; clear x)
    | (extract_lets +onlyGivenNames x; clear_value x; revert x; intro _)
    | with_reducible refine updO_map _ ?_
    | with_reducible refine updOP_map _ ?_
    | with_reducible refine updOPP_map _ ?_
    | with_reducible refine upd_foldl _ ?_ ?_
    | with_reducible intro _ _ _ _
    | with_reducible intro _ _ _
    | with_reducible intro _ _
    | split

theorem upd_deriveId (h : Upd B r s) (hB : within 268435456 B) : Upd B r (State.deriveId s) := by
  unfold State.deriveId
  repeat' first
    | exact within_trans (by decide) hB
    | with_reducible assumption
    | with_reducible apply upd_onSec
    | (extract_lets +onlyGivenNames x; refine upd_let (B := B) (r := r) (x := x) ?_ (fun hx => ?_); rotate_left; clear_value x; revert x; intro _ _; rotate_left; unfold x; clear x)
    | (extract_lets +onlyGivenNames x; clear_value x; revert x; intro _)
    | with_reducible intro _ _ _ _
    | with_reducible intro _ _ _
    | with_reducible intro _ _

theorem upd_drawKey (h : Upd B r s) (hB : within 268435456 B) : Upd B r (State.drawKey s) := by
  unfold State.drawKey
  repeat' first
    | exact within_trans (by decide) hB
    | with_reducible assumption
    | with_reducible apply upd_onSec

theorem upd_entropy (q) (pass) (h : Upd B r s) (hB : within 268440602 B) : Upd B r (State.entropy s q pass) := by
  unfold State.entropy
  repeat' first
    | exact within_trans (by decide) hB
    | with_reducible assumption
    | with_reducible apply upd_onCc
    | with_reducible apply upd_raiseFault
    | with_reducible apply upd_raiseEvt
    | with_reducible apply upd_alarm
    | (extract_lets +onlyGivenNames x; refine upd_let (B := B) (r := r) (x := x) ?_ (fun hx => ?_); rotate_left; clear_value x; revert x; intro _ _; rotate_left; unfold x; clear x)
    | split

theorem upd_newSlotKey (n) (h : Upd B r s) (hB : within 268435456 B) : Upd B r (State.newSlotKey s n) := by
  unfold State.newSlotKey
  repeat' first
    | exact within_trans (by decide) hB
    | with_reducible assumption
    | with_reducible apply upd_onSlot
    | with_reducible apply upd_drawKey

theorem upd_rekeyDoneAll (h : Upd B r s) (hB : within 268435456 B) : Upd B r (State.rekeyDoneAll s) := by
  unfold State.rekeyDoneAll
  repeat' first
    | exact within_trans (by decide) hB
    | with_reducible assumption
    | with_reducible apply upd_rekeyDone
    | with_reducible refine upd_foldl _ ?_ ?_
    | with_reducible intro _ _ _

theorem upd_kat (q) (p) (pass) (h : Upd B r s) (hB : within 303240466 B) : Upd B r (State.kat s q p pass) := by
  unfold State.kat
  repeat' first
    | exact within_trans (by decide) hB
    | with_reducible assumption
    | with_reducible apply upd_onCc
    | with_reducible apply upd_raiseFault
    | with_reducible apply upd_raiseEvt
    | with_reducible apply upd_fenceUnit
    | (extract_lets +onlyGivenNames x; refine upd_let (B := B) (r := r) (x := x) ?_ (fun hx => ?_); rotate_left; clear_value x; revert x; intro _ _; rotate_left; unfold x; clear x)
    | (extract_lets +onlyGivenNames x; clear_value x; revert x; intro _)
    | split

theorem upd_onSess (id) (f) (h : Upd B r s) (hB : within 268435456 B) : Upd B r (State.onSess s id f) := by
  unfold State.onSess
  repeat' first
    | exact within_trans (by decide) hB
    | with_reducible assumption
    | with_reducible apply upd_onSec
    | with_reducible refine updO_map _ ?_
    | with_reducible refine updOP_map _ ?_
    | with_reducible refine updOPP_map _ ?_

theorem upd_prov (h : Upd B r s) (hB : within 16 B) : Upd B r (State.prov s) := by
  unfold State.prov
  repeat' first
    | exact within_trans (by decide) hB
    | with_reducible assumption
    | with_reducible apply upd_raiseEvt

theorem upd_provision (sess) (code) (d) (h : Upd B r s) (hB : within 268435474 B) : Upd B r (State.provision s sess code d) := by
  unfold State.provision
  repeat' first
    | exact within_trans (by decide) hB
    | with_reducible assumption
    | with_reducible apply Upd.sent
    | with_reducible apply upd_prov
    | with_reducible apply upd_onSec
    | split

theorem upd_rekeyUnit (nsid) (keys) (h : Upd B r s) (hB : within 2054198294 B) : Upd B r (State.rekeyUnit s nsid keys) := by
  unfold State.rekeyUnit
  repeat' first
    | exact within_trans (by decide) hB
    | with_reducible assumption
    | with_reducible refine UpdOP.get ?_ (by assumption)
    | with_reducible refine UpdOP.get2 ?_ (by assumption)
    | with_reducible apply upd_gcDest
    | with_reducible apply upd_readCopies
    | with_reducible apply upd_takeWsn
    | with_reducible apply upd_setCoarse
    | with_reducible apply upd_setFine
    | with_reducible apply upd_onSlot
    | with_reducible apply upd_openGroup
    | with_reducible apply upd_onLnd
    | (extract_lets +onlyGivenNames x; refine upd_let (B := B) (r := r) (x := x) ?_ (fun hx => ?_); rotate_left; clear_value x; revert x; intro _ _; rotate_left; unfold x; clear x)
    | (extract_lets +onlyGivenNames x; clear_value x; revert x; intro _)
    | with_reducible refine updO_map _ ?_
    | with_reducible refine updOP_map _ ?_
    | with_reducible refine updOPP_map _ ?_
    | with_reducible refine upd_foldl _ ?_ ?_
    | with_reducible intro _ _ _
    | split

theorem upd_rekeyPass (nsid) (h : Upd B r s) (hB : within 2054198294 B) : Upd B r (State.rekeyPass s nsid) := by
  unfold State.rekeyPass
  repeat' first
    | exact within_trans (by decide) hB
    | with_reducible assumption
    | with_reducible apply upd_rekeyDone
    | with_reducible apply upd_rekeyUnit
    | split

theorem upd_reseed (q) (h : Upd B r s) (hB : within 268435456 B) : Upd B r (State.reseed s q) := by
  unfold State.reseed
  repeat' first
    | exact within_trans (by decide) hB
    | with_reducible assumption
    | with_reducible apply upd_onCc
    | split

theorem upd_securityReceive (c) (h : Upd B r s) (hB : within 269680658 B) : Upd B r (State.securityReceive s c) := by
  unfold State.securityReceive
  repeat' first
    | exact within_trans (by decide) hB
    | with_reducible assumption
    | with_reducible apply upd_complete
    | with_reducible apply upd_onSec
    | (extract_lets +onlyGivenNames x; revert x; intro _)
    | split

theorem upd_setConn (path) (v) (h : Upd B r s) (hB : within 268435456 B) : Upd B r (State.setConn s path v) := by
  unfold State.setConn
  repeat' first
    | exact within_trans (by decide) hB
    | with_reducible assumption
    | with_reducible apply upd_onSec

theorem upd_spdmReq (path) (code) (sess) (a) (b) (d) (h : Upd B r s) (hB : within 268435456 B) : UpdP B r (State.spdmReq s path code sess a b d) := by
  unfold State.spdmReq
  repeat' first
    | exact within_trans (by decide) hB
    | with_reducible assumption
    | with_reducible refine updP_mk _ ?_
    | with_reducible apply upd_setConn
    | with_reducible apply upd_onSess
    | with_reducible apply upd_onSec
    | split

theorem upd_securitySend (c) (h : Upd B r s) (hB : within 269680658 B) : Upd B r (State.securitySend s c) := by
  unfold State.securitySend
  repeat' first
    | exact within_trans (by decide) hB
    | with_reducible assumption
    | with_reducible apply upd_complete
    | with_reducible refine UpdP.snd (upd_spdmReq (h := ?_) (hB := ?_) ..)
    | with_reducible apply upd_onSec
    | (extract_lets +onlyGivenNames x; refine upd_letP (B := B) (r := r) (x := x) ?_ (fun hx => ?_); rotate_left; clear_value x; revert x; intro _ _; rotate_left; unfold x; clear x)
    | with_reducible exact UpdP.snd (by assumption)
    | (extract_lets +onlyGivenNames x; clear_value x; revert x; intro _)
    | with_reducible refine updP_mk _ ?_
    | split

theorem upd_spdmMctp (code) (sess) (a) (b) (d) (h : Upd B r s) (hB : within 268435458 B) : Upd B r (State.spdmMctp s code sess a b d) := by
  unfold State.spdmMctp
  repeat' first
    | exact within_trans (by decide) hB
    | with_reducible assumption
    | with_reducible apply Upd.sent
    | with_reducible refine UpdP.snd (upd_spdmReq (h := ?_) (hB := ?_) ..)
    | with_reducible exact UpdP.snd (by assumption)
    | split

theorem upd_execSecuritySend (fsn) (h : Upd B r s) (hB : within 269680658 B) : UpdOut B r (execSecuritySend fsn s) := by
  unfold execSecuritySend
  repeat' first
    | exact within_trans (by decide) hB
    | with_reducible assumption
    | with_reducible apply upd_adminRow
    | with_reducible apply upd_securitySend
    | with_reducible intro _ _ _

theorem upd_execSecurityReceive (fsn) (h : Upd B r s) (hB : within 269680658 B) : UpdOut B r (execSecurityReceive fsn s) := by
  unfold execSecurityReceive
  repeat' first
    | exact within_trans (by decide) hB
    | with_reducible assumption
    | with_reducible apply upd_adminRow
    | with_reducible apply upd_securityReceive
    | with_reducible intro _ _ _

theorem upd_execKeyBlobInstall (fsn) (h : Upd B r s) (hB : within 269680658 B) : UpdOut B r (execKeyBlobInstall fsn s) := by
  unfold execKeyBlobInstall
  repeat' first
    | exact within_trans (by decide) hB
    | with_reducible assumption
    | with_reducible apply upd_adminRow
    | with_reducible apply upd_blobImport
    | with_reducible intro _ _ _
    | split

theorem upd_execKeyRotation (fsn) (h : Upd B r s) (hB : within 269680658 B) : UpdOut B r (execKeyRotation fsn s) := by
  unfold execKeyRotation
  repeat' first
    | exact within_trans (by decide) hB
    | with_reducible assumption
    | with_reducible apply upd_adminRow
    | with_reducible apply upd_blobImport
    | with_reducible intro _ _ _
    | split

theorem upd_execKeySlotZeroise (fsn) (h : Upd B r s) (hB : within 269680658 B) : UpdOut B r (execKeySlotZeroise fsn s) := by
  unfold execKeySlotZeroise
  repeat' first
    | exact within_trans (by decide) hB
    | with_reducible assumption
    | with_reducible apply upd_adminRow
    | with_reducible apply upd_blobZero
    | with_reducible intro _ _ _
    | split

theorem upd_execGetVersion (h : Upd B r s) (hB : within 268435458 B) : UpdOut B r (execGetVersion s) := by
  unfold execGetVersion
  repeat' first
    | exact within_trans (by decide) hB
    | with_reducible assumption
    | with_reducible refine updOut_next ?_
    | with_reducible apply upd_spdmMctp

theorem upd_execGetCapabilities (h : Upd B r s) (hB : within 268435458 B) : UpdOut B r (execGetCapabilities s) := by
  unfold execGetCapabilities
  repeat' first
    | exact within_trans (by decide) hB
    | with_reducible assumption
    | with_reducible refine updOut_next ?_
    | with_reducible apply upd_spdmMctp

theorem upd_execNegotiateAlgorithms (h : Upd B r s) (hB : within 268435458 B) : UpdOut B r (execNegotiateAlgorithms s) := by
  unfold execNegotiateAlgorithms
  repeat' first
    | exact within_trans (by decide) hB
    | with_reducible assumption
    | with_reducible refine updOut_next ?_
    | with_reducible apply upd_spdmMctp

theorem upd_execGetDigests (h : Upd B r s) (hB : within 268435458 B) : UpdOut B r (execGetDigests s) := by
  unfold execGetDigests
  repeat' first
    | exact within_trans (by decide) hB
    | with_reducible assumption
    | with_reducible refine updOut_next ?_
    | with_reducible apply upd_spdmMctp

theorem upd_execGetCertificate (off) (len) (h : Upd B r s) (hB : within 268435458 B) : UpdOut B r (execGetCertificate off len s) := by
  unfold execGetCertificate
  repeat' first
    | exact within_trans (by decide) hB
    | with_reducible assumption
    | with_reducible refine updOut_next ?_
    | with_reducible apply upd_spdmMctp

theorem upd_execChallenge (nonce) (h : Upd B r s) (hB : within 268435458 B) : UpdOut B r (execChallenge nonce s) := by
  unfold execChallenge
  repeat' first
    | exact within_trans (by decide) hB
    | with_reducible assumption
    | with_reducible refine updOut_next ?_
    | with_reducible apply upd_spdmMctp

theorem upd_execGetMeasurements (nonce) (h : Upd B r s) (hB : within 268435458 B) : UpdOut B r (execGetMeasurements nonce s) := by
  unfold execGetMeasurements
  repeat' first
    | exact within_trans (by decide) hB
    | with_reducible assumption
    | with_reducible refine updOut_next ?_
    | with_reducible apply upd_spdmMctp

theorem upd_execKeyExchange (data) (h : Upd B r s) (hB : within 268435458 B) : UpdOut B r (execKeyExchange data s) := by
  unfold execKeyExchange
  repeat' first
    | exact within_trans (by decide) hB
    | with_reducible assumption
    | with_reducible refine updOut_next ?_
    | with_reducible apply upd_spdmMctp

theorem upd_execFinish (sess) (auth) (h : Upd B r s) (hB : within 268435458 B) : UpdOut B r (execFinish sess auth s) := by
  unfold execFinish
  repeat' first
    | exact within_trans (by decide) hB
    | with_reducible assumption
    | with_reducible refine updOut_next ?_
    | with_reducible apply upd_spdmMctp

theorem upd_execEndSession (sess) (h : Upd B r s) (hB : within 268435458 B) : UpdOut B r (execEndSession sess s) := by
  unfold execEndSession
  repeat' first
    | exact within_trans (by decide) hB
    | with_reducible assumption
    | with_reducible refine updOut_next ?_
    | with_reducible apply upd_spdmMctp

theorem upd_execHeartbeat (sess) (h : Upd B r s) (hB : within 268435458 B) : UpdOut B r (execHeartbeat sess s) := by
  unfold execHeartbeat
  repeat' first
    | exact within_trans (by decide) hB
    | with_reducible assumption
    | with_reducible refine updOut_next ?_
    | with_reducible apply upd_spdmMctp

theorem upd_execKeyUpdate (sess) (h : Upd B r s) (hB : within 268435458 B) : UpdOut B r (execKeyUpdate sess s) := by
  unfold execKeyUpdate
  repeat' first
    | exact within_trans (by decide) hB
    | with_reducible assumption
    | with_reducible refine updOut_next ?_
    | with_reducible apply upd_spdmMctp

theorem upd_execSetKik (sess) (key) (h : Upd B r s) (hB : within 268435474 B) : UpdOut B r (execSetKik sess key s) := by
  unfold execSetKik
  repeat' first
    | exact within_trans (by decide) hB
    | with_reducible assumption
    | with_reducible refine updOut_next ?_
    | with_reducible apply upd_provision

theorem upd_execClearKik (sess) (h : Upd B r s) (hB : within 268435474 B) : UpdOut B r (execClearKik sess s) := by
  unfold execClearKik
  repeat' first
    | exact within_trans (by decide) hB
    | with_reducible assumption
    | with_reducible refine updOut_next ?_
    | with_reducible apply upd_provision

theorem upd_execSetOpkh (sess) (hash) (h : Upd B r s) (hB : within 268435474 B) : UpdOut B r (execSetOpkh sess hash s) := by
  unfold execSetOpkh
  repeat' first
    | exact within_trans (by decide) hB
    | with_reducible assumption
    | with_reducible refine updOut_next ?_
    | with_reducible apply upd_provision

theorem upd_execGetState (sess) (h : Upd B r s) (hB : within 268435474 B) : UpdOut B r (execGetState sess s) := by
  unfold execGetState
  repeat' first
    | exact within_trans (by decide) hB
    | with_reducible assumption
    | with_reducible refine updOut_next ?_
    | with_reducible apply upd_provision

theorem upd_execCipherJob (cc) (done) (job) (blk) (stall) (h : Upd B r s) (hB : within 268468240 B) : UpdOut B r (execCipherJob cc done job blk stall s) := by
  unfold execCipherJob
  repeat' first
    | exact within_trans (by decide) hB
    | with_reducible assumption
    | with_reducible refine updOut_next ?_
    | exact updOut_fault _
    | with_reducible apply upd_cipherJob
    | split

theorem upd_execKnownAnswerTest (cc) (pipe) (pass) (h : Upd B r s) (hB : within 303240466 B) : UpdOut B r (execKnownAnswerTest cc pipe pass s) := by
  unfold execKnownAnswerTest
  repeat' first
    | exact within_trans (by decide) hB
    | with_reducible assumption
    | with_reducible refine updOut_next ?_
    | exact updOut_fault _
    | with_reducible apply upd_kat
    | split

theorem upd_execDrbgReseed (cc) (h : Upd B r s) (hB : within 268435456 B) : UpdOut B r (execDrbgReseed cc s) := by
  unfold execDrbgReseed
  repeat' first
    | exact within_trans (by decide) hB
    | with_reducible assumption
    | with_reducible refine updOut_next ?_
    | exact updOut_fault _
    | with_reducible apply upd_reseed
    | split

theorem upd_execEntropyBlock (cc) (pass) (h : Upd B r s) (hB : within 268440602 B) : UpdOut B r (execEntropyBlock cc pass s) := by
  unfold execEntropyBlock
  repeat' first
    | exact within_trans (by decide) hB
    | with_reducible assumption
    | with_reducible refine updOut_next ?_
    | exact updOut_fault _
    | with_reducible apply upd_entropy
    | split

theorem upd_execRekeyPass (nsid) (h : Upd B r s) (hB : within 2054198294 B) : UpdOut B r (execRekeyPass nsid s) := by
  unfold execRekeyPass
  repeat' first
    | exact within_trans (by decide) hB
    | with_reducible assumption
    | with_reducible refine updOut_next ?_
    | with_reducible apply upd_rekeyPass

theorem upd_execAlarm (src) (h : Upd B r s) (hB : within 268440586 B) : UpdOut B r (execAlarm src s) := by
  unfold execAlarm
  repeat' first
    | exact within_trans (by decide) hB
    | with_reducible assumption
    | with_reducible refine updOut_next ?_
    | with_reducible apply upd_alarm

theorem upd_execForce (acc) (val) (h : Upd B r s) (hB : within 268440602 B) : UpdOut B r (execForce acc val s) := by
  unfold execForce
  repeat' first
    | exact within_trans (by decide) hB
    | with_reducible assumption
    | with_reducible refine updOut_next ?_
    | with_reducible apply upd_alarmForce

theorem upd_execRaise (val) (h : Upd B r s) (hB : within 268435472 B) : UpdOut B r (execRaise val s) := by
  unfold execRaise
  repeat' first
    | exact within_trans (by decide) hB
    | with_reducible assumption
    | with_reducible refine updOut_next ?_
    | with_reducible apply upd_svnCtl

theorem upd_execRevoke (acc) (val) (h : Upd B r s) (hB : within 268435472 B) : UpdOut B r (execRevoke acc val s) := by
  unfold execRevoke
  repeat' first
    | exact within_trans (by decide) hB
    | with_reducible assumption
    | with_reducible refine updOut_next ?_
    | with_reducible apply upd_revoke

end Sys2Proof.Machine
end

