-- ==== Sys2Proof/Laws/UpdPrograms.lean ====
section
/-! SUPPORT. What the functions of Machine/Programs.lean can change (Laws/Upd.lean). -/
namespace Sys2Proof.Machine
variable {B : Nat} {r s : State}

theorem upd_applyWeights (ws) (h : Upd B r s) (hB : within 32768 B) : Upd B r (State.applyWeights s ws) := by
  unfold State.applyWeights
  repeat' first
    | exact within_trans (by decide) hB
    | with_reducible assumption
    | with_reducible apply upd_onSched

theorem upd_enterStep (c) (inp) (att) (last) (h : Upd B r s) (hB : within 33554432 B) : Upd B r (State.enterStep s c inp att last) := by
  unfold State.enterStep
  repeat' first
    | exact within_trans (by decide) hB
    | with_reducible assumption
    | with_reducible apply upd_onScan
    | with_reducible apply upd_onEng

theorem upd_replaceEffect (h : Upd B r s) (hB : within 33554432 B) : Upd B r (State.replaceEffect s) := by
  unfold State.replaceEffect
  repeat' first
    | exact within_trans (by decide) hB
    | with_reducible assumption
    | with_reducible apply upd_onPrg
    | with_reducible refine updO_map _ ?_
    | with_reducible refine updOP_map _ ?_
    | with_reducible refine updOPP_map _ ?_

theorem upd_hookMiss (y_h) (q) (h : Upd B r s) (hB : within 5138 B) : Upd B r (State.hookMiss s y_h q) := by
  unfold State.hookMiss
  repeat' first
    | exact within_trans (by decide) hB
    | with_reducible assumption
    | with_reducible apply upd_replacedChoice
    | with_reducible apply upd_raiseEvt
    | split

theorem upd_inventory (c) (h : Upd B r s) (hB : within 1245202 B) : Upd B r (State.inventory s c) := by
  unfold State.inventory
  repeat' first
    | exact within_trans (by decide) hB
    | with_reducible assumption
    | with_reducible apply upd_complete
    | (extract_lets +onlyGivenNames x; clear_value x; revert x; intro _)
    | split

theorem upd_loadBytes (fe) (off) (d) (h : Upd B r s) (hB : within 536870928 B) : Upd B r (State.loadBytes s fe off d) := by
  unfold State.loadBytes
  repeat' first
    | exact within_trans (by decide) hB
    | with_reducible assumption
    | with_reducible apply upd_memFill

theorem upd_raiseOsvn (p) (h : Upd B r s) (hB : within 33554432 B) : Upd B r (State.raiseOsvn s p) := by
  unfold State.raiseOsvn
  repeat' first
    | exact within_trans (by decide) hB
    | with_reducible assumption
    | with_reducible apply upd_onPrg
    | split

theorem upd_progBind (c) (h : Upd B r s) (hB : within 34799634 B) : Upd B r (State.progBind s c) := by
  unfold State.progBind
  repeat' first
    | exact within_trans (by decide) hB
    | with_reducible assumption
    | with_reducible apply upd_complete
    | with_reducible apply upd_raiseOsvn
    | with_reducible apply upd_onPrg
    | split

theorem upd_rejectProg (fsn) (e) (h : Upd B r s) (hB : within 34799634 B) : Upd B r (State.rejectProg s fsn e) := by
  unfold State.rejectProg
  repeat' first
    | exact within_trans (by decide) hB
    | with_reducible assumption
    | with_reducible apply upd_complete
    | with_reducible apply upd_raiseEvt
    | with_reducible apply upd_onPrg

theorem upd_progLoad (c) (h : Upd B r s) (hB : within 34800658 B) : Upd B r (State.progLoad s c) := by
  unfold State.progLoad
  repeat' first
    | exact within_trans (by decide) hB
    | with_reducible assumption
    | with_reducible apply upd_complete
    | with_reducible apply upd_rejectProg
    | with_reducible apply upd_takeStamp
    | with_reducible apply upd_onPrg
    | (extract_lets +onlyGivenNames x; clear_value x; revert x; intro _)
    | split

theorem upd_zeroPages (off) (pages) (h : Upd B r s) (hB : within 536870928 B) : Upd B r (State.zeroPages s off pages) := by
  unfold State.zeroPages
  repeat' first
    | exact within_trans (by decide) hB
    | with_reducible assumption
    | with_reducible apply upd_storeWord
    | with_reducible refine upd_foldl _ ?_ ?_
    | with_reducible intro _ _ _

theorem upd_progReplace (c) (h : Upd B r s) (hB : within 571671570 B) : Upd B r (State.progReplace s c) := by
  unfold State.progReplace
  repeat' first
    | exact within_trans (by decide) hB
    | with_reducible assumption
    | with_reducible apply upd_complete
    | with_reducible apply upd_rejectProg
    | with_reducible apply upd_zeroPages
    | with_reducible apply upd_takeStamp
    | with_reducible apply upd_raiseOsvn
    | with_reducible apply upd_onPrg
    | (extract_lets +onlyGivenNames x; clear_value x; revert x; intro _)
    | split

theorem upd_progUnbind (c) (h : Upd B r s) (hB : within 34799634 B) : Upd B r (State.progUnbind s c) := by
  unfold State.progUnbind
  repeat' first
    | exact within_trans (by decide) hB
    | with_reducible assumption
    | with_reducible apply upd_complete
    | with_reducible apply upd_onPrg
    | (extract_lets +onlyGivenNames x; clear_value x; revert x; intro _)
    | split

theorem upd_progUnload (c) (h : Upd B r s) (hB : within 34799634 B) : Upd B r (State.progUnload s c) := by
  unfold State.progUnload
  repeat' first
    | exact within_trans (by decide) hB
    | with_reducible assumption
    | with_reducible apply upd_complete
    | with_reducible apply upd_failScan
    | with_reducible apply upd_reap
    | with_reducible apply upd_onPrg
    | (extract_lets +onlyGivenNames x; refine upd_let (B := B) (r := r) (x := x) ?_ (fun hx => ?_); rotate_left; clear_value x; revert x; intro _ _; rotate_left; unfold x; clear x)
    | (extract_lets +onlyGivenNames x; clear_value x; revert x; intro _)
    | with_reducible refine updO_map _ ?_
    | with_reducible refine updOP_map _ ?_
    | with_reducible refine updOPP_map _ ?_
    | with_reducible refine upd_foldl _ ?_ ?_
    | with_reducible intro _ _ _
    | split

theorem upd_qosHook (res) (h : Upd B r s) (hB : within 33592342 B) : Upd B r (State.qosHook s res) := by
  unfold State.qosHook
  repeat' first
    | exact within_trans (by decide) hB
    | with_reducible assumption
    | with_reducible apply upd_hookRan
    | with_reducible apply upd_applyWeights
    | with_reducible apply upd_hookTrap
    | with_reducible apply upd_onPrg
    | (extract_lets +onlyGivenNames x; refine upd_let (B := B) (r := r) (x := x) ?_ (fun hx => ?_); rotate_left; clear_value x; revert x; intro _ _; rotate_left; unfold x; clear x)
    | split

theorem upd_scanCancel (fsn) (h : Upd B r s) (hB : within 34799634 B) : Upd B r (State.scanCancel s fsn) := by
  unfold State.scanCancel
  repeat' first
    | exact within_trans (by decide) hB
    | with_reducible assumption
    | with_reducible apply upd_complete
    | with_reducible apply upd_onCmd
    | with_reducible apply upd_onScan
    | with_reducible apply upd_endScan
    | split

theorem upd_zeroRegion (fe) (y_r) (h : Upd B r s) (hB : within 536870928 B) : Upd B r (State.zeroRegion s fe y_r) := by
  unfold State.zeroRegion
  repeat' first
    | exact within_trans (by decide) hB
    | with_reducible assumption
    | with_reducible apply upd_storeWord
    | with_reducible refine upd_foldl _ ?_ ?_
    | with_reducible intro _ _ _

theorem upd_scanResident (fsn) (h : Upd B r s) (hB : within 570425360 B) : Upd B r (State.scanResident s fsn) := by
  unfold State.scanResident
  repeat' first
    | exact within_trans (by decide) hB
    | with_reducible assumption
    | with_reducible apply upd_zeroPages
    | with_reducible apply upd_zeroRegion
    | with_reducible apply upd_loadBytes
    | with_reducible apply upd_onScan
    | (extract_lets +onlyGivenNames x; refine upd_let (B := B) (r := r) (x := x) ?_ (fun hx => ?_); rotate_left; clear_value x; revert x; intro _ _; rotate_left; unfold x; clear x)
    | (extract_lets +onlyGivenNames x; clear_value x; revert x; intro _)
    | split

theorem upd_scanRow (fsn) (h : Upd B r s) (hB : within 34799634 B) : Upd B r (State.scanRow s fsn) := by
  unfold State.scanRow
  repeat' first
    | exact within_trans (by decide) hB
    | with_reducible assumption
    | with_reducible apply upd_complete
    | with_reducible apply upd_onCmd
    | with_reducible apply upd_onPrg
    | (extract_lets +onlyGivenNames x; clear_value x; revert x; intro _)
    | with_reducible refine updO_map _ ?_
    | with_reducible refine updOP_map _ ?_
    | with_reducible refine updOPP_map _ ?_
    | split

theorem upd_scanStep (fsn) (lost) (crc) (h : Upd B r s) (hB : within 1649644562 B) : Upd B r (State.scanStep s fsn lost crc) := by
  unfold State.scanStep
  repeat' first
    | exact within_trans (by decide) hB
    | with_reducible assumption
    | with_reducible refine UpdP.get ?_ (by assumption)
    | with_reducible apply upd_endScan
    | with_reducible apply upd_failScan
    | with_reducible apply upd_walkAll
    | with_reducible apply upd_lookAt
    | with_reducible apply upd_readRange
    | with_reducible refine UpdP.snd (upd_readRange (h := ?_) (hB := ?_) ..)
    | with_reducible apply upd_onScan
    | with_reducible apply upd_enterStep
    | with_reducible exact UpdP.snd (by assumption)
    | (extract_lets +onlyGivenNames x; refine upd_let (B := B) (r := r) (x := x) ?_ (fun hx => ?_); rotate_left; clear_value x; revert x; intro _ _; rotate_left; unfold x; clear x)
    | (extract_lets +onlyGivenNames x; clear_value x; revert x; intro _)
    | with_reducible refine updO_map _ ?_
    | with_reducible refine updOP_map _ ?_
    | with_reducible refine updOPP_map _ ?_
    | with_reducible intro _ _ _ _
    | with_reducible intro _ _ _
    | with_reducible intro _ _
    | split

theorem upd_progRow (fsn) (opc) (f) (hf : ∀ e s, Upd B r s → Upd B r (f e s)) (h : Upd B r s) : UpdOut B r (progRow fsn opc f s) := by
  unfold progRow
  repeat' first
    | with_reducible assumption
    | with_reducible refine updOut_next ?_
    | exact updOut_fault _
    | with_reducible apply upd_adminRow
    | with_reducible apply hf
    | split

theorem upd_execProgramLoad (fsn) (h : Upd B r s) (hB : within 34800658 B) : UpdOut B r (execProgramLoad fsn s) := by
  unfold execProgramLoad
  repeat' first
    | exact within_trans (by decide) hB
    | with_reducible assumption
    | with_reducible apply upd_progRow
    | with_reducible apply upd_progLoad
    | with_reducible intro _ _ _

theorem upd_execProgramBind (fsn) (h : Upd B r s) (hB : within 34799634 B) : UpdOut B r (execProgramBind fsn s) := by
  unfold execProgramBind
  repeat' first
    | exact within_trans (by decide) hB
    | with_reducible assumption
    | with_reducible apply upd_progRow
    | with_reducible apply upd_progBind
    | with_reducible intro _ _ _
    | split

theorem upd_execProgramUnbind (fsn) (h : Upd B r s) (hB : within 34799634 B) : UpdOut B r (execProgramUnbind fsn s) := by
  unfold execProgramUnbind
  repeat' first
    | exact within_trans (by decide) hB
    | with_reducible assumption
    | with_reducible apply upd_progRow
    | with_reducible apply upd_progUnbind
    | with_reducible intro _ _ _
    | split

theorem upd_execProgramReplace (fsn) (h : Upd B r s) (hB : within 571671570 B) : UpdOut B r (execProgramReplace fsn s) := by
  unfold execProgramReplace
  repeat' first
    | exact within_trans (by decide) hB
    | with_reducible assumption
    | with_reducible apply upd_progRow
    | with_reducible apply upd_progReplace
    | with_reducible intro _ _ _

theorem upd_execProgramUnload (fsn) (h : Upd B r s) (hB : within 34799634 B) : UpdOut B r (execProgramUnload fsn s) := by
  unfold execProgramUnload
  repeat' first
    | exact within_trans (by decide) hB
    | with_reducible assumption
    | with_reducible apply upd_progRow
    | with_reducible apply upd_progUnload
    | with_reducible intro _ _ _

theorem upd_execProgramInventoryRead (fsn) (h : Upd B r s) (hB : within 1245202 B) : UpdOut B r (execProgramInventoryRead fsn s) := by
  unfold execProgramInventoryRead
  repeat' first
    | exact within_trans (by decide) hB
    | with_reducible assumption
    | with_reducible apply upd_adminRow
    | with_reducible apply upd_inventory
    | with_reducible intro _ _ _

theorem upd_execScan (fsn) (h : Upd B r s) (hB : within 34799634 B) : UpdOut B r (execScan fsn s) := by
  unfold execScan
  repeat' first
    | exact within_trans (by decide) hB
    | with_reducible assumption
    | with_reducible refine updOut_next ?_
    | with_reducible apply upd_scanRow

theorem upd_execScanCancel (fsn) (h : Upd B r s) (hB : within 34799634 B) : UpdOut B r (execScanCancel fsn s) := by
  unfold execScanCancel
  repeat' first
    | exact within_trans (by decide) hB
    | with_reducible assumption
    | with_reducible refine updOut_next ?_
    | with_reducible apply upd_scanCancel

theorem upd_execScanResident (fsn) (h : Upd B r s) (hB : within 570425360 B) : UpdOut B r (execScanResident fsn s) := by
  unfold execScanResident
  repeat' first
    | exact within_trans (by decide) hB
    | with_reducible assumption
    | with_reducible refine updOut_next ?_
    | with_reducible apply upd_scanResident

theorem upd_execScanStep (fsn) (lost) (crc) (h : Upd B r s) (hB : within 1649644562 B) : UpdOut B r (execScanStep fsn lost crc s) := by
  unfold execScanStep
  repeat' first
    | exact within_trans (by decide) hB
    | with_reducible assumption
    | with_reducible refine updOut_next ?_
    | with_reducible apply upd_scanStep

theorem upd_execQosHook (res) (h : Upd B r s) (hB : within 33592342 B) : UpdOut B r (execQosHook res s) := by
  unfold execQosHook
  repeat' first
    | exact within_trans (by decide) hB
    | with_reducible assumption
    | with_reducible refine updOut_next ?_
    | with_reducible apply upd_qosHook

theorem upd_execHookDeadlineMiss (hook) (q) (h : Upd B r s) (hB : within 5138 B) : UpdOut B r (execHookDeadlineMiss hook q s) := by
  unfold execHookDeadlineMiss
  repeat' first
    | exact within_trans (by decide) hB
    | with_reducible assumption
    | with_reducible refine updOut_next ?_
    | with_reducible apply upd_hookMiss

end Sys2Proof.Machine
end

