-- ==== Sys2Proof/Laws/UpdDram.lean ====
section
/-! SUPPORT. What the functions of Machine/Dram.lean can change (Laws/Upd.lean). -/
namespace Sys2Proof.Machine
variable {B : Nat} {r s : State}

theorem upd_fspDone (h : Upd B r s) (hB : within 16 B) : Upd B r (State.fspDone s) := by
  unfold State.fspDone
  repeat' first
    | exact within_trans (by decide) hB
    | with_reducible assumption
    | with_reducible apply upd_raiseEvt

theorem upd_fspRequest (t) (h : Upd B r s) (hB : within 1073741840 B) : Upd B r (State.fspRequest s t) := by
  unfold State.fspRequest
  repeat' first
    | exact within_trans (by decide) hB
    | with_reducible assumption
    | with_reducible apply upd_fspDone
    | with_reducible apply upd_onDram
    | split

theorem upd_onSub (n) (f) (h : Upd B r s) (hB : within 1073741824 B) : Upd B r (State.onSub s n f) := by
  unfold State.onSub
  repeat' first
    | exact within_trans (by decide) hB
    | with_reducible assumption
    | with_reducible apply upd_onDram

theorem upd_evacStart (sub) (h : Upd B r s) (hB : within 1073741824 B) : Upd B r (State.evacStart s sub) := by
  unfold State.evacStart
  repeat' first
    | exact within_trans (by decide) hB
    | with_reducible assumption
    | with_reducible apply upd_onSub
    | with_reducible apply upd_onDram
    | (extract_lets +onlyGivenNames x; refine upd_let (B := B) (r := r) (x := x) ?_ (fun hx => ?_); rotate_left; clear_value x; revert x; intro _ _; rotate_left; unfold x; clear x)
    | (extract_lets +onlyGivenNames x; clear_value x; revert x; intro _)
    | split

theorem upd_evacRow (val) (h : Upd B r s) (hB : within 1073741840 B) : Upd B r (State.evacRow s val) := by
  unfold State.evacRow
  repeat' first
    | exact within_trans (by decide) hB
    | with_reducible assumption
    | with_reducible apply Upd.field
    | with_reducible apply upd_evacStart
    | with_reducible apply upd_onDram
    | split

theorem upd_ageReqs (ns) (h : Upd B r s) (hB : within 1073741840 B) : Upd B r (State.ageReqs s ns) := by
  unfold State.ageReqs
  repeat' first
    | exact within_trans (by decide) hB
    | with_reducible assumption
    | with_reducible apply upd_bump
    | with_reducible apply upd_onDram
    | with_reducible refine updO_map _ ?_
    | with_reducible refine updOP_map _ ?_
    | with_reducible refine updOPP_map _ ?_
    | with_reducible refine upd_foldl _ ?_ ?_
    | with_reducible intro _ _ _
    | split

theorem upd_dramSleep (h : Upd B r s) (hB : within 1073741824 B) : Upd B r (State.dramSleep s) := by
  unfold State.dramSleep
  repeat' first
    | exact within_trans (by decide) hB
    | with_reducible assumption
    | with_reducible apply upd_onSub
    | with_reducible refine upd_foldl _ ?_ ?_
    | with_reducible intro _ _ _

theorem upd_moveWords (src) (dst) (len) (h : Upd B r s) (hB : within 536870912 B) : Upd B r (State.moveWords s src dst len) := by
  unfold State.moveWords
  repeat' first
    | exact within_trans (by decide) hB
    | with_reducible assumption
    | with_reducible apply upd_onMemp
    | split

theorem upd_moveScratch (top) (fsn) (h : Upd B r s) (hB : within 570425344 B) : UpdO B r (State.moveScratch s top fsn) := by
  unfold State.moveScratch
  repeat' first
    | exact within_trans (by decide) hB
    | with_reducible assumption
    | with_reducible refine updO_some ?_
    | exact updO_none
    | with_reducible apply upd_moveWords
    | with_reducible apply upd_onPrg
    | (extract_lets +onlyGivenNames x; refine upd_let (B := B) (r := r) (x := x) ?_ (fun hx => ?_); rotate_left; clear_value x; revert x; intro _ _; rotate_left; unfold x; clear x)
    | (extract_lets +onlyGivenNames x; clear_value x; revert x; intro _)
    | with_reducible refine updO_map _ ?_
    | with_reducible refine updOP_map _ ?_
    | with_reducible refine updOPP_map _ ?_
    | split

theorem upd_clearTop (top) (h : Upd B r s) (hB : within 570425344 B) : UpdO B r (State.clearTop s top) := by
  unfold State.clearTop
  repeat' first
    | exact within_trans (by decide) hB
    | with_reducible assumption
    | with_reducible refine updO_some ?_
    | with_reducible refine UpdO.get ?_ (by assumption)
    | with_reducible apply upd_moveScratch
    | with_reducible refine updO_bind _ ?_
    | with_reducible intro _ _ _
    | with_reducible intro _ _
    | with_reducible refine updO_foldl _ ?_ ?_
    | with_reducible refine updO_bind _ ?_
    | with_reducible refine UpdO.get ?_ (by assumption)

theorem upd_portReturns (p) (h : Upd B r s) (hB : within 1073741824 B) : Upd B r (State.portReturns s p) := by
  unfold State.portReturns
  repeat' first
    | exact within_trans (by decide) hB
    | with_reducible assumption
    | with_reducible apply upd_onDram
    | (extract_lets +onlyGivenNames x; clear_value x; revert x; intro _)
    | split

theorem upd_dramEnter (port) (off) (lines) (tid) (h : Upd B r s) (hB : within 1073741824 B) : Upd B r (State.dramEnter s port off lines tid) := by
  unfold State.dramEnter
  repeat' first
    | exact within_trans (by decide) hB
    | with_reducible assumption
    | with_reducible apply upd_portReturns
    | with_reducible apply upd_onSub
    | with_reducible apply upd_onDram
    | split

theorem upd_repay (n) (h : Upd B r s) (hB : within 1073741824 B) : Upd B r (State.repay s n) := by
  unfold State.repay
  repeat' first
    | exact within_trans (by decide) hB
    | with_reducible assumption
    | with_reducible apply upd_onSub
    | with_reducible intro _ _ _ _
    | with_reducible intro _ _ _
    | with_reducible intro _ _
    | split

theorem upd_dramSlot (n) (h : Upd B r s) (hB : within 1073741824 B) : Upd B r (State.dramSlot s n) := by
  unfold State.dramSlot
  repeat' first
    | exact within_trans (by decide) hB
    | with_reducible assumption
    | with_reducible apply upd_onDram
    | (extract_lets +onlyGivenNames x; clear_value x; revert x; intro _)
    | with_reducible refine updO_map _ ?_
    | with_reducible refine updOP_map _ ?_
    | with_reducible refine updOPP_map _ ?_
    | split

theorem upd_dramRequest (ns) (req) (slot) (h : Upd B r s) (hB : within 1073741840 B) : Upd B r (State.dramRequest s ns req slot) := by
  unfold State.dramRequest
  repeat' first
    | exact within_trans (by decide) hB
    | with_reducible assumption
    | with_reducible apply upd_ageReqs
    | with_reducible apply upd_dramEnter
    | with_reducible apply upd_repay
    | with_reducible apply upd_dramSlot
    | split

theorem upd_evacTick (h : Upd B r s) (hB : within 1073741824 B) : Upd B r (State.evacTick s) := by
  unfold State.evacTick
  repeat' first
    | exact within_trans (by decide) hB
    | with_reducible assumption
    | with_reducible apply upd_onDram
    | split

theorem upd_dramTick (h : Upd B r s) (hB : within 1073741824 B) : Upd B r (State.dramTick s) := by
  unfold State.dramTick
  repeat' first
    | exact within_trans (by decide) hB
    | with_reducible assumption
    | with_reducible apply upd_evacTick
    | with_reducible apply upd_onDram

theorem upd_useFsp (t) (h : Upd B r s) (hB : within 1073741824 B) : Upd B r (State.useFsp s t) := by
  unfold State.useFsp
  repeat' first
    | exact within_trans (by decide) hB
    | with_reducible assumption
    | with_reducible apply upd_onSub
    | with_reducible apply upd_onDram
    | with_reducible refine upd_foldl _ ?_ ?_
    | with_reducible intro _ _ _

theorem upd_dramWake (h : Upd B r s) (hB : within 1073741824 B) : Upd B r (State.dramWake s) := by
  unfold State.dramWake
  repeat' first
    | exact within_trans (by decide) hB
    | with_reducible assumption
    | with_reducible apply upd_onSub
    | with_reducible apply upd_useFsp
    | (extract_lets +onlyGivenNames x; refine upd_let (B := B) (r := r) (x := x) ?_ (fun hx => ?_); rotate_left; clear_value x; revert x; intro _ _; rotate_left; unfold x; clear x)
    | with_reducible refine upd_foldl _ ?_ ?_
    | with_reducible intro _ _ _
    | split

theorem upd_evacDone (h : Upd B r s) (hB : within 1073742608 B) : Upd B r (State.evacDone s) := by
  unfold State.evacDone
  repeat' first
    | exact within_trans (by decide) hB
    | with_reducible assumption
    | with_reducible apply upd_onUnit
    | with_reducible apply upd_onSub
    | with_reducible apply upd_raiseEvt
    | with_reducible apply upd_onDram
    | with_reducible apply upd_onRetRec
    | split

theorem upd_evacFirst (h : Upd B r s) (hB : within 1644167168 B) : Upd B r (State.evacFirst s) := by
  unfold State.evacFirst
  repeat' first
    | exact within_trans (by decide) hB
    | with_reducible assumption
    | with_reducible refine UpdO.get ?_ (by assumption)
    | with_reducible apply upd_clearTop
    | with_reducible apply upd_onSub
    | with_reducible apply upd_onDram
    | split

theorem upd_fspChange (h : Upd B r s) (hB : within 1073741840 B) : Upd B r (State.fspChange s) := by
  unfold State.fspChange
  repeat' first
    | exact within_trans (by decide) hB
    | with_reducible assumption
    | with_reducible apply upd_fspDone
    | with_reducible apply upd_useFsp
    | split

theorem upd_ppr (ok) (h : Upd B r s) (hB : within 1610617874 B) : Upd B r (State.ppr s ok) := by
  unfold State.ppr
  repeat' first
    | exact within_trans (by decide) hB
    | with_reducible assumption
    | with_reducible apply upd_storeWord
    | with_reducible apply upd_raiseEvt
    | with_reducible apply upd_onSub
    | with_reducible apply upd_raiseFault
    | with_reducible apply upd_onDram
    | with_reducible apply upd_onMemp
    | (extract_lets +onlyGivenNames x; refine upd_let (B := B) (r := r) (x := x) ?_ (fun hx => ?_); rotate_left; clear_value x; revert x; intro _ _; rotate_left; unfold x; clear x)
    | (extract_lets +onlyGivenNames x; clear_value x; revert x; intro _)
    | with_reducible refine upd_foldl _ ?_ ?_
    | with_reducible intro _ _ _ _
    | with_reducible intro _ _ _
    | with_reducible intro _ _
    | split

theorem upd_refreshDue (n) (rank) (h : Upd B r s) (hB : within 1073746962 B) : Upd B r (State.refreshDue s n rank) := by
  unfold State.refreshDue
  repeat' first
    | exact within_trans (by decide) hB
    | with_reducible assumption
    | with_reducible apply upd_onSub
    | with_reducible apply upd_raiseFault
    | with_reducible apply upd_raiseEvt
    | split

theorem upd_selfRefresh (n) (h : Upd B r s) (hB : within 1073741824 B) : Upd B r (State.selfRefresh s n) := by
  unfold State.selfRefresh
  repeat' first
    | exact within_trans (by decide) hB
    | with_reducible assumption
    | with_reducible apply upd_onSub
    | (extract_lets +onlyGivenNames x; clear_value x; revert x; intro _)
    | split

theorem upd_tracking (n) (centres) (h : Upd B r s) (hB : within 1073746962 B) : Upd B r (State.tracking s n centres) := by
  unfold State.tracking
  repeat' first
    | exact within_trans (by decide) hB
    | with_reducible assumption
    | with_reducible apply upd_onSub
    | with_reducible apply upd_raiseFault
    | with_reducible apply upd_raiseEvt
    | (extract_lets +onlyGivenNames x; refine upd_let (B := B) (r := r) (x := x) ?_ (fun hx => ?_); rotate_left; clear_value x; revert x; intro _ _; rotate_left; unfold x; clear x)
    | (extract_lets +onlyGivenNames x; clear_value x; revert x; intro _)
    | with_reducible refine upd_foldl _ ?_ ?_
    | with_reducible intro _ _ _
    | split

theorem upd_execDramRequest (ns) (req) (slot) (h : Upd B r s) (hB : within 1073741840 B) : UpdOut B r (execDramRequest ns req slot s) := by
  unfold execDramRequest
  repeat' first
    | exact within_trans (by decide) hB
    | with_reducible assumption
    | with_reducible refine updOut_next ?_
    | with_reducible apply upd_dramRequest

theorem upd_execDramRefresh (sub) (rank) (h : Upd B r s) (hB : within 1073746962 B) : UpdOut B r (execDramRefresh sub rank s) := by
  unfold execDramRefresh
  repeat' first
    | exact within_trans (by decide) hB
    | with_reducible assumption
    | with_reducible refine updOut_next ?_
    | exact updOut_fault _
    | with_reducible apply upd_refreshDue
    | split

theorem upd_execSelfRefreshEntry (sub) (h : Upd B r s) (hB : within 1073741824 B) : UpdOut B r (execSelfRefreshEntry sub s) := by
  unfold execSelfRefreshEntry
  repeat' first
    | exact within_trans (by decide) hB
    | with_reducible assumption
    | with_reducible refine updOut_next ?_
    | exact updOut_fault _
    | with_reducible apply upd_selfRefresh
    | split

theorem upd_execSetPointRequest (val) (h : Upd B r s) (hB : within 1073741840 B) : UpdOut B r (execSetPointRequest val s) := by
  unfold execSetPointRequest
  repeat' first
    | exact within_trans (by decide) hB
    | with_reducible assumption
    | with_reducible refine updOut_next ?_
    | with_reducible apply upd_fspRequest

theorem upd_execSetPointChange (h : Upd B r s) (hB : within 1073741840 B) : UpdOut B r (execSetPointChange s) := by
  unfold execSetPointChange
  repeat' first
    | exact within_trans (by decide) hB
    | with_reducible assumption
    | with_reducible refine updOut_next ?_
    | with_reducible apply upd_fspChange

theorem upd_execDramTracking (sub) (centres) (h : Upd B r s) (hB : within 1073746962 B) : UpdOut B r (execDramTracking sub centres s) := by
  unfold execDramTracking
  repeat' first
    | exact within_trans (by decide) hB
    | with_reducible assumption
    | with_reducible refine updOut_next ?_
    | exact updOut_fault _
    | with_reducible apply upd_tracking
    | split

theorem upd_execPostPackageRepair (ok) (h : Upd B r s) (hB : within 1610617874 B) : UpdOut B r (execPostPackageRepair ok s) := by
  unfold execPostPackageRepair
  repeat' first
    | exact within_trans (by decide) hB
    | with_reducible assumption
    | with_reducible refine updOut_next ?_
    | with_reducible apply upd_ppr

theorem upd_execEvacuationStart (val) (h : Upd B r s) (hB : within 1073741840 B) : UpdOut B r (execEvacuationStart val s) := by
  unfold execEvacuationStart
  repeat' first
    | exact within_trans (by decide) hB
    | with_reducible assumption
    | with_reducible refine updOut_next ?_
    | with_reducible apply upd_evacRow

theorem upd_execEvacDone (h : Upd B r s) (hB : within 1073742608 B) : UpdOut B r (execEvacDone s) := by
  unfold execEvacDone
  repeat' first
    | exact within_trans (by decide) hB
    | with_reducible assumption
    | with_reducible refine updOut_next ?_
    | with_reducible apply upd_evacDone

theorem upd_execMr4Read (sub) (hot) (h : Upd B r s) (hB : within 1073741824 B) : UpdOut B r (execMr4Read sub hot s) := by
  unfold execMr4Read
  repeat' first
    | exact within_trans (by decide) hB
    | with_reducible assumption
    | with_reducible refine updOut_next ?_
    | exact updOut_fault _
    | with_reducible apply upd_onSub
    | split

theorem upd_execEvacuationFirstPhaseEnd (h : Upd B r s) (hB : within 1644167168 B) : UpdOut B r (execEvacuationFirstPhaseEnd s) := by
  unfold execEvacuationFirstPhaseEnd
  repeat' first
    | exact within_trans (by decide) hB
    | with_reducible assumption
    | with_reducible refine updOut_next ?_
    | with_reducible apply upd_evacFirst

end Sys2Proof.Machine
end

