-- ==== Sys2Proof/Laws/UpdGovernor.lean ====
section
/-! SUPPORT. What the functions of Machine/Governor.lean can change (Laws/Upd.lean). -/
namespace Sys2Proof.Machine
variable {B : Nat} {r s : State}

theorem upd_govDefault (h : Upd B r s) (hB : within 67108864 B) : Upd B r (State.govDefault s) := by
  unfold State.govDefault
  repeat' first
    | exact within_trans (by decide) hB
    | with_reducible assumption
    | with_reducible apply upd_onGov
    | split

theorem upd_govSave (h : Upd B r s) (hB : within 67108864 B) : Upd B r (State.govSave s) := by
  unfold State.govSave
  repeat' first
    | exact within_trans (by decide) hB
    | with_reducible assumption
    | with_reducible apply upd_onGov
    | split

theorem upd_govSwap (h : Upd B r s) (hB : within 67108864 B) : Upd B r (State.govSwap s) := by
  unfold State.govSwap
  repeat' first
    | exact within_trans (by decide) hB
    | with_reducible assumption
    | with_reducible apply upd_onGov
    | split

theorem upd_govCtl (v) (h : Upd B r s) (hB : within 67108880 B) : Upd B r (State.govCtl s v) := by
  unfold State.govCtl
  repeat' first
    | exact within_trans (by decide) hB
    | with_reducible assumption
    | with_reducible apply Upd.field
    | with_reducible apply upd_govDefault
    | with_reducible apply upd_govSave
    | with_reducible apply upd_govSwap
    | split

theorem upd_govMdata (acc) (v) (h : Upd B r s) (hB : within 67108864 B) : Upd B r (State.govMdata s acc v) := by
  unfold State.govMdata
  repeat' first
    | exact within_trans (by decide) hB
    | with_reducible assumption
    | with_reducible apply upd_onGov
    | split

theorem upd_trcTrigger (h : Upd B r s) (hB : within 67108864 B) : Upd B r (State.trcTrigger s) := by
  unfold State.trcTrigger
  repeat' first
    | exact within_trans (by decide) hB
    | with_reducible assumption
    | with_reducible apply upd_onGov
    | split

theorem upd_trcEvent (t) (h : Upd B r s) (hB : within 67108864 B) : Upd B r (State.trcEvent s t) := by
  unfold State.trcEvent
  repeat' first
    | exact within_trans (by decide) hB
    | with_reducible assumption
    | with_reducible apply upd_trcTrigger
    | split

theorem upd_traceStart (h : Upd B r s) (hB : within 67108864 B) : Upd B r (State.traceStart s) := by
  unfold State.traceStart
  repeat' first
    | exact within_trans (by decide) hB
    | with_reducible assumption
    | with_reducible apply upd_trcEvent
    | with_reducible apply upd_onGov

theorem upd_injStep (h : Upd B r s) (hB : within 67108864 B) : Upd B r (State.injStep s) := by
  unfold State.injStep
  repeat' first
    | exact within_trans (by decide) hB
    | with_reducible assumption
    | with_reducible apply upd_onGov
    | (extract_lets +onlyGivenNames x; refine upd_let (B := B) (r := r) (x := x) ?_ (fun hx => ?_); rotate_left; clear_value x; revert x; intro _ _; rotate_left; unfold x; clear x)
    | (extract_lets +onlyGivenNames x; clear_value x; revert x; intro _)
    | with_reducible intro _ _ _ _
    | with_reducible intro _ _ _
    | with_reducible intro _ _
    | split

theorem upd_govCaps (h : Upd B r s) (hB : within 67114002 B) : Upd B r (State.govCaps s) := by
  unfold State.govCaps
  repeat' first
    | exact within_trans (by decide) hB
    | with_reducible assumption
    | with_reducible apply upd_raiseFault
    | with_reducible apply upd_raiseEvt
    | with_reducible apply upd_trcEvent
    | with_reducible apply upd_onGov
    | (extract_lets +onlyGivenNames x; refine upd_let (B := B) (r := r) (x := x) ?_ (fun hx => ?_); rotate_left; clear_value x; revert x; intro _ _; rotate_left; unfold x; clear x)
    | (extract_lets +onlyGivenNames x; clear_value x; revert x; intro _)
    | split

theorem upd_govDrain (h : Upd B r s) (hB : within 67108864 B) : Upd B r (State.govDrain s) := by
  unfold State.govDrain
  repeat' first
    | exact within_trans (by decide) hB
    | with_reducible assumption
    | with_reducible apply upd_trcEvent
    | with_reducible apply upd_onGov
    | split

theorem upd_govLaw (h : Upd B r s) (hB : within 67108864 B) : Upd B r (State.govLaw s) := by
  unfold State.govLaw
  repeat' first
    | exact within_trans (by decide) hB
    | with_reducible assumption
    | with_reducible apply upd_onGov

theorem upd_trcSample (h : Upd B r s) (hB : within 67108864 B) : Upd B r (State.trcSample s) := by
  unfold State.trcSample
  repeat' first
    | exact within_trans (by decide) hB
    | with_reducible assumption
    | with_reducible apply upd_onGov

theorem upd_trcTick (h : Upd B r s) (hB : within 67108864 B) : Upd B r (State.trcTick s) := by
  unfold State.trcTick
  repeat' first
    | exact within_trans (by decide) hB
    | with_reducible assumption
    | with_reducible apply upd_trcSample
    | with_reducible apply upd_onGov
    | split

theorem upd_govTick (i) (h : Upd B r s) (hB : within 67146770 B) : Upd B r (State.govTick s i) := by
  unfold State.govTick
  repeat' first
    | exact within_trans (by decide) hB
    | with_reducible assumption
    | with_reducible apply upd_injStep
    | with_reducible apply upd_govCaps
    | with_reducible apply upd_govDrain
    | with_reducible apply upd_govLaw
    | with_reducible apply upd_raiseFault
    | with_reducible apply upd_trcTick
    | with_reducible apply upd_onGov
    | with_reducible apply upd_onSched
    | (extract_lets +onlyGivenNames x; refine upd_let (B := B) (r := r) (x := x) ?_ (fun hx => ?_); rotate_left; clear_value x; revert x; intro _ _; rotate_left; unfold x; clear x)
    | split

theorem upd_govExit (h : Upd B r s) (hB : within 67108864 B) : Upd B r (State.govExit s) := by
  unfold State.govExit
  repeat' first
    | exact within_trans (by decide) hB
    | with_reducible assumption
    | with_reducible apply upd_onGov
    | split

theorem upd_govFallback (h : Upd B r s) (hB : within 67114002 B) : Upd B r (State.govFallback s) := by
  unfold State.govFallback
  repeat' first
    | exact within_trans (by decide) hB
    | with_reducible assumption
    | with_reducible apply upd_raiseFault
    | with_reducible apply upd_raiseEvt
    | with_reducible apply upd_onGov
    | split

theorem upd_govRevert (h : Upd B r s) (hB : within 67114002 B) : Upd B r (State.govRevert s) := by
  unfold State.govRevert
  repeat' first
    | exact within_trans (by decide) hB
    | with_reducible assumption
    | with_reducible apply upd_raiseFault
    | with_reducible apply upd_raiseEvt
    | with_reducible apply upd_onGov
    | split

theorem upd_meanCheck (h : Upd B r s) (hB : within 67114002 B) : Upd B r (State.meanCheck s) := by
  unfold State.meanCheck
  repeat' first
    | exact within_trans (by decide) hB
    | with_reducible assumption
    | with_reducible apply upd_trcEvent
    | with_reducible apply upd_raiseFault
    | with_reducible apply upd_raiseEvt
    | with_reducible apply upd_onGov
    | (extract_lets +onlyGivenNames x; refine upd_let (B := B) (r := r) (x := x) ?_ (fun hx => ?_); rotate_left; clear_value x; revert x; intro _ _; rotate_left; unfold x; clear x)
    | split

theorem upd_thermalLoop (h : Upd B r s) (hB : within 67108864 B) : Upd B r (State.thermalLoop s) := by
  unfold State.thermalLoop
  repeat' first
    | exact within_trans (by decide) hB
    | with_reducible assumption
    | with_reducible apply upd_onGov
    | split

theorem upd_traceDone (h : Upd B r s) (hB : within 67108880 B) : Upd B r (State.traceDone s) := by
  unfold State.traceDone
  repeat' first
    | exact within_trans (by decide) hB
    | with_reducible assumption
    | with_reducible apply upd_raiseEvt
    | with_reducible apply upd_onGov
    | split

theorem upd_execPowerMeanCheck (h : Upd B r s) (hB : within 67114002 B) : UpdOut B r (execPowerMeanCheck s) := by
  unfold execPowerMeanCheck
  repeat' first
    | exact within_trans (by decide) hB
    | with_reducible assumption
    | with_reducible refine updOut_next ?_
    | with_reducible apply upd_meanCheck

theorem upd_execThermalLoop (h : Upd B r s) (hB : within 67108864 B) : UpdOut B r (execThermalLoop s) := by
  unfold execThermalLoop
  repeat' first
    | exact within_trans (by decide) hB
    | with_reducible assumption
    | with_reducible refine updOut_next ?_
    | with_reducible apply upd_thermalLoop

theorem upd_execGovernorFallback (h : Upd B r s) (hB : within 67114002 B) : UpdOut B r (execGovernorFallback s) := by
  unfold execGovernorFallback
  repeat' first
    | exact within_trans (by decide) hB
    | with_reducible assumption
    | with_reducible refine updOut_next ?_
    | with_reducible apply upd_govFallback

theorem upd_execFallbackExit (h : Upd B r s) (hB : within 67108864 B) : UpdOut B r (execFallbackExit s) := by
  unfold execFallbackExit
  repeat' first
    | exact within_trans (by decide) hB
    | with_reducible assumption
    | with_reducible refine updOut_next ?_
    | with_reducible apply upd_govExit

theorem upd_execGovernorRevert (h : Upd B r s) (hB : within 67114002 B) : UpdOut B r (execGovernorRevert s) := by
  unfold execGovernorRevert
  repeat' first
    | exact within_trans (by decide) hB
    | with_reducible assumption
    | with_reducible refine updOut_next ?_
    | with_reducible apply upd_govRevert

theorem upd_execSwap (h : Upd B r s) (hB : within 67108864 B) : UpdOut B r (execSwap s) := by
  unfold execSwap
  repeat' first
    | exact within_trans (by decide) hB
    | with_reducible assumption
    | with_reducible refine updOut_next ?_
    | with_reducible apply upd_govSwap

theorem upd_execSave (h : Upd B r s) (hB : within 67108864 B) : UpdOut B r (execSave s) := by
  unfold execSave
  repeat' first
    | exact within_trans (by decide) hB
    | with_reducible assumption
    | with_reducible refine updOut_next ?_
    | with_reducible apply upd_govSave

theorem upd_execMatDefault (h : Upd B r s) (hB : within 67108864 B) : UpdOut B r (execMatDefault s) := by
  unfold execMatDefault
  repeat' first
    | exact within_trans (by decide) hB
    | with_reducible assumption
    | with_reducible refine updOut_next ?_
    | with_reducible apply upd_govDefault

theorem upd_execTraceStart (h : Upd B r s) (hB : within 67108864 B) : UpdOut B r (execTraceStart s) := by
  unfold execTraceStart
  repeat' first
    | exact within_trans (by decide) hB
    | with_reducible assumption
    | with_reducible refine updOut_next ?_
    | with_reducible apply upd_traceStart

theorem upd_execTraceStop (h : Upd B r s) (hB : within 67108864 B) : UpdOut B r (execTraceStop s) := by
  unfold execTraceStop
  repeat' first
    | exact within_trans (by decide) hB
    | with_reducible assumption
    | with_reducible refine updOut_next ?_
    | with_reducible apply upd_trcTrigger

theorem upd_execTrcDone (h : Upd B r s) (hB : within 67108880 B) : UpdOut B r (execTrcDone s) := by
  unfold execTrcDone
  repeat' first
    | exact within_trans (by decide) hB
    | with_reducible assumption
    | with_reducible refine updOut_next ?_
    | with_reducible apply upd_traceDone

end Sys2Proof.Machine
end

