-- ==== Sys2Proof/Laws/UpdPower.lean ====
section
/-! SUPPORT. What the functions of Machine/Power.lean can change (Laws/Upd.lean). -/
namespace Sys2Proof.Machine
variable {B : Nat} {r s : State}

theorem upd_groupDown (n) (h : Upd B r s) (hB : within 134217984 B) : Upd B r (State.groupDown s n) := by
  unfold State.groupDown
  repeat' first
    | exact within_trans (by decide) hB
    | with_reducible assumption
    | with_reducible apply upd_stopRe
    | with_reducible apply upd_onUnit
    | with_reducible refine upd_foldl _ ?_ ?_
    | with_reducible intro _ _ _ _
    | with_reducible intro _ _ _
    | with_reducible intro _ _

theorem upd_domainDown (a) (p) (h : Upd B r s) (hB : within 404750592 B) : Upd B r (State.domainDown s a p) := by
  unfold State.domainDown
  repeat' first
    | exact within_trans (by decide) hB
    | with_reducible assumption
    | with_reducible apply upd_onCc
    | with_reducible apply upd_groupDown
    | with_reducible apply upd_onLnd
    | split

theorem upd_cutPower (a) (p) (h : Upd B r s) (hB : within 404750592 B) : Upd B r (State.cutPower s a p) := by
  unfold State.cutPower
  repeat' first
    | exact within_trans (by decide) hB
    | with_reducible assumption
    | with_reducible apply upd_onUnit
    | with_reducible apply upd_domainDown
    | with_reducible intro _ _ _ _
    | with_reducible intro _ _ _
    | with_reducible intro _ _

theorem upd_powerDown (a) (p) (h : Upd B r s) (hB : within 404816128 B) : Upd B r (State.powerDown s a p) := by
  unfold State.powerDown
  repeat' first
    | exact within_trans (by decide) hB
    | with_reducible assumption
    | with_reducible apply upd_onUnit
    | with_reducible apply upd_moveHe
    | with_reducible apply upd_cutPower
    | (extract_lets +onlyGivenNames x; refine upd_let (B := B) (r := r) (x := x) ?_ (fun hx => ?_); rotate_left; clear_value x; revert x; intro _ _; rotate_left; unfold x; clear x)
    | (extract_lets +onlyGivenNames x; clear_value x; revert x; intro _)
    | with_reducible intro _ _ _ _
    | with_reducible intro _ _ _
    | with_reducible intro _ _
    | split

theorem upd_pingFails (ch) (lun) (h : Upd B r s) (hB : within 134222850 B) : Upd B r (State.pingFails s ch lun) := by
  unfold State.pingFails
  repeat' first
    | exact within_trans (by decide) hB
    | with_reducible assumption
    | with_reducible apply upd_lunOut
    | with_reducible apply upd_exitSplit
    | with_reducible apply upd_leaveSplit
    | split

theorem upd_groupWake (n) (bad) (h : Upd B r s) (hB : within 142611714 B) : Upd B r (State.groupWake s n bad) := by
  unfold State.groupWake
  repeat' first
    | exact within_trans (by decide) hB
    | with_reducible assumption
    | with_reducible apply upd_onUnit
    | with_reducible apply upd_pingAll
    | with_reducible apply upd_startRe
    | with_reducible apply upd_pingFails
    | with_reducible apply upd_onPwr
    | with_reducible refine upd_foldl _ ?_ ?_
    | with_reducible intro _ _ _
    | split

theorem upd_unitPower (acc) (a) (v) (bad) (h : Upd B r s) (hB : within 413209874 B) : Upd B r (State.unitPower s acc a v bad) := by
  unfold State.unitPower
  repeat' first
    | exact within_trans (by decide) hB
    | with_reducible assumption
    | with_reducible apply upd_accFault
    | with_reducible apply upd_onUnit
    | with_reducible apply upd_powerDown
    | with_reducible apply upd_groupWake
    | (extract_lets +onlyGivenNames x; refine upd_let (B := B) (r := r) (x := x) ?_ (fun hx => ?_); rotate_left; clear_value x; revert x; intro _ _; rotate_left; unfold x; clear x)
    | (extract_lets +onlyGivenNames x; clear_value x; revert x; intro _)
    | split

theorem upd_testBegin (h : Upd B r s) (hB : within 8388610 B) : Upd B r (State.testBegin s) := by
  unfold State.testBegin
  repeat' first
    | exact within_trans (by decide) hB
    | with_reducible assumption
    | with_reducible apply Upd.sent
    | with_reducible apply upd_onPwr
    | split

theorem upd_aonLoss (h : Upd B r s) (hB : within 67115010 B) : Upd B r (State.aonLoss s) := by
  unfold State.aonLoss
  repeat' first
    | exact within_trans (by decide) hB
    | with_reducible assumption
    | with_reducible apply Upd.sent
    | with_reducible apply upd_onTime
    | with_reducible apply upd_onGov
    | with_reducible apply upd_onFlt
    | (extract_lets +onlyGivenNames x; refine upd_let (B := B) (r := r) (x := x) ?_ (fun hx => ?_); rotate_left; clear_value x; revert x; intro _ _; rotate_left; unfold x; clear x)
    | split

theorem upd_testAbort (h : Upd B r s) (hB : within 8388610 B) : Upd B r (State.testAbort s) := by
  unfold State.testAbort
  repeat' first
    | exact within_trans (by decide) hB
    | with_reducible assumption
    | with_reducible apply Upd.sent
    | with_reducible apply upd_onPwr
    | split

theorem upd_gate (l) (h : Upd B r s) (hB : within 404750592 B) : Upd B r (State.gate s l) := by
  unfold State.gate
  repeat' first
    | exact within_trans (by decide) hB
    | with_reducible assumption
    | with_reducible apply upd_onUnit
    | with_reducible apply upd_domainDown
    | with_reducible refine upd_foldl _ ?_ ?_
    | with_reducible intro _ _ _
    | split

theorem upd_enterPs (p) (host) (h : Upd B r s) (hB : within 1486908690 B) : Upd B r (State.enterPs s p host) := by
  unfold State.enterPs
  repeat' first
    | exact within_trans (by decide) hB
    | with_reducible assumption
    | with_reducible apply upd_testAbort
    | with_reducible apply upd_fspRequest
    | with_reducible apply upd_gate
    | with_reducible apply upd_dramSleep
    | with_reducible apply upd_logState
    | with_reducible apply upd_onPwr
    | with_reducible apply upd_onTime
    | split

theorem upd_apst (h : Upd B r s) (hB : within 1486908690 B) : Upd B r (State.apst s) := by
  unfold State.apst
  repeat' first
    | exact within_trans (by decide) hB
    | with_reducible assumption
    | with_reducible apply upd_enterPs
    | (extract_lets +onlyGivenNames x; clear_value x; revert x; intro _)
    | split

theorem upd_brownOut (rail) (h : Upd B r s) (hB : within 25235458 B) : Upd B r (State.brownOut s rail) := by
  unfold State.brownOut
  repeat' first
    | exact within_trans (by decide) hB
    | with_reducible assumption
    | with_reducible apply upd_testAbort
    | with_reducible apply upd_coreDown
    | with_reducible apply upd_onLvl
    | with_reducible apply upd_onFlt
    | with_reducible apply upd_onPwr
    | with_reducible apply upd_onHif
    | split

theorem upd_drainDrop (c) (h : Upd B r s) (hB : within 4128784 B) : Upd B r (State.drainDrop s c) := by
  unfold State.drainDrop
  repeat' first
    | exact within_trans (by decide) hB
    | with_reducible assumption
    | with_reducible apply upd_dropCmd
    | with_reducible apply upd_discardWrite
    | with_reducible apply upd_onLnd
    | (extract_lets +onlyGivenNames x; refine upd_let (B := B) (r := r) (x := x) ?_ (fun hx => ?_); rotate_left; clear_value x; revert x; intro _ _; rotate_left; unfold x; clear x)
    | (extract_lets +onlyGivenNames x; clear_value x; revert x; intro _)
    | with_reducible intro _ _ _ _
    | with_reducible intro _ _ _
    | with_reducible intro _ _
    | split

theorem upd_drainCommit (c) (h : Upd B r s) (hB : within 1753191442 B) : Upd B r (State.drainCommit s c) := by
  unfold State.drainCommit
  repeat' first
    | exact within_trans (by decide) hB
    | with_reducible assumption
    | with_reducible apply upd_landingCommit
    | with_reducible apply upd_holdGrant
    | split

theorem upd_drainBegin (h : Upd B r s) (hB : within 1761580050 B) : Upd B r (State.drainBegin s) := by
  unfold State.drainBegin
  repeat' first
    | exact within_trans (by decide) hB
    | with_reducible assumption
    | with_reducible apply upd_drainDrop
    | with_reducible apply upd_drainCommit
    | with_reducible apply upd_onSched
    | with_reducible apply upd_onPwr
    | with_reducible apply upd_onHif
    | (extract_lets +onlyGivenNames x; refine upd_let (B := B) (r := r) (x := x) ?_ (fun hx => ?_); rotate_left; clear_value x; revert x; intro _ _; rotate_left; unfold x; clear x)
    | (extract_lets +onlyGivenNames x; clear_value x; revert x; intro _)
    | with_reducible refine upd_foldl _ ?_ ?_
    | with_reducible intro _ _ _ _
    | with_reducible intro _ _ _
    | with_reducible intro _ _
    | split

theorem upd_drainOver (h : Upd B r s) (hB : within 25165826 B) : Upd B r (State.drainOver s) := by
  unfold State.drainOver
  repeat' first
    | exact within_trans (by decide) hB
    | with_reducible assumption
    | with_reducible apply upd_coreDown
    | with_reducible apply upd_onLvl
    | with_reducible apply upd_onPwr
    | with_reducible intro _ _ _ _
    | with_reducible intro _ _ _
    | with_reducible intro _ _

theorem upd_drainEnds (h : Upd B r s) (hB : within 159409154 B) : Upd B r (State.drainEnds s) := by
  unfold State.drainEnds
  repeat' first
    | exact within_trans (by decide) hB
    | with_reducible assumption
    | with_reducible apply upd_drainOver
    | with_reducible apply upd_logRec
    | with_reducible apply upd_onMed
    | with_reducible refine updO_map _ ?_
    | with_reducible refine updOP_map _ ?_
    | with_reducible refine updOPP_map _ ?_
    | split

theorem upd_drowse (n) (h : Upd B r s) (hB : within 134217984 B) : Upd B r (State.drowse s n) := by
  unfold State.drowse
  repeat' first
    | exact within_trans (by decide) hB
    | with_reducible assumption
    | with_reducible apply upd_groupDown
    | split

theorem upd_powerTick (vhu) (h : Upd B r s) (hB : within 1486908690 B) : Upd B r (State.powerTick s vhu) := by
  unfold State.powerTick
  repeat' first
    | exact within_trans (by decide) hB
    | with_reducible assumption
    | with_reducible apply upd_enterPs
    | with_reducible apply upd_onPwr
    | (extract_lets +onlyGivenNames x; refine upd_let (B := B) (r := r) (x := x) ?_ (fun hx => ?_); rotate_left; clear_value x; revert x; intro _ _; rotate_left; unfold x; clear x)
    | split

theorem upd_setPresent (degraded) (h : Upd B r s) (hB : within 11756562 B) : Upd B r (State.setPresent s degraded) := by
  unfold State.setPresent
  repeat' first
    | exact within_trans (by decide) hB
    | with_reducible assumption
    | with_reducible apply upd_raiseEvt
    | with_reducible apply upd_aenAll
    | with_reducible apply upd_flushDone
    | with_reducible apply upd_logState
    | with_reducible apply upd_onPwr
    | with_reducible apply upd_onLnd
    | split

theorem upd_judgeHold (cap) (minHold) (h : Upd B r s) (hB : within 11756562 B) : Upd B r (State.judgeHold s cap minHold) := by
  unfold State.judgeHold
  repeat' first
    | exact within_trans (by decide) hB
    | with_reducible assumption
    | with_reducible apply upd_setPresent
    | (extract_lets +onlyGivenNames x; clear_value x; revert x; intro _)
    | split

theorem upd_rejudge (h : Upd B r s) (hB : within 11756562 B) : Upd B r (State.rejudge s) := by
  unfold State.rejudge
  repeat' first
    | exact within_trans (by decide) hB
    | with_reducible assumption
    | with_reducible apply upd_judgeHold
    | split

theorem upd_powerDrains (h : Upd B r s) (hB : within 404750592 B) : Upd B r (State.powerDrains s) := by
  unfold State.powerDrains
  repeat' first
    | exact within_trans (by decide) hB
    | with_reducible assumption
    | with_reducible apply upd_cutPower
    | with_reducible apply upd_onUnit
    | with_reducible refine upd_foldl _ ?_ ?_
    | with_reducible intro _ _ _ _
    | with_reducible intro _ _ _
    | with_reducible intro _ _
    | split

theorem upd_ungate (l) (h : Upd B r s) (hB : within 256 B) : Upd B r (State.ungate s l) := by
  unfold State.ungate
  repeat' first
    | exact within_trans (by decide) hB
    | with_reducible assumption
    | with_reducible apply upd_onUnit
    | with_reducible refine upd_foldl _ ?_ ?_
    | with_reducible intro _ _ _
    | split

theorem upd_resumeFrames (h : Upd B r s) (hB : within 2048 B) : Upd B r (State.resumeFrames s) := by
  unfold State.resumeFrames
  repeat' first
    | exact within_trans (by decide) hB
    | with_reducible assumption
    | with_reducible apply upd_onTime

theorem upd_leavePs (dst) (h : Upd B r s) (hB : within 1216380178 B) : Upd B r (State.leavePs s dst) := by
  unfold State.leavePs
  repeat' first
    | exact within_trans (by decide) hB
    | with_reducible assumption
    | with_reducible apply upd_groupWake
    | with_reducible apply upd_ungate
    | with_reducible apply upd_resumeFrames
    | with_reducible apply upd_fspRequest
    | with_reducible apply upd_dramWake
    | with_reducible apply upd_logState
    | with_reducible apply upd_onPwr
    | with_reducible refine upd_foldl _ ?_ ?_
    | with_reducible intro _ _ _
    | split

theorem upd_housekeeping (h : Upd B r s) (hB : within 1486912786 B) : Upd B r (State.housekeeping s) := by
  unfold State.housekeeping
  repeat' first
    | exact within_trans (by decide) hB
    | with_reducible assumption
    | with_reducible apply upd_enterPs
    | with_reducible apply upd_leavePs
    | with_reducible apply upd_onPwr
    | split

theorem upd_powerFails (h : Upd B r s) (hB : within 25165842 B) : Upd B r (State.powerFails s) := by
  unfold State.powerFails
  repeat' first
    | exact within_trans (by decide) hB
    | with_reducible assumption
    | with_reducible apply upd_testAbort
    | with_reducible apply upd_raiseEvt
    | with_reducible apply upd_drainOver
    | with_reducible apply upd_onPwr
    | (extract_lets +onlyGivenNames x; refine upd_let (B := B) (r := r) (x := x) ?_ (fun hx => ?_); rotate_left; clear_value x; revert x; intro _ _; rotate_left; unfold x; clear x)
    | (extract_lets +onlyGivenNames x; clear_value x; revert x; intro _)
    | split

theorem upd_powerRestart (h : Upd B r s) (hB : within 8454144 B) : Upd B r (State.powerRestart s) := by
  unfold State.powerRestart
  repeat' first
    | exact within_trans (by decide) hB
    | with_reducible assumption
    | with_reducible apply upd_onHif
    | with_reducible apply upd_onPwr
    | split

theorem upd_wakeEntry (h : Upd B r s) (hB : within 16 B) : Upd B r (State.wakeEntry s) := by
  unfold State.wakeEntry
  repeat' first
    | exact within_trans (by decide) hB
    | with_reducible assumption
    | with_reducible apply upd_raiseEvt

theorem upd_wake (src) (h : Upd B r s) (hB : within 1216380178 B) : Upd B r (State.wake s src) := by
  unfold State.wake
  repeat' first
    | exact within_trans (by decide) hB
    | with_reducible assumption
    | with_reducible apply upd_leavePs
    | with_reducible apply upd_logState
    | with_reducible apply upd_onPwr
    | (extract_lets +onlyGivenNames x; refine upd_let (B := B) (r := r) (x := x) ?_ (fun hx => ?_); rotate_left; clear_value x; revert x; intro _ _; rotate_left; unfold x; clear x)
    | split

theorem upd_psExit (src) (inEntry) (ms) (h : Upd B r s) (hB : within 1216380178 B) : Upd B r (State.psExit s src inEntry ms) := by
  unfold State.psExit
  repeat' first
    | exact within_trans (by decide) hB
    | with_reducible assumption
    | with_reducible apply upd_wakeEntry
    | with_reducible apply upd_wake
    | with_reducible apply upd_onPwr
    | with_reducible apply upd_onTime
    | (extract_lets +onlyGivenNames x; refine upd_let (B := B) (r := r) (x := x) ?_ (fun hx => ?_); rotate_left; clear_value x; revert x; intro _ _; rotate_left; unfold x; clear x)
    | split

theorem upd_testDue (h : Upd B r s) (hB : within 8388610 B) : Upd B r (State.testDue s) := by
  unfold State.testDue
  repeat' first
    | exact within_trans (by decide) hB
    | with_reducible assumption
    | with_reducible apply upd_testBegin
    | split

theorem upd_testEnd (h : Upd B r s) (hB : within 11760658 B) : Upd B r (State.testEnd s) := by
  unfold State.testEnd
  repeat' first
    | exact within_trans (by decide) hB
    | with_reducible assumption
    | with_reducible apply Upd.sent
    | with_reducible apply upd_raiseFault
    | with_reducible apply upd_raiseEvt
    | with_reducible apply upd_judgeHold
    | with_reducible apply upd_onPwr
    | with_reducible apply upd_onFlt
    | split

theorem upd_voltageLow (h : Upd B r s) (hB : within 11756562 B) : Upd B r (State.voltageLow s) := by
  unfold State.voltageLow
  repeat' first
    | exact within_trans (by decide) hB
    | with_reducible assumption
    | with_reducible apply upd_setPresent
    | split

theorem upd_wakeGroup (n) (bad) (inEntry) (h : Upd B r s) (hB : within 142611730 B) : Upd B r (State.wakeGroup s n bad inEntry) := by
  unfold State.wakeGroup
  repeat' first
    | exact within_trans (by decide) hB
    | with_reducible assumption
    | with_reducible apply upd_wakeEntry
    | with_reducible apply upd_groupWake
    | split

theorem upd_wakeHigh (h : Upd B r s) (hB : within 1486908690 B) : Upd B r (State.wakeHigh s) := by
  unfold State.wakeHigh
  repeat' first
    | exact within_trans (by decide) hB
    | with_reducible assumption
    | with_reducible apply upd_enterPs
    | with_reducible apply upd_onPwr
    | (extract_lets +onlyGivenNames x; refine upd_let (B := B) (r := r) (x := x) ?_ (fun hx => ?_); rotate_left; clear_value x; revert x; intro _ _; rotate_left; unfold x; clear x)
    | split

theorem upd_execUnitPowerRequest (acc) (unit) (val) (inEntry) (bad) (h : Upd B r s) (hB : within 413209874 B) : UpdOut B r (execUnitPowerRequest acc unit val inEntry bad s) := by
  unfold execUnitPowerRequest
  repeat' first
    | exact within_trans (by decide) hB
    | with_reducible assumption
    | with_reducible refine updOut_next ?_
    | exact updOut_fault _
    | with_reducible apply upd_unitPower
    | with_reducible apply upd_wakeEntry
    | split

theorem upd_execBrownOut (h : Upd B r s) (hB : within 25235458 B) : UpdOut B r (execBrownOut s) := by
  unfold execBrownOut
  repeat' first
    | exact within_trans (by decide) hB
    | with_reducible assumption
    | with_reducible refine updOut_next ?_
    | with_reducible apply upd_brownOut

theorem upd_execRefclkLoss (h : Upd B r s) (hB : within 25235458 B) : UpdOut B r (execRefclkLoss s) := by
  unfold execRefclkLoss
  repeat' first
    | exact within_trans (by decide) hB
    | with_reducible assumption
    | with_reducible refine updOut_next ?_
    | with_reducible apply upd_brownOut

theorem upd_execDrowseEntry (group) (h : Upd B r s) (hB : within 134217984 B) : UpdOut B r (execDrowseEntry group s) := by
  unfold execDrowseEntry
  repeat' first
    | exact within_trans (by decide) hB
    | with_reducible assumption
    | with_reducible refine updOut_next ?_
    | exact updOut_fault _
    | with_reducible apply upd_drowse
    | split

theorem upd_execGroupWake (group) (bad) (inEntry) (h : Upd B r s) (hB : within 142611730 B) : UpdOut B r (execGroupWake group bad inEntry s) := by
  unfold execGroupWake
  repeat' first
    | exact within_trans (by decide) hB
    | with_reducible assumption
    | with_reducible refine updOut_next ?_
    | exact updOut_fault _
    | with_reducible apply upd_wakeGroup
    | split

theorem upd_execAutonomousPowerStateTransition (h : Upd B r s) (hB : within 1486908690 B) : UpdOut B r (execAutonomousPowerStateTransition s) := by
  unfold execAutonomousPowerStateTransition
  repeat' first
    | exact within_trans (by decide) hB
    | with_reducible assumption
    | with_reducible refine updOut_next ?_
    | with_reducible apply upd_apst

theorem upd_execPowerStateExit (src) (inEntry) (ms) (h : Upd B r s) (hB : within 1216380178 B) : UpdOut B r (execPowerStateExit src inEntry ms s) := by
  unfold execPowerStateExit
  repeat' first
    | exact within_trans (by decide) hB
    | with_reducible assumption
    | with_reducible refine updOut_next ?_
    | with_reducible apply upd_psExit

theorem upd_execHousekeepingExcursion (h : Upd B r s) (hB : within 1486912786 B) : UpdOut B r (execHousekeepingExcursion s) := by
  unfold execHousekeepingExcursion
  repeat' first
    | exact within_trans (by decide) hB
    | with_reducible assumption
    | with_reducible refine updOut_next ?_
    | with_reducible apply upd_housekeeping

theorem upd_execPfail (h : Upd B r s) (hB : within 25165842 B) : UpdOut B r (execPfail s) := by
  unfold execPfail
  repeat' first
    | exact within_trans (by decide) hB
    | with_reducible assumption
    | with_reducible refine updOut_next ?_
    | with_reducible apply upd_powerFails

theorem upd_execPowerRestart (h : Upd B r s) (hB : within 8454144 B) : UpdOut B r (execPowerRestart s) := by
  unfold execPowerRestart
  repeat' first
    | exact within_trans (by decide) hB
    | with_reducible assumption
    | with_reducible refine updOut_next ?_
    | with_reducible apply upd_powerRestart

theorem upd_execHoldUpTest (h : Upd B r s) (hB : within 8388610 B) : UpdOut B r (execHoldUpTest s) := by
  unfold execHoldUpTest
  repeat' first
    | exact within_trans (by decide) hB
    | with_reducible assumption
    | with_reducible refine updOut_next ?_
    | with_reducible apply upd_testDue

theorem upd_execHoldUpTestStart (h : Upd B r s) (hB : within 8388610 B) : UpdOut B r (execHoldUpTestStart s) := by
  unfold execHoldUpTestStart
  repeat' first
    | exact within_trans (by decide) hB
    | with_reducible assumption
    | with_reducible refine updOut_next ?_
    | with_reducible apply upd_testBegin

theorem upd_execHoldUpTestEnd (h : Upd B r s) (hB : within 11760658 B) : UpdOut B r (execHoldUpTestEnd s) := by
  unfold execHoldUpTestEnd
  repeat' first
    | exact within_trans (by decide) hB
    | with_reducible assumption
    | with_reducible refine updOut_next ?_
    | with_reducible apply upd_testEnd

theorem upd_execHoldUpVoltageLow (h : Upd B r s) (hB : within 11756562 B) : UpdOut B r (execHoldUpVoltageLow s) := by
  unfold execHoldUpVoltageLow
  repeat' first
    | exact within_trans (by decide) hB
    | with_reducible assumption
    | with_reducible refine updOut_next ?_
    | with_reducible apply upd_voltageLow

theorem upd_execWakeNDeassert (h : Upd B r s) (hB : within 1486908690 B) : UpdOut B r (execWakeNDeassert s) := by
  unfold execWakeNDeassert
  repeat' first
    | exact within_trans (by decide) hB
    | with_reducible assumption
    | with_reducible refine updOut_next ?_
    | with_reducible apply upd_wakeHigh

theorem upd_execVddAonLoss (h : Upd B r s) (hB : within 67115010 B) : UpdOut B r (execVddAonLoss s) := by
  unfold execVddAonLoss
  repeat' first
    | exact within_trans (by decide) hB
    | with_reducible assumption
    | with_reducible refine updOut_next ?_
    | with_reducible apply upd_aonLoss

end Sys2Proof.Machine
end

