-- ==== Sys2Proof/Laws/UpdAdmin.lean ====
section
/-! SUPPORT. What the functions of Machine/Admin.lean can change (Laws/Upd.lean). -/
namespace Sys2Proof.Machine
variable {B : Nat} {r s : State}

theorem upd_stopCmd (c) (st) (h : Upd B r s) (hB : within 1786713106 B) : Upd B r (State.stopCmd s c st) := by
  unfold State.stopCmd
  repeat' first
    | exact within_trans (by decide) hB
    | with_reducible assumption
    | with_reducible apply upd_landingCommit
    | with_reducible apply upd_discardWrite
    | with_reducible apply upd_onCtrl
    | with_reducible apply upd_complete
    | with_reducible apply upd_onPrg
    | split

theorem upd_abort (c) (h : Upd B r s) (hB : within 1786713106 B) : Upd B r (State.abort s c) := by
  unfold State.abort
  repeat' first
    | exact within_trans (by decide) hB
    | with_reducible assumption
    | with_reducible apply upd_complete
    | with_reducible apply upd_stopCmd
    | split

theorem upd_aerRow (c) (h : Upd B r s) (hB : within 1245202 B) : Upd B r (State.aerRow s c) := by
  unfold State.aerRow
  repeat' first
    | exact within_trans (by decide) hB
    | with_reducible assumption
    | with_reducible apply upd_complete
    | with_reducible apply upd_onCtrl
    | with_reducible apply upd_onCmd
    | split

theorem upd_assignFlex (c) (fn) (rt) (nr) (h : Upd B r s) (hB : within 1245202 B) : Upd B r (State.assignFlex s c fn rt nr) := by
  unfold State.assignFlex
  repeat' first
    | exact within_trans (by decide) hB
    | with_reducible assumption
    | with_reducible apply upd_complete
    | with_reducible apply upd_onHif
    | (extract_lets +onlyGivenNames x; refine upd_let (B := B) (r := r) (x := x) ?_ (fun hx => ?_); rotate_left; clear_value x; revert x; intro _ _; rotate_left; unfold x; clear x)
    | (extract_lets +onlyGivenNames x; clear_value x; revert x; intro _)
    | split

theorem upd_createCq (c) (h : Upd B r s) (hB : within 1245202 B) : Upd B r (State.createCq s c) := by
  unfold State.createCq
  repeat' first
    | exact within_trans (by decide) hB
    | with_reducible assumption
    | with_reducible apply upd_complete
    | with_reducible apply upd_onCtrl
    | (extract_lets +onlyGivenNames x; clear_value x; revert x; intro _)
    | split

theorem upd_createSq (c) (h : Upd B r s) (hB : within 1245202 B) : Upd B r (State.createSq s c) := by
  unfold State.createSq
  repeat' first
    | exact within_trans (by decide) hB
    | with_reducible assumption
    | with_reducible apply upd_complete
    | with_reducible apply upd_giveQueue
    | with_reducible apply upd_onCtrl
    | (extract_lets +onlyGivenNames x; clear_value x; revert x; intro _)
    | split

theorem upd_deleteCq (c) (h : Upd B r s) (hB : within 1245202 B) : Upd B r (State.deleteCq s c) := by
  unfold State.deleteCq
  repeat' first
    | exact within_trans (by decide) hB
    | with_reducible assumption
    | with_reducible apply upd_complete
    | with_reducible apply upd_onCtrl
    | (extract_lets +onlyGivenNames x; clear_value x; revert x; intro _)
    | split

theorem upd_endDeleteSq (c) (q) (h : Upd B r s) (hB : within 1245202 B) : Upd B r (State.endDeleteSq s c q) := by
  unfold State.endDeleteSq
  repeat' first
    | exact within_trans (by decide) hB
    | with_reducible assumption
    | with_reducible apply upd_complete
    | with_reducible apply upd_onCtrl
    | with_reducible apply upd_onHif
    | split

theorem upd_deleteSq (fsn) (h : Upd B r s) (hB : within 1786713106 B) : Upd B r (State.deleteSq s fsn) := by
  unfold State.deleteSq
  repeat' first
    | exact within_trans (by decide) hB
    | with_reducible assumption
    | with_reducible apply upd_endDeleteSq
    | with_reducible apply upd_complete
    | with_reducible apply upd_onCtrl
    | with_reducible apply upd_stopCmd
    | with_reducible apply upd_onCmd
    | (extract_lets +onlyGivenNames x; refine upd_let (B := B) (r := r) (x := x) ?_ (fun hx => ?_); rotate_left; clear_value x; revert x; intro _ _; rotate_left; unfold x; clear x)
    | (extract_lets +onlyGivenNames x; clear_value x; revert x; intro _)
    | with_reducible refine upd_foldl _ ?_ ?_
    | with_reducible intro _ _ _
    | split

theorem upd_dirReceive (c) (h : Upd B r s) (hB : within 1245202 B) : Upd B r (State.dirReceive s c) := by
  unfold State.dirReceive
  repeat' first
    | exact within_trans (by decide) hB
    | with_reducible assumption
    | with_reducible apply upd_complete
    | split

theorem upd_dirSend (c) (h : Upd B r s) (hB : within 1245202 B) : Upd B r (State.dirSend s c) := by
  unfold State.dirSend
  repeat' first
    | exact within_trans (by decide) hB
    | with_reducible assumption
    | with_reducible apply upd_complete
    | split

theorem upd_dstDone (h : Upd B r s) (hB : within 65536 B) : Upd B r (State.dstDone s) := by
  unfold State.dstDone
  repeat' first
    | exact within_trans (by decide) hB
    | with_reducible assumption
    | with_reducible apply upd_onHif

theorem upd_pmDone (h : Upd B r s) (hB : within 9633810 B) : Upd B r (State.pmDone s) := by
  unfold State.pmDone
  repeat' first
    | exact within_trans (by decide) hB
    | with_reducible assumption
    | with_reducible apply upd_complete
    | with_reducible apply upd_onPwr
    | with_reducible refine upd_foldl _ ?_ ?_
    | with_reducible intro _ _ _

theorem upd_getFeatures (c) (h : Upd B r s) (hB : within 1245202 B) : Upd B r (State.getFeatures s c) := by
  unfold State.getFeatures
  repeat' first
    | exact within_trans (by decide) hB
    | with_reducible assumption
    | with_reducible apply upd_complete
    | (extract_lets +onlyGivenNames x; clear_value x; revert x; intro _)
    | split

theorem upd_saveFeat (c) (h : Upd B r s) (hB : within 65536 B) : Upd B r (State.saveFeat s c) := by
  unfold State.saveFeat
  repeat' first
    | exact within_trans (by decide) hB
    | with_reducible assumption
    | with_reducible apply upd_onHif
    | split

theorem upd_selfTest (c) (h : Upd B r s) (hB : within 1245202 B) : Upd B r (State.selfTest s c) := by
  unfold State.selfTest
  repeat' first
    | exact within_trans (by decide) hB
    | with_reducible assumption
    | with_reducible apply upd_complete
    | with_reducible apply upd_onHif
    | (extract_lets +onlyGivenNames x; clear_value x; revert x; intro _)
    | split

theorem upd_setTime (c) (h : Upd B r s) (hB : within 27648 B) : Upd B r (State.setTime s c) := by
  unfold State.setTime
  repeat' first
    | exact within_trans (by decide) hB
    | with_reducible assumption
    | with_reducible apply upd_logRec
    | with_reducible apply upd_onTime

theorem upd_setEffect (c) (h : Upd B r s) (hB : within 355328 B) : Upd B r (State.setEffect s c) := by
  unfold State.setEffect
  repeat' first
    | exact within_trans (by decide) hB
    | with_reducible assumption
    | with_reducible apply upd_onCtrl
    | with_reducible apply upd_setTime
    | with_reducible apply upd_onNs
    | with_reducible apply upd_onHif
    | (extract_lets +onlyGivenNames x; clear_value x; revert x; intro _)
    | split

theorem upd_setPower (c) (h : Upd B r s) (hB : within 1488153874 B) : Upd B r (State.setPower s c) := by
  unfold State.setPower
  repeat' first
    | exact within_trans (by decide) hB
    | with_reducible assumption
    | with_reducible apply upd_logState
    | with_reducible apply upd_onCmd
    | with_reducible apply upd_fspRequest
    | with_reducible apply upd_complete
    | with_reducible apply upd_enterPs
    | with_reducible apply upd_onPwr
    | (extract_lets +onlyGivenNames x; refine upd_let (B := B) (r := r) (x := x) ?_ (fun hx => ?_); rotate_left; clear_value x; revert x; intro _ _; rotate_left; unfold x; clear x)
    | (extract_lets +onlyGivenNames x; clear_value x; revert x; intro _)
    | split

theorem upd_setFeatures (c) (h : Upd B r s) (hB : within 1488416018 B) : Upd B r (State.setFeatures s c) := by
  unfold State.setFeatures
  repeat' first
    | exact within_trans (by decide) hB
    | with_reducible assumption
    | with_reducible apply upd_complete
    | with_reducible apply upd_setPower
    | with_reducible apply upd_saveFeat
    | with_reducible apply upd_setEffect
    | (extract_lets +onlyGivenNames x; clear_value x; revert x; intro _)
    | split

theorem upd_virt (c) (h : Upd B r s) (hB : within 1803498514 B) : Upd B r (State.virt s c) := by
  unfold State.virt
  repeat' first
    | exact within_trans (by decide) hB
    | with_reducible assumption
    | with_reducible apply upd_complete
    | with_reducible apply upd_assignFlex
    | with_reducible apply upd_resetFns
    | with_reducible apply upd_onHif
    | (extract_lets +onlyGivenNames x; refine upd_let (B := B) (r := r) (x := x) ?_ (fun hx => ?_); rotate_left; clear_value x; revert x; intro _ _; rotate_left; unfold x; clear x)
    | (extract_lets +onlyGivenNames x; clear_value x; revert x; intro _)
    | split

theorem upd_execDeleteIoSq (fsn) (h : Upd B r s) (hB : within 1786713106 B) : UpdOut B r (execDeleteIoSq fsn s) := by
  unfold execDeleteIoSq
  repeat' first
    | exact within_trans (by decide) hB
    | with_reducible assumption
    | with_reducible refine updOut_next ?_
    | with_reducible apply upd_deleteSq

theorem upd_execDeleteIoCq (fsn) (h : Upd B r s) (hB : within 1245202 B) : UpdOut B r (execDeleteIoCq fsn s) := by
  unfold execDeleteIoCq
  repeat' first
    | exact within_trans (by decide) hB
    | with_reducible assumption
    | with_reducible apply upd_adminRow
    | with_reducible apply upd_deleteCq
    | with_reducible intro _ _ _

theorem upd_execCreateIoSq (fsn) (h : Upd B r s) (hB : within 1245202 B) : UpdOut B r (execCreateIoSq fsn s) := by
  unfold execCreateIoSq
  repeat' first
    | exact within_trans (by decide) hB
    | with_reducible assumption
    | with_reducible apply upd_adminRow
    | with_reducible apply upd_createSq
    | with_reducible intro _ _ _

theorem upd_execCreateIoCq (fsn) (h : Upd B r s) (hB : within 1245202 B) : UpdOut B r (execCreateIoCq fsn s) := by
  unfold execCreateIoCq
  repeat' first
    | exact within_trans (by decide) hB
    | with_reducible assumption
    | with_reducible apply upd_adminRow
    | with_reducible apply upd_createCq
    | with_reducible intro _ _ _

theorem upd_execAbort (fsn) (h : Upd B r s) (hB : within 1786713106 B) : UpdOut B r (execAbort fsn s) := by
  unfold execAbort
  repeat' first
    | exact within_trans (by decide) hB
    | with_reducible assumption
    | with_reducible apply upd_adminRow
    | with_reducible apply upd_abort
    | with_reducible intro _ _ _

theorem upd_execSetFeatures (fsn) (h : Upd B r s) (hB : within 1488416018 B) : UpdOut B r (execSetFeatures fsn s) := by
  unfold execSetFeatures
  repeat' first
    | exact within_trans (by decide) hB
    | with_reducible assumption
    | with_reducible apply upd_adminRow
    | with_reducible apply upd_setFeatures
    | with_reducible intro _ _ _

theorem upd_execGetFeatures (fsn) (h : Upd B r s) (hB : within 1245202 B) : UpdOut B r (execGetFeatures fsn s) := by
  unfold execGetFeatures
  repeat' first
    | exact within_trans (by decide) hB
    | with_reducible assumption
    | with_reducible apply upd_adminRow
    | with_reducible apply upd_getFeatures
    | with_reducible intro _ _ _

theorem upd_execAsynchronousEventRequest (fsn) (h : Upd B r s) (hB : within 1245202 B) : UpdOut B r (execAsynchronousEventRequest fsn s) := by
  unfold execAsynchronousEventRequest
  repeat' first
    | exact within_trans (by decide) hB
    | with_reducible assumption
    | with_reducible apply upd_adminRow
    | with_reducible apply upd_aerRow
    | with_reducible intro _ _ _

theorem upd_execDeviceSelfTest (fsn) (h : Upd B r s) (hB : within 1245202 B) : UpdOut B r (execDeviceSelfTest fsn s) := by
  unfold execDeviceSelfTest
  repeat' first
    | exact within_trans (by decide) hB
    | with_reducible assumption
    | with_reducible apply upd_adminRow
    | with_reducible apply upd_selfTest
    | with_reducible intro _ _ _

theorem upd_execDirectiveSend (fsn) (h : Upd B r s) (hB : within 1245202 B) : UpdOut B r (execDirectiveSend fsn s) := by
  unfold execDirectiveSend
  repeat' first
    | exact within_trans (by decide) hB
    | with_reducible assumption
    | with_reducible apply upd_adminRow
    | with_reducible apply upd_dirSend
    | with_reducible intro _ _ _

theorem upd_execDirectiveReceive (fsn) (h : Upd B r s) (hB : within 1245202 B) : UpdOut B r (execDirectiveReceive fsn s) := by
  unfold execDirectiveReceive
  repeat' first
    | exact within_trans (by decide) hB
    | with_reducible assumption
    | with_reducible apply upd_adminRow
    | with_reducible apply upd_dirReceive
    | with_reducible intro _ _ _

theorem upd_execVirtualizationManagement (fsn) (h : Upd B r s) (hB : within 1803498514 B) : UpdOut B r (execVirtualizationManagement fsn s) := by
  unfold execVirtualizationManagement
  repeat' first
    | exact within_trans (by decide) hB
    | with_reducible assumption
    | with_reducible apply upd_adminRow
    | with_reducible apply upd_virt
    | with_reducible intro _ _ _

end Sys2Proof.Machine
end

