-- ==== Sys2Proof/Laws/UpdBaluf.lean ====
section
/-! SUPPORT. What the functions of Machine/Baluf.lean can change (Laws/Upd.lean). -/
namespace Sys2Proof.Machine
variable {B : Nat} {r s : State}

theorem upd_foundIn (loc) (n) (h : Upd B r s) (hB : within 5138 B) : Upd B r (State.foundIn s loc n) := by
  unfold State.foundIn
  repeat' first
    | exact within_trans (by decide) hB
    | with_reducible assumption
    | with_reducible apply upd_foundBad
    | with_reducible refine upd_foldl _ ?_ ?_
    | with_reducible intro _ _ _ _
    | with_reducible intro _ _ _
    | with_reducible intro _ _
    | split

theorem upd_loadBytesAt (e) (loc) (size) (h : Upd B r s) (hB : within 1610617874 B) : UpdP B r (State.loadBytesAt s e loc size) := by
  unfold State.loadBytesAt
  repeat' first
    | exact within_trans (by decide) hB
    | with_reducible assumption
    | with_reducible refine updP_mk _ ?_
    | with_reducible refine UpdP.get ?_ (by assumption)
    | with_reducible apply upd_consume
    | with_reducible apply upd_fabric
    | with_reducible refine UpdP.snd (upd_fabric (h := ?_) (hB := ?_) ..)
    | with_reducible exact UpdP.snd (by assumption)
    | (extract_lets +onlyGivenNames x; refine upd_let (B := B) (r := r) (x := x) ?_ (fun hx => ?_); rotate_left; clear_value x; revert x; intro _ _; rotate_left; unfold x; clear x)
    | (extract_lets +onlyGivenNames x; clear_value x; revert x; intro _)
    | split

theorem upd_loadAt (e) (g) (ea) (size) (h : Upd B r s) (hB : within 1644172310 B) : UpdEP B r (State.loadAt s e g ea size) := by
  unfold State.loadAt
  repeat' first
    | exact within_trans (by decide) hB
    | with_reducible assumption
    | with_reducible refine updEP_ok _ ?_
    | with_reducible refine updEP_error _ ?_
    | with_reducible refine UpdP.get ?_ (by assumption)
    | with_reducible apply upd_loadBytesAt
    | with_reducible refine UpdP.snd (upd_loadBytesAt (h := ?_) (hB := ?_) ..)
    | with_reducible apply upd_spendAt
    | with_reducible apply upd_foundIn
    | with_reducible apply upd_spendFar
    | split

theorem upd_storeAt_ (e g ea size v c) (h : Upd B r s) (hB : within 1644188694 B) : UpdE B r (State.storeAt_ s e g ea size v c) := by
  unfold State.storeAt_
  repeat' first
    | exact within_trans (by decide) hB
    | with_reducible assumption
    | with_reducible refine updE_ok ?_
    | with_reducible refine updE_error _ ?_
    | with_reducible apply upd_memSend
    | with_reducible apply upd_spendAt
    | with_reducible apply upd_spendFar
    | with_reducible apply upd_foundIn
    | with_reducible apply upd_consume
    | with_reducible apply upd_memFill
    | exact Upd.bytes (fun _ => _) (fun _ => _) h (within_trans (by decide) hB)
    | split

theorem upd_aluRow (e) (op) (f) (h : Upd B r s) (hB : within 1645450514 B) : UpdOut B r (aluRow e op f s) := by
  unfold aluRow
  repeat' first
    | exact within_trans (by decide) hB
    | with_reducible assumption
    | with_reducible refine updB_go ?_
    | with_reducible apply upd_simpleRow
    | with_reducible apply upd_onEng
    | with_reducible intro _ _ _ _

theorem upd_atomicRow (e) (op) (f) (h : Upd B r s) (hB : within 1645450518 B) : UpdOut B r (atomicRow e op f s) := by
  unfold atomicRow
  repeat' first
    | exact within_trans (by decide) hB
    | with_reducible assumption
    | with_reducible refine updOut_next ?_
    | exact updOut_fault _
    | with_reducible refine updB_go ?_
    | with_reducible refine updB_done ?_
    | with_reducible refine updB_jump _ _ ?_
    | with_reducible refine updB_trapIn _ _ ?_
    | with_reducible exact updB_trap _ _
    | with_reducible apply upd_simpleRow
    | with_reducible apply upd_consume
    | with_reducible apply upd_spendFar
    | with_reducible apply upd_onEng
    | with_reducible apply upd_writeWord
    | with_reducible apply upd_foundIn
    | (extract_lets +onlyGivenNames x; refine upd_let (B := B) (r := r) (x := x) ?_ (fun hx => ?_); rotate_left; clear_value x; revert x; intro _ _; rotate_left; unfold x; clear x)
    | (extract_lets +onlyGivenNames x; clear_value x; revert x; intro _)
    | with_reducible intro _ _ _ _
    | with_reducible intro _ _ _
    | with_reducible intro _ _
    | split

theorem upd_brRow (e) (op) (p) (h : Upd B r s) (hB : within 1645450514 B) : UpdOut B r (brRow e op p s) := by
  unfold brRow
  repeat' first
    | exact within_trans (by decide) hB
    | with_reducible assumption
    | with_reducible refine updB_go ?_
    | with_reducible refine updB_jump _ _ ?_
    | with_reducible apply upd_balufRow
    | with_reducible intro _ _ _ _
    | split

theorem upd_execAdd (e) (h : Upd B r s) (hB : within 1645450514 B) : UpdOut B r (execAdd e s) := by
  unfold execAdd
  repeat' first
    | exact within_trans (by decide) hB
    | with_reducible assumption
    | with_reducible apply upd_aluRow

theorem upd_execSub (e) (h : Upd B r s) (hB : within 1645450514 B) : UpdOut B r (execSub e s) := by
  unfold execSub
  repeat' first
    | exact within_trans (by decide) hB
    | with_reducible assumption
    | with_reducible apply upd_aluRow

theorem upd_execAnd (e) (h : Upd B r s) (hB : within 1645450514 B) : UpdOut B r (execAnd e s) := by
  unfold execAnd
  repeat' first
    | exact within_trans (by decide) hB
    | with_reducible assumption
    | with_reducible apply upd_aluRow

theorem upd_execOr (e) (h : Upd B r s) (hB : within 1645450514 B) : UpdOut B r (execOr e s) := by
  unfold execOr
  repeat' first
    | exact within_trans (by decide) hB
    | with_reducible assumption
    | with_reducible apply upd_aluRow

theorem upd_execXor (e) (h : Upd B r s) (hB : within 1645450514 B) : UpdOut B r (execXor e s) := by
  unfold execXor
  repeat' first
    | exact within_trans (by decide) hB
    | with_reducible assumption
    | with_reducible apply upd_aluRow

theorem upd_execAndn (e) (h : Upd B r s) (hB : within 1645450514 B) : UpdOut B r (execAndn e s) := by
  unfold execAndn
  repeat' first
    | exact within_trans (by decide) hB
    | with_reducible assumption
    | with_reducible apply upd_aluRow

theorem upd_execSll (e) (h : Upd B r s) (hB : within 1645450514 B) : UpdOut B r (execSll e s) := by
  unfold execSll
  repeat' first
    | exact within_trans (by decide) hB
    | with_reducible assumption
    | with_reducible apply upd_aluRow

theorem upd_execSrl (e) (h : Upd B r s) (hB : within 1645450514 B) : UpdOut B r (execSrl e s) := by
  unfold execSrl
  repeat' first
    | exact within_trans (by decide) hB
    | with_reducible assumption
    | with_reducible apply upd_aluRow

theorem upd_execSra (e) (h : Upd B r s) (hB : within 1645450514 B) : UpdOut B r (execSra e s) := by
  unfold execSra
  repeat' first
    | exact within_trans (by decide) hB
    | with_reducible assumption
    | with_reducible apply upd_aluRow

theorem upd_execRor (e) (h : Upd B r s) (hB : within 1645450514 B) : UpdOut B r (execRor e s) := by
  unfold execRor
  repeat' first
    | exact within_trans (by decide) hB
    | with_reducible assumption
    | with_reducible apply upd_aluRow

theorem upd_execSlt (e) (h : Upd B r s) (hB : within 1645450514 B) : UpdOut B r (execSlt e s) := by
  unfold execSlt
  repeat' first
    | exact within_trans (by decide) hB
    | with_reducible assumption
    | with_reducible apply upd_aluRow

theorem upd_execSltu (e) (h : Upd B r s) (hB : within 1645450514 B) : UpdOut B r (execSltu e s) := by
  unfold execSltu
  repeat' first
    | exact within_trans (by decide) hB
    | with_reducible assumption
    | with_reducible apply upd_aluRow

theorem upd_execMin (e) (h : Upd B r s) (hB : within 1645450514 B) : UpdOut B r (execMin e s) := by
  unfold execMin
  repeat' first
    | exact within_trans (by decide) hB
    | with_reducible assumption
    | with_reducible apply upd_aluRow

theorem upd_execMax (e) (h : Upd B r s) (hB : within 1645450514 B) : UpdOut B r (execMax e s) := by
  unfold execMax
  repeat' first
    | exact within_trans (by decide) hB
    | with_reducible assumption
    | with_reducible apply upd_aluRow

theorem upd_execMinu (e) (h : Upd B r s) (hB : within 1645450514 B) : UpdOut B r (execMinu e s) := by
  unfold execMinu
  repeat' first
    | exact within_trans (by decide) hB
    | with_reducible assumption
    | with_reducible apply upd_aluRow

theorem upd_execMaxu (e) (h : Upd B r s) (hB : within 1645450514 B) : UpdOut B r (execMaxu e s) := by
  unfold execMaxu
  repeat' first
    | exact within_trans (by decide) hB
    | with_reducible assumption
    | with_reducible apply upd_aluRow

theorem upd_execAddw (e) (h : Upd B r s) (hB : within 1645450514 B) : UpdOut B r (execAddw e s) := by
  unfold execAddw
  repeat' first
    | exact within_trans (by decide) hB
    | with_reducible assumption
    | with_reducible apply upd_aluRow

theorem upd_execSubw (e) (h : Upd B r s) (hB : within 1645450514 B) : UpdOut B r (execSubw e s) := by
  unfold execSubw
  repeat' first
    | exact within_trans (by decide) hB
    | with_reducible assumption
    | with_reducible apply upd_aluRow

theorem upd_execMul (e) (h : Upd B r s) (hB : within 1645450514 B) : UpdOut B r (execMul e s) := by
  unfold execMul
  repeat' first
    | exact within_trans (by decide) hB
    | with_reducible assumption
    | with_reducible apply upd_aluRow

theorem upd_execMulh (e) (h : Upd B r s) (hB : within 1645450514 B) : UpdOut B r (execMulh e s) := by
  unfold execMulh
  repeat' first
    | exact within_trans (by decide) hB
    | with_reducible assumption
    | with_reducible apply upd_aluRow

theorem upd_execMulhu (e) (h : Upd B r s) (hB : within 1645450514 B) : UpdOut B r (execMulhu e s) := by
  unfold execMulhu
  repeat' first
    | exact within_trans (by decide) hB
    | with_reducible assumption
    | with_reducible apply upd_aluRow

theorem upd_execDiv (e) (h : Upd B r s) (hB : within 1645450514 B) : UpdOut B r (execDiv e s) := by
  unfold execDiv
  repeat' first
    | exact within_trans (by decide) hB
    | with_reducible assumption
    | with_reducible apply upd_aluRow

theorem upd_execDivu (e) (h : Upd B r s) (hB : within 1645450514 B) : UpdOut B r (execDivu e s) := by
  unfold execDivu
  repeat' first
    | exact within_trans (by decide) hB
    | with_reducible assumption
    | with_reducible apply upd_aluRow

theorem upd_execRem (e) (h : Upd B r s) (hB : within 1645450514 B) : UpdOut B r (execRem e s) := by
  unfold execRem
  repeat' first
    | exact within_trans (by decide) hB
    | with_reducible assumption
    | with_reducible apply upd_aluRow

theorem upd_execRemu (e) (h : Upd B r s) (hB : within 1645450514 B) : UpdOut B r (execRemu e s) := by
  unfold execRemu
  repeat' first
    | exact within_trans (by decide) hB
    | with_reducible assumption
    | with_reducible apply upd_aluRow

theorem upd_execClz (e) (h : Upd B r s) (hB : within 1645450514 B) : UpdOut B r (execClz e s) := by
  unfold execClz
  repeat' first
    | exact within_trans (by decide) hB
    | with_reducible assumption
    | with_reducible apply upd_aluRow

theorem upd_execCtz (e) (h : Upd B r s) (hB : within 1645450514 B) : UpdOut B r (execCtz e s) := by
  unfold execCtz
  repeat' first
    | exact within_trans (by decide) hB
    | with_reducible assumption
    | with_reducible apply upd_aluRow

theorem upd_execPopc (e) (h : Upd B r s) (hB : within 1645450514 B) : UpdOut B r (execPopc e s) := by
  unfold execPopc
  repeat' first
    | exact within_trans (by decide) hB
    | with_reducible assumption
    | with_reducible apply upd_aluRow

theorem upd_execBswap (e) (h : Upd B r s) (hB : within 1645450514 B) : UpdOut B r (execBswap e s) := by
  unfold execBswap
  repeat' first
    | exact within_trans (by decide) hB
    | with_reducible assumption
    | with_reducible apply upd_aluRow

theorem upd_execCrc32c (e) (h : Upd B r s) (hB : within 1645450514 B) : UpdOut B r (execCrc32c e s) := by
  unfold execCrc32c
  repeat' first
    | exact within_trans (by decide) hB
    | with_reducible assumption
    | with_reducible apply upd_aluRow

theorem upd_immRow (e) (op) (f) (h : Upd B r s) (hB : within 1645450514 B) : UpdOut B r (immRow e op f s) := by
  unfold immRow
  repeat' first
    | exact within_trans (by decide) hB
    | with_reducible assumption
    | with_reducible refine updB_go ?_
    | with_reducible apply upd_simpleRow
    | with_reducible apply upd_onEng
    | with_reducible intro _ _ _ _

theorem upd_execAddi (e) (h : Upd B r s) (hB : within 1645450514 B) : UpdOut B r (execAddi e s) := by
  unfold execAddi
  repeat' first
    | exact within_trans (by decide) hB
    | with_reducible assumption
    | with_reducible apply upd_immRow

theorem upd_execAndi (e) (h : Upd B r s) (hB : within 1645450514 B) : UpdOut B r (execAndi e s) := by
  unfold execAndi
  repeat' first
    | exact within_trans (by decide) hB
    | with_reducible assumption
    | with_reducible apply upd_immRow

theorem upd_execOri (e) (h : Upd B r s) (hB : within 1645450514 B) : UpdOut B r (execOri e s) := by
  unfold execOri
  repeat' first
    | exact within_trans (by decide) hB
    | with_reducible assumption
    | with_reducible apply upd_immRow

theorem upd_execXori (e) (h : Upd B r s) (hB : within 1645450514 B) : UpdOut B r (execXori e s) := by
  unfold execXori
  repeat' first
    | exact within_trans (by decide) hB
    | with_reducible assumption
    | with_reducible apply upd_immRow

theorem upd_execSlti (e) (h : Upd B r s) (hB : within 1645450514 B) : UpdOut B r (execSlti e s) := by
  unfold execSlti
  repeat' first
    | exact within_trans (by decide) hB
    | with_reducible assumption
    | with_reducible apply upd_immRow

theorem upd_execSltiu (e) (h : Upd B r s) (hB : within 1645450514 B) : UpdOut B r (execSltiu e s) := by
  unfold execSltiu
  repeat' first
    | exact within_trans (by decide) hB
    | with_reducible assumption
    | with_reducible apply upd_immRow

theorem upd_execShi (e) (h : Upd B r s) (hB : within 1645450514 B) : UpdOut B r (execShi e s) := by
  unfold execShi
  repeat' first
    | exact within_trans (by decide) hB
    | with_reducible assumption
    | with_reducible apply upd_immRow

theorem upd_execLui (e) (h : Upd B r s) (hB : within 1645450514 B) : UpdOut B r (execLui e s) := by
  unfold execLui
  repeat' first
    | exact within_trans (by decide) hB
    | with_reducible assumption
    | with_reducible apply upd_immRow

theorem upd_execShlori (e) (h : Upd B r s) (hB : within 1645450514 B) : UpdOut B r (execShlori e s) := by
  unfold execShlori
  repeat' first
    | exact within_trans (by decide) hB
    | with_reducible assumption
    | with_reducible apply upd_immRow

theorem upd_loadRow (e) (op) (size) (ext) (h : Upd B r s) (hB : within 1645450518 B) : UpdOut B r (loadRow e op size ext s) := by
  unfold loadRow
  repeat' first
    | exact within_trans (by decide) hB
    | with_reducible assumption
    | with_reducible refine updOut_next ?_
    | exact updOut_fault _
    | with_reducible refine updB_go ?_
    | with_reducible refine updB_done ?_
    | with_reducible refine updB_jump _ _ ?_
    | with_reducible refine updB_trapIn _ _ ?_
    | with_reducible exact updB_trap _ _
    | with_reducible refine UpdEP.get ?_ (by assumption)
    | with_reducible refine UpdEP.err ?_ (by assumption)
    | with_reducible apply upd_simpleRow
    | with_reducible apply upd_loadAt
    | with_reducible apply upd_onEng
    | with_reducible intro _ _ _ _
    | with_reducible intro _ _ _
    | with_reducible intro _ _
    | split

theorem upd_execLb (e) (h : Upd B r s) (hB : within 1645450518 B) : UpdOut B r (execLb e s) := by
  unfold execLb
  repeat' first
    | exact within_trans (by decide) hB
    | with_reducible assumption
    | with_reducible apply upd_loadRow

theorem upd_execLbu (e) (h : Upd B r s) (hB : within 1645450518 B) : UpdOut B r (execLbu e s) := by
  unfold execLbu
  repeat' first
    | exact within_trans (by decide) hB
    | with_reducible assumption
    | with_reducible apply upd_loadRow

theorem upd_execLh (e) (h : Upd B r s) (hB : within 1645450518 B) : UpdOut B r (execLh e s) := by
  unfold execLh
  repeat' first
    | exact within_trans (by decide) hB
    | with_reducible assumption
    | with_reducible apply upd_loadRow

theorem upd_execLhu (e) (h : Upd B r s) (hB : within 1645450518 B) : UpdOut B r (execLhu e s) := by
  unfold execLhu
  repeat' first
    | exact within_trans (by decide) hB
    | with_reducible assumption
    | with_reducible apply upd_loadRow

theorem upd_execLd (e) (h : Upd B r s) (hB : within 1645450518 B) : UpdOut B r (execLd e s) := by
  unfold execLd
  repeat' first
    | exact within_trans (by decide) hB
    | with_reducible assumption
    | with_reducible apply upd_loadRow

theorem upd_storeRow (e) (op) (size) (h : Upd B r s) (hB : within 1645466902 B) : UpdOut B r (storeRow e op size s) := by
  unfold storeRow
  repeat' first
    | exact within_trans (by decide) hB
    | with_reducible assumption
    | with_reducible refine updOut_next ?_
    | exact updOut_fault _
    | with_reducible refine updB_go ?_
    | with_reducible refine updB_done ?_
    | with_reducible refine updB_jump _ _ ?_
    | with_reducible refine updB_trapIn _ _ ?_
    | with_reducible exact updB_trap _ _
    | with_reducible refine UpdE.get ?_ (by assumption)
    | with_reducible refine UpdE.err ?_ (by assumption)
    | with_reducible apply upd_simpleRow
    | with_reducible apply upd_storeAt_
    | with_reducible intro _ _ _ _
    | with_reducible intro _ _ _
    | with_reducible intro _ _
    | split

theorem upd_execSb (e) (h : Upd B r s) (hB : within 1645466902 B) : UpdOut B r (execSb e s) := by
  unfold execSb
  repeat' first
    | exact within_trans (by decide) hB
    | with_reducible assumption
    | with_reducible apply upd_storeRow

theorem upd_execSh (e) (h : Upd B r s) (hB : within 1645466902 B) : UpdOut B r (execSh e s) := by
  unfold execSh
  repeat' first
    | exact within_trans (by decide) hB
    | with_reducible assumption
    | with_reducible apply upd_storeRow

theorem upd_execSd (e) (h : Upd B r s) (hB : within 1645466902 B) : UpdOut B r (execSd e s) := by
  unfold execSd
  repeat' first
    | exact within_trans (by decide) hB
    | with_reducible assumption
    | with_reducible apply upd_storeRow

theorem upd_execBeq (e) (h : Upd B r s) (hB : within 1645450514 B) : UpdOut B r (execBeq e s) := by
  unfold execBeq
  repeat' first
    | exact within_trans (by decide) hB
    | with_reducible assumption
    | with_reducible apply upd_brRow

theorem upd_execBne (e) (h : Upd B r s) (hB : within 1645450514 B) : UpdOut B r (execBne e s) := by
  unfold execBne
  repeat' first
    | exact within_trans (by decide) hB
    | with_reducible assumption
    | with_reducible apply upd_brRow

theorem upd_execBlt (e) (h : Upd B r s) (hB : within 1645450514 B) : UpdOut B r (execBlt e s) := by
  unfold execBlt
  repeat' first
    | exact within_trans (by decide) hB
    | with_reducible assumption
    | with_reducible apply upd_brRow

theorem upd_execBge (e) (h : Upd B r s) (hB : within 1645450514 B) : UpdOut B r (execBge e s) := by
  unfold execBge
  repeat' first
    | exact within_trans (by decide) hB
    | with_reducible assumption
    | with_reducible apply upd_brRow

theorem upd_execBltu (e) (h : Upd B r s) (hB : within 1645450514 B) : UpdOut B r (execBltu e s) := by
  unfold execBltu
  repeat' first
    | exact within_trans (by decide) hB
    | with_reducible assumption
    | with_reducible apply upd_brRow

theorem upd_execBgeu (e) (h : Upd B r s) (hB : within 1645450514 B) : UpdOut B r (execBgeu e s) := by
  unfold execBgeu
  repeat' first
    | exact within_trans (by decide) hB
    | with_reducible assumption
    | with_reducible apply upd_brRow

theorem upd_execJ (e) (h : Upd B r s) (hB : within 1645450514 B) : UpdOut B r (execJ e s) := by
  unfold execJ
  repeat' first
    | exact within_trans (by decide) hB
    | with_reducible assumption
    | with_reducible refine updB_jump _ _ ?_
    | with_reducible apply upd_simpleRow
    | with_reducible intro _ _ _ _

theorem upd_execJal (e) (h : Upd B r s) (hB : within 1645450514 B) : UpdOut B r (execJal e s) := by
  unfold execJal
  repeat' first
    | exact within_trans (by decide) hB
    | with_reducible assumption
    | with_reducible refine updB_jump _ _ ?_
    | with_reducible apply upd_simpleRow
    | with_reducible apply upd_onEng
    | with_reducible intro _ _ _ _

theorem upd_execJalr (e) (h : Upd B r s) (hB : within 1645450514 B) : UpdOut B r (execJalr e s) := by
  unfold execJalr
  repeat' first
    | exact within_trans (by decide) hB
    | with_reducible assumption
    | with_reducible refine updB_jump _ _ ?_
    | with_reducible exact updB_trap _ _
    | with_reducible apply upd_simpleRow
    | with_reducible apply upd_onEng
    | (extract_lets +onlyGivenNames x; clear_value x; revert x; intro _)
    | with_reducible intro _ _ _ _
    | split

theorem upd_loopSet (e) (i) (g) (count) (len) (h : Upd B r s) (hB : within 33554432 B) : UpdB B r (loopSet e i g count len s) := by
  unfold loopSet
  repeat' first
    | exact within_trans (by decide) hB
    | with_reducible assumption
    | with_reducible refine updB_done ?_
    | exact updB_trap _ _
    | with_reducible apply upd_onEng
    | (extract_lets +onlyGivenNames x; clear_value x; revert x; intro _)
    | split

theorem upd_execLoopi (e) (h : Upd B r s) (hB : within 1645450514 B) : UpdOut B r (execLoopi e s) := by
  unfold execLoopi
  repeat' first
    | exact within_trans (by decide) hB
    | with_reducible assumption
    | with_reducible apply upd_simpleRow
    | with_reducible apply upd_loopSet
    | with_reducible intro _ _ _ _

theorem upd_execLoop (e) (h : Upd B r s) (hB : within 1645450514 B) : UpdOut B r (execLoop e s) := by
  unfold execLoop
  repeat' first
    | exact within_trans (by decide) hB
    | with_reducible assumption
    | with_reducible apply upd_simpleRow
    | with_reducible apply upd_loopSet
    | with_reducible intro _ _ _ _

theorem upd_streamIn (e) (n) (g) (f) (h : Upd B r s) (hB : within 33554432 B) : UpdB B r (streamIn e n g s f) := by
  unfold streamIn
  repeat' first
    | exact within_trans (by decide) hB
    | with_reducible assumption
    | with_reducible refine updB_go ?_
    | exact updB_trap _ _
    | with_reducible apply upd_onEng
    | split

theorem upd_execSin (e) (h : Upd B r s) (hB : within 1645450514 B) : UpdOut B r (execSin e s) := by
  unfold execSin
  repeat' first
    | exact within_trans (by decide) hB
    | with_reducible assumption
    | with_reducible apply upd_simpleRow
    | with_reducible apply upd_streamIn
    | with_reducible intro _ _ _ _

theorem upd_streamOut (e) (g) (d) (h : Upd B r s) (hB : within 33554432 B) : UpdB B r (streamOut e g d s) := by
  unfold streamOut
  repeat' first
    | exact within_trans (by decide) hB
    | with_reducible assumption
    | with_reducible refine updB_go ?_
    | exact updB_trap _ _
    | with_reducible apply upd_onEng
    | split

theorem upd_execSout (e) (h : Upd B r s) (hB : within 1645450514 B) : UpdOut B r (execSout e s) := by
  unfold execSout
  repeat' first
    | exact within_trans (by decide) hB
    | with_reducible assumption
    | with_reducible apply upd_simpleRow
    | with_reducible apply upd_streamOut
    | with_reducible intro _ _ _ _

theorem upd_execSskip (e) (h : Upd B r s) (hB : within 1645450514 B) : UpdOut B r (execSskip e s) := by
  unfold execSskip
  repeat' first
    | exact within_trans (by decide) hB
    | with_reducible assumption
    | with_reducible refine updB_go ?_
    | with_reducible exact updB_trap _ _
    | with_reducible apply upd_simpleRow
    | with_reducible apply upd_onEng
    | (extract_lets +onlyGivenNames x; clear_value x; revert x; intro _)
    | with_reducible intro _ _ _ _
    | split

theorem upd_vecRow (e) (op) (f) (h : Upd B r s) (hB : within 1645450514 B) : UpdOut B r (vecRow e op f s) := by
  unfold vecRow
  repeat' first
    | exact within_trans (by decide) hB
    | with_reducible assumption
    | with_reducible refine updB_go ?_
    | with_reducible apply upd_simpleRow
    | with_reducible apply upd_onEng
    | with_reducible intro _ _ _ _

theorem upd_execVand (e) (h : Upd B r s) (hB : within 1645450514 B) : UpdOut B r (execVand e s) := by
  unfold execVand
  repeat' first
    | exact within_trans (by decide) hB
    | with_reducible assumption
    | with_reducible apply upd_vecRow

theorem upd_execVor (e) (h : Upd B r s) (hB : within 1645450514 B) : UpdOut B r (execVor e s) := by
  unfold execVor
  repeat' first
    | exact within_trans (by decide) hB
    | with_reducible assumption
    | with_reducible apply upd_vecRow

theorem upd_execVxor (e) (h : Upd B r s) (hB : within 1645450514 B) : UpdOut B r (execVxor e s) := by
  unfold execVxor
  repeat' first
    | exact within_trans (by decide) hB
    | with_reducible assumption
    | with_reducible apply upd_vecRow

theorem upd_execVandn (e) (h : Upd B r s) (hB : within 1645450514 B) : UpdOut B r (execVandn e s) := by
  unfold execVandn
  repeat' first
    | exact within_trans (by decide) hB
    | with_reducible assumption
    | with_reducible apply upd_vecRow

theorem upd_execVadd (e) (h : Upd B r s) (hB : within 1645450514 B) : UpdOut B r (execVadd e s) := by
  unfold execVadd
  repeat' first
    | exact within_trans (by decide) hB
    | with_reducible assumption
    | with_reducible apply upd_vecRow

theorem upd_execVsub (e) (h : Upd B r s) (hB : within 1645450514 B) : UpdOut B r (execVsub e s) := by
  unfold execVsub
  repeat' first
    | exact within_trans (by decide) hB
    | with_reducible assumption
    | with_reducible apply upd_vecRow

theorem upd_execVminu (e) (h : Upd B r s) (hB : within 1645450514 B) : UpdOut B r (execVminu e s) := by
  unfold execVminu
  repeat' first
    | exact within_trans (by decide) hB
    | with_reducible assumption
    | with_reducible apply upd_vecRow

theorem upd_execVmaxu (e) (h : Upd B r s) (hB : within 1645450514 B) : UpdOut B r (execVmaxu e s) := by
  unfold execVmaxu
  repeat' first
    | exact within_trans (by decide) hB
    | with_reducible assumption
    | with_reducible apply upd_vecRow

theorem upd_execVcmpeq (e) (h : Upd B r s) (hB : within 1645450514 B) : UpdOut B r (execVcmpeq e s) := by
  unfold execVcmpeq
  repeat' first
    | exact within_trans (by decide) hB
    | with_reducible assumption
    | with_reducible apply upd_vecRow

theorem upd_execVcmpgtu (e) (h : Upd B r s) (hB : within 1645450514 B) : UpdOut B r (execVcmpgtu e s) := by
  unfold execVcmpgtu
  repeat' first
    | exact within_trans (by decide) hB
    | with_reducible assumption
    | with_reducible apply upd_vecRow

theorem upd_execVcmpgt (e) (h : Upd B r s) (hB : within 1645450514 B) : UpdOut B r (execVcmpgt e s) := by
  unfold execVcmpgt
  repeat' first
    | exact within_trans (by decide) hB
    | with_reducible assumption
    | with_reducible apply upd_vecRow

theorem upd_execVshuf (e) (h : Upd B r s) (hB : within 1645450514 B) : UpdOut B r (execVshuf e s) := by
  unfold execVshuf
  repeat' first
    | exact within_trans (by decide) hB
    | with_reducible assumption
    | with_reducible apply upd_vecRow

theorem upd_execVbsl (e) (h : Upd B r s) (hB : within 1645450514 B) : UpdOut B r (execVbsl e s) := by
  unfold execVbsl
  repeat' first
    | exact within_trans (by decide) hB
    | with_reducible assumption
    | with_reducible refine updB_go ?_
    | with_reducible apply upd_simpleRow
    | with_reducible apply upd_onEng
    | with_reducible intro _ _ _ _

theorem upd_execVsplat (e) (h : Upd B r s) (hB : within 1645450514 B) : UpdOut B r (execVsplat e s) := by
  unfold execVsplat
  repeat' first
    | exact within_trans (by decide) hB
    | with_reducible assumption
    | with_reducible refine updB_go ?_
    | with_reducible apply upd_simpleRow
    | with_reducible apply upd_onEng
    | with_reducible intro _ _ _ _

theorem upd_execVmovw (e) (h : Upd B r s) (hB : within 1645450514 B) : UpdOut B r (execVmovw e s) := by
  unfold execVmovw
  repeat' first
    | exact within_trans (by decide) hB
    | with_reducible assumption
    | with_reducible refine updB_go ?_
    | with_reducible apply upd_simpleRow
    | with_reducible apply upd_onEng
    | with_reducible intro _ _ _ _

theorem upd_execVins (e) (h : Upd B r s) (hB : within 1645450514 B) : UpdOut B r (execVins e s) := by
  unfold execVins
  repeat' first
    | exact within_trans (by decide) hB
    | with_reducible assumption
    | with_reducible refine updB_go ?_
    | with_reducible apply upd_simpleRow
    | with_reducible apply upd_onEng
    | with_reducible intro _ _ _ _

theorem upd_vtoW (e) (op) (f) (h : Upd B r s) (hB : within 1645450514 B) : UpdOut B r (vtoW e op f s) := by
  unfold vtoW
  repeat' first
    | exact within_trans (by decide) hB
    | with_reducible assumption
    | with_reducible refine updB_go ?_
    | with_reducible apply upd_simpleRow
    | with_reducible apply upd_onEng
    | with_reducible intro _ _ _ _

theorem upd_execVmask (e) (h : Upd B r s) (hB : within 1645450514 B) : UpdOut B r (execVmask e s) := by
  unfold execVmask
  repeat' first
    | exact within_trans (by decide) hB
    | with_reducible assumption
    | with_reducible apply upd_vtoW

theorem upd_execVpopc (e) (h : Upd B r s) (hB : within 1645450514 B) : UpdOut B r (execVpopc e s) := by
  unfold execVpopc
  repeat' first
    | exact within_trans (by decide) hB
    | with_reducible assumption
    | with_reducible apply upd_vtoW

theorem upd_execVfirst (e) (h : Upd B r s) (hB : within 1645450514 B) : UpdOut B r (execVfirst e s) := by
  unfold execVfirst
  repeat' first
    | exact within_trans (by decide) hB
    | with_reducible assumption
    | with_reducible apply upd_vtoW

theorem upd_execVcrc (e) (h : Upd B r s) (hB : within 1645450514 B) : UpdOut B r (execVcrc e s) := by
  unfold execVcrc
  repeat' first
    | exact within_trans (by decide) hB
    | with_reducible assumption
    | with_reducible apply upd_vtoW

theorem upd_execVld (e) (h : Upd B r s) (hB : within 1645450518 B) : UpdOut B r (execVld e s) := by
  unfold execVld
  repeat' first
    | exact within_trans (by decide) hB
    | with_reducible assumption
    | with_reducible refine updOut_next ?_
    | exact updOut_fault _
    | with_reducible refine updB_go ?_
    | with_reducible refine updB_done ?_
    | with_reducible refine updB_jump _ _ ?_
    | with_reducible refine updB_trapIn _ _ ?_
    | with_reducible exact updB_trap _ _
    | with_reducible refine UpdEP.get ?_ (by assumption)
    | with_reducible refine UpdEP.err ?_ (by assumption)
    | with_reducible apply upd_simpleRow
    | with_reducible apply upd_loadAt
    | with_reducible apply upd_onEng
    | with_reducible intro _ _ _ _
    | with_reducible intro _ _ _
    | with_reducible intro _ _
    | split

theorem upd_execVst (e) (h : Upd B r s) (hB : within 1645466902 B) : UpdOut B r (execVst e s) := by
  unfold execVst
  repeat' first
    | exact within_trans (by decide) hB
    | with_reducible assumption
    | with_reducible refine updOut_next ?_
    | exact updOut_fault _
    | with_reducible refine updB_go ?_
    | with_reducible refine updB_done ?_
    | with_reducible refine updB_jump _ _ ?_
    | with_reducible refine updB_trapIn _ _ ?_
    | with_reducible exact updB_trap _ _
    | with_reducible refine UpdE.get ?_ (by assumption)
    | with_reducible refine UpdE.err ?_ (by assumption)
    | with_reducible apply upd_simpleRow
    | with_reducible apply upd_storeAt_
    | with_reducible intro _ _ _ _
    | with_reducible intro _ _ _
    | with_reducible intro _ _
    | split

theorem upd_execVsin (e) (h : Upd B r s) (hB : within 1645450514 B) : UpdOut B r (execVsin e s) := by
  unfold execVsin
  repeat' first
    | exact within_trans (by decide) hB
    | with_reducible assumption
    | with_reducible apply upd_simpleRow
    | with_reducible apply upd_streamIn
    | with_reducible intro _ _ _ _

theorem upd_execVsout (e) (h : Upd B r s) (hB : within 1645450514 B) : UpdOut B r (execVsout e s) := by
  unfold execVsout
  repeat' first
    | exact within_trans (by decide) hB
    | with_reducible assumption
    | with_reducible apply upd_simpleRow
    | with_reducible apply upd_streamOut
    | with_reducible intro _ _ _ _

theorem upd_execVsoutm (e) (h : Upd B r s) (hB : within 1645450514 B) : UpdOut B r (execVsoutm e s) := by
  unfold execVsoutm
  repeat' first
    | exact within_trans (by decide) hB
    | with_reducible assumption
    | with_reducible apply upd_simpleRow
    | with_reducible apply upd_streamOut
    | with_reducible intro _ _ _ _

theorem upd_execYield (e) (h : Upd B r s) (hB : within 1645450514 B) : UpdOut B r (execYield e s) := by
  unfold execYield
  repeat' first
    | exact within_trans (by decide) hB
    | with_reducible assumption
    | with_reducible refine updB_go ?_
    | with_reducible refine updB_done ?_
    | with_reducible apply upd_simpleRow
    | with_reducible apply upd_doXfers
    | with_reducible apply upd_endStep
    | with_reducible apply upd_onEng
    | with_reducible intro _ _ _ _
    | split

theorem upd_execExit (e) (h : Upd B r s) (hB : within 1645450514 B) : UpdOut B r (execExit e s) := by
  unfold execExit
  repeat' first
    | exact within_trans (by decide) hB
    | with_reducible assumption
    | with_reducible refine updB_go ?_
    | with_reducible refine updB_done ?_
    | with_reducible apply upd_simpleRow
    | with_reducible apply upd_doXfers
    | with_reducible apply upd_endStep
    | with_reducible apply upd_onEng
    | with_reducible intro _ _ _ _
    | split

theorem upd_execBalufFence (e) (h : Upd B r s) (hB : within 1645450518 B) : UpdOut B r (execBalufFence e s) := by
  unfold execBalufFence
  repeat' first
    | exact within_trans (by decide) hB
    | with_reducible assumption
    | with_reducible refine updB_go ?_
    | with_reducible apply upd_simpleRow
    | with_reducible apply upd_spendFar
    | with_reducible intro _ _ _ _

theorem upd_execXwait (e) (h : Upd B r s) (hB : within 1645450518 B) : UpdOut B r (execXwait e s) := by
  unfold execXwait
  repeat' first
    | exact within_trans (by decide) hB
    | with_reducible assumption
    | with_reducible refine updB_go ?_
    | with_reducible apply upd_simpleRow
    | with_reducible apply upd_spendFar
    | with_reducible apply upd_doXfers
    | with_reducible intro _ _ _ _

theorem upd_execEnter (e) (h : Upd B r s) (hB : within 1645450514 B) : UpdOut B r (execEnter e s) := by
  unfold execEnter
  repeat' first
    | exact within_trans (by decide) hB
    | with_reducible assumption
    | with_reducible refine updOut_next ?_
    | exact updOut_fault _
    | with_reducible refine updB_go ?_
    | with_reducible refine updB_done ?_
    | with_reducible refine updB_jump _ _ ?_
    | with_reducible refine updB_trapIn _ _ ?_
    | with_reducible exact updB_trap _ _
    | with_reducible apply upd_simpleRow
    | with_reducible apply upd_onEng
    | with_reducible intro _ _ _ _
    | with_reducible intro _ _ _
    | with_reducible intro _ _
    | split

theorem upd_execTret (e) (h : Upd B r s) (hB : within 1645450514 B) : UpdOut B r (execTret e s) := by
  unfold execTret
  repeat' first
    | exact within_trans (by decide) hB
    | with_reducible assumption
    | with_reducible refine updB_done ?_
    | with_reducible exact updB_trap _ _
    | with_reducible apply upd_simpleRow
    | with_reducible apply upd_onEng
    | with_reducible intro _ _ _ _
    | split

theorem upd_execMfp (e) (h : Upd B r s) (hB : within 1645450514 B) : UpdOut B r (execMfp e s) := by
  unfold execMfp
  repeat' first
    | exact within_trans (by decide) hB
    | with_reducible assumption
    | with_reducible refine updB_go ?_
    | with_reducible apply upd_simpleRow
    | with_reducible apply upd_onEng
    | with_reducible intro _ _ _ _

theorem upd_execMtp (e) (h : Upd B r s) (hB : within 1645450514 B) : UpdOut B r (execMtp e s) := by
  unfold execMtp
  repeat' first
    | exact within_trans (by decide) hB
    | with_reducible assumption
    | with_reducible refine updB_go ?_
    | with_reducible apply upd_simpleRow
    | with_reducible apply upd_onEng
    | with_reducible intro _ _ _ _

theorem upd_execXfer (e) (h : Upd B r s) (hB : within 1645450514 B) : UpdOut B r (execXfer e s) := by
  unfold execXfer
  repeat' first
    | exact within_trans (by decide) hB
    | with_reducible assumption
    | with_reducible refine updB_go ?_
    | with_reducible exact updB_trap _ _
    | with_reducible apply upd_simpleRow
    | with_reducible apply upd_onEng
    | (extract_lets +onlyGivenNames x; clear_value x; revert x; intro _)
    | with_reducible intro _ _ _ _
    | split

theorem upd_execCas (e) (h : Upd B r s) (hB : within 1645450518 B) : UpdOut B r (execCas e s) := by
  unfold execCas
  repeat' first
    | exact within_trans (by decide) hB
    | with_reducible assumption
    | with_reducible apply upd_atomicRow

theorem upd_execAmoadd (e) (h : Upd B r s) (hB : within 1645450518 B) : UpdOut B r (execAmoadd e s) := by
  unfold execAmoadd
  repeat' first
    | exact within_trans (by decide) hB
    | with_reducible assumption
    | with_reducible apply upd_atomicRow

theorem upd_execCsrr (e) (h : Upd B r s) (hB : within 1645450514 B) : UpdOut B r (execCsrr e s) := by
  unfold execCsrr
  repeat' first
    | exact within_trans (by decide) hB
    | with_reducible assumption
    | with_reducible refine updB_go ?_
    | with_reducible exact updB_trap _ _
    | with_reducible apply upd_simpleRow
    | with_reducible apply upd_onEng
    | with_reducible intro _ _ _ _
    | split

theorem upd_execCsrw (e) (h : Upd B r s) (hB : within 1645450514 B) : UpdOut B r (execCsrw e s) := by
  unfold execCsrw
  repeat' first
    | exact within_trans (by decide) hB
    | with_reducible assumption
    | with_reducible refine updB_go ?_
    | with_reducible exact updB_trap _ _
    | with_reducible apply upd_simpleRow
    | with_reducible apply upd_onEng
    | with_reducible intro _ _ _ _
    | split

end Sys2Proof.Machine
end

