-- ==== Sys2Proof/Laws/UpdNsAdmin.lean ====
section
/-! SUPPORT. What the functions of Machine/NsAdmin.lean can change (Laws/Upd.lean). -/
namespace Sys2Proof.Machine
variable {B : Nat} {r s : State}

theorem upd_dropLanding (nsid) (h : Upd B r s) (hB : within 7536658 B) : Upd B r (State.dropLanding s nsid) := by
  unfold State.dropLanding
  repeat' first
    | exact within_trans (by decide) hB
    | with_reducible assumption
    | with_reducible apply upd_complete
    | with_reducible apply upd_flushDone
    | with_reducible apply upd_onLnd
    | with_reducible apply upd_onJnl
    | with_reducible apply upd_onHif
    | with_reducible refine upd_foldl _ ?_ ?_
    | with_reducible intro _ _ _

theorem upd_clearNs (nsid) (n) (h : Upd B r s) (hB : within 679411730 B) : Upd B r (State.clearNs s nsid n) := by
  unfold State.clearNs
  repeat' first
    | exact within_trans (by decide) hB
    | with_reducible assumption
    | with_reducible apply upd_dropLanding
    | with_reducible apply upd_setCoarse
    | with_reducible apply upd_freeSeg
    | with_reducible apply upd_onNs
    | with_reducible apply upd_jnlSystem
    | with_reducible apply upd_onMed
    | with_reducible apply upd_onZones
    | with_reducible refine updO_map _ ?_
    | with_reducible refine updOP_map _ ?_
    | with_reducible refine updOPP_map _ ?_
    | with_reducible refine upd_foldl _ ?_ ?_
    | with_reducible intro _ _ _

theorem upd_eraseAll (h : Upd B r s) (hB : within 138413072 B) : Upd B r (State.eraseAll s) := by
  unfold State.eraseAll
  repeat' first
    | exact within_trans (by decide) hB
    | with_reducible assumption
    | with_reducible apply upd_eraseFree
    | with_reducible apply upd_onChunk
    | with_reducible apply upd_onMed
    | with_reducible refine upd_foldl _ ?_ ?_
    | with_reducible intro _ _ _

theorem upd_formatOne (c) (nsid) (n) (h : Upd B r s) (hB : within 947847186 B) : Upd B r (State.formatOne s c nsid n) := by
  unfold State.formatOne
  repeat' first
    | exact within_trans (by decide) hB
    | with_reducible assumption
    | with_reducible apply upd_clearNs
    | with_reducible apply upd_keysBack
    | with_reducible apply upd_newSlotKey
    | with_reducible apply upd_onZones
    | with_reducible apply upd_onNss
    | split

theorem upd_freeTenantSlots (tid) (h : Upd B r s) (hB : within 268435456 B) : Upd B r (State.freeTenantSlots s tid) := by
  unfold State.freeTenantSlots
  repeat' first
    | exact within_trans (by decide) hB
    | with_reducible assumption
    | with_reducible apply upd_onSec
    | split

theorem upd_noteNs (fns) (nsid) (h : Upd B r s) (hB : within 1245202 B) : Upd B r (State.noteNs s fns nsid) := by
  unfold State.noteNs
  repeat' first
    | exact within_trans (by decide) hB
    | with_reducible assumption
    | with_reducible apply upd_aenTo
    | with_reducible apply upd_onCtrl
    | with_reducible apply upd_miChange
    | with_reducible refine upd_foldl _ ?_ ?_
    | with_reducible intro _ _ _

theorem upd_nsAttach (c) (h : Upd B r s) (hB : within 1507346 B) : Upd B r (State.nsAttach s c) := by
  unfold State.nsAttach
  repeat' first
    | exact within_trans (by decide) hB
    | with_reducible assumption
    | with_reducible apply upd_complete
    | with_reducible apply upd_onNs
    | with_reducible apply upd_noteNs
    | (extract_lets +onlyGivenNames x; refine upd_let (B := B) (r := r) (x := x) ?_ (fun hx => ?_); rotate_left; clear_value x; revert x; intro _ _; rotate_left; unfold x; clear x)
    | (extract_lets +onlyGivenNames x; clear_value x; revert x; intro _)
    | split

theorem upd_nsCreate (c) (h : Upd B r s) (hB : within 269942802 B) : Upd B r (State.nsCreate s c) := by
  unfold State.nsCreate
  repeat' first
    | exact within_trans (by decide) hB
    | with_reducible assumption
    | with_reducible apply upd_complete
    | with_reducible apply upd_keysBack
    | with_reducible apply upd_newSlotKey
    | with_reducible apply upd_onMap
    | with_reducible apply upd_onNss
    | (extract_lets +onlyGivenNames x; refine upd_let (B := B) (r := r) (x := x) ?_ (fun hx => ?_); rotate_left; clear_value x; revert x; intro _ _; rotate_left; unfold x; clear x)
    | (extract_lets +onlyGivenNames x; clear_value x; revert x; intro _)
    | split

theorem upd_nsDelete (nsid) (n) (h : Upd B r s) (hB : within 998204434 B) : Upd B r (State.nsDelete s nsid n) := by
  unfold State.nsDelete
  repeat' first
    | exact within_trans (by decide) hB
    | with_reducible assumption
    | with_reducible apply upd_clearNs
    | with_reducible apply upd_keysBack
    | with_reducible apply upd_zeroSlot
    | with_reducible apply upd_endReadOnly
    | with_reducible apply upd_noteNs
    | with_reducible apply upd_freeTenantSlots
    | with_reducible apply upd_onNss
    | with_reducible apply upd_onMap
    | with_reducible apply upd_onZones
    | with_reducible apply upd_onPrg
    | with_reducible apply upd_onHif

theorem upd_nsManage (c) (h : Upd B r s) (hB : within 998204434 B) : Upd B r (State.nsManage s c) := by
  unfold State.nsManage
  repeat' first
    | exact within_trans (by decide) hB
    | with_reducible assumption
    | with_reducible apply upd_nsCreate
    | with_reducible apply upd_complete
    | with_reducible apply upd_nsDelete
    | (extract_lets +onlyGivenNames x; clear_value x; revert x; intro _)
    | with_reducible refine upd_foldl _ ?_ ?_
    | with_reducible intro _ _ _
    | split

theorem upd_wholeOp (fsn) (opc) (status) (l) (effect) (hf : ∀ e s, Upd B r s → Upd B r (effect e s)) (h : Upd B r s) (hB : within 1245202 B) : Upd B r (State.wholeOp s fsn opc status l effect) := by
  unfold State.wholeOp
  repeat' first
    | exact within_trans (by decide) hB
    | with_reducible assumption
    | with_reducible apply upd_complete
    | with_reducible apply upd_askLocks
    | with_reducible apply upd_onCmd
    | with_reducible apply hf
    | split

theorem upd_sanitizeBlock (fsn) (h : Upd B r s) (hB : within 679412754 B) : Upd B r (State.sanitizeBlock s fsn) := by
  unfold State.sanitizeBlock
  repeat' first
    | exact within_trans (by decide) hB
    | with_reducible assumption
    | with_reducible apply upd_complete
    | with_reducible apply upd_wholeOp
    | with_reducible apply upd_eraseAll
    | with_reducible apply upd_clearNs
    | with_reducible refine upd_foldl _ ?_ ?_
    | with_reducible intro _ _ _
    | split

theorem upd_sanitizeCrypto (fsn) (h : Upd B r s) (hB : within 947847186 B) : Upd B r (State.sanitizeCrypto s fsn) := by
  unfold State.sanitizeCrypto
  repeat' first
    | exact within_trans (by decide) hB
    | with_reducible assumption
    | with_reducible apply upd_wholeOp
    | with_reducible apply upd_keysBack
    | with_reducible apply upd_newSlotKey
    | with_reducible apply upd_clearNs
    | with_reducible refine upd_foldl _ ?_ ?_
    | with_reducible intro _ _ _
    | split

theorem upd_withFormats (c) (l) (h : Upd B r s) (hB : within 786432 B) : Upd B r (State.withFormats s c l) := by
  unfold State.withFormats
  repeat' first
    | exact within_trans (by decide) hB
    | with_reducible assumption
    | with_reducible apply upd_onZones
    | with_reducible apply upd_onNss
    | (extract_lets +onlyGivenNames x; refine upd_let (B := B) (r := r) (x := x) ?_ (fun hx => ?_); rotate_left; clear_value x; revert x; intro _ _; rotate_left; unfold x; clear x)
    | (extract_lets +onlyGivenNames x; clear_value x; revert x; intro _)

theorem upd_execNamespaceManagement (fsn) (h : Upd B r s) (hB : within 998204434 B) : UpdOut B r (execNamespaceManagement fsn s) := by
  unfold execNamespaceManagement
  repeat' first
    | exact within_trans (by decide) hB
    | with_reducible assumption
    | with_reducible apply upd_adminRow
    | with_reducible apply upd_nsManage
    | with_reducible intro _ _ _

theorem upd_execNamespaceAttachment (fsn) (h : Upd B r s) (hB : within 1507346 B) : UpdOut B r (execNamespaceAttachment fsn s) := by
  unfold execNamespaceAttachment
  repeat' first
    | exact within_trans (by decide) hB
    | with_reducible assumption
    | with_reducible apply upd_adminRow
    | with_reducible apply upd_nsAttach
    | with_reducible intro _ _ _

theorem upd_execFormatNvm (fsn) (h : Upd B r s) (hB : within 947847186 B) : UpdOut B r (execFormatNvm fsn s) := by
  unfold execFormatNvm
  repeat' first
    | exact within_trans (by decide) hB
    | with_reducible assumption
    | with_reducible refine updOut_next ?_
    | with_reducible apply upd_wholeOp
    | with_reducible apply upd_formatOne
    | with_reducible refine upd_foldl _ ?_ ?_
    | with_reducible intro _ _ _

theorem upd_execSanitizeBlockErase (fsn) (h : Upd B r s) (hB : within 679412754 B) : UpdOut B r (execSanitizeBlockErase fsn s) := by
  unfold execSanitizeBlockErase
  repeat' first
    | exact within_trans (by decide) hB
    | with_reducible assumption
    | with_reducible refine updOut_next ?_
    | with_reducible apply upd_sanitizeBlock

theorem upd_execSanitizeCryptoErase (fsn) (h : Upd B r s) (hB : within 947847186 B) : UpdOut B r (execSanitizeCryptoErase fsn s) := by
  unfold execSanitizeCryptoErase
  repeat' first
    | exact within_trans (by decide) hB
    | with_reducible assumption
    | with_reducible refine updOut_next ?_
    | with_reducible apply upd_sanitizeCrypto

end Sys2Proof.Machine
end

