-- ==== Sys2Proof/Laws/UpdPages.lean ====
section
/-! SUPPORT. What the functions of Machine/Pages.lean can change (Laws/Upd.lean). -/
namespace Sys2Proof.Machine
variable {B : Nat} {r s : State}

theorem upd_clearRead (c) (h : Upd B r s) (hB : within 69632 B) : Upd B r (State.clearRead s c) := by
  unfold State.clearRead
  repeat' first
    | exact within_trans (by decide) hB
    | with_reducible assumption
    | with_reducible apply upd_onCtrl
    | with_reducible apply upd_onFlt
    | split

theorem upd_sendPage (c) (d) (h : Upd B r s) (hB : within 1245202 B) : Upd B r (State.sendPage s c d) := by
  unfold State.sendPage
  repeat' first
    | exact within_trans (by decide) hB
    | with_reducible assumption
    | with_reducible apply upd_complete
    | split

theorem upd_evidencePage (c) (h : Upd B r s) (hB : within 269681690 B) : Upd B r (State.evidencePage s c) := by
  unfold State.evidencePage
  repeat' first
    | exact within_trans (by decide) hB
    | with_reducible assumption
    | with_reducible apply Upd.drawn
    | with_reducible apply upd_takeStamp
    | with_reducible apply upd_complete
    | with_reducible apply upd_sendPage
    | with_reducible apply upd_onSec
    | (extract_lets +onlyGivenNames x; refine upd_let (B := B) (r := r) (x := x) ?_ (fun hx => ?_); rotate_left; clear_value x; revert x; intro _ _; rotate_left; unfold x; clear x)
    | split

theorem upd_snapLost (fsn) (h : Upd B r s) (hB : within 1245202 B) : Upd B r (State.snapLost s fsn) := by
  unfold State.snapLost
  repeat' first
    | exact within_trans (by decide) hB
    | with_reducible assumption
    | with_reducible apply upd_complete
    | with_reducible apply upd_raiseEvt

theorem upd_snapRead (c) (h : Upd B r s) (hB : within 1253394 B) : Upd B r (State.snapRead s c) := by
  unfold State.snapRead
  repeat' first
    | exact within_trans (by decide) hB
    | with_reducible assumption
    | with_reducible apply upd_snapLost
    | with_reducible apply upd_sendPage
    | with_reducible apply upd_onLog
    | (extract_lets +onlyGivenNames x; refine upd_let (B := B) (r := r) (x := x) ?_ (fun hx => ?_); rotate_left; clear_value x; revert x; intro _ _; rotate_left; unfold x; clear x)
    | split

theorem upd_getLogPage (c) (h : Upd B r s) (hB : within 269693982 B) : Upd B r (State.getLogPage s c) := by
  unfold State.getLogPage
  repeat' first
    | exact within_trans (by decide) hB
    | with_reducible assumption
    | with_reducible apply upd_complete
    | with_reducible apply upd_evidencePage
    | with_reducible apply upd_snapRead
    | with_reducible apply upd_sendPage
    | with_reducible apply Upd.freed
    | with_reducible apply upd_clearRead
    | (extract_lets +onlyGivenNames x; clear_value x; revert x; intro _)
    | split

theorem upd_identify (c) (h : Upd B r s) (hB : within 1245206 B) : Upd B r (State.identify s c) := by
  unfold State.identify
  repeat' first
    | exact within_trans (by decide) hB
    | with_reducible assumption
    | with_reducible apply upd_complete
    | with_reducible apply Upd.freed
    | split

theorem upd_execGetLogPage (fsn) (h : Upd B r s) (hB : within 269693982 B) : UpdOut B r (execGetLogPage fsn s) := by
  unfold execGetLogPage
  repeat' first
    | exact within_trans (by decide) hB
    | with_reducible assumption
    | with_reducible apply upd_adminRow
    | with_reducible apply upd_getLogPage
    | with_reducible intro _ _ _

theorem upd_execIdentify (fsn) (h : Upd B r s) (hB : within 1245206 B) : UpdOut B r (execIdentify fsn s) := by
  unfold execIdentify
  repeat' first
    | exact within_trans (by decide) hB
    | with_reducible assumption
    | with_reducible apply upd_adminRow
    | with_reducible apply upd_identify
    | with_reducible intro _ _ _

end Sys2Proof.Machine
end

