-- ==== Sys2Proof/Laws/UpdTrain.lean ====
section
/-! SUPPORT. What the functions of Machine/Train.lean can change (Laws/Upd.lean). -/
namespace Sys2Proof.Machine
variable {B : Nat} {r s : State}

theorem upd_handshake (x) (h : Upd B r s) (hB : within 134222850 B) : Upd B r (State.handshake s x) := by
  unfold State.handshake
  extract_lets p bad sp
  have hn : ∀ s, Upd B r s → Upd B r (sp s) := fun _ h =>
    upd_armSplit _ _ (upd_onChan _ _ h (within_trans (by decide) hB)) (within_trans (by decide) hB)
  clear_value sp
  repeat' first
    | exact within_trans (by decide) hB
    | with_reducible assumption
    | with_reducible apply hn
    | with_reducible refine upd_foldl _ ?_ ?_
    | with_reducible apply upd_lunOut
    | with_reducible intro _ _ _
    | split

theorem upd_lunsLeave (ch) (st) (ls) (h : Upd B r s) (hB : within 134217728 B) : Upd B r (State.lunsLeave s ch st ls) := by
  unfold State.lunsLeave
  repeat' first
    | exact within_trans (by decide) hB
    | with_reducible assumption
    | with_reducible apply upd_onLun
    | with_reducible refine upd_foldl _ ?_ ?_
    | with_reducible intro _ _ _
    | split

theorem upd_identify_ (x) (h : Upd B r s) (hB : within 134222866 B) : Upd B r (State.identify_ s x) := by
  unfold State.identify_
  repeat' first
    | exact within_trans (by decide) hB
    | with_reducible assumption
    | with_reducible apply upd_lunsLeave
    | with_reducible apply upd_raiseEvt
    | with_reducible apply upd_raiseFault
    | split

theorem upd_trainChan (x) (h : Upd B r s) (hB : within 169022738 B) : Upd B r (State.trainChan s x) := by
  unfold State.trainChan
  repeat' first
    | exact within_trans (by decide) hB
    | with_reducible assumption
    | with_reducible apply upd_onChan
    | with_reducible apply upd_identify_
    | with_reducible apply upd_initBus
    | with_reducible apply upd_fenceUnit
    | with_reducible apply upd_raiseFault
    | with_reducible apply upd_handshake
    | split

end Sys2Proof.Machine
end

