-- ==== Sys2Proof/Laws/UpdFirmware.lean ====
section
/-! SUPPORT. What the functions of Machine/Firmware.lean can change (Laws/Upd.lean). -/
namespace Sys2Proof.Machine
variable {B : Nat} {r s : State}

theorem upd_warmBegin (h : Upd B r s) (hB : within 1803498514 B) : Upd B r (State.warmBegin s) := by
  unfold State.warmBegin
  repeat' first
    | exact within_trans (by decide) hB
    | with_reducible assumption
    | with_reducible apply upd_subsystemReset
    | with_reducible apply upd_onLvl
    | with_reducible apply upd_onHif

theorem upd_beginAct (slot) (fsn) (h : Upd B r s) (hB : within 16777216 B) : Upd B r (State.beginAct s slot fsn) := by
  unfold State.beginAct
  repeat' first
    | exact within_trans (by decide) hB
    | with_reducible assumption
    | with_reducible apply upd_onLvl

theorem upd_activate (c) (ca) (slot) (b) (h : Upd B r s) (hB : within 1803498514 B) : Upd B r (State.activate s c ca slot b) := by
  unfold State.activate
  repeat' first
    | exact within_trans (by decide) hB
    | with_reducible assumption
    | with_reducible apply upd_complete
    | with_reducible apply upd_warmBegin
    | with_reducible apply upd_onCmd
    | with_reducible apply upd_beginAct
    | with_reducible apply upd_onLvl
    | split

theorem upd_onAct (f) (h : Upd B r s) (hB : within 16777216 B) : Upd B r (State.onAct s f) := by
  unfold State.onAct
  repeat' first
    | exact within_trans (by decide) hB
    | with_reducible assumption
    | with_reducible apply upd_onLvl

theorem upd_lendGroups (me) (h : Upd B r s) (hB : within 16777472 B) : Upd B r (State.lendGroups s me) := by
  unfold State.lendGroups
  repeat' first
    | exact within_trans (by decide) hB
    | with_reducible assumption
    | with_reducible apply upd_onUnit
    | with_reducible apply upd_onAct
    | with_reducible refine upd_foldl _ ?_ ?_
    | with_reducible intro _ _ _
    | split

theorem upd_lendQueues (he) (h : Upd B r s) (hB : within 16842752 B) : Upd B r (State.lendQueues s he) := by
  unfold State.lendQueues
  repeat' first
    | exact within_trans (by decide) hB
    | with_reducible assumption
    | with_reducible apply upd_onAct
    | with_reducible apply upd_moveHe
    | (extract_lets +onlyGivenNames x; refine upd_let (B := B) (r := r) (x := x) ?_ (fun hx => ?_); rotate_left; clear_value x; revert x; intro _ _; rotate_left; unfold x; clear x)
    | (extract_lets +onlyGivenNames x; clear_value x; revert x; intro _)
    | with_reducible refine updO_map _ ?_
    | with_reducible refine updOP_map _ ?_
    | with_reducible refine updOPP_map _ ?_
    | with_reducible intro _ _ _ _
    | with_reducible intro _ _ _
    | with_reducible intro _ _
    | split

theorem upd_beginSwap (e) (h : Upd B r s) (hB : within 16843008 B) : Upd B r (State.beginSwap s e) := by
  unfold State.beginSwap
  repeat' first
    | exact within_trans (by decide) hB
    | with_reducible assumption
    | with_reducible apply upd_onAct
    | with_reducible apply upd_lendGroups
    | with_reducible apply upd_lendQueues
    | split

theorem upd_loadImg (e) (i) (h : Upd B r s) (hB : within 570425360 B) : Upd B r (State.loadImg s e i) := by
  unfold State.loadImg
  repeat' first
    | exact within_trans (by decide) hB
    | with_reducible assumption
    | with_reducible apply upd_onEng
    | with_reducible apply upd_memFill

theorem upd_bootEng (e) (h : Upd B r s) (hB : within 570425360 B) : Upd B r (State.bootEng s e) := by
  unfold State.bootEng
  repeat' first
    | exact within_trans (by decide) hB
    | with_reducible assumption
    | with_reducible apply upd_loadImg
    | with_reducible apply upd_onEng

theorem upd_endAct (h : Upd B r s) (hB : within 18022418 B) : Upd B r (State.endAct s) := by
  unfold State.endAct
  repeat' first
    | exact within_trans (by decide) hB
    | with_reducible assumption
    | with_reducible apply upd_miChange
    | with_reducible apply upd_complete
    | with_reducible apply upd_onLvl
    | split

theorem upd_skipEng (h : Upd B r s) (hB : within 18022418 B) : Upd B r (State.skipEng s) := by
  unfold State.skipEng
  repeat' first
    | exact within_trans (by decide) hB
    | with_reducible assumption
    | with_reducible apply upd_endAct
    | with_reducible apply upd_raiseEvt
    | with_reducible apply upd_onAct

theorem upd_returnGroups (me) (gs) (h : Upd B r s) (hB : within 256 B) : Upd B r (State.returnGroups s me gs) := by
  unfold State.returnGroups
  repeat' first
    | exact within_trans (by decide) hB
    | with_reducible assumption
    | with_reducible apply upd_onUnit
    | with_reducible refine upd_foldl _ ?_ ?_
    | with_reducible intro _ _ _

theorem upd_returnQueues (he) (qs) (h : Upd B r s) (hB : within 65536 B) : Upd B r (State.returnQueues s he qs) := by
  unfold State.returnQueues
  repeat' first
    | exact within_trans (by decide) hB
    | with_reducible assumption
    | with_reducible apply upd_onHif
    | with_reducible refine upd_foldl _ ?_ ?_
    | with_reducible intro _ _ _ _
    | with_reducible intro _ _ _
    | with_reducible intro _ _
    | split

theorem upd_reportImgs (h : Upd B r s) (hB : within 268435456 B) : Upd B r (State.reportImgs s) := by
  unfold State.reportImgs
  repeat' first
    | exact within_trans (by decide) hB
    | with_reducible assumption
    | with_reducible apply upd_onSec

theorem upd_endSwap (a) (e) (faults) (h : Upd B r s) (hB : within 856888594 B) : Upd B r (State.endSwap s a e faults) := by
  unfold State.endSwap
  repeat' first
    | exact within_trans (by decide) hB
    | with_reducible assumption
    | with_reducible apply upd_skipEng
    | with_reducible apply upd_fenceUnit
    | with_reducible apply upd_raiseFault
    | with_reducible apply upd_loadImg
    | with_reducible apply upd_returnGroups
    | with_reducible apply upd_returnQueues
    | with_reducible apply upd_reportImgs
    | with_reducible apply upd_endAct
    | with_reducible apply upd_onAct
    | split

theorem upd_takeTurn (e) (rest) (h : Upd B r s) (hB : within 18022418 B) : Upd B r (State.takeTurn s e rest) := by
  unfold State.takeTurn
  repeat' first
    | exact within_trans (by decide) hB
    | with_reducible assumption
    | with_reducible apply upd_skipEng
    | with_reducible apply upd_onAct
    | with_reducible intro _ _ _ _
    | with_reducible intro _ _ _
    | with_reducible intro _ _
    | split

theorem upd_engineSwap (faults) (h : Upd B r s) (hB : within 856888594 B) : Upd B r (State.engineSwap s faults) := by
  unfold State.engineSwap
  repeat' first
    | exact within_trans (by decide) hB
    | with_reducible assumption
    | with_reducible apply upd_endSwap
    | with_reducible apply upd_takeTurn
    | with_reducible apply upd_endAct
    | split

theorem upd_nvmReset (h : Upd B r s) (hB : within 1803498514 B) : Upd B r (State.nvmReset s) := by
  unfold State.nvmReset
  repeat' first
    | exact within_trans (by decide) hB
    | with_reducible assumption
    | with_reducible apply upd_subsystemReset
    | with_reducible apply upd_warmBegin
    | with_reducible apply upd_beginAct
    | split

theorem upd_swapTick (h : Upd B r s) (hB : within 16843008 B) : Upd B r (State.swapTick s) := by
  unfold State.swapTick
  repeat' first
    | exact within_trans (by decide) hB
    | with_reducible assumption
    | with_reducible apply upd_beginSwap
    | split

theorem upd_writeSlot (slot) (b) (h : Upd B r s) (hB : within 16777216 B) : Upd B r (State.writeSlot s slot b) := by
  unfold State.writeSlot
  repeat' first
    | exact within_trans (by decide) hB
    | with_reducible assumption
    | with_reducible apply upd_onLvl

theorem upd_refusePkg (c) (b) (h : Upd B r s) (hB : within 1245202 B) : Upd B r (State.refusePkg s c b) := by
  unfold State.refusePkg
  repeat' first
    | exact within_trans (by decide) hB
    | with_reducible assumption
    | with_reducible apply upd_raiseEvt
    | with_reducible apply upd_complete
    | split

theorem upd_fwCommit (c) (h : Upd B r s) (hB : within 1803498514 B) : Upd B r (State.fwCommit s c) := by
  unfold State.fwCommit
  repeat' first
    | exact within_trans (by decide) hB
    | with_reducible assumption
    | with_reducible apply upd_complete
    | with_reducible apply upd_activate
    | with_reducible apply upd_writeSlot
    | with_reducible apply upd_refusePkg
    | (extract_lets +onlyGivenNames x; clear_value x; revert x; intro _)
    | split

theorem upd_fwDownload (c) (h : Upd B r s) (hB : within 18022418 B) : Upd B r (State.fwDownload s c) := by
  unfold State.fwDownload
  repeat' first
    | exact within_trans (by decide) hB
    | with_reducible assumption
    | with_reducible apply upd_complete
    | with_reducible apply upd_onLvl
    | split

theorem upd_lunOp (ch) (lun) (op) (arg) (h : Upd B r s) (hB : within 134222850 B) : UpdP B r (State.lunOp s ch lun op arg) := by
  unfold State.lunOp
  repeat' first
    | exact within_trans (by decide) hB
    | with_reducible assumption
    | with_reducible refine updP_mk _ ?_
    | with_reducible apply upd_lunOut
    | with_reducible apply upd_onLun
    | split

theorem upd_opComplete (a) (pass) (tr) (h : Upd B r s) (hB : within 705893650 B) : Upd B r (State.opComplete s a pass tr) := by
  unfold State.opComplete
  repeat' first
    | exact within_trans (by decide) hB
    | with_reducible assumption
    | with_reducible apply upd_endOp
    | with_reducible apply upd_bootEng
    | with_reducible apply upd_trainChan
    | with_reducible apply upd_finishUnitCmd
    | split

theorem upd_setCres (a) (op) (code) (h : Upd B r s) (hB : within 256 B) : Upd B r (State.setCres s a op code) := by
  unfold State.setCres
  repeat' first
    | exact within_trans (by decide) hB
    | with_reducible assumption
    | with_reducible apply upd_onUnit

theorem upd_ucDone (c) (dw1) (h : Upd B r s) (hB : within 1245202 B) : Upd B r (State.ucDone s c dw1) := by
  unfold State.ucDone
  repeat' first
    | exact within_trans (by decide) hB
    | with_reducible assumption
    | with_reducible apply upd_complete

theorem upd_unitCommand (c) (h : Upd B r s) (hB : within 1513297810 B) : Upd B r (State.unitCommand s c) := by
  unfold State.unitCommand
  repeat' first
    | exact within_trans (by decide) hB
    | with_reducible assumption
    | with_reducible apply upd_complete
    | with_reducible apply upd_lunOp
    | with_reducible apply upd_setCres
    | with_reducible apply upd_ucDone
    | with_reducible apply upd_issueOp
    | with_reducible apply upd_onCmd
    | (extract_lets +onlyGivenNames x; refine upd_letP (B := B) (r := r) (x := x) ?_ (fun hx => ?_); rotate_left; clear_value x; revert x; intro _ _; rotate_left; unfold x; clear x)
    | with_reducible exact UpdP.snd (by assumption)
    | (extract_lets +onlyGivenNames x; refine upd_let (B := B) (r := r) (x := x) ?_ (fun hx => ?_); rotate_left; clear_value x; revert x; intro _ _; rotate_left; unfold x; clear x)
    | (extract_lets +onlyGivenNames x; clear_value x; revert x; intro _)
    | split

theorem upd_warmRestart (h : Upd B r s) (hB : within 163577874 B) : Upd B r (State.warmRestart s) := by
  unfold State.warmRestart
  repeat' first
    | exact within_trans (by decide) hB
    | with_reducible assumption
    | with_reducible apply upd_coreDown
    | with_reducible apply upd_testAbort
    | with_reducible apply upd_cleanShutdown
    | with_reducible apply upd_onLvl
    | split

theorem upd_execUnitOperationComplete (unit) (pass) (tr) (h : Upd B r s) (hB : within 705893650 B) : UpdOut B r (execUnitOperationComplete unit pass tr s) := by
  unfold execUnitOperationComplete
  repeat' first
    | exact within_trans (by decide) hB
    | with_reducible assumption
    | with_reducible refine updOut_next ?_
    | exact updOut_fault _
    | with_reducible apply upd_opComplete
    | split

theorem upd_execFirmwareCommit (fsn) (h : Upd B r s) (hB : within 1803498514 B) : UpdOut B r (execFirmwareCommit fsn s) := by
  unfold execFirmwareCommit
  repeat' first
    | exact within_trans (by decide) hB
    | with_reducible assumption
    | with_reducible apply upd_adminRow
    | with_reducible apply upd_fwCommit
    | with_reducible intro _ _ _

theorem upd_execFirmwareImageDownload (fsn) (h : Upd B r s) (hB : within 18022418 B) : UpdOut B r (execFirmwareImageDownload fsn s) := by
  unfold execFirmwareImageDownload
  repeat' first
    | exact within_trans (by decide) hB
    | with_reducible assumption
    | with_reducible apply upd_adminRow
    | with_reducible apply upd_fwDownload
    | with_reducible intro _ _ _

theorem upd_execUnitCommand (fsn) (h : Upd B r s) (hB : within 1513297810 B) : UpdOut B r (execUnitCommand fsn s) := by
  unfold execUnitCommand
  repeat' first
    | exact within_trans (by decide) hB
    | with_reducible assumption
    | with_reducible apply upd_adminRow
    | with_reducible apply upd_unitCommand
    | with_reducible intro _ _ _

theorem upd_execNvmSubsystemReset (h : Upd B r s) (hB : within 1803498514 B) : UpdOut B r (execNvmSubsystemReset s) := by
  unfold execNvmSubsystemReset
  repeat' first
    | exact within_trans (by decide) hB
    | with_reducible assumption
    | with_reducible refine updOut_next ?_
    | with_reducible apply upd_nvmReset

theorem upd_execEngineSwap (faults) (h : Upd B r s) (hB : within 856888594 B) : UpdOut B r (execEngineSwap faults s) := by
  unfold execEngineSwap
  repeat' first
    | exact within_trans (by decide) hB
    | with_reducible assumption
    | with_reducible refine updOut_next ?_
    | with_reducible apply upd_engineSwap

theorem upd_execWarmRestart (h : Upd B r s) (hB : within 163577874 B) : UpdOut B r (execWarmRestart s) := by
  unfold execWarmRestart
  repeat' first
    | exact within_trans (by decide) hB
    | with_reducible assumption
    | with_reducible refine updOut_next ?_
    | with_reducible apply upd_warmRestart

end Sys2Proof.Machine
end

