-- ==== Sys2Proof/Laws/UpdRegs.lean ====
section
/-! SUPPORT. What the functions of Machine/Regs.lean can change (Laws/Upd.lean). -/
namespace Sys2Proof.Machine
variable {B : Nat} {r s : State}

theorem upd_clearRc (y_r) (u) (h : Upd B r s) (hB : within 16 B) : Upd B r (State.clearRc s y_r u) := by
  unfold State.clearRc
  repeat' first
    | exact within_trans (by decide) hB
    | with_reducible assumption
    | with_reducible apply Upd.field
    | with_reducible refine upd_foldl _ ?_ ?_
    | with_reducible intro _ _ _
    | split

theorem upd_readEffect (acc) (u) (y_r) (h : Upd B r s) (hB : within 4240 B) : Upd B r (State.readEffect s acc u y_r) := by
  unfold State.readEffect
  repeat' first
    | exact within_trans (by decide) hB
    | with_reducible assumption
    | with_reducible refine UpdP.snd (upd_logRdData (h := ?_) (hB := ?_) ..)
    | with_reducible apply Upd.field
    | with_reducible apply upd_clearRc
    | with_reducible apply upd_onHiLatch
    | with_reducible apply upd_onFlt
    | split

theorem upd_readCopy (acc) (u) (addr) (h : Upd B r s) (hB : within 4240 B) : UpdP B r (State.readCopy s acc u addr) := by
  unfold State.readCopy
  repeat' first
    | exact within_trans (by decide) hB
    | with_reducible assumption
    | with_reducible refine updP_mk _ ?_
    | with_reducible apply upd_readEffect
    | split

theorem upd_busRead (acc) (addr) (h : Upd B r s) (hB : within 4240 B) : UpdP B r (State.busRead s acc addr) := by
  unfold State.busRead
  repeat' first
    | exact within_trans (by decide) hB
    | with_reducible assumption
    | with_reducible refine updP_mk _ ?_
    | with_reducible apply upd_accFault
    | with_reducible refine UpdP.snd (upd_readCopy (h := ?_) (hB := ?_) ..)
    | split

theorem upd_readOut (acc) (addr) (h : Upd B r s) (hB : within 4242 B) : Upd B r (State.readOut s acc addr) := by
  unfold State.readOut
  repeat' first
    | exact within_trans (by decide) hB
    | with_reducible assumption
    | with_reducible refine UpdP.snd (upd_busRead (h := ?_) (hB := ?_) ..)
    | with_reducible apply Upd.sent

theorem upd_writePort (acc) (a) (addr) (v) (h : Upd B r s) (hB : within 1521686418 B) : Upd B r (State.writePort s acc a addr v) := by
  unfold State.writePort
  repeat' first
    | exact within_trans (by decide) hB
    | with_reducible assumption
    | with_reducible apply upd_onUnit
    | with_reducible apply upd_writeUnitCmd
    | with_reducible apply upd_unitPower
    | split

theorem upd_retireClear (acc) (v) (h : Upd B r s) (hB : within 16777232 B) : Upd B r (State.retireClear s acc v) := by
  unfold State.retireClear
  repeat' first
    | exact within_trans (by decide) hB
    | with_reducible assumption
    | with_reducible apply Upd.field
    | with_reducible apply upd_accFault
    | with_reducible apply upd_onLvl
    | (extract_lets +onlyGivenNames x; refine upd_let (B := B) (r := r) (x := x) ?_ (fun hx => ?_); rotate_left; clear_value x; revert x; intro _ _; rotate_left; unfold x; clear x)
    | (extract_lets +onlyGivenNames x; clear_value x; revert x; intro _)
    | with_reducible intro _ _ _ _
    | with_reducible intro _ _ _
    | with_reducible intro _ _
    | split

theorem upd_writeFrm (acc) (addr) (u) (v) (h : Upd B r s) (hB : within 32784 B) : Upd B r (State.writeFrm s acc addr u v) := by
  unfold State.writeFrm
  repeat' first
    | exact within_trans (by decide) hB
    | with_reducible assumption
    | with_reducible refine UpdO.get ?_ (by assumption)
    | with_reducible apply upd_applyShares
    | with_reducible apply upd_weightWrite
    | with_reducible apply upd_cfgErr
    | with_reducible apply upd_storeReg
    | with_reducible refine updO_bind _ ?_
    | with_reducible intro _ _
    | split

theorem upd_writeTrc (v) (h : Upd B r s) (hB : within 67108880 B) : Upd B r (State.writeTrc s v) := by
  unfold State.writeTrc
  repeat' first
    | exact within_trans (by decide) hB
    | with_reducible assumption
    | with_reducible refine UpdO.get ?_ (by assumption)
    | with_reducible apply upd_storeReg
    | with_reducible apply Upd.field
    | with_reducible apply upd_traceStart
    | with_reducible apply upd_trcTrigger
    | with_reducible refine updO_bind _ ?_
    | with_reducible intro _ _
    | split

theorem upd_writePwr (acc) (addr) (u) (v) (h : Upd B r s) (hB : within 75497490 B) : Upd B r (State.writePwr s acc addr u v) := by
  unfold State.writePwr
  repeat' first
    | exact within_trans (by decide) hB
    | with_reducible assumption
    | with_reducible apply upd_testBegin
    | with_reducible apply upd_govCtl
    | with_reducible apply upd_storeAt
    | with_reducible apply upd_govMdata
    | with_reducible apply upd_writeTrc
    | split

theorem upd_pinFollows (before) (h : Upd B r s) (hB : within 2 B) : Upd B r (State.pinFollows s before) := by
  unfold State.pinFollows
  repeat' first
    | exact within_trans (by decide) hB
    | with_reducible assumption
    | with_reducible apply Upd.sent
    | split

theorem upd_writePin (acc) (v) (h : Upd B r s) (hB : within 18 B) : Upd B r (State.writePin s acc v) := by
  unfold State.writePin
  repeat' first
    | exact within_trans (by decide) hB
    | with_reducible assumption
    | with_reducible apply upd_pinFollows
    | with_reducible apply upd_storeAt
    | with_reducible apply upd_accFault
    | split

theorem upd_writeTherm (v) (h : Upd B r s) (hB : within 4112 B) : Upd B r (State.writeTherm s v) := by
  unfold State.writeTherm
  repeat' first
    | exact within_trans (by decide) hB
    | with_reducible assumption
    | with_reducible apply upd_storeAt
    | with_reducible apply upd_onFlt
    | (extract_lets +onlyGivenNames x; refine upd_let (B := B) (r := r) (x := x) ?_ (fun hx => ?_); rotate_left; clear_value x; revert x; intro _ _; rotate_left; unfold x; clear x)
    | split

theorem upd_writeFlt (acc) (addr) (u) (v) (h : Upd B r s) (hB : within 4114 B) : Upd B r (State.writeFlt s acc addr u v) := by
  unfold State.writeFlt
  repeat' first
    | exact within_trans (by decide) hB
    | with_reducible assumption
    | with_reducible apply upd_writePin
    | with_reducible apply upd_writeTherm
    | with_reducible apply upd_storeAt
    | with_reducible apply upd_onFlt
    | split

theorem upd_writeLog (acc) (addr) (u) (v) (h : Upd B r s) (hB : within 9232 B) : Upd B r (State.writeLog s acc addr u v) := by
  unfold State.writeLog
  repeat' first
    | exact within_trans (by decide) hB
    | with_reducible assumption
    | with_reducible apply upd_logSubmit
    | with_reducible apply upd_storeAt
    | split

theorem upd_writeHif (addr) (u) (v) (h : Upd B r s) (hB : within 16 B) : Upd B r (State.writeHif s addr u v) := by
  unfold State.writeHif
  repeat' first
    | exact within_trans (by decide) hB
    | with_reducible assumption
    | with_reducible apply upd_storeAt
    | split

theorem upd_writeCal (c) (v) (h : Upd B r s) (hB : within 134217744 B) : Upd B r (State.writeCal s c v) := by
  unfold State.writeCal
  repeat' first
    | exact within_trans (by decide) hB
    | with_reducible assumption
    | with_reducible refine UpdO.get ?_ (by assumption)
    | with_reducible apply upd_storeReg
    | with_reducible apply upd_calDue
    | with_reducible refine updO_bind _ ?_
    | with_reducible intro _ _
    | split

theorem upd_writeHead (head) (tail) (g) (v) (pump) (hf : ∀ s, Upd B r s → Upd B r (pump s)) (h : Upd B r s) (hB : within 16 B) : Upd B r (State.writeHead s head tail g v pump) := by
  unfold State.writeHead
  repeat' first
    | exact within_trans (by decide) hB
    | with_reducible assumption
    | with_reducible apply Upd.field
    | with_reducible apply hf
    | (extract_lets +onlyGivenNames x; clear_value x; revert x; intro _)
    | split

theorem upd_writeGrp (acc) (addr) (g) (v) (h : Upd B r s) (hB : within 134222866 B) : Upd B r (State.writeGrp s acc addr g v) := by
  unfold State.writeGrp
  repeat' first
    | exact within_trans (by decide) hB
    | with_reducible assumption
    | with_reducible apply Upd.field
    | with_reducible apply upd_accFault
    | with_reducible apply upd_listCommit
    | with_reducible apply upd_writeHead
    | with_reducible apply upd_pumpCq
    | with_reducible apply upd_pumpDr
    | with_reducible apply upd_storeAt
    | with_reducible intro _ _
    | split

theorem upd_writeQd (addr) (q) (v) (h : Upd B r s) (hB : within 16 B) : Upd B r (State.writeQd s addr q v) := by
  unfold State.writeQd
  repeat' first
    | exact within_trans (by decide) hB
    | with_reducible assumption
    | with_reducible apply upd_storeAt
    | (extract_lets +onlyGivenNames x; refine upd_let (B := B) (r := r) (x := x) ?_ (fun hx => ?_); rotate_left; clear_value x; revert x; intro _ _; rotate_left; unfold x; clear x)
    | split

theorem upd_writeQos (acc) (v) (h : Upd B r s) (hB : within 16 B) : Upd B r (State.writeQos s acc v) := by
  unfold State.writeQos
  repeat' first
    | exact within_trans (by decide) hB
    | with_reducible assumption
    | with_reducible apply Upd.field
    | (extract_lets +onlyGivenNames x; clear_value x; revert x; intro _)
    | split

theorem upd_writeDrc (acc) (addr) (u) (v) (h : Upd B r s) (hB : within 1073741840 B) : Upd B r (State.writeDrc s acc addr u v) := by
  unfold State.writeDrc
  repeat' first
    | exact within_trans (by decide) hB
    | with_reducible assumption
    | with_reducible apply upd_fspRequest
    | with_reducible apply upd_evacRow
    | with_reducible apply upd_writeQos
    | with_reducible apply upd_storeAt
    | split

theorem upd_writeFlip (v) (h : Upd B r s) (hB : within 16 B) : Upd B r (State.writeFlip s v) := by
  unfold State.writeFlip
  repeat' first
    | exact within_trans (by decide) hB
    | with_reducible assumption
    | with_reducible apply upd_flipArm
    | with_reducible apply Upd.field
    | split

theorem upd_writeFlipAddr (addr) (v) (h : Upd B r s) (hB : within 16 B) : Upd B r (State.writeFlipAddr s addr v) := by
  unfold State.writeFlipAddr
  repeat' first
    | exact within_trans (by decide) hB
    | with_reducible assumption
    | with_reducible apply upd_storeAt
    | (extract_lets +onlyGivenNames x; clear_value x; revert x; intro _)
    | split

theorem upd_writeMemp (addr) (u) (v) (h : Upd B r s) (hB : within 536876050 B) : Upd B r (State.writeMemp s addr u v) := by
  unfold State.writeMemp
  repeat' first
    | exact within_trans (by decide) hB
    | with_reducible assumption
    | with_reducible apply upd_devCfg
    | with_reducible apply upd_passStart
    | with_reducible apply upd_passStop
    | with_reducible apply upd_writeFlip
    | with_reducible apply upd_writeFlipAddr
    | with_reducible apply upd_storeAt
    | split

theorem upd_writeSec (acc) (addr) (u) (v) (h : Upd B r s) (hB : within 268440602 B) : Upd B r (State.writeSec s acc addr u v) := by
  unfold State.writeSec
  repeat' first
    | exact within_trans (by decide) hB
    | with_reducible assumption
    | with_reducible apply upd_alarmForce
    | with_reducible apply upd_svnCtl
    | with_reducible apply upd_revoke
    | with_reducible apply upd_storeAt
    | split

theorem upd_writeCopy (acc) (addr) (u) (v) (h : Upd B r s) (hB : within 2142484378 B) : Upd B r (State.writeCopy s acc addr u v) := by
  unfold State.writeCopy
  repeat' first
    | exact within_trans (by decide) hB
    | with_reducible assumption
    | with_reducible apply upd_writePort
    | with_reducible apply upd_retireClear
    | with_reducible apply upd_storeAt
    | with_reducible apply upd_writeFrm
    | with_reducible apply upd_writePwr
    | with_reducible apply upd_writeFlt
    | with_reducible apply Upd.field
    | with_reducible apply upd_writeLog
    | with_reducible apply upd_writeHif
    | with_reducible apply upd_writeCal
    | with_reducible apply upd_writeGrp
    | with_reducible apply upd_writeQd
    | with_reducible apply upd_writeDrc
    | with_reducible apply upd_writeMemp
    | with_reducible apply upd_writeSec
    | split

theorem upd_busWrite (acc) (addr) (v) (h : Upd B r s) (hB : within 2142484378 B) : Upd B r (State.busWrite s acc addr v) := by
  unfold State.busWrite
  repeat' first
    | exact within_trans (by decide) hB
    | with_reducible assumption
    | with_reducible apply upd_accFault
    | with_reducible apply upd_writeCopy
    | with_reducible refine upd_foldl _ ?_ ?_
    | with_reducible intro _ _ _
    | split

theorem upd_access (acc) (addr) (val) (h : Upd B r s) (hB : within 2142484378 B) : Upd B r (State.access s acc addr val) := by
  unfold State.access
  repeat' first
    | exact within_trans (by decide) hB
    | with_reducible assumption
    | with_reducible apply upd_readOut
    | with_reducible apply upd_busWrite
    | split

theorem upd_bar0Out (fn) (off) (size) (h : Upd B r s) (hB : within 65538 B) : Upd B r (State.bar0Out s fn off size) := by
  unfold State.bar0Out
  repeat' first
    | exact within_trans (by decide) hB
    | with_reducible assumption
    | with_reducible apply Upd.sent
    | with_reducible apply upd_onCtrl
    | split

theorem upd_accRow (acc) (addr) (f) (hf : ∀ s, Upd B r s → Upd B r (f s)) (h : Upd B r s) (hB : within 2 B) : UpdOut B r (accRow acc addr s f) := by
  unfold accRow
  repeat' first
    | exact within_trans (by decide) hB
    | with_reducible assumption
    | with_reducible refine updOut_next ?_
    | exact updOut_fault _
    | with_reducible apply Upd.sent
    | with_reducible apply hf
    | split

theorem upd_execPlainRegisterWrite (acc) (addr) (val) (h : Upd B r s) (hB : within 2142484378 B) : UpdOut B r (execPlainRegisterWrite acc addr val s) := by
  unfold execPlainRegisterWrite
  repeat' first
    | exact within_trans (by decide) hB
    | with_reducible assumption
    | with_reducible apply upd_accRow
    | with_reducible apply upd_busWrite
    | with_reducible intro _ _

theorem upd_execRcRead (acc) (addr) (h : Upd B r s) (hB : within 4242 B) : UpdOut B r (execRcRead acc addr s) := by
  unfold execRcRead
  repeat' first
    | exact within_trans (by decide) hB
    | with_reducible assumption
    | with_reducible apply upd_accRow
    | with_reducible apply upd_readOut
    | with_reducible refine updO_map _ ?_
    | with_reducible refine updOP_map _ ?_
    | with_reducible refine updOPP_map _ ?_
    | with_reducible intro _ _
    | split

theorem upd_execLoReadLatch (acc) (addr) (host) (h : Upd B r s) (hB : within 69778 B) : UpdOut B r (execLoReadLatch acc addr host s) := by
  unfold execLoReadLatch
  repeat' first
    | exact within_trans (by decide) hB
    | with_reducible assumption
    | with_reducible refine updOut_next ?_
    | with_reducible apply upd_bar0Out
    | with_reducible apply upd_accRow
    | with_reducible apply upd_readOut
    | with_reducible intro _ _
    | split

theorem upd_execOffUnitAccess (acc) (addr) (val) (h : Upd B r s) (hB : within 2142484378 B) : UpdOut B r (execOffUnitAccess acc addr val s) := by
  unfold execOffUnitAccess
  repeat' first
    | exact within_trans (by decide) hB
    | with_reducible assumption
    | with_reducible apply upd_accRow
    | with_reducible apply upd_access
    | with_reducible intro _ _
    | split

theorem upd_execBroadcastRead (acc) (addr) (h : Upd B r s) (hB : within 4242 B) : UpdOut B r (execBroadcastRead acc addr s) := by
  unfold execBroadcastRead
  repeat' first
    | exact within_trans (by decide) hB
    | with_reducible assumption
    | with_reducible apply upd_accRow
    | with_reducible apply upd_readOut
    | with_reducible intro _ _
    | split

theorem upd_execUnassignedOffsetAccess (acc) (addr) (val) (h : Upd B r s) (hB : within 2142484378 B) : UpdOut B r (execUnassignedOffsetAccess acc addr val s) := by
  unfold execUnassignedOffsetAccess
  repeat' first
    | exact within_trans (by decide) hB
    | with_reducible assumption
    | with_reducible apply upd_accRow
    | with_reducible apply upd_access
    | with_reducible intro _ _
    | split

theorem upd_execRecalibrationStart (acc) (val) (h : Upd B r s) (hB : within 2142484378 B) : UpdOut B r (execRecalibrationStart acc val s) := by
  unfold execRecalibrationStart
  repeat' first
    | exact within_trans (by decide) hB
    | with_reducible assumption
    | with_reducible apply upd_accRow
    | with_reducible apply upd_busWrite
    | with_reducible intro _ _

theorem upd_execRetireClear (acc) (unit) (h : Upd B r s) (hB : within 16777234 B) : UpdOut B r (execRetireClear acc unit s) := by
  unfold execRetireClear
  repeat' first
    | exact within_trans (by decide) hB
    | with_reducible assumption
    | exact updOut_fault _
    | with_reducible apply upd_accRow
    | with_reducible apply upd_retireClear
    | with_reducible intro _ _

end Sys2Proof.Machine
end

