-- ==== Sys2Proof/Laws/UpdBalufReg.lean ====
section
/-! SUPPORT. What the functions of Machine/BalufReg.lean can change (Laws/Upd.lean). -/
namespace Sys2Proof.Machine
variable {B : Nat} {r s : State}

theorem upd_loadWordRow (e) (op) (ext) (h : Upd B r s) (hB : within 1645450646 B) : UpdOut B r (loadWordRow e op ext s) := by
  unfold loadWordRow
  repeat' first
    | exact within_trans (by decide) hB
    | with_reducible assumption
    | with_reducible refine updB_go ?_
    | with_reducible refine updB_trapIn _ _ ?_
    | with_reducible exact updB_trap _ _
    | with_reducible refine UpdEP.get ?_ (by assumption)
    | with_reducible refine UpdEP.err ?_ (by assumption)
    | with_reducible apply upd_simpleRow
    | with_reducible apply upd_loadAt
    | with_reducible apply upd_onEng
    | with_reducible apply upd_busRead
    | with_reducible apply upd_spendFar
    | (extract_lets +onlyGivenNames x; refine upd_letP (B := B) (r := r) (x := x) ?_ (fun hx => ?_); rotate_left; clear_value x; revert x; intro _ _; rotate_left; unfold x; clear x)
    | with_reducible exact UpdP.snd (by assumption)
    | (extract_lets +onlyGivenNames x; refine upd_letB (B := B) (r := r) (x := x) ?_ (fun hx => ?_); rotate_left; clear_value x; revert x; intro _ _; rotate_left; unfold x; clear x)
    | (extract_lets +onlyGivenNames x; clear_value x; revert x; intro _)
    | with_reducible intro _ _ _ _
    | split

theorem upd_execLw (e) (h : Upd B r s) (hB : within 1645450646 B) : UpdOut B r (execLw e s) := by
  unfold execLw
  repeat' first
    | exact within_trans (by decide) hB
    | with_reducible assumption
    | with_reducible apply upd_loadWordRow

theorem upd_execLwu (e) (h : Upd B r s) (hB : within 1645450646 B) : UpdOut B r (execLwu e s) := by
  unfold execLwu
  repeat' first
    | exact within_trans (by decide) hB
    | with_reducible assumption
    | with_reducible apply upd_loadWordRow

theorem upd_storeWordRow (e) (op) (h : Upd B r s) (hB : within 2142500766 B) : UpdOut B r (storeWordRow e op s) := by
  unfold storeWordRow
  repeat' first
    | exact within_trans (by decide) hB
    | with_reducible assumption
    | with_reducible refine updOut_next ?_
    | exact updOut_fault _
    | with_reducible refine updB_go ?_
    | with_reducible refine updB_done ?_
    | with_reducible refine updB_jump _ _ ?_
    | with_reducible refine updB_trapIn _ _ ?_
    | with_reducible exact updB_trap _ _
    | with_reducible refine UpdE.get ?_ (by assumption)
    | with_reducible refine UpdE.err ?_ (by assumption)
    | with_reducible apply upd_simpleRow
    | with_reducible apply upd_storeAt_
    | with_reducible apply upd_spendFar
    | with_reducible apply upd_busWrite
    | (extract_lets +onlyGivenNames x; refine upd_letB (B := B) (r := r) (x := x) ?_ (fun hx => ?_); rotate_left; clear_value x; revert x; intro _ _; rotate_left; unfold x; clear x)
    | (extract_lets +onlyGivenNames x; refine upd_let (B := B) (r := r) (x := x) ?_ (fun hx => ?_); rotate_left; clear_value x; revert x; intro _ _; rotate_left; unfold x; clear x)
    | (extract_lets +onlyGivenNames x; clear_value x; revert x; intro _)
    | with_reducible intro _ _ _ _
    | with_reducible intro _ _ _
    | with_reducible intro _ _
    | split

theorem upd_execSw (e) (h : Upd B r s) (hB : within 2142500766 B) : UpdOut B r (execSw e s) := by
  unfold execSw
  repeat' first
    | exact within_trans (by decide) hB
    | with_reducible assumption
    | with_reducible apply upd_storeWordRow

end Sys2Proof.Machine
end

