-- ==== Sys2Proof/Laws/UpdMi.lean ====
section
/-! SUPPORT. What the functions of Machine/Mi.lean can change (Laws/Upd.lean). -/
namespace Sys2Proof.Machine
variable {B : Nat} {r s : State}

theorem upd_coldConfirm (h : Upd B r s) (hB : within 4096 B) : UpdP B r (State.coldConfirm s) := by
  unfold State.coldConfirm
  repeat' first
    | exact within_trans (by decide) hB
    | with_reducible assumption
    | with_reducible refine updP_mk _ ?_
    | with_reducible apply upd_onFlt
    | split

theorem upd_miTunnel (fn) (q) (h : Upd B r s) (hB : within 1245202 B) : Upd B r (State.miTunnel s fn q) := by
  unfold State.miTunnel
  repeat' first
    | exact within_trans (by decide) hB
    | with_reducible assumption
    | with_reducible apply upd_enter

theorem upd_miSet (id) (port) (v) (h : Upd B r s) (hB : within 65552 B) : UpdO B r (State.miSet s id port v) := by
  unfold State.miSet
  repeat' first
    | exact within_trans (by decide) hB
    | with_reducible assumption
    | with_reducible refine updO_some ?_
    | exact updO_none
    | with_reducible apply Upd.field
    | with_reducible apply upd_onHif
    | split

theorem upd_shutdownAll (h : Upd B r s) (hB : within 138477584 B) : Upd B r (State.shutdownAll s) := by
  unfold State.shutdownAll
  repeat' first
    | exact within_trans (by decide) hB
    | with_reducible assumption
    | with_reducible apply upd_shutdown
    | with_reducible refine upd_foldl _ ?_ ?_
    | with_reducible intro _ _ _ _
    | with_reducible intro _ _ _
    | with_reducible intro _ _

theorem upd_regReads (a n) (h : Upd B r s) (hB : within 4240 B) : UpdP B r (State.regReads s a n) := by
  induction n generalizing s a with
  | zero => exact h
  | succ n ih => exact ih (a + 4) (upd_busRead _ _ h (within_trans (by decide) hB))

theorem upd_miDo (b q) (h : Upd B r s) (hB : within 2147465114 B) : UpdPP B r (State.miDo s b q) := by
  unfold State.miDo
  repeat' first
    | exact within_trans (by decide) hB
    | with_reducible assumption
    | with_reducible exact updPP_mk _ _ (UpdP.snd (upd_coldConfirm h (within_trans (by decide) hB)))
    | with_reducible exact updPP_mk _ _ (UpdP.snd (upd_regReads _ _ h (within_trans (by decide) hB)))
    | with_reducible refine updPP_mk _ _ ?_
    | with_reducible apply upd_busWrite
    | with_reducible apply upd_nvmReset
    | with_reducible apply upd_shutdownAll
    | with_reducible apply upd_onHif
    | with_reducible refine UpdO.get (upd_miSet _ _ _ h (within_trans (by decide) hB)) (by assumption)
    | exact updPP_mk _ _ (UpdP.snd (upd_coldConfirm h (within_trans (by decide) hB)))
    | exact updPP_mk _ _ (UpdP.snd (upd_regReads _ _ h (within_trans (by decide) hB)))
    | (extract_lets +onlyGivenNames x; unfold x; clear x)
    | dsimp only
    | with_reducible exact UpdP.snd (upd_coldConfirm h (within_trans (by decide) hB))
    | with_reducible exact UpdP.snd (upd_regReads _ _ h (within_trans (by decide) hB))
    | split

theorem upd_miServe (y_r) (h : Upd B r s) (hB : within 2147465114 B) : Upd B r (State.miServe s y_r) := by
  unfold State.miServe
  repeat' first
    | exact within_trans (by decide) hB
    | with_reducible assumption
    | with_reducible apply Upd.sent
    | with_reducible apply upd_miTunnel
    | with_reducible refine UpdPP.snd (upd_miDo (h := ?_) (hB := ?_) ..)
    | with_reducible exact UpdPP.snd (by assumption)
    | split

theorem upd_serveHeld (h : Upd B r s) (hB : within 2147465114 B) : Upd B r (State.serveHeld s) := by
  unfold State.serveHeld
  repeat' first
    | exact within_trans (by decide) hB
    | with_reducible assumption
    | with_reducible apply upd_miServe
    | with_reducible apply upd_onHif
    | with_reducible refine upd_foldl _ ?_ ?_
    | with_reducible intro _ _ _
    | split

theorem upd_miArrive (path) (y_r) (h : Upd B r s) (hB : within 2147465114 B) : Upd B r (State.miArrive s path y_r) := by
  unfold State.miArrive
  repeat' first
    | exact within_trans (by decide) hB
    | with_reducible assumption
    | with_reducible apply upd_miServe
    | with_reducible apply upd_onHif
    | split

theorem upd_miInBand (c) (receive) (h : Upd B r s) (hB : within 2147465114 B) : Upd B r (State.miInBand s c receive) := by
  unfold State.miInBand
  repeat' first
    | exact within_trans (by decide) hB
    | with_reducible assumption
    | with_reducible apply upd_complete
    | with_reducible refine UpdPP.snd (upd_miDo (h := ?_) (hB := ?_) ..)
    | with_reducible exact UpdPP.snd (by assumption)
    | split

theorem upd_wakePacket (addr) (y_r) (inEntry) (ms) (h : Upd B r s) (hB : within 2147483546 B) : Upd B r (State.wakePacket s addr y_r inEntry ms) := by
  unfold State.wakePacket
  repeat' first
    | exact within_trans (by decide) hB
    | with_reducible assumption
    | with_reducible apply upd_miArrive
    | with_reducible apply upd_psExit
    | split

theorem upd_execNvmeMiSend (fsn) (h : Upd B r s) (hB : within 2147465114 B) : UpdOut B r (execNvmeMiSend fsn s) := by
  unfold execNvmeMiSend
  repeat' first
    | exact within_trans (by decide) hB
    | with_reducible assumption
    | with_reducible apply upd_adminRow
    | with_reducible apply upd_miInBand
    | with_reducible intro _ _ _

theorem upd_execNvmeMiReceive (fsn) (h : Upd B r s) (hB : within 2147465114 B) : UpdOut B r (execNvmeMiReceive fsn s) := by
  unfold execNvmeMiReceive
  repeat' first
    | exact within_trans (by decide) hB
    | with_reducible assumption
    | with_reducible apply upd_adminRow
    | with_reducible apply upd_miInBand
    | with_reducible intro _ _ _

theorem upd_execReadNvmeMiDataStructure (path) (typ) (port) (ctrl) (h : Upd B r s) (hB : within 2147465114 B) : UpdOut B r (execReadNvmeMiDataStructure path typ port ctrl s) := by
  unfold execReadNvmeMiDataStructure
  repeat' first
    | exact within_trans (by decide) hB
    | with_reducible assumption
    | with_reducible refine updOut_next ?_
    | with_reducible apply upd_miArrive

theorem upd_execNvmSubsystemHealthStatusPoll (path) (clear) (h : Upd B r s) (hB : within 2147465114 B) : UpdOut B r (execNvmSubsystemHealthStatusPoll path clear s) := by
  unfold execNvmSubsystemHealthStatusPoll
  repeat' first
    | exact within_trans (by decide) hB
    | with_reducible assumption
    | with_reducible refine updOut_next ?_
    | with_reducible apply upd_miArrive

theorem upd_execControllerHealthStatusPoll (path) (start) (max) (h : Upd B r s) (hB : within 2147465114 B) : UpdOut B r (execControllerHealthStatusPoll path start max s) := by
  unfold execControllerHealthStatusPoll
  repeat' first
    | exact within_trans (by decide) hB
    | with_reducible assumption
    | with_reducible refine updOut_next ?_
    | with_reducible apply upd_miArrive

theorem upd_execConfigurationGet (path) (id) (port) (h : Upd B r s) (hB : within 2147465114 B) : UpdOut B r (execConfigurationGet path id port s) := by
  unfold execConfigurationGet
  repeat' first
    | exact within_trans (by decide) hB
    | with_reducible assumption
    | with_reducible refine updOut_next ?_
    | with_reducible apply upd_miArrive

theorem upd_execConfigurationSet (path) (id) (port) (val) (h : Upd B r s) (hB : within 2147465114 B) : UpdOut B r (execConfigurationSet path id port val s) := by
  unfold execConfigurationSet
  repeat' first
    | exact within_trans (by decide) hB
    | with_reducible assumption
    | with_reducible refine updOut_next ?_
    | with_reducible apply upd_miArrive

theorem upd_execVpdRead (path) (off) (len) (h : Upd B r s) (hB : within 2147465114 B) : UpdOut B r (execVpdRead path off len s) := by
  unfold execVpdRead
  repeat' first
    | exact within_trans (by decide) hB
    | with_reducible assumption
    | with_reducible refine updOut_next ?_
    | with_reducible apply upd_miArrive

theorem upd_execVpdWrite (path) (off) (data) (h : Upd B r s) (hB : within 2147465114 B) : UpdOut B r (execVpdWrite path off data s) := by
  unfold execVpdWrite
  repeat' first
    | exact within_trans (by decide) hB
    | with_reducible assumption
    | with_reducible refine updOut_next ?_
    | with_reducible apply upd_miArrive

theorem upd_execNvmeMiReset (path) (h : Upd B r s) (hB : within 2147465114 B) : UpdOut B r (execNvmeMiReset path s) := by
  unfold execNvmeMiReset
  repeat' first
    | exact within_trans (by decide) hB
    | with_reducible assumption
    | with_reducible refine updOut_next ?_
    | with_reducible apply upd_miArrive

theorem upd_execNvmeMiShutdown (path) (h : Upd B r s) (hB : within 2147465114 B) : UpdOut B r (execNvmeMiShutdown path s) := by
  unfold execNvmeMiShutdown
  repeat' first
    | exact within_trans (by decide) hB
    | with_reducible assumption
    | with_reducible refine updOut_next ?_
    | with_reducible apply upd_miArrive

theorem upd_execAdminCommandTunnel (path) (fn) (sqe) (h : Upd B r s) (hB : within 2147465114 B) : UpdOut B r (execAdminCommandTunnel path fn sqe s) := by
  unfold execAdminCommandTunnel
  repeat' first
    | exact within_trans (by decide) hB
    | with_reducible assumption
    | with_reducible refine updOut_next ?_
    | with_reducible apply upd_miArrive

theorem upd_execColdResetConfirm (path) (h : Upd B r s) (hB : within 2147465114 B) : UpdOut B r (execColdResetConfirm path s) := by
  unfold execColdResetConfirm
  repeat' first
    | exact within_trans (by decide) hB
    | with_reducible assumption
    | with_reducible refine updOut_next ?_
    | with_reducible apply upd_miArrive

theorem upd_execRegisterRead (path) (sess) (addr) (count) (h : Upd B r s) (hB : within 2147465114 B) : UpdOut B r (execRegisterRead path sess addr count s) := by
  unfold execRegisterRead
  repeat' first
    | exact within_trans (by decide) hB
    | with_reducible assumption
    | with_reducible refine updOut_next ?_
    | with_reducible apply upd_miArrive

theorem upd_execRegisterWrite (path) (sess) (addr) (val) (h : Upd B r s) (hB : within 2147465114 B) : UpdOut B r (execRegisterWrite path sess addr val s) := by
  unfold execRegisterWrite
  repeat' first
    | exact within_trans (by decide) hB
    | with_reducible assumption
    | with_reducible refine updOut_next ?_
    | with_reducible apply upd_miArrive

theorem upd_execSmbusWakePacket (addr) (req) (inEntry) (ms) (h : Upd B r s) (hB : within 2147483546 B) : UpdOut B r (execSmbusWakePacket addr req inEntry ms s) := by
  unfold execSmbusWakePacket
  repeat' first
    | exact within_trans (by decide) hB
    | with_reducible assumption
    | with_reducible refine updOut_next ?_
    | with_reducible apply upd_wakePacket

theorem upd_execDebugAccessPort (addr) (val) (h : Upd B r s) (hB : within 2142484378 B) : UpdOut B r (execDebugAccessPort addr val s) := by
  unfold execDebugAccessPort
  repeat' first
    | exact within_trans (by decide) hB
    | with_reducible assumption
    | with_reducible apply upd_accRow
    | with_reducible apply upd_access
    | with_reducible apply upd_readOut
    | with_reducible apply Upd.sent
    | with_reducible intro _ _
    | split

theorem upd_execMalformedMctpPacket (h : Upd B r s) (hB : within 16 B) : UpdOut B r (execMalformedMctpPacket s) := by
  unfold execMalformedMctpPacket
  repeat' first
    | exact within_trans (by decide) hB
    | with_reducible assumption
    | with_reducible refine updOut_next ?_
    | with_reducible apply upd_raiseEvt

end Sys2Proof.Machine
end

