-- ==== Sys2Proof/Laws/UpdStartUp.lean ====
section
/-! SUPPORT. What the functions of Machine/StartUp.lean can change (Laws/Upd.lean). -/
namespace Sys2Proof.Machine
variable {B : Nat} {r s : State}

theorem upd_boundMissed (h : Upd B r s) (hB : within 16777232 B) : Upd B r (State.boundMissed s) := by
  unfold State.boundMissed
  repeat' first
    | exact within_trans (by decide) hB
    | with_reducible assumption
    | with_reducible apply upd_raiseEvt
    | with_reducible apply upd_onLvl
    | (extract_lets +onlyGivenNames x; refine upd_let (B := B) (r := r) (x := x) ?_ (fun hx => ?_); rotate_left; clear_value x; revert x; intro _ _; rotate_left; unfold x; clear x)
    | (extract_lets +onlyGivenNames x; clear_value x; revert x; intro _)
    | split

theorem upd_cutJournal (o) (h : Upd B r s) (hB : within 4199442 B) : Upd B r (State.cutJournal s o) := by
  unfold State.cutJournal
  repeat' first
    | exact within_trans (by decide) hB
    | with_reducible assumption
    | with_reducible apply upd_raiseFault
    | with_reducible apply upd_raiseEvt
    | with_reducible apply upd_onJnl
    | split

theorem upd_factoryBad (ch) (lun) (l) (h : Upd B r s) (hB : within 134217728 B) : Upd B r (State.factoryBad s ch lun l) := by
  unfold State.factoryBad
  repeat' first
    | exact within_trans (by decide) hB
    | with_reducible assumption
    | with_reducible apply upd_onChunk
    | with_reducible refine upd_foldl _ ?_ ?_
    | with_reducible intro _ _ _

theorem upd_failUnits (l) (h : Upd B r s) (hB : within 34805010 B) : Upd B r (State.failUnits s l) := by
  unfold State.failUnits
  repeat' first
    | exact within_trans (by decide) hB
    | with_reducible assumption
    | with_reducible apply upd_onUnit
    | with_reducible apply upd_fenceUnit
    | with_reducible apply upd_raiseFault
    | with_reducible refine upd_foldl _ ?_ ?_
    | with_reducible intro _ _ _

theorem upd_firstSample (h : Upd B r s) (hB : within 4096 B) : Upd B r (State.firstSample s) := by
  unfold State.firstSample
  repeat' first
    | exact within_trans (by decide) hB
    | with_reducible assumption
    | with_reducible apply upd_onFlt
    | split

theorem upd_pageLoaded (p) (h : Upd B r s) (hB : within 1048576 B) : Upd B r (State.pageLoaded s p) := by
  unfold State.pageLoaded
  repeat' first
    | exact within_trans (by decide) hB
    | with_reducible assumption
    | with_reducible apply upd_onMap
    | with_reducible intro _ _ _ _
    | with_reducible intro _ _ _
    | with_reducible intro _ _

theorem upd_loadTick (h : Upd B r s) (hB : within 1048576 B) : Upd B r (State.loadTick s) := by
  unfold State.loadTick
  repeat' first
    | exact within_trans (by decide) hB
    | with_reducible assumption
    | with_reducible apply upd_pageLoaded
    | with_reducible apply upd_onMap
    | (extract_lets +onlyGivenNames x; refine upd_let (B := B) (r := r) (x := x) ?_ (fun hx => ?_); rotate_left; clear_value x; revert x; intro _ _; rotate_left; unfold x; clear x)
    | (extract_lets +onlyGivenNames x; clear_value x; revert x; intro _)
    | with_reducible intro _ _ _ _
    | with_reducible intro _ _ _
    | with_reducible intro _ _
    | split

theorem upd_showCaps (q) (h : Upd B r s) (hB : within 134217728 B) : Upd B r (State.showCaps s q) := by
  unfold State.showCaps
  repeat' first
    | exact within_trans (by decide) hB
    | with_reducible assumption
    | with_reducible apply upd_onMed

theorem upd_jtagIns (ins) (val) (h : Upd B r s) (hB : within 16777218 B) : Upd B r (State.jtagIns s ins val) := by
  unfold State.jtagIns
  repeat' first
    | exact within_trans (by decide) hB
    | with_reducible assumption
    | with_reducible apply Upd.sent
    | with_reducible apply upd_onLvl

theorem upd_jtagSample (ins) (pins) (h : Upd B r s) (hB : within 16777218 B) : Upd B r (State.jtagSample s ins pins) := by
  unfold State.jtagSample
  repeat' first
    | exact within_trans (by decide) hB
    | with_reducible assumption
    | with_reducible apply upd_jtagIns
    | with_reducible apply upd_onLvl

theorem upd_jtagDrive (ins) (pins) (h : Upd B r s) (hB : within 16777218 B) : Upd B r (State.jtagDrive s ins pins) := by
  unfold State.jtagDrive
  repeat' first
    | exact within_trans (by decide) hB
    | with_reducible assumption
    | with_reducible apply Upd.sent
    | with_reducible apply upd_jtagIns
    | with_reducible apply upd_jtagSample
    | with_reducible refine upd_foldl _ ?_ ?_
    | with_reducible intro _ _ _
    | split

theorem upd_logPowerOn (h : Upd B r s) (hB : within 25600 B) : Upd B r (State.logPowerOn s) := by
  unfold State.logPowerOn
  repeat' first
    | exact within_trans (by decide) hB
    | with_reducible assumption
    | with_reducible apply upd_logRec

theorem upd_marchRow (y_r) (h : Upd B r s) (hB : within 536876034 B) : UpdO B r (State.marchRow s y_r) := by
  unfold State.marchRow
  repeat' first
    | exact within_trans (by decide) hB
    | with_reducible assumption
    | with_reducible refine updO_some ?_
    | exact updO_none
    | with_reducible apply upd_raiseFault
    | with_reducible apply upd_onMemp
    | split

theorem upd_newDie (ch) (lun) (marks) (h : Upd B r s) (hB : within 134217728 B) : Upd B r (State.newDie s ch lun marks) := by
  unfold State.newDie
  repeat' first
    | exact within_trans (by decide) hB
    | with_reducible assumption
    | with_reducible apply upd_onMed

theorem upd_riseTo (n) (h : Upd B r s) (hB : within 18048018 B) : Upd B r (State.riseTo s n) := by
  unfold State.riseTo
  repeat' first
    | exact within_trans (by decide) hB
    | with_reducible assumption
    | with_reducible apply upd_logState
    | with_reducible apply upd_aenAll
    | with_reducible apply upd_onLvl

theorem upd_rise (step) (h : Upd B r s) (hB : within 286483474 B) : Upd B r (State.rise s step) := by
  unfold State.rise
  repeat' first
    | exact within_trans (by decide) hB
    | with_reducible assumption
    | with_reducible apply upd_riseTo
    | with_reducible apply upd_raiseSvn
    | with_reducible apply upd_onLvl
    | with_reducible apply upd_onMap
    | (extract_lets +onlyGivenNames x; refine upd_let (B := B) (r := r) (x := x) ?_ (fun hx => ?_); rotate_left; clear_value x; revert x; intro _ _; rotate_left; unfold x; clear x)
    | (extract_lets +onlyGivenNames x; clear_value x; revert x; intro _)
    | split

theorem upd_skipFuses (l) (h : Upd B r s) (hB : within 536896512 B) : Upd B r (State.skipFuses s l) := by
  unfold State.skipFuses
  repeat' first
    | exact within_trans (by decide) hB
    | with_reducible assumption
    | with_reducible apply upd_logRec
    | with_reducible apply upd_onMemp
    | with_reducible refine upd_foldl _ ?_ ?_
    | with_reducible intro _ _ _
    | split

theorem upd_skipGrown (l) (h : Upd B r s) (hB : within 134243328 B) : Upd B r (State.skipGrown s l) := by
  unfold State.skipGrown
  repeat' first
    | exact within_trans (by decide) hB
    | with_reducible assumption
    | with_reducible apply upd_logRec
    | with_reducible apply upd_onMed
    | (extract_lets +onlyGivenNames x; refine upd_let (B := B) (r := r) (x := x) ?_ (fun hx => ?_); rotate_left; clear_value x; revert x; intro _ _; rotate_left; unfold x; clear x)
    | (extract_lets +onlyGivenNames x; clear_value x; revert x; intro _)
    | with_reducible refine upd_foldl _ ?_ ?_
    | with_reducible intro _ _ _ _
    | with_reducible intro _ _ _
    | with_reducible intro _ _
    | split

theorem upd_startBoot (h : Upd B r s) (hB : within 855643154 B) : Upd B r (State.startBoot s) := by
  unfold State.startBoot
  repeat' first
    | exact within_trans (by decide) hB
    | with_reducible assumption
    | with_reducible apply upd_raiseFault
    | with_reducible apply upd_deriveId
    | with_reducible apply upd_reportImgs
    | with_reducible apply upd_bootEng
    | with_reducible apply upd_onLvl
    | with_reducible apply upd_onSec
    | (extract_lets +onlyGivenNames x; refine upd_let (B := B) (r := r) (x := x) ?_ (fun hx => ?_); rotate_left; clear_value x; revert x; intro _ _; rotate_left; unfold x; clear x)
    | (extract_lets +onlyGivenNames x; clear_value x; revert x; intro _)
    | with_reducible refine upd_foldl _ ?_ ?_
    | with_reducible intro _ _ _
    | split

theorem upd_startCore (h : Upd B r s) (hB : within 75559936 B) : Upd B r (State.startCore s) := by
  unfold State.startCore
  repeat' first
    | exact within_trans (by decide) hB
    | with_reducible assumption
    | with_reducible apply upd_logRec
    | with_reducible apply upd_onFlt
    | with_reducible apply upd_onSched
    | with_reducible apply upd_onPwr
    | with_reducible apply upd_onLog
    | with_reducible apply upd_onGov
    | (extract_lets +onlyGivenNames x; refine upd_let (B := B) (r := r) (x := x) ?_ (fun hx => ?_); rotate_left; clear_value x; revert x; intro _ _; rotate_left; unfold x; clear x)
    | (extract_lets +onlyGivenNames x; clear_value x; revert x; intro _)
    | split

theorem upd_startEvac (h : Upd B r s) (hB : within 1073742592 B) : Upd B r (State.startEvac s) := by
  unfold State.startEvac
  repeat' first
    | exact within_trans (by decide) hB
    | with_reducible assumption
    | with_reducible apply upd_onUnit
    | with_reducible apply upd_onDram
    | with_reducible apply upd_onRetRec
    | split

theorem upd_subFails (n) (h : Upd B r s) (hB : within 5138 B) : Upd B r (State.subFails s n) := by
  unfold State.subFails
  repeat' first
    | exact within_trans (by decide) hB
    | with_reducible assumption
    | with_reducible apply upd_raiseFault
    | with_reducible apply upd_raiseEvt

theorem upd_startDram (i) (min) (h : Upd B r s) (hB : within 1090524954 B) : Upd B r (State.startDram s i min) := by
  unfold State.startDram
  repeat' first
    | exact within_trans (by decide) hB
    | with_reducible assumption
    | with_reducible apply upd_startEvac
    | with_reducible apply Upd.drawn
    | with_reducible apply upd_subFails
    | with_reducible apply upd_raiseFault
    | with_reducible apply upd_raiseEvt
    | with_reducible apply upd_onDram
    | with_reducible apply upd_onLvl
    | (extract_lets +onlyGivenNames x; refine upd_let (B := B) (r := r) (x := x) ?_ (fun hx => ?_); rotate_left; clear_value x; revert x; intro _ _; rotate_left; unfold x; clear x)
    | (extract_lets +onlyGivenNames x; clear_value x; revert x; intro _)
    | with_reducible refine upd_foldl _ ?_ ?_
    | with_reducible intro _ _ _ _
    | with_reducible intro _ _ _
    | with_reducible intro _ _
    | split

theorem upd_startFields (h : Upd B r s) (hB : within 240 B) : Upd B r (State.startFields s) := by
  unfold State.startFields
  exact upd_onEff4 _ (upd_onEff2 _ (upd_onHiLatch _ (Upd.forget keptField h (within_trans (by decide) hB)) (within_trans (by decide) hB)) (within_trans (by decide) hB)) (within_trans (by decide) hB)

theorem upd_startLanding (h : Upd B r s) (hB : within 2097168 B) : Upd B r (State.startLanding s) := by
  unfold State.startLanding
  repeat' first
    | exact within_trans (by decide) hB
    | with_reducible assumption
    | with_reducible apply Upd.field
    | with_reducible apply upd_onLnd
    | with_reducible refine updO_map _ ?_
    | with_reducible refine updOP_map _ ?_
    | with_reducible refine updOPP_map _ ?_
    | with_reducible refine upd_foldl _ ?_ ?_
    | with_reducible intro _ _ _
    | split

theorem upd_startMap (i) (h : Upd B r s) (hB : within 6034450 B) : Upd B r (State.startMap s i) := by
  unfold State.startMap
  repeat' first
    | exact within_trans (by decide) hB
    | with_reducible assumption
    | with_reducible apply upd_cutJournal
    | with_reducible apply upd_onJnl
    | with_reducible apply upd_onMap
    | with_reducible apply upd_onZones
    | with_reducible apply upd_onNss
    | with_reducible refine updO_map _ ?_
    | with_reducible refine updOP_map _ ?_
    | with_reducible refine updOPP_map _ ?_
    | with_reducible refine upd_foldl _ ?_ ?_
    | split

theorem upd_startSys (i) (h : Upd B r s) (hB : within 138441746 B) : Upd B r (State.startSys s i) := by
  unfold State.startSys
  repeat' first
    | exact within_trans (by decide) hB
    | with_reducible assumption
    | with_reducible apply upd_factoryBad
    | with_reducible apply upd_raiseFault
    | with_reducible apply upd_skipGrown
    | with_reducible apply upd_newDie
    | with_reducible apply upd_eraseFree
    | with_reducible apply upd_onMed
    | with_reducible refine upd_foldl _ ?_ ?_
    | with_reducible intro _ _ _
    | split

theorem upd_startMedia (i) (h : Upd B r s) (hB : within 173241618 B) : Upd B r (State.startMedia s i) := by
  unfold State.startMedia
  repeat' first
    | exact within_trans (by decide) hB
    | with_reducible assumption
    | with_reducible apply upd_tailScan
    | with_reducible apply upd_startSys
    | with_reducible apply upd_trainChan
    | with_reducible apply upd_onMed
    | with_reducible refine updO_map _ ?_
    | with_reducible refine updOP_map _ ?_
    | with_reducible refine updOPP_map _ ?_
    | with_reducible refine upd_foldl _ ?_ ?_
    | with_reducible intro _ _ _
    | split

theorem upd_startProgs (h : Upd B r s) (hB : within 33559554 B) : Upd B r (State.startProgs s) := by
  unfold State.startProgs
  repeat' first
    | exact within_trans (by decide) hB
    | with_reducible assumption
    | with_reducible apply upd_raiseFault
    | with_reducible apply upd_onPrg
    | with_reducible refine updO_map _ ?_
    | with_reducible refine updOP_map _ ?_
    | with_reducible refine updOPP_map _ ?_
    | with_reducible refine upd_foldl _ ?_ ?_
    | with_reducible intro _ _ _

theorem upd_startSec (i) (h : Upd B r s) (hB : within 303240466 B) : Upd B r (State.startSec s i) := by
  unfold State.startSec
  repeat' first
    | exact within_trans (by decide) hB
    | with_reducible assumption
    | with_reducible apply upd_raiseFault
    | with_reducible apply upd_onSlot
    | with_reducible apply upd_newSlotKey
    | with_reducible apply upd_kat
    | with_reducible apply upd_onSec
    | with_reducible refine upd_foldl _ ?_ ?_
    | with_reducible intro _ _ _
    | split

theorem upd_startTests (i) (h : Upd B r s) (hB : within 571700498 B) : Upd B r (State.startTests s i) := by
  unfold State.startTests
  repeat' first
    | exact within_trans (by decide) hB
    | with_reducible assumption
    | with_reducible refine UpdO.get ?_ (by assumption)
    | with_reducible apply upd_skipFuses
    | with_reducible apply upd_marchRow
    | with_reducible apply Upd.field
    | with_reducible apply upd_failUnits
    | with_reducible apply upd_onMemp
    | with_reducible exact UpdSP.fst (by assumption)
    | with_reducible intro _ _ _
    | with_reducible refine UpdSP.fst (updSP_foldl _ ?_ ?_)
    | with_reducible refine updSP_mk _ ?_
    | with_reducible exact UpdSP.fst (by assumption)
    | dsimp only
    | split

theorem upd_startTime (h : Upd B r s) (hB : within 2048 B) : Upd B r (State.startTime s) := by
  unfold State.startTime
  repeat' first
    | exact within_trans (by decide) hB
    | with_reducible assumption
    | with_reducible apply upd_resumeFrames
    | with_reducible apply upd_onTime
    | (extract_lets +onlyGivenNames x; refine upd_let (B := B) (r := r) (x := x) ?_ (fun hx => ?_); rotate_left; clear_value x; revert x; intro _ _; rotate_left; unfold x; clear x)
    | (extract_lets +onlyGivenNames x; clear_value x; revert x; intro _)
    | split

theorem upd_startUnits (i) (h : Upd B r s) (hB : within 768 B) : Upd B r (State.startUnits s i) := by
  unfold State.startUnits
  repeat' first
    | exact within_trans (by decide) hB
    | with_reducible assumption
    | with_reducible apply upd_onRetRec
    | with_reducible apply upd_onUnits

theorem upd_startUp (i) (h : Upd B r s) (hB : within 2147483642 B) : Upd B r (State.startUp s i) := by
  unfold State.startUp
  repeat' first
    | exact within_trans (by decide) hB
    | with_reducible assumption
    | with_reducible apply upd_startTime
    | with_reducible apply upd_startUnits
    | with_reducible apply upd_startFields
    | with_reducible apply upd_startCore
    | with_reducible apply upd_raiseEvt
    | with_reducible apply upd_startLanding
    | with_reducible apply upd_startTests
    | with_reducible apply upd_startMedia
    | with_reducible apply upd_startMap
    | with_reducible apply upd_startBoot
    | with_reducible apply upd_startProgs
    | with_reducible apply upd_startSec
    | with_reducible apply upd_startDram
    | with_reducible apply upd_showCaps
    | with_reducible apply upd_logPowerOn
    | with_reducible apply upd_firstSample
    | with_reducible apply upd_onLvl
    | with_reducible apply upd_onPrg
    | with_reducible apply upd_onLocks
    | with_reducible apply upd_onHif
    | (extract_lets +onlyGivenNames x; refine upd_let (B := B) (r := r) (x := x) ?_ (fun hx => ?_); rotate_left; clear_value x; revert x; intro _ _; rotate_left; unfold x; clear x)
    | (extract_lets +onlyGivenNames x; clear_value x; revert x; intro _)
    | with_reducible refine upd_foldl _ ?_ ?_
    | with_reducible intro _ _ _ _
    | with_reducible intro _ _ _
    | with_reducible intro _ _
    | split

theorem upd_testHold (h : Upd B r s) (hB : within 16777216 B) : Upd B r (State.testHold s) := by
  unfold State.testHold
  repeat' first
    | exact within_trans (by decide) hB
    | with_reducible assumption
    | with_reducible apply upd_onLvl

theorem upd_execStartUp (i) (h : Upd B r s) (hB : within 2147483642 B) : UpdOut B r (execStartUp i s) := by
  unfold execStartUp
  repeat' first
    | exact within_trans (by decide) hB
    | with_reducible assumption
    | with_reducible refine updOut_next ?_
    | with_reducible apply upd_testHold
    | with_reducible apply upd_startUp
    | split

theorem upd_execLevelRise (step) (h : Upd B r s) (hB : within 286483474 B) : UpdOut B r (execLevelRise step s) := by
  unfold execLevelRise
  repeat' first
    | exact within_trans (by decide) hB
    | with_reducible assumption
    | with_reducible refine updOut_next ?_
    | with_reducible apply upd_rise

theorem upd_execLevelBoundMissed (h : Upd B r s) (hB : within 16777232 B) : UpdOut B r (execLevelBoundMissed s) := by
  unfold execLevelBoundMissed
  repeat' first
    | exact within_trans (by decide) hB
    | with_reducible assumption
    | with_reducible refine updOut_next ?_
    | with_reducible apply upd_boundMissed

theorem upd_execBypass (h : Upd B r s) (hB : within 16777218 B) : UpdOut B r (execBypass s) := by
  unfold execBypass
  repeat' first
    | exact within_trans (by decide) hB
    | with_reducible assumption
    | with_reducible refine updOut_next ?_
    | with_reducible apply upd_jtagIns

theorem upd_execIdcode (h : Upd B r s) (hB : within 16777218 B) : UpdOut B r (execIdcode s) := by
  unfold execIdcode
  repeat' first
    | exact within_trans (by decide) hB
    | with_reducible assumption
    | with_reducible refine updOut_next ?_
    | with_reducible apply upd_jtagIns

theorem upd_execSamplePreload (pins) (h : Upd B r s) (hB : within 16777218 B) : UpdOut B r (execSamplePreload pins s) := by
  unfold execSamplePreload
  repeat' first
    | exact within_trans (by decide) hB
    | with_reducible assumption
    | with_reducible refine updOut_next ?_
    | with_reducible apply upd_jtagSample

theorem upd_execExtest (pins) (h : Upd B r s) (hB : within 16777218 B) : UpdOut B r (execExtest pins s) := by
  unfold execExtest
  repeat' first
    | exact within_trans (by decide) hB
    | with_reducible assumption
    | with_reducible refine updOut_next ?_
    | with_reducible apply upd_jtagDrive

theorem upd_execExtestPulse (pins) (h : Upd B r s) (hB : within 16777218 B) : UpdOut B r (execExtestPulse pins s) := by
  unfold execExtestPulse
  repeat' first
    | exact within_trans (by decide) hB
    | with_reducible assumption
    | with_reducible refine updOut_next ?_
    | with_reducible apply upd_jtagDrive

theorem upd_execExtestTrain (pins) (h : Upd B r s) (hB : within 16777218 B) : UpdOut B r (execExtestTrain pins s) := by
  unfold execExtestTrain
  repeat' first
    | exact within_trans (by decide) hB
    | with_reducible assumption
    | with_reducible refine updOut_next ?_
    | with_reducible apply upd_jtagDrive

theorem upd_execClamp (h : Upd B r s) (hB : within 16777218 B) : UpdOut B r (execClamp s) := by
  unfold execClamp
  repeat' first
    | exact within_trans (by decide) hB
    | with_reducible assumption
    | with_reducible refine updOut_next ?_
    | with_reducible apply upd_jtagDrive

theorem upd_execHighz (h : Upd B r s) (hB : within 16777218 B) : UpdOut B r (execHighz s) := by
  unfold execHighz
  repeat' first
    | exact within_trans (by decide) hB
    | with_reducible assumption
    | with_reducible refine updOut_next ?_
    | with_reducible apply upd_jtagDrive

end Sys2Proof.Machine
end

