-- ==== Sys2Proof/Laws/UpdFrame.lean ====
section
/-! SUPPORT. What the functions of Machine/Frame.lean can change (Laws/Upd.lean). -/
namespace Sys2Proof.Machine
variable {B : Nat} {r s : State}

theorem upd_ccTick (h : Upd B r s) (hB : within 268435456 B) : Upd B r (State.ccTick s) := by
  unfold State.ccTick
  repeat' first
    | exact within_trans (by decide) hB
    | with_reducible assumption
    | with_reducible apply upd_onSec

theorem upd_engTick (h : Upd B r s) (hB : within 33587216 B) : Upd B r (State.engTick s) := by
  unfold State.engTick
  repeat' first
    | exact within_trans (by decide) hB
    | with_reducible assumption
    | with_reducible apply Upd.field
    | with_reducible apply upd_onSched
    | with_reducible apply upd_onPrg
    | with_reducible refine upd_foldl _ ?_ ?_
    | with_reducible intro _ _ _

theorem upd_haltFatal (h : Upd B r s) (hB : within 69632 B) : Upd B r (State.haltFatal s) := by
  unfold State.haltFatal
  repeat' first
    | exact within_trans (by decide) hB
    | with_reducible assumption
    | with_reducible apply upd_miChange
    | with_reducible apply upd_onFlt
    | with_reducible apply upd_onHif
    | with_reducible refine updO_map _ ?_
    | with_reducible refine updOP_map _ ?_
    | with_reducible refine updOPP_map _ ?_

theorem upd_haltHold (h : Upd B r s) (hB : within 174063616 B) : Upd B r (State.haltHold s) := by
  unfold State.haltHold
  repeat' first
    | exact within_trans (by decide) hB
    | with_reducible assumption
    | with_reducible apply upd_onJnl
    | with_reducible apply upd_onLnd
    | with_reducible apply upd_onMed
    | with_reducible apply upd_onPrg

theorem upd_haltEnds (y_h) (h : Upd B r s) (hB : within 174093312 B) : Upd B r (State.haltEnds s y_h) := by
  unfold State.haltEnds
  repeat' first
    | exact within_trans (by decide) hB
    | with_reducible assumption
    | with_reducible apply upd_logRec
    | with_reducible apply upd_haltHold
    | with_reducible apply upd_onFlt
    | with_reducible refine updO_map _ ?_
    | with_reducible refine updOP_map _ ?_
    | with_reducible refine updOPP_map _ ?_

theorem upd_haltTick (h : Upd B r s) (hB : within 174158848 B) : Upd B r (State.haltTick s) := by
  unfold State.haltTick
  repeat' first
    | exact within_trans (by decide) hB
    | with_reducible assumption
    | with_reducible apply upd_haltFatal
    | with_reducible apply upd_haltEnds
    | split

theorem upd_tickRest (i) (h : Upd B r s) (hB : within 2147483546 B) : Upd B r (State.tickRest s i) := by
  unfold State.tickRest
  repeat' first
    | exact within_trans (by decide) hB
    | with_reducible assumption
    | with_reducible apply upd_finishScans
    | with_reducible apply upd_grantDma
    | with_reducible apply upd_drainEnds
    | with_reducible apply upd_powerTick
    | with_reducible apply upd_countTj
    | with_reducible apply upd_haltTick
    | with_reducible apply upd_shutdownTick
    | with_reducible apply upd_loadTick
    | with_reducible apply upd_sweepTick
    | with_reducible apply upd_reapSegs
    | with_reducible apply upd_metaTick
    | with_reducible apply upd_serveHeld
    | with_reducible apply upd_dstDone
    | with_reducible apply upd_dramTick
    | with_reducible apply upd_rekeyDoneAll
    | with_reducible apply upd_reap
    | with_reducible refine upd_foldl _ ?_ ?_
    | with_reducible intro _ _ _

theorem upd_tickStep4 (h : Upd B r s) (hB : within 98368 B) : Upd B r (State.tickStep4 s) := by
  unfold State.tickStep4
  repeat' first
    | exact within_trans (by decide) hB
    | with_reducible assumption
    | with_reducible apply upd_publishGrants
    | with_reducible apply upd_onEff4
    | with_reducible apply upd_onSched
    | with_reducible apply upd_onHif

theorem upd_tickStep3 (i) (h : Upd B r s) (hB : within 78902290 B) : Upd B r (State.tickStep3 s i) := by
  unfold State.tickStep3
  repeat' first
    | exact within_trans (by decide) hB
    | with_reducible assumption
    | with_reducible apply upd_govTick
    | with_reducible apply upd_rejudge
    | (extract_lets +onlyGivenNames x; refine upd_let (B := B) (r := r) (x := x) ?_ (fun hx => ?_); rotate_left; clear_value x; revert x; intro _ _; rotate_left; unfold x; clear x)
    | (extract_lets +onlyGivenNames x; clear_value x; revert x; intro _)
    | split

theorem upd_quadTick (q) (h : Upd B r s) (hB : within 140509200 B) : Upd B r (State.quadTick s q) := by
  unfold State.quadTick
  repeat' first
    | exact within_trans (by decide) hB
    | with_reducible assumption
    | with_reducible apply upd_showCapEvts
    | with_reducible apply upd_showCaps
    | with_reducible apply upd_tickParity
    | with_reducible apply upd_tickTier
    | with_reducible apply Upd.field

theorem upd_tickStep2 (h : Upd B r s) (hB : within 150175794 B) : Upd B r (State.tickStep2 s) := by
  unfold State.tickStep2
  repeat' first
    | exact within_trans (by decide) hB
    | with_reducible assumption
    | with_reducible apply upd_markAllReady
    | with_reducible apply upd_quadTick
    | with_reducible apply upd_pmDone
    | with_reducible apply upd_onEff2
    | with_reducible apply upd_onSched
    | (extract_lets +onlyGivenNames x; refine upd_let (B := B) (r := r) (x := x) ?_ (fun hx => ?_); rotate_left; clear_value x; revert x; intro _ _; rotate_left; unfold x; clear x)
    | (extract_lets +onlyGivenNames x; clear_value x; revert x; intro _)
    | with_reducible refine upd_foldl _ ?_ ?_
    | with_reducible intro _ _ _ _
    | with_reducible intro _ _ _
    | with_reducible intro _ _

theorem upd_linkPm (l) (h : Upd B r s) (hB : within 65536 B) : Upd B r (State.linkPm s l) := by
  unfold State.linkPm
  repeat' first
    | exact within_trans (by decide) hB
    | with_reducible assumption
    | with_reducible apply upd_onHif
    | (extract_lets +onlyGivenNames x; refine upd_let (B := B) (r := r) (x := x) ?_ (fun hx => ?_); rotate_left; clear_value x; revert x; intro _ _; rotate_left; unfold x; clear x)
    | (extract_lets +onlyGivenNames x; clear_value x; revert x; intro _)
    | with_reducible intro _ _ _ _
    | with_reducible intro _ _ _
    | with_reducible intro _ _
    | split

theorem upd_tickOpen (aon) (h : Upd B r s) (hB : within 2080374034 B) : Upd B r (State.tickOpen s aon) := by
  unfold State.tickOpen
  repeat' first
    | exact within_trans (by decide) hB
    | with_reducible assumption
    | with_reducible apply upd_readOnlyNow
    | with_reducible apply upd_ccTick
    | with_reducible apply upd_engTick
    | with_reducible apply Upd.field
    | with_reducible apply upd_tickChan
    | with_reducible apply upd_linkPm
    | with_reducible apply upd_swapTick
    | with_reducible apply upd_powerDrains
    | with_reducible apply upd_moveQueues
    | with_reducible apply upd_adoptOrphans
    | with_reducible apply upd_replaceEffect
    | with_reducible apply upd_drainBegin
    | with_reducible apply upd_takeGrants
    | with_reducible apply upd_resumeAll
    | with_reducible apply upd_admitLists
    | with_reducible apply upd_raiseUrgency
    | with_reducible apply upd_onTime
    | with_reducible apply upd_onLvl
    | with_reducible apply upd_onMap
    | with_reducible apply upd_onSched
    | with_reducible refine upd_foldl _ ?_ ?_
    | with_reducible intro _ _ _

theorem upd_frameTick (i) (h : Upd B r s) (hB : within 2147483642 B) : Upd B r (State.frameTick s i) := by
  unfold State.frameTick
  repeat' first
    | exact within_trans (by decide) hB
    | with_reducible assumption
    | with_reducible apply upd_tickRest
    | with_reducible apply upd_tickStep4
    | with_reducible apply upd_tickStep3
    | with_reducible apply upd_tickStep2
    | with_reducible apply upd_tickOpen
    | with_reducible apply upd_onTime
    | split

theorem upd_execFrameTick (i) (h : Upd B r s) (hB : within 2147483642 B) : UpdOut B r (execFrameTick i s) := by
  unfold execFrameTick
  repeat' first
    | exact within_trans (by decide) hB
    | with_reducible assumption
    | with_reducible refine updOut_next ?_
    | with_reducible apply upd_frameTick

end Sys2Proof.Machine
end

