-- ==== Sys2Proof/Laws/UpdHealth.lean ====
section
/-! SUPPORT. What the functions of Machine/Health.lean can change (Laws/Upd.lean). -/
namespace Sys2Proof.Machine
variable {B : Nat} {r s : State}

theorem upd_logHealth (h : Upd B r s) (hB : within 29696 B) : Upd B r (State.logHealth s) := by
  unfold State.logHealth
  repeat' first
    | exact within_trans (by decide) hB
    | with_reducible assumption
    | with_reducible apply upd_logRec
    | with_reducible apply upd_onFlt
    | split

theorem upd_evaluate (ring) (h : Upd B r s) (hB : within 29696 B) : Upd B r (State.evaluate s ring) := by
  unfold State.evaluate
  repeat' first
    | exact within_trans (by decide) hB
    | with_reducible assumption
    | with_reducible apply upd_logHealth
    | with_reducible apply upd_onFlt

theorem upd_execHealthEvaluation (ring) (h : Upd B r s) (hB : within 29696 B) : UpdOut B r (execHealthEvaluation ring s) := by
  unfold execHealthEvaluation
  repeat' first
    | exact within_trans (by decide) hB
    | with_reducible assumption
    | with_reducible refine updOut_next ?_
    | with_reducible apply upd_evaluate
    | split

end Sys2Proof.Machine
end

