-- ==== Sys2Proof/Laws/UpdDispatch.lean ====
section
/-! SUPPORT. What the functions of Machine/Dispatch.lean can change (Laws/Upd.lean). -/
namespace Sys2Proof.Machine
variable {B : Nat} {r s : State}

theorem upd_exec (i : Instr) (h : Upd B r s) (hB : within 2147483646 B) : UpdOut B r (exec i s) := by
  cases i with
  | plainRegisterWrite acc addr val => exact upd_execPlainRegisterWrite _ _ _ h (within_trans (by decide) hB)
  | rcRead acc addr => exact upd_execRcRead _ _ h (within_trans (by decide) hB)
  | loReadLatch acc addr host => exact upd_execLoReadLatch _ _ _ h (within_trans (by decide) hB)
  | offUnitAccess acc addr val => exact upd_execOffUnitAccess _ _ _ h (within_trans (by decide) hB)
  | broadcastRead acc addr => exact upd_execBroadcastRead _ _ h (within_trans (by decide) hB)
  | unassignedOffsetAccess acc addr val => exact upd_execUnassignedOffsetAccess _ _ _ h (within_trans (by decide) hB)
  | fence acc unit arg => exact upd_execFence _ _ _ h (within_trans (by decide) hB)
  | unitReset acc unit arg => exact upd_execUnitReset _ _ _ h (within_trans (by decide) hB)
  | drain acc unit arg => exact upd_execDrain _ _ _ h (within_trans (by decide) hB)
  | resume acc unit arg => exact upd_execResume _ _ _ h (within_trans (by decide) hB)
  | adopt acc unit arg => exact upd_execAdopt _ _ _ h (within_trans (by decide) hB)
  | release acc unit arg => exact upd_execRelease _ _ _ h (within_trans (by decide) hB)
  | selftest acc unit arg => exact upd_execSelftest _ _ _ h (within_trans (by decide) hB)
  | retire acc unit arg => exact upd_execRetire _ _ _ h (within_trans (by decide) hB)
  | unitOperationComplete unit pass tr => exact upd_execUnitOperationComplete _ _ _ h (within_trans (by decide) hB)
  | drainTimeout unit => exact upd_execDrainTimeout _ h (within_trans (by decide) hB)
  | unitPowerRequest acc unit val inEntry bad => exact upd_execUnitPowerRequest _ _ _ _ _ h (within_trans (by decide) hB)
  | frameTick x => exact upd_execFrameTick _ h (within_trans (by decide) hB)
  | listCommit g mask late => exact upd_execListCommit _ _ _ h (within_trans (by decide) hB)
  | apply => exact upd_execApply h (within_trans (by decide) hB)
  | weightWrite acc val => exact upd_execWeightWrite _ _ h (within_trans (by decide) hB)
  | perstAssert port => exact upd_execPerstAssert _ h (within_trans (by decide) hB)
  | perstDeassert port strap => exact upd_execPerstDeassert _ _ h (within_trans (by decide) hB)
  | linkTrained port gen width flit => exact upd_execLinkTrained _ _ _ _ h (within_trans (by decide) hB)
  | linkRetrain port gen width flit => exact upd_execLinkRetrain _ _ _ _ h (within_trans (by decide) hB)
  | linkDown port => exact upd_execLinkDown _ h (within_trans (by decide) hB)
  | hostTransferFailure fsn => exact upd_execHostTransferFailure _ h (within_trans (by decide) hB)
  | doorbellWrite fn q cq val => exact upd_execDoorbellWrite _ _ _ _ h (within_trans (by decide) hB)
  | commandFetch fn sq sqe => exact upd_execCommandFetch _ _ _ h (within_trans (by decide) hB)
  | deleteIoSq fsn => exact upd_execDeleteIoSq _ h (within_trans (by decide) hB)
  | deleteIoCq fsn => exact upd_execDeleteIoCq _ h (within_trans (by decide) hB)
  | createIoSq fsn => exact upd_execCreateIoSq _ h (within_trans (by decide) hB)
  | createIoCq fsn => exact upd_execCreateIoCq _ h (within_trans (by decide) hB)
  | getLogPage fsn => exact upd_execGetLogPage _ h (within_trans (by decide) hB)
  | identify fsn => exact upd_execIdentify _ h (within_trans (by decide) hB)
  | abort fsn => exact upd_execAbort _ h (within_trans (by decide) hB)
  | setFeatures fsn => exact upd_execSetFeatures _ h (within_trans (by decide) hB)
  | getFeatures fsn => exact upd_execGetFeatures _ h (within_trans (by decide) hB)
  | asynchronousEventRequest fsn => exact upd_execAsynchronousEventRequest _ h (within_trans (by decide) hB)
  | namespaceManagement fsn => exact upd_execNamespaceManagement _ h (within_trans (by decide) hB)
  | namespaceAttachment fsn => exact upd_execNamespaceAttachment _ h (within_trans (by decide) hB)
  | firmwareCommit fsn => exact upd_execFirmwareCommit _ h (within_trans (by decide) hB)
  | firmwareImageDownload fsn => exact upd_execFirmwareImageDownload _ h (within_trans (by decide) hB)
  | deviceSelfTest fsn => exact upd_execDeviceSelfTest _ h (within_trans (by decide) hB)
  | directiveSend fsn => exact upd_execDirectiveSend _ h (within_trans (by decide) hB)
  | directiveReceive fsn => exact upd_execDirectiveReceive _ h (within_trans (by decide) hB)
  | virtualizationManagement fsn => exact upd_execVirtualizationManagement _ h (within_trans (by decide) hB)
  | nvmeMiSend fsn => exact upd_execNvmeMiSend _ h (within_trans (by decide) hB)
  | nvmeMiReceive fsn => exact upd_execNvmeMiReceive _ h (within_trans (by decide) hB)
  | formatNvm fsn => exact upd_execFormatNvm _ h (within_trans (by decide) hB)
  | securitySend fsn => exact upd_execSecuritySend _ h (within_trans (by decide) hB)
  | securityReceive fsn => exact upd_execSecurityReceive _ h (within_trans (by decide) hB)
  | sanitizeBlockErase fsn => exact upd_execSanitizeBlockErase _ h (within_trans (by decide) hB)
  | sanitizeCryptoErase fsn => exact upd_execSanitizeCryptoErase _ h (within_trans (by decide) hB)
  | programLoad fsn => exact upd_execProgramLoad _ h (within_trans (by decide) hB)
  | programBind fsn => exact upd_execProgramBind _ h (within_trans (by decide) hB)
  | programUnbind fsn => exact upd_execProgramUnbind _ h (within_trans (by decide) hB)
  | programReplace fsn => exact upd_execProgramReplace _ h (within_trans (by decide) hB)
  | programUnload fsn => exact upd_execProgramUnload _ h (within_trans (by decide) hB)
  | programInventoryRead fsn => exact upd_execProgramInventoryRead _ h (within_trans (by decide) hB)
  | keyBlobInstall fsn => exact upd_execKeyBlobInstall _ h (within_trans (by decide) hB)
  | keyRotation fsn => exact upd_execKeyRotation _ h (within_trans (by decide) hB)
  | keySlotZeroise fsn => exact upd_execKeySlotZeroise _ h (within_trans (by decide) hB)
  | unitCommand fsn => exact upd_execUnitCommand _ h (within_trans (by decide) hB)
  | flush fsn => exact upd_execFlush _ h (within_trans (by decide) hB)
  | write fsn => exact upd_execWrite _ h (within_trans (by decide) hB)
  | read fsn lost crc => exact upd_execRead _ _ _ h (within_trans (by decide) hB)
  | compare fsn lost crc => exact upd_execCompare _ _ _ h (within_trans (by decide) hB)
  | writeZeroes fsn => exact upd_execWriteZeroes _ h (within_trans (by decide) hB)
  | datasetManagement fsn => exact upd_execDatasetManagement _ h (within_trans (by decide) hB)
  | verify fsn lost crc => exact upd_execVerify _ _ _ h (within_trans (by decide) hB)
  | copy fsn lost crc => exact upd_execCopy _ _ _ h (within_trans (by decide) hB)
  | zoneClose fsn => exact upd_execZoneClose _ h (within_trans (by decide) hB)
  | zoneFinish fsn => exact upd_execZoneFinish _ h (within_trans (by decide) hB)
  | zoneOpen fsn => exact upd_execZoneOpen _ h (within_trans (by decide) hB)
  | zoneReset fsn => exact upd_execZoneReset _ h (within_trans (by decide) hB)
  | zoneOffline fsn => exact upd_execZoneOffline _ h (within_trans (by decide) hB)
  | zoneManagementReceive fsn => exact upd_execZoneManagementReceive _ h (within_trans (by decide) hB)
  | zoneAppend fsn => exact upd_execZoneAppend _ h (within_trans (by decide) hB)
  | scan fsn => exact upd_execScan _ h (within_trans (by decide) hB)
  | scanCancel fsn => exact upd_execScanCancel _ h (within_trans (by decide) hB)
  | controllerReset fn => exact upd_execControllerReset _ h (within_trans (by decide) hB)
  | functionLevelReset fn => exact upd_execFunctionLevelReset _ h (within_trans (by decide) hB)
  | nvmSubsystemReset => exact upd_execNvmSubsystemReset h (within_trans (by decide) hB)
  | controllerShutdown fn => exact upd_execControllerShutdown _ h (within_trans (by decide) hB)
  | readNvmeMiDataStructure path typ port ctrl => exact upd_execReadNvmeMiDataStructure _ _ _ _ h (within_trans (by decide) hB)
  | nvmSubsystemHealthStatusPoll path clear => exact upd_execNvmSubsystemHealthStatusPoll _ _ h (within_trans (by decide) hB)
  | controllerHealthStatusPoll path start max => exact upd_execControllerHealthStatusPoll _ _ _ h (within_trans (by decide) hB)
  | configurationGet path id port => exact upd_execConfigurationGet _ _ _ h (within_trans (by decide) hB)
  | configurationSet path id port val => exact upd_execConfigurationSet _ _ _ _ h (within_trans (by decide) hB)
  | vpdRead path off len => exact upd_execVpdRead _ _ _ h (within_trans (by decide) hB)
  | vpdWrite path off data => exact upd_execVpdWrite _ _ _ h (within_trans (by decide) hB)
  | nvmeMiReset path => exact upd_execNvmeMiReset _ h (within_trans (by decide) hB)
  | nvmeMiShutdown path => exact upd_execNvmeMiShutdown _ h (within_trans (by decide) hB)
  | adminCommandTunnel path fn sqe => exact upd_execAdminCommandTunnel _ _ _ h (within_trans (by decide) hB)
  | coldResetConfirm path => exact upd_execColdResetConfirm _ h (within_trans (by decide) hB)
  | registerRead path sess addr count => exact upd_execRegisterRead _ _ _ _ h (within_trans (by decide) hB)
  | registerWrite path sess addr val => exact upd_execRegisterWrite _ _ _ _ h (within_trans (by decide) hB)
  | smbusWakePacket addr req inEntry ms => exact upd_execSmbusWakePacket _ _ _ _ h (within_trans (by decide) hB)
  | getVersion => exact upd_execGetVersion h (within_trans (by decide) hB)
  | getCapabilities => exact upd_execGetCapabilities h (within_trans (by decide) hB)
  | negotiateAlgorithms => exact upd_execNegotiateAlgorithms h (within_trans (by decide) hB)
  | getDigests => exact upd_execGetDigests h (within_trans (by decide) hB)
  | getCertificate off len => exact upd_execGetCertificate _ _ h (within_trans (by decide) hB)
  | challenge nonce => exact upd_execChallenge _ h (within_trans (by decide) hB)
  | getMeasurements nonce => exact upd_execGetMeasurements _ h (within_trans (by decide) hB)
  | keyExchange data => exact upd_execKeyExchange _ h (within_trans (by decide) hB)
  | finish sess auth => exact upd_execFinish _ _ h (within_trans (by decide) hB)
  | endSession sess => exact upd_execEndSession _ h (within_trans (by decide) hB)
  | heartbeat sess => exact upd_execHeartbeat _ h (within_trans (by decide) hB)
  | keyUpdate sess => exact upd_execKeyUpdate _ h (within_trans (by decide) hB)
  | setKik sess key => exact upd_execSetKik _ _ h (within_trans (by decide) hB)
  | clearKik sess => exact upd_execClearKik _ h (within_trans (by decide) hB)
  | setOpkh sess hash => exact upd_execSetOpkh _ _ h (within_trans (by decide) hB)
  | getState sess => exact upd_execGetState _ h (within_trans (by decide) hB)
  | rangeLockGrant fsn => exact upd_execRangeLockGrant _ h (within_trans (by decide) hB)
  | landingAdmit fsn seg wr => exact upd_execLandingAdmit _ _ _ h (within_trans (by decide) hB)
  | landingCommit fsn => exact upd_execLandingCommit _ h (within_trans (by decide) hB)
  | unitHoldGrant fsn => exact upd_execUnitHoldGrant _ h (within_trans (by decide) hB)
  | journalGroupClose gid => exact upd_execJournalGroupClose _ h (within_trans (by decide) hB)
  | engineSwap faults => exact upd_execEngineSwap _ h (within_trans (by decide) hB)
  | warmRestart => exact upd_execWarmRestart h (within_trans (by decide) hB)
  | zoneOfflining q => exact upd_execZoneOfflining _ h (within_trans (by decide) hB)
  | readOnlyTransition q => exact upd_execReadOnlyTransition _ h (within_trans (by decide) hB)
  | fineDemotion unit => exact upd_execFineDemotion _ h (within_trans (by decide) hB)
  | fold q => exact upd_execFold _ h (within_trans (by decide) hB)
  | gcVictimSelection q hook => exact upd_execGcVictimSelection _ _ h (within_trans (by decide) hB)
  | gcCopy unit hook seg lost => exact upd_execGcCopy _ _ _ _ h (within_trans (by decide) hB)
  | victimErase seg => exact upd_execVictimErase _ h (within_trans (by decide) hB)
  | journalPageFlush => exact upd_execJournalPageFlush h (within_trans (by decide) hB)
  | checkpointSweep => exact upd_execCheckpointSweep h (within_trans (by decide) hB)
  | mapPageRebuild page => exact upd_execMapPageRebuild _ h (within_trans (by decide) hB)
  | rebuildByScan q page => exact upd_execRebuildByScan _ _ h (within_trans (by decide) hB)
  | listRead ch k => exact upd_execListRead _ _ h (within_trans (by decide) hB)
  | streamOpen ch k => exact upd_execStreamOpen _ _ h (within_trans (by decide) hB)
  | streamExt ch k => exact upd_execStreamExt _ _ h (within_trans (by decide) hB)
  | streamClose ch k => exact upd_execStreamClose _ _ h (within_trans (by decide) hB)
  | progSlc ch k => exact upd_execProgSlc _ _ h (within_trans (by decide) hB)
  | progQlc ch k => exact upd_execProgQlc _ _ h (within_trans (by decide) hB)
  | eraseSlc ch k => exact upd_execEraseSlc _ _ h (within_trans (by decide) hB)
  | eraseQlc ch k => exact upd_execEraseQlc _ _ h (within_trans (by decide) hB)
  | getFeat ch k => exact upd_execGetFeat _ _ h (within_trans (by decide) hB)
  | setFeat ch k => exact upd_execSetFeat _ _ h (within_trans (by decide) hB)
  | endEntry ch => exact upd_execEndEntry _ h (within_trans (by decide) hB)
  | entryCompletion ch seq fail die => exact upd_execEntryCompletion _ _ _ _ h (within_trans (by decide) hB)
  | operationTimeout ch seq => exact upd_execOperationTimeout _ _ h (within_trans (by decide) hB)
  | caParityError ch k => exact upd_execCaParityError _ _ h (within_trans (by decide) hB)
  | programSuspend ch lun done => exact upd_execProgramSuspend _ _ _ h (within_trans (by decide) hB)
  | suspendResume ch lun => exact upd_execSuspendResume _ _ h (within_trans (by decide) hB)
  | recalibration ch shift eye moved => exact upd_execRecalibration _ _ _ _ h (within_trans (by decide) hB)
  | recalibrationStart acc val => exact upd_execRecalibrationStart _ _ h (within_trans (by decide) hB)
  | codewordDecode ch lun page cw retry tag zeros fixed iter erasures => exact upd_execCodewordDecode _ _ _ _ _ _ _ _ _ _ h (within_trans (by decide) hB)
  | slcLineClose q stripe line => exact upd_execSlcLineClose _ _ _ h (within_trans (by decide) hB)
  | chunkRelocation ch lun chunk fails operator => exact upd_execChunkRelocation _ _ _ _ _ h (within_trans (by decide) hB)
  | flashPatrol q => exact upd_execFlashPatrol _ h (within_trans (by decide) hB)
  | refresh ch lun chunk fails => exact upd_execRefresh _ _ _ _ h (within_trans (by decide) hB)
  | wearLevelCheck q => exact upd_execWearLevelCheck _ h (within_trans (by decide) hB)
  | add e => exact upd_execAdd _ h (within_trans (by decide) hB)
  | sub e => exact upd_execSub _ h (within_trans (by decide) hB)
  | and e => exact upd_execAnd _ h (within_trans (by decide) hB)
  | or e => exact upd_execOr _ h (within_trans (by decide) hB)
  | xor e => exact upd_execXor _ h (within_trans (by decide) hB)
  | andn e => exact upd_execAndn _ h (within_trans (by decide) hB)
  | sll e => exact upd_execSll _ h (within_trans (by decide) hB)
  | srl e => exact upd_execSrl _ h (within_trans (by decide) hB)
  | sra e => exact upd_execSra _ h (within_trans (by decide) hB)
  | ror e => exact upd_execRor _ h (within_trans (by decide) hB)
  | slt e => exact upd_execSlt _ h (within_trans (by decide) hB)
  | sltu e => exact upd_execSltu _ h (within_trans (by decide) hB)
  | min e => exact upd_execMin _ h (within_trans (by decide) hB)
  | max e => exact upd_execMax _ h (within_trans (by decide) hB)
  | minu e => exact upd_execMinu _ h (within_trans (by decide) hB)
  | maxu e => exact upd_execMaxu _ h (within_trans (by decide) hB)
  | addw e => exact upd_execAddw _ h (within_trans (by decide) hB)
  | subw e => exact upd_execSubw _ h (within_trans (by decide) hB)
  | mul e => exact upd_execMul _ h (within_trans (by decide) hB)
  | mulh e => exact upd_execMulh _ h (within_trans (by decide) hB)
  | mulhu e => exact upd_execMulhu _ h (within_trans (by decide) hB)
  | div e => exact upd_execDiv _ h (within_trans (by decide) hB)
  | divu e => exact upd_execDivu _ h (within_trans (by decide) hB)
  | rem e => exact upd_execRem _ h (within_trans (by decide) hB)
  | remu e => exact upd_execRemu _ h (within_trans (by decide) hB)
  | clz e => exact upd_execClz _ h (within_trans (by decide) hB)
  | ctz e => exact upd_execCtz _ h (within_trans (by decide) hB)
  | popc e => exact upd_execPopc _ h (within_trans (by decide) hB)
  | bswap e => exact upd_execBswap _ h (within_trans (by decide) hB)
  | crc32c e => exact upd_execCrc32c _ h (within_trans (by decide) hB)
  | addi e => exact upd_execAddi _ h (within_trans (by decide) hB)
  | andi e => exact upd_execAndi _ h (within_trans (by decide) hB)
  | ori e => exact upd_execOri _ h (within_trans (by decide) hB)
  | xori e => exact upd_execXori _ h (within_trans (by decide) hB)
  | slti e => exact upd_execSlti _ h (within_trans (by decide) hB)
  | sltiu e => exact upd_execSltiu _ h (within_trans (by decide) hB)
  | shi e => exact upd_execShi _ h (within_trans (by decide) hB)
  | lui e => exact upd_execLui _ h (within_trans (by decide) hB)
  | shlori e => exact upd_execShlori _ h (within_trans (by decide) hB)
  | lb e => exact upd_execLb _ h (within_trans (by decide) hB)
  | lbu e => exact upd_execLbu _ h (within_trans (by decide) hB)
  | lh e => exact upd_execLh _ h (within_trans (by decide) hB)
  | lhu e => exact upd_execLhu _ h (within_trans (by decide) hB)
  | lw e => exact upd_execLw _ h (within_trans (by decide) hB)
  | lwu e => exact upd_execLwu _ h (within_trans (by decide) hB)
  | ld e => exact upd_execLd _ h (within_trans (by decide) hB)
  | sb e => exact upd_execSb _ h (within_trans (by decide) hB)
  | sh e => exact upd_execSh _ h (within_trans (by decide) hB)
  | sw e => exact upd_execSw _ h (within_trans (by decide) hB)
  | sd e => exact upd_execSd _ h (within_trans (by decide) hB)
  | beq e => exact upd_execBeq _ h (within_trans (by decide) hB)
  | bne e => exact upd_execBne _ h (within_trans (by decide) hB)
  | blt e => exact upd_execBlt _ h (within_trans (by decide) hB)
  | bge e => exact upd_execBge _ h (within_trans (by decide) hB)
  | bltu e => exact upd_execBltu _ h (within_trans (by decide) hB)
  | bgeu e => exact upd_execBgeu _ h (within_trans (by decide) hB)
  | j e => exact upd_execJ _ h (within_trans (by decide) hB)
  | jal e => exact upd_execJal _ h (within_trans (by decide) hB)
  | jalr e => exact upd_execJalr _ h (within_trans (by decide) hB)
  | loopi e => exact upd_execLoopi _ h (within_trans (by decide) hB)
  | loop e => exact upd_execLoop _ h (within_trans (by decide) hB)
  | sin e => exact upd_execSin _ h (within_trans (by decide) hB)
  | sout e => exact upd_execSout _ h (within_trans (by decide) hB)
  | sskip e => exact upd_execSskip _ h (within_trans (by decide) hB)
  | vand e => exact upd_execVand _ h (within_trans (by decide) hB)
  | vor e => exact upd_execVor _ h (within_trans (by decide) hB)
  | vxor e => exact upd_execVxor _ h (within_trans (by decide) hB)
  | vandn e => exact upd_execVandn _ h (within_trans (by decide) hB)
  | vadd e => exact upd_execVadd _ h (within_trans (by decide) hB)
  | vsub e => exact upd_execVsub _ h (within_trans (by decide) hB)
  | vminu e => exact upd_execVminu _ h (within_trans (by decide) hB)
  | vmaxu e => exact upd_execVmaxu _ h (within_trans (by decide) hB)
  | vcmpeq e => exact upd_execVcmpeq _ h (within_trans (by decide) hB)
  | vcmpgtu e => exact upd_execVcmpgtu _ h (within_trans (by decide) hB)
  | vcmpgt e => exact upd_execVcmpgt _ h (within_trans (by decide) hB)
  | vshuf e => exact upd_execVshuf _ h (within_trans (by decide) hB)
  | vbsl e => exact upd_execVbsl _ h (within_trans (by decide) hB)
  | vsplat e => exact upd_execVsplat _ h (within_trans (by decide) hB)
  | vmovw e => exact upd_execVmovw _ h (within_trans (by decide) hB)
  | vins e => exact upd_execVins _ h (within_trans (by decide) hB)
  | vmask e => exact upd_execVmask _ h (within_trans (by decide) hB)
  | vpopc e => exact upd_execVpopc _ h (within_trans (by decide) hB)
  | vfirst e => exact upd_execVfirst _ h (within_trans (by decide) hB)
  | vcrc e => exact upd_execVcrc _ h (within_trans (by decide) hB)
  | vld e => exact upd_execVld _ h (within_trans (by decide) hB)
  | vst e => exact upd_execVst _ h (within_trans (by decide) hB)
  | vsin e => exact upd_execVsin _ h (within_trans (by decide) hB)
  | vsout e => exact upd_execVsout _ h (within_trans (by decide) hB)
  | vsoutm e => exact upd_execVsoutm _ h (within_trans (by decide) hB)
  | yield e => exact upd_execYield _ h (within_trans (by decide) hB)
  | exit e => exact upd_execExit _ h (within_trans (by decide) hB)
  | balufFence e => exact upd_execBalufFence _ h (within_trans (by decide) hB)
  | xwait e => exact upd_execXwait _ h (within_trans (by decide) hB)
  | enter e => exact upd_execEnter _ h (within_trans (by decide) hB)
  | tret e => exact upd_execTret _ h (within_trans (by decide) hB)
  | mfp e => exact upd_execMfp _ h (within_trans (by decide) hB)
  | mtp e => exact upd_execMtp _ h (within_trans (by decide) hB)
  | xfer e => exact upd_execXfer _ h (within_trans (by decide) hB)
  | cas e => exact upd_execCas _ h (within_trans (by decide) hB)
  | amoadd e => exact upd_execAmoadd _ h (within_trans (by decide) hB)
  | csrr e => exact upd_execCsrr _ h (within_trans (by decide) hB)
  | csrw e => exact upd_execCsrw _ h (within_trans (by decide) hB)
  | scanResident fsn => exact upd_execScanResident _ h (within_trans (by decide) hB)
  | scanStep fsn lost crc => exact upd_execScanStep _ _ _ h (within_trans (by decide) hB)
  | qosHook res => exact upd_execQosHook _ h (within_trans (by decide) hB)
  | hookDeadlineMiss hook q => exact upd_execHookDeadlineMiss _ _ h (within_trans (by decide) hB)
  | sramPatrol => exact upd_execSramPatrol h (within_trans (by decide) hB)
  | dramPatrol => exact upd_execDramPatrol h (within_trans (by decide) hB)
  | declare val => exact upd_execDeclare _ h (within_trans (by decide) hB)
  | hardFaultRepair entry => exact upd_execHardFaultRepair _ h (within_trans (by decide) hB)
  | passStart => exact upd_execPassStart h (within_trans (by decide) hB)
  | passStop => exact upd_execPassStop h (within_trans (by decide) hB)
  | passDone => exact upd_execPassDone h (within_trans (by decide) hB)
  | flipArm => exact upd_execFlipArm h (within_trans (by decide) hB)
  | dramRequest ns req slot => exact upd_execDramRequest _ _ _ h (within_trans (by decide) hB)
  | dramRefresh sub rank => exact upd_execDramRefresh _ _ h (within_trans (by decide) hB)
  | selfRefreshEntry sub => exact upd_execSelfRefreshEntry _ h (within_trans (by decide) hB)
  | setPointRequest val => exact upd_execSetPointRequest _ h (within_trans (by decide) hB)
  | setPointChange => exact upd_execSetPointChange h (within_trans (by decide) hB)
  | dramTracking sub centres => exact upd_execDramTracking _ _ h (within_trans (by decide) hB)
  | postPackageRepair ok => exact upd_execPostPackageRepair _ h (within_trans (by decide) hB)
  | evacuationStart val => exact upd_execEvacuationStart _ h (within_trans (by decide) hB)
  | evacDone => exact upd_execEvacDone h (within_trans (by decide) hB)
  | cipherJob cc done job blk stall => exact upd_execCipherJob _ _ _ _ _ h (within_trans (by decide) hB)
  | knownAnswerTest cc pipe pass => exact upd_execKnownAnswerTest _ _ _ h (within_trans (by decide) hB)
  | drbgReseed cc => exact upd_execDrbgReseed _ h (within_trans (by decide) hB)
  | entropyBlock cc pass => exact upd_execEntropyBlock _ _ h (within_trans (by decide) hB)
  | rekeyPass nsid => exact upd_execRekeyPass _ h (within_trans (by decide) hB)
  | alarm src => exact upd_execAlarm _ h (within_trans (by decide) hB)
  | force acc val => exact upd_execForce _ _ h (within_trans (by decide) hB)
  | raise val => exact upd_execRaise _ h (within_trans (by decide) hB)
  | revoke acc val => exact upd_execRevoke _ _ h (within_trans (by decide) hB)
  | startUp k => exact upd_execStartUp _ h (within_trans (by decide) hB)
  | brownOut => exact upd_execBrownOut h (within_trans (by decide) hB)
  | refclkLoss => exact upd_execRefclkLoss h (within_trans (by decide) hB)
  | drowseEntry group => exact upd_execDrowseEntry _ h (within_trans (by decide) hB)
  | groupWake group bad inEntry => exact upd_execGroupWake _ _ _ h (within_trans (by decide) hB)
  | autonomousPowerStateTransition => exact upd_execAutonomousPowerStateTransition h (within_trans (by decide) hB)
  | powerStateExit src inEntry ms => exact upd_execPowerStateExit _ _ _ h (within_trans (by decide) hB)
  | housekeepingExcursion => exact upd_execHousekeepingExcursion h (within_trans (by decide) hB)
  | pfail => exact upd_execPfail h (within_trans (by decide) hB)
  | powerRestart => exact upd_execPowerRestart h (within_trans (by decide) hB)
  | holdUpTest => exact upd_execHoldUpTest h (within_trans (by decide) hB)
  | holdUpTestStart => exact upd_execHoldUpTestStart h (within_trans (by decide) hB)
  | holdUpTestEnd => exact upd_execHoldUpTestEnd h (within_trans (by decide) hB)
  | holdUpVoltageLow => exact upd_execHoldUpVoltageLow h (within_trans (by decide) hB)
  | powerMeanCheck => exact upd_execPowerMeanCheck h (within_trans (by decide) hB)
  | thermalLoop => exact upd_execThermalLoop h (within_trans (by decide) hB)
  | governorFallback => exact upd_execGovernorFallback h (within_trans (by decide) hB)
  | fallbackExit => exact upd_execFallbackExit h (within_trans (by decide) hB)
  | governorRevert => exact upd_execGovernorRevert h (within_trans (by decide) hB)
  | swap => exact upd_execSwap h (within_trans (by decide) hB)
  | save => exact upd_execSave h (within_trans (by decide) hB)
  | matDefault => exact upd_execMatDefault h (within_trans (by decide) hB)
  | traceStart => exact upd_execTraceStart h (within_trans (by decide) hB)
  | traceStop => exact upd_execTraceStop h (within_trans (by decide) hB)
  | trcDone => exact upd_execTrcDone h (within_trans (by decide) hB)
  | faultCollect => exact upd_execFaultCollect h (within_trans (by decide) hB)
  | faultPulseEnd => exact upd_execFaultPulseEnd h (within_trans (by decide) hB)
  | junctionOverTemperature sensor => exact upd_execJunctionOverTemperature _ h (within_trans (by decide) hB)
  | regCycleAssert => exact upd_execRegCycleAssert h (within_trans (by decide) hB)
  | regCycleRelease => exact upd_execRegCycleRelease h (within_trans (by decide) hB)
  | coldResetArmExpiry => exact upd_execColdResetArmExpiry h (within_trans (by decide) hB)
  | deviceTimeMark => exact upd_execDeviceTimeMark h (within_trans (by decide) hB)
  | logRecordSubmit acc val => exact upd_execLogRecordSubmit _ _ h (within_trans (by decide) hB)
  | repeatRecord => exact upd_execRepeatRecord h (within_trans (by decide) hB)
  | healthEvaluation ring => exact upd_execHealthEvaluation _ h (within_trans (by decide) hB)
  | logRdDataRead acc => exact upd_execLogRdDataRead _ h (within_trans (by decide) hB)
  | levelRise step => exact upd_execLevelRise _ h (within_trans (by decide) hB)
  | levelBoundMissed => exact upd_execLevelBoundMissed h (within_trans (by decide) hB)
  | retireClear acc unit => exact upd_execRetireClear _ _ h (within_trans (by decide) hB)
  | bypass => exact upd_execBypass h (within_trans (by decide) hB)
  | idcode => exact upd_execIdcode h (within_trans (by decide) hB)
  | samplePreload pins => exact upd_execSamplePreload _ h (within_trans (by decide) hB)
  | extest pins => exact upd_execExtest _ h (within_trans (by decide) hB)
  | extestPulse pins => exact upd_execExtestPulse _ h (within_trans (by decide) hB)
  | extestTrain pins => exact upd_execExtestTrain _ h (within_trans (by decide) hB)
  | clamp => exact upd_execClamp h (within_trans (by decide) hB)
  | highz => exact upd_execHighz h (within_trans (by decide) hB)
  | debugAccessPort addr val => exact upd_execDebugAccessPort _ _ h (within_trans (by decide) hB)
  | wakeNDeassert => exact upd_execWakeNDeassert h (within_trans (by decide) hB)
  | vddAonLoss => exact upd_execVddAonLoss h (within_trans (by decide) hB)
  | mr4Read sub hot => exact upd_execMr4Read _ _ h (within_trans (by decide) hB)
  | controllerEnable fn sqSize cqSize => exact upd_execControllerEnable _ _ _ h (within_trans (by decide) hB)
  | malformedMctpPacket => exact upd_execMalformedMctpPacket h (within_trans (by decide) hB)
  | evacuationFirstPhaseEnd => exact upd_execEvacuationFirstPhaseEnd h (within_trans (by decide) hB)

end Sys2Proof.Machine
end

