-- ==== Sys2Proof/Machine/Pins.lean ====
section
/-! DEFINITION. The ball map of the package (chapter 19; R492 to R498): which signal or supply stands on each of the 82 × 82 balls. -/
namespace Sys2Proof.Machine

/-- A ball by row and column, each from 1 to 82 (R492). -/
abbrev Ball := Nat × Nat

/-- Supplies and ground. -/
inductive Supply
  | vss | core | sram | aon | pcie075 | pcie120 | vddq | vccq | v18 | mram
  deriving DecidableEq, Repr

/-- Signals of one flash channel (Table 19.2). -/
inductive FlashPin
  | dq (n : Nat) | dqsT | dqsC | reT | reC | weN | cle | ale | ceN (n : Nat) | wpN
  deriving DecidableEq, Repr

/-- Signals of one DRAM subchannel (Table 19.3). -/
inductive DramPin
  | dq (n : Nat) | cb (n : Nat) | dqsT (n : Nat) | dqsC (n : Nat) | ckT | ckC | csN (n : Nat) | resetN | alertN | zq | ca (n : Nat)
  deriving DecidableEq, Repr

/-- Signals of the PCIe region (R496). -/
inductive PciePin
  | txP (lane : Nat) | txN (lane : Nat) | rxP (lane : Nat) | rxN (lane : Nat) | refclkP | refclkN | perstN (port : Nat)
  deriving DecidableEq, Repr

/-- Sideband, ADC and JTAG balls (Table 19.4). -/
inductive SidePin
  | smbClk | smbDat | pfailN | wakeN | faultN | huTestN | regCycle | bifur | testEn | trstN | tck | tms | tdi | tdo
  | adcIinP | adcIinN | adcVbus | adcVhu | adcTbrd | adcRef | adcGnd
  deriving DecidableEq, Repr

/-- What a ball carries. -/
inductive BallUse
  | supply (x : Supply)
  | flash (ch : Nat) (x : FlashPin)
  | dram (sub : Nat) (x : DramPin)
  | pcie (x : PciePin)
  | side (x : SidePin)
  | nc
  deriving DecidableEq, Repr

/-! ### Flash channels (R494, Table 19.2) -/

/-- The rotation that takes the Q0 region onto the next quadrant's. -/
def turnBall (b : Ball) : Ball := (b.2, 83 - b.1)

/-- The rotation undone. -/
def unturnBall (b : Ball) : Ball := (83 - b.2, b.1)

/-- A rotation made n times. -/
def turns (f : Ball → Ball) : Nat → Ball → Ball
  | 0, b => b
  | n + 1, b => turns f n (f b)

/-- The ball of position (i, j) of a channel's block. -/
def flashBall (ch i j : Nat) : Ball := turns turnBall (ch / 32) (i + 1, 2 * (ch % 32) + j + 1)

/-- A position of Table 19.2: a signal of the channel, or a supply. -/
def flashPos (ch i j : Nat) : BallUse :=
  let sig := fun x => BallUse.flash ch x
  match i, j with
  | 0, 1 => .supply .vccq | 1, 0 => sig (.dq 0) | 1, 1 => sig (.dq 1) | 2, 0 => sig (.dq 2) | 2, 1 => sig (.dq 3)
  | 3, 1 => sig .dqsT | 4, 1 => sig .dqsC | 5, 0 => sig (.dq 4) | 5, 1 => sig (.dq 5) | 6, 0 => sig (.dq 6) | 6, 1 => sig (.dq 7)
  | 7, 1 => .supply .vccq | 8, 0 => sig .reT | 8, 1 => sig .reC | 9, 1 => sig .weN | 10, 0 => sig .cle | 10, 1 => sig .ale
  | 11, 1 => .supply .vccq | 12, 0 => sig (.ceN 0) | 12, 1 => sig (.ceN 1) | 13, 0 => sig (.ceN 2) | 13, 1 => sig (.ceN 3)
  | 14, 1 => .supply .vccq | 15, 0 => sig (.ceN 4) | 15, 1 => sig (.ceN 5) | 16, 0 => sig (.ceN 6) | 16, 1 => sig (.ceN 7)
  | 17, 1 => sig .wpN | _, _ => .supply .vss

/-! ### DRAM subchannels (R495, Table 19.3) -/

/-- The ball of position (a, b) of a subchannel. -/
def dramBall (sub a b : Nat) : Ball := (if sub < 4 then 19 + a else 64 - a, 19 + 11 * (sub % 4) + b)

/-- Data pin k of device d: DQ for devices 0 to 7, CB for 8 and 9. -/
def dramData (d k : Nat) : DramPin := if d < 8 then .dq (4 * d + k) else .cb (4 * (d - 8) + k)

/-- A position of Table 19.3. -/
def dramPos (sub a b : Nat) : BallUse :=
  let sig := fun x => BallUse.dram sub x
  let alt := fun (v : Bool) => BallUse.supply (if v then .vddq else .vss)
  if a < 6 then
    let d := 3 * (a / 2) + b / 4
    if b % 4 = 3 then alt (a % 2 == 1)
    else if b % 4 = 2 then sig (if a % 2 = 0 then .dqsT d else .dqsC d)
    else sig (dramData d (2 * (a % 2) + b % 4))
  else match a, b with
    | 6, 0 => sig (.cb 4) | 6, 1 => sig (.cb 5) | 6, 2 => sig (.dqsT 9) | 6, 3 => alt false | 6, 4 => sig .ckT | 6, 5 => sig .ckC
    | 6, 6 => sig (.csN 0) | 6, 7 => sig (.csN 1) | 6, 8 => sig .resetN | 6, 9 => sig .alertN | 6, _ => sig .zq
    | 7, 0 => sig (.cb 6) | 7, 1 => sig (.cb 7) | 7, 2 => sig (.dqsC 9) | 7, _ => alt (b % 2 == 1)
    | 8, _ => if b < 7 then sig (.ca b) else alt (b % 2 == 0)
    | 9, _ => if b < 7 then sig (.ca (7 + b)) else alt (b % 2 == 1)
    | _, _ => alt (b == 2 || b == 8)

/-! ### PCIe (R496), sideband (R497) and core supplies (R498) -/

/-- The row of a PCIe lane. -/
def laneRow (l : Nat) : Nat := if l < 8 then 30 + l else 38 + l

/-- A ball of rows 30 to 53, columns 19 to 26, by row and column from 0 to 7. -/
def pciePos (r k : Nat) : BallUse :=
  let lane := fun l => match k with
    | 1 => BallUse.pcie (.txP l) | 2 => .pcie (.txN l) | 5 => .pcie (.rxP l) | 6 => .pcie (.rxN l) | _ => .supply .vss
  if r < 38 then lane (r - 30)
  else if 46 ≤ r then lane (r - 38)
  else if r = 39 ∨ r = 40 then .supply .pcie075
  else if r = 41 then .supply .pcie120
  else if r = 42 then match k with
    | 1 => .pcie .refclkP | 2 => .pcie .refclkN | 5 => .pcie (.perstN 0) | 6 => .pcie (.perstN 1) | _ => .supply .vss
  else .supply .vss

/-- Rows 30 to 41 of columns 63 and 64 (Table 19.4). -/
def sidePos (r c : Nat) : BallUse :=
  match r, c with
  | 30, 63 => .side .smbClk | 30, 64 => .side .smbDat | 31, 63 => .side .pfailN | 31, 64 => .side .wakeN
  | 32, 63 => .side .faultN | 32, 64 => .side .huTestN | 33, 63 => .side .regCycle | 33, 64 => .side .bifur
  | 34, 63 => .side .testEn | 34, 64 => .side .trstN | 35, 63 => .side .tck | 35, 64 => .side .tms
  | 36, 63 => .side .tdi | 36, 64 => .side .tdo | 38, 63 => .side .adcIinP | 38, 64 => .side .adcIinN
  | 39, 63 => .side .adcVbus | 39, 64 => .side .adcVhu | 40, 63 => .side .adcTbrd | 40, 64 => .side .adcRef
  | 41, _ => .side .adcGnd | _, _ => .supply .vss

/-- The core region, rows 30 to 53 and columns 27 to 62. -/
def corePos (r c : Nat) : BallUse :=
  .supply (if c < 29 then (if r ≤ 35 then .v18 else if r ≤ 37 then .aon else if r ≤ 41 then .mram else .vss)
    else if (r + c) % 2 = 0 then .vss
    else if c ≤ 32 ∨ 59 ≤ c then .sram else .core)

/-- What a ball in a quadrant's flash region carries, by its place in the Q0 region. -/
def flashAt (q : Nat) (b : Ball) : BallUse := flashPos (32 * q + (b.2 - 1) / 2) (b.1 - 1) ((b.2 - 1) % 2)

/-- What every ball carries, by region (R493, Table 19.1). -/
def ballUse (r c : Nat) : BallUse :=
  if r ≤ 18 ∧ c ≤ 64 then flashAt 0 (r, c)
  else if r ≤ 64 ∧ 65 ≤ c then flashAt 1 (turns unturnBall 1 (r, c))
  else if 65 ≤ r ∧ 19 ≤ c then flashAt 2 (turns unturnBall 2 (r, c))
  else if c ≤ 18 then flashAt 3 (turns unturnBall 3 (r, c))
  else if r ≤ 29 then (if c ≤ 62 then dramPos ((c - 19) / 11) (r - 19) ((c - 19) % 11) else .supply .vss)
  else if 54 ≤ r then (if c ≤ 62 then dramPos (4 + (c - 19) / 11) (64 - r) ((c - 19) % 11) else .supply .vss)
  else if c ≤ 26 then pciePos r (c - 19)
  else if c ≤ 62 then corePos r c
  else if r ≤ 41 then sidePos r c
  else .nc

end Sys2Proof.Machine
end

