-- ==== Sys2Proof/Tests/Slice0.lean ====
section
/-! SUPPORT. Tests of the model: for every statement, states that meet its hypotheses, clause by clause at the ends of their
ranges; words of the engines' instructions written out from chapter 9; and an ill-formed command for each check of
WellFormed. -/
namespace Sys2Proof.Tests
open Sys2Proof.Machine

/-- A state in which the core runs. -/
def up : State := { State.reset with lvl := { core := true } }

/-- A state with one command outstanding. -/
def one (s : State) (c : Cmd) : State := { s with hif := { s.hif with cmds := [c], fsn := c.fsn + 1 } }

/-! ### Register accesses -/

def sel (a : Nat) : State := up.setF F.SYS_UNIT_SEL_UNIT a (accIdx .mgmt)

theorem wit_unitPort0 : accOk .mgmt = true ∧
    (0x104 : W32).toNat % 4 = 0 ∧
    assigned (0x104 : W32).toNat = true ∧
    (sel 0xFFFF).getF F.SYS_UNIT_SEL_UNIT (accIdx .mgmt) = 0xFFFF ∧
    isUnit 0xFFFF = false := by decide

theorem wit_unitPort1 : accOk .mgmt = true ∧
    (0x104 : W32).toNat % 4 = 0 ∧
    assigned (0x104 : W32).toNat = true ∧
    (sel 0x3080).getF F.SYS_UNIT_SEL_UNIT (accIdx .mgmt) = 0x3080 ∧
    isUnit 0x3080 = false := by decide

theorem wit_unitPort2 : accOk .mgmt = true ∧
    (0x104 : W32).toNat % 4 = 0 ∧
    assigned (0x104 : W32).toNat = true ∧
    (sel 0x400C).getF F.SYS_UNIT_SEL_UNIT (accIdx .mgmt) = 0x400C ∧
    isUnit 0x400C = false := by decide

def chOff : State := (up.setF F.FCH_SEL_IDX 3 (accIdx (.eng 0))).onUnit (uChan 3) fun u => { u with st := .retired }

theorem wit_offAccess : chOff.place (.eng 0) (0x800040 : W32).toNat = .off (uChan 3) ∧
    accOk (.eng 0) = true ∧
    (0x800040 : W32).toNat < regEnd := by decide

theorem wit_broadcast : (up.setF F.FCH_SEL_IDX 0xFFF (accIdx .mgmt)).place .mgmt (0x800040 : W32).toNat = .all 3 := by decide

theorem wit_unassigned : assigned (0xFC : W32).toNat = false ∧
    (0xFC : W32).toNat % 4 = 0 ∧
    (0xFC : W32).toNat < regEnd := by decide

def shareReg : Reg := (regAt 0x100020).getD ⟨0, false, []⟩

theorem wit_fieldTypes : (up.storeReg shareReg 0 (up.view 0xFFF 0 shareReg)).isSome = true ∧
    (∀ f ∈ shareReg.flds, f.reg = shareReg.addr) ∧
    (∀ f ∈ shareReg.flds, f.lo < 32) ∧
    shareReg.flds.Pairwise (fun f g => f.lo ≠ g.lo) := by decide

def calVal : W32 := BitVec.ofNat 32 (up.view 0xFFF 0 ((regAt 0x800040).getD ⟨0, false, []⟩))

theorem wit_calStart : up.place .mgmt (0x800040 : W32).toNat = .copy 0 ∧
    F.FCH_CAL_SHIFT_MAX.fits (putBit calVal.toNat 31 true) = true ∧
    F.FCH_CAL_TDELTA.fits (putBit calVal.toNat 31 true) = true ∧
    F.FCH_CAL_PERIOD.fits (putBit calVal.toNat 31 true) = true := by decide

/-! ### The unit tree -/

def ch7 (x : UState) : State := up.onUnit (uChan 7) fun u => { u with st := x }

theorem wit_fence : isUnit (uChan 7) = true ∧
    ((ch7 .up).unit (uChan 7)).run = none ∧
    (ch7 .up).unitState (uChan 7) = .up ∧
    (ch7 .up).lastUp (uChan 7) = false := by decide

theorem wit_unitReset : isUnit (uChan 7) = true ∧
    ((ch7 .fenced).unit (uChan 7)).run = none ∧
    (ch7 .fenced).unitState (uChan 7) = .fenced ∧
    (ch7 .fenced).lastUp (uChan 7) = false := by decide

theorem wit_drain : isUnit (uChan 7) = true ∧
    ((ch7 .up).unit (uChan 7)).run = none ∧
    (ch7 .up).unitState (uChan 7) = .up ∧
    (ch7 .up).lastUp (uChan 7) = false := by decide

theorem wit_resume : isUnit (uChan 7) = true ∧
    ((ch7 .draining).unit (uChan 7)).run = none ∧
    (ch7 .draining).unitState (uChan 7) = .draining ∧
    (ch7 .draining).lastUp (uChan 7) = false := by decide

theorem wit_selftest : isUnit (uChan 7) = true ∧
    ((ch7 .fenced).unit (uChan 7)).run = none ∧
    (ch7 .fenced).unitState (uChan 7) = .fenced ∧
    (ch7 .fenced).lastUp (uChan 7) = false := by decide

theorem wit_retire : isUnit (uChan 7) = true ∧
    ((ch7 .fenced).unit (uChan 7)).run = none ∧
    (ch7 .fenced).unitState (uChan 7) = .fenced ∧
    (ch7 .fenced).lastUp (uChan 7) = false ∧
    (ch7 .fenced).otherRetired (uIdx (uChan 7)) = false := by decide

theorem wit_adopt : up.unitState (uEng (eME 2)) = .up ∧
    up.serverMe 3 = 3 ∧
    (up.servedBy 2).length < 4 := by decide

theorem wit_release : up.serverMe 3 = 3 ∧
    up.unitState (uEng (eME 3)) = .up := by decide

theorem wit_opRefused : up.judgeOp (uChan 7) .resume 0 = some 3 := by decide

def busy (o : UOp) (k : Nat) : State := up.onUnit (uEng 2) fun u => { u with run := some (o, k) }

theorem wit_opBusy : ((busy .drain 0).unit (uEng 2)).run.isSome = true ∧
    ((busy .drain 0).unit (uEng 2)).runFsn = none := by decide

theorem wit_opEnd : ((busy .unitReset 0).unit (uEng 2)).run = some (.unitReset, 0) ∧
    uKind (uEng 2) ≠ 3 := by decide

def drainAt (n : Nat) : State := { (up.onUnit (uEng 2) fun u => { u with st := .draining, run := some (.drain, 0), runAt := 5 }) with time := { frame := n } }

theorem wit_opEndIdle : (busy .drain 0).domainIdle (uEng 2) = true ∧
    ((busy .drain 0).unit (uEng 2)).runFsn = none ∧
    ((busy .fence 0).unit (uEng 2)).run = some (.fence, 0) := by decide

theorem wit_drainEnd : ((drainAt 69).unit (uEng 2)).run = some (.drain, 0) ∧
    ((drainAt 69).unit (uEng 2)).runAt + 64 ≤ (drainAt 69).time.frame ∧
    (drainAt 68).time.frame < ((drainAt 68).unit (uEng 2)).runAt + 64 := by decide

theorem wit_unitPower : ownPwr (uEng 2) = true ∧
    isUnit (uEng 2) = true ∧
    uKind (uEng 2) ≠ 2 ∧ uKind (uEng 2) < 7 ∧
    up.domainIdle (uEng 2) = true ∧
    F.SYS_UNIT_PWR_REQ.of (0x12 : W32).toNat = 2 ∧
    F.SYS_UNIT_PWR_REQ.of (0x11 : W32).toNat = 1 := by decide

/-- A host engine at ring O, in the midst of its program. -/
def stepping : State := up.onEng 2 fun e => { e with ring := 1 }

def downAt (n : Nat) : State := { (stepping.onUnit (uEng 2) fun u => { u with pdown := some (1, 5) }) with time := { frame := n } }

theorem wit_powerDrains : stepping.domainIdle (uEng 2) = false ∧
    ownPwr (uEng 2) = true ∧
    (downAt 69).units.items.map (·.1) = [uEng 2] ∧
    ((downAt 69).unit (uEng 2)).pdown = some (1, 5) ∧
    (downAt 69).domainIdle (uEng 2) = false ∧
    5 + 64 ≤ (downAt 69).time.frame ∧
    (downAt 68).time.frame < 5 + 64 := by decide

theorem wit_retireClear : uEng 2 ∈ ({ up with retRec := [uEng 2] } : State).retRec := by decide

/-! ### The frame and the scheduler -/

theorem wit_frameTick : up.lvl.core = true ∧
    up.pwr.cur ≠ 4 ∧
    up.heldInReset = false ∧
    State.reset.lvl.core = false := by decide

def halted (n : Nat) : State := { up with flt := { halt := some { frame := 0, code := 0x0301, step := n, drained := 0, lost := 0, alarm := false } } }

theorem wit_heldInReset : (halted 4).heldInReset = true ∧
    (halted 4).lvl.core = true := by decide

theorem wit_apply : up.staged.host + up.staged.gc + up.staged.scrub + up.staged.scan + up.staged.journal = 256 ∧
    8 ≤ up.staged.journal ∧
    up.staged.emerg ≤ up.staged.host + up.staged.gc := by decide

def badShares : State := up.setF F.FRM_CLS_SHARE0_HOST 1 0

theorem wit_applyRefused : badShares.staged.host + badShares.staged.gc + badShares.staged.scrub + badShares.staged.scan + badShares.staged.journal ≠ 256 := by decide

def badJournal : State :=
  ((up.setF F.FRM_CLS_SHARE1_JOURNAL 7 0).setF F.FRM_CLS_SHARE0_GC (up.staged.gc + up.staged.journal - 7) 0)

def badEmerg : State := up.setF F.FRM_CLS_SHARE1_GC_EMERG (up.staged.host + up.staged.gc + 1) 0

theorem wit_applyJournal : badJournal.staged.host + badJournal.staged.gc + badJournal.staged.scrub + badJournal.staged.scan + badJournal.staged.journal = 256 ∧
    badJournal.staged.journal = 7 := by decide

theorem wit_applyEmerg : badEmerg.staged.host + badEmerg.staged.gc < badEmerg.staged.emerg := by decide

theorem wit_weight : (0x10000 : W32).toNat % 65536 = 0 ∧
    (0xFFFF : W32).toNat % 65536 ≠ 0 ∧
    risingL up.sched.pendW.items = true := by decide

theorem wit_list : (1 : Nat).testBit 0 = true ∧
    (up.getF F.GRP_LIST_CTL_COMMIT 15).testBit 0 = false := by decide

/-! ### Resets, links, doorbells and the fetch of commands -/

def linked : State := { up with hif := { p0 := { perst := false, up := true, gen := 5, width := 3 }, bifur := true } }

theorem wit_resets : (linked.port 0).up = true ∧
    linked.hif.bifur = true ∧
    up.hif.bifur = false ∧
    linked.lvl.core = true := by decide

theorem wit_links : (linked.port 0).perst = false ∧
    (linked.port 0).up = true := by decide

/-- Function 0 enabled, with an admin and an I/O queue pair. -/
def ctrl0 : Ctrl :=
  { en := true,
    sqs := ⟨[(0, some { size := 32, cq := 0, tail := 1 }), (1, some { size := 16, cq := 1, tail := 1 })]⟩,
    cqs := ⟨[(0, some { size := 32 }), (1, some { size := 16 })]⟩ }

def host : State := { linked with lvl := { core := true, level := 3 }, hif := { linked.hif with ctrls := ⟨[(0, ctrl0)]⟩ } }

theorem wit_doorbell : (host.ctrl 0).en = true ∧
    (host.ctrl 0).sqs.get none 1 = some { size := 16, cq := 1, tail := 1 } ∧
    (host.ctrl 0).sqs.get none 9 = none ∧
    (15 : Nat) < 16 ∧ 16 ≤ (16 : Nat) ∧
    (host.ctrl 0).cqs.get none 1 = some { size := 16 } ∧
    (host.ctrl 0).cqs.get none 9 = none ∧
    (host.ctrl 0).aers = [] := by decide

theorem wit_fetch : (host.ctrl 0).en = true ∧
    host.lvl.core = true ∧
    (host.ctrl 0).sqs.get none 0 = some { size := 32, cq := 0, tail := 1 } ∧
    host.fetchTurn 0 0 = true ∧
    host.hif.cmds = [] ∧
    host.postsStopped = false ∧
    host.hif.fetchStop = false ∧
    host.pwr.cur < 3 ∧
    host.adminStatus 0 true ⟨0x06, 0, 0, 1, 0, 0, 0, 0, 0, [], 4096, 1⟩ = stOk ∧
    host.adminStatus 0 true ⟨0xFF, 0, 0, 0, 0, 0, 0, 0, 0, [], 0, 1⟩ ≠ stOk ∧
    host.ioStatus 0 ⟨2, 0, 1, 0, 0, 0, 0, 0, 0, [], 0, 1⟩ ≠ stOk := by decide

theorem wit_enable : linked.fnExists 0 = true ∧
    (linked.ctrl 0).en = false ∧
    ({ linked with lvl := { core := true, level := 1 } } : State).lvl.level = 1 := by decide

theorem wit_shutdown : (host.ctrl 0).en = true ∧
    host.lastController 0 = true ∧
    (host.outstanding (· == 0)).isEmpty = true ∧
    host.jnl.groups.isEmpty = true := by decide

def moving (p : Phase) : Cmd := { fsn := 1, fn := 0, sq := 1, ph := p, sqe := { opc := 2, nsid := 1 } }

theorem wit_transferFails : (one host (moving .reading)).cmd 1 = some (moving .reading) ∧
    (one host (moving .landing)).cmd 1 = some (moving .landing) ∧
    (moving .reading).mute = false ∧ (moving .reading).tunnel = false ∧
    (one host (moving .landing)).postsStopped = false := by decide

/-- Device time beyond 32 bits. -/
def longUp : State := { up with time := { ms := 2 ^ 33 + 5 } }

theorem wit_bar0 : longUp.fnExists 0 = true ∧
    accOk .mgmt = true := by decide

/-! ### Admin commands -/

/-- An admin command of function 0, FSN 1, from its own queue, with its CDW10 and CDW11. -/
def adm (opc a b : Nat) : Cmd := { fsn := 1, fn := 0, sq := 0, sqe := { opc := opc, cdw10 := a, cdw11 := b } }

/-- A namespace of 4,096 blocks of 4 KiB, attached to function 0. -/
def ns1 : Ns := { nsze := 4096, ncap := 4096, attach := [0], granules := [0], slot := 1 }

def withNs (s : State) : State := { s with nss := ⟨[(1, some ns1)]⟩ }

def hostNs : State := withNs host

theorem wit_createCq : (one hostNs (adm 0x05 (65536 * 15 + 2) 3)).adminCmd (adm 0x05 (65536 * 15 + 2) 3).fsn (adm 0x05 (65536 * 15 + 2) 3).sqe.opc = some (adm 0x05 (65536 * 15 + 2) 3) ∧
    (adm 0x05 (65536 * 15 + 2) 3).mute = false ∧
    (adm 0x05 (65536 * 15 + 2) 3).tunnel = false ∧
    (one hostNs (adm 0x05 (65536 * 15 + 2) 3)).postsStopped = false ∧
    2 ≤ (one hostNs (adm 0x05 (65536 * 15 + 2) 3)).allocatedQ 0 true ∧
    ((one hostNs (adm 0x05 (65536 * 15 + 2) 3)).ctrl 0).cqs.get none 2 = none ∧
    (3 / 65536) < (one hostNs (adm 0x05 (65536 * 15 + 2) 3)).assignedV 0 := by decide

theorem wit_createSq : (one hostNs (adm 0x01 (65536 * 15 + 2) (65536 + 1))).adminCmd (adm 0x01 (65536 * 15 + 2) (65536 + 1)).fsn (adm 0x01 (65536 * 15 + 2) (65536 + 1)).sqe.opc = some (adm 0x01 (65536 * 15 + 2) (65536 + 1)) ∧
    (adm 0x01 (65536 * 15 + 2) (65536 + 1)).mute = false ∧
    (adm 0x01 (65536 * 15 + 2) (65536 + 1)).tunnel = false ∧
    (one hostNs (adm 0x01 (65536 * 15 + 2) (65536 + 1))).postsStopped = false ∧
    2 ≤ (one hostNs (adm 0x01 (65536 * 15 + 2) (65536 + 1))).allocatedQ 0 false ∧
    ((one hostNs (adm 0x01 (65536 * 15 + 2) (65536 + 1))).ctrl 0).sqs.get none 2 = none ∧
    (((one hostNs (adm 0x01 (65536 * 15 + 2) (65536 + 1))).ctrl 0).cqs.get none 1).isSome = true := by decide

theorem wit_deleteCqUsed : (one hostNs (adm 0x04 1 0)).adminCmd (adm 0x04 1 0).fsn (adm 0x04 1 0).sqe.opc = some (adm 0x04 1 0) ∧
    (adm 0x04 1 0).mute = false ∧
    (adm 0x04 1 0).tunnel = false ∧
    (one hostNs (adm 0x04 1 0)).postsStopped = false ∧
    (((one hostNs (adm 0x04 1 0)).ctrl 0).cqs.get none 1).isSome = true := by decide

def hostCq : State := { hostNs with hif := { hostNs.hif with ctrls := ⟨[(0, { ctrl0 with sqs := ⟨[(0, some { size := 32, cq := 0, tail := 1 })]⟩ })]⟩ } }

theorem wit_deleteCq : (one hostCq (adm 0x04 1 0)).adminCmd (adm 0x04 1 0).fsn (adm 0x04 1 0).sqe.opc = some (adm 0x04 1 0) ∧
    (adm 0x04 1 0).mute = false ∧
    (adm 0x04 1 0).tunnel = false ∧
    (one hostCq (adm 0x04 1 0)).postsStopped = false ∧
    (((one hostCq (adm 0x04 1 0)).ctrl 0).cqs.get none 1).isSome = true := by decide

theorem wit_deleteSq : (one hostNs (adm 0x00 1 0)).adminCmd (adm 0x00 1 0).fsn (adm 0x00 1 0).sqe.opc = some (adm 0x00 1 0) ∧
    (adm 0x00 1 0).mute = false ∧
    (adm 0x00 1 0).tunnel = false ∧
    (one hostNs (adm 0x00 1 0)).postsStopped = false ∧
    (((one hostNs (adm 0x00 1 0)).ctrl 0).sqs.get none 1).isSome = true ∧
    (one hostNs (adm 0x00 1 0)).sqCmds 0 1 = [] := by decide

def present (s : State) : State := { s with pwr := { s.pwr with present := true } }
def noIo : State := { hostCq with hif := { hostCq.hif with ctrls := ⟨[(0, { ctrl0 with sqs := ⟨[(0, some { size := 32, cq := 0, tail := 1 })]⟩, cqs := ⟨[(0, some { size := 32 })]⟩ })]⟩ } }

theorem wit_setBad : (one hostNs (adm 0x09 0x13 0)).adminCmd (adm 0x09 0x13 0).fsn (adm 0x09 0x13 0).sqe.opc = some (adm 0x09 0x13 0) ∧
    (adm 0x09 0x13 0).mute = false ∧
    (adm 0x09 0x13 0).tunnel = false ∧
    (one hostNs (adm 0x09 0x13 0)).postsStopped = false ∧
    (one hostNs (adm 0x09 0x13 0)).setStatus (adm 0x09 0x13 0) ≠ stOk := by decide

theorem wit_setWce : (one (present hostNs) (adm 0x09 6 0)).adminCmd (adm 0x09 6 0).fsn (adm 0x09 6 0).sqe.opc = some (adm 0x09 6 0) ∧
    (adm 0x09 6 0).mute = false ∧
    (adm 0x09 6 0).tunnel = false ∧
    (one (present hostNs) (adm 0x09 6 0)).postsStopped = false ∧
    (one (present hostNs) (adm 0x09 6 0)).setStatus (adm 0x09 6 0) = stOk := by decide

theorem wit_setTenant : (one hostNs (adm 0x09 193 5)).adminCmd (adm 0x09 193 5).fsn (adm 0x09 193 5).sqe.opc = some (adm 0x09 193 5) ∧
    (adm 0x09 193 5).mute = false ∧
    (adm 0x09 193 5).tunnel = false ∧
    (one hostNs (adm 0x09 193 5)).postsStopped = false ∧
    (one hostNs (adm 0x09 193 5)).setStatus (adm 0x09 193 5) = stOk := by decide

theorem wit_setBind : (one hostNs ({ adm 0x09 192 8199 with sqe := { opc := 9, nsid := 1, cdw10 := 192, cdw11 := 8199 } })).adminCmd ({ adm 0x09 192 8199 with sqe := { opc := 9, nsid := 1, cdw10 := 192, cdw11 := 8199 } }).fsn ({ adm 0x09 192 8199 with sqe := { opc := 9, nsid := 1, cdw10 := 192, cdw11 := 8199 } }).sqe.opc = some ({ adm 0x09 192 8199 with sqe := { opc := 9, nsid := 1, cdw10 := 192, cdw11 := 8199 } }) ∧
    ({ adm 0x09 192 8199 with sqe := { opc := 9, nsid := 1, cdw10 := 192, cdw11 := 8199 } }).mute = false ∧
    ({ adm 0x09 192 8199 with sqe := { opc := 9, nsid := 1, cdw10 := 192, cdw11 := 8199 } }).tunnel = false ∧
    (one hostNs ({ adm 0x09 192 8199 with sqe := { opc := 9, nsid := 1, cdw10 := 192, cdw11 := 8199 } })).postsStopped = false ∧
    (one hostNs ({ adm 0x09 192 8199 with sqe := { opc := 9, nsid := 1, cdw10 := 192, cdw11 := 8199 } })).setStatus ({ adm 0x09 192 8199 with sqe := { opc := 9, nsid := 1, cdw10 := 192, cdw11 := 8199 } }) = stOk := by decide

theorem wit_setPower : (one hostNs (adm 0x09 2 2)).adminCmd (adm 0x09 2 2).fsn (adm 0x09 2 2).sqe.opc = some (adm 0x09 2 2) ∧
    (adm 0x09 2 2).mute = false ∧
    (adm 0x09 2 2).tunnel = false ∧
    (one hostNs (adm 0x09 2 2)).postsStopped = false ∧
    (one hostNs (adm 0x09 2 2)).setStatus (adm 0x09 2 2) = stOk := by decide

theorem wit_setTemp : (one hostNs (adm 0x09 8 77)).adminCmd (adm 0x09 8 77).fsn (adm 0x09 8 77).sqe.opc = some (adm 0x09 8 77) ∧
    (adm 0x09 8 77).mute = false ∧
    (adm 0x09 8 77).tunnel = false ∧
    (one hostNs (adm 0x09 8 77)).postsStopped = false ∧
    (one hostNs (adm 0x09 8 77)).setStatus (adm 0x09 8 77) = stOk := by decide

theorem wit_setNumQ : (one noIo (adm 0x09 7 262148)).adminCmd (adm 0x09 7 262148).fsn (adm 0x09 7 262148).sqe.opc = some (adm 0x09 7 262148) ∧
    (adm 0x09 7 262148).mute = false ∧
    (adm 0x09 7 262148).tunnel = false ∧
    (one noIo (adm 0x09 7 262148)).postsStopped = false ∧
    (one noIo (adm 0x09 7 262148)).setStatus (adm 0x09 7 262148) = stOk := by decide

theorem wit_setTime : (one hostNs ({ adm 0x09 0x0E 0 with sqe := { opc := 9, cdw10 := 0x0E, data := [1, 2, 3, 4, 5, 6, 0, 0], sgl := 8 } })).adminCmd ({ adm 0x09 0x0E 0 with sqe := { opc := 9, cdw10 := 0x0E, data := [1, 2, 3, 4, 5, 6, 0, 0], sgl := 8 } }).fsn ({ adm 0x09 0x0E 0 with sqe := { opc := 9, cdw10 := 0x0E, data := [1, 2, 3, 4, 5, 6, 0, 0], sgl := 8 } }).sqe.opc = some ({ adm 0x09 0x0E 0 with sqe := { opc := 9, cdw10 := 0x0E, data := [1, 2, 3, 4, 5, 6, 0, 0], sgl := 8 } }) ∧
    ({ adm 0x09 0x0E 0 with sqe := { opc := 9, cdw10 := 0x0E, data := [1, 2, 3, 4, 5, 6, 0, 0], sgl := 8 } }).mute = false ∧
    ({ adm 0x09 0x0E 0 with sqe := { opc := 9, cdw10 := 0x0E, data := [1, 2, 3, 4, 5, 6, 0, 0], sgl := 8 } }).tunnel = false ∧
    (one hostNs ({ adm 0x09 0x0E 0 with sqe := { opc := 9, cdw10 := 0x0E, data := [1, 2, 3, 4, 5, 6, 0, 0], sgl := 8 } })).postsStopped = false ∧
    (one hostNs ({ adm 0x09 0x0E 0 with sqe := { opc := 9, cdw10 := 0x0E, data := [1, 2, 3, 4, 5, 6, 0, 0], sgl := 8 } })).setStatus ({ adm 0x09 0x0E 0 with sqe := { opc := 9, cdw10 := 0x0E, data := [1, 2, 3, 4, 5, 6, 0, 0], sgl := 8 } }) = stOk := by decide

theorem wit_getFeature : (one hostNs (adm 0x0A 0x02 0)).adminCmd (adm 0x0A 0x02 0).fsn (adm 0x0A 0x02 0).sqe.opc = some (adm 0x0A 0x02 0) ∧
    (adm 0x0A 0x02 0).mute = false ∧
    (adm 0x0A 0x02 0).tunnel = false ∧
    (one hostNs (adm 0x0A 0x02 0)).postsStopped = false ∧
    featIds.contains 2 = true ∧
    featPf 2 = false ∧
    bits 2 10 8 = 0 := by decide

theorem wit_getFeatureDefault : (one hostNs (adm 0x0A (2 + 1 * 256) 0)).adminCmd (adm 0x0A (2 + 1 * 256) 0).fsn (adm 0x0A (2 + 1 * 256) 0).sqe.opc = some (adm 0x0A (2 + 1 * 256) 0) ∧
    (adm 0x0A (2 + 1 * 256) 0).mute = false ∧
    (adm 0x0A (2 + 1 * 256) 0).tunnel = false ∧
    (one hostNs (adm 0x0A (2 + 1 * 256) 0)).postsStopped = false ∧
    featIds.contains 2 = true ∧
    featPf 2 = false ∧
    bits (2 + 1 * 256) 10 8 = 1 := by decide

theorem wit_getFeatureSaved : (one hostNs (adm 0x0A (2 + 2 * 256) 0)).adminCmd (adm 0x0A (2 + 2 * 256) 0).fsn (adm 0x0A (2 + 2 * 256) 0).sqe.opc = some (adm 0x0A (2 + 2 * 256) 0) ∧
    (adm 0x0A (2 + 2 * 256) 0).mute = false ∧
    (adm 0x0A (2 + 2 * 256) 0).tunnel = false ∧
    (one hostNs (adm 0x0A (2 + 2 * 256) 0)).postsStopped = false ∧
    featIds.contains 2 = true ∧
    featPf 2 = false ∧
    bits (2 + 2 * 256) 10 8 = 2 := by decide

theorem wit_getFeatureCaps : (one hostNs (adm 0x0A (2 + 3 * 256) 0)).adminCmd (adm 0x0A (2 + 3 * 256) 0).fsn (adm 0x0A (2 + 3 * 256) 0).sqe.opc = some (adm 0x0A (2 + 3 * 256) 0) ∧
    (adm 0x0A (2 + 3 * 256) 0).mute = false ∧
    (adm 0x0A (2 + 3 * 256) 0).tunnel = false ∧
    (one hostNs (adm 0x0A (2 + 3 * 256) 0)).postsStopped = false ∧
    featIds.contains 2 = true ∧
    featPf 2 = false ∧
    bits (2 + 3 * 256) 10 8 = 3 := by decide

theorem wit_getTenant : (one hostNs ({ adm 0x0A 0xC0 0 with sqe := { opc := 0x0A, nsid := 1, cdw10 := 0xC0 } })).adminCmd ({ adm 0x0A 0xC0 0 with sqe := { opc := 0x0A, nsid := 1, cdw10 := 0xC0 } }).fsn ({ adm 0x0A 0xC0 0 with sqe := { opc := 0x0A, nsid := 1, cdw10 := 0xC0 } }).sqe.opc = some ({ adm 0x0A 0xC0 0 with sqe := { opc := 0x0A, nsid := 1, cdw10 := 0xC0 } }) ∧
    ({ adm 0x0A 0xC0 0 with sqe := { opc := 0x0A, nsid := 1, cdw10 := 0xC0 } }).mute = false ∧
    ({ adm 0x0A 0xC0 0 with sqe := { opc := 0x0A, nsid := 1, cdw10 := 0xC0 } }).tunnel = false ∧
    (one hostNs ({ adm 0x0A 0xC0 0 with sqe := { opc := 0x0A, nsid := 1, cdw10 := 0xC0 } })).postsStopped = false ∧
    featIds.contains 0xC0 = true ∧
    featPf 0xC0 = true → (({ adm 0x0A 0xC0 0 with sqe := { opc := 0x0A, nsid := 1, cdw10 := 0xC0 } })).ringO = true ∧
    ((one hostNs ({ adm 0x0A 0xC0 0 with sqe := { opc := 0x0A, nsid := 1, cdw10 := 0xC0 } })).ns 1).isSome = true := by decide

theorem wit_getDefTenant : (one hostNs (adm 0x0A 0xC1 0)).adminCmd (adm 0x0A 0xC1 0).fsn (adm 0x0A 0xC1 0).sqe.opc = some (adm 0x0A 0xC1 0) ∧
    (adm 0x0A 0xC1 0).mute = false ∧
    (adm 0x0A 0xC1 0).tunnel = false ∧
    (one hostNs (adm 0x0A 0xC1 0)).postsStopped = false ∧
    featIds.contains 0xC1 = true ∧
    featPf 0xC1 = true → ((adm 0x0A 0xC1 0)).ringO = true ∧
    ((adm 0x0A 0xC1 0)).tenantFn ≤ 1025 := by decide

def noNs : State := { host with nss := {} }

theorem wit_setFdp : (one noNs ({ adm 0x09 0x1D 1 with sqe := { opc := 9, cdw10 := 0x1D, cdw11 := 1, cdw12 := 1 } })).adminCmd ({ adm 0x09 0x1D 1 with sqe := { opc := 9, cdw10 := 0x1D, cdw11 := 1, cdw12 := 1 } }).fsn ({ adm 0x09 0x1D 1 with sqe := { opc := 9, cdw10 := 0x1D, cdw11 := 1, cdw12 := 1 } }).sqe.opc = some ({ adm 0x09 0x1D 1 with sqe := { opc := 9, cdw10 := 0x1D, cdw11 := 1, cdw12 := 1 } }) ∧
    ({ adm 0x09 0x1D 1 with sqe := { opc := 9, cdw10 := 0x1D, cdw11 := 1, cdw12 := 1 } }).mute = false ∧
    ({ adm 0x09 0x1D 1 with sqe := { opc := 9, cdw10 := 0x1D, cdw11 := 1, cdw12 := 1 } }).tunnel = false ∧
    (one noNs ({ adm 0x09 0x1D 1 with sqe := { opc := 9, cdw10 := 0x1D, cdw11 := 1, cdw12 := 1 } })).postsStopped = false ∧
    (one noNs ({ adm 0x09 0x1D 1 with sqe := { opc := 9, cdw10 := 0x1D, cdw11 := 1, cdw12 := 1 } })).setStatus ({ adm 0x09 0x1D 1 with sqe := { opc := 9, cdw10 := 0x1D, cdw11 := 1, cdw12 := 1 } }) = stOk := by decide

theorem wit_setPower3 : (one hostNs (adm 0x09 2 3)).adminCmd (adm 0x09 2 3).fsn (adm 0x09 2 3).sqe.opc = some (adm 0x09 2 3) ∧
    (adm 0x09 2 3).mute = false ∧
    (adm 0x09 2 3).tunnel = false ∧
    (one hostNs (adm 0x09 2 3)).postsStopped = false ∧
    (one hostNs (adm 0x09 2 3)).setStatus (adm 0x09 2 3) = stOk := by decide

theorem wit_setPower4 : (one hostNs (adm 0x09 2 4)).adminCmd (adm 0x09 2 4).fsn (adm 0x09 2 4).sqe.opc = some (adm 0x09 2 4) ∧
    (adm 0x09 2 4).mute = false ∧
    (adm 0x09 2 4).tunnel = false ∧
    (one hostNs (adm 0x09 2 4)).postsStopped = false ∧
    (one hostNs (adm 0x09 2 4)).setStatus (adm 0x09 2 4) = stOk := by decide

theorem wit_aer : (one hostNs (adm 0x0C 0 0)).adminCmd (adm 0x0C 0 0).fsn (adm 0x0C 0 0).sqe.opc = some (adm 0x0C 0 0) ∧
    (adm 0x0C 0 0).mute = false ∧
    (adm 0x0C 0 0).tunnel = false ∧
    (one hostNs (adm 0x0C 0 0)).postsStopped = false ∧
    ((one hostNs (adm 0x0C 0 0)).ctrl 0).aers.length < 16 ∧
    ((one hostNs (adm 0x0C 0 0)).ctrl 0).aens = [] := by decide

def aenWaits : State := { hostNs with hif := { hostNs.hif with ctrls := ⟨[(0, { ctrl0 with aens := [⟨2, 0, 4⟩] })]⟩ } }

theorem wit_aerEvent : (one aenWaits (adm 0x0C 0 0)).adminCmd (adm 0x0C 0 0).fsn (adm 0x0C 0 0).sqe.opc = some (adm 0x0C 0 0) ∧
    (adm 0x0C 0 0).mute = false ∧
    (adm 0x0C 0 0).tunnel = false ∧
    (one aenWaits (adm 0x0C 0 0)).postsStopped = false ∧
    ((one aenWaits (adm 0x0C 0 0)).ctrl 0).aens = [⟨2, 0, 4⟩] := by decide

theorem wit_abortNone : (one hostNs (adm 0x08 65537 0)).adminCmd (adm 0x08 65537 0).fsn (adm 0x08 65537 0).sqe.opc = some (adm 0x08 65537 0) ∧
    (adm 0x08 65537 0).mute = false ∧
    (adm 0x08 65537 0).tunnel = false ∧
    (one hostNs (adm 0x08 65537 0)).postsStopped = false ∧
    ((one hostNs (adm 0x08 65537 0)).sqCmds 0 1).find? (fun d => d.sqe.cid == 1 && d.fsn != 1) = none := by decide

/-- An admin command beside an I/O command of FSN 2 in queue 1 with CID 7. -/
def beside (c : Cmd) : State :=
  { hostNs with hif := { hostNs.hif with cmds := [c, { fsn := 2, fn := 0, sq := 1, sqe := { opc := 2, cid := 7, nsid := 1 } }] } }

theorem wit_abort : (beside (adm 0x08 (65536 * 7 + 1) 0)).adminCmd (adm 0x08 (65536 * 7 + 1) 0).fsn (adm 0x08 (65536 * 7 + 1) 0).sqe.opc = some (adm 0x08 (65536 * 7 + 1) 0) ∧
    (adm 0x08 (65536 * 7 + 1) 0).mute = false ∧
    (adm 0x08 (65536 * 7 + 1) 0).tunnel = false ∧
    (beside (adm 0x08 (65536 * 7 + 1) 0)).postsStopped = false ∧
    ((beside (adm 0x08 (65536 * 7 + 1) 0)).sqCmds 0 1).find? (fun d => d.sqe.cid == 7 && d.fsn != 1) = some { fsn := 2, fn := 0, sq := 1, sqe := { opc := 2, cid := 7, nsid := 1 } } := by decide

/-- An admin command beside a Read of FSN 2 that has begun. -/
def besideRun (c : Cmd) : State :=
  { hostNs with hif := { hostNs.hif with cmds := [c, { fsn := 2, fn := 0, sq := 1, ph := .reading, sqe := { opc := 2, cid := 7, nsid := 1 } }] } }

theorem wit_abortLate : (besideRun (adm 0x08 (65536 * 7 + 1) 0)).adminCmd (adm 0x08 (65536 * 7 + 1) 0).fsn (adm 0x08 (65536 * 7 + 1) 0).sqe.opc = some (adm 0x08 (65536 * 7 + 1) 0) ∧
    (adm 0x08 (65536 * 7 + 1) 0).mute = false ∧
    (adm 0x08 (65536 * 7 + 1) 0).tunnel = false ∧
    (besideRun (adm 0x08 (65536 * 7 + 1) 0)).postsStopped = false ∧
    ((besideRun (adm 0x08 (65536 * 7 + 1) 0)).sqCmds 0 1).find? (fun d => d.sqe.cid == 7 && d.fsn != 1) = some { fsn := 2, fn := 0, sq := 1, ph := .reading, sqe := { opc := 2, cid := 7, nsid := 1 } } := by decide

theorem wit_selfTestStop : (one { hostNs with hif := { hostNs.hif with dst := 2 } } (adm 0x14 15 0)).adminCmd (adm 0x14 15 0).fsn (adm 0x14 15 0).sqe.opc = some (adm 0x14 15 0) ∧
    (adm 0x14 15 0).mute = false ∧
    (adm 0x14 15 0).tunnel = false ∧
    (one { hostNs with hif := { hostNs.hif with dst := 2 } } (adm 0x14 15 0)).postsStopped = false ∧
    15 % 16 = 15 := by decide

theorem wit_selfTest : (one hostNs (adm 0x14 2 0)).adminCmd (adm 0x14 2 0).fsn (adm 0x14 2 0).sqe.opc = some (adm 0x14 2 0) ∧
    (adm 0x14 2 0).mute = false ∧
    (adm 0x14 2 0).tunnel = false ∧
    (one hostNs (adm 0x14 2 0)).postsStopped = false ∧
    (one hostNs (adm 0x14 2 0)).hif.dst = 0 := by decide

theorem wit_directiveSend : (one hostNs (adm 0x19 0 1)).adminCmd (adm 0x19 0 1).fsn (adm 0x19 0 1).sqe.opc = some (adm 0x19 0 1) ∧
    (adm 0x19 0 1).mute = false ∧
    (adm 0x19 0 1).tunnel = false ∧
    (one hostNs (adm 0x19 0 1)).postsStopped = false ∧
    bits 1 15 8 = 0 := by decide

theorem wit_directiveReceive : (one hostNs (adm 0x1A 0 1)).adminCmd (adm 0x1A 0 1).fsn (adm 0x1A 0 1).sqe.opc = some (adm 0x1A 0 1) ∧
    (adm 0x1A 0 1).mute = false ∧
    (adm 0x1A 0 1).tunnel = false ∧
    (one hostNs (adm 0x1A 0 1)).postsStopped = false ∧
    bits 1 15 8 = 0 := by decide

def flexed : State := { hostNs with hif := { hostNs.hif with bifur := false, flexQ := ⟨[(2, 1)]⟩, flexV := ⟨[(2, 1)]⟩ } }

theorem wit_virt : (one flexed (adm 0x1C (65536 * 2 + 9) 0)).adminCmd (adm 0x1C (65536 * 2 + 9) 0).fsn (adm 0x1C (65536 * 2 + 9) 0).sqe.opc = some (adm 0x1C (65536 * 2 + 9) 0) ∧
    (adm 0x1C (65536 * 2 + 9) 0).mute = false ∧
    (adm 0x1C (65536 * 2 + 9) 0).tunnel = false ∧
    (one flexed (adm 0x1C (65536 * 2 + 9) 0)).postsStopped = false ∧
    (one flexed (adm 0x1C (65536 * 2 + 9) 0)).secondaryOf 0 2 = true ∧
    (one flexed (adm 0x1C (65536 * 2 + 9) 0)).hif.flexQ.get 0 2 ≠ 0 ∧
    (one flexed (adm 0x1C (65536 * 2 + 9) 0)).hif.flexV.get 0 2 ≠ 0 := by decide

theorem wit_virtGive : (one flexed (adm 0x1C (65536 * 2 + 8) 3)).adminCmd (adm 0x1C (65536 * 2 + 8) 3).fsn (adm 0x1C (65536 * 2 + 8) 3).sqe.opc = some (adm 0x1C (65536 * 2 + 8) 3) ∧
    (adm 0x1C (65536 * 2 + 8) 3).mute = false ∧
    (adm 0x1C (65536 * 2 + 8) 3).tunnel = false ∧
    (one flexed (adm 0x1C (65536 * 2 + 8) 3)).postsStopped = false ∧
    (one flexed (adm 0x1C (65536 * 2 + 8) 3)).secondaryOf 0 2 = true ∧
    (one flexed (adm 0x1C (65536 * 2 + 8) 3)).hif.online.get false 2 = false ∧
    bits (65536 * 2 + 8) 10 8 = 0 ∧
    3 ≤ (one flexed (adm 0x1C (65536 * 2 + 8) 3)).flexFreeQ + (one flexed (adm 0x1C (65536 * 2 + 8) 3)).hif.flexQ.get 0 2 := by decide

theorem wit_virtOffline : (one { flexed with hif := { flexed.hif with online := ⟨[(2, true)]⟩ } } (adm 0x1C (65536 * 2 + 7) 0)).adminCmd (adm 0x1C (65536 * 2 + 7) 0).fsn (adm 0x1C (65536 * 2 + 7) 0).sqe.opc = some (adm 0x1C (65536 * 2 + 7) 0) ∧
    (adm 0x1C (65536 * 2 + 7) 0).mute = false ∧
    (adm 0x1C (65536 * 2 + 7) 0).tunnel = false ∧
    (one { flexed with hif := { flexed.hif with online := ⟨[(2, true)]⟩ } } (adm 0x1C (65536 * 2 + 7) 0)).postsStopped = false ∧
    (one { flexed with hif := { flexed.hif with online := ⟨[(2, true)]⟩ } } (adm 0x1C (65536 * 2 + 7) 0)).secondaryOf 0 2 = true := by decide

theorem wit_identify : (one hostNs (adm 0x06 0x02 0)).adminCmd (adm 0x06 0x02 0).fsn (adm 0x06 0x02 0).sqe.opc = some (adm 0x06 0x02 0) ∧
    (adm 0x06 0x02 0).mute = false ∧
    (adm 0x06 0x02 0).tunnel = false ∧
    (one hostNs (adm 0x06 0x02 0)).postsStopped = false := by decide

theorem wit_identifyData : ∃ d, (one hostNs (adm 0x06 0x02 0)).idData (adm 0x06 0x02 0) = .ok d := ⟨_, rfl⟩

theorem wit_identifyCtrl : (one hostNs (adm 0x06 0x01 0)).adminCmd (adm 0x06 0x01 0).fsn (adm 0x06 0x01 0).sqe.opc = some (adm 0x06 0x01 0) ∧
    (adm 0x06 0x01 0).mute = false ∧
    (adm 0x06 0x01 0).tunnel = false ∧
    (one hostNs (adm 0x06 0x01 0)).postsStopped = false := by decide

theorem wit_logPage : (one hostNs ({ adm 0x02 (65536 * 3 + 4) 0 with sqe := { opc := 2, cdw10 := 65536 * 3 + 4, sgl := 16 } })).adminCmd ({ adm 0x02 (65536 * 3 + 4) 0 with sqe := { opc := 2, cdw10 := 65536 * 3 + 4, sgl := 16 } }).fsn ({ adm 0x02 (65536 * 3 + 4) 0 with sqe := { opc := 2, cdw10 := 65536 * 3 + 4, sgl := 16 } }).sqe.opc = some ({ adm 0x02 (65536 * 3 + 4) 0 with sqe := { opc := 2, cdw10 := 65536 * 3 + 4, sgl := 16 } }) ∧
    ({ adm 0x02 (65536 * 3 + 4) 0 with sqe := { opc := 2, cdw10 := 65536 * 3 + 4, sgl := 16 } }).mute = false ∧
    ({ adm 0x02 (65536 * 3 + 4) 0 with sqe := { opc := 2, cdw10 := 65536 * 3 + 4, sgl := 16 } }).tunnel = false ∧
    (one hostNs ({ adm 0x02 (65536 * 3 + 4) 0 with sqe := { opc := 2, cdw10 := 65536 * 3 + 4, sgl := 16 } })).postsStopped = false ∧
    logIds.contains (({ adm 0x02 (65536 * 3 + 4) 0 with sqe := { opc := 2, cdw10 := 65536 * 3 + 4, sgl := 16 } })).lid = true ∧
    (({ adm 0x02 (65536 * 3 + 4) 0 with sqe := { opc := 2, cdw10 := 65536 * 3 + 4, sgl := 16 } })).logStatus 4096 = stOk := by decide

theorem listPage_length (w len : Nat) (h : List Byte) (l : List Nat) : (listPage w len h l).length = len := by
  simp only [listPage, padTo, zeros, List.length_take, List.length_append, List.length_replicate]
  omega

theorem wit_logLength : ((one hostNs ({ adm 0x02 (65536 * 3 + 4) 0 with sqe := { opc := 2, cdw10 := 65536 * 3 + 4, sgl := 16 } })).logPage ({ adm 0x02 (65536 * 3 + 4) 0 with sqe := { opc := 2, cdw10 := 65536 * 3 + 4, sgl := 16 } }) 4).length = 4096 := by
  have h : ¬ 1024 < ((one hostNs ({ adm 0x02 (65536 * 3 + 4) 0 with sqe := { opc := 2, cdw10 := 65536 * 3 + 4, sgl := 16 } })).ctrl ({ adm 0x02 (65536 * 3 + 4) 0 with sqe := { opc := 2, cdw10 := 65536 * 3 + 4, sgl := 16 } }).fn).changedNs.length := by decide
  simp only [State.logPage]
  rw [if_neg h]
  exact listPage_length _ _ _ _

theorem wit_logSmart : (one hostNs ({ adm 0x02 (65536 * 3 + 2) 0 with sqe := { opc := 2, cdw10 := 65536 * 3 + 2, sgl := 16 } })).adminCmd ({ adm 0x02 (65536 * 3 + 2) 0 with sqe := { opc := 2, cdw10 := 65536 * 3 + 2, sgl := 16 } }).fsn ({ adm 0x02 (65536 * 3 + 2) 0 with sqe := { opc := 2, cdw10 := 65536 * 3 + 2, sgl := 16 } }).sqe.opc = some ({ adm 0x02 (65536 * 3 + 2) 0 with sqe := { opc := 2, cdw10 := 65536 * 3 + 2, sgl := 16 } }) ∧
    ({ adm 0x02 (65536 * 3 + 2) 0 with sqe := { opc := 2, cdw10 := 65536 * 3 + 2, sgl := 16 } }).mute = false ∧
    ({ adm 0x02 (65536 * 3 + 2) 0 with sqe := { opc := 2, cdw10 := 65536 * 3 + 2, sgl := 16 } }).tunnel = false ∧
    (one hostNs ({ adm 0x02 (65536 * 3 + 2) 0 with sqe := { opc := 2, cdw10 := 65536 * 3 + 2, sgl := 16 } })).postsStopped = false := by decide

theorem padTo_le (n : Nat) (l : List Byte) : n ≤ (padTo n l).length := by
  simp only [padTo, zeros, List.length_append, List.length_replicate]; omega

theorem logStatus_ok (c : Cmd) (n : Nat) (h0 : c.lpo = 0) (h1 : c.logLen ≤ n) (h2 : 0 < c.logLen) (h3 : sglStatus c.sqe c.logLen = stOk) :
    c.logStatus n = stOk := by
  have h4 : ¬ cdiv n 4 * 4 < c.logLen := by unfold cdiv; omega
  have h5 : ¬ n ≤ 0 := by omega
  simp [Cmd.logStatus, h0, h3, h4, h5, firstBad, stIf]

theorem evidence_le (s : State) (k : Nat) : 2420 ≤ (s.evidenceOf k).length := by
  simp only [State.evidenceOf, List.length_append]
  exact Nat.le_trans (padTo_le _ _) (Nat.le_add_left _ _)

theorem faultPage_le (s : State) (c : Cmd) (h : s.flt.first = none) : 608 ≤ (s.logPage c 0xC2).length := by
  simp only [State.logPage, State.faultPage, h, List.length_append]
  have h1 := padTo_le 64 (leBytes 2 1 ++ leBytes 1 s.flt.hist.length ++ leBytes 1 (b2n s.flt.first.isSome))
  have h2 := padTo_le 512 (s.flt.hist.flatMap HistEnt.bytes)
  have h3 : (zeros 32).length = 32 := by decide
  rw [h] at h1
  omega

theorem zonePage_le (s : State) (c : Cmd) : 4096 ≤ (s.logPage c 0xBF).length := by
  simp only [State.logPage, State.changedZonePage]
  split <;> exact padTo_le _ _

theorem wit_logEvidence : (one hostNs ({ adm 0x02 (65536 * 3 + 0xC0) 0 with sqe := { opc := 2, cdw10 := 65536 * 3 + 0xC0, sgl := 16 } })).adminCmd ({ adm 0x02 (65536 * 3 + 0xC0) 0 with sqe := { opc := 2, cdw10 := 65536 * 3 + 0xC0, sgl := 16 } }).fsn ({ adm 0x02 (65536 * 3 + 0xC0) 0 with sqe := { opc := 2, cdw10 := 65536 * 3 + 0xC0, sgl := 16 } }).sqe.opc = some ({ adm 0x02 (65536 * 3 + 0xC0) 0 with sqe := { opc := 2, cdw10 := 65536 * 3 + 0xC0, sgl := 16 } }) ∧
    ({ adm 0x02 (65536 * 3 + 0xC0) 0 with sqe := { opc := 2, cdw10 := 65536 * 3 + 0xC0, sgl := 16 } }).mute = false ∧
    ({ adm 0x02 (65536 * 3 + 0xC0) 0 with sqe := { opc := 2, cdw10 := 65536 * 3 + 0xC0, sgl := 16 } }).tunnel = false ∧
    (one hostNs ({ adm 0x02 (65536 * 3 + 0xC0) 0 with sqe := { opc := 2, cdw10 := 65536 * 3 + 0xC0, sgl := 16 } })).postsStopped = false ∧
    (({ adm 0x02 (65536 * 3 + 0xC0) 0 with sqe := { opc := 2, cdw10 := 65536 * 3 + 0xC0, sgl := 16 } })).lid = 0xC0 ∧
    (({ adm 0x02 (65536 * 3 + 0xC0) 0 with sqe := { opc := 2, cdw10 := 65536 * 3 + 0xC0, sgl := 16 } })).lpo = 0 := by decide

theorem wit_logSnapshot : (one hostNs ({ adm 0x02 (65536 * 3 + 0xC3) 0 with sqe := { opc := 2, cdw10 := 65536 * 3 + 0xC3, sgl := 16 } })).adminCmd ({ adm 0x02 (65536 * 3 + 0xC3) 0 with sqe := { opc := 2, cdw10 := 65536 * 3 + 0xC3, sgl := 16 } }).fsn ({ adm 0x02 (65536 * 3 + 0xC3) 0 with sqe := { opc := 2, cdw10 := 65536 * 3 + 0xC3, sgl := 16 } }).sqe.opc = some ({ adm 0x02 (65536 * 3 + 0xC3) 0 with sqe := { opc := 2, cdw10 := 65536 * 3 + 0xC3, sgl := 16 } }) ∧
    ({ adm 0x02 (65536 * 3 + 0xC3) 0 with sqe := { opc := 2, cdw10 := 65536 * 3 + 0xC3, sgl := 16 } }).mute = false ∧
    ({ adm 0x02 (65536 * 3 + 0xC3) 0 with sqe := { opc := 2, cdw10 := 65536 * 3 + 0xC3, sgl := 16 } }).tunnel = false ∧
    (one hostNs ({ adm 0x02 (65536 * 3 + 0xC3) 0 with sqe := { opc := 2, cdw10 := 65536 * 3 + 0xC3, sgl := 16 } })).postsStopped = false ∧
    (({ adm 0x02 (65536 * 3 + 0xC3) 0 with sqe := { opc := 2, cdw10 := 65536 * 3 + 0xC3, sgl := 16 } })).lid = 0xC3 ∧
    (({ adm 0x02 (65536 * 3 + 0xC3) 0 with sqe := { opc := 2, cdw10 := 65536 * 3 + 0xC3, sgl := 16 } })).lpo = 0 ∧
    (({ adm 0x02 (65536 * 3 + 0xC3) 0 with sqe := { opc := 2, cdw10 := 65536 * 3 + 0xC3, sgl := 16 } })).logStatus ((one hostNs ({ adm 0x02 (65536 * 3 + 0xC3) 0 with sqe := { opc := 2, cdw10 := 65536 * 3 + 0xC3, sgl := 16 } })).snapPage (one hostNs ({ adm 0x02 (65536 * 3 + 0xC3) 0 with sqe := { opc := 2, cdw10 := 65536 * 3 + 0xC3, sgl := 16 } })).snapNow).length = stOk := by decide

def zonesChanged : State := { hostNs with hif := { hostNs.hif with ctrls := ⟨[(0, { ctrl0 with changedZones := [(1, 5), (2, 6)] })]⟩ } }

theorem wit_logZones : (one zonesChanged ({ adm 0x02 (65536 * 3 + 0xBF) 0 with sqe := { opc := 2, nsid := 1, cdw10 := 65536 * 3 + 0xBF, sgl := 16 } })).adminCmd ({ adm 0x02 (65536 * 3 + 0xBF) 0 with sqe := { opc := 2, nsid := 1, cdw10 := 65536 * 3 + 0xBF, sgl := 16 } }).fsn ({ adm 0x02 (65536 * 3 + 0xBF) 0 with sqe := { opc := 2, nsid := 1, cdw10 := 65536 * 3 + 0xBF, sgl := 16 } }).sqe.opc = some ({ adm 0x02 (65536 * 3 + 0xBF) 0 with sqe := { opc := 2, nsid := 1, cdw10 := 65536 * 3 + 0xBF, sgl := 16 } }) ∧
    ({ adm 0x02 (65536 * 3 + 0xBF) 0 with sqe := { opc := 2, nsid := 1, cdw10 := 65536 * 3 + 0xBF, sgl := 16 } }).mute = false ∧
    ({ adm 0x02 (65536 * 3 + 0xBF) 0 with sqe := { opc := 2, nsid := 1, cdw10 := 65536 * 3 + 0xBF, sgl := 16 } }).tunnel = false ∧
    (one zonesChanged ({ adm 0x02 (65536 * 3 + 0xBF) 0 with sqe := { opc := 2, nsid := 1, cdw10 := 65536 * 3 + 0xBF, sgl := 16 } })).postsStopped = false ∧
    (({ adm 0x02 (65536 * 3 + 0xBF) 0 with sqe := { opc := 2, nsid := 1, cdw10 := 65536 * 3 + 0xBF, sgl := 16 } })).rae = false := by decide

theorem wit_logFirst : (one hostNs ({ adm 0x02 (65536 * 151 + 256 + 0xC2) 0 with sqe := { opc := 2, cdw10 := 65536 * 151 + 256 + 0xC2, sgl := 608 } })).adminCmd ({ adm 0x02 (65536 * 151 + 256 + 0xC2) 0 with sqe := { opc := 2, cdw10 := 65536 * 151 + 256 + 0xC2, sgl := 608 } }).fsn ({ adm 0x02 (65536 * 151 + 256 + 0xC2) 0 with sqe := { opc := 2, cdw10 := 65536 * 151 + 256 + 0xC2, sgl := 608 } }).sqe.opc = some ({ adm 0x02 (65536 * 151 + 256 + 0xC2) 0 with sqe := { opc := 2, cdw10 := 65536 * 151 + 256 + 0xC2, sgl := 608 } }) ∧
    ({ adm 0x02 (65536 * 151 + 256 + 0xC2) 0 with sqe := { opc := 2, cdw10 := 65536 * 151 + 256 + 0xC2, sgl := 608 } }).mute = false ∧
    ({ adm 0x02 (65536 * 151 + 256 + 0xC2) 0 with sqe := { opc := 2, cdw10 := 65536 * 151 + 256 + 0xC2, sgl := 608 } }).tunnel = false ∧
    (one hostNs ({ adm 0x02 (65536 * 151 + 256 + 0xC2) 0 with sqe := { opc := 2, cdw10 := 65536 * 151 + 256 + 0xC2, sgl := 608 } })).postsStopped = false ∧
    (({ adm 0x02 (65536 * 151 + 256 + 0xC2) 0 with sqe := { opc := 2, cdw10 := 65536 * 151 + 256 + 0xC2, sgl := 608 } })).lid = 0xC2 ∧
    (({ adm 0x02 (65536 * 151 + 256 + 0xC2) 0 with sqe := { opc := 2, cdw10 := 65536 * 151 + 256 + 0xC2, sgl := 608 } })).ringO = true ∧
    (({ adm 0x02 (65536 * 151 + 256 + 0xC2) 0 with sqe := { opc := 2, cdw10 := 65536 * 151 + 256 + 0xC2, sgl := 608 } })).lsp.testBit 0 = true ∧
    608 ≤ (({ adm 0x02 (65536 * 151 + 256 + 0xC2) 0 with sqe := { opc := 2, cdw10 := 65536 * 151 + 256 + 0xC2, sgl := 608 } })).lpo + (({ adm 0x02 (65536 * 151 + 256 + 0xC2) 0 with sqe := { opc := 2, cdw10 := 65536 * 151 + 256 + 0xC2, sgl := 608 } })).logLen := by decide

theorem wit_pageStatus : Cmd.logStatus ({ adm 0x02 (65536 * 3 + 0xC0) 0 with sqe := { opc := 2, cdw10 := 65536 * 3 + 0xC0, sgl := 16 } }) ((one hostNs ({ adm 0x02 (65536 * 3 + 0xC0) 0 with sqe := { opc := 2, cdw10 := 65536 * 3 + 0xC0, sgl := 16 } })).evidenceOf (Cmd.lsi ({ adm 0x02 (65536 * 3 + 0xC0) 0 with sqe := { opc := 2, cdw10 := 65536 * 3 + 0xC0, sgl := 16 } }))).length = stOk ∧
    Cmd.logStatus ({ adm 0x02 (65536 * 3 + 0xBF) 0 with sqe := { opc := 2, nsid := 1, cdw10 := 65536 * 3 + 0xBF, sgl := 16 } }) ((one zonesChanged ({ adm 0x02 (65536 * 3 + 0xBF) 0 with sqe := { opc := 2, nsid := 1, cdw10 := 65536 * 3 + 0xBF, sgl := 16 } })).logPage ({ adm 0x02 (65536 * 3 + 0xBF) 0 with sqe := { opc := 2, nsid := 1, cdw10 := 65536 * 3 + 0xBF, sgl := 16 } }) 0xBF).length = stOk ∧
    Cmd.logStatus ({ adm 0x02 (65536 * 151 + 256 + 0xC2) 0 with sqe := { opc := 2, cdw10 := 65536 * 151 + 256 + 0xC2, sgl := 608 } }) ((one hostNs ({ adm 0x02 (65536 * 151 + 256 + 0xC2) 0 with sqe := { opc := 2, cdw10 := 65536 * 151 + 256 + 0xC2, sgl := 608 } })).logPage ({ adm 0x02 (65536 * 151 + 256 + 0xC2) 0 with sqe := { opc := 2, cdw10 := 65536 * 151 + 256 + 0xC2, sgl := 608 } }) 0xC2).length = stOk := by
  refine ⟨logStatus_ok _ _ (by decide) (Nat.le_trans (m := 2420) (by decide) (evidence_le _ _)) (by decide) (by decide),
    logStatus_ok _ _ (by decide) (Nat.le_trans (m := 4096) (by decide) (zonePage_le _ _)) (by decide) (by decide),
    logStatus_ok _ _ (by decide) (Nat.le_trans (m := 608) (by decide) (faultPage_le _ _ (by decide))) (by decide) (by decide)⟩

/-- Create data: NSZE and NCAP 4,096, and zeros beyond. -/
def createCmd : Cmd := { adm 0x0D 0 0 with sqe := { opc := 0x0D, data := [0, 16, 0, 0, 0, 0, 0, 0, 0, 16], sgl := 4096 } }

def shaped (s : State) : State := { s with med := { s.med with ident := true } }

theorem wit_nsCreate : (one (shaped hostNs) (createCmd)).adminCmd (createCmd).fsn (createCmd).sqe.opc = some (createCmd) ∧
    (createCmd).mute = false ∧
    (createCmd).tunnel = false ∧
    (one (shaped hostNs) (createCmd)).postsStopped = false ∧
    (one (shaped hostNs) (createCmd)).createStatus (createCmd) (nsOf (createCmd)) = stOk := by set_option maxRecDepth 50000 in decide

theorem wit_nsDelete : (one hostNs ({ adm 0x0D 1 0 with sqe := { opc := 0x0D, nsid := 1, cdw10 := 1 } })).adminCmd ({ adm 0x0D 1 0 with sqe := { opc := 0x0D, nsid := 1, cdw10 := 1 } }).fsn ({ adm 0x0D 1 0 with sqe := { opc := 0x0D, nsid := 1, cdw10 := 1 } }).sqe.opc = some ({ adm 0x0D 1 0 with sqe := { opc := 0x0D, nsid := 1, cdw10 := 1 } }) ∧
    ({ adm 0x0D 1 0 with sqe := { opc := 0x0D, nsid := 1, cdw10 := 1 } }).mute = false ∧
    ({ adm 0x0D 1 0 with sqe := { opc := 0x0D, nsid := 1, cdw10 := 1 } }).tunnel = false ∧
    (one hostNs ({ adm 0x0D 1 0 with sqe := { opc := 0x0D, nsid := 1, cdw10 := 1 } })).postsStopped = false ∧
    (one hostNs ({ adm 0x0D 1 0 with sqe := { opc := 0x0D, nsid := 1, cdw10 := 1 } })).ns 1 = some ns1 ∧
    (one hostNs ({ adm 0x0D 1 0 with sqe := { opc := 0x0D, nsid := 1, cdw10 := 1 } })).nsBusy [(1, ns1)] = false := by decide

theorem wit_attach : (one hostNs ({ adm 0x15 0 0 with sqe := { opc := 0x15, nsid := 1, data := [2, 0, 1, 0, 2, 0] } })).adminCmd ({ adm 0x15 0 0 with sqe := { opc := 0x15, nsid := 1, data := [2, 0, 1, 0, 2, 0] } }).fsn ({ adm 0x15 0 0 with sqe := { opc := 0x15, nsid := 1, data := [2, 0, 1, 0, 2, 0] } }).sqe.opc = some ({ adm 0x15 0 0 with sqe := { opc := 0x15, nsid := 1, data := [2, 0, 1, 0, 2, 0] } }) ∧
    ({ adm 0x15 0 0 with sqe := { opc := 0x15, nsid := 1, data := [2, 0, 1, 0, 2, 0] } }).mute = false ∧
    ({ adm 0x15 0 0 with sqe := { opc := 0x15, nsid := 1, data := [2, 0, 1, 0, 2, 0] } }).tunnel = false ∧
    (one hostNs ({ adm 0x15 0 0 with sqe := { opc := 0x15, nsid := 1, data := [2, 0, 1, 0, 2, 0] } })).postsStopped = false ∧
    (({ adm 0x15 0 0 with sqe := { opc := 0x15, nsid := 1, data := [2, 0, 1, 0, 2, 0] } })).ctrlList = [1, 2] ∧
    (one hostNs ({ adm 0x15 0 0 with sqe := { opc := 0x15, nsid := 1, data := [2, 0, 1, 0, 2, 0] } })).hif.bifur = true ∧
    1 ∉ ns1.attach ∧ 2 ∉ ns1.attach := by decide

theorem wit_format : (one (shaped hostNs) ({ adm 0x80 0 0 with sqe := { opc := 0x80, nsid := 1, cdw10 := 0 } })).adminCmd ({ adm 0x80 0 0 with sqe := { opc := 0x80, nsid := 1, cdw10 := 0 } }).fsn ({ adm 0x80 0 0 with sqe := { opc := 0x80, nsid := 1, cdw10 := 0 } }).sqe.opc = some ({ adm 0x80 0 0 with sqe := { opc := 0x80, nsid := 1, cdw10 := 0 } }) ∧
    ({ adm 0x80 0 0 with sqe := { opc := 0x80, nsid := 1, cdw10 := 0 } }).mute = false ∧
    ({ adm 0x80 0 0 with sqe := { opc := 0x80, nsid := 1, cdw10 := 0 } }).tunnel = false ∧
    (one (shaped hostNs) ({ adm 0x80 0 0 with sqe := { opc := 0x80, nsid := 1, cdw10 := 0 } })).postsStopped = false ∧
    (one (shaped hostNs) ({ adm 0x80 0 0 with sqe := { opc := 0x80, nsid := 1, cdw10 := 0 } })).formatStatus ({ adm 0x80 0 0 with sqe := { opc := 0x80, nsid := 1, cdw10 := 0 } }) = stOk ∧
    (one (shaped hostNs) ({ adm 0x80 0 0 with sqe := { opc := 0x80, nsid := 1, cdw10 := 0 } })).locks = [] := by decide

theorem wit_formatEnds : (one (shaped hostNs) ({ adm 0x80 0 0 with ph := .running, sqe := { opc := 0x80, nsid := 1, cdw10 := 0 } })).cmd 1 = some ({ adm 0x80 0 0 with ph := .running, sqe := { opc := 0x80, nsid := 1, cdw10 := 0 } }) ∧
    (one (shaped hostNs) ({ adm 0x80 0 0 with ph := .running, sqe := { opc := 0x80, nsid := 1, cdw10 := 0 } })).slotBusy [(1, ns1)] = false ∧
    (one (shaped hostNs) ({ adm 0x80 0 0 with ph := .running, sqe := { opc := 0x80, nsid := 1, cdw10 := 0 } })).formatNs ({ adm 0x80 0 0 with ph := .running, sqe := { opc := 0x80, nsid := 1, cdw10 := 0 } }) = [(1, ns1)] := by decide

theorem wit_crypto : (one (shaped hostNs) ({ adm 0x84 4 0 with sqe := { opc := 0x84, nsid := 1, cdw10 := 4 } })).adminCmd ({ adm 0x84 4 0 with sqe := { opc := 0x84, nsid := 1, cdw10 := 4 } }).fsn ({ adm 0x84 4 0 with sqe := { opc := 0x84, nsid := 1, cdw10 := 4 } }).sqe.opc = some ({ adm 0x84 4 0 with sqe := { opc := 0x84, nsid := 1, cdw10 := 4 } }) ∧
    ({ adm 0x84 4 0 with sqe := { opc := 0x84, nsid := 1, cdw10 := 4 } }).mute = false ∧
    ({ adm 0x84 4 0 with sqe := { opc := 0x84, nsid := 1, cdw10 := 4 } }).tunnel = false ∧
    (one (shaped hostNs) ({ adm 0x84 4 0 with sqe := { opc := 0x84, nsid := 1, cdw10 := 4 } })).postsStopped = false ∧
    (({ adm 0x84 4 0 with sqe := { opc := 0x84, nsid := 1, cdw10 := 4 } })).sanact = 4 ∧
    (one (shaped hostNs) ({ adm 0x84 4 0 with sqe := { opc := 0x84, nsid := 1, cdw10 := 4 } })).lvl.rdonly = false ∧
    (one (shaped hostNs) ({ adm 0x84 4 0 with sqe := { opc := 0x84, nsid := 1, cdw10 := 4 } })).locks = [] := by decide

theorem wit_cryptoEnds : (one (shaped hostNs) ({ adm 0x84 4 0 with ph := .running, sqe := { opc := 0x84, nsid := 1, cdw10 := 4 } })).cmd 1 = some ({ adm 0x84 4 0 with ph := .running, sqe := { opc := 0x84, nsid := 1, cdw10 := 4 } }) ∧
    (one (shaped hostNs) ({ adm 0x84 4 0 with ph := .running, sqe := { opc := 0x84, nsid := 1, cdw10 := 4 } })).slotBusy [(1, ns1)] = false ∧
    (one (shaped hostNs) ({ adm 0x84 4 0 with ph := .running, sqe := { opc := 0x84, nsid := 1, cdw10 := 4 } })).allNs = [(1, ns1)] := by decide

theorem wit_block : (one (shaped hostNs) ({ adm 0x84 2 0 with sqe := { opc := 0x84, nsid := 1, cdw10 := 2 } })).adminCmd ({ adm 0x84 2 0 with sqe := { opc := 0x84, nsid := 1, cdw10 := 2 } }).fsn ({ adm 0x84 2 0 with sqe := { opc := 0x84, nsid := 1, cdw10 := 2 } }).sqe.opc = some ({ adm 0x84 2 0 with sqe := { opc := 0x84, nsid := 1, cdw10 := 2 } }) ∧
    ({ adm 0x84 2 0 with sqe := { opc := 0x84, nsid := 1, cdw10 := 2 } }).mute = false ∧
    ({ adm 0x84 2 0 with sqe := { opc := 0x84, nsid := 1, cdw10 := 2 } }).tunnel = false ∧
    (one (shaped hostNs) ({ adm 0x84 2 0 with sqe := { opc := 0x84, nsid := 1, cdw10 := 2 } })).postsStopped = false ∧
    (({ adm 0x84 2 0 with sqe := { opc := 0x84, nsid := 1, cdw10 := 2 } })).sanact = 2 ∧
    (one (shaped hostNs) ({ adm 0x84 2 0 with sqe := { opc := 0x84, nsid := 1, cdw10 := 2 } })).lvl.rdonly = false ∧
    (one (shaped hostNs) ({ adm 0x84 2 0 with sqe := { opc := 0x84, nsid := 1, cdw10 := 2 } })).locks = [] := by decide

theorem wit_blockEnds : (one (shaped hostNs) ({ adm 0x84 2 0 with ph := .running, sqe := { opc := 0x84, nsid := 1, cdw10 := 2 } })).cmd 1 = some ({ adm 0x84 2 0 with ph := .running, sqe := { opc := 0x84, nsid := 1, cdw10 := 2 } }) ∧
    (one (shaped hostNs) ({ adm 0x84 2 0 with ph := .running, sqe := { opc := 0x84, nsid := 1, cdw10 := 2 } })).slotBusy [(1, ns1)] = false ∧
    (one (shaped hostNs) ({ adm 0x84 2 0 with ph := .running, sqe := { opc := 0x84, nsid := 1, cdw10 := 2 } })).allNs = [(1, ns1)] := by decide

/-! ### I/O commands, landing and commit -/

/-- An I/O command of function 0, queue 1, FSN 1, on namespace 1: its SLBA, CDW12 and phase. -/
def io (opc lba w12 : Nat) (p : Phase) : Cmd := { fsn := 1, fn := 0, sq := 1, ph := p, sqe := { opc := opc, nsid := 1, cdw10 := lba, cdw12 := w12 } }

/-- The namespace with a key in its slot. -/
def keyed : State := { hostNs with sec := { slots := ⟨[(1, { cur := some 1 })]⟩ } }

def zns : Ns := { nsze := 3 * zsze 0, ncap := 3 * zcap 0, zoned := true, quota := 8, attach := [0], granules := List.range 64, slot := 1 }

def zoned (z : Zone) : State := { keyed with nss := ⟨[(1, some zns)]⟩, zones := ⟨[(zkey 1 0, z)]⟩ }

theorem wit_read : (one keyed (io 0x02 0 0 .fetched)).cmd (io 0x02 0 0 .fetched).fsn = some (io 0x02 0 0 .fetched) ∧
    (io 0x02 0 0 .fetched).mute = false ∧
    (io 0x02 0 0 .fetched).tunnel = false ∧
    (one keyed (io 0x02 0 0 .fetched)).postsStopped = false ∧
    (one keyed (io 0x02 0 0 .fetched)).ns 1 = some ns1 ∧
    (one keyed (io 0x02 0 0 .fetched)).myTurn (io 0x02 0 0 .fetched) = true ∧
    (one keyed (io 0x02 0 0 .fetched)).noKey ns1 = false ∧
    (one keyed (io 0x02 0 0 .fetched)).locks = [] := by decide

theorem wit_compare : (one keyed (io 0x05 0 0 .fetched)).cmd (io 0x05 0 0 .fetched).fsn = some (io 0x05 0 0 .fetched) ∧
    (io 0x05 0 0 .fetched).mute = false ∧
    (io 0x05 0 0 .fetched).tunnel = false ∧
    (one keyed (io 0x05 0 0 .fetched)).postsStopped = false ∧
    (one keyed (io 0x05 0 0 .fetched)).ns 1 = some ns1 ∧
    (one keyed (io 0x05 0 0 .fetched)).myTurn (io 0x05 0 0 .fetched) = true ∧
    (one keyed (io 0x05 0 0 .fetched)).noKey ns1 = false ∧
    (one keyed (io 0x05 0 0 .fetched)).locks = [] := by decide

theorem wit_verify : (one keyed (io 0x0C 0 0 .fetched)).cmd (io 0x0C 0 0 .fetched).fsn = some (io 0x0C 0 0 .fetched) ∧
    (io 0x0C 0 0 .fetched).mute = false ∧
    (io 0x0C 0 0 .fetched).tunnel = false ∧
    (one keyed (io 0x0C 0 0 .fetched)).postsStopped = false ∧
    (one keyed (io 0x0C 0 0 .fetched)).ns 1 = some ns1 ∧
    (one keyed (io 0x0C 0 0 .fetched)).myTurn (io 0x0C 0 0 .fetched) = true ∧
    (one keyed (io 0x0C 0 0 .fetched)).noKey ns1 = false ∧
    (one keyed (io 0x0C 0 0 .fetched)).locks = [] := by decide

theorem readRange_unmapped (s : State) (n : Ns) (nsid fsn lba : Nat) :
    (s.readRange n nsid fsn [] [] lba 0 [.unmapped]).1 = .data (n.blank) := by
  simp [State.readRange, State.readBlock]

theorem readRange_zero (s : State) (n : Ns) (nsid fsn lba : Nat) :
    (s.readRange n nsid fsn [] [] lba 0 [.zero]).1 = .data (zeros n.blockBytes) := by
  simp [State.readRange, State.readBlock]

def withData (d : List Byte) (c : Cmd) : Cmd := { c with sqe := { c.sqe with data := d } }

def seen (opc lba : Nat) (e : Ent) : Cmd := { io opc lba 0 .reading with found := [e] }

theorem wit_readLooks : (one keyed (io 0x02 4095 0 .reading)).cmd (io 0x02 4095 0 .reading).fsn = some (io 0x02 4095 0 .reading) ∧
    (io 0x02 4095 0 .reading).mute = false ∧
    (io 0x02 4095 0 .reading).tunnel = false ∧
    (one keyed (io 0x02 4095 0 .reading)).postsStopped = false ∧
    (one keyed (io 0x02 4095 0 .reading)).ns 1 = some ns1 ∧
    ((io 0x02 4095 0 .reading)).found = [] ∧
    ((one keyed (io 0x02 4095 0 .reading)).walkAll [4095]).pagesOk [4095] = true ∧
    (rangeBlocks ns1 4095 1).map (fun b => b.1 * 16 + b.2) = [4095] := by decide

theorem wit_readNoKey : (one hostNs (io 0x02 0 0 .fetched)).cmd (io 0x02 0 0 .fetched).fsn = some (io 0x02 0 0 .fetched) ∧
    (io 0x02 0 0 .fetched).mute = false ∧
    (io 0x02 0 0 .fetched).tunnel = false ∧
    (one hostNs (io 0x02 0 0 .fetched)).postsStopped = false ∧
    (one hostNs (io 0x02 0 0 .fetched)).ns 1 = some ns1 ∧
    (one hostNs (io 0x02 0 0 .fetched)).myTurn (io 0x02 0 0 .fetched) = true ∧
    (one hostNs (io 0x02 0 0 .fetched)).noKey ns1 = true := by decide

theorem wit_readZoned : (one (zoned {}) (io 0x02 0 0 .fetched)).cmd (io 0x02 0 0 .fetched).fsn = some (io 0x02 0 0 .fetched) ∧
    (io 0x02 0 0 .fetched).mute = false ∧
    (io 0x02 0 0 .fetched).tunnel = false ∧
    (one (zoned {}) (io 0x02 0 0 .fetched)).postsStopped = false ∧
    (one (zoned {}) (io 0x02 0 0 .fetched)).ns 1 = some zns ∧
    (one (zoned {}) (io 0x02 0 0 .fetched)).myTurn (io 0x02 0 0 .fetched) = true ∧
    (one (zoned {}) (io 0x02 0 0 .fetched)).noKey zns = false := by decide

theorem wit_compareLooks : (one keyed (io 0x05 4095 0 .reading)).cmd (io 0x05 4095 0 .reading).fsn = some (io 0x05 4095 0 .reading) ∧
    (io 0x05 4095 0 .reading).mute = false ∧
    (io 0x05 4095 0 .reading).tunnel = false ∧
    (one keyed (io 0x05 4095 0 .reading)).postsStopped = false ∧
    (one keyed (io 0x05 4095 0 .reading)).ns 1 = some ns1 ∧
    ((io 0x05 4095 0 .reading)).found = [] ∧
    ((one keyed (io 0x05 4095 0 .reading)).walkAll [4095]).pagesOk [4095] = true ∧
    (rangeBlocks ns1 4095 1).map (fun b => b.1 * 16 + b.2) = [4095] := by decide

theorem wit_compareNoKey : (one hostNs (io 0x05 0 0 .fetched)).cmd (io 0x05 0 0 .fetched).fsn = some (io 0x05 0 0 .fetched) ∧
    (io 0x05 0 0 .fetched).mute = false ∧
    (io 0x05 0 0 .fetched).tunnel = false ∧
    (one hostNs (io 0x05 0 0 .fetched)).postsStopped = false ∧
    (one hostNs (io 0x05 0 0 .fetched)).ns 1 = some ns1 ∧
    (one hostNs (io 0x05 0 0 .fetched)).myTurn (io 0x05 0 0 .fetched) = true ∧
    (one hostNs (io 0x05 0 0 .fetched)).noKey ns1 = true := by decide

theorem wit_compareZoned : (one (zoned {}) (io 0x05 0 0 .fetched)).cmd (io 0x05 0 0 .fetched).fsn = some (io 0x05 0 0 .fetched) ∧
    (io 0x05 0 0 .fetched).mute = false ∧
    (io 0x05 0 0 .fetched).tunnel = false ∧
    (one (zoned {}) (io 0x05 0 0 .fetched)).postsStopped = false ∧
    (one (zoned {}) (io 0x05 0 0 .fetched)).ns 1 = some zns ∧
    (one (zoned {}) (io 0x05 0 0 .fetched)).myTurn (io 0x05 0 0 .fetched) = true ∧
    (one (zoned {}) (io 0x05 0 0 .fetched)).noKey zns = false := by decide

theorem wit_verifyLooks : (one keyed (io 0x0C 4095 0 .reading)).cmd (io 0x0C 4095 0 .reading).fsn = some (io 0x0C 4095 0 .reading) ∧
    (io 0x0C 4095 0 .reading).mute = false ∧
    (io 0x0C 4095 0 .reading).tunnel = false ∧
    (one keyed (io 0x0C 4095 0 .reading)).postsStopped = false ∧
    (one keyed (io 0x0C 4095 0 .reading)).ns 1 = some ns1 ∧
    ((io 0x0C 4095 0 .reading)).found = [] ∧
    ((one keyed (io 0x0C 4095 0 .reading)).walkAll [4095]).pagesOk [4095] = true ∧
    (rangeBlocks ns1 4095 1).map (fun b => b.1 * 16 + b.2) = [4095] := by decide

theorem wit_verifyNoKey : (one hostNs (io 0x0C 0 0 .fetched)).cmd (io 0x0C 0 0 .fetched).fsn = some (io 0x0C 0 0 .fetched) ∧
    (io 0x0C 0 0 .fetched).mute = false ∧
    (io 0x0C 0 0 .fetched).tunnel = false ∧
    (one hostNs (io 0x0C 0 0 .fetched)).postsStopped = false ∧
    (one hostNs (io 0x0C 0 0 .fetched)).ns 1 = some ns1 ∧
    (one hostNs (io 0x0C 0 0 .fetched)).myTurn (io 0x0C 0 0 .fetched) = true ∧
    (one hostNs (io 0x0C 0 0 .fetched)).noKey ns1 = true := by decide

theorem wit_verifyZoned : (one (zoned {}) (io 0x0C 0 0 .fetched)).cmd (io 0x0C 0 0 .fetched).fsn = some (io 0x0C 0 0 .fetched) ∧
    (io 0x0C 0 0 .fetched).mute = false ∧
    (io 0x0C 0 0 .fetched).tunnel = false ∧
    (one (zoned {}) (io 0x0C 0 0 .fetched)).postsStopped = false ∧
    (one (zoned {}) (io 0x0C 0 0 .fetched)).ns 1 = some zns ∧
    (one (zoned {}) (io 0x0C 0 0 .fetched)).myTurn (io 0x0C 0 0 .fetched) = true ∧
    (one (zoned {}) (io 0x0C 0 0 .fetched)).noKey zns = false := by decide

def lockedBy (l : Lock) : State := { keyed with locks := [l] }

theorem wit_readWaits : (one (lockedBy ⟨9, 1, 0, 7, true, true⟩) (io 0x02 7 0 .fetched)).cmd (io 0x02 7 0 .fetched).fsn = some (io 0x02 7 0 .fetched) ∧
    (io 0x02 7 0 .fetched).mute = false ∧
    (io 0x02 7 0 .fetched).tunnel = false ∧
    (one (lockedBy ⟨9, 1, 0, 7, true, true⟩) (io 0x02 7 0 .fetched)).postsStopped = false ∧
    (one (lockedBy ⟨9, 1, 0, 7, true, true⟩) (io 0x02 7 0 .fetched)).ns 1 = some ns1 ∧
    (one (lockedBy ⟨9, 1, 0, 7, true, true⟩) (io 0x02 7 0 .fetched)).myTurn (io 0x02 7 0 .fetched) = true ∧
    (one (lockedBy ⟨9, 1, 0, 7, true, true⟩) (io 0x02 7 0 .fetched)).noKey ns1 = false ∧
    ((one (lockedBy ⟨9, 1, 0, 7, true, true⟩) (io 0x02 7 0 .fetched)).onLocks (· ++ [Cmd.ownLock (io 0x02 7 0 .fetched) false])).lockFree 1 = false := by decide

theorem wit_readUnmapped : (one keyed (seen 0x02 4095 (.unmapped))).cmd (seen 0x02 4095 (.unmapped)).fsn = some (seen 0x02 4095 (.unmapped)) ∧
    (seen 0x02 4095 (.unmapped)).mute = false ∧
    (seen 0x02 4095 (.unmapped)).tunnel = false ∧
    (one keyed (seen 0x02 4095 (.unmapped))).postsStopped = false ∧
    (one keyed (seen 0x02 4095 (.unmapped))).ns 1 = some ns1 ∧
    ((one keyed (seen 0x02 4095 (.unmapped))).readRange ns1 1 1 [] [] 4095 0 ((seen 0x02 4095 (.unmapped))).found).1 = .data (ns1.blank) ∧
    ns1.readGuard (seen 0x02 4095 (.unmapped)) 1 (ns1.blank) = stOk := by exact ⟨rfl, by decide, by decide, by decide, by decide, readRange_unmapped _ _ _ _ _, by decide⟩

theorem wit_verifyUnmapped : (one keyed (seen 0x0C 4095 (.unmapped))).cmd (seen 0x0C 4095 (.unmapped)).fsn = some (seen 0x0C 4095 (.unmapped)) ∧
    (seen 0x0C 4095 (.unmapped)).mute = false ∧
    (seen 0x0C 4095 (.unmapped)).tunnel = false ∧
    (one keyed (seen 0x0C 4095 (.unmapped))).postsStopped = false ∧
    (one keyed (seen 0x0C 4095 (.unmapped))).ns 1 = some ns1 ∧
    ((one keyed (seen 0x0C 4095 (.unmapped))).readRange ns1 1 1 [] [] 4095 0 ((seen 0x0C 4095 (.unmapped))).found).1 = .data (ns1.blank) ∧
    ns1.readGuard (seen 0x0C 4095 (.unmapped)) 1 (ns1.blank) = stOk := by exact ⟨rfl, by decide, by decide, by decide, by decide, readRange_unmapped _ _ _ _ _, by decide⟩

theorem wit_compareBlank : (one keyed (withData ns1.blank (seen 0x05 4095 (.unmapped)))).cmd (withData ns1.blank (seen 0x05 4095 (.unmapped))).fsn = some (withData ns1.blank (seen 0x05 4095 (.unmapped))) ∧
    (withData ns1.blank (seen 0x05 4095 (.unmapped))).mute = false ∧
    (withData ns1.blank (seen 0x05 4095 (.unmapped))).tunnel = false ∧
    (one keyed (withData ns1.blank (seen 0x05 4095 (.unmapped)))).postsStopped = false ∧
    (one keyed (withData ns1.blank (seen 0x05 4095 (.unmapped)))).ns 1 = some ns1 ∧
    ((one keyed (withData ns1.blank (seen 0x05 4095 (.unmapped)))).readRange ns1 1 1 [] [] 4095 0 ((withData ns1.blank (seen 0x05 4095 (.unmapped)))).found).1 = .data (ns1.blank) ∧
    ns1.readGuard (withData ns1.blank (seen 0x05 4095 (.unmapped))) 1 (ns1.blank) = stOk := by exact ⟨rfl, by decide, by decide, by decide, by decide, readRange_unmapped _ _ _ _ _, by decide⟩

theorem wit_compareDiffers : (one keyed (seen 0x05 4095 (.unmapped))).cmd (seen 0x05 4095 (.unmapped)).fsn = some (seen 0x05 4095 (.unmapped)) ∧
    (seen 0x05 4095 (.unmapped)).mute = false ∧
    (seen 0x05 4095 (.unmapped)).tunnel = false ∧
    (one keyed (seen 0x05 4095 (.unmapped))).postsStopped = false ∧
    (one keyed (seen 0x05 4095 (.unmapped))).ns 1 = some ns1 ∧
    ((one keyed (seen 0x05 4095 (.unmapped))).readRange ns1 1 1 [] [] 4095 0 ((seen 0x05 4095 (.unmapped))).found).1 = .data (ns1.blank) ∧
    ns1.readGuard (seen 0x05 4095 (.unmapped)) 1 (ns1.blank) = stOk := by exact ⟨rfl, by decide, by decide, by decide, by decide, readRange_unmapped _ _ _ _ _, by decide⟩

theorem wit_readZero : (one keyed (seen 0x02 15 (.zero))).cmd (seen 0x02 15 (.zero)).fsn = some (seen 0x02 15 (.zero)) ∧
    (seen 0x02 15 (.zero)).mute = false ∧
    (seen 0x02 15 (.zero)).tunnel = false ∧
    (one keyed (seen 0x02 15 (.zero))).postsStopped = false ∧
    (one keyed (seen 0x02 15 (.zero))).ns 1 = some ns1 ∧
    ((one keyed (seen 0x02 15 (.zero))).readRange ns1 1 1 [] [] 15 0 ((seen 0x02 15 (.zero))).found).1 = .data (zeros ns1.blockBytes) ∧
    ns1.readGuard (seen 0x02 15 (.zero)) 1 (zeros ns1.blockBytes) = stOk := by exact ⟨rfl, by decide, by decide, by decide, by decide, readRange_zero _ _ _ _ _, by decide⟩

theorem wit_readPoison : (one keyed (seen 0x02 15 (.poison))).cmd (seen 0x02 15 (.poison)).fsn = some (seen 0x02 15 (.poison)) ∧
    (seen 0x02 15 (.poison)).mute = false ∧
    (seen 0x02 15 (.poison)).tunnel = false ∧
    (one keyed (seen 0x02 15 (.poison))).postsStopped = false ∧
    (one keyed (seen 0x02 15 (.poison))).ns 1 = some ns1 ∧
    ((one keyed (seen 0x02 15 (.poison))).readRange ns1 1 1 [] [] 15 0 ((seen 0x02 15 (.poison))).found).1 = .fails stUnrecovered := by decide

def landed : State :=
  { keyed with map := { coarse := ⟨[(0, .landing 3 16)]⟩ },
               lnd := { secs := ⟨[(3 * 4096 + 16 + 5, some { fsn := 9, data := [7] })]⟩ } }

theorem wit_readLanded : (one landed (seen 0x02 5 (.landing 3 21))).cmd (seen 0x02 5 (.landing 3 21)).fsn = some (seen 0x02 5 (.landing 3 21)) ∧
    (seen 0x02 5 (.landing 3 21)).mute = false ∧
    (seen 0x02 5 (.landing 3 21)).tunnel = false ∧
    (one landed (seen 0x02 5 (.landing 3 21))).postsStopped = false ∧
    (one landed (seen 0x02 5 (.landing 3 21))).ns 1 = some ns1 ∧
    ((one landed (seen 0x02 5 (.landing 3 21))).readRange ns1 1 1 [] [] 5 0 ((seen 0x02 5 (.landing 3 21))).found).1 = .data ([7]) ∧
    ns1.readGuard (seen 0x02 5 (.landing 3 21)) 1 ([7]) = stOk := by decide

theorem wit_landedBlock : landed.lookup (ns1.key 5) = .landing 3 21 ∧
    (landed.lnd.secs.get none (3 * 4096 + 21)).isSome = true ∧
    (landed.readSector 3 21 uFront).1 = true ∧
    landed.fabricHits (uLnd 3) = false := by decide

/-- A block on the media, its codeword written under the slot's key. -/
def onMedia : State :=
  { keyed with med := { secs := ⟨[(mloc 127 15 9 0, some { info := { ns := 1, wsn := 3 }, data := [9], key := 1 })]⟩ } }

theorem wit_readMedia : (one onMedia (seen 0x02 0 (.media 127 15 9 0))).cmd (seen 0x02 0 (.media 127 15 9 0)).fsn = some (seen 0x02 0 (.media 127 15 9 0)) ∧
    (seen 0x02 0 (.media 127 15 9 0)).mute = false ∧
    (seen 0x02 0 (.media 127 15 9 0)).tunnel = false ∧
    (one onMedia (seen 0x02 0 (.media 127 15 9 0))).postsStopped = false ∧
    (one onMedia (seen 0x02 0 (.media 127 15 9 0))).ns 1 = some ns1 ∧
    ((one onMedia (seen 0x02 0 (.media 127 15 9 0))).readRange ns1 1 1 [] [] 0 0 ((seen 0x02 0 (.media 127 15 9 0))).found).1 = .data ([9]) ∧
    ns1.readGuard (seen 0x02 0 (.media 127 15 9 0)) 1 ([9]) = stOk := by decide

theorem wit_mediaBlock : (onMedia.med.secs.get none (mloc 127 15 9 0)).isSome = true ∧
    onMedia.beyondRebuild 127 15 9 = false ∧
    onMedia.keyFor ns1 3 = some 1 ∧
    onMedia.fabricHits (uCC (127 / 32)) = false := by decide

theorem wit_readLost : (one onMedia (seen 0x02 0 (.media 127 15 9 0))).cmd (seen 0x02 0 (.media 127 15 9 0)).fsn = some (seen 0x02 0 (.media 127 15 9 0)) ∧
    (seen 0x02 0 (.media 127 15 9 0)).mute = false ∧
    (seen 0x02 0 (.media 127 15 9 0)).tunnel = false ∧
    (one onMedia (seen 0x02 0 (.media 127 15 9 0))).postsStopped = false ∧
    (one onMedia (seen 0x02 0 (.media 127 15 9 0))).ns 1 = some ns1 ∧
    ((seen 0x02 0 (.media 127 15 9 0))).found = [.media 127 15 9 0] := by decide

theorem wit_writeZoned : (one (zoned {}) (io 0x01 0 0 .fetched)).cmd (io 0x01 0 0 .fetched).fsn = some (io 0x01 0 0 .fetched) ∧
    (io 0x01 0 0 .fetched).mute = false ∧
    (io 0x01 0 0 .fetched).tunnel = false ∧
    (one (zoned {}) (io 0x01 0 0 .fetched)).postsStopped = false ∧
    (one (zoned {}) (io 0x01 0 0 .fetched)).ns 1 = some zns ∧
    (one (zoned {}) (io 0x01 0 0 .fetched)).myTurn (io 0x01 0 0 .fetched) = true ∧
    (one (zoned {}) (io 0x01 0 0 .fetched)).badHandle (io 0x01 0 0 .fetched) zns = false ∧
    (one (zoned {}) (io 0x01 0 0 .fetched)).noKey zns = false := by decide

theorem wit_write : (one keyed (io 0x01 0 0 .fetched)).cmd (io 0x01 0 0 .fetched).fsn = some (io 0x01 0 0 .fetched) ∧
    (io 0x01 0 0 .fetched).mute = false ∧
    (io 0x01 0 0 .fetched).tunnel = false ∧
    (one keyed (io 0x01 0 0 .fetched)).postsStopped = false ∧
    (one keyed (io 0x01 0 0 .fetched)).ns 1 = some ns1 ∧
    (one keyed (io 0x01 0 0 .fetched)).myTurn (io 0x01 0 0 .fetched) = true ∧
    (one keyed (io 0x01 0 0 .fetched)).badHandle (io 0x01 0 0 .fetched) ns1 = false ∧
    (one keyed (io 0x01 0 0 .fetched)).noKey ns1 = false ∧
    (one keyed (io 0x01 0 0 .fetched)).locks = [] := by decide

theorem wit_append : (one (zoned {}) (io 0x7D 0 0 .fetched)).cmd (io 0x7D 0 0 .fetched).fsn = some (io 0x7D 0 0 .fetched) ∧
    (io 0x7D 0 0 .fetched).mute = false ∧
    (io 0x7D 0 0 .fetched).tunnel = false ∧
    (one (zoned {}) (io 0x7D 0 0 .fetched)).postsStopped = false ∧
    (one (zoned {}) (io 0x7D 0 0 .fetched)).ns 1 = some zns ∧
    (one (zoned {}) (io 0x7D 0 0 .fetched)).myTurn (io 0x7D 0 0 .fetched) = true ∧
    (one (zoned {}) (io 0x7D 0 0 .fetched)).noKey zns = false ∧
    ((io 0x7D 0 0 .fetched)).sqe.slba % zsze zns.fmt = 0 := by decide

theorem wit_writeZeroes : (one keyed (io 0x08 16 15 .fetched)).cmd (io 0x08 16 15 .fetched).fsn = some (io 0x08 16 15 .fetched) ∧
    (io 0x08 16 15 .fetched).mute = false ∧
    (io 0x08 16 15 .fetched).tunnel = false ∧
    (one keyed (io 0x08 16 15 .fetched)).postsStopped = false ∧
    (one keyed (io 0x08 16 15 .fetched)).ns 1 = some ns1 ∧
    (one keyed (io 0x08 16 15 .fetched)).myTurn (io 0x08 16 15 .fetched) = true ∧
    (one keyed (io 0x08 16 15 .fetched)).locks = [] ∧
    (one keyed (io 0x08 16 15 .fetched)).lvl.rdonly = false ∧
    (one keyed (io 0x08 16 15 .fetched)).fuaLike (io 0x08 16 15 .fetched) = false ∧
    ((io 0x08 16 15 .fetched)).sqe.cnt = 16 ∧
    unitsOf (rangeBlocks ns1 16 16) = [1] := by decide

def dsmData : List Byte := zeros 4 ++ [16, 0, 0, 0] ++ [16, 0, 0, 0, 0, 0, 0, 0]

theorem wit_deallocate : (one keyed ({ io 0x09 0 0 .fetched with sqe := { opc := 9, nsid := 1, cdw11 := 4, data := dsmData } })).cmd ({ io 0x09 0 0 .fetched with sqe := { opc := 9, nsid := 1, cdw11 := 4, data := dsmData } }).fsn = some ({ io 0x09 0 0 .fetched with sqe := { opc := 9, nsid := 1, cdw11 := 4, data := dsmData } }) ∧
    ({ io 0x09 0 0 .fetched with sqe := { opc := 9, nsid := 1, cdw11 := 4, data := dsmData } }).mute = false ∧
    ({ io 0x09 0 0 .fetched with sqe := { opc := 9, nsid := 1, cdw11 := 4, data := dsmData } }).tunnel = false ∧
    (one keyed ({ io 0x09 0 0 .fetched with sqe := { opc := 9, nsid := 1, cdw11 := 4, data := dsmData } })).postsStopped = false ∧
    (one keyed ({ io 0x09 0 0 .fetched with sqe := { opc := 9, nsid := 1, cdw11 := 4, data := dsmData } })).ns 1 = some ns1 ∧
    (one keyed ({ io 0x09 0 0 .fetched with sqe := { opc := 9, nsid := 1, cdw11 := 4, data := dsmData } })).myTurn ({ io 0x09 0 0 .fetched with sqe := { opc := 9, nsid := 1, cdw11 := 4, data := dsmData } }) = true ∧
    (({ io 0x09 0 0 .fetched with sqe := { opc := 9, nsid := 1, cdw11 := 4, data := dsmData } })).dsmRanges = [(16, 16)] ∧
    unitsOf (rangeBlocks ns1 16 16) = [1] ∧
    (one keyed ({ io 0x09 0 0 .fetched with sqe := { opc := 9, nsid := 1, cdw11 := 4, data := dsmData } })).lvl.rdonly = false := by decide

def copyData : List Byte := zeros 8 ++ [32, 0, 0, 0, 0, 0, 0, 0] ++ [15, 0] ++ zeros 14

theorem wit_copy : (one keyed ({ io 0x19 0 0 .fetched with sqe := { opc := 0x19, nsid := 1, cdw10 := 0, data := copyData } })).cmd ({ io 0x19 0 0 .fetched with sqe := { opc := 0x19, nsid := 1, cdw10 := 0, data := copyData } }).fsn = some ({ io 0x19 0 0 .fetched with sqe := { opc := 0x19, nsid := 1, cdw10 := 0, data := copyData } }) ∧
    ({ io 0x19 0 0 .fetched with sqe := { opc := 0x19, nsid := 1, cdw10 := 0, data := copyData } }).mute = false ∧
    ({ io 0x19 0 0 .fetched with sqe := { opc := 0x19, nsid := 1, cdw10 := 0, data := copyData } }).tunnel = false ∧
    (one keyed ({ io 0x19 0 0 .fetched with sqe := { opc := 0x19, nsid := 1, cdw10 := 0, data := copyData } })).postsStopped = false ∧
    (one keyed ({ io 0x19 0 0 .fetched with sqe := { opc := 0x19, nsid := 1, cdw10 := 0, data := copyData } })).ns 1 = some ns1 ∧
    (one keyed ({ io 0x19 0 0 .fetched with sqe := { opc := 0x19, nsid := 1, cdw10 := 0, data := copyData } })).myTurn ({ io 0x19 0 0 .fetched with sqe := { opc := 0x19, nsid := 1, cdw10 := 0, data := copyData } }) = true ∧
    (({ io 0x19 0 0 .fetched with sqe := { opc := 0x19, nsid := 1, cdw10 := 0, data := copyData } })).copyRanges = [(32, 16)] ∧
    (one keyed ({ io 0x19 0 0 .fetched with sqe := { opc := 0x19, nsid := 1, cdw10 := 0, data := copyData } })).noKey ns1 = false ∧
    bits (({ io 0x19 0 0 .fetched with sqe := { opc := 0x19, nsid := 1, cdw10 := 0, data := copyData } })).sqe.cdw12 11 8 = 0 := by decide

def absent : State := { keyed with pwr := { present := false } }

theorem wit_flush : (one absent (io 0x00 0 0 .fetched)).cmd (io 0x00 0 0 .fetched).fsn = some (io 0x00 0 0 .fetched) ∧
    (io 0x00 0 0 .fetched).mute = false ∧
    (io 0x00 0 0 .fetched).tunnel = false ∧
    (one absent (io 0x00 0 0 .fetched)).postsStopped = false ∧
    (one absent (io 0x00 0 0 .fetched)).ns 1 = some ns1 ∧
    (one absent (io 0x00 0 0 .fetched)).myTurn (io 0x00 0 0 .fetched) = true ∧
    (one absent (io 0x00 0 0 .fetched)).pwr.present = false := by decide

def flushing : State := { present keyed with jnl := { groups := [{ id := 4, kind := 0, fsn := 6, ns := 1, wsn := 5 }] } }

theorem wit_flushWaits : (one flushing ({ io 0x00 0 0 .fetched with cover := [6] })).cmd ({ io 0x00 0 0 .fetched with cover := [6] }).fsn = some ({ io 0x00 0 0 .fetched with cover := [6] }) ∧
    ({ io 0x00 0 0 .fetched with cover := [6] }).mute = false ∧
    ({ io 0x00 0 0 .fetched with cover := [6] }).tunnel = false ∧
    (one flushing ({ io 0x00 0 0 .fetched with cover := [6] })).postsStopped = false ∧
    (one flushing ({ io 0x00 0 0 .fetched with cover := [6] })).ns 1 = some ns1 ∧
    (one flushing ({ io 0x00 0 0 .fetched with cover := [6] })).myTurn ({ io 0x00 0 0 .fetched with cover := [6] }) = true ∧
    (one flushing ({ io 0x00 0 0 .fetched with cover := [6] })).pwr.present = true ∧
    (∃ f ∈ (({ io 0x00 0 0 .fetched with cover := [6] })).cover, (one flushing ({ io 0x00 0 0 .fetched with cover := [6] })).jnl.groups.any (fun g => g.fsn == f) = true) := by decide

theorem wit_zoneClose : (one (zoned { st := .impOpen, wp := 5 }) ({ io 0x79 0 0 .fetched with sqe := { opc := 0x79, nsid := 1, cdw13 := 1 } })).cmd ({ io 0x79 0 0 .fetched with sqe := { opc := 0x79, nsid := 1, cdw13 := 1 } }).fsn = some ({ io 0x79 0 0 .fetched with sqe := { opc := 0x79, nsid := 1, cdw13 := 1 } }) ∧
    ({ io 0x79 0 0 .fetched with sqe := { opc := 0x79, nsid := 1, cdw13 := 1 } }).mute = false ∧
    ({ io 0x79 0 0 .fetched with sqe := { opc := 0x79, nsid := 1, cdw13 := 1 } }).tunnel = false ∧
    (one (zoned { st := .impOpen, wp := 5 }) ({ io 0x79 0 0 .fetched with sqe := { opc := 0x79, nsid := 1, cdw13 := 1 } })).postsStopped = false ∧
    (one (zoned { st := .impOpen, wp := 5 }) ({ io 0x79 0 0 .fetched with sqe := { opc := 0x79, nsid := 1, cdw13 := 1 } })).ns 1 = some zns ∧
    (one (zoned { st := .impOpen, wp := 5 }) ({ io 0x79 0 0 .fetched with sqe := { opc := 0x79, nsid := 1, cdw13 := 1 } })).myTurn ({ io 0x79 0 0 .fetched with sqe := { opc := 0x79, nsid := 1, cdw13 := 1 } }) = true ∧
    (one (zoned { st := .impOpen, wp := 5 }) ({ io 0x79 0 0 .fetched with sqe := { opc := 0x79, nsid := 1, cdw13 := 1 } })).zoneActTurn ({ io 0x79 0 0 .fetched with sqe := { opc := 0x79, nsid := 1, cdw13 := 1 } }) zns = true ∧
    ((one (zoned { st := .impOpen, wp := 5 }) ({ io 0x79 0 0 .fetched with sqe := { opc := 0x79, nsid := 1, cdw13 := 1 } })).zone 1 (zns.zoneOf (({ io 0x79 0 0 .fetched with sqe := { opc := 0x79, nsid := 1, cdw13 := 1 } })).sqe.slba)).st = .impOpen := by decide

theorem wit_zoneFinish : (one (zoned { st := .empty, wp := 0 }) ({ io 0x79 0 0 .fetched with sqe := { opc := 0x79, nsid := 1, cdw13 := 2 } })).cmd ({ io 0x79 0 0 .fetched with sqe := { opc := 0x79, nsid := 1, cdw13 := 2 } }).fsn = some ({ io 0x79 0 0 .fetched with sqe := { opc := 0x79, nsid := 1, cdw13 := 2 } }) ∧
    ({ io 0x79 0 0 .fetched with sqe := { opc := 0x79, nsid := 1, cdw13 := 2 } }).mute = false ∧
    ({ io 0x79 0 0 .fetched with sqe := { opc := 0x79, nsid := 1, cdw13 := 2 } }).tunnel = false ∧
    (one (zoned { st := .empty, wp := 0 }) ({ io 0x79 0 0 .fetched with sqe := { opc := 0x79, nsid := 1, cdw13 := 2 } })).postsStopped = false ∧
    (one (zoned { st := .empty, wp := 0 }) ({ io 0x79 0 0 .fetched with sqe := { opc := 0x79, nsid := 1, cdw13 := 2 } })).ns 1 = some zns ∧
    (one (zoned { st := .empty, wp := 0 }) ({ io 0x79 0 0 .fetched with sqe := { opc := 0x79, nsid := 1, cdw13 := 2 } })).myTurn ({ io 0x79 0 0 .fetched with sqe := { opc := 0x79, nsid := 1, cdw13 := 2 } }) = true ∧
    (one (zoned { st := .empty, wp := 0 }) ({ io 0x79 0 0 .fetched with sqe := { opc := 0x79, nsid := 1, cdw13 := 2 } })).zoneActTurn ({ io 0x79 0 0 .fetched with sqe := { opc := 0x79, nsid := 1, cdw13 := 2 } }) zns = true ∧
    ((one (zoned { st := .empty, wp := 0 }) ({ io 0x79 0 0 .fetched with sqe := { opc := 0x79, nsid := 1, cdw13 := 2 } })).zone 1 (zns.zoneOf (({ io 0x79 0 0 .fetched with sqe := { opc := 0x79, nsid := 1, cdw13 := 2 } })).sqe.slba)).st = .empty := by decide

theorem wit_zoneOpen : (one (zoned { st := .closed, wp := 5 }) ({ io 0x79 0 0 .fetched with sqe := { opc := 0x79, nsid := 1, cdw13 := 3 } })).cmd ({ io 0x79 0 0 .fetched with sqe := { opc := 0x79, nsid := 1, cdw13 := 3 } }).fsn = some ({ io 0x79 0 0 .fetched with sqe := { opc := 0x79, nsid := 1, cdw13 := 3 } }) ∧
    ({ io 0x79 0 0 .fetched with sqe := { opc := 0x79, nsid := 1, cdw13 := 3 } }).mute = false ∧
    ({ io 0x79 0 0 .fetched with sqe := { opc := 0x79, nsid := 1, cdw13 := 3 } }).tunnel = false ∧
    (one (zoned { st := .closed, wp := 5 }) ({ io 0x79 0 0 .fetched with sqe := { opc := 0x79, nsid := 1, cdw13 := 3 } })).postsStopped = false ∧
    (one (zoned { st := .closed, wp := 5 }) ({ io 0x79 0 0 .fetched with sqe := { opc := 0x79, nsid := 1, cdw13 := 3 } })).ns 1 = some zns ∧
    (one (zoned { st := .closed, wp := 5 }) ({ io 0x79 0 0 .fetched with sqe := { opc := 0x79, nsid := 1, cdw13 := 3 } })).myTurn ({ io 0x79 0 0 .fetched with sqe := { opc := 0x79, nsid := 1, cdw13 := 3 } }) = true ∧
    (one (zoned { st := .closed, wp := 5 }) ({ io 0x79 0 0 .fetched with sqe := { opc := 0x79, nsid := 1, cdw13 := 3 } })).zoneActTurn ({ io 0x79 0 0 .fetched with sqe := { opc := 0x79, nsid := 1, cdw13 := 3 } }) zns = true ∧
    ((one (zoned { st := .closed, wp := 5 }) ({ io 0x79 0 0 .fetched with sqe := { opc := 0x79, nsid := 1, cdw13 := 3 } })).zone 1 (zns.zoneOf (({ io 0x79 0 0 .fetched with sqe := { opc := 0x79, nsid := 1, cdw13 := 3 } })).sqe.slba)).st = .closed := by decide

theorem wit_zoneReset : (one (zoned { st := .full, wp := 5 }) ({ io 0x79 0 0 .fetched with sqe := { opc := 0x79, nsid := 1, cdw13 := 4 } })).cmd ({ io 0x79 0 0 .fetched with sqe := { opc := 0x79, nsid := 1, cdw13 := 4 } }).fsn = some ({ io 0x79 0 0 .fetched with sqe := { opc := 0x79, nsid := 1, cdw13 := 4 } }) ∧
    ({ io 0x79 0 0 .fetched with sqe := { opc := 0x79, nsid := 1, cdw13 := 4 } }).mute = false ∧
    ({ io 0x79 0 0 .fetched with sqe := { opc := 0x79, nsid := 1, cdw13 := 4 } }).tunnel = false ∧
    (one (zoned { st := .full, wp := 5 }) ({ io 0x79 0 0 .fetched with sqe := { opc := 0x79, nsid := 1, cdw13 := 4 } })).postsStopped = false ∧
    (one (zoned { st := .full, wp := 5 }) ({ io 0x79 0 0 .fetched with sqe := { opc := 0x79, nsid := 1, cdw13 := 4 } })).ns 1 = some zns ∧
    (one (zoned { st := .full, wp := 5 }) ({ io 0x79 0 0 .fetched with sqe := { opc := 0x79, nsid := 1, cdw13 := 4 } })).myTurn ({ io 0x79 0 0 .fetched with sqe := { opc := 0x79, nsid := 1, cdw13 := 4 } }) = true ∧
    (one (zoned { st := .full, wp := 5 }) ({ io 0x79 0 0 .fetched with sqe := { opc := 0x79, nsid := 1, cdw13 := 4 } })).zoneActTurn ({ io 0x79 0 0 .fetched with sqe := { opc := 0x79, nsid := 1, cdw13 := 4 } }) zns = true ∧
    ((one (zoned { st := .full, wp := 5 }) ({ io 0x79 0 0 .fetched with sqe := { opc := 0x79, nsid := 1, cdw13 := 4 } })).zone 1 (zns.zoneOf (({ io 0x79 0 0 .fetched with sqe := { opc := 0x79, nsid := 1, cdw13 := 4 } })).sqe.slba)).st = .full := by decide

theorem wit_zoneOffline : (one (zoned { st := .full, wp := 5 }) ({ io 0x79 0 0 .fetched with sqe := { opc := 0x79, nsid := 1, cdw13 := 5 } })).cmd ({ io 0x79 0 0 .fetched with sqe := { opc := 0x79, nsid := 1, cdw13 := 5 } }).fsn = some ({ io 0x79 0 0 .fetched with sqe := { opc := 0x79, nsid := 1, cdw13 := 5 } }) ∧
    ({ io 0x79 0 0 .fetched with sqe := { opc := 0x79, nsid := 1, cdw13 := 5 } }).mute = false ∧
    ({ io 0x79 0 0 .fetched with sqe := { opc := 0x79, nsid := 1, cdw13 := 5 } }).tunnel = false ∧
    (one (zoned { st := .full, wp := 5 }) ({ io 0x79 0 0 .fetched with sqe := { opc := 0x79, nsid := 1, cdw13 := 5 } })).postsStopped = false ∧
    (one (zoned { st := .full, wp := 5 }) ({ io 0x79 0 0 .fetched with sqe := { opc := 0x79, nsid := 1, cdw13 := 5 } })).ns 1 = some zns ∧
    (one (zoned { st := .full, wp := 5 }) ({ io 0x79 0 0 .fetched with sqe := { opc := 0x79, nsid := 1, cdw13 := 5 } })).myTurn ({ io 0x79 0 0 .fetched with sqe := { opc := 0x79, nsid := 1, cdw13 := 5 } }) = true ∧
    (one (zoned { st := .full, wp := 5 }) ({ io 0x79 0 0 .fetched with sqe := { opc := 0x79, nsid := 1, cdw13 := 5 } })).zoneActTurn ({ io 0x79 0 0 .fetched with sqe := { opc := 0x79, nsid := 1, cdw13 := 5 } }) zns = true ∧
    ((one (zoned { st := .full, wp := 5 }) ({ io 0x79 0 0 .fetched with sqe := { opc := 0x79, nsid := 1, cdw13 := 5 } })).zone 1 (zns.zoneOf (({ io 0x79 0 0 .fetched with sqe := { opc := 0x79, nsid := 1, cdw13 := 5 } })).sqe.slba)).st = .full := by decide

theorem wit_zoneReport : (one (zoned {}) (io 0x7A 0 15 .fetched)).cmd (io 0x7A 0 15 .fetched).fsn = some (io 0x7A 0 15 .fetched) ∧
    (io 0x7A 0 15 .fetched).mute = false ∧
    (io 0x7A 0 15 .fetched).tunnel = false ∧
    (one (zoned {}) (io 0x7A 0 15 .fetched)).postsStopped = false ∧
    (one (zoned {}) (io 0x7A 0 15 .fetched)).ns 1 = some zns ∧
    (one (zoned {}) (io 0x7A 0 15 .fetched)).myTurn (io 0x7A 0 15 .fetched) = true ∧
    zns.zoneOf ((io 0x7A 0 15 .fetched)).sqe.slba = 0 ∧
    (one (zoned {}) (io 0x7A 0 15 .fetched)).zoneActTurn (io 0x7A 0 15 .fetched) zns = true := by decide

def waiting : State := { one keyed (io 0x01 0 0 .lockWait) with locks := [⟨1, 1, 0, 0, true, false⟩] }

theorem wit_lockGrant : waiting.lockFree 1 = true ∧
    waiting.cmd 1 = some (io 0x01 0 0 .lockWait) := by decide

def blocked : State := { waiting with locks := [⟨9, 1, 0, 0, false, true⟩, ⟨1, 1, 0, 0, true, false⟩] }

theorem wit_lockWaits : blocked.lockFree 1 = false := by decide

def triedIo : Cmd := { io 0x01 0 0 .admitWait with tried := true }

/-- A zone write of one block that waits for landing space. -/
def admits : State :=
  { one (zoned {}) triedIo with
    lnd := { waits := [1] },
    med := { zseg := ⟨[(zkey 1 0 * 32, 1)]⟩ } }

theorem wit_admit : admits.zoneTurn triedIo zns = true ∧
    admits.judgeZoneWrite triedIo zns = stOk ∧
    1 ∈ admits.lnd.waits ∧
    (admits.zone 1 0).apRes = 0 ∧
    admits.heldBack 1 (zoneQuad 1 0) = false ∧
    admits.med.zseg.get 0 (zkey 1 0 * 32 + (zoneUnit 0 0).1) ≠ 0 ∧
    admits.sched.drain = false ∧
    admits.unitState (uLnd (unitGroup (zoneQuad 1 0) (zoneUnit 0 0).2)) ≠ .drowse ∧
    triedIo.tried = true ∧
    (admits.reserveIn (admits.planOf (rangeBlocks zns 0 1)) (rangeBlocks zns 0 1) (admits.sliceOrder (unitGroup (zoneQuad 1 0) (zoneUnit 0 0).2))).isSome = true := by set_option maxRecDepth 50000 in decide

/-- A write of a Full zone that waits. -/
def admitsFull : State := { admits with zones := ⟨[(zkey 1 0, { st := .full })]⟩ }

theorem wit_admitBad : admitsFull.judgeZoneWrite triedIo zns ≠ stOk ∧
    admitsFull.zoneTurn triedIo zns = true := by decide

theorem wit_admitDrain : ({ admits with sched := { drain := true } } : State).sched.drain = true := by decide

def arrived (w12 : Nat) : Cmd :=
  { io 0x01 0 w12 .landing with slice := 2, secs := List.range 16, place := List.range 16, plan := [(0, 0, 0)], newBlk := 16 }

theorem wit_commit : (one keyed (arrived 15)).cmd (arrived 15).fsn = some (arrived 15) ∧
    (arrived 15).mute = false ∧
    (arrived 15).tunnel = false ∧
    (one keyed (arrived 15)).postsStopped = false ∧
    (one keyed (arrived 15)).ns 1 = some ns1 ∧
    (one keyed (arrived 15)).holdsGranted 1 = true ∧
    ((arrived 15)).sqe.cnt = 16 ∧
    (one keyed (arrived 15)).fuaLike (arrived 15) = false ∧
    unitsOf (rangeBlocks ns1 0 16) = [0] ∧
    ((arrived 15)).plan = [(0, 0, 0)] := by decide

theorem wit_commitFua : (one keyed (arrived (15 + 2 ^ 30))).cmd (arrived (15 + 2 ^ 30)).fsn = some (arrived (15 + 2 ^ 30)) ∧
    (arrived (15 + 2 ^ 30)).mute = false ∧
    (arrived (15 + 2 ^ 30)).tunnel = false ∧
    (one keyed (arrived (15 + 2 ^ 30))).postsStopped = false ∧
    (one keyed (arrived (15 + 2 ^ 30))).ns 1 = some ns1 ∧
    (one keyed (arrived (15 + 2 ^ 30))).fuaLike (arrived (15 + 2 ^ 30)) = true ∧
    ((arrived (15 + 2 ^ 30))).sqe.cnt = 16 := by decide

def grp : JGroup := { id := 4, kind := 0, fsn := 6, ns := 1, wsn := 5, recs := [⟨1, 0, 0, 0⟩] }

def closing (r : Nat) : State := { keyed with jnl := { groups := [grp], ring := r, clean := false } }

theorem wit_groupCloses : (closing (0)).groupDone grp = true ∧
    (closing (0)).groupFirst grp = true ∧
    (closing (0)).jnl.groups.find? (fun h => h.id == grp.id) = some grp ∧
    0 + ((closing 0).mapRecs grp).length + grp.recs.length + 2 ≤ ringRecs := by decide

theorem wit_groupWaits : (closing (ringRecs - 2)).groupDone grp = true ∧
    (closing (ringRecs - 2)).groupFirst grp = true ∧
    (closing (ringRecs - 2)).jnl.groups.find? (fun h => h.id == grp.id) = some grp ∧
    ringRecs < (ringRecs - 2) + ((closing (ringRecs - 2)).mapRecs grp).length + grp.recs.length + 2 := by decide

def holding : State := { keyed with map := { holds := [(1, [7], false)] } }

theorem wit_hold : holding.map.holds.find? (fun h => h.1 == 1 && !h.2.2) = some (1, [7], false) ∧
    holding.holdFree 1 [7] = true := by decide

def fdpOn : State := { keyed with hif := { keyed.hif with fdp := true } }

theorem wit_writeHandle : (one fdpOn ({ io 0x01 0 0 .fetched with sqe := { opc := 1, nsid := 1, cdw12 := 2 * 2 ^ 20, cdw13 := 9 * 65536 } })).cmd ({ io 0x01 0 0 .fetched with sqe := { opc := 1, nsid := 1, cdw12 := 2 * 2 ^ 20, cdw13 := 9 * 65536 } }).fsn = some ({ io 0x01 0 0 .fetched with sqe := { opc := 1, nsid := 1, cdw12 := 2 * 2 ^ 20, cdw13 := 9 * 65536 } }) ∧
    ({ io 0x01 0 0 .fetched with sqe := { opc := 1, nsid := 1, cdw12 := 2 * 2 ^ 20, cdw13 := 9 * 65536 } }).mute = false ∧
    ({ io 0x01 0 0 .fetched with sqe := { opc := 1, nsid := 1, cdw12 := 2 * 2 ^ 20, cdw13 := 9 * 65536 } }).tunnel = false ∧
    (one fdpOn ({ io 0x01 0 0 .fetched with sqe := { opc := 1, nsid := 1, cdw12 := 2 * 2 ^ 20, cdw13 := 9 * 65536 } })).postsStopped = false ∧
    (one fdpOn ({ io 0x01 0 0 .fetched with sqe := { opc := 1, nsid := 1, cdw12 := 2 * 2 ^ 20, cdw13 := 9 * 65536 } })).ns 1 = some ns1 ∧
    (one fdpOn ({ io 0x01 0 0 .fetched with sqe := { opc := 1, nsid := 1, cdw12 := 2 * 2 ^ 20, cdw13 := 9 * 65536 } })).myTurn ({ io 0x01 0 0 .fetched with sqe := { opc := 1, nsid := 1, cdw12 := 2 * 2 ^ 20, cdw13 := 9 * 65536 } }) = true ∧
    (one fdpOn ({ io 0x01 0 0 .fetched with sqe := { opc := 1, nsid := 1, cdw12 := 2 * 2 ^ 20, cdw13 := 9 * 65536 } })).badHandle ({ io 0x01 0 0 .fetched with sqe := { opc := 1, nsid := 1, cdw12 := 2 * 2 ^ 20, cdw13 := 9 * 65536 } }) ns1 = true := by decide

theorem wit_writeWaits : (one (lockedBy ⟨9, 1, 0, 0, false, true⟩) (io 0x01 0 0 .fetched)).cmd (io 0x01 0 0 .fetched).fsn = some (io 0x01 0 0 .fetched) ∧
    (io 0x01 0 0 .fetched).mute = false ∧
    (io 0x01 0 0 .fetched).tunnel = false ∧
    (one (lockedBy ⟨9, 1, 0, 0, false, true⟩) (io 0x01 0 0 .fetched)).postsStopped = false ∧
    (one (lockedBy ⟨9, 1, 0, 0, false, true⟩) (io 0x01 0 0 .fetched)).ns 1 = some ns1 ∧
    (one (lockedBy ⟨9, 1, 0, 0, false, true⟩) (io 0x01 0 0 .fetched)).myTurn (io 0x01 0 0 .fetched) = true ∧
    (one (lockedBy ⟨9, 1, 0, 0, false, true⟩) (io 0x01 0 0 .fetched)).badHandle (io 0x01 0 0 .fetched) ns1 = false ∧
    (one (lockedBy ⟨9, 1, 0, 0, false, true⟩) (io 0x01 0 0 .fetched)).noKey ns1 = false ∧
    ((one (lockedBy ⟨9, 1, 0, 0, false, true⟩) (io 0x01 0 0 .fetched)).onLocks (· ++ [Cmd.ownLock (io 0x01 0 0 .fetched) true])).lockFree 1 = false := by decide

theorem wit_appendBad : (one (zoned {}) (io 0x7D 1 0 .fetched)).cmd (io 0x7D 1 0 .fetched).fsn = some (io 0x7D 1 0 .fetched) ∧
    (io 0x7D 1 0 .fetched).mute = false ∧
    (io 0x7D 1 0 .fetched).tunnel = false ∧
    (one (zoned {}) (io 0x7D 1 0 .fetched)).postsStopped = false ∧
    (one (zoned {}) (io 0x7D 1 0 .fetched)).ns 1 = some zns ∧
    (one (zoned {}) (io 0x7D 1 0 .fetched)).myTurn (io 0x7D 1 0 .fetched) = true ∧
    ((io 0x7D 1 0 .fetched)).sqe.slba % zsze zns.fmt ≠ 0 := by decide

def readOnlyDev : State := { keyed with lvl := { keyed.lvl with rdonly := true } }

theorem wit_zeroesReadOnly : (one readOnlyDev (io 0x08 16 15 .fetched)).cmd (io 0x08 16 15 .fetched).fsn = some (io 0x08 16 15 .fetched) ∧
    (io 0x08 16 15 .fetched).mute = false ∧
    (io 0x08 16 15 .fetched).tunnel = false ∧
    (one readOnlyDev (io 0x08 16 15 .fetched)).postsStopped = false ∧
    (one readOnlyDev (io 0x08 16 15 .fetched)).ns 1 = some ns1 ∧
    (one readOnlyDev (io 0x08 16 15 .fetched)).myTurn (io 0x08 16 15 .fetched) = true ∧
    (one readOnlyDev (io 0x08 16 15 .fetched)).lvl.rdonly = true ∧
    (one readOnlyDev (io 0x08 16 15 .fetched)).locks = [] := by decide

theorem wit_zeroesFua : (one keyed (io 0x08 16 (15 + 2 ^ 30) .fetched)).cmd (io 0x08 16 (15 + 2 ^ 30) .fetched).fsn = some (io 0x08 16 (15 + 2 ^ 30) .fetched) ∧
    (io 0x08 16 (15 + 2 ^ 30) .fetched).mute = false ∧
    (io 0x08 16 (15 + 2 ^ 30) .fetched).tunnel = false ∧
    (one keyed (io 0x08 16 (15 + 2 ^ 30) .fetched)).postsStopped = false ∧
    (one keyed (io 0x08 16 (15 + 2 ^ 30) .fetched)).ns 1 = some ns1 ∧
    (one keyed (io 0x08 16 (15 + 2 ^ 30) .fetched)).myTurn (io 0x08 16 (15 + 2 ^ 30) .fetched) = true ∧
    (one keyed (io 0x08 16 (15 + 2 ^ 30) .fetched)).fuaLike (io 0x08 16 (15 + 2 ^ 30) .fetched) = true ∧
    (one keyed (io 0x08 16 (15 + 2 ^ 30) .fetched)).lvl.rdonly = false ∧
    (one keyed (io 0x08 16 (15 + 2 ^ 30) .fetched)).locks = [] := by decide

theorem wit_dsmHint : (one keyed ({ io 0x09 0 0 .fetched with sqe := { opc := 9, nsid := 1, cdw11 := 2 } })).cmd ({ io 0x09 0 0 .fetched with sqe := { opc := 9, nsid := 1, cdw11 := 2 } }).fsn = some ({ io 0x09 0 0 .fetched with sqe := { opc := 9, nsid := 1, cdw11 := 2 } }) ∧
    ({ io 0x09 0 0 .fetched with sqe := { opc := 9, nsid := 1, cdw11 := 2 } }).mute = false ∧
    ({ io 0x09 0 0 .fetched with sqe := { opc := 9, nsid := 1, cdw11 := 2 } }).tunnel = false ∧
    (one keyed ({ io 0x09 0 0 .fetched with sqe := { opc := 9, nsid := 1, cdw11 := 2 } })).postsStopped = false ∧
    (one keyed ({ io 0x09 0 0 .fetched with sqe := { opc := 9, nsid := 1, cdw11 := 2 } })).ns 1 = some ns1 ∧
    (one keyed ({ io 0x09 0 0 .fetched with sqe := { opc := 9, nsid := 1, cdw11 := 2 } })).myTurn ({ io 0x09 0 0 .fetched with sqe := { opc := 9, nsid := 1, cdw11 := 2 } }) = true ∧
    (({ io 0x09 0 0 .fetched with sqe := { opc := 9, nsid := 1, cdw11 := 2 } })).sqe.cdw11.testBit 2 = false := by decide

theorem wit_flushNone : (one flushing ({ io 0x00 0 0 .fetched with cover := [7] })).cmd ({ io 0x00 0 0 .fetched with cover := [7] }).fsn = some ({ io 0x00 0 0 .fetched with cover := [7] }) ∧
    ({ io 0x00 0 0 .fetched with cover := [7] }).mute = false ∧
    ({ io 0x00 0 0 .fetched with cover := [7] }).tunnel = false ∧
    (one flushing ({ io 0x00 0 0 .fetched with cover := [7] })).postsStopped = false ∧
    (one flushing ({ io 0x00 0 0 .fetched with cover := [7] })).ns 1 = some ns1 ∧
    (one flushing ({ io 0x00 0 0 .fetched with cover := [7] })).myTurn ({ io 0x00 0 0 .fetched with cover := [7] }) = true ∧
    (one flushing ({ io 0x00 0 0 .fetched with cover := [7] })).pwr.present = true ∧
    ∀ f ∈ (({ io 0x00 0 0 .fetched with cover := [7] })).cover, (one flushing ({ io 0x00 0 0 .fetched with cover := [7] })).jnl.groups.any (fun g => g.fsn == f) = false := by decide

theorem wit_zoneCloseExp : (one (zoned { st := .expOpen, wp := 5 }) ({ io 0x79 0 0 .fetched with sqe := { opc := 0x79, nsid := 1, cdw13 := 1 } })).cmd ({ io 0x79 0 0 .fetched with sqe := { opc := 0x79, nsid := 1, cdw13 := 1 } }).fsn = some ({ io 0x79 0 0 .fetched with sqe := { opc := 0x79, nsid := 1, cdw13 := 1 } }) ∧
    ({ io 0x79 0 0 .fetched with sqe := { opc := 0x79, nsid := 1, cdw13 := 1 } }).mute = false ∧
    ({ io 0x79 0 0 .fetched with sqe := { opc := 0x79, nsid := 1, cdw13 := 1 } }).tunnel = false ∧
    (one (zoned { st := .expOpen, wp := 5 }) ({ io 0x79 0 0 .fetched with sqe := { opc := 0x79, nsid := 1, cdw13 := 1 } })).postsStopped = false ∧
    (one (zoned { st := .expOpen, wp := 5 }) ({ io 0x79 0 0 .fetched with sqe := { opc := 0x79, nsid := 1, cdw13 := 1 } })).ns 1 = some zns ∧
    (one (zoned { st := .expOpen, wp := 5 }) ({ io 0x79 0 0 .fetched with sqe := { opc := 0x79, nsid := 1, cdw13 := 1 } })).myTurn ({ io 0x79 0 0 .fetched with sqe := { opc := 0x79, nsid := 1, cdw13 := 1 } }) = true ∧
    (one (zoned { st := .expOpen, wp := 5 }) ({ io 0x79 0 0 .fetched with sqe := { opc := 0x79, nsid := 1, cdw13 := 1 } })).zoneActTurn ({ io 0x79 0 0 .fetched with sqe := { opc := 0x79, nsid := 1, cdw13 := 1 } }) zns = true ∧
    ((one (zoned { st := .expOpen, wp := 5 }) ({ io 0x79 0 0 .fetched with sqe := { opc := 0x79, nsid := 1, cdw13 := 1 } })).zone 1 (zns.zoneOf (({ io 0x79 0 0 .fetched with sqe := { opc := 0x79, nsid := 1, cdw13 := 1 } })).sqe.slba)).st = .expOpen ∧
    (one (zoned { st := .expOpen, wp := 5 }) ({ io 0x79 0 0 .fetched with sqe := { opc := 0x79, nsid := 1, cdw13 := 1 } })).quotaUsed 1 0 zns = false := by decide

theorem wit_zoneFinishOpen : (one (zoned { st := .impOpen, wp := 5 }) ({ io 0x79 0 0 .fetched with sqe := { opc := 0x79, nsid := 1, cdw13 := 2 } })).cmd ({ io 0x79 0 0 .fetched with sqe := { opc := 0x79, nsid := 1, cdw13 := 2 } }).fsn = some ({ io 0x79 0 0 .fetched with sqe := { opc := 0x79, nsid := 1, cdw13 := 2 } }) ∧
    ({ io 0x79 0 0 .fetched with sqe := { opc := 0x79, nsid := 1, cdw13 := 2 } }).mute = false ∧
    ({ io 0x79 0 0 .fetched with sqe := { opc := 0x79, nsid := 1, cdw13 := 2 } }).tunnel = false ∧
    (one (zoned { st := .impOpen, wp := 5 }) ({ io 0x79 0 0 .fetched with sqe := { opc := 0x79, nsid := 1, cdw13 := 2 } })).postsStopped = false ∧
    (one (zoned { st := .impOpen, wp := 5 }) ({ io 0x79 0 0 .fetched with sqe := { opc := 0x79, nsid := 1, cdw13 := 2 } })).ns 1 = some zns ∧
    (one (zoned { st := .impOpen, wp := 5 }) ({ io 0x79 0 0 .fetched with sqe := { opc := 0x79, nsid := 1, cdw13 := 2 } })).myTurn ({ io 0x79 0 0 .fetched with sqe := { opc := 0x79, nsid := 1, cdw13 := 2 } }) = true ∧
    (one (zoned { st := .impOpen, wp := 5 }) ({ io 0x79 0 0 .fetched with sqe := { opc := 0x79, nsid := 1, cdw13 := 2 } })).zoneActTurn ({ io 0x79 0 0 .fetched with sqe := { opc := 0x79, nsid := 1, cdw13 := 2 } }) zns = true ∧
    ((one (zoned { st := .impOpen, wp := 5 }) ({ io 0x79 0 0 .fetched with sqe := { opc := 0x79, nsid := 1, cdw13 := 2 } })).zone 1 (zns.zoneOf (({ io 0x79 0 0 .fetched with sqe := { opc := 0x79, nsid := 1, cdw13 := 2 } })).sqe.slba)).st = .impOpen ∧
    (one (zoned { st := .impOpen, wp := 5 }) ({ io 0x79 0 0 .fetched with sqe := { opc := 0x79, nsid := 1, cdw13 := 2 } })).quotaUsed 1 0 zns = false := by decide

theorem wit_zoneFinishClosed : (one (zoned { st := .closed, wp := 5 }) ({ io 0x79 0 0 .fetched with sqe := { opc := 0x79, nsid := 1, cdw13 := 2 } })).cmd ({ io 0x79 0 0 .fetched with sqe := { opc := 0x79, nsid := 1, cdw13 := 2 } }).fsn = some ({ io 0x79 0 0 .fetched with sqe := { opc := 0x79, nsid := 1, cdw13 := 2 } }) ∧
    ({ io 0x79 0 0 .fetched with sqe := { opc := 0x79, nsid := 1, cdw13 := 2 } }).mute = false ∧
    ({ io 0x79 0 0 .fetched with sqe := { opc := 0x79, nsid := 1, cdw13 := 2 } }).tunnel = false ∧
    (one (zoned { st := .closed, wp := 5 }) ({ io 0x79 0 0 .fetched with sqe := { opc := 0x79, nsid := 1, cdw13 := 2 } })).postsStopped = false ∧
    (one (zoned { st := .closed, wp := 5 }) ({ io 0x79 0 0 .fetched with sqe := { opc := 0x79, nsid := 1, cdw13 := 2 } })).ns 1 = some zns ∧
    (one (zoned { st := .closed, wp := 5 }) ({ io 0x79 0 0 .fetched with sqe := { opc := 0x79, nsid := 1, cdw13 := 2 } })).myTurn ({ io 0x79 0 0 .fetched with sqe := { opc := 0x79, nsid := 1, cdw13 := 2 } }) = true ∧
    (one (zoned { st := .closed, wp := 5 }) ({ io 0x79 0 0 .fetched with sqe := { opc := 0x79, nsid := 1, cdw13 := 2 } })).zoneActTurn ({ io 0x79 0 0 .fetched with sqe := { opc := 0x79, nsid := 1, cdw13 := 2 } }) zns = true ∧
    ((one (zoned { st := .closed, wp := 5 }) ({ io 0x79 0 0 .fetched with sqe := { opc := 0x79, nsid := 1, cdw13 := 2 } })).zone 1 (zns.zoneOf (({ io 0x79 0 0 .fetched with sqe := { opc := 0x79, nsid := 1, cdw13 := 2 } })).sqe.slba)).st = .closed ∧
    (one (zoned { st := .closed, wp := 5 }) ({ io 0x79 0 0 .fetched with sqe := { opc := 0x79, nsid := 1, cdw13 := 2 } })).quotaUsed 1 0 zns = false := by decide

theorem wit_zoneOpenImp : (one (zoned { st := .impOpen, wp := 5 }) ({ io 0x79 0 0 .fetched with sqe := { opc := 0x79, nsid := 1, cdw13 := 3 } })).cmd ({ io 0x79 0 0 .fetched with sqe := { opc := 0x79, nsid := 1, cdw13 := 3 } }).fsn = some ({ io 0x79 0 0 .fetched with sqe := { opc := 0x79, nsid := 1, cdw13 := 3 } }) ∧
    ({ io 0x79 0 0 .fetched with sqe := { opc := 0x79, nsid := 1, cdw13 := 3 } }).mute = false ∧
    ({ io 0x79 0 0 .fetched with sqe := { opc := 0x79, nsid := 1, cdw13 := 3 } }).tunnel = false ∧
    (one (zoned { st := .impOpen, wp := 5 }) ({ io 0x79 0 0 .fetched with sqe := { opc := 0x79, nsid := 1, cdw13 := 3 } })).postsStopped = false ∧
    (one (zoned { st := .impOpen, wp := 5 }) ({ io 0x79 0 0 .fetched with sqe := { opc := 0x79, nsid := 1, cdw13 := 3 } })).ns 1 = some zns ∧
    (one (zoned { st := .impOpen, wp := 5 }) ({ io 0x79 0 0 .fetched with sqe := { opc := 0x79, nsid := 1, cdw13 := 3 } })).myTurn ({ io 0x79 0 0 .fetched with sqe := { opc := 0x79, nsid := 1, cdw13 := 3 } }) = true ∧
    (one (zoned { st := .impOpen, wp := 5 }) ({ io 0x79 0 0 .fetched with sqe := { opc := 0x79, nsid := 1, cdw13 := 3 } })).zoneActTurn ({ io 0x79 0 0 .fetched with sqe := { opc := 0x79, nsid := 1, cdw13 := 3 } }) zns = true ∧
    ((one (zoned { st := .impOpen, wp := 5 }) ({ io 0x79 0 0 .fetched with sqe := { opc := 0x79, nsid := 1, cdw13 := 3 } })).zone 1 (zns.zoneOf (({ io 0x79 0 0 .fetched with sqe := { opc := 0x79, nsid := 1, cdw13 := 3 } })).sqe.slba)).st = .impOpen ∧
    (one (zoned { st := .impOpen, wp := 5 }) ({ io 0x79 0 0 .fetched with sqe := { opc := 0x79, nsid := 1, cdw13 := 3 } })).quotaUsed 1 0 zns = false := by decide

theorem wit_zoneOpenEmpty : (one (zoned { st := .empty, wp := 0 }) ({ io 0x79 0 0 .fetched with sqe := { opc := 0x79, nsid := 1, cdw13 := 3 } })).cmd ({ io 0x79 0 0 .fetched with sqe := { opc := 0x79, nsid := 1, cdw13 := 3 } }).fsn = some ({ io 0x79 0 0 .fetched with sqe := { opc := 0x79, nsid := 1, cdw13 := 3 } }) ∧
    ({ io 0x79 0 0 .fetched with sqe := { opc := 0x79, nsid := 1, cdw13 := 3 } }).mute = false ∧
    ({ io 0x79 0 0 .fetched with sqe := { opc := 0x79, nsid := 1, cdw13 := 3 } }).tunnel = false ∧
    (one (zoned { st := .empty, wp := 0 }) ({ io 0x79 0 0 .fetched with sqe := { opc := 0x79, nsid := 1, cdw13 := 3 } })).postsStopped = false ∧
    (one (zoned { st := .empty, wp := 0 }) ({ io 0x79 0 0 .fetched with sqe := { opc := 0x79, nsid := 1, cdw13 := 3 } })).ns 1 = some zns ∧
    (one (zoned { st := .empty, wp := 0 }) ({ io 0x79 0 0 .fetched with sqe := { opc := 0x79, nsid := 1, cdw13 := 3 } })).myTurn ({ io 0x79 0 0 .fetched with sqe := { opc := 0x79, nsid := 1, cdw13 := 3 } }) = true ∧
    (one (zoned { st := .empty, wp := 0 }) ({ io 0x79 0 0 .fetched with sqe := { opc := 0x79, nsid := 1, cdw13 := 3 } })).zoneActTurn ({ io 0x79 0 0 .fetched with sqe := { opc := 0x79, nsid := 1, cdw13 := 3 } }) zns = true ∧
    ((one (zoned { st := .empty, wp := 0 }) ({ io 0x79 0 0 .fetched with sqe := { opc := 0x79, nsid := 1, cdw13 := 3 } })).zone 1 (zns.zoneOf (({ io 0x79 0 0 .fetched with sqe := { opc := 0x79, nsid := 1, cdw13 := 3 } })).sqe.slba)).st = .empty ∧
    (one (zoned { st := .empty, wp := 0 }) ({ io 0x79 0 0 .fetched with sqe := { opc := 0x79, nsid := 1, cdw13 := 3 } })).quotaUsed 1 0 zns = false := by decide

theorem wit_zoneResetOpen : (one (zoned { st := .expOpen, wp := 5 }) ({ io 0x79 0 0 .fetched with sqe := { opc := 0x79, nsid := 1, cdw13 := 4 } })).cmd ({ io 0x79 0 0 .fetched with sqe := { opc := 0x79, nsid := 1, cdw13 := 4 } }).fsn = some ({ io 0x79 0 0 .fetched with sqe := { opc := 0x79, nsid := 1, cdw13 := 4 } }) ∧
    ({ io 0x79 0 0 .fetched with sqe := { opc := 0x79, nsid := 1, cdw13 := 4 } }).mute = false ∧
    ({ io 0x79 0 0 .fetched with sqe := { opc := 0x79, nsid := 1, cdw13 := 4 } }).tunnel = false ∧
    (one (zoned { st := .expOpen, wp := 5 }) ({ io 0x79 0 0 .fetched with sqe := { opc := 0x79, nsid := 1, cdw13 := 4 } })).postsStopped = false ∧
    (one (zoned { st := .expOpen, wp := 5 }) ({ io 0x79 0 0 .fetched with sqe := { opc := 0x79, nsid := 1, cdw13 := 4 } })).ns 1 = some zns ∧
    (one (zoned { st := .expOpen, wp := 5 }) ({ io 0x79 0 0 .fetched with sqe := { opc := 0x79, nsid := 1, cdw13 := 4 } })).myTurn ({ io 0x79 0 0 .fetched with sqe := { opc := 0x79, nsid := 1, cdw13 := 4 } }) = true ∧
    (one (zoned { st := .expOpen, wp := 5 }) ({ io 0x79 0 0 .fetched with sqe := { opc := 0x79, nsid := 1, cdw13 := 4 } })).zoneActTurn ({ io 0x79 0 0 .fetched with sqe := { opc := 0x79, nsid := 1, cdw13 := 4 } }) zns = true ∧
    ((one (zoned { st := .expOpen, wp := 5 }) ({ io 0x79 0 0 .fetched with sqe := { opc := 0x79, nsid := 1, cdw13 := 4 } })).zone 1 (zns.zoneOf (({ io 0x79 0 0 .fetched with sqe := { opc := 0x79, nsid := 1, cdw13 := 4 } })).sqe.slba)).st = .expOpen ∧
    (one (zoned { st := .expOpen, wp := 5 }) ({ io 0x79 0 0 .fetched with sqe := { opc := 0x79, nsid := 1, cdw13 := 4 } })).quotaUsed 1 0 zns = false := by decide

def quotaFull : State := { zoned {} with nss := ⟨[(1, some { zns with quota := 1 })]⟩, zones := ⟨[(zkey 1 1, { st := .closed, wp := 1 })]⟩ }

theorem wit_zoneQuota : (one quotaFull ({ io 0x79 0 0 .fetched with sqe := { opc := 0x79, nsid := 1, cdw13 := 3 } })).cmd ({ io 0x79 0 0 .fetched with sqe := { opc := 0x79, nsid := 1, cdw13 := 3 } }).fsn = some ({ io 0x79 0 0 .fetched with sqe := { opc := 0x79, nsid := 1, cdw13 := 3 } }) ∧
    ({ io 0x79 0 0 .fetched with sqe := { opc := 0x79, nsid := 1, cdw13 := 3 } }).mute = false ∧
    ({ io 0x79 0 0 .fetched with sqe := { opc := 0x79, nsid := 1, cdw13 := 3 } }).tunnel = false ∧
    (one quotaFull ({ io 0x79 0 0 .fetched with sqe := { opc := 0x79, nsid := 1, cdw13 := 3 } })).postsStopped = false ∧
    (one quotaFull ({ io 0x79 0 0 .fetched with sqe := { opc := 0x79, nsid := 1, cdw13 := 3 } })).ns 1 = some { zns with quota := 1 } ∧
    (one quotaFull ({ io 0x79 0 0 .fetched with sqe := { opc := 0x79, nsid := 1, cdw13 := 3 } })).myTurn ({ io 0x79 0 0 .fetched with sqe := { opc := 0x79, nsid := 1, cdw13 := 3 } }) = true ∧
    (one quotaFull ({ io 0x79 0 0 .fetched with sqe := { opc := 0x79, nsid := 1, cdw13 := 3 } })).zoneActTurn ({ io 0x79 0 0 .fetched with sqe := { opc := 0x79, nsid := 1, cdw13 := 3 } }) { zns with quota := 1 } = true ∧
    (one quotaFull ({ io 0x79 0 0 .fetched with sqe := { opc := 0x79, nsid := 1, cdw13 := 3 } })).quotaUsed 1 0 { zns with quota := 1 } = true := by decide

def zonedAll (st : ZState) : State := { zoned {} with zones := ⟨[(zkey 1 1, { st := st, wp := 1 }), (zkey 1 2, { st := .offline })]⟩ }

theorem wit_zoneAllClose : (one (zonedAll .impOpen) ({ io 0x79 0 0 .fetched with sqe := { opc := 0x79, nsid := 1, cdw13 := 1 + 256 } })).cmd ({ io 0x79 0 0 .fetched with sqe := { opc := 0x79, nsid := 1, cdw13 := 1 + 256 } }).fsn = some ({ io 0x79 0 0 .fetched with sqe := { opc := 0x79, nsid := 1, cdw13 := 1 + 256 } }) ∧
    ({ io 0x79 0 0 .fetched with sqe := { opc := 0x79, nsid := 1, cdw13 := 1 + 256 } }).mute = false ∧
    ({ io 0x79 0 0 .fetched with sqe := { opc := 0x79, nsid := 1, cdw13 := 1 + 256 } }).tunnel = false ∧
    (one (zonedAll .impOpen) ({ io 0x79 0 0 .fetched with sqe := { opc := 0x79, nsid := 1, cdw13 := 1 + 256 } })).postsStopped = false ∧
    (one (zonedAll .impOpen) ({ io 0x79 0 0 .fetched with sqe := { opc := 0x79, nsid := 1, cdw13 := 1 + 256 } })).ns 1 = some zns ∧
    (one (zonedAll .impOpen) ({ io 0x79 0 0 .fetched with sqe := { opc := 0x79, nsid := 1, cdw13 := 1 + 256 } })).myTurn ({ io 0x79 0 0 .fetched with sqe := { opc := 0x79, nsid := 1, cdw13 := 1 + 256 } }) = true ∧
    (({ io 0x79 0 0 .fetched with sqe := { opc := 0x79, nsid := 1, cdw13 := 1 + 256 } })).sqe.selAll = true ∧
    (({ io 0x79 0 0 .fetched with sqe := { opc := 0x79, nsid := 1, cdw13 := 1 + 256 } })).sqe.zsa = 1 ∧
    (one (zonedAll .impOpen) ({ io 0x79 0 0 .fetched with sqe := { opc := 0x79, nsid := 1, cdw13 := 1 + 256 } })).zoneActTurn ({ io 0x79 0 0 .fetched with sqe := { opc := 0x79, nsid := 1, cdw13 := 1 + 256 } }) zns = true ∧
    risingL (one (zonedAll .impOpen) ({ io 0x79 0 0 .fetched with sqe := { opc := 0x79, nsid := 1, cdw13 := 1 + 256 } })).zones.items = true ∧
    (one (zonedAll .impOpen) ({ io 0x79 0 0 .fetched with sqe := { opc := 0x79, nsid := 1, cdw13 := 1 + 256 } })).lvl.rdonly = false := by decide

theorem wit_zoneAllFinish : (one (zonedAll .closed) ({ io 0x79 0 0 .fetched with sqe := { opc := 0x79, nsid := 1, cdw13 := 2 + 256 } })).cmd ({ io 0x79 0 0 .fetched with sqe := { opc := 0x79, nsid := 1, cdw13 := 2 + 256 } }).fsn = some ({ io 0x79 0 0 .fetched with sqe := { opc := 0x79, nsid := 1, cdw13 := 2 + 256 } }) ∧
    ({ io 0x79 0 0 .fetched with sqe := { opc := 0x79, nsid := 1, cdw13 := 2 + 256 } }).mute = false ∧
    ({ io 0x79 0 0 .fetched with sqe := { opc := 0x79, nsid := 1, cdw13 := 2 + 256 } }).tunnel = false ∧
    (one (zonedAll .closed) ({ io 0x79 0 0 .fetched with sqe := { opc := 0x79, nsid := 1, cdw13 := 2 + 256 } })).postsStopped = false ∧
    (one (zonedAll .closed) ({ io 0x79 0 0 .fetched with sqe := { opc := 0x79, nsid := 1, cdw13 := 2 + 256 } })).ns 1 = some zns ∧
    (one (zonedAll .closed) ({ io 0x79 0 0 .fetched with sqe := { opc := 0x79, nsid := 1, cdw13 := 2 + 256 } })).myTurn ({ io 0x79 0 0 .fetched with sqe := { opc := 0x79, nsid := 1, cdw13 := 2 + 256 } }) = true ∧
    (({ io 0x79 0 0 .fetched with sqe := { opc := 0x79, nsid := 1, cdw13 := 2 + 256 } })).sqe.selAll = true ∧
    (({ io 0x79 0 0 .fetched with sqe := { opc := 0x79, nsid := 1, cdw13 := 2 + 256 } })).sqe.zsa = 2 ∧
    (one (zonedAll .closed) ({ io 0x79 0 0 .fetched with sqe := { opc := 0x79, nsid := 1, cdw13 := 2 + 256 } })).zoneActTurn ({ io 0x79 0 0 .fetched with sqe := { opc := 0x79, nsid := 1, cdw13 := 2 + 256 } }) zns = true ∧
    risingL (one (zonedAll .closed) ({ io 0x79 0 0 .fetched with sqe := { opc := 0x79, nsid := 1, cdw13 := 2 + 256 } })).zones.items = true ∧
    (one (zonedAll .closed) ({ io 0x79 0 0 .fetched with sqe := { opc := 0x79, nsid := 1, cdw13 := 2 + 256 } })).lvl.rdonly = false := by decide

theorem wit_zoneAllOpen : (one (zonedAll .closed) ({ io 0x79 0 0 .fetched with sqe := { opc := 0x79, nsid := 1, cdw13 := 3 + 256 } })).cmd ({ io 0x79 0 0 .fetched with sqe := { opc := 0x79, nsid := 1, cdw13 := 3 + 256 } }).fsn = some ({ io 0x79 0 0 .fetched with sqe := { opc := 0x79, nsid := 1, cdw13 := 3 + 256 } }) ∧
    ({ io 0x79 0 0 .fetched with sqe := { opc := 0x79, nsid := 1, cdw13 := 3 + 256 } }).mute = false ∧
    ({ io 0x79 0 0 .fetched with sqe := { opc := 0x79, nsid := 1, cdw13 := 3 + 256 } }).tunnel = false ∧
    (one (zonedAll .closed) ({ io 0x79 0 0 .fetched with sqe := { opc := 0x79, nsid := 1, cdw13 := 3 + 256 } })).postsStopped = false ∧
    (one (zonedAll .closed) ({ io 0x79 0 0 .fetched with sqe := { opc := 0x79, nsid := 1, cdw13 := 3 + 256 } })).ns 1 = some zns ∧
    (one (zonedAll .closed) ({ io 0x79 0 0 .fetched with sqe := { opc := 0x79, nsid := 1, cdw13 := 3 + 256 } })).myTurn ({ io 0x79 0 0 .fetched with sqe := { opc := 0x79, nsid := 1, cdw13 := 3 + 256 } }) = true ∧
    (({ io 0x79 0 0 .fetched with sqe := { opc := 0x79, nsid := 1, cdw13 := 3 + 256 } })).sqe.selAll = true ∧
    (({ io 0x79 0 0 .fetched with sqe := { opc := 0x79, nsid := 1, cdw13 := 3 + 256 } })).sqe.zsa = 3 ∧
    (one (zonedAll .closed) ({ io 0x79 0 0 .fetched with sqe := { opc := 0x79, nsid := 1, cdw13 := 3 + 256 } })).zoneActTurn ({ io 0x79 0 0 .fetched with sqe := { opc := 0x79, nsid := 1, cdw13 := 3 + 256 } }) zns = true ∧
    risingL (one (zonedAll .closed) ({ io 0x79 0 0 .fetched with sqe := { opc := 0x79, nsid := 1, cdw13 := 3 + 256 } })).zones.items = true ∧
    (one (zonedAll .closed) ({ io 0x79 0 0 .fetched with sqe := { opc := 0x79, nsid := 1, cdw13 := 3 + 256 } })).lvl.rdonly = false := by decide

def zonedRo : State := { zoned { st := .closed, wp := 5 } with lvl := { keyed.lvl with rdonly := true } }

theorem wit_zoneRoClose : (one zonedRo ({ io 0x79 0 0 .fetched with sqe := { opc := 0x79, nsid := 1, cdw13 := 1 } })).cmd ({ io 0x79 0 0 .fetched with sqe := { opc := 0x79, nsid := 1, cdw13 := 1 } }).fsn = some ({ io 0x79 0 0 .fetched with sqe := { opc := 0x79, nsid := 1, cdw13 := 1 } }) ∧
    ({ io 0x79 0 0 .fetched with sqe := { opc := 0x79, nsid := 1, cdw13 := 1 } }).mute = false ∧
    ({ io 0x79 0 0 .fetched with sqe := { opc := 0x79, nsid := 1, cdw13 := 1 } }).tunnel = false ∧
    (one zonedRo ({ io 0x79 0 0 .fetched with sqe := { opc := 0x79, nsid := 1, cdw13 := 1 } })).postsStopped = false ∧
    (one zonedRo ({ io 0x79 0 0 .fetched with sqe := { opc := 0x79, nsid := 1, cdw13 := 1 } })).ns 1 = some zns ∧
    (one zonedRo ({ io 0x79 0 0 .fetched with sqe := { opc := 0x79, nsid := 1, cdw13 := 1 } })).myTurn ({ io 0x79 0 0 .fetched with sqe := { opc := 0x79, nsid := 1, cdw13 := 1 } }) = true ∧
    (one zonedRo ({ io 0x79 0 0 .fetched with sqe := { opc := 0x79, nsid := 1, cdw13 := 1 } })).lvl.rdonly = true ∧
    (one zonedRo ({ io 0x79 0 0 .fetched with sqe := { opc := 0x79, nsid := 1, cdw13 := 1 } })).zoneActTurn ({ io 0x79 0 0 .fetched with sqe := { opc := 0x79, nsid := 1, cdw13 := 1 } }) zns = true := by decide

theorem wit_zoneRoFinish : (one zonedRo ({ io 0x79 0 0 .fetched with sqe := { opc := 0x79, nsid := 1, cdw13 := 2 } })).cmd ({ io 0x79 0 0 .fetched with sqe := { opc := 0x79, nsid := 1, cdw13 := 2 } }).fsn = some ({ io 0x79 0 0 .fetched with sqe := { opc := 0x79, nsid := 1, cdw13 := 2 } }) ∧
    ({ io 0x79 0 0 .fetched with sqe := { opc := 0x79, nsid := 1, cdw13 := 2 } }).mute = false ∧
    ({ io 0x79 0 0 .fetched with sqe := { opc := 0x79, nsid := 1, cdw13 := 2 } }).tunnel = false ∧
    (one zonedRo ({ io 0x79 0 0 .fetched with sqe := { opc := 0x79, nsid := 1, cdw13 := 2 } })).postsStopped = false ∧
    (one zonedRo ({ io 0x79 0 0 .fetched with sqe := { opc := 0x79, nsid := 1, cdw13 := 2 } })).ns 1 = some zns ∧
    (one zonedRo ({ io 0x79 0 0 .fetched with sqe := { opc := 0x79, nsid := 1, cdw13 := 2 } })).myTurn ({ io 0x79 0 0 .fetched with sqe := { opc := 0x79, nsid := 1, cdw13 := 2 } }) = true ∧
    (one zonedRo ({ io 0x79 0 0 .fetched with sqe := { opc := 0x79, nsid := 1, cdw13 := 2 } })).lvl.rdonly = true ∧
    (one zonedRo ({ io 0x79 0 0 .fetched with sqe := { opc := 0x79, nsid := 1, cdw13 := 2 } })).zoneActTurn ({ io 0x79 0 0 .fetched with sqe := { opc := 0x79, nsid := 1, cdw13 := 2 } }) zns = true := by decide

theorem wit_zoneRoOpen : (one zonedRo ({ io 0x79 0 0 .fetched with sqe := { opc := 0x79, nsid := 1, cdw13 := 3 } })).cmd ({ io 0x79 0 0 .fetched with sqe := { opc := 0x79, nsid := 1, cdw13 := 3 } }).fsn = some ({ io 0x79 0 0 .fetched with sqe := { opc := 0x79, nsid := 1, cdw13 := 3 } }) ∧
    ({ io 0x79 0 0 .fetched with sqe := { opc := 0x79, nsid := 1, cdw13 := 3 } }).mute = false ∧
    ({ io 0x79 0 0 .fetched with sqe := { opc := 0x79, nsid := 1, cdw13 := 3 } }).tunnel = false ∧
    (one zonedRo ({ io 0x79 0 0 .fetched with sqe := { opc := 0x79, nsid := 1, cdw13 := 3 } })).postsStopped = false ∧
    (one zonedRo ({ io 0x79 0 0 .fetched with sqe := { opc := 0x79, nsid := 1, cdw13 := 3 } })).ns 1 = some zns ∧
    (one zonedRo ({ io 0x79 0 0 .fetched with sqe := { opc := 0x79, nsid := 1, cdw13 := 3 } })).myTurn ({ io 0x79 0 0 .fetched with sqe := { opc := 0x79, nsid := 1, cdw13 := 3 } }) = true ∧
    (one zonedRo ({ io 0x79 0 0 .fetched with sqe := { opc := 0x79, nsid := 1, cdw13 := 3 } })).lvl.rdonly = true ∧
    (one zonedRo ({ io 0x79 0 0 .fetched with sqe := { opc := 0x79, nsid := 1, cdw13 := 3 } })).zoneActTurn ({ io 0x79 0 0 .fetched with sqe := { opc := 0x79, nsid := 1, cdw13 := 3 } }) zns = true := by decide

theorem wit_zoneRoReset : (one zonedRo ({ io 0x79 0 0 .fetched with sqe := { opc := 0x79, nsid := 1, cdw13 := 4 } })).cmd ({ io 0x79 0 0 .fetched with sqe := { opc := 0x79, nsid := 1, cdw13 := 4 } }).fsn = some ({ io 0x79 0 0 .fetched with sqe := { opc := 0x79, nsid := 1, cdw13 := 4 } }) ∧
    ({ io 0x79 0 0 .fetched with sqe := { opc := 0x79, nsid := 1, cdw13 := 4 } }).mute = false ∧
    ({ io 0x79 0 0 .fetched with sqe := { opc := 0x79, nsid := 1, cdw13 := 4 } }).tunnel = false ∧
    (one zonedRo ({ io 0x79 0 0 .fetched with sqe := { opc := 0x79, nsid := 1, cdw13 := 4 } })).postsStopped = false ∧
    (one zonedRo ({ io 0x79 0 0 .fetched with sqe := { opc := 0x79, nsid := 1, cdw13 := 4 } })).ns 1 = some zns ∧
    (one zonedRo ({ io 0x79 0 0 .fetched with sqe := { opc := 0x79, nsid := 1, cdw13 := 4 } })).myTurn ({ io 0x79 0 0 .fetched with sqe := { opc := 0x79, nsid := 1, cdw13 := 4 } }) = true ∧
    (one zonedRo ({ io 0x79 0 0 .fetched with sqe := { opc := 0x79, nsid := 1, cdw13 := 4 } })).lvl.rdonly = true ∧
    (one zonedRo ({ io 0x79 0 0 .fetched with sqe := { opc := 0x79, nsid := 1, cdw13 := 4 } })).zoneActTurn ({ io 0x79 0 0 .fetched with sqe := { opc := 0x79, nsid := 1, cdw13 := 4 } }) zns = true := by decide

theorem wit_zoneRoOffline : (one zonedRo ({ io 0x79 0 0 .fetched with sqe := { opc := 0x79, nsid := 1, cdw13 := 5 } })).cmd ({ io 0x79 0 0 .fetched with sqe := { opc := 0x79, nsid := 1, cdw13 := 5 } }).fsn = some ({ io 0x79 0 0 .fetched with sqe := { opc := 0x79, nsid := 1, cdw13 := 5 } }) ∧
    ({ io 0x79 0 0 .fetched with sqe := { opc := 0x79, nsid := 1, cdw13 := 5 } }).mute = false ∧
    ({ io 0x79 0 0 .fetched with sqe := { opc := 0x79, nsid := 1, cdw13 := 5 } }).tunnel = false ∧
    (one zonedRo ({ io 0x79 0 0 .fetched with sqe := { opc := 0x79, nsid := 1, cdw13 := 5 } })).postsStopped = false ∧
    (one zonedRo ({ io 0x79 0 0 .fetched with sqe := { opc := 0x79, nsid := 1, cdw13 := 5 } })).ns 1 = some zns ∧
    (one zonedRo ({ io 0x79 0 0 .fetched with sqe := { opc := 0x79, nsid := 1, cdw13 := 5 } })).myTurn ({ io 0x79 0 0 .fetched with sqe := { opc := 0x79, nsid := 1, cdw13 := 5 } }) = true ∧
    (one zonedRo ({ io 0x79 0 0 .fetched with sqe := { opc := 0x79, nsid := 1, cdw13 := 5 } })).lvl.rdonly = true ∧
    (one zonedRo ({ io 0x79 0 0 .fetched with sqe := { opc := 0x79, nsid := 1, cdw13 := 5 } })).zoneActTurn ({ io 0x79 0 0 .fetched with sqe := { opc := 0x79, nsid := 1, cdw13 := 5 } }) zns = true := by decide

def waitsFor (c : Cmd) (ls : List Lock) : State := { one keyed c with locks := ls }

theorem wit_lockGrantRead : (waitsFor (io 0x02 0 0 .lockWait) [⟨1, 1, 0, 0, false, false⟩]).lockFree 1 = true := by decide

def zeroesWait : State := waitsFor (io 0x08 16 15 .lockWait) [⟨1, 1, 16, 31, true, false⟩]

theorem wit_lockGrantZeroes : zeroesWait.lockFree 1 = true ∧
    zeroesWait.fuaLike (io 0x08 16 15 .lockWait) = false ∧
    zeroesWait.lvl.rdonly = false ∧
    unitsOf (rangeBlocks ns1 16 16) = [1] := by decide

/-- Two writes of one block that wait, neither held up by a held entry. -/
def twoWait : State :=
  { keyed with hif := { keyed.hif with cmds := [io 0x01 0 0 .lockWait, { io 0x01 0 0 .lockWait with fsn := 2 }], fsn := 3 },
               locks := [⟨1, 1, 0, 0, true, false⟩, ⟨2, 1, 0, 0, true, false⟩] }

theorem wit_lockOrder : twoWait.lockFree 1 = true ∧
    twoWait.cmd 2 = some { io 0x01 0 0 .lockWait with fsn := 2 } := by decide

/-- The quadrant's landing slices fenced: no space. -/
def admitsFenced : State := (List.range 4).foldl (fun s k => s.onUnit (uLnd (4 + k)) fun u => { u with st := .fenced }) admits

theorem wit_admitNoSpace : zoneQuad 1 0 = 1 ∧
    admitsFenced.judgeZoneWrite triedIo zns = stOk ∧
    admitsFenced.heldBack 1 1 = false ∧
    admitsFenced.reserveIn (admitsFenced.planOf (rangeBlocks zns 0 1)) (rangeBlocks zns 0 1) (admitsFenced.sliceOrder 4) = none ∧
    admitsFenced.unitState (uLnd 4) ≠ .drowse := by set_option maxRecDepth 50000 in decide

/-- The namespace with 8-byte metadata and protection type 1. -/
def piNs : Ns := { ns1 with fmt := 6, pi := 1 }

def piKeyed : State := { keyed with nss := ⟨[(1, some piNs)]⟩ }

/-- An arrived one-block write with PRCHK of the reference tag, expected `r`; its metadata zeros. -/
def piArrived (r : Nat) : Cmd :=
  { io 0x01 0 0 .landing with
    slice := 2, secs := [0], place := [0], plan := [(0, 1, 0)], newBlk := 1
    sqe := { opc := 1, nsid := 1, cdw12 := 2 ^ 26, cdw14 := r } }

theorem wit_commitPi : (one piKeyed (piArrived 1)).cmd (piArrived 1).fsn = some (piArrived 1) ∧
    (piArrived 1).mute = false ∧
    (piArrived 1).tunnel = false ∧
    (one piKeyed (piArrived 1)).postsStopped = false ∧
    (one piKeyed (piArrived 1)).ns 1 = some piNs ∧
    piNs.writeGuard (piArrived 1) 1 ((piArrived 1)).sqe.data = stRefTag ∧
    (one piKeyed (piArrived 1)).holdsGranted 1 = true ∧
    (one piKeyed (piArrived 1)).pagesOk [0] = true := by decide

theorem wit_commitPiOk : (one piKeyed (piArrived 0)).cmd (piArrived 0).fsn = some (piArrived 0) ∧
    (piArrived 0).mute = false ∧
    (piArrived 0).tunnel = false ∧
    (one piKeyed (piArrived 0)).postsStopped = false ∧
    (one piKeyed (piArrived 0)).ns 1 = some piNs ∧
    piNs.writeGuard (piArrived 0) 1 ((piArrived 0)).sqe.data = stOk ∧
    (one piKeyed (piArrived 0)).holdsGranted 1 = true ∧
    (one piKeyed (piArrived 0)).pagesOk [0] = true ∧
    unitsOf (rangeBlocks piNs 0 1) = ((piArrived 0)).plan.map (·.1) := by decide

/-- A one-block append of the zone's block at its write pointer, one below the zone's capacity. -/
def appended : Cmd :=
  { io 0x7D 0 0 .landing with slice := 2, secs := [0], place := [0], plan := [((zcap 0 - 1) / 16, 1, 0)], newBlk := 1, apAt := zcap 0 - 1 }

theorem wit_commitAppend : (one (zoned { st := .impOpen, wp := zcap 0 - 1, apRes := 1 }) (appended)).cmd (appended).fsn = some (appended) ∧
    (appended).mute = false ∧
    (appended).tunnel = false ∧
    (one (zoned { st := .impOpen, wp := zcap 0 - 1, apRes := 1 }) (appended)).postsStopped = false ∧
    (one (zoned { st := .impOpen, wp := zcap 0 - 1, apRes := 1 }) (appended)).ns 1 = some zns ∧
    ((one (zoned { st := .impOpen, wp := zcap 0 - 1, apRes := 1 }) (appended)).zone 1 0).wp = zcap 0 - 1 ∧
    unitsOf (rangeBlocks zns (zcap 0 - 1) 1) = ((appended)).plan.map (·.1) ∧
    (one (zoned { st := .impOpen, wp := zcap 0 - 1, apRes := 1 }) (appended)).holdsGranted 1 = true ∧
    (one (zoned { st := .impOpen, wp := zcap 0 - 1, apRes := 1 }) (appended)).pagesOk (((appended)).plan.map fun p => p.1 * 16) = true ∧
    zcap zns.fmt ≤ ((one (zoned { st := .impOpen, wp := zcap 0 - 1, apRes := 1 }) (appended)).zone 1 0).wp + 1 := by decide

theorem wit_commitCopy : (one keyed ({ io 0x19 0 0 .landing with slice := 2, secs := List.range 16, place := List.range 16, plan := [(0, 0, 0)], newBlk := 16, dw0 := 16 })).cmd ({ io 0x19 0 0 .landing with slice := 2, secs := List.range 16, place := List.range 16, plan := [(0, 0, 0)], newBlk := 16, dw0 := 16 }).fsn = some ({ io 0x19 0 0 .landing with slice := 2, secs := List.range 16, place := List.range 16, plan := [(0, 0, 0)], newBlk := 16, dw0 := 16 }) ∧
    ({ io 0x19 0 0 .landing with slice := 2, secs := List.range 16, place := List.range 16, plan := [(0, 0, 0)], newBlk := 16, dw0 := 16 }).mute = false ∧
    ({ io 0x19 0 0 .landing with slice := 2, secs := List.range 16, place := List.range 16, plan := [(0, 0, 0)], newBlk := 16, dw0 := 16 }).tunnel = false ∧
    (one keyed ({ io 0x19 0 0 .landing with slice := 2, secs := List.range 16, place := List.range 16, plan := [(0, 0, 0)], newBlk := 16, dw0 := 16 })).postsStopped = false ∧
    (one keyed ({ io 0x19 0 0 .landing with slice := 2, secs := List.range 16, place := List.range 16, plan := [(0, 0, 0)], newBlk := 16, dw0 := 16 })).ns 1 = some ns1 ∧
    (({ io 0x19 0 0 .landing with slice := 2, secs := List.range 16, place := List.range 16, plan := [(0, 0, 0)], newBlk := 16, dw0 := 16 })).blocks = 16 ∧
    (one keyed ({ io 0x19 0 0 .landing with slice := 2, secs := List.range 16, place := List.range 16, plan := [(0, 0, 0)], newBlk := 16, dw0 := 16 })).holdsGranted 1 = true ∧
    unitsOf (rangeBlocks ns1 0 16) = [0] := by decide

def closeTwo : State := { keyed with jnl := { groups := [{ grp with id := 3, wsn := 4 }, grp] } }

def notDone : State := { closing 0 with jnl := { groups := [{ grp with secs := [7] }] }, lnd := { secs := ⟨[(7, some { fsn := 6 })]⟩ } }

theorem wit_groupNot : notDone.groupDone { grp with secs := [7] } = false := by decide

theorem wit_groupOrder : closeTwo.groupFirst grp = false ∧
    closeTwo.groupDone grp = true := by decide

theorem wit_groupWaited : (closing (ringRecs - 2)).ringRoom (((closing (ringRecs - 2)).mapRecs grp).length + grp.recs.length + 2) = false := by decide

def holdTwo : State := { keyed with map := { holds := [(1, [7], true), (2, [7], false)] } }

theorem wit_holdWaits : holdTwo.holdFree 2 [7] = false ∧
    holdTwo.map.holds.find? (fun h => h.1 == 2 && !h.2.2) = some (2, [7], false) := by decide

/-- A group whose one programmed sector lies in a unit mapped as a run, the fine pool without a record. -/
def noRoom : State :=
  { keyed with
    map := { pool := 0, coarse := ⟨[(0, .landing 2 0)]⟩ }
    lnd := { secs := ⟨[(2 * 4096, some { fsn := 6, prog := true, loc := some 5, group := 4, info := { ns := 1 } })]⟩ }
    jnl := { groups := [{ grp with secs := [2 * 4096] }] } }

theorem wit_groupNoRoom : noRoom.groupDone { grp with secs := [8192] } = true ∧
    noRoom.groupFirst { grp with secs := [8192] } = true ∧
    noRoom.poolRoom < (noRoom.closeProms { grp with secs := [8192] }).length ∧
    noRoom.jnl.groups.find? (fun h => h.id == 4) = some { grp with secs := [8192] } := by decide

/-! ### Flash channels -/

def ent (op : Nat) : Entry := ⟨op, 15, 1, 0, 0, 5, 0, 0, 0, false, 3, true, false⟩

/-- Channel 127 with one entry listed, its LUN 15 in service, current in hand. -/
def listed (e : Entry) : State :=
  { up with sched := { budgetNow := 60000 },
            med := { chans := ⟨[(127, { mode := 3, list := [e] })]⟩, luns := ⟨[(lunKey 127 15, { st := 1, stream := some (4, 1) })]⟩ } }

theorem wit_listRead : ((listed (ent 0x01)).takeEntry 127 0 0x01).map (·.1) = some (ent 0x01) ∧
    (((listed (ent 0x01)).takeEntry 127 0 0x01).bind fun x => x.2.ringWait 127 true) = none := by decide

theorem wit_streamOpen : ((listed (ent 0x02)).takeEntry 127 0 0x02).map (·.1) = some (ent 0x02) ∧
    (((listed (ent 0x02)).takeEntry 127 0 0x02).bind fun x => x.2.ringWait 127 true) = none := by decide

theorem wit_streamExt : ((listed (ent 0x03)).takeEntry 127 0 0x03).map (·.1) = some (ent 0x03) ∧
    (((listed (ent 0x03)).takeEntry 127 0 0x03).bind fun x => x.2.ringWait 127 true) = none := by decide

theorem wit_streamClose : ((listed (ent 0x04)).takeEntry 127 0 0x04).map (·.1) = some (ent 0x04) ∧
    (((listed (ent 0x04)).takeEntry 127 0 0x04).bind fun x => x.2.ringWait 127 false) = none := by decide

theorem wit_progSlc : ((listed (ent 0x10)).takeEntry 127 0 0x10).map (·.1) = some (ent 0x10) ∧
    (((listed (ent 0x10)).takeEntry 127 0 0x10).bind fun x => x.2.ringWait 127 false) = none := by decide

theorem wit_progQlc : ((listed (ent 0x11)).takeEntry 127 0 0x11).map (·.1) = some (ent 0x11) ∧
    (((listed (ent 0x11)).takeEntry 127 0 0x11).bind fun x => x.2.ringWait 127 false) = none := by decide

theorem wit_eraseSlc : ((listed (ent 0x20)).takeEntry 127 0 0x20).map (·.1) = some (ent 0x20) ∧
    (((listed (ent 0x20)).takeEntry 127 0 0x20).bind fun x => x.2.ringWait 127 false) = none := by decide

theorem wit_eraseQlc : ((listed (ent 0x21)).takeEntry 127 0 0x21).map (·.1) = some (ent 0x21) ∧
    (((listed (ent 0x21)).takeEntry 127 0 0x21).bind fun x => x.2.ringWait 127 false) = none := by decide

theorem wit_getFeat : ((listed (ent 0x40)).takeEntry 127 0 0x40).map (·.1) = some (ent 0x40) ∧
    (((listed (ent 0x40)).takeEntry 127 0 0x40).bind fun x => x.2.ringWait 127 false) = none := by decide

theorem wit_setFeat : ((listed (ent 0x41)).takeEntry 127 0 0x41).map (·.1) = some (ent 0x41) ∧
    (((listed (ent 0x41)).takeEntry 127 0 0x41).bind fun x => x.2.ringWait 127 false) = none := by decide

theorem wit_streams : ((listed (ent 2)).closeStream 127 15).streams 127 < 8 ∧
    (ent 3).page = 4 + 1 ∧
    (ent 3).page / (listed (ent 3)).blockPages = 4 / (listed (ent 3)).blockPages ∧
    (ent 3).page % (listed (ent 3)).blockPages ≠ (listed (ent 3)).blockPages - 1 := by decide

def ran (op : Nat) (_f : Nat) : RunOp := { e := ent op, start := 0, cur := 7, time := 100 }

def running (op f : Nat) : State := { listed (ent 0) with time := { frame := f }, sched := { lunUsed := 7, budgetNow := 60000 }, med := { chans := ⟨[(127, { mode := 3 })]⟩, luns := ⟨[(lunKey 127 15, { st := 1, run := [ran op f] })]⟩ } }

theorem wit_entryEnd : (running 0x21 1).findRun 127 3 = some (15, ran 0x21 1) ∧
    (ran 0x21 1).since = none ∧
    (running 0x21 1).loadDone 127 15 3 = true ∧
    (running 0x01 1).dqFree 127 = true ∧
    (running 0x21 25).timedOut 127 (ran 0x21 25) = true ∧
    (running 0x21 1).timedOut 127 (ran 0x21 1) = false := by decide

def tried (n : Nat) : State := { up with med := { chans := ⟨[(127, { mode := 3, list := [ent 1], caTries := n })]⟩ } }

theorem wit_parity : ((tried 2).chan 127).list[0]? = some (ent 1) ∧
    ((tried 2).chan 127).mode = 3 ∧
    ((tried 2).chan 127).caTries < 3 ∧
    3 ≤ ((tried 3).chan 127).caTries := by decide

def suspendable (f : Nat) : State :=
  { (running 0x10 f).setF F.FRM_SUSP_EN 1 with
    med := { chans := ⟨[(127, { prof := { pgRes := 1, pgSusp := 1 }, list := [{ ent 1 with urg := true }] })]⟩, luns := ⟨[(lunKey 127 15, { st := 1, run := [ran 0x10 f] })]⟩ } }

theorem wit_suspend : ((suspendable 2).lun 127 15).run = [ran 0x10 2] ∧
    (suspendable 2).maySuspend 127 15 (ran 0x10 2) = true ∧
    (suspendable 1).maySuspend 127 15 (ran 0x10 1) = false := by decide

def suspended : RunOp := { ran 0x10 2 with susp := 1, since := some 2, win := 1 }

def resumable : State := { running 0x10 3 with med := { luns := ⟨[(lunKey 127 15, { st := 1, run := [suspended] })]⟩ } }

theorem wit_suspendEnds : (resumable.lun 127 15).run = [suspended] ∧
    resumable.resumeDue 127 15 suspended = true := by decide

def calib (c : Option Nat) : State := { up with med := { chans := ⟨[(127, { due := some 0, cal := c })]⟩ } }

theorem wit_calibrate : (calib none).calMayBegin 127 = true ∧
    ((calib none).chan 127).cal = none ∧
    ((calib (some 0)).chan 127).cal.isSome = true ∧
    0 ≤ (calib (some 0)).get2 F.FCH_CAL_SHIFT_MAX 127 := by decide

theorem wit_decode : up.getF F.GRP_LDPC_CFG_ERS_MAX (127 / 8) < 16383 := by decide

def slcLine : State := { up with med := { slcLines := [(3, 0, 0, 0, 30)] } }

theorem wit_slcLine : slcLine.med.slcLines.find? (fun x => x.1 == 3 && x.2.1 == 0 && x.2.2.1 == 0) = some (3, 0, 0, 0, 30) := by decide

def chunks (c : Chunk) : State := { up with med := { chunks := ⟨[(chunkKey 127 15 2, c)]⟩, luns := ⟨[(lunKey 127 15, { st := 1 })]⟩ } }

theorem wit_relocate : (chunks { used := true, st := 2 }).needsMove 127 15 2 = true ∧
    (chunks { used := true, queued := true }).pickChunkCh 127 = some (15, 0) ∧
    ((chunks { used := true, queued := true }).chunk (chunkKey 127 15 2)).queued = true ∧
    (chunks { used := true, st := 2 }).pickChunkCh 127 = some (15, 0) := by decide

def worn : State :=
  { up with med := { segs := ⟨[(3 * 2 ^ 20, some { kind := 1, chunks := List.replicate 32 (15 * 65536 + 2) })]⟩,
                     chunks := ⟨[(chunkKey 127 15 2, { used := true }), (chunkKey 127 15 3, { used := true, qe := 65535, se := 65535 })]⟩,
                     luns := ⟨[(lunKey 127 15, { st := 1 })]⟩ } }

theorem wit_wear : worn.wearOffer (32 * 3 + 31) = some (3 * 2 ^ 20) := by decide

/-- Channel 127 with one entry listed and given LUN records. -/
def listedOn (e : Entry) (ls : List (Nat × Lun)) : State := { listed e with med := { (listed e).med with luns := ⟨ls⟩ } }

def suspRun : RunOp := { e := { ent 0x10 with page := 6 }, start := 0, susp := 1, since := some 0, win := 1, cur := 7, time := 100 }

def lunSusp : State := { listedOn { ent 1 with urg := true } [(lunKey 127 15, { st := 1, run := [suspRun] })] with time := { frame := 0 } }

theorem wit_listReadConflict : (lunSusp.takeEntry 127 0 1).map (·.1) = some { ent 1 with urg := true } ∧
    ((lunSusp.takeEntry 127 0 1).bind fun x => x.2.ringWait 127 true) = none ∧
    lunSusp.suspConflict 127 { ent 1 with urg := true } = true := by decide

def streams8 : State := listedOn (ent 2) ((List.range 16).map fun l => (lunKey 127 l, if l < 8 then { st := 1, stream := some (4, 1) } else { st := 1 }))

theorem wit_streams8 : (streams8.takeEntry 127 0 2).map (·.1) = some (ent 2) ∧
    8 ≤ (streams8.closeStream 127 15).streams 127 := by decide

def noStream : State := listedOn (ent 3) [(lunKey 127 15, { st := 1 })]

theorem wit_streamNone : (noStream.takeEntry 127 0 3).map (·.1) = some (ent 3) ∧
    (noStream.lun 127 15).stream = none := by decide

def notGranted (op : Nat) : State := listed { ent op with adm := false }

def cqFilled (op : Nat) : State := { listed (ent op) with med := { (listed (ent op)).med with cqWait := ⟨[(15, [(0, 0)])]⟩ } }

theorem wit_listReadNot : (notGranted 0x01).takeEntry 127 0 0x01 = none ∧
    (cqFilled 0x01).cqFull (127 / 8) = true := by decide

theorem wit_streamOpenNot : (notGranted 0x02).takeEntry 127 0 0x02 = none ∧
    (cqFilled 0x02).cqFull (127 / 8) = true := by decide

theorem wit_streamExtNot : (notGranted 0x03).takeEntry 127 0 0x03 = none ∧
    (cqFilled 0x03).cqFull (127 / 8) = true := by decide

theorem wit_streamCloseNot : (notGranted 0x04).takeEntry 127 0 0x04 = none ∧
    (cqFilled 0x04).cqFull (127 / 8) = true := by decide

theorem wit_progSlcNot : (notGranted 0x10).takeEntry 127 0 0x10 = none ∧
    (cqFilled 0x10).cqFull (127 / 8) = true := by decide

theorem wit_progQlcNot : (notGranted 0x11).takeEntry 127 0 0x11 = none ∧
    (cqFilled 0x11).cqFull (127 / 8) = true := by decide

theorem wit_eraseSlcNot : (notGranted 0x20).takeEntry 127 0 0x20 = none ∧
    (cqFilled 0x20).cqFull (127 / 8) = true := by decide

theorem wit_eraseQlcNot : (notGranted 0x21).takeEntry 127 0 0x21 = none ∧
    (cqFilled 0x21).cqFull (127 / 8) = true := by decide

theorem wit_getFeatNot : (notGranted 0x40).takeEntry 127 0 0x40 = none ∧
    (cqFilled 0x40).cqFull (127 / 8) = true := by decide

theorem wit_setFeatNot : (notGranted 0x41).takeEntry 127 0 0x41 = none ∧
    (cqFilled 0x41).cqFull (127 / 8) = true := by decide

def loading : State := (running 0x10 1).onChan 127 fun c => { c with dq := [⟨15, false, 64, 16384, 3⟩] }

theorem wit_entryLoads : loading.findRun 127 3 = some (15, ran 0x10 1) ∧
    loading.loadDone 127 15 3 = false := by decide

def holdsOn : State := { resumable with med := { resumable.med with chans := ⟨[(127, { list := [{ ent 1 with urg := true }] })]⟩ } }

theorem wit_resumeNotDue : holdsOn.resumeDue 127 15 { suspended with win := 2 } = false ∧
    suspended.since.isSome = true := by decide

theorem wit_calNot : up.calMayBegin 127 = false ∧
    (up.chan 127).cal = none ∧
    (calib (some 0)).get2 F.FCH_CAL_SHIFT_MAX 127 < 64 := by decide

theorem wit_relocateNot : up.needsMove 127 15 2 = false := by decide

/-- Table 8.4: ranks 0 and 1 of line 0 lost, rank 2 holds 0x10. -/
def table84 (p : Nat) : Option (List Byte) := solveSlot 0 ([0x82], [0x26]) (fun p => if p = unitPos 0 2 then [0x10] else [0]) [unitPos 0 0, unitPos 0 1] p

/-- Table 8.4. -/
theorem test_table84 : table84 (unitPos 0 0) = some [0x35] ∧
    table84 (unitPos 0 1) = some [0xA7] ∧
    gfMul 2 0x92 = 0x39 ∧ gfMul 3 0x35 = 0x5F ∧ gfMul 0x10 (gfPow 2) = 0x40 := by set_option maxRecDepth 100000 in decide

/-- Thirty units of one byte each. -/
def bytes30 (k : Nat) : List Byte := [BitVec.ofNat 8 (7 * k + 1)]

theorem wit_rebuildTwo : ∀ k, k < 30 → (bytes30 k).length = 1 := fun _ _ => rfl

/-! ### Capacity, garbage collection, the journal and the map -/

/-- A device whose quadrant 3 has few good chunks: 12 LUNs of channel 127 are out of service. -/
def shrunk (n : Nat) : State :=
  { zoned {} with med := { luns := ⟨(List.range n).map fun l => (lunKey 127 l, { st := 2 })⟩ } }

theorem wit_offline : (shrunk 16).atGuard 3 = true ∧
    (shrunk 16).pickOffline 3 = some (1, 2) ∧
    (shrunk 16).ns 1 = some zns := by decide

theorem wit_readOnly : (shrunk 16).spare 3 ≤ floorSegs ∧
    (shrunk 16).lvl.rdonly = false ∧
    floorSegs < up.spare 3 := by decide

def coldRec : Fine := { ents := List.replicate 16 .zero, owner := 0, writes := 7, frame := 0 }

def demotable (n : Nat) : State :=
  { up with
    map := { pool := n, coarse := ⟨[(0, .fine 0)]⟩, fine := ⟨[(0, some coldRec)]⟩ }
    time := { frame := 2 ^ 30 }
    med := { streams := ⟨[(streamKey 0 192, { seg := some 9, pos := 0 })]⟩ } }

theorem wit_demote : (demotable 1).coarse 0 = .fine 0 ∧
    (demotable 1).fineRec 0 = some coldRec ∧
    (demotable 1).poolLow = true ∧
    (demotable 1).notDemoting 0 = true ∧
    (demotable 1).map.fine.items.all (fun e => match e.2 with | some x => decide (coldRec.frame ≤ x.frame) | none => true) = true ∧
    (demotable 1).unitQuad 0 = 0 ∧
    (demotable 1).map.demoted.get 0 0 < 64 ∧
    ((List.range 16).all fun k => ((demotable 1).copySrc (0 * 16 + k)).isSome) = true ∧
    ((demotable 1).copyPlaces ((demotable 1).freestSlice 0) 16).isSome = true ∧
    ((demotable 1).gcDest 0 0 16 none).isSome = true ∧
    (demotable (2 ^ 30)).poolLow = false := by set_option maxRecDepth 100000 in decide

/-- A staged unit of quadrant 3 with one sector still named, its program unit complete. -/
def folding : State :=
  { up with
    med := { folding := 8, staged := [(mloc 96 0 0 0, 1)], slcUnits := ⟨[(3, 2)]⟩,
             secs := ⟨[(mloc 96 0 0 0, some { info := { key := 80 }, data := [1], dest := some ((3 * 2 ^ 20 + 9) * 65536) })]⟩ }
    map := { coarse := ⟨[(5, .media 96 0 0 0)]⟩ } }

theorem wit_fold : folding.med.folding.testBit 3 = true ∧
    folding.foldable 3 = some (mloc 96 0 0 0, 1) ∧
    (folding.stagedKeys (mloc 96 0 0 0, 1)).map (·.1) = [80] ∧
    ∀ y ∈ folding.stagedKeys (mloc 96 0 0 0, 1), folding.coldUnit (y.1 / 16) = false ∧
    (folding.foldPlaces (folding.freestSlice 3) (folding.stagedKeys (mloc 96 0 0 0, 1))).isSome = true ∧
    up.med.folding.testBit 3 = false ∧
    ({ up with med := { folding := 8 } } : State).foldable 3 = none := by set_option maxRecDepth 100000 in decide

def gcSeg (v : Bool) : Seg := { kind := 1, isOpen := false, victim := v, chunks := List.replicate 32 2 }

def gcState (v : Bool) : State := { up with med := { gcOn := 8, segs := ⟨[(3 * 2 ^ 20, some (gcSeg v))]⟩, offer := [3 * 2 ^ 20] } }

def valid (v : Bool) : State := { gcState v with map := { coarse := ⟨[(5, .media 96 0 (2 * chunkPages) 0)]⟩ } }

theorem wit_victim : (gcState false).dfltVictim 3 = some (3 * 2 ^ 20) ∧
    (gcState false).hookBind 2 3 = none ∧
    (gcState false).segValid (3 * 2 ^ 20) = 0 ∧
    (valid false).segValid (3 * 2 ^ 20) ≠ 0 ∧
    (valid false).dfltVictim 3 = some (3 * 2 ^ 20) := by decide

theorem wit_victimErase : (gcState true).mayErase (3 * 2 ^ 20) = true ∧
    (valid true).mayErase (3 * 2 ^ 20) = false ∧
    up.med.gcOn.testBit 3 = false := by decide

def gcUnit : State :=
  { valid true with med := { gcOn := 8, segs := ⟨[(3 * 2 ^ 20, some (gcSeg true))]⟩,
                             secs := ⟨(List.range 16).map fun k => (mloc 96 0 (2 * chunkPages + k / 4) (k % 4), some { info := { key := 80 + k }, data := [1] })⟩,
                             streams := ⟨[(streamKey 3 192, { seg := some 9, pos := 0 })]⟩ } }

theorem wit_gcKeys : gcUnit.hookBind 3 3 = none ∧
    gcUnit.victimKeys 5 = some (3 * 2 ^ 20, (List.range 16).map (80 + ·)) ∧
    gcUnit.coldUnit 5 = false ∧
    gcUnit.jnl.groups = [] ∧
    ((List.range 16).map (80 + ·)).all (fun k => (gcUnit.copySrc k).isSome) = true ∧
    (gcUnit.copyPlaces (gcUnit.freestSlice 3) 16).isSome = true ∧
    (gcUnit.gcDest 3 0 16 none).isSome = true ∧
    ((List.range 16).map (80 + ·)).all (fun k => (List.range 16).contains (k % 16)) = true := by set_option maxRecDepth 100000 in decide

def ringed (n : Nat) : State := { up with jnl := { ring := n, pos := 16 * n } }

theorem wit_pageFlush : 1024 ≤ (ringed 1024).jnl.ring ∧
    (ringed 1023).jnl.ring < 1024 := by decide

theorem wit_rebuild : up.map.rebuild = false ∧
    ({ up with map := { rebuild := true } } : State).map.rebuild = true ∧
    3071 / 3072 = 0 := by decide

def ringWaits : State := { up with jnl := { ring := 1030, pos := 16 * 1030, wait := [[⟨1, 0, 0, 0⟩, ⟨2, 0, 0, 0⟩]] } }

theorem wit_pageFlushWaits : 1024 ≤ ringWaits.jnl.ring ∧
    ringWaits.jnl.ring - 1024 + 2 ≤ ringRecs := by decide

def badPage : State := { up with map := { bad := ⟨[(0, true)]⟩, coarse := ⟨[(7, .media 1 2 3 0)]⟩ }, jnl := { ckpt := ⟨[(7, .zero)]⟩ } }

theorem wit_pageRebuild : (List.range 16).all (fun k => decide (badPage.lookup (7 * 16 + k) = .media 1 2 (3 + k / 4) (k % 4))) = true ∧
    7 / 3072 = 0 ∧
    badPage.durable.coarse.get .unmapped 7 = .zero := by decide

/-! ### Baluf instructions -/

/-- The conditions of `State.issues`, as a test. -/
def issuesB (s : State) (e : Nat) (op : BOp) (w c : Nat) : Bool :=
  isEngine e && s.engRuns e && (match s.fetchB e with | .ok x => x == w | .error _ => false) &&
  (match decodeB (isFe e) w with | some r => decide (r.op = op) && r.cyc == c && (!r.v || (s.eng e).ring == 0) | none => false) &&
  ((s.eng e).ring == 0 || decide (c ≤ (s.eng e).budget))

theorem issuesB_sound (s : State) (e : Nat) (op : BOp) (w c : Nat) (h : issuesB s e op w c = true) : s.issues e op ⟨w⟩ c := by
  simp only [issuesB, Bool.and_eq_true, Bool.or_eq_true] at h
  obtain ⟨⟨⟨⟨h1, h2⟩, h3⟩, h4⟩, h5⟩ := h
  refine ⟨h1, h2, ?_, ?_, ?_⟩
  · split at h3
    · rename_i x hx; simp at h3; subst h3; exact hx
    · cases h3
  · split at h4
    · rename_i r hr
      simp at h4
      exact ⟨r, hr, h4.1.1, h4.1.2, fun k => by simpa [k] using h4.2⟩
    · cases h4
  · intro k
    rcases h5 with h5 | h5
    · simp at h5; exact absurd h5 k
    · simpa using h5

/-- Engine `e` about to run word `w` at address 0 of its local memory. -/
def at0 (e w : Nat) (g : Eng) : State :=
  { up with memp := { words := ⟨[(sramLoc (uEng e) 0 / 8, protect w)]⟩ }, prg := { engs := ⟨[(e, g)]⟩ } }

/-- Words written out from the formats and tables of chapter 9, with their cycles. -/
def words_alu : List (BOp × Nat × Nat) :=
    [(BOp.add, 0x00611001, 1),
     (BOp.sub, 0x00611002, 1),
     (BOp.and, 0x00611003, 1),
     (BOp.or, 0x00611004, 1),
     (BOp.xor, 0x00611005, 1),
     (BOp.andn, 0x00611006, 1),
     (BOp.sll, 0x00611008, 1),
     (BOp.srl, 0x00611009, 1),
     (BOp.sra, 0x0061100A, 1),
     (BOp.ror, 0x0061100B, 1),
     (BOp.slt, 0x00611010, 1),
     (BOp.sltu, 0x00611011, 1),
     (BOp.min, 0x00611012, 1),
     (BOp.max, 0x00611013, 1),
     (BOp.minu, 0x00611014, 1),
     (BOp.maxu, 0x00611015, 1),
     (BOp.addw, 0x00611018, 1),
     (BOp.subw, 0x00611019, 1),
     (BOp.mul, 0x00611020, 3),
     (BOp.mulh, 0x00611021, 3),
     (BOp.mulhu, 0x00611022, 3),
     (BOp.div, 0x00611028, 36),
     (BOp.divu, 0x00611029, 36),
     (BOp.rem, 0x0061102A, 36),
     (BOp.remu, 0x0061102B, 36),
     (BOp.crc32c, 0x00611038, 2),
     (BOp.clz, 0x00610030, 1),
     (BOp.ctz, 0x00610031, 1),
     (BOp.popc, 0x00610032, 1),
     (BOp.bswap, 0x00610033, 1)]

theorem wit_words_alu : ∀ p ∈ words_alu, issuesB (at0 0x2F p.2.1 {}) 0x2F p.1 p.2.1 p.2.2 = true := by decide

/-- Words written out from the formats and tables of chapter 9, with their cycles. -/
def words_imm : List (BOp × Nat × Nat) :=
    [(BOp.addi, 0x0861FFFF, 1),
     (BOp.andi, 0x0C61FFFF, 1),
     (BOp.ori, 0x1061FFFF, 1),
     (BOp.xori, 0x1461FFFF, 1),
     (BOp.slti, 0x1861FFFF, 1),
     (BOp.sltiu, 0x1C61FFFF, 1),
     (BOp.shi, 0x20610085, 1),
     (BOp.lui, 0x24608000, 1),
     (BOp.shlori, 0x2861FFFF, 1),
     (BOp.lb, 0x40610008, 2),
     (BOp.lbu, 0x44610008, 2),
     (BOp.lh, 0x48610008, 2),
     (BOp.lhu, 0x4C610008, 2),
     (BOp.lw, 0x50610008, 2),
     (BOp.lwu, 0x54610008, 2),
     (BOp.ld, 0x58610008, 2),
     (BOp.sb, 0x60610008, 1),
     (BOp.sh, 0x64610008, 1),
     (BOp.sw, 0x68610008, 1),
     (BOp.sd, 0x6C610008, 1)]

theorem wit_words_imm : ∀ p ∈ words_imm, issuesB (at0 0x2F p.2.1 {}) 0x2F p.1 p.2.1 p.2.2 = true := by decide

/-- Words written out from the formats and tables of chapter 9, with their cycles. -/
def words_ctl : List (BOp × Nat × Nat) :=
    [(BOp.beq, 0x8022FFFE, 1),
     (BOp.bne, 0x8422FFFE, 1),
     (BOp.blt, 0x8822FFFE, 1),
     (BOp.bge, 0x8C22FFFE, 1),
     (BOp.bltu, 0x9022FFFE, 1),
     (BOp.bgeu, 0x9422FFFE, 1),
     (BOp.j, 0xA3FFFFFF, 2),
     (BOp.jal, 0xA4000002, 2),
     (BOp.jalr, 0xA8610000, 3),
     (BOp.loopi, 0xB0050FFF, 2),
     (BOp.loop, 0xB4200005, 2),
     (BOp.csrr, 0xC0600001, 1),
     (BOp.csrw, 0xC4010004, 2),
     (BOp.sin, 0xD0600008, 1),
     (BOp.sout, 0xD4010008, 1),
     (BOp.sskip, 0xD8010004, 1)]

theorem wit_words_ctl : ∀ p ∈ words_ctl, issuesB (at0 0x2F p.2.1 {}) 0x2F p.1 p.2.1 p.2.2 = true := by decide

/-- Words written out from the formats and tables of chapter 9, with their cycles. -/
def words_vec : List (BOp × Nat × Nat) :=
    [(BOp.vand, 0xF0C48004, 1),
     (BOp.vor, 0xF0C48008, 1),
     (BOp.vxor, 0xF0C4800C, 1),
     (BOp.vandn, 0xF0C48010, 1),
     (BOp.vshuf, 0xF0C48040, 1),
     (BOp.vbsl, 0xF0C48050, 1),
     (BOp.vadd, 0xF0C48022, 1),
     (BOp.vsub, 0xF0C48026, 1),
     (BOp.vminu, 0xF0C4802A, 1),
     (BOp.vmaxu, 0xF0C4802E, 1),
     (BOp.vcmpeq, 0xF0C48032, 1),
     (BOp.vcmpgtu, 0xF0C48036, 1),
     (BOp.vcmpgt, 0xF0C4803A, 1),
     (BOp.vsplat, 0xF4C00205, 1),
     (BOp.vmovw, 0xF404020B, 1),
     (BOp.vins, 0xF4C0020F, 1),
     (BOp.vmask, 0xF4040210, 1),
     (BOp.vpopc, 0xF4040214, 1),
     (BOp.vfirst, 0xF4040218, 1),
     (BOp.vcrc, 0xF404021C, 4),
     (BOp.vld, 0xF8C00204, 2),
     (BOp.vst, 0xF8040208, 1)]

theorem wit_words_vec : ∀ p ∈ words_vec, issuesB (at0 0x2F p.2.1 {}) 0x2F p.1 p.2.1 p.2.2 = true := by decide

/-- Words written out from the formats and tables of chapter 9, with their cycles. -/
def words_sys : List (BOp × Nat × Nat) :=
    [(BOp.vsin, 0xF8C0000C, 1),
     (BOp.vsout, 0xF8040010, 1),
     (BOp.vsoutm, 0xF8048014, 2),
     (BOp.yield, 0x04000001, 1),
     (BOp.exit, 0x04010002, 1),
     (BOp.fence, 0x04000003, 1),
     (BOp.xwait, 0x04000004, 1),
     (BOp.enter, 0x04010005, 4),
     (BOp.tret, 0x04000006, 4),
     (BOp.mfp, 0x04610007, 1),
     (BOp.mtp, 0x04610008, 1),
     (BOp.xfer, 0x04611009, 2),
     (BOp.cas, 0x0461100A, 120),
     (BOp.amoadd, 0x0461100B, 120)]

theorem wit_words_sys : ∀ p ∈ words_sys, issuesB (at0 0x2F p.2.1 {}) 0x2F p.1 p.2.1 p.2.2 = true := by decide

/-- A division of 36 cycles with exactly 36 left in the step (R285). -/
theorem wit_wordsRingT : issuesB (at0 0x2F 0x00611028 { ring := 2, budget := 36, codel := 8 }) 0x2F .div 0x00611028 36 = true := by decide

theorem wit_run_jalr : ((((at0 0x2F 0xA8610000 { vw := ⟨[(1, 64)]⟩ })).eng 0x2F).w 1).toNat % 4 = 0 := by decide

theorem wit_run_jalrTrap : ((at0 0x2F 0xA8610000 { vw := ⟨[(1, 65)]⟩, tvec := 128 }).eng 0x2F).ring = 0 ∧
    ((at0 0x2F 0xA8610000 { vw := ⟨[(1, 65)]⟩, tvec := 128 }).eng 0x2F).nest = false ∧
    ((((at0 0x2F 0xA8610000 { vw := ⟨[(1, 65)]⟩, tvec := 128 })).eng 0x2F).w 1).toNat % 4 ≠ 0 := by decide

theorem wit_run_loopi : loopDepth (((at0 0x2F 0xB0050FFF { vw := ⟨[(1, 1)]⟩ })).eng 0x2F).loops = 0 := by decide

theorem wit_run_loop : ((((at0 0x2F 0xB4200005 { vw := ⟨[(1, 16777215)]⟩ })).eng 0x2F).w 1).toNat ≤ 16777215 := by decide

/-- The same with the word 0x8182838485868788 at address 64 of its local memory. -/
def mem64 (w : Nat) (g : Eng) : State :=
  { at0 0x2F w g with memp := { words := ⟨[(sramLoc (uEng 0x2F) 0 / 8, protect w), (sramLoc (uEng 0x2F) 64 / 8, protect 0x8182838485868788)]⟩ } }

theorem wit_run_lb : ((mem64 0x40610008 { vw := ⟨[(1, (2 ^ 32 + 56))]⟩ }).translate 0x2F ((mem64 0x40610008 { vw := ⟨[(1, (2 ^ 32 + 56))]⟩ }).eng 0x2F) (2 ^ 32 + 64) 1 false).toOption = some (.mem (sramLoc (uEng 0x2F) 64)) ∧
    (mem64 0x40610008 { vw := ⟨[(1, (2 ^ 32 + 56))]⟩ }).memReads (sramLoc (uEng 0x2F) 64) 1 = true ∧
    issuesB (mem64 0x40610008 { vw := ⟨[(1, (2 ^ 32 + 56))]⟩ }) 0x2F .lb 0x40610008 2 = true := by decide

theorem wit_run_lbu : ((mem64 0x44610008 { vw := ⟨[(1, (2 ^ 32 + 56))]⟩ }).translate 0x2F ((mem64 0x44610008 { vw := ⟨[(1, (2 ^ 32 + 56))]⟩ }).eng 0x2F) (2 ^ 32 + 64) 1 false).toOption = some (.mem (sramLoc (uEng 0x2F) 64)) ∧
    (mem64 0x44610008 { vw := ⟨[(1, (2 ^ 32 + 56))]⟩ }).memReads (sramLoc (uEng 0x2F) 64) 1 = true ∧
    issuesB (mem64 0x44610008 { vw := ⟨[(1, (2 ^ 32 + 56))]⟩ }) 0x2F .lbu 0x44610008 2 = true := by decide

theorem wit_run_lh : ((mem64 0x48610008 { vw := ⟨[(1, (2 ^ 32 + 56))]⟩ }).translate 0x2F ((mem64 0x48610008 { vw := ⟨[(1, (2 ^ 32 + 56))]⟩ }).eng 0x2F) (2 ^ 32 + 64) 2 false).toOption = some (.mem (sramLoc (uEng 0x2F) 64)) ∧
    (mem64 0x48610008 { vw := ⟨[(1, (2 ^ 32 + 56))]⟩ }).memReads (sramLoc (uEng 0x2F) 64) 2 = true ∧
    issuesB (mem64 0x48610008 { vw := ⟨[(1, (2 ^ 32 + 56))]⟩ }) 0x2F .lh 0x48610008 2 = true := by decide

theorem wit_run_lhu : ((mem64 0x4C610008 { vw := ⟨[(1, (2 ^ 32 + 56))]⟩ }).translate 0x2F ((mem64 0x4C610008 { vw := ⟨[(1, (2 ^ 32 + 56))]⟩ }).eng 0x2F) (2 ^ 32 + 64) 2 false).toOption = some (.mem (sramLoc (uEng 0x2F) 64)) ∧
    (mem64 0x4C610008 { vw := ⟨[(1, (2 ^ 32 + 56))]⟩ }).memReads (sramLoc (uEng 0x2F) 64) 2 = true ∧
    issuesB (mem64 0x4C610008 { vw := ⟨[(1, (2 ^ 32 + 56))]⟩ }) 0x2F .lhu 0x4C610008 2 = true := by decide

theorem wit_run_lw : ((mem64 0x50610008 { vw := ⟨[(1, (2 ^ 32 + 56))]⟩ }).translate 0x2F ((mem64 0x50610008 { vw := ⟨[(1, (2 ^ 32 + 56))]⟩ }).eng 0x2F) (2 ^ 32 + 64) 4 false).toOption = some (.mem (sramLoc (uEng 0x2F) 64)) ∧
    (mem64 0x50610008 { vw := ⟨[(1, (2 ^ 32 + 56))]⟩ }).memReads (sramLoc (uEng 0x2F) 64) 4 = true ∧
    issuesB (mem64 0x50610008 { vw := ⟨[(1, (2 ^ 32 + 56))]⟩ }) 0x2F .lw 0x50610008 2 = true := by decide

theorem wit_run_lwu : ((mem64 0x54610008 { vw := ⟨[(1, (2 ^ 32 + 56))]⟩ }).translate 0x2F ((mem64 0x54610008 { vw := ⟨[(1, (2 ^ 32 + 56))]⟩ }).eng 0x2F) (2 ^ 32 + 64) 4 false).toOption = some (.mem (sramLoc (uEng 0x2F) 64)) ∧
    (mem64 0x54610008 { vw := ⟨[(1, (2 ^ 32 + 56))]⟩ }).memReads (sramLoc (uEng 0x2F) 64) 4 = true ∧
    issuesB (mem64 0x54610008 { vw := ⟨[(1, (2 ^ 32 + 56))]⟩ }) 0x2F .lwu 0x54610008 2 = true := by decide

theorem wit_run_ld : ((mem64 0x58610008 { vw := ⟨[(1, (2 ^ 32 + 56))]⟩ }).translate 0x2F ((mem64 0x58610008 { vw := ⟨[(1, (2 ^ 32 + 56))]⟩ }).eng 0x2F) (2 ^ 32 + 64) 8 false).toOption = some (.mem (sramLoc (uEng 0x2F) 64)) ∧
    (mem64 0x58610008 { vw := ⟨[(1, (2 ^ 32 + 56))]⟩ }).memReads (sramLoc (uEng 0x2F) 64) 8 = true ∧
    issuesB (mem64 0x58610008 { vw := ⟨[(1, (2 ^ 32 + 56))]⟩ }) 0x2F .ld 0x58610008 2 = true := by decide

theorem wit_run_sb : ((mem64 0x60610008 { vw := ⟨[(1, (2 ^ 32 + 56)), (3, 0xFFFFFFFFFFFFFFFF#64)]⟩ }).translate 0x2F ((mem64 0x60610008 { vw := ⟨[(1, (2 ^ 32 + 56)), (3, 0xFFFFFFFFFFFFFFFF#64)]⟩ }).eng 0x2F) (2 ^ 32 + 64) 1 true).toOption = some (.mem (sramLoc (uEng 0x2F) 64)) ∧
    (mem64 0x60610008 { vw := ⟨[(1, (2 ^ 32 + 56)), (3, 0xFFFFFFFFFFFFFFFF#64)]⟩ }).wordCls (sramLoc (uEng 0x2F) 64 / 8 * 8) = .clean 0x8182838485868788 ∧
    (mem64 0x60610008 { vw := ⟨[(1, (2 ^ 32 + 56)), (3, 0xFFFFFFFFFFFFFFFF#64)]⟩ }).flipHits (sramLoc (uEng 0x2F) 64) = false := by decide

theorem wit_run_sh : ((mem64 0x64610008 { vw := ⟨[(1, (2 ^ 32 + 56)), (3, 0xFFFFFFFFFFFFFFFF#64)]⟩ }).translate 0x2F ((mem64 0x64610008 { vw := ⟨[(1, (2 ^ 32 + 56)), (3, 0xFFFFFFFFFFFFFFFF#64)]⟩ }).eng 0x2F) (2 ^ 32 + 64) 2 true).toOption = some (.mem (sramLoc (uEng 0x2F) 64)) ∧
    (mem64 0x64610008 { vw := ⟨[(1, (2 ^ 32 + 56)), (3, 0xFFFFFFFFFFFFFFFF#64)]⟩ }).wordCls (sramLoc (uEng 0x2F) 64 / 8 * 8) = .clean 0x8182838485868788 ∧
    (mem64 0x64610008 { vw := ⟨[(1, (2 ^ 32 + 56)), (3, 0xFFFFFFFFFFFFFFFF#64)]⟩ }).flipHits (sramLoc (uEng 0x2F) 64) = false := by decide

theorem wit_run_sw : ((mem64 0x68610008 { vw := ⟨[(1, (2 ^ 32 + 56)), (3, 0xFFFFFFFFFFFFFFFF#64)]⟩ }).translate 0x2F ((mem64 0x68610008 { vw := ⟨[(1, (2 ^ 32 + 56)), (3, 0xFFFFFFFFFFFFFFFF#64)]⟩ }).eng 0x2F) (2 ^ 32 + 64) 4 true).toOption = some (.mem (sramLoc (uEng 0x2F) 64)) ∧
    (mem64 0x68610008 { vw := ⟨[(1, (2 ^ 32 + 56)), (3, 0xFFFFFFFFFFFFFFFF#64)]⟩ }).wordCls (sramLoc (uEng 0x2F) 64 / 8 * 8) = .clean 0x8182838485868788 ∧
    (mem64 0x68610008 { vw := ⟨[(1, (2 ^ 32 + 56)), (3, 0xFFFFFFFFFFFFFFFF#64)]⟩ }).flipHits (sramLoc (uEng 0x2F) 64) = false := by decide

theorem wit_run_sd : ((mem64 0x6C610008 { vw := ⟨[(1, (2 ^ 32 + 56)), (3, 0xFFFFFFFFFFFFFFFF#64)]⟩ }).translate 0x2F ((mem64 0x6C610008 { vw := ⟨[(1, (2 ^ 32 + 56)), (3, 0xFFFFFFFFFFFFFFFF#64)]⟩ }).eng 0x2F) (2 ^ 32 + 64) 8 true).toOption = some (.mem (sramLoc (uEng 0x2F) 64)) ∧
    (mem64 0x6C610008 { vw := ⟨[(1, (2 ^ 32 + 56)), (3, 0xFFFFFFFFFFFFFFFF#64)]⟩ }).wordCls (sramLoc (uEng 0x2F) 64 / 8 * 8) = .clean 0x8182838485868788 ∧
    (mem64 0x6C610008 { vw := ⟨[(1, (2 ^ 32 + 56)), (3, 0xFFFFFFFFFFFFFFFF#64)]⟩ }).flipHits (sramLoc (uEng 0x2F) 64) = false := by decide

theorem wit_run_vld : (mem64 0xF8C00204 { vw := ⟨[(1, (2 ^ 32 + 64))]⟩ }).memReads (sramLoc (uEng 0x2F) 64) 32 = true := by decide

theorem wit_run_vst : ((mem64 0xF8040208 { vw := ⟨[(1, (2 ^ 32 + 64))]⟩, u := ⟨[(1, 7)]⟩ }).translate 0x2F ((mem64 0xF8040208 { vw := ⟨[(1, (2 ^ 32 + 64))]⟩, u := ⟨[(1, 7)]⟩ }).eng 0x2F) (2 ^ 32 + 64) 32 true).toOption = some (.mem (sramLoc (uEng 0x2F) 64)) := by decide

theorem wit_run_misalign : (2 ^ 32 + 65) % 8 ≠ 0 := by decide

theorem wit_illegal : decodeB (isFe 0x2F) 0xFC000000 = none := by decide

theorem wit_run_sin : issuesB ((at0 0x2F 0xD0600008 { vw := ⟨[(1, 1)]⟩, inAtt := true, inp := (List.range 8).map fun k => BitVec.ofNat 8 (k + 1), outAtt := true, room := 0, u := ⟨[(1, 0x0201), (2, 0x8080)]⟩ })) 0x2F .sin 0xD0600008 1 = true ∧
    ((at0 0x2F 0xD0600008 { vw := ⟨[(1, 1)]⟩, inAtt := true, inp := (List.range 8).map fun k => BitVec.ofNat 8 (k + 1), outAtt := true, room := 0, u := ⟨[(1, 0x0201), (2, 0x8080)]⟩ }).eng 0x2F).inAtt = true ∧ ((at0 0x2F 0xD0600008 { vw := ⟨[(1, 1)]⟩, inAtt := true, inp := (List.range 8).map fun k => BitVec.ofNat 8 (k + 1), outAtt := true, room := 0, u := ⟨[(1, 0x0201), (2, 0x8080)]⟩ }).eng 0x2F).outAtt = true ∧
    ((at0 0x2F 0xD0600008 { vw := ⟨[(1, 1)]⟩, inAtt := true, inp := (List.range 8).map fun k => BitVec.ofNat 8 (k + 1), outAtt := true, room := 0, u := ⟨[(1, 0x0201), (2, 0x8080)]⟩ }).eng 0x2F).badInput 8 = false := by decide

theorem wit_run_sskip : issuesB ((at0 0x2F 0xD8010004 { vw := ⟨[(1, 1)]⟩, inAtt := true, inp := (List.range 5).map fun k => BitVec.ofNat 8 (k + 1), outAtt := true, room := 0, u := ⟨[(1, 0x0201), (2, 0x8080)]⟩ })) 0x2F .sskip 0xD8010004 1 = true ∧
    ((at0 0x2F 0xD8010004 { vw := ⟨[(1, 1)]⟩, inAtt := true, inp := (List.range 5).map fun k => BitVec.ofNat 8 (k + 1), outAtt := true, room := 0, u := ⟨[(1, 0x0201), (2, 0x8080)]⟩ }).eng 0x2F).inAtt = true ∧ ((at0 0x2F 0xD8010004 { vw := ⟨[(1, 1)]⟩, inAtt := true, inp := (List.range 5).map fun k => BitVec.ofNat 8 (k + 1), outAtt := true, room := 0, u := ⟨[(1, 0x0201), (2, 0x8080)]⟩ }).eng 0x2F).outAtt = true ∧
    ((at0 0x2F 0xD8010004 { vw := ⟨[(1, 1)]⟩, inAtt := true, inp := (List.range 5).map fun k => BitVec.ofNat 8 (k + 1), outAtt := true, room := 0, u := ⟨[(1, 0x0201), (2, 0x8080)]⟩ }).eng 0x2F).badInput 5 = false := by decide

theorem wit_run_sout : issuesB ((at0 0x2F 0xD4010008 { vw := ⟨[(1, 1)]⟩, inAtt := true, inp := (List.range 0).map fun k => BitVec.ofNat 8 (k + 1), outAtt := true, room := 8, u := ⟨[(1, 0x0201), (2, 0x8080)]⟩ })) 0x2F .sout 0xD4010008 1 = true ∧
    ((at0 0x2F 0xD4010008 { vw := ⟨[(1, 1)]⟩, inAtt := true, inp := (List.range 0).map fun k => BitVec.ofNat 8 (k + 1), outAtt := true, room := 8, u := ⟨[(1, 0x0201), (2, 0x8080)]⟩ }).eng 0x2F).inAtt = true ∧ ((at0 0x2F 0xD4010008 { vw := ⟨[(1, 1)]⟩, inAtt := true, inp := (List.range 0).map fun k => BitVec.ofNat 8 (k + 1), outAtt := true, room := 8, u := ⟨[(1, 0x0201), (2, 0x8080)]⟩ }).eng 0x2F).outAtt = true ∧
    ((at0 0x2F 0xD4010008 { vw := ⟨[(1, 1)]⟩, inAtt := true, inp := (List.range 0).map fun k => BitVec.ofNat 8 (k + 1), outAtt := true, room := 8, u := ⟨[(1, 0x0201), (2, 0x8080)]⟩ }).eng 0x2F).badInput 0 = false := by decide

theorem wit_run_vsin : issuesB ((at0 0x2F 0xF8C0000C { vw := ⟨[(1, 1)]⟩, inAtt := true, inp := (List.range 32).map fun k => BitVec.ofNat 8 (k + 1), outAtt := true, room := 0, u := ⟨[(1, 0x0201), (2, 0x8080)]⟩ })) 0x2F .vsin 0xF8C0000C 1 = true ∧
    ((at0 0x2F 0xF8C0000C { vw := ⟨[(1, 1)]⟩, inAtt := true, inp := (List.range 32).map fun k => BitVec.ofNat 8 (k + 1), outAtt := true, room := 0, u := ⟨[(1, 0x0201), (2, 0x8080)]⟩ }).eng 0x2F).inAtt = true ∧ ((at0 0x2F 0xF8C0000C { vw := ⟨[(1, 1)]⟩, inAtt := true, inp := (List.range 32).map fun k => BitVec.ofNat 8 (k + 1), outAtt := true, room := 0, u := ⟨[(1, 0x0201), (2, 0x8080)]⟩ }).eng 0x2F).outAtt = true ∧
    ((at0 0x2F 0xF8C0000C { vw := ⟨[(1, 1)]⟩, inAtt := true, inp := (List.range 32).map fun k => BitVec.ofNat 8 (k + 1), outAtt := true, room := 0, u := ⟨[(1, 0x0201), (2, 0x8080)]⟩ }).eng 0x2F).badInput 32 = false := by decide

theorem wit_run_vsout : issuesB ((at0 0x2F 0xF8040010 { vw := ⟨[(1, 1)]⟩, inAtt := true, inp := (List.range 0).map fun k => BitVec.ofNat 8 (k + 1), outAtt := true, room := 32, u := ⟨[(1, 0x0201), (2, 0x8080)]⟩ })) 0x2F .vsout 0xF8040010 1 = true ∧
    ((at0 0x2F 0xF8040010 { vw := ⟨[(1, 1)]⟩, inAtt := true, inp := (List.range 0).map fun k => BitVec.ofNat 8 (k + 1), outAtt := true, room := 32, u := ⟨[(1, 0x0201), (2, 0x8080)]⟩ }).eng 0x2F).inAtt = true ∧ ((at0 0x2F 0xF8040010 { vw := ⟨[(1, 1)]⟩, inAtt := true, inp := (List.range 0).map fun k => BitVec.ofNat 8 (k + 1), outAtt := true, room := 32, u := ⟨[(1, 0x0201), (2, 0x8080)]⟩ }).eng 0x2F).outAtt = true ∧
    ((at0 0x2F 0xF8040010 { vw := ⟨[(1, 1)]⟩, inAtt := true, inp := (List.range 0).map fun k => BitVec.ofNat 8 (k + 1), outAtt := true, room := 32, u := ⟨[(1, 0x0201), (2, 0x8080)]⟩ }).eng 0x2F).badInput 0 = false := by decide

theorem wit_run_vsoutm : issuesB ((at0 0x2F 0xF8048014 { vw := ⟨[(1, 1)]⟩, inAtt := true, inp := (List.range 0).map fun k => BitVec.ofNat 8 (k + 1), outAtt := true, room := 2, u := ⟨[(1, 0x0201), (2, 0x8080)]⟩ })) 0x2F .vsoutm 0xF8048014 2 = true ∧
    ((at0 0x2F 0xF8048014 { vw := ⟨[(1, 1)]⟩, inAtt := true, inp := (List.range 0).map fun k => BitVec.ofNat 8 (k + 1), outAtt := true, room := 2, u := ⟨[(1, 0x0201), (2, 0x8080)]⟩ }).eng 0x2F).inAtt = true ∧ ((at0 0x2F 0xF8048014 { vw := ⟨[(1, 1)]⟩, inAtt := true, inp := (List.range 0).map fun k => BitVec.ofNat 8 (k + 1), outAtt := true, room := 2, u := ⟨[(1, 0x0201), (2, 0x8080)]⟩ }).eng 0x2F).outAtt = true ∧
    ((at0 0x2F 0xF8048014 { vw := ⟨[(1, 1)]⟩, inAtt := true, inp := (List.range 0).map fun k => BitVec.ofNat 8 (k + 1), outAtt := true, room := 2, u := ⟨[(1, 0x0201), (2, 0x8080)]⟩ }).eng 0x2F).badInput 0 = false := by decide

theorem wit_run_yield : issuesB ((at0 0x2F 0x04000001 { ring := 2, budget := 1, codel := 8, tvec := 128 })) 0x2F .yield 0x04000001 1 = true ∧
    ((at0 0x2F 0x04000001 { ring := 2, budget := 1, codel := 8, tvec := 128 }).eng 0x2F).ring ≠ 0 := by decide

theorem wit_run_exit : issuesB ((at0 0x2F 0x04010002 { ring := 1, budget := 1, codel := 8, pw := ⟨[(1, 9)]⟩ })) 0x2F .exit 0x04010002 1 = true := by decide

theorem wit_run_yieldV : ((at0 0x2F 0x04000001 {}).eng 0x2F).xfers = [] := by decide

theorem wit_run_exitV : ((at0 0x2F 0x04010002 {}).eng 0x2F).xfers = [] := by decide

theorem wit_run_fenceV : ((at0 0x2F 0x04000003 {}).eng 0x2F).xfers = [] := by decide

theorem wit_run_xwaitV : ((at0 0x2F 0x04000004 {}).eng 0x2F).xfers = [] := by decide

theorem wit_run_enter : ((at0 0x2F 0x04010005 { vw := ⟨[(1, 64)]⟩, pring := 2 }).eng 0x2F).pring = 2 ∧ isFe 0x2F = true := by decide

theorem wit_run_tret : ((at0 0x2F 0x04000006 { nest := true, trappc := 12 }).eng 0x2F).nest = true := by decide

theorem wit_run_mtp : (Ins.mk 0x04610008).d ≠ 0 := by decide

/-- Five subchannels of 16 GiB fitted. -/
def dramUp (s : State) : State := { s with dram := { s.dram with active := [0, 1, 2, 3, 4] }, fields := ⟨[(fkey F.DRC_SC_CFG_DENSITY 0, 0), (fkey F.DRC_SC_CFG_RANKS 0, 1)]⟩ }

theorem wit_run_xfer : (dramUp (at0 0x2F 0x04611009 { vw := ⟨[(1, 2 ^ 32), (2, 2 ^ 38), (3, 64)]⟩ })).xferSide 0x2F ((dramUp (at0 0x2F 0x04611009 { vw := ⟨[(1, 2 ^ 32), (2, 2 ^ 38), (3, 64)]⟩ })).eng 0x2F) (2 ^ 32) 64 false = some (2 ^ 32) ∧
    (dramUp (at0 0x2F 0x04611009 { vw := ⟨[(1, 2 ^ 32), (2, 2 ^ 38), (3, 64)]⟩ })).xferSide 0x2F ((dramUp (at0 0x2F 0x04611009 { vw := ⟨[(1, 2 ^ 32), (2, 2 ^ 38), (3, 64)]⟩ })).eng 0x2F) (2 ^ 38) 64 true = some (2 ^ 38) ∧
    ((dramUp (at0 0x2F 0x04611009 { vw := ⟨[(1, 2 ^ 32), (2, 2 ^ 38), (3, 64)]⟩ })).eng 0x2F).pendBytes + 64 ≤ 262144 := by decide

/-- The same with the word 5 in DRAM beyond the map. -/
def far (w : Nat) (g : Eng) : State :=
  dramUp { at0 0x2F w g with map := { pool := 0 }, memp := { words := ⟨[(2 ^ 33, protect 5), (sramLoc (uEng 0x2F) 0 / 8, protect w)]⟩ } }

theorem wit_run_lbFar : ((far 0x40610008 { vw := ⟨[(1, (2 ^ 38 + 2 ^ 36 - 8))]⟩ }).translate 0x2F ((far 0x40610008 { vw := ⟨[(1, (2 ^ 38 + 2 ^ 36 - 8))]⟩ }).eng 0x2F) (2 ^ 38 + 2 ^ 36) 1 false).toOption = some (.mem (2 ^ 36)) ∧
    (far 0x40610008 { vw := ⟨[(1, (2 ^ 38 + 2 ^ 36 - 8))]⟩ }).memReads (2 ^ 36) 1 = true ∧
    issuesB (far 0x40610008 { vw := ⟨[(1, (2 ^ 38 + 2 ^ 36 - 8))]⟩ }) 0x2F .lb 0x40610008 2 = true ∧
    locSpace (2 ^ 36) = 0 ∧
    (far 0x40610008 { vw := ⟨[(1, (2 ^ 38 + 2 ^ 36 - 8))]⟩ }).fabricHits ((far 0x40610008 { vw := ⟨[(1, (2 ^ 38 + 2 ^ 36 - 8))]⟩ }).locOwner (2 ^ 36)) = false ∧
    ((far 0x40610008 { vw := ⟨[(1, (2 ^ 38 + 2 ^ 36 - 8))]⟩ }).eng 0x2F).ring = 0 := by decide

theorem wit_run_sdFar : ((far 0x6C610008 { vw := ⟨[(1, (2 ^ 38 + 2 ^ 36 - 8)), (3, 7)]⟩ }).translate 0x2F ((far 0x6C610008 { vw := ⟨[(1, (2 ^ 38 + 2 ^ 36 - 8)), (3, 7)]⟩ }).eng 0x2F) (2 ^ 38 + 2 ^ 36) 8 true).toOption = some (.mem (2 ^ 36)) ∧
    (far 0x6C610008 { vw := ⟨[(1, (2 ^ 38 + 2 ^ 36 - 8)), (3, 7)]⟩ }).wordCls (2 ^ 36) = .clean 5 ∧
    issuesB (far 0x6C610008 { vw := ⟨[(1, (2 ^ 38 + 2 ^ 36 - 8)), (3, 7)]⟩ }) 0x2F .sd 0x6C610008 1 = true ∧
    locSpace (2 ^ 36) = 0 ∧
    (far 0x6C610008 { vw := ⟨[(1, (2 ^ 38 + 2 ^ 36 - 8)), (3, 7)]⟩ }).fabricHits (uEng 0x2F) = false ∧
    ((far 0x6C610008 { vw := ⟨[(1, (2 ^ 38 + 2 ^ 36 - 8)), (3, 7)]⟩ }).eng 0x2F).ring = 0 := by decide

theorem wit_run_cas : ((mem64 0x0461100A { vw := ⟨[(1, 2 ^ 32 + 64), (2, 1), (3, 0x8182838485868788)]⟩ }).translateV 0x2F (2 ^ 32 + 64) 8).toOption = some (.mem (sramLoc (uEng 0x2F) 64)) ∧
    (mem64 0x0461100A { vw := ⟨[(1, 2 ^ 32 + 64), (2, 1), (3, 0x8182838485868788)]⟩ }).wordCls (sramLoc (uEng 0x2F) 64) = .clean 0x8182838485868788 := by decide

theorem wit_run_amoadd : ((mem64 0x0461100B { vw := ⟨[(1, 2 ^ 32 + 64), (2, 1), (3, 0x8182838485868788)]⟩ }).translateV 0x2F (2 ^ 32 + 64) 8).toOption = some (.mem (sramLoc (uEng 0x2F) 64)) ∧
    (mem64 0x0461100B { vw := ⟨[(1, 2 ^ 32 + 64), (2, 1), (3, 0x8182838485868788)]⟩ }).wordCls (sramLoc (uEng 0x2F) 64) = .clean 0x8182838485868788 := by decide

theorem wit_run_csrr : csrAccess (isFe 0x2F) 0 1 ≠ 0 := by decide

theorem wit_run_csrw : csrAccess (isFe 0x2F) 0 4 = 2 ∧
    (((at0 0x2F 0xC4010004 { vw := ⟨[(1, 500)]⟩ }).eng 0x2F).csrWrite 4 500).isSome = true := by decide

theorem wit_csrwBound : ((Eng.csrWrite {} 4 12000).isSome && (Eng.csrWrite {} 4 12001).isNone) = true := by decide

/-- A frame whose grant is used up. -/
def tight (s : State) : State := { s with sched := { s.sched with cycGrant := 3999 } }

theorem wit_run_enterWaits : (tight (at0 0x2F 0x04010005 { vw := ⟨[(1, 64)]⟩, pring := 2 })).cycLeft 0x2F < ((tight (at0 0x2F 0x04010005 { vw := ⟨[(1, 64)]⟩, pring := 2 })).eng 0x2F).stepmax ∧
    ((tight (at0 0x2F 0x04010005 { vw := ⟨[(1, 64)]⟩, pring := 2 })).eng 0x2F).pring = 2 ∧ isFe 0x2F = true := by decide

theorem wit_run_lwReg : ((at0 0x2F 0x50610008 { vw := ⟨[(1, 0x100000)]⟩ }).translate 0x2F ((at0 0x2F 0x50610008 { vw := ⟨[(1, 0x100000)]⟩ }).eng 0x2F) 0x100008 4 false).toOption = some (.reg 0x100008) ∧
    (at0 0x2F 0x50610008 { vw := ⟨[(1, 0x100000)]⟩ }).place (.eng 0x2F) 0x100008 = .copy 0 := by decide

theorem wit_run_lwuReg : ((at0 0x2F 0x54610008 { vw := ⟨[(1, 0x100000)]⟩ }).translate 0x2F ((at0 0x2F 0x54610008 { vw := ⟨[(1, 0x100000)]⟩ }).eng 0x2F) 0x100008 4 false).toOption = some (.reg 0x100008) ∧
    (at0 0x2F 0x54610008 { vw := ⟨[(1, 0x100000)]⟩ }).place (.eng 0x2F) 0x100008 = .copy 0 := by decide

/-! ### Firmware and unit commands -/

theorem wit_fwDownload : (one hostNs ({ adm 0x11 1 1 with sqe := { opc := 0x11, cdw10 := 1, cdw11 := 1, data := [1, 2, 3, 4, 5, 6, 7, 8], sgl := 8 } })).adminCmd ({ adm 0x11 1 1 with sqe := { opc := 0x11, cdw10 := 1, cdw11 := 1, data := [1, 2, 3, 4, 5, 6, 7, 8], sgl := 8 } }).fsn ({ adm 0x11 1 1 with sqe := { opc := 0x11, cdw10 := 1, cdw11 := 1, data := [1, 2, 3, 4, 5, 6, 7, 8], sgl := 8 } }).sqe.opc = some ({ adm 0x11 1 1 with sqe := { opc := 0x11, cdw10 := 1, cdw11 := 1, data := [1, 2, 3, 4, 5, 6, 7, 8], sgl := 8 } }) ∧
    ({ adm 0x11 1 1 with sqe := { opc := 0x11, cdw10 := 1, cdw11 := 1, data := [1, 2, 3, 4, 5, 6, 7, 8], sgl := 8 } }).mute = false ∧
    ({ adm 0x11 1 1 with sqe := { opc := 0x11, cdw10 := 1, cdw11 := 1, data := [1, 2, 3, 4, 5, 6, 7, 8], sgl := 8 } }).tunnel = false ∧
    (one hostNs ({ adm 0x11 1 1 with sqe := { opc := 0x11, cdw10 := 1, cdw11 := 1, data := [1, 2, 3, 4, 5, 6, 7, 8], sgl := 8 } })).postsStopped = false ∧
    (({ adm 0x11 1 1 with sqe := { opc := 0x11, cdw10 := 1, cdw11 := 1, data := [1, 2, 3, 4, 5, 6, 7, 8], sgl := 8 } })).sqe.cdw10 ≤ 0x1FFFFF := by decide

def loaded (s : State) : State := s.onLvl fun l => { l with fwLen := 4, fwBuf := ⟨[(0, 1)]⟩ }

def ownedBy (f : Nat) (s : State) : State := s.onLvl fun l => { l with fwOwner := f, fwLen := 100 }

theorem wit_fwOther : (one (ownedBy 5 hostNs) ({ adm 0x11 1 1 with sqe := { opc := 0x11, cdw10 := 1, cdw11 := 1, data := [1, 2, 3, 4, 5, 6, 7, 8], sgl := 8 } })).adminCmd ({ adm 0x11 1 1 with sqe := { opc := 0x11, cdw10 := 1, cdw11 := 1, data := [1, 2, 3, 4, 5, 6, 7, 8], sgl := 8 } }).fsn ({ adm 0x11 1 1 with sqe := { opc := 0x11, cdw10 := 1, cdw11 := 1, data := [1, 2, 3, 4, 5, 6, 7, 8], sgl := 8 } }).sqe.opc = some ({ adm 0x11 1 1 with sqe := { opc := 0x11, cdw10 := 1, cdw11 := 1, data := [1, 2, 3, 4, 5, 6, 7, 8], sgl := 8 } }) ∧
    ({ adm 0x11 1 1 with sqe := { opc := 0x11, cdw10 := 1, cdw11 := 1, data := [1, 2, 3, 4, 5, 6, 7, 8], sgl := 8 } }).mute = false ∧
    ({ adm 0x11 1 1 with sqe := { opc := 0x11, cdw10 := 1, cdw11 := 1, data := [1, 2, 3, 4, 5, 6, 7, 8], sgl := 8 } }).tunnel = false ∧
    (one (ownedBy 5 hostNs) ({ adm 0x11 1 1 with sqe := { opc := 0x11, cdw10 := 1, cdw11 := 1, data := [1, 2, 3, 4, 5, 6, 7, 8], sgl := 8 } })).postsStopped = false ∧
    (one (ownedBy 5 hostNs) ({ adm 0x11 1 1 with sqe := { opc := 0x11, cdw10 := 1, cdw11 := 1, data := [1, 2, 3, 4, 5, 6, 7, 8], sgl := 8 } })).lvl.fwOwner ≠ (({ adm 0x11 1 1 with sqe := { opc := 0x11, cdw10 := 1, cdw11 := 1, data := [1, 2, 3, 4, 5, 6, 7, 8], sgl := 8 } })).fn := by decide

theorem wit_fwLong : (one hostNs (adm 0x11 0x200000 0)).adminCmd (adm 0x11 0x200000 0).fsn (adm 0x11 0x200000 0).sqe.opc = some (adm 0x11 0x200000 0) ∧
    (adm 0x11 0x200000 0).mute = false ∧
    (adm 0x11 0x200000 0).tunnel = false ∧
    (one hostNs (adm 0x11 0x200000 0)).postsStopped = false ∧
    0x1FFFFF < ((adm 0x11 0x200000 0)).sqe.cdw10 := by decide

def activating (a : Act) (s : State) : State := s.onLvl fun l => { l with act := some a }

theorem wit_commitSlot : (one hostNs (adm 0x10 5 0)).adminCmd (adm 0x10 5 0).fsn (adm 0x10 5 0).sqe.opc = some (adm 0x10 5 0) ∧
    (adm 0x10 5 0).mute = false ∧
    (adm 0x10 5 0).tunnel = false ∧
    (one hostNs (adm 0x10 5 0)).postsStopped = false ∧
    (one hostNs (adm 0x10 5 0)).lvl.act = none ∧
    (one hostNs (adm 0x10 5 0)).lvl.warmRun = false ∧
    bits ((adm 0x10 5 0)).sqe.cdw10 5 3 ≤ 3 ∧
    4 < ((adm 0x10 5 0)).sqe.cdw10 % 8 := by decide

theorem wit_commitAction : (one hostNs (adm 0x10 (8 * 4 + 2) 0)).adminCmd (adm 0x10 (8 * 4 + 2) 0).fsn (adm 0x10 (8 * 4 + 2) 0).sqe.opc = some (adm 0x10 (8 * 4 + 2) 0) ∧
    (adm 0x10 (8 * 4 + 2) 0).mute = false ∧
    (adm 0x10 (8 * 4 + 2) 0).tunnel = false ∧
    (one hostNs (adm 0x10 (8 * 4 + 2) 0)).postsStopped = false ∧
    (one hostNs (adm 0x10 (8 * 4 + 2) 0)).lvl.act = none ∧
    3 < bits ((adm 0x10 (8 * 4 + 2) 0)).sqe.cdw10 5 3 := by decide

theorem wit_commitNoPkg : (one hostNs (adm 0x10 (8 * 2 + 2) 0)).adminCmd (adm 0x10 (8 * 2 + 2) 0).fsn (adm 0x10 (8 * 2 + 2) 0).sqe.opc = some (adm 0x10 (8 * 2 + 2) 0) ∧
    (adm 0x10 (8 * 2 + 2) 0).mute = false ∧
    (adm 0x10 (8 * 2 + 2) 0).tunnel = false ∧
    (one hostNs (adm 0x10 (8 * 2 + 2) 0)).postsStopped = false ∧
    (one hostNs (adm 0x10 (8 * 2 + 2) 0)).lvl.act = none ∧
    (one hostNs (adm 0x10 (8 * 2 + 2) 0)).lvl.warmRun = false ∧
    bits ((adm 0x10 (8 * 2 + 2) 0)).sqe.cdw10 5 3 = 2 ∧
    (one hostNs (adm 0x10 (8 * 2 + 2) 0)).pkgOk ((one hostNs (adm 0x10 (8 * 2 + 2) 0)).pkgOf 2) = false := by decide

theorem wit_commitImage : (one (loaded hostNs) (adm 0x10 (8 + 2) 0)).adminCmd (adm 0x10 (8 + 2) 0).fsn (adm 0x10 (8 + 2) 0).sqe.opc = some (adm 0x10 (8 + 2) 0) ∧
    (adm 0x10 (8 + 2) 0).mute = false ∧
    (adm 0x10 (8 + 2) 0).tunnel = false ∧
    (one (loaded hostNs) (adm 0x10 (8 + 2) 0)).postsStopped = false ∧
    (one (loaded hostNs) (adm 0x10 (8 + 2) 0)).lvl.act = none ∧
    bits ((adm 0x10 (8 + 2) 0)).sqe.cdw10 5 3 < 2 ∧
    2 ≤ ((adm 0x10 (8 + 2) 0)).sqe.cdw10 % 8 ∧
    (one (loaded hostNs) (adm 0x10 (8 + 2) 0)).downloaded = some [1, 0, 0, 0] ∧
    (one (loaded hostNs) (adm 0x10 (8 + 2) 0)).pkgOk [1, 0, 0, 0] = false ∧
    (one (loaded hostNs) (adm 0x10 (8 + 2) 0)).pkgRollback [1, 0, 0, 0] = false := by decide

theorem wit_commitWaits : (one (activating { todo := [1] } hostNs) (adm 0x10 8 0)).adminCmd (adm 0x10 8 0).fsn (adm 0x10 8 0).sqe.opc = some (adm 0x10 8 0) ∧
    (adm 0x10 8 0).mute = false ∧
    (adm 0x10 8 0).tunnel = false ∧
    (one (activating { todo := [1] } hostNs) (adm 0x10 8 0)).postsStopped = false ∧
    (one (activating { todo := [1] } hostNs) (adm 0x10 8 0)).lvl.act.isSome = true := by decide

def swapping (a : Act) (st : UState) : State := activating a (up.onUnit (uEng 0x2F) fun u => { u with st := st })

theorem wit_swapSkips : (swapping { todo := [0x2F, 0x30] } .fenced).lvl.act = some { todo := [0x2F, 0x30] } ∧
    isEngine 0x2F = true ∧
    (swapping { todo := [0x2F, 0x30] } .fenced).unitState (uEng 0x2F) = .fenced := by decide

theorem wit_swapBegins : (swapping { todo := [0x2F, 0x30] } .up).unitState (uEng 0x2F) = .up ∧
    isEngine 0x2F = true := by decide

def swapBusy : State := (swapping { todo := [0x30], cur := some 0x2F } .up).onEng 0x2F fun g => { g with ring := 1 }

theorem wit_swapTick : ((swapping { todo := [0x30], cur := some 0x2F } .up).unit (uEng 0x2F)).run = none ∧
    ((swapping { todo := [0x30], cur := some 0x2F } .up).eng 0x2F).ring = 0 ∧
    ((swapping { todo := [0x30], cur := some 0x2F } .up).swapTick.lvl.act).map (·.begun) = some true ∧
    (swapBusy.eng 0x2F).ring ≠ 0 ∧
    swapBusy.swapTick = swapBusy ∧
    (kindOfEng 0x33 = 0 ∨ kindOfEng 0x33 = 3) := by decide

theorem wit_swapEnds : (swapping { todo := [0x30], cur := some 0x2F, begun := true } .up).lvl.act = some { todo := [0x30], cur := some 0x2F, begun := true } ∧
    isEngine 0x2F = true := by decide

def lastSwap : State := activating { todo := [], done := 40, skipped := 8, fsn := some 1 } (one hostNs (adm 0x10 (3 * 8 + 1) 0))

theorem wit_swapLast : lastSwap.cmd 1 = some (adm 0x10 (3 * 8 + 1) 0) ∧
    lastSwap.postsStopped = false ∧
    lastSwap.lvl.act = some { todo := [], done := 40, skipped := 8, fsn := some 1 } := by decide

/-- A package waits in slot 2: its bytes 6 and 7 hold the flags. -/
def pends (f : Nat) : State := up.onLvl fun l => { l with pendFw := some 2, fwSlots := ⟨[(2, zeros 6 ++ leBytes 2 f)]⟩ }

theorem wit_resetActivates : (pends 0).lvl.core = true ∧
    (pends 0).lvl.pendFw = some 2 ∧
    (pends 0).halted = false ∧
    (pends 0).lvl.act = none ∧
    pkgNeedsReset ((pends 0).pkgOf 2) = false ∧
    pkgNeedsReset ((pends 1).pkgOf 2) = true := by decide

def warming : State := up.onLvl fun l => { l with warmRun := true }

theorem wit_warmRestart : warming.lvl.core = true ∧
    warming.lvl.warmRun = true ∧
    warming.pwr.pfail = false ∧
    warming.sched.drain = false ∧
    warming.unprogrammed = 0 ∧
    warming.jnl.groups = [] := by decide

theorem wit_ucBad : (one hostNs (adm 0xCC 1 0xFFFF)).adminCmd (adm 0xCC 1 0xFFFF).fsn (adm 0xCC 1 0xFFFF).sqe.opc = some (adm 0xCC 1 0xFFFF) ∧
    (adm 0xCC 1 0xFFFF).mute = false ∧
    (adm 0xCC 1 0xFFFF).tunnel = false ∧
    (one hostNs (adm 0xCC 1 0xFFFF)).postsStopped = false ∧
    (one hostNs (adm 0xCC 1 0xFFFF)).lvl.act = none ∧
    ((one hostNs (adm 0xCC 1 0xFFFF)).hif.cmds.any fun d => d.sq == 0 && d.sqe.opc == 0xCC && (d.ph == .running || decide (d.fsn < 1))) = false ∧
    ((adm 0xCC 1 0xFFFF)).ucBad = true := by decide

theorem wit_ucBusy : (one (hostNs.onUnit (uEng 2) fun u => { u with run := some (.drain, 0) }) (adm 0xCC 1 (uEng 2))).adminCmd (adm 0xCC 1 (uEng 2)).fsn (adm 0xCC 1 (uEng 2)).sqe.opc = some (adm 0xCC 1 (uEng 2)) ∧
    (adm 0xCC 1 (uEng 2)).mute = false ∧
    (adm 0xCC 1 (uEng 2)).tunnel = false ∧
    (one (hostNs.onUnit (uEng 2) fun u => { u with run := some (.drain, 0) }) (adm 0xCC 1 (uEng 2))).postsStopped = false ∧
    (one (hostNs.onUnit (uEng 2) fun u => { u with run := some (.drain, 0) }) (adm 0xCC 1 (uEng 2))).lvl.act = none ∧
    ((one (hostNs.onUnit (uEng 2) fun u => { u with run := some (.drain, 0) }) (adm 0xCC 1 (uEng 2))).hif.cmds.any fun d => d.sq == 0 && d.sqe.opc == 0xCC && (d.ph == .running || decide (d.fsn < 1))) = false ∧
    ((adm 0xCC 1 (uEng 2))).ucBad = false ∧
    ((one (hostNs.onUnit (uEng 2) fun u => { u with run := some (.drain, 0) }) (adm 0xCC 1 (uEng 2))).unit ((adm 0xCC 1 (uEng 2))).ucUnit).run.isSome = true := by decide

theorem wit_ucNoOp : (one hostNs (adm 0xCC 0xFF (uEng 2))).adminCmd (adm 0xCC 0xFF (uEng 2)).fsn (adm 0xCC 0xFF (uEng 2)).sqe.opc = some (adm 0xCC 0xFF (uEng 2)) ∧
    (adm 0xCC 0xFF (uEng 2)).mute = false ∧
    (adm 0xCC 0xFF (uEng 2)).tunnel = false ∧
    (one hostNs (adm 0xCC 0xFF (uEng 2))).postsStopped = false ∧
    (one hostNs (adm 0xCC 0xFF (uEng 2))).lvl.act = none ∧
    ((one hostNs (adm 0xCC 0xFF (uEng 2))).hif.cmds.any fun d => d.sq == 0 && d.sqe.opc == 0xCC && (d.ph == .running || decide (d.fsn < 1))) = false ∧
    ((adm 0xCC 0xFF (uEng 2))).ucBad = false ∧
    ((adm 0xCC 0xFF (uEng 2))).ucSel = false ∧
    ((one hostNs (adm 0xCC 0xFF (uEng 2))).unit ((adm 0xCC 0xFF (uEng 2))).ucUnit).run = none ∧
    opOf ((adm 0xCC 0xFF (uEng 2))).ucOp = none := by decide

theorem wit_ucJudged : (one hostNs (adm 0xCC 4 (uEng 2))).adminCmd (adm 0xCC 4 (uEng 2)).fsn (adm 0xCC 4 (uEng 2)).sqe.opc = some (adm 0xCC 4 (uEng 2)) ∧
    (adm 0xCC 4 (uEng 2)).mute = false ∧
    (adm 0xCC 4 (uEng 2)).tunnel = false ∧
    (one hostNs (adm 0xCC 4 (uEng 2))).postsStopped = false ∧
    (one hostNs (adm 0xCC 4 (uEng 2))).lvl.act = none ∧
    ((one hostNs (adm 0xCC 4 (uEng 2))).hif.cmds.any fun d => d.sq == 0 && d.sqe.opc == 0xCC && (d.ph == .running || decide (d.fsn < 1))) = false ∧
    opOf ((adm 0xCC 4 (uEng 2))).ucOp = some .resume ∧
    (one hostNs (adm 0xCC 4 (uEng 2))).judgeOp (uEng 2) .resume ((adm 0xCC 4 (uEng 2))).ucArg = some 3 := by decide

theorem wit_ucFence : (one hostNs (adm 0xCC 1 (uEng 2))).adminCmd (adm 0xCC 1 (uEng 2)).fsn (adm 0xCC 1 (uEng 2)).sqe.opc = some (adm 0xCC 1 (uEng 2)) ∧
    (adm 0xCC 1 (uEng 2)).mute = false ∧
    (adm 0xCC 1 (uEng 2)).tunnel = false ∧
    (one hostNs (adm 0xCC 1 (uEng 2))).postsStopped = false ∧
    (one hostNs (adm 0xCC 1 (uEng 2))).lvl.act = none ∧
    ((one hostNs (adm 0xCC 1 (uEng 2))).hif.cmds.any fun d => d.sq == 0 && d.sqe.opc == 0xCC && (d.ph == .running || decide (d.fsn < 1))) = false ∧
    ((adm 0xCC 1 (uEng 2))).ucOp = 1 ∧
    (one hostNs (adm 0xCC 1 (uEng 2))).judgeOp ((adm 0xCC 1 (uEng 2))).ucUnit .fence ((adm 0xCC 1 (uEng 2))).ucArg = none ∧
    ((one hostNs (adm 0xCC 1 (uEng 2))).prg.scans.any fun x => x.fsn == 1) = false := by decide

def lunIn (s : State) : State := { s with med := { s.med with luns := ⟨[(lunKey 127 15, { st := 1 })]⟩ } }

theorem wit_ucLun : (one (lunIn hostNs) (adm 0xCC 1 (uChan 127 + 15 * 2 ^ 16 + 2 ^ 31))).adminCmd (adm 0xCC 1 (uChan 127 + 15 * 2 ^ 16 + 2 ^ 31)).fsn (adm 0xCC 1 (uChan 127 + 15 * 2 ^ 16 + 2 ^ 31)).sqe.opc = some (adm 0xCC 1 (uChan 127 + 15 * 2 ^ 16 + 2 ^ 31)) ∧
    (adm 0xCC 1 (uChan 127 + 15 * 2 ^ 16 + 2 ^ 31)).mute = false ∧
    (adm 0xCC 1 (uChan 127 + 15 * 2 ^ 16 + 2 ^ 31)).tunnel = false ∧
    (one (lunIn hostNs) (adm 0xCC 1 (uChan 127 + 15 * 2 ^ 16 + 2 ^ 31))).postsStopped = false ∧
    (one (lunIn hostNs) (adm 0xCC 1 (uChan 127 + 15 * 2 ^ 16 + 2 ^ 31))).lvl.act = none ∧
    ((one (lunIn hostNs) (adm 0xCC 1 (uChan 127 + 15 * 2 ^ 16 + 2 ^ 31))).hif.cmds.any fun d => d.sq == 0 && d.sqe.opc == 0xCC && (d.ph == .running || decide (d.fsn < 1))) = false ∧
    ((adm 0xCC 1 (uChan 127 + 15 * 2 ^ 16 + 2 ^ 31))).ucBad = false ∧
    ((adm 0xCC 1 (uChan 127 + 15 * 2 ^ 16 + 2 ^ 31))).ucSel = true ∧
    ((adm 0xCC 1 (uChan 127 + 15 * 2 ^ 16 + 2 ^ 31))).ucArg = 0 ∧
    ((adm 0xCC 1 (uChan 127 + 15 * 2 ^ 16 + 2 ^ 31))).ucLun = 15 ∧
    ((one (lunIn hostNs) (adm 0xCC 1 (uChan 127 + 15 * 2 ^ 16 + 2 ^ 31))).lun (uIdx ((adm 0xCC 1 (uChan 127 + 15 * 2 ^ 16 + 2 ^ 31))).ucUnit) ((adm 0xCC 1 (uChan 127 + 15 * 2 ^ 16 + 2 ^ 31))).ucLun).st = 1 := by decide

theorem wit_ucActivates : (one (activating { todo := [1] } hostNs) (adm 0xCC 1 (uEng 2))).adminCmd (adm 0xCC 1 (uEng 2)).fsn (adm 0xCC 1 (uEng 2)).sqe.opc = some (adm 0xCC 1 (uEng 2)) ∧
    (adm 0xCC 1 (uEng 2)).mute = false ∧
    (adm 0xCC 1 (uEng 2)).tunnel = false ∧
    (one (activating { todo := [1] } hostNs) (adm 0xCC 1 (uEng 2))).postsStopped = false ∧
    (one (activating { todo := [1] } hostNs) (adm 0xCC 1 (uEng 2))).lvl.act.isSome = true := by decide

def lunOut (s : State) : State := { s with med := { s.med with luns := ⟨[(lunKey 127 15, { st := 2 })]⟩ } }

theorem wit_ucLunRetire : (one (lunOut hostNs) (adm 0xCC 8 (uChan 127 + 15 * 2 ^ 16 + 2 ^ 31))).adminCmd (adm 0xCC 8 (uChan 127 + 15 * 2 ^ 16 + 2 ^ 31)).fsn (adm 0xCC 8 (uChan 127 + 15 * 2 ^ 16 + 2 ^ 31)).sqe.opc = some (adm 0xCC 8 (uChan 127 + 15 * 2 ^ 16 + 2 ^ 31)) ∧
    (adm 0xCC 8 (uChan 127 + 15 * 2 ^ 16 + 2 ^ 31)).mute = false ∧
    (adm 0xCC 8 (uChan 127 + 15 * 2 ^ 16 + 2 ^ 31)).tunnel = false ∧
    (one (lunOut hostNs) (adm 0xCC 8 (uChan 127 + 15 * 2 ^ 16 + 2 ^ 31))).postsStopped = false ∧
    (one (lunOut hostNs) (adm 0xCC 8 (uChan 127 + 15 * 2 ^ 16 + 2 ^ 31))).lvl.act = none ∧
    ((one (lunOut hostNs) (adm 0xCC 8 (uChan 127 + 15 * 2 ^ 16 + 2 ^ 31))).hif.cmds.any fun d => d.sq == 0 && d.sqe.opc == 0xCC && (d.ph == .running || decide (d.fsn < 1))) = false ∧
    ((adm 0xCC 8 (uChan 127 + 15 * 2 ^ 16 + 2 ^ 31))).ucBad = false ∧
    ((adm 0xCC 8 (uChan 127 + 15 * 2 ^ 16 + 2 ^ 31))).ucSel = true ∧
    ((adm 0xCC 8 (uChan 127 + 15 * 2 ^ 16 + 2 ^ 31))).ucArg = 0 ∧
    ((adm 0xCC 8 (uChan 127 + 15 * 2 ^ 16 + 2 ^ 31))).ucOp = 8 ∧
    ((one (lunOut hostNs) (adm 0xCC 8 (uChan 127 + 15 * 2 ^ 16 + 2 ^ 31))).lun (uIdx ((adm 0xCC 8 (uChan 127 + 15 * 2 ^ 16 + 2 ^ 31))).ucUnit) ((adm 0xCC 8 (uChan 127 + 15 * 2 ^ 16 + 2 ^ 31))).ucLun).st = 2 ∧
    (one (lunOut hostNs) (adm 0xCC 8 (uChan 127 + 15 * 2 ^ 16 + 2 ^ 31))).lunEmptied (uIdx ((adm 0xCC 8 (uChan 127 + 15 * 2 ^ 16 + 2 ^ 31))).ucUnit) ((adm 0xCC 8 (uChan 127 + 15 * 2 ^ 16 + 2 ^ 31))).ucLun = true := by decide

/-! ### Power -/

/-- Group 15 with AUTO set, its current power state, and its idle frames. -/
def grp15 (cur n : Nat) : State :=
  (up.onUnit (uGroup 15) fun u => { u with auto := true, cur := cur }).onPwr fun p => { p with grpIdle := ⟨[(15, n)]⟩ }

theorem wit_drowse : ((grp15 2 (up.get2 F.PWR_DROWSE_IDLE)).unit (uGroup 15)).auto = true ∧
    ((grp15 2 (up.get2 F.PWR_DROWSE_IDLE)).unit (uGroup 15)).cur = 2 ∧
    (grp15 2 (up.get2 F.PWR_DROWSE_IDLE)).groupIdle 15 = true ∧
    (grp15 2 (up.get2 F.PWR_DROWSE_IDLE)).get2 F.PWR_DROWSE_IDLE ≤ (grp15 2 (up.get2 F.PWR_DROWSE_IDLE)).pwr.grpIdle.get 0 15 := by decide

def busyGrp : State := { grp15 2 9999 with med := { chans := ⟨[(120, { cal := some 0 })]⟩ } }

theorem wit_drowseBusy : busyGrp.groupIdle 15 = false := by decide

def sleeping (x : Bool) : State := { grp15 1 0 with med := { chans := ⟨[(127, { mode := 3, prof := { mix := x } })]⟩, luns := ⟨[(lunKey 127 15, { st := 1 })]⟩ } }

theorem wit_wake : ((sleeping true).unit (uGroup 15)).cur = 1 ∧
    ((sleeping true).chan 127).mode = 3 ∧ ((sleeping true).chan 127).prof.mix = true ∧
    ((sleeping false).chan 127).mode = 3 ∧ ((sleeping false).chan 127).prof.mix = false ∧
    127 / 8 = 15 := by decide

/-- Every group drowses, in power state p, with the autonomous transition to state q set for state p. -/
def dozing (p q : Nat) : State :=
  { (List.range 16).foldl (fun s n => s.onUnit (uGroup n) fun u => { u with cur := 1 }) up with
    pwr := { cur := p, lastOp := 2, idle := 125 },
    hif := { ctrls := ⟨[(0, { feats := ⟨[(0x0C, some (1 + 2 ^ 32 * 2 ^ (64 * p) * (q * 8 + 256))), (0x11, some 1)]⟩ })]⟩ } }

theorem wit_apst3 : ((dozing 2 3).apstEntry 2).1 = 3 ∧
    (dozing 2 3).apste = true ∧
    (dozing 2 3).pwr.hk = none ∧
    ((dozing 2 3).apstEntry 2).2 = 1 ∧
    (dozing 2 3).pwr.idle = 125 ∧
    (dozing 2 3).devIdle = true := by set_option maxRecDepth 50000 in decide

theorem wit_apst4 : ((dozing 2 4).apstEntry 2).1 = 4 ∧
    (dozing 2 4).apste = true ∧
    (dozing 2 4).pwr.hk = none ∧
    ((dozing 2 4).apstEntry 2).2 = 1 ∧
    (dozing 2 4).pwr.idle = 125 ∧
    (dozing 2 4).devIdle = true := by set_option maxRecDepth 50000 in decide

theorem wit_apstBusy : up.devIdle = false := by decide

theorem wit_powerExit : (dozing 4 3).lvl.core = true ∧
    (dozing 4 3).pwr.cur = 4 ∧
    ((dozing 4 3).unit (uGroup 15)).cur = 1 := by set_option maxRecDepth 50000 in decide

def wants : State := { dozing 2 4 with pwr := { cur := 2, want := some 4, wakeLow := true } }

theorem wit_wakeN : up.pwr.want = none ∧
    wants.pwr.want = some 4 ∧
    wants.pwr.cur < 4 ∧
    ({ wants with pwr := { wants.pwr with wakeLow := false } } : State).devIdle = true := by set_option maxRecDepth 50000 in decide

def keeps : State := { dozing 3 4 with time := { ms := up.getF F.PWR_HK_PERIOD * 60000 } }

theorem wit_housekeeping : keeps.pwr.hk = none ∧
    3 ≤ keeps.pwr.cur ∧
    (keeps.feat 0 0x11).testBit 0 = true ∧
    keeps.pwr.hkMs + keeps.getF F.PWR_HK_PERIOD * 60000 ≤ keeps.time.ms ∧
    ({ dozing 2 4 with pwr := { cur := 2, hk := some 3 } } : State).devIdle = true := by set_option maxRecDepth 50000 in decide

def inPs (p : Nat) : State := { up with pwr := { cur := p } }

theorem wit_pfail : (inPs 2).lvl.core = true ∧
    (inPs 2).halted = false ∧
    (inPs 2).sched.drain = false ∧
    (inPs 2).pwr.pfail = false ∧
    (inPs 2).pwr.cur ≤ 2 ∧
    3 ≤ (inPs 3).pwr.cur := by decide

theorem wit_pfailNot : ({ up with lvl := {} } : State).lvl.core = false ∧
    ({ up with sched := { drain := true } } : State).sched.drain = true ∧
    (halted 1).halted = true := by decide

def cycling : State := { linked with flt := { regc := true } }

theorem wit_brownOut : cycling.lvl.core = true ∧
    cycling.flt.regc = true := by decide

theorem wit_restart : ({ linked with pwr := { drained := true } } : State).pwr.drained = true ∧
    linked.pwr.drained = false := by decide

def steady : State := { up with lvl := { core := true, level := 1 }, pwr := { steadyN := 125 } }

def period : State := { up with pwr := { tested := true }, time := { ms := up.getF F.PWR_HU_CFG_PERIOD * 3600000 } }

theorem wit_holdUp : steady.testMay = true ∧
    steady.pwr.tested = false ∧ 1 ≤ steady.lvl.level ∧ 125 ≤ steady.pwr.steadyN ∧
    period.testMay = true ∧
    period.pwr.tested = true ∧ period.pwr.testMs + period.getF F.PWR_HU_CFG_PERIOD * 3600000 ≤ period.time.ms := by decide

/-- A test that has ended, or is under way: v0 30 V, 1,250 samples, and the last one. -/
def tested (v : Nat) (stop : Bool) : HuTest := { sum := 16 * 30000, n := 1250, v := v, stop := stop, drop := 100, min := 0 }

def testing (x : HuTest) : State := up.onPwr fun p => { p with test := some x }

theorem wit_holdUpEnd : (testing (tested 27000 true)).pwr.test = some (tested 27000 true) ∧
    (tested 27000 true).stop = true ∧
    (tested 27000 true).invalid = false ∧
    (tested 29701 true).invalid = true ∧
    (tested 29700 true).invalid = false := by decide

def sags : State :=
  { up.onPwr fun p => { p with present := false, valid := true, vfin := 27000, lowN := 125 } with
    lnd := { secs := ⟨[(7, some { fsn := 9, done := true })]⟩ } }

theorem wit_holdUpLow : sags.pwr.valid = true ∧
    sags.pwr.test = none ∧
    125 ≤ sags.pwr.lowN ∧
    sags.pwr.present = false ∧
    sags.lsec 7 = some { fsn := 9, done := true } := by decide

theorem wit_testAbort : (testing (tested 28000 false)).pwr.test = some (tested 28000 false) ∧
    (testing (tested 28000 false)).lvl.core = true ∧ (testing (tested 28000 false)).halted = false ∧
    (testing (tested 28000 false)).sched.drain = false ∧ (testing (tested 28000 false)).pwr.pfail = false ∧ (testing (tested 28000 false)).pwr.cur ≤ 2 := by decide

/-! ### The management endpoint -/

def enabledMi : State := { linked with fields := ⟨[(fkey F.HIF_MI_CFG_VDM_EN 0, 1)]⟩ }

theorem wit_miUp : (linked.miPathUp 0 && enabledMi.miPathUp 1 && !enabledMi.miPathUp 2) = true ∧
    linked.lvl.core = true ∧
    linked.pwr.cur ≤ 2 ∧
    linked.halted = false := by decide

theorem wit_miStruct : (linked.miStruct 0 0 0).isSome = true ∧
    (linked.miStruct 1 2 0).isSome = true ∧
    (linked.miStruct 1 3 0).isSome = false := by decide

theorem wit_miConfig : 2 < linked.miPorts := by decide

theorem wit_vpd : 1000 + [1, 2, 3].length ≤ 1024 ∧
    1021 + [1, 2, 3].length = 1024 := by decide

theorem wit_miShutdown : (host.outstanding (· == 0)).isEmpty = true ∧
    host.jnl.groups = [] ∧
    0 ∈ host.enabledFns ∧
    (host.ctrl 0).en = true := by decide

theorem wit_tunnel : host.fnExists 0 = true ∧
    (∀ d ∈ host.hif.cmds, d.fsn < host.hif.fsn) ∧
    tunnelExcluded 0x06 = false ∧
    host.adminStatus 0 true ⟨0x06, 0, 0, 1, 0, 0, 0, 0, 0, [], 4096, 1⟩ = stOk ∧
    tunnelExcluded 0x0C = true := by decide

/-- A session of the platform owner. -/
def owned : State := { up with sec := { sessions := [{ id := 1, mctp := true, up := true, auth := some Config.pokh }] } }

theorem wit_owner : owned.mayProvision 1 = true ∧
    up.mayProvision 1 = false := ⟨by simp [State.mayProvision, State.session, owned], by decide⟩

theorem wit_registerAccess : up.mayProvision 1 = false ∧
    (0x700000 : W32).toNat % 4 = 0 ∧
    (0x700000 : W32).toNat < regEnd := by decide

/-! ### Paths of management -/

def dozed (p : Nat) : State := { up with pwr := { cur := p }, fields := ⟨[(fkey F.HIF_MI_CFG_WAKE_ADDR 0, 0x20)]⟩ }

theorem wit_pollHeld : (dozed 3).miPathUp 0 = true ∧
    (dozed 3).lvl.core = true := by decide

def wired : State := { halted 4 with fields := ⟨[(fkey F.FLT_REGC_WIRED 0, 1)]⟩ }

theorem wit_coldReset : wired.halted = true ∧ wired.getF F.FLT_REGC_WIRED = 1 ∧
    wired.lvl.core = true ∧ wired.pwr.cur ≤ 2 ∧
    up.halted = false := by decide

theorem wit_smbusWake : 3 ≤ (dozed 3).pwr.cur ∧
    0x20 = (dozed 3).getF F.HIF_MI_CFG_WAKE_ADDR := by decide

/-- The device whose wake address is not its SMBus address, whatever that is. -/
def apart : State := { up with fields := ⟨[(fkey F.HIF_MI_CFG_WAKE_ADDR 0, Config.smbusAddr + 1)]⟩ }

theorem wit_smbusOther : Config.smbusAddr ≠ apart.getF F.HIF_MI_CFG_WAKE_ADDR ∧
    Config.smbusAddr + 2 ≠ apart.getF F.HIF_MI_CFG_WAKE_ADDR ∧
    Config.smbusAddr + 2 ≠ Config.smbusAddr := by
  have h : apart.getF F.HIF_MI_CFG_WAKE_ADDR = Config.smbusAddr + 1 := rfl
  rw [h]; omega

theorem wit_miSend : (one hostNs ({ adm 0x1D 0 6 with sqe := { opc := 0x1D, cdw11 := 6, cdw12 := 1022, data := [8, 9] } })).adminCmd ({ adm 0x1D 0 6 with sqe := { opc := 0x1D, cdw11 := 6, cdw12 := 1022, data := [8, 9] } }).fsn ({ adm 0x1D 0 6 with sqe := { opc := 0x1D, cdw11 := 6, cdw12 := 1022, data := [8, 9] } }).sqe.opc = some ({ adm 0x1D 0 6 with sqe := { opc := 0x1D, cdw11 := 6, cdw12 := 1022, data := [8, 9] } }) ∧
    ({ adm 0x1D 0 6 with sqe := { opc := 0x1D, cdw11 := 6, cdw12 := 1022, data := [8, 9] } }).mute = false ∧
    ({ adm 0x1D 0 6 with sqe := { opc := 0x1D, cdw11 := 6, cdw12 := 1022, data := [8, 9] } }).tunnel = false ∧
    (one hostNs ({ adm 0x1D 0 6 with sqe := { opc := 0x1D, cdw11 := 6, cdw12 := 1022, data := [8, 9] } })).postsStopped = false ∧
    (({ adm 0x1D 0 6 with sqe := { opc := 0x1D, cdw11 := 6, cdw12 := 1022, data := [8, 9] } })).miReq = some (.vpdWrite 1022 [8, 9]) := by decide

theorem wit_miReceive : (one hostNs ({ adm 0x1E 0 5 with sqe := { opc := 0x1E, cdw11 := 5, cdw12 := 1022, cdw13 := 2, sgl := 2 } })).adminCmd ({ adm 0x1E 0 5 with sqe := { opc := 0x1E, cdw11 := 5, cdw12 := 1022, cdw13 := 2, sgl := 2 } }).fsn ({ adm 0x1E 0 5 with sqe := { opc := 0x1E, cdw11 := 5, cdw12 := 1022, cdw13 := 2, sgl := 2 } }).sqe.opc = some ({ adm 0x1E 0 5 with sqe := { opc := 0x1E, cdw11 := 5, cdw12 := 1022, cdw13 := 2, sgl := 2 } }) ∧
    ({ adm 0x1E 0 5 with sqe := { opc := 0x1E, cdw11 := 5, cdw12 := 1022, cdw13 := 2, sgl := 2 } }).mute = false ∧
    ({ adm 0x1E 0 5 with sqe := { opc := 0x1E, cdw11 := 5, cdw12 := 1022, cdw13 := 2, sgl := 2 } }).tunnel = false ∧
    (one hostNs ({ adm 0x1E 0 5 with sqe := { opc := 0x1E, cdw11 := 5, cdw12 := 1022, cdw13 := 2, sgl := 2 } })).postsStopped = false ∧
    (({ adm 0x1E 0 5 with sqe := { opc := 0x1E, cdw11 := 5, cdw12 := 1022, cdw13 := 2, sgl := 2 } })).miReq = some (.vpdRead 1022 2) := by decide

theorem wit_miDenied : (one hostNs ({ adm 0x1D 0 0xC2 with sqe := { opc := 0x1D, cdw11 := 0xC2 } })).adminCmd ({ adm 0x1D 0 0xC2 with sqe := { opc := 0x1D, cdw11 := 0xC2 } }).fsn ({ adm 0x1D 0 0xC2 with sqe := { opc := 0x1D, cdw11 := 0xC2 } }).sqe.opc = some ({ adm 0x1D 0 0xC2 with sqe := { opc := 0x1D, cdw11 := 0xC2 } }) ∧
    ({ adm 0x1D 0 0xC2 with sqe := { opc := 0x1D, cdw11 := 0xC2 } }).mute = false ∧
    ({ adm 0x1D 0 0xC2 with sqe := { opc := 0x1D, cdw11 := 0xC2 } }).tunnel = false ∧
    (one hostNs ({ adm 0x1D 0 0xC2 with sqe := { opc := 0x1D, cdw11 := 0xC2 } })).postsStopped = false ∧
    (({ adm 0x1D 0 0xC2 with sqe := { opc := 0x1D, cdw11 := 0xC2 } })).miReq = some (.regWrite 0 0 0) := by decide

theorem wit_debugHalted : (halted 4).halted = true ∧
    (0x700000 : W32).toNat % 4 = 0 ∧ (0x700000 : W32).toNat < regEnd := by decide

/-! ### Security -/

def slotted (x : Slot) (n : Nat) (s : State) : State := { s with sec := { s.sec with slots := ⟨[(n, x)]⟩ } }

theorem wit_rekeyEnds : (slotted { cur := some 1, prev := some 3, rekey := true } 1 hostNs).ns 1 = some ns1 ∧
    ns1.zoned = false ∧
    ((slotted { cur := some 1, prev := some 3, rekey := true } 1 hostNs).slot 1).prev.isSome = true ∧
    (slotted { cur := some 1, prev := some 3, rekey := true } 1 hostNs).oldKeys 1 = [] := by decide

theorem wit_zeroise : (one (slotted { cur := some 1, kind := 2, ctr := 6 } 4097 hostNs) (adm 0xC9 0 (2 * 65536 + 4097))).adminCmd (adm 0xC9 0 (2 * 65536 + 4097)).fsn (adm 0xC9 0 (2 * 65536 + 4097)).sqe.opc = some (adm 0xC9 0 (2 * 65536 + 4097)) ∧
    (adm 0xC9 0 (2 * 65536 + 4097)).mute = false ∧
    (adm 0xC9 0 (2 * 65536 + 4097)).tunnel = false ∧
    (one (slotted { cur := some 1, kind := 2, ctr := 6 } 4097 hostNs) (adm 0xC9 0 (2 * 65536 + 4097))).postsStopped = false ∧
    (one (slotted { cur := some 1, kind := 2, ctr := 6 } 4097 hostNs) (adm 0xC9 0 (2 * 65536 + 4097))).foreignSlot (adm 0xC9 0 (2 * 65536 + 4097)) ((adm 0xC9 0 (2 * 65536 + 4097))).blobSlot = false ∧
    ((adm 0xC9 0 (2 * 65536 + 4097))).sqe.cdw11 / 2 ^ 18 = 0 ∧
    ((adm 0xC9 0 (2 * 65536 + 4097))).blobAction = 2 ∧
    isGenSlot ((adm 0xC9 0 (2 * 65536 + 4097))).blobSlot = true ∧
    ((one (slotted { cur := some 1, kind := 2, ctr := 6 } 4097 hostNs) (adm 0xC9 0 (2 * 65536 + 4097))).slot ((adm 0xC9 0 (2 * 65536 + 4097))).blobSlot).kind ≠ 0 := by decide

theorem wit_blobBad : (one hostNs (adm 0xC9 0 1)).adminCmd (adm 0xC9 0 1).fsn (adm 0xC9 0 1).sqe.opc = some (adm 0xC9 0 1) ∧
    (adm 0xC9 0 1).mute = false ∧
    (adm 0xC9 0 1).tunnel = false ∧
    (one hostNs (adm 0xC9 0 1)).postsStopped = false ∧
    (one hostNs (adm 0xC9 0 1)).foreignSlot (adm 0xC9 0 1) ((adm 0xC9 0 1)).blobSlot = false ∧
    (one hostNs (adm 0xC9 0 1)).blobDst (adm 0xC9 0 1) = some 1 ∧
    ((adm 0xC9 0 1)).blobAction = 0 ∧
    (one hostNs (adm 0xC9 0 1)).blobReason ((one hostNs (adm 0xC9 0 1)).importer (adm 0xC9 0 1)) 0 1 1 ((adm 0xC9 0 1)).sqe.cdw10 ((adm 0xC9 0 1)).sqe.data = 1 := by decide

theorem wit_rotateBusy : (one hostNs (adm 0xC9 0 (65536 + 1))).adminCmd (adm 0xC9 0 (65536 + 1)).fsn (adm 0xC9 0 (65536 + 1)).sqe.opc = some (adm 0xC9 0 (65536 + 1)) ∧
    (adm 0xC9 0 (65536 + 1)).mute = false ∧
    (adm 0xC9 0 (65536 + 1)).tunnel = false ∧
    (one hostNs (adm 0xC9 0 (65536 + 1))).postsStopped = false ∧
    (one hostNs (adm 0xC9 0 (65536 + 1))).blobDst (adm 0xC9 0 (65536 + 1)) = some 1 ∧
    ((adm 0xC9 0 (65536 + 1))).blobAction = 1 := by decide

theorem wit_secSendBad : (one hostNs ({ adm 0x81 0 0 with sqe := { opc := 0x81 } })).adminCmd ({ adm 0x81 0 0 with sqe := { opc := 0x81 } }).fsn ({ adm 0x81 0 0 with sqe := { opc := 0x81 } }).sqe.opc = some ({ adm 0x81 0 0 with sqe := { opc := 0x81 } }) ∧
    ({ adm 0x81 0 0 with sqe := { opc := 0x81 } }).mute = false ∧
    ({ adm 0x81 0 0 with sqe := { opc := 0x81 } }).tunnel = false ∧
    (one hostNs ({ adm 0x81 0 0 with sqe := { opc := 0x81 } })).postsStopped = false ∧
    sglStatus (({ adm 0x81 0 0 with sqe := { opc := 0x81 } })).sqe (({ adm 0x81 0 0 with sqe := { opc := 0x81 } })).sqe.cdw11 = stOk ∧
    (({ adm 0x81 0 0 with sqe := { opc := 0x81 } })).sqe.cdw10 / 2 ^ 24 % 256 ≠ 0xE8 := by decide

theorem wit_secSend : (one hostNs ({ adm 0x81 0 4 with sqe := { opc := 0x81, cdw10 := 0xE8 * 2 ^ 24, cdw11 := 4, data := [0x13, 0xFE, 0, 0], sgl := 4 } })).adminCmd ({ adm 0x81 0 4 with sqe := { opc := 0x81, cdw10 := 0xE8 * 2 ^ 24, cdw11 := 4, data := [0x13, 0xFE, 0, 0], sgl := 4 } }).fsn ({ adm 0x81 0 4 with sqe := { opc := 0x81, cdw10 := 0xE8 * 2 ^ 24, cdw11 := 4, data := [0x13, 0xFE, 0, 0], sgl := 4 } }).sqe.opc = some ({ adm 0x81 0 4 with sqe := { opc := 0x81, cdw10 := 0xE8 * 2 ^ 24, cdw11 := 4, data := [0x13, 0xFE, 0, 0], sgl := 4 } }) ∧
    ({ adm 0x81 0 4 with sqe := { opc := 0x81, cdw10 := 0xE8 * 2 ^ 24, cdw11 := 4, data := [0x13, 0xFE, 0, 0], sgl := 4 } }).mute = false ∧
    ({ adm 0x81 0 4 with sqe := { opc := 0x81, cdw10 := 0xE8 * 2 ^ 24, cdw11 := 4, data := [0x13, 0xFE, 0, 0], sgl := 4 } }).tunnel = false ∧
    (one hostNs ({ adm 0x81 0 4 with sqe := { opc := 0x81, cdw10 := 0xE8 * 2 ^ 24, cdw11 := 4, data := [0x13, 0xFE, 0, 0], sgl := 4 } })).postsStopped = false ∧
    sglStatus (({ adm 0x81 0 4 with sqe := { opc := 0x81, cdw10 := 0xE8 * 2 ^ 24, cdw11 := 4, data := [0x13, 0xFE, 0, 0], sgl := 4 } })).sqe (({ adm 0x81 0 4 with sqe := { opc := 0x81, cdw10 := 0xE8 * 2 ^ 24, cdw11 := 4, data := [0x13, 0xFE, 0, 0], sgl := 4 } })).sqe.cdw11 = stOk ∧
    leAt (({ adm 0x81 0 4 with sqe := { opc := 0x81, cdw10 := 0xE8 * 2 ^ 24, cdw11 := 4, data := [0x13, 0xFE, 0, 0], sgl := 4 } })).sqe.data 1 1 = 0xFE := by decide

theorem wit_secList : (one hostNs ({ adm 0x82 0 10 with sqe := { opc := 0x82, cdw11 := 10, sgl := 10 } })).adminCmd ({ adm 0x82 0 10 with sqe := { opc := 0x82, cdw11 := 10, sgl := 10 } }).fsn ({ adm 0x82 0 10 with sqe := { opc := 0x82, cdw11 := 10, sgl := 10 } }).sqe.opc = some ({ adm 0x82 0 10 with sqe := { opc := 0x82, cdw11 := 10, sgl := 10 } }) ∧
    ({ adm 0x82 0 10 with sqe := { opc := 0x82, cdw11 := 10, sgl := 10 } }).mute = false ∧
    ({ adm 0x82 0 10 with sqe := { opc := 0x82, cdw11 := 10, sgl := 10 } }).tunnel = false ∧
    (one hostNs ({ adm 0x82 0 10 with sqe := { opc := 0x82, cdw11 := 10, sgl := 10 } })).postsStopped = false ∧
    sglStatus (({ adm 0x82 0 10 with sqe := { opc := 0x82, cdw11 := 10, sgl := 10 } })).sqe (({ adm 0x82 0 10 with sqe := { opc := 0x82, cdw11 := 10, sgl := 10 } })).sqe.cdw11 = stOk := by decide

theorem wit_secReceive : (one { hostNs with sec := { resp := ⟨[(0, [1, 2])]⟩ } } ({ adm 0x82 0 4 with sqe := { opc := 0x82, cdw10 := 0xE8 * 2 ^ 24, cdw11 := 4, sgl := 4 } })).adminCmd ({ adm 0x82 0 4 with sqe := { opc := 0x82, cdw10 := 0xE8 * 2 ^ 24, cdw11 := 4, sgl := 4 } }).fsn ({ adm 0x82 0 4 with sqe := { opc := 0x82, cdw10 := 0xE8 * 2 ^ 24, cdw11 := 4, sgl := 4 } }).sqe.opc = some ({ adm 0x82 0 4 with sqe := { opc := 0x82, cdw10 := 0xE8 * 2 ^ 24, cdw11 := 4, sgl := 4 } }) ∧
    ({ adm 0x82 0 4 with sqe := { opc := 0x82, cdw10 := 0xE8 * 2 ^ 24, cdw11 := 4, sgl := 4 } }).mute = false ∧
    ({ adm 0x82 0 4 with sqe := { opc := 0x82, cdw10 := 0xE8 * 2 ^ 24, cdw11 := 4, sgl := 4 } }).tunnel = false ∧
    (one { hostNs with sec := { resp := ⟨[(0, [1, 2])]⟩ } } ({ adm 0x82 0 4 with sqe := { opc := 0x82, cdw10 := 0xE8 * 2 ^ 24, cdw11 := 4, sgl := 4 } })).postsStopped = false ∧
    (one { hostNs with sec := { resp := ⟨[(0, [1, 2])]⟩ } } ({ adm 0x82 0 4 with sqe := { opc := 0x82, cdw10 := 0xE8 * 2 ^ 24, cdw11 := 4, sgl := 4 } })).sec.resp.get [] 0 = [1, 2] := by decide

def connected (k : Nat) : State := { up with sec := { conn := ⟨[(0, k)]⟩, sessions := [{ id := 1, mctp := true }] } }

theorem wit_spdm : up.lvl.core = true ∧ up.halted = false ∧
    (connected 3).sec.conn.get 0 0 = 3 ∧
    (connected 3).session 0 1 = some { id := 1, mctp := true } := by decide

theorem wit_sessionEnds : owned.session 0 1 = some { id := 1, mctp := true, up := true, auth := some Config.pokh } := rfl

theorem wit_provisionDenied : (zeros 32).length = 32 ∧
    (connected 3).mayProvision 1 = false := by decide

def withCc (c : Cc) : State := { up with sec := { ccs := ⟨[(3, c)]⟩ } }

def noGrant : State := { withCc {} with sched := { ccGrant := 15 } }

theorem wit_cipherJob : (withCc {}).sec.stopped = false ∧
    (withCc {}).unitState (uCC 3) = .up ∧
    (withCc {}).sched.drain = false ∧
    (withCc {}).sched.ccUsed.get 0 3 + 16 * 4096 ≤ (withCc {}).sched.ccGrant ∧
    ¬ noGrant.sched.ccUsed.get 0 3 + 16 * 1 ≤ noGrant.sched.ccGrant ∧
    ((withCc {}).cc 3).queue = [] ∧
    ((withCc {}).cc 3).freePipe = some 0 ∧
    ((withCc {}).cc 3).pool ≠ 0 ∧
    ((withCc { pool := 0 }).cc 3).freePipe = some 0 ∧ ((withCc { pool := 0 }).cc 3).pool = 0 := by decide

theorem wit_kat : ((withCc {}).cc 3).up.testBit 15 = true ∧
    ((withCc { up := 0x8000 }).cc 3).up.testBit 15 = true ∧ putBit 0x8000 15 false = 0 ∧
    putBit 0xFFFF 15 false ≠ 0 := by decide

theorem wit_entropy : ((withCc { gens := 4095 }).cc 3).gens < 4096 ∧
    4096 ≤ ((withCc { gens := 4096 }).cc 3).gens ∧
    ((withCc { bad := 14 }).cc 3).bad < 15 ∧
    15 ≤ ((withCc { bad := 15 }).cc 3).bad := by decide

theorem wit_alarms : (1 : W32).toNat % 2 = 1 ∧
    (0x80000000 : W32).toNat.testBit 31 = true ∧
    ((8 : W32).toNat % 16).testBit up.sec.vkey = false ∧
    ((1 : W32).toNat % 16).testBit up.sec.vkey = true := by decide

/-! ### Programs, scans and hooks -/

/-- The smallest container of Table 10.1: ring T, one CODE word, EXIT, and one SLAB entry. -/
def smallest : List Byte :=
  leBytes 4 0x524F4A57 ++ [1, 0, 2, 4] ++ leBytes 4 112 ++ [2, 0, 0, 0] ++ zeros 24 ++ leBytes 2 500 ++ zeros 22 ++
  ([1, 0, 0, 0] ++ leBytes 4 96 ++ leBytes 4 4 ++ zeros 4) ++ ([3, 0, 0, 0] ++ leBytes 4 104 ++ leBytes 4 8 ++ zeros 4) ++
  leBytes 4 0x04010002 ++ zeros 4 ++ [2, 0, 0, 0, 0, 0, 0, 0]

def loadCmd : Cmd := { adm 0xC1 112 5 with sqe := { opc := 0xC1, cdw10 := 112, cdw11 := 5, data := smallest, sgl := 112 } }

theorem wit_load : (one hostNs (loadCmd)).adminCmd (loadCmd).fsn (loadCmd).sqe.opc = some (loadCmd) ∧
    (loadCmd).mute = false ∧
    (loadCmd).tunnel = false ∧
    (one hostNs (loadCmd)).postsStopped = false ∧
    sglStatus ((loadCmd)).sqe ((loadCmd)).sqe.cdw10 = stOk ∧
    ((loadCmd)).badLoad = false ∧
    ((loadCmd)).sqe.cdw11 < 4096 ∧
    ((loadCmd)).ringO = true ∧
    verdict ((one hostNs (loadCmd)).vIn (loadCmd)) (((loadCmd)).sqe.data.take 112) = none ∧
    (one hostNs (loadCmd)).progLimit ((one hostNs (loadCmd)).newProg (loadCmd) (((loadCmd)).sqe.data.take 112) 5) = false := by set_option maxRecDepth 100000 in decide

theorem wit_reject : (one hostNs ({ loadCmd with sqe := { loadCmd.sqe with data := smallest.set 4 2 } })).adminCmd ({ loadCmd with sqe := { loadCmd.sqe with data := smallest.set 4 2 } }).fsn ({ loadCmd with sqe := { loadCmd.sqe with data := smallest.set 4 2 } }).sqe.opc = some ({ loadCmd with sqe := { loadCmd.sqe with data := smallest.set 4 2 } }) ∧
    ({ loadCmd with sqe := { loadCmd.sqe with data := smallest.set 4 2 } }).mute = false ∧
    ({ loadCmd with sqe := { loadCmd.sqe with data := smallest.set 4 2 } }).tunnel = false ∧
    (one hostNs ({ loadCmd with sqe := { loadCmd.sqe with data := smallest.set 4 2 } })).postsStopped = false ∧
    verdict ((one hostNs ({ loadCmd with sqe := { loadCmd.sqe with data := smallest.set 4 2 } })).vIn ({ loadCmd with sqe := { loadCmd.sqe with data := smallest.set 4 2 } })) ((({ loadCmd with sqe := { loadCmd.sqe with data := smallest.set 4 2 } })).sqe.data.take 112) = some (1, 4) := by set_option maxRecDepth 100000 in decide

def scanProg : Prog := { ring := 1, engines := 4, stepmax := 500, svn := 3, entries := [(2, 0)], code := leBytes 4 0x04010002 }

def withProg (b : List Bind) (s : State) : State := { s with prg := { s.prg with progs := ⟨[(1, some scanProg)]⟩, binds := b } }

theorem wit_bind : (one (withProg [] hostNs) ({ adm 0xC4 1 1 with sqe := { opc := 0xC4, nsid := 1, cdw10 := 1, cdw11 := 1 } })).adminCmd ({ adm 0xC4 1 1 with sqe := { opc := 0xC4, nsid := 1, cdw10 := 1, cdw11 := 1 } }).fsn ({ adm 0xC4 1 1 with sqe := { opc := 0xC4, nsid := 1, cdw10 := 1, cdw11 := 1 } }).sqe.opc = some ({ adm 0xC4 1 1 with sqe := { opc := 0xC4, nsid := 1, cdw10 := 1, cdw11 := 1 } }) ∧
    ({ adm 0xC4 1 1 with sqe := { opc := 0xC4, nsid := 1, cdw10 := 1, cdw11 := 1 } }).mute = false ∧
    ({ adm 0xC4 1 1 with sqe := { opc := 0xC4, nsid := 1, cdw10 := 1, cdw11 := 1 } }).tunnel = false ∧
    (one (withProg [] hostNs) ({ adm 0xC4 1 1 with sqe := { opc := 0xC4, nsid := 1, cdw10 := 1, cdw11 := 1 } })).postsStopped = false ∧
    (one (withProg [] hostNs) ({ adm 0xC4 1 1 with sqe := { opc := 0xC4, nsid := 1, cdw10 := 1, cdw11 := 1 } })).bindStatus ({ adm 0xC4 1 1 with sqe := { opc := 0xC4, nsid := 1, cdw10 := 1, cdw11 := 1 } }) = stOk ∧
    (one (withProg [] hostNs) ({ adm 0xC4 1 1 with sqe := { opc := 0xC4, nsid := 1, cdw10 := 1, cdw11 := 1 } })).live (({ adm 0xC4 1 1 with sqe := { opc := 0xC4, nsid := 1, cdw10 := 1, cdw11 := 1 } })).bHandle = some scanProg ∧
    (one (withProg [] hostNs) ({ adm 0xC4 1 1 with sqe := { opc := 0xC4, nsid := 1, cdw10 := 1, cdw11 := 1 } })).scanBefore 1 = false ∧
    (({ adm 0xC4 1 1 with sqe := { opc := 0xC4, nsid := 1, cdw10 := 1, cdw11 := 1 } })).bUnbind = false ∧
    (one (withProg [] hostNs) ({ adm 0xC4 1 1 with sqe := { opc := 0xC4, nsid := 1, cdw10 := 1, cdw11 := 1 } })).bindOk ({ adm 0xC4 1 1 with sqe := { opc := 0xC4, nsid := 1, cdw10 := 1, cdw11 := 1 } }) scanProg = true ∧
    (one (withProg [] hostNs) ({ adm 0xC4 1 1 with sqe := { opc := 0xC4, nsid := 1, cdw10 := 1, cdw11 := 1 } })).bindTaken ({ adm 0xC4 1 1 with sqe := { opc := 0xC4, nsid := 1, cdw10 := 1, cdw11 := 1 } }) = false := by decide

theorem wit_bindTwice : (one (withProg [{ handle := 1, target := 1, nsid := 1, scope := 0 }] hostNs) ({ adm 0xC4 1 1 with sqe := { opc := 0xC4, nsid := 1, cdw10 := 1, cdw11 := 1 } })).adminCmd ({ adm 0xC4 1 1 with sqe := { opc := 0xC4, nsid := 1, cdw10 := 1, cdw11 := 1 } }).fsn ({ adm 0xC4 1 1 with sqe := { opc := 0xC4, nsid := 1, cdw10 := 1, cdw11 := 1 } }).sqe.opc = some ({ adm 0xC4 1 1 with sqe := { opc := 0xC4, nsid := 1, cdw10 := 1, cdw11 := 1 } }) ∧
    ({ adm 0xC4 1 1 with sqe := { opc := 0xC4, nsid := 1, cdw10 := 1, cdw11 := 1 } }).mute = false ∧
    ({ adm 0xC4 1 1 with sqe := { opc := 0xC4, nsid := 1, cdw10 := 1, cdw11 := 1 } }).tunnel = false ∧
    (one (withProg [{ handle := 1, target := 1, nsid := 1, scope := 0 }] hostNs) ({ adm 0xC4 1 1 with sqe := { opc := 0xC4, nsid := 1, cdw10 := 1, cdw11 := 1 } })).postsStopped = false ∧
    (one (withProg [{ handle := 1, target := 1, nsid := 1, scope := 0 }] hostNs) ({ adm 0xC4 1 1 with sqe := { opc := 0xC4, nsid := 1, cdw10 := 1, cdw11 := 1 } })).bindStatus ({ adm 0xC4 1 1 with sqe := { opc := 0xC4, nsid := 1, cdw10 := 1, cdw11 := 1 } }) = stOk ∧
    (one (withProg [{ handle := 1, target := 1, nsid := 1, scope := 0 }] hostNs) ({ adm 0xC4 1 1 with sqe := { opc := 0xC4, nsid := 1, cdw10 := 1, cdw11 := 1 } })).bindOk ({ adm 0xC4 1 1 with sqe := { opc := 0xC4, nsid := 1, cdw10 := 1, cdw11 := 1 } }) scanProg = true ∧
    (one (withProg [{ handle := 1, target := 1, nsid := 1, scope := 0 }] hostNs) ({ adm 0xC4 1 1 with sqe := { opc := 0xC4, nsid := 1, cdw10 := 1, cdw11 := 1 } })).bindTaken ({ adm 0xC4 1 1 with sqe := { opc := 0xC4, nsid := 1, cdw10 := 1, cdw11 := 1 } }) = true := by decide

theorem wit_unbind : (one (withProg [{ handle := 1, target := 1, nsid := 1, scope := 0 }] hostNs) ({ adm 0xC4 1 (65536 + 1) with sqe := { opc := 0xC4, nsid := 1, cdw10 := 1, cdw11 := (65536 + 1) } })).adminCmd ({ adm 0xC4 1 (65536 + 1) with sqe := { opc := 0xC4, nsid := 1, cdw10 := 1, cdw11 := (65536 + 1) } }).fsn ({ adm 0xC4 1 (65536 + 1) with sqe := { opc := 0xC4, nsid := 1, cdw10 := 1, cdw11 := (65536 + 1) } }).sqe.opc = some ({ adm 0xC4 1 (65536 + 1) with sqe := { opc := 0xC4, nsid := 1, cdw10 := 1, cdw11 := (65536 + 1) } }) ∧
    ({ adm 0xC4 1 (65536 + 1) with sqe := { opc := 0xC4, nsid := 1, cdw10 := 1, cdw11 := (65536 + 1) } }).mute = false ∧
    ({ adm 0xC4 1 (65536 + 1) with sqe := { opc := 0xC4, nsid := 1, cdw10 := 1, cdw11 := (65536 + 1) } }).tunnel = false ∧
    (one (withProg [{ handle := 1, target := 1, nsid := 1, scope := 0 }] hostNs) ({ adm 0xC4 1 (65536 + 1) with sqe := { opc := 0xC4, nsid := 1, cdw10 := 1, cdw11 := (65536 + 1) } })).postsStopped = false ∧
    (one (withProg [{ handle := 1, target := 1, nsid := 1, scope := 0 }] hostNs) ({ adm 0xC4 1 (65536 + 1) with sqe := { opc := 0xC4, nsid := 1, cdw10 := 1, cdw11 := (65536 + 1) } })).bindStatus ({ adm 0xC4 1 (65536 + 1) with sqe := { opc := 0xC4, nsid := 1, cdw10 := 1, cdw11 := (65536 + 1) } }) = stOk ∧
    (({ adm 0xC4 1 (65536 + 1) with sqe := { opc := 0xC4, nsid := 1, cdw10 := 1, cdw11 := (65536 + 1) } })).bUnbind = true := by decide

theorem wit_unbindNone : (one (withProg [] hostNs) ({ adm 0xC4 1 (65536 + 1) with sqe := { opc := 0xC4, nsid := 1, cdw10 := 1, cdw11 := (65536 + 1) } })).adminCmd ({ adm 0xC4 1 (65536 + 1) with sqe := { opc := 0xC4, nsid := 1, cdw10 := 1, cdw11 := (65536 + 1) } }).fsn ({ adm 0xC4 1 (65536 + 1) with sqe := { opc := 0xC4, nsid := 1, cdw10 := 1, cdw11 := (65536 + 1) } }).sqe.opc = some ({ adm 0xC4 1 (65536 + 1) with sqe := { opc := 0xC4, nsid := 1, cdw10 := 1, cdw11 := (65536 + 1) } }) ∧
    ({ adm 0xC4 1 (65536 + 1) with sqe := { opc := 0xC4, nsid := 1, cdw10 := 1, cdw11 := (65536 + 1) } }).mute = false ∧
    ({ adm 0xC4 1 (65536 + 1) with sqe := { opc := 0xC4, nsid := 1, cdw10 := 1, cdw11 := (65536 + 1) } }).tunnel = false ∧
    (one (withProg [] hostNs) ({ adm 0xC4 1 (65536 + 1) with sqe := { opc := 0xC4, nsid := 1, cdw10 := 1, cdw11 := (65536 + 1) } })).postsStopped = false ∧
    (one (withProg [] hostNs) ({ adm 0xC4 1 (65536 + 1) with sqe := { opc := 0xC4, nsid := 1, cdw10 := 1, cdw11 := (65536 + 1) } })).bindStatus ({ adm 0xC4 1 (65536 + 1) with sqe := { opc := 0xC4, nsid := 1, cdw10 := 1, cdw11 := (65536 + 1) } }) = stOk ∧
    (({ adm 0xC4 1 (65536 + 1) with sqe := { opc := 0xC4, nsid := 1, cdw10 := 1, cdw11 := (65536 + 1) } })).bUnbind = true := by decide

def tenantProg (s : State) : State := { s with prg := { s.prg with progs := ⟨[(1, some { scanProg with ring := 2, tid := 5 })]⟩ } }

theorem wit_replace : (one (tenantProg hostNs) ({ adm 0xC5 112 1 with sqe := { opc := 0xC5, cdw10 := 112, cdw11 := 1, data := smallest, sgl := 112 } })).adminCmd ({ adm 0xC5 112 1 with sqe := { opc := 0xC5, cdw10 := 112, cdw11 := 1, data := smallest, sgl := 112 } }).fsn ({ adm 0xC5 112 1 with sqe := { opc := 0xC5, cdw10 := 112, cdw11 := 1, data := smallest, sgl := 112 } }).sqe.opc = some ({ adm 0xC5 112 1 with sqe := { opc := 0xC5, cdw10 := 112, cdw11 := 1, data := smallest, sgl := 112 } }) ∧
    ({ adm 0xC5 112 1 with sqe := { opc := 0xC5, cdw10 := 112, cdw11 := 1, data := smallest, sgl := 112 } }).mute = false ∧
    ({ adm 0xC5 112 1 with sqe := { opc := 0xC5, cdw10 := 112, cdw11 := 1, data := smallest, sgl := 112 } }).tunnel = false ∧
    (one (tenantProg hostNs) ({ adm 0xC5 112 1 with sqe := { opc := 0xC5, cdw10 := 112, cdw11 := 1, data := smallest, sgl := 112 } })).postsStopped = false ∧
    sglStatus (({ adm 0xC5 112 1 with sqe := { opc := 0xC5, cdw10 := 112, cdw11 := 1, data := smallest, sgl := 112 } })).sqe (({ adm 0xC5 112 1 with sqe := { opc := 0xC5, cdw10 := 112, cdw11 := 1, data := smallest, sgl := 112 } })).sqe.cdw10 = stOk ∧
    (({ adm 0xC5 112 1 with sqe := { opc := 0xC5, cdw10 := 112, cdw11 := 1, data := smallest, sgl := 112 } })).badLoad = false ∧
    (one (tenantProg hostNs) ({ adm 0xC5 112 1 with sqe := { opc := 0xC5, cdw10 := 112, cdw11 := 1, data := smallest, sgl := 112 } })).foreignProg ({ adm 0xC5 112 1 with sqe := { opc := 0xC5, cdw10 := 112, cdw11 := 1, data := smallest, sgl := 112 } }) 1 = false ∧
    (one (tenantProg hostNs) ({ adm 0xC5 112 1 with sqe := { opc := 0xC5, cdw10 := 112, cdw11 := 1, data := smallest, sgl := 112 } })).live 1 = some { scanProg with ring := 2, tid := 5 } ∧
    (one (tenantProg hostNs) ({ adm 0xC5 112 1 with sqe := { opc := 0xC5, cdw10 := 112, cdw11 := 1, data := smallest, sgl := 112 } })).scanBefore 1 = false ∧
    verdict ((one (tenantProg hostNs) ({ adm 0xC5 112 1 with sqe := { opc := 0xC5, cdw10 := 112, cdw11 := 1, data := smallest, sgl := 112 } })).vIn ({ adm 0xC5 112 1 with sqe := { opc := 0xC5, cdw10 := 112, cdw11 := 1, data := smallest, sgl := 112 } })) ((({ adm 0xC5 112 1 with sqe := { opc := 0xC5, cdw10 := 112, cdw11 := 1, data := smallest, sgl := 112 } })).sqe.data.take 112) = none ∧
    ((one (tenantProg hostNs) ({ adm 0xC5 112 1 with sqe := { opc := 0xC5, cdw10 := 112, cdw11 := 1, data := smallest, sgl := 112 } })).newProg ({ adm 0xC5 112 1 with sqe := { opc := 0xC5, cdw10 := 112, cdw11 := 1, data := smallest, sgl := 112 } }) ((({ adm 0xC5 112 1 with sqe := { opc := 0xC5, cdw10 := 112, cdw11 := 1, data := smallest, sgl := 112 } })).sqe.data.take 112) 5).ring = 2 ∧
    ((one (tenantProg hostNs) ({ adm 0xC5 112 1 with sqe := { opc := 0xC5, cdw10 := 112, cdw11 := 1, data := smallest, sgl := 112 } })).usedKinds 1).any (fun k => (((one (tenantProg hostNs) ({ adm 0xC5 112 1 with sqe := { opc := 0xC5, cdw10 := 112, cdw11 := 1, data := smallest, sgl := 112 } })).newProg ({ adm 0xC5 112 1 with sqe := { opc := 0xC5, cdw10 := 112, cdw11 := 1, data := smallest, sgl := 112 } }) ((({ adm 0xC5 112 1 with sqe := { opc := 0xC5, cdw10 := 112, cdw11 := 1, data := smallest, sgl := 112 } })).sqe.data.take 112) 5).entry k).isNone) = false := by set_option maxRecDepth 100000 in decide

theorem wit_unloadBound : (one (withProg [{ handle := 1, target := 1, nsid := 1, scope := 0 }] hostNs) (adm 0xC8 1 0)).adminCmd (adm 0xC8 1 0).fsn (adm 0xC8 1 0).sqe.opc = some (adm 0xC8 1 0) ∧
    (adm 0xC8 1 0).mute = false ∧
    (adm 0xC8 1 0).tunnel = false ∧
    (one (withProg [{ handle := 1, target := 1, nsid := 1, scope := 0 }] hostNs) (adm 0xC8 1 0)).postsStopped = false ∧
    ((one (withProg [{ handle := 1, target := 1, nsid := 1, scope := 0 }] hostNs) (adm 0xC8 1 0)).live 1).isSome = true ∧
    (one (withProg [{ handle := 1, target := 1, nsid := 1, scope := 0 }] hostNs) (adm 0xC8 1 0)).foreignProg (adm 0xC8 1 0) 1 = false ∧
    (one (withProg [{ handle := 1, target := 1, nsid := 1, scope := 0 }] hostNs) (adm 0xC8 1 0)).prg.binds.any (fun b => b.handle == ((adm 0xC8 1 0)).sqe.cdw10) = true := by decide

theorem wit_unload : (one (withProg [{ handle := 1, target := 1, nsid := 1, scope := 0 }] hostNs) (adm 0xC8 1 1)).adminCmd (adm 0xC8 1 1).fsn (adm 0xC8 1 1).sqe.opc = some (adm 0xC8 1 1) ∧
    (adm 0xC8 1 1).mute = false ∧
    (adm 0xC8 1 1).tunnel = false ∧
    (one (withProg [{ handle := 1, target := 1, nsid := 1, scope := 0 }] hostNs) (adm 0xC8 1 1)).postsStopped = false ∧
    ((one (withProg [{ handle := 1, target := 1, nsid := 1, scope := 0 }] hostNs) (adm 0xC8 1 1)).live 1).isSome = true ∧
    (one (withProg [{ handle := 1, target := 1, nsid := 1, scope := 0 }] hostNs) (adm 0xC8 1 1)).scansOf 1 = [] ∧
    risingL (one (withProg [{ handle := 1, target := 1, nsid := 1, scope := 0 }] hostNs) (adm 0xC8 1 1)).prg.progs.items = true := by decide

theorem wit_inventory : (one (withProg [] hostNs) ({ adm 0xCA 15 0 with sqe := { opc := 0xCA, cdw10 := 15, sgl := 64 } })).adminCmd ({ adm 0xCA 15 0 with sqe := { opc := 0xCA, cdw10 := 15, sgl := 64 } }).fsn ({ adm 0xCA 15 0 with sqe := { opc := 0xCA, cdw10 := 15, sgl := 64 } }).sqe.opc = some ({ adm 0xCA 15 0 with sqe := { opc := 0xCA, cdw10 := 15, sgl := 64 } }) ∧
    ({ adm 0xCA 15 0 with sqe := { opc := 0xCA, cdw10 := 15, sgl := 64 } }).mute = false ∧
    ({ adm 0xCA 15 0 with sqe := { opc := 0xCA, cdw10 := 15, sgl := 64 } }).tunnel = false ∧
    (one (withProg [] hostNs) ({ adm 0xCA 15 0 with sqe := { opc := 0xCA, cdw10 := 15, sgl := 64 } })).postsStopped = false ∧
    sglStatus (({ adm 0xCA 15 0 with sqe := { opc := 0xCA, cdw10 := 15, sgl := 64 } })).sqe 64 = stOk := by decide

def desc (slba n : Nat) : List Byte := [1, 0, 1, 0, 0, 0, 0, 0] ++ leBytes 4 8 ++ zeros 52 ++ leBytes 8 slba ++ leBytes 4 n ++ zeros 4

def scanCmd (slba n : Nat) : Cmd := { fsn := 1, fn := 0, sq := 1, sqe := { opc := 0x83, nsid := 1, cdw10 := 80, cdw11 := 4096, cdw12 := 1, data := desc slba n } }

def scanSt (c : Cmd) : State := one (withProg [{ handle := 1, target := 1, nsid := 1, scope := 0 }] keyed) c

theorem wit_scan : (scanSt (scanCmd 4095 1)).cmd (scanCmd 4095 1).fsn = some (scanCmd 4095 1) ∧
    (scanCmd 4095 1).mute = false ∧
    (scanCmd 4095 1).tunnel = false ∧
    (scanSt (scanCmd 4095 1)).postsStopped = false ∧
    (scanSt (scanCmd 4095 1)).progBefore 1 = false ∧
    (scanSt (scanCmd 4095 1)).behindWhole (scanCmd 4095 1) = false ∧
    (scanCmd 4095 1).badScan = false ∧
    (scanSt (scanCmd 4095 1)).foreignNs (scanCmd 4095 1) 1 = false ∧
    (List.range (dNrange (scanCmd 4095 1).sqe.data)).map (scanRange (scanCmd 4095 1).sqe.data) = [(4095, 1)] ∧
    ((scanSt (scanCmd 4095 1)).live 1) = some scanProg ∧
    (scanSt (scanCmd 4095 1)).noKey ns1 = false ∧
    scanProg.ring = 1 := by set_option maxRecDepth 100000 in decide

theorem wit_scanRange : (scanSt (scanCmd 4096 1)).cmd (scanCmd 4096 1).fsn = some (scanCmd 4096 1) ∧
    (scanCmd 4096 1).mute = false ∧
    (scanCmd 4096 1).tunnel = false ∧
    (scanSt (scanCmd 4096 1)).postsStopped = false ∧
    (scanSt (scanCmd 4096 1)).progBefore 1 = false ∧
    (scanSt (scanCmd 4096 1)).behindWhole (scanCmd 4096 1) = false ∧
    (scanCmd 4096 1).badScan = false ∧
    (scanSt (scanCmd 4096 1)).foreignNs (scanCmd 4096 1) 1 = false ∧
    (List.range (dNrange (scanCmd 4096 1).sqe.data)).map (scanRange (scanCmd 4096 1).sqe.data) = [(4096, 1)] := by set_option maxRecDepth 100000 in decide

def theScan (res : Bool) (r : List Byte) : Scan := { fsn := 1, fe := 15, resident := res, handle := 1, prog := scanProg, nsid := 1, ranges := [(0, 1)], stage := 0, result := r }

def scanning (x : Scan) : State := { one keyed (scanCmd 0 1) with prg := { progs := ⟨[(1, some scanProg)]⟩, scans := [x] } }

def roomy : State := { dramUp (scanning (theScan false [])) with map := { pool := 0 } }

theorem wit_resident : roomy.scanOf 1 = some (theScan false []) ∧
    ((roomy.prg.scans.filter (fun y => y.fe == 15 && !y.resident)).head?).map (·.fsn) = some 1 ∧
    (List.range 4).find? (fun r => !(roomy.feRegions 15).contains r) = some 0 ∧
    roomy.unitState (uEng (eFE 15)) = .up ∧
    roomy.swapping (eFE 15) = false ∧
    roomy.scratchFit 0 + 4096 * 0 ≤ roomy.scratchTop ∧
    roomy.scratchHeld 0 + scanProg.scratchPages ≤ roomy.getF F.PRG_TQUOTA_PAGES := by decide

theorem wit_scanStep : (scanning (theScan true [])).scanOf 1 = some (theScan true []) ∧
    ((scanning (theScan true [])).eng (eFE 15)).ring = 0 ∧ ((scanning (theScan true [])).eng (eFE 15)).scan = none ∧
    8 ≤ 4096 - 32 - (theScan true []).result.length ∧
    scanProg.needCyc ≤ (scanning (theScan true [])).cycLeft (eFE 15) ∧
    (theScan true []).stage ≠ 1 ∧
    (scanning (theScan true [])).stepPicked (theScan true []) = true ∧
    (scanning (theScan true [])).swapping (eFE 15) = false ∧
    (scanning (theScan true [])).unitState (uEng (eFE 15)) = .up := by decide

def tightScan : Scan := { theScan true (zeros 64) with rlen := 96 }

theorem wit_scanFull : tightScan.rlen - 32 - tightScan.result.length < tightScan.room ∧
    (scanning tightScan).scanOf 1 = some tightScan := by decide

/-- A cancel of FSN 2 beside a scan of FSN 1 with CID 7. -/
def cancelling (cid : Nat) : State :=
  let c : Cmd := { fsn := 2, fn := 0, sq := 1, sqe := { opc := 0x84, nsid := 1, cdw10 := 1, cdw11 := cid } }
  let d : Cmd := scanCmd 0 1
  { keyed with hif := { keyed.hif with cmds := [{ d with sqe := { d.sqe with cid := 7 } }, c] }, prg := { scans := [theScan true []] } }

theorem wit_cancel : (cancelling 7).cancelTarget { fsn := 2, fn := 0, sq := 1, sqe := { opc := 0x84, nsid := 1, cdw10 := 1, cdw11 := 7 } } = some (theScan true []) ∧
    (cancelling 7).cmd 2 = some { fsn := 2, fn := 0, sq := 1, sqe := { opc := 0x84, nsid := 1, cdw10 := 1, cdw11 := 7 } } ∧
    (theScan true []).cancel = none ∧
    ((cancelling 7).eng (eFE 15)).scan ≠ some 1 := by decide

def qos (f : Nat) : State := { up with time := { frame := f }, prg := { binds := [{ handle := 1, target := 0x14, nsid := 0, scope := 0xFF }], qosPer := 1 } }

theorem wit_qosHook : (qos 1024).prg.qosStart + 1024 * (qos 1024).prg.qosPer ≤ (qos 1024).time.frame ∧
    ((qos 1024).prg.binds.any fun b => b.target == 0x14 && !b.susp) = true ∧
    (qos 1024).firstHe.isSome = true ∧
    (qos 1024).hookFits 4 0 = true ∧
    (qos 1023).time.frame < (qos 1023).prg.qosStart + 1024 * (qos 1023).prg.qosPer := by decide

def hooked : State := { up with prg := { binds := [{ handle := 9, target := 0x13, nsid := 0, scope := 2 }] } }

theorem wit_hookLate : hooked.hookBind 3 2 = some { handle := 9, target := 0x13, nsid := 0, scope := 2 } := by decide

/-- A program command of FSN 3 behind a Scan of FSN 1 that has not taken its image. -/
def behindScan (opc : Nat) : State :=
  { keyed with hif := { keyed.hif with cmds := [scanCmd 0 1, { adm opc 0 0 with fsn := 3 }] } }

theorem wit_programLoadWaits : (behindScan 0xC1).scanBefore 3 = true ∧
    (behindScan 0xC1).adminCmd 3 0xC1 = some { adm 0xC1 0 0 with fsn := 3 } := by decide

theorem wit_programBindWaits : (behindScan 0xC4).scanBefore 3 = true ∧
    (behindScan 0xC4).adminCmd 3 0xC4 = some { adm 0xC4 0 0 with fsn := 3 } := by decide

theorem wit_programUnbindWaits : (behindScan 0xC4).scanBefore 3 = true ∧
    (behindScan 0xC4).adminCmd 3 0xC4 = some { adm 0xC4 0 0 with fsn := 3 } := by decide

theorem wit_programReplaceWaits : (behindScan 0xC5).scanBefore 3 = true ∧
    (behindScan 0xC5).adminCmd 3 0xC5 = some { adm 0xC5 0 0 with fsn := 3 } := by decide

theorem wit_programUnloadWaits : (behindScan 0xC8).scanBefore 3 = true ∧
    (behindScan 0xC8).adminCmd 3 0xC8 = some { adm 0xC8 0 0 with fsn := 3 } := by decide

def slabScan : Scan := { theScan true [] with stage := 1 }

theorem wit_scanSlab : (scanning slabScan).scanOf 1 = some slabScan ∧
    slabScan.room ≤ slabScan.rlen - 32 - slabScan.result.length ∧
    (scanning slabScan).stepPicked slabScan = true ∧
    slabScan.prog.needCyc ≤ (scanning slabScan).cycLeft (eFE 15) ∧
    (scanning slabScan).noKey ns1 = false ∧
    slabScan.slabBlocks = 1 ∧
    (((scanning slabScan).lookAt (arbEng (eFE 15)) ((scanning slabScan).stepReqs 15)).walkAll [0]).pagesOk [0] = true := by set_option maxRecDepth 100000 in decide

theorem wit_scanNotNow : (tight (scanning slabScan)).sched.cycGrant = 3999 ∧
    (scanning { slabScan with prog := { scanProg with stepmax := 4000 } }).scanOf 1 = some { slabScan with prog := { scanProg with stepmax := 4000 } } ∧
    (tight (scanning { slabScan with prog := { scanProg with stepmax := 4000 } })).cycLeft (eFE 15) < 4000 := by decide

theorem wit_cancelRuns : ((cancelling 7).onEng (eFE 15) fun g => { g with scan := some 1 }).eng (eFE 15) = { scan := some 1 } := by decide

def finished (l : Nat) : State := one keyed { scanCmd 0 1 with fin := some (stOk, 64, 2), left := l }

theorem wit_scanEnds : (finished 0).hif.cmds.map (·.fin) = [some (stOk, 64, 2)] ∧
    (finished 0).finishScans = (finished 0).complete 1 stOk 64 (desc 0 1) 2 ∧
    (finished 3).finishScans = finished 3 := by decide

def hookWaits : State := { qos 1024 with sched := { cycGrant := 499 }, prg := { (qos 1024).prg with progs := ⟨[(1, some scanProg)]⟩ } }

theorem wit_qosWaits : hookWaits.hookFits 4 0 = false := by decide

/-! ### Memory protection and DRAM -/

theorem wit_codes : decodeWord (protect (2 ^ 64 - 1)) = .clean (2 ^ 64 - 1) ∧
    decodeWord (protect (2 ^ 64 - 1) ^^^ 2 ^ 63) = .corr (2 ^ 64 - 1) 7 (protect (2 ^ 64 - 1)) ∧
    decodeWord (protect 0 ^^^ 2 ^ 71) = .corr 0 8 (protect 0) ∧
    decodeWord (protect 0 ^^^ 2 ^ 79) = .corr 0 9 (protect 0) ∧
    decodeWord (poisonWord 5 ^^^ 2 ^ 79) = .poisoned := by decide

def flipAt : Nat := sramLoc (uEng 0x2F) 64

def wordSt (w : Nat) : State := { up with memp := { words := ⟨[(flipAt / 8, w)]⟩ } }

def flagOff (f : Fld) : State := { up with fields := ⟨[(fkey f 0, 0)]⟩ }

def flagOn (f : Fld) (s : State) : State := { s with fields := ⟨[(fkey f 0, 1)]⟩ }

theorem wit_patrol : (flagOff F.MEMP_CTL_SRAM_EN).flag F.MEMP_CTL_SRAM_EN = false ∧
    (flagOn F.MEMP_CTL_SRAM_EN (wordSt (protect 5 ^^^ 1))).flag F.MEMP_CTL_SRAM_EN = true ∧
    flipAt % 8 = 0 ∧ locSpace flipAt = 1 ∧
    (flagOn F.MEMP_CTL_SRAM_EN (wordSt (protect 5 ^^^ 1))).curPwr (locUnit flipAt) = 2 ∧
    (flagOn F.MEMP_CTL_SRAM_EN (wordSt (protect 5 ^^^ 1))).wordCls flipAt = .corr 5 0 (protect 5) ∧
    (flagOn F.MEMP_CTL_SRAM_EN (wordSt (protect 5 ^^^ 1))).shadowed flipAt = false ∧
    (flagOn F.MEMP_CTL_SRAM_EN (wordSt (protect 5 ^^^ 1))).flipHits flipAt = false := by decide

theorem wit_patrolClean : (∀ k ∈ (flagOn F.MEMP_CTL_DRAM_EN (wordSt (protect 5))).memp.words.keys, (flagOn F.MEMP_CTL_DRAM_EN (wordSt (protect 5))).wordCls (k * 8) = .clean 5) := by decide

def declareReg : Reg := (regAt 0xD00030).getD ⟨0, false, []⟩

theorem wit_declare : regAt 0xD00030 = some declareReg ∧
    (up.storeReg declareReg 0 (0x87900010 : W32).toNat).isSome = true ∧
    bits (0x87900010 : W32).toNat 23 20 = 9 ∧ bits (0x87900010 : W32).toNat 26 24 = 7 ∧
    up.memp.failed.get 0 7 = 0 := by decide

def repair (a : Nat) (soft : List Fuse) : State := { up with memp := { rep := ⟨[(0, some ⟨a, 3, 0, 2⟩)]⟩, soft := soft } }

def spent : List Fuse := (List.range 8).map fun k => ⟨uEng 0x2F, 0, k, k + 9, 2⟩

theorem wit_repair : (repair flipAt []).memp.rep.get none 0 = some ⟨flipAt, 3, 0, 2⟩ ∧
    locSpace flipAt ≠ 0 ∧
    locSpace 8192 = 0 := by set_option maxRecDepth 50000 in decide

def passing (l : Nat) : State := { up with memp := { pass := some { addr := flipAt, left := l } } }

def passAt (lo hi : Nat) : State := { up with fields := ⟨[(fkey F.MEMP_PASS_ADDR_LO_ADDR 0, lo), (fkey F.MEMP_PASS_ADDR_HI_ADDR 0, hi)]⟩ }

theorem wit_repairSpent : (repair flipAt spent).freeSpare (locUnit flipAt) (locOff flipAt / 262144) = none := by
  simp only [State.freeSpare, List.find?_eq_none, State.fuses]
  intro k hk
  have : k = 0 ∨ k = 1 ∨ k = 2 ∨ k = 3 ∨ k = 4 ∨ k = 5 ∨ k = 6 ∨ k = 7 := by have := List.mem_range.1 hk; omega
  have e : ∀ k, k ∈ List.range 8 → (spent.any fun f => f.unit == locUnit flipAt && f.bank == locOff flipAt / 262144 && f.spare == k) = true := by decide
  rw [List.any_append]
  simp [repair, e k hk]

theorem wit_repairFree : Config.factoryFuses = 0 → (repair flipAt []).freeSpare (locUnit flipAt) (locOff flipAt / 262144) = some 0 := by
  intro h
  simp [State.freeSpare, State.fuses, h, repair]

def gated : State := (passing 1).onUnit (domainOf (locUnit flipAt)) fun u => { u with cur := 1 }

/-- Every soft entry is taken. -/
def softFull : State := repair flipAt (List.replicate 1024 ⟨uEng 0x30, 0, 0, 0, 2⟩)

theorem wit_passGated : gated.memp.pass = some { addr := flipAt, left := 1 } ∧
    gated.curPwr (locUnit flipAt) ≠ 2 := by decide

theorem wit_softFull : 1024 ≤ softFull.memp.soft.length ∧
    locSpace flipAt ≠ 0 := ⟨Nat.le_of_eq (List.length_replicate ..).symm, by decide⟩

theorem wit_pass : (passing 1).memp.pass.isSome = true ∧
    up.memp.pass = none ∧
    (passAt 64 (flipAt / 2 ^ 32)).passAddr = flipAt ∧
    (passAt 64 (flipAt / 2 ^ 32)).locOk flipAt = true ∧
    locSpace flipAt < 2 ∧ up.curPwr (locUnit flipAt) = 2 ∧
    (passAt 4 0).locOk (passAt 4 0).passAddr = false ∧
    (∀ k ∈ (passing 1).memp.words.keys, k * 8 < flipAt ∨ flipAt + 4096 * 1 ≤ k * 8) := by decide

theorem wit_dramRequest : 11 < 12 ∧ 64 < (dramUp up).dramSize ∧
    ∀ r ∈ (dramUp up).dram.reqs, r.port < 12 := by decide

def queued (u ph o : Nat) : State := { dramUp up with dram := { active := [0, 1, 2, 3, 4], reqs := [{ port := 11, sub := 4, urg := u }], subs := ⟨[(4, { phase := ph, owed0 := o, idle := 99999999 })]⟩ } }

def postpones (s : State) : State := { s with fields := ⟨[(fkey F.DRC_CFG_POSTPONE 0, 1)]⟩ }

theorem wit_dramIssue : ((queued 0 4 0).sub 4).phase = 4 ∧ ((queued 0 6 0).sub 4).phase = 6 ∧
    (queued 0 4 0).dram.reqs = [{ port := 11, sub := 4, urg := 0 }] := by decide

theorem wit_dramRefresh : (queued 0 4 5).urgentAt 4 0 = false ∧
    (queued 2 4 7).urgentAt 4 0 = true ∧ ((queued 2 4 7).sub 4).owed 0 = 7 ∧
    (postpones (queued 2 4 7)).flag F.DRC_CFG_POSTPONE = true ∧
    ((queued 2 4 8).sub 4).owed 0 = 8 := by decide

def quietSub : State := { queued 0 4 3 with dram := { (queued 0 4 3).dram with reqs := [] }, fields := ⟨[(fkey F.DRC_CFG_SR_IDLE 0, 125)]⟩ }

theorem wit_selfRefresh : 0 < quietSub.getF F.DRC_CFG_SR_IDLE ∧ quietSub.getF F.DRC_CFG_SR_IDLE ≤ (quietSub.sub 4).idle ∧
    (quietSub.dram.reqs.any fun r => r.sub == 4) = false := by decide

theorem wit_setPoint : (1 : W32).toNat % 2 = up.dram.fsp ∧
    (0 : W32).toNat % 2 ≠ up.dram.fsp ∧ up.dram.fsp0ok = false ∧
    ({ up with dram := { fsp0ok := true } } : State).dram.fsp0ok = true := by decide

def ppr : State := { dramUp up with dram := { active := [0, 1, 2, 3, 4], repairs := [4096, 8192] } }

theorem wit_ppr : ppr.dram.repairs = [4096, 8192] ∧
    ppr.memp.failed.get 0 (ppr.subOf (locOff 4096)) = 0 := by decide

/-- The first row in turn lies in a failed device, or in a bank that owes a refresh. -/
def pprFailed : State := { ppr with memp := { failed := ⟨[(ppr.subOf (locOff 4096), 3)]⟩ } }

def pprBusy : State := { ppr with dram := { ppr.dram with subs := ⟨[(ppr.subOf (locOff 4096), { phase := 4, owed0 := 2, owed1 := 2 })]⟩ } }

theorem wit_pprWaits : pprFailed.memp.failed.get 0 (pprFailed.subOf (locOff 4096)) ≠ 0 ∧
    pprBusy.memp.failed.get 0 (pprBusy.subOf (locOff 4096)) = 0 ∧ pprBusy.bankQuiet 4096 = false ∧
    ppr.bankQuiet 4096 = true := by decide

theorem wit_evacRefused : (0x80000007 : W32).toNat.testBit 31 = true ∧
    (dramUp up).evacJudge 7 = 5 ∧
    (dramUp up).evacJudge 4 = 4 := by decide

/-- Eight subchannels of 64 GiB. -/
def eight (e : Option Evac) : State := { up with dram := { active := List.range 8, evac := e, evacRec := e.map (·.sub) }, fields := ⟨[(fkey F.DRC_SC_CFG_RANKS 0, 2), (fkey F.DRC_SC_CFG_DENSITY 0, 1)]⟩ }

def fits : State := { eight none with map := { pool := 0 } }

theorem wit_evacEnds : (eight (some { sub := 7 })).dram.evac = some { sub := 7 } ∧
    (∀ x ∈ (eight (some { sub := 7 })).prg.scans, x.resident = false) ∧
    (eight (some { sub := 7, phase := 2 })).dram.evac = some { sub := 7, phase := 2 } := by decide

theorem wit_evacStarts : (0x80000007 : W32).toNat.testBit 31 = true ∧
    fits.evacJudge ((0x80000007 : W32).toNat % 8) = 1 := by decide

/-- A resident scan whose window ends above the new top, `n` pages long, in engine `g`. -/
def above (n : Nat) (running : Bool) : State :=
  let s := eight (some { sub := 7 })
  ({ s with prg := { scans := [{ fsn := 9, fe := 0, resident := true, scratch := n, scrBase := s.evacTop }] } } : State).onEng (eFE 0) fun e => { e with scan := if running then some 9 else none }

theorem wit_evacTop : (above 1 true).topBusy (above 1 true).evacTop = true ∧
    (above 1 false).topBusy (above 1 false).evacTop = false ∧
    (above (2 ^ 40) false).topBusy (above (2 ^ 40) false).evacTop = false ∧
    ((above (2 ^ 40) false).clearTop (above (2 ^ 40) false).evacTop).isNone = true ∧
    ((above 1 false).clearTop (above 1 false).evacTop).isSome = true := by decide

/-! ### The governor -/

def gov (g : GovSt) : State := { up with gov := g }

def overBy (s : State) : Int := qOfTenth 700 * (1000 + (s.get2 F.PWR_GOV_GUARD_TOL : Int)) / 1000

theorem wit_powerMean : (gov { cap := 700 }).gov.winMean = none ∧
    qOfTenth 700 * (1000 + (up.get2 F.PWR_GOV_GUARD_TOL : Int)) < (overBy up + 1) * 1000 ∧
    overBy up * 1000 ≤ qOfTenth 700 * (1000 + (up.get2 F.PWR_GOV_GUARD_TOL : Int)) := by decide

def hot (th : Nat) (d : Int) : State := { up with time := { frame := 125000 }, gov := { therm := th, dies := [d] }, fields := ⟨[(fkey F.PWR_GOV_CTL_THERM_EN 0, 1)]⟩ }

def thermOff : State := { hot 500 200 with fields := ⟨[(fkey F.PWR_GOV_CTL_THERM_EN 0, 0)]⟩ }

theorem wit_thermal : (hot 500 0).gov.thermAt + 125000 ≤ (hot 500 0).time.frame ∧ (hot 500 0).pwr.cur ≤ 2 ∧
    (hot 500 0).flag F.PWR_GOV_CTL_THERM_EN = true ∧ (hot 500 0).thermErr ≤ 0 ∧
    0 < (hot 500 500).thermErr ∧
    thermOff.flag F.PWR_GOV_CTL_THERM_EN = false ∧
    ({ up with time := { frame := 124999 } } : State).time.frame < 125000 := by decide

theorem wit_fallback : 8 ≤ (gov { miss := 8 }).gov.miss ∧ (gov { miss := 8 }).gov.fallback = false ∧
    (gov { miss := 7 }).gov.miss < 8 ∧
    125 ≤ (gov { fallback := true, onTime := 125 }).gov.onTime := by decide

theorem wit_revert : 125 ≤ (gov { satN := 125, iin := 3 }).gov.satN := by decide

theorem wit_banks : up.gov.drain = false ∧
    (gov { drain := true }).gov.drain = true := by decide

theorem wit_trace : (gov { armed := true }).gov.armed = true ∧ (gov { armed := true }).gov.trig = false ∧
    (gov { armed := true, trig := true }).gov.trcLeft = 0 := by decide

/-! ### Faults, the logbook and health -/

def faulty (c : Nat) : State := { up with flt := { queue := [⟨0, uEng 2, c, 7, 0⟩] } }

theorem wit_collect : (faulty 0x0001).nextFault = some ⟨0, uEng 2, 0x0001, 7, 0⟩ ∧ faultClass 0x0001 = 0 ∧ (faulty 0x0001).log.subs = [] ∧
    (faulty 0x0104).nextFault = some ⟨0, uEng 2, 0x0104, 7, 0⟩ ∧ faultClass 0x0104 = 1 ∧ (faulty 0x0104).log.subs = [] ∧
    (faulty 0x0205).nextFault = some ⟨0, uEng 2, 0x0205, 7, 0⟩ ∧ faultClass 0x0205 = 2 ∧ (faulty 0x0205).log.subs = [] ∧
    (faulty 0x0306).nextFault = some ⟨0, uEng 2, 0x0306, 7, 0⟩ ∧ faultClass 0x0306 = 3 ∧ (faulty 0x0306).log.subs = [] := by decide

def fltS (f : FltSt) : State := { up with flt := f }

theorem wit_pulse : (fltS { pulse := true }).flt.pulse = true ∧
    up.flt.pulse = false := by decide

theorem wit_junction : (fltS { tjF2 := ⟨[(4, 124)]⟩, tjF3 := ⟨[(4, 1249)]⟩ }).flt.tjF2.get 0 4 = 124 ∧
    125 ≤ (fltS { tjF2 := ⟨[(4, 125)]⟩ }).flt.tjF2.get 0 4 ∧
    1250 ≤ (fltS { tjF3 := ⟨[(4, 1250)]⟩ }).flt.tjF3.get 0 4 := by decide

def armed : State := { halted 4 with flt := { (halted 4).flt with armed := true }, hif := { p0 := { perst := true } }, fields := ⟨[(fkey F.FLT_REGC_WIRED 0, 1)]⟩ }

theorem wit_regCycle : armed.flt.armed = true ∧ armed.halted = true ∧ armed.getF F.FLT_REGC_WIRED = 1 ∧ armed.hif.p0.perst = true ∧
    up.flt.armed = false ∧
    (fltS { regc := true }).flt.regc = true := by decide

theorem wit_submit : (0x10204 : W32).toNat.testBit 16 = true ∧ bits (0x10204 : W32).toNat 14 8 = 2 ∧ bits (0x10204 : W32).toNat 7 0 = 4 ∧
    (0x10920 : W32).toNat.testBit 16 = true ∧ bits (0x10920 : W32).toNat 14 8 = 9 ∧ bits (0x10920 : W32).toNat 7 0 = 32 ∧
    bits (0x10A04 : W32).toNat 14 8 = 10 ∧
    up.log.subs = [] := by decide

def rated : State := { up with log := { up.log with f0n := ⟨[(1, 2)]⟩ } }

theorem wit_logs : rated.log.f0n.items ≠ [] ∧
    up.lvl.core = true ∧ ({ up with time := { ms := 3600000 } } : State).flt.evalHour < ({ up with time := { ms := 3600000 } } : State).time.ms / 3600000 := by decide

/-! ### Start-up and JTAG -/

theorem wit_startUp : up.lvl.core = true ∧
    State.reset.lvl.core = false ∧ State.reset.pwr.drained = false ∧ State.reset.flt.regc = false ∧
    ({ testEn := true } : StartIn).testEn = true := by decide

def ladder (l : LvlSt) : State := { linked with lvl := l, pwr := { tested := true }, sec := { boot := 1 } }

def steel : State := { ladder { core := true, level := 2, writes := true } with map := { loaded := true } }

theorem wit_levels : (ladder { core := true, perst0 := some 0 }).mayRise 1 = true ∧
    (ladder { core := true, level := 1 }).mayRise 2 = true ∧
    (ladder { core := true, level := 2 }).mayRise 3 = true ∧
    steel.mayRise 4 = true ∧
    up.mayRise 1 = false := by decide

def late (n : Nat) : State := { ladder { core := true, level := 1, perst0 := some 0 } with time := { ms := n } }

theorem wit_levelBound : (late 1001).lvl.perst0.isSome = true ∧
    1000 < (late 1001).sinceT0 ∧
    (late 1000).sinceT0 ≤ 1000 := by decide

def held : State := { State.reset with lvl := { testEn := true, bsr := [(3, true)] } }

theorem wit_jtag : held.lvl.testEn = true ∧ held.lvl.core = false ∧
    up.lvl.testEn = false := by decide

/-! ### The queue and the invariants -/

def waitsIn : State := { up with pending := [.deviceTimeMark, .bypass] }

/-- A step answers a next state that a test accepts. -/
def goesTo (s : State) (p : State → Bool) : Bool := match step s with | .next t => p t | _ => false

theorem wit_step : waitsIn.pending = .deviceTimeMark :: [.bypass] ∧
    up.pending = [] ∧
    goesTo waitsIn (fun t => t.pending == [.bypass] && t.time.ms == waitsIn.time.mark) = true ∧
    goesTo up (fun t => decide (t = up)) = true := by decide

theorem wit_reset : State.reset.pending = [] ∧
    State.reset.lvl.core = false ∧
    State.reset.hif.cmds = [] := by decide

theorem wit_inv : State.reset.Inv := by
  unfold State.Inv; decide

/-! ### WellFormed: each check refuses an ill-formed term, and accepts the boundary -/

theorem wf_acc : Instr.wf (.plainRegisterWrite (.eng 0x34) 0 0) = false ∧
    Instr.wf (.plainRegisterWrite (.eng 0x33) 0 0) = true := by decide

theorem wf_accHole : Instr.wf (.weightWrite (.eng 0x0C) 0) = false ∧
    Instr.wf (.weightWrite (.eng 0x0B) 0) = true := by decide

theorem wf_unit : Instr.wf (.fence .mgmt 0xFFFF 0) = false ∧
    Instr.wf (.fence .mgmt 0x307F 0) = true := by decide

theorem wf_unitAcc : Instr.wf (.retireClear (.eng 0x34) 0x307F) = false ∧
    Instr.wf (.retireClear .mgmt 0x307F) = true := by decide

theorem wf_drainUnit : Instr.wf (.drainTimeout 0x3080) = false ∧
    Instr.wf (.drainTimeout 0x307F) = true := by decide

theorem wf_cluster : Instr.wf (.drbgReseed 4) = false ∧
    Instr.wf (.drbgReseed 3) = true := by decide

theorem wf_pipeline : Instr.wf (.knownAnswerTest 3 16 true) = false ∧
    Instr.wf (.knownAnswerTest 3 15 true) = true := by decide

theorem wf_pipelineCluster : Instr.wf (.knownAnswerTest 4 15 true) = false ∧
    Instr.wf (.knownAnswerTest 0 0 true) = true := by decide

theorem wf_channel : Instr.wf (.listRead 128 0) = false ∧
    Instr.wf (.listRead 127 0) = true := by decide

theorem wf_lun : Instr.wf (.suspendResume 127 32) = false ∧
    Instr.wf (.suspendResume 127 15) = true := by decide

theorem wf_lunChannel : Instr.wf (.suspendResume 128 15) = false ∧
    Instr.wf (.suspendResume 0 0) = true := by decide

theorem wf_subchannel : Instr.wf (.selfRefreshEntry 8) = false ∧
    Instr.wf (.selfRefreshEntry 7) = true := by decide

theorem wf_function : Instr.wf (.controllerReset 1026) = false ∧
    Instr.wf (.controllerReset 1025) = true := by decide

theorem wf_list : Instr.wf (.listCommit 16 0 false) = false ∧
    Instr.wf (.listCommit 15 0 false) = true := by decide

theorem wf_group : Instr.wf (.drowseEntry 16) = false ∧
    Instr.wf (.drowseEntry 15) = true := by decide

theorem wf_path : Instr.wf (.nvmeMiReset 3) = false ∧
    Instr.wf (.nvmeMiReset 2) = true := by decide

theorem wf_tunnelPath : Instr.wf (.adminCommandTunnel 3 1025 ⟨6, 0, 0, 0, 0, 0, 0, 0, 0, [], 0, 1⟩) = false ∧
    Instr.wf (.adminCommandTunnel 2 1025 ⟨6, 0, 0, 0, 0, 0, 0, 0, 0, [], 0, 1⟩) = true := by decide

theorem wf_tunnelFunction : Instr.wf (.adminCommandTunnel 0 1026 ⟨6, 0, 0, 0, 0, 0, 0, 0, 0, [], 0, 1⟩) = false ∧
    Instr.wf (.adminCommandTunnel 0 0 ⟨6, 0, 0, 0, 0, 0, 0, 0, 0, [], 0, 1⟩) = true := by decide

theorem wf_port : Instr.wf (.linkDown 2) = false ∧
    Instr.wf (.linkDown 1) = true := by decide

theorem wf_quadrant : Instr.wf (.fold 4) = false ∧
    Instr.wf (.fold 3) = true := by decide

theorem wf_engine : Instr.wf (.add 0x34) = false ∧
    Instr.wf (.add 0x33) = true := by decide

theorem wf_engineHole : Instr.wf (.csrw 0x0F) = false ∧
    Instr.wf (.csrw 0x10) = true := by decide

set_option maxRecDepth 20000

/-! ### One step, decided -/

/-- The outcome is a next state that a test accepts. -/
def nextIs (o : Out) (p : State → Bool) : Bool := match o with | .next t => p t | _ => false

theorem test_unitPort0 : nextIs (Sys2Proof.Machine.execOffUnitAccess .mgmt 0x104 none (sel 0xFFFF)) (fun t => decide (t.outbox = [.reg 0xFFF 0x104 (0xBADD0000 ||| 0xFFFF)] ∧ t.getF F.SYS_ACC_STAT_ACC_FAULT 0xFFF = 1)) = true := by decide

theorem test_broadcast : nextIs (Sys2Proof.Machine.execBroadcastRead .mgmt 0x800040 (up.setF F.FCH_SEL_IDX 0xFFF (accIdx .mgmt))) (fun t => decide (t.outbox = [.reg 0xFFF 0x800040 0xBADD3FFF])) = true := by decide

theorem test_unassigned : nextIs (Sys2Proof.Machine.execUnassignedOffsetAccess .mgmt 0xFC none (up)) (fun t => decide (t.outbox = [.reg 0xFFF 0xFC 0])) = true := by decide

theorem test_calStart : nextIs (Sys2Proof.Machine.execRecalibrationStart .mgmt calVal (up)) (fun t => decide ((t.chan 0).due.isSome)) = true := by decide

theorem test_fence : nextIs (Sys2Proof.Machine.execFence .mgmt (uChan 7) 0 (ch7 .up)) (fun t => decide ((t.unit (uChan 7)).st = .fenced ∧ (t.unit (uChan 7)).lastOp = 1 ∧ (t.unit (uChan 7)).run.isSome)) = true := by decide

theorem test_unitReset : nextIs (Sys2Proof.Machine.execUnitReset .mgmt (uChan 7) 0 (ch7 .fenced)) (fun t => decide ((t.unit (uChan 7)).st = .resetting ∧ (t.unit (uChan 7)).lastOp = 2 ∧ (t.unit (uChan 7)).run.isSome)) = true := by decide

theorem test_drain : nextIs (Sys2Proof.Machine.execDrain .mgmt (uChan 7) 0 (ch7 .up)) (fun t => decide ((t.unit (uChan 7)).st = .draining ∧ (t.unit (uChan 7)).run.isSome)) = true := by decide

theorem test_resume : nextIs (Sys2Proof.Machine.execResume .mgmt (uChan 7) 0 (ch7 .draining)) (fun t => decide ((t.unit (uChan 7)).st = .up ∧ (t.unit (uChan 7)).run.isSome)) = true := by decide

theorem test_selftest : nextIs (Sys2Proof.Machine.execSelftest .mgmt (uChan 7) 0 (ch7 .fenced)) (fun t => decide ((t.unit (uChan 7)).st = .selftest ∧ (t.unit (uChan 7)).run.isSome)) = true := by decide

theorem test_retire : nextIs (Sys2Proof.Machine.execRetire .mgmt (uChan 7) 0 (ch7 .fenced)) (fun t => decide ((t.unit (uChan 7)).st = .retired ∧ uChan 7 ∈ t.retRec)) = true := by decide

theorem test_adopt : nextIs (Sys2Proof.Machine.execAdopt .mgmt (uEng (eME 2)) (uGroup 3) (up)) (fun t => decide (t.serverMe 3 = 2 ∧ (t.unit (uEng (eME 2))).lastOp = 5)) = true := by decide

theorem test_release : nextIs (Sys2Proof.Machine.execRelease .mgmt (uEng (eME 3)) (uGroup 3) (up)) (fun t => decide (t.serverMe 3 = 3 ∧ (t.unit (uEng (eME 3))).lastOp = 6)) = true := by decide

theorem test_opEnd : nextIs (Sys2Proof.Machine.execUnitOperationComplete (uEng 2) true { ch := 0 } (busy .unitReset 0)) (fun t => decide ((t.unit (uEng 2)).st = .up)) = true := by decide

theorem test_drainEnd : nextIs (Sys2Proof.Machine.execDrainTimeout (uEng 2) (drainAt 69)) (fun t => decide ((t.unit (uEng 2)).st = .up ∧ (t.unit (uEng 2)).code = 1 ∧ (t.unit (uEng 2)).run.isNone)) = true := by decide

theorem test_unitPower : nextIs (Sys2Proof.Machine.execUnitPowerRequest .mgmt (uEng 2) 0x12 false [] (up)) (fun t => decide ((t.unit (uEng 2)).cur = 2 ∧ (t.unit (uEng 2)).auto)) = true := by decide

theorem test_retireClear : nextIs (Sys2Proof.Machine.execRetireClear .mgmt (uEng 2) ({ up with retRec := [uEng 2] })) (fun t => decide (uEng 2 ∈ t.lvl.retClr ∧ t.retRec = [uEng 2])) = true := by decide

theorem test_heldInReset : nextIs (Sys2Proof.Machine.execFrameTick {} (halted 4)) (fun t => decide (t.time.frame = 1 ∧ { t with time := (halted 4).time } = halted 4)) = true := by decide

theorem test_apply : nextIs (Sys2Proof.Machine.execApply  (up)) (fun t => decide (t.sched.pendShares = some up.staged)) = true := by decide

theorem test_weight : nextIs (Sys2Proof.Machine.execWeightWrite .mgmt 0x10000 (up)) (fun t => decide (t.getF F.FRM_EVT_CFG_ERR = 1)) = true := by decide

theorem test_list : nextIs (Sys2Proof.Machine.execListCommit 15 1 false (up)) (fun t => decide ((t.getF F.GRP_LIST_CTL_COMMIT 15).testBit 0 ∧ (t.chan 120).next.isSome)) = true := by decide

theorem test_resets : nextIs (Sys2Proof.Machine.execControllerReset 0 (linked)) (fun t => decide (t.ctrl 0 = {})) = true := by decide

theorem test_resets_2 : nextIs (Sys2Proof.Machine.execLinkDown 0 (linked)) (fun t => decide ((t.port 0).up = false ∧ t.getF F.HIF_EVT_LINK_DOWN = 1)) = true := by decide

theorem test_links : nextIs (Sys2Proof.Machine.execLinkTrained 0 6 3 false (linked)) (fun t => decide ((t.port 0).flit ∧ (t.port 0).gen = min 6 (linked.getF F.HIF_CFG_MAX_GEN))) = true := by decide

theorem test_links_2 : nextIs (Sys2Proof.Machine.execLinkRetrain 0 4 2 false (linked)) (fun t => decide ((t.port 0).gen = 4 ∧ t.getF F.HIF_EVT_RETRAIN = 1)) = true := by decide

theorem test_doorbell : nextIs (Sys2Proof.Machine.execDoorbellWrite 0 1 false 15 (host)) (fun t => decide ((t.ctrl 0).sqs.get none 1 = some { size := 16, cq := 1, tail := 15 })) = true := by decide

theorem test_fetch : nextIs (Sys2Proof.Machine.execCommandFetch 0 0 ⟨0x06, 0, 0, 1, 0, 0, 0, 0, 0, [], 4096, 1⟩ (host)) (fun t => decide (t.hif.fsn = 2 ∧ t.hif.cmds.length = 1)) = true := by decide

theorem test_enable : nextIs (Sys2Proof.Machine.execControllerEnable 0 2 4096 ({ linked with lvl := { core := true, level := 1 } })) (fun t => decide ((t.ctrl 0).en ∧ (t.ctrl 0).sqs.get none 0 = some { size := 2, cq := 0 })) = true := by decide

theorem test_shutdown : nextIs (Sys2Proof.Machine.execControllerShutdown 0 (host)) (fun t => decide ((t.ctrl 0).shst = 2 ∧ t.jnl.clean)) = true := by decide

theorem test_transferFails : nextIs (Sys2Proof.Machine.execHostTransferFailure 1 (one host (moving .reading))) (fun t => decide ((t.cmd 1).isNone ∧ (t.outbox.head?.map fun o => match o with | .cqe 0 1 _ 0 st _ _ _ _ _ => decide (st = stTransferError) | _ => false) = some true ∧ t.flt.queue.map (fun e => (e.code, e.fsn)) = [(0x0102, 1)])) = true := by decide

theorem test_bar0 : nextIs (Sys2Proof.Machine.execLoReadLatch .mgmt 0x20008 (some (0, 8)) (longUp)) (fun t => decide (t.outbox = [.reg 65536 0x20008 (2 ^ 33 + 5)] ∧ (t.ctrl 0).vwHi = 2)) = true := by decide

theorem test_createCq : nextIs (Sys2Proof.Machine.execCreateIoCq 1 (one hostNs (adm 0x05 (65536 * 15 + 2) 3))) (fun t => decide (t.outbox.head? = some (.cqe 0 0 (State.cqOf (one hostNs (adm 0x05 (65536 * 15 + 2) 3)) 0 0) 0 (stOk) (dnrOf (stOk)) (crdOf (stOk)) (0) 0 ([])) ∧ (t.cmd 1).isNone ∧ (t.ctrl 0).cqs.get none 2 = some { size := 16 })) = true := by decide

theorem test_createSq : nextIs (Sys2Proof.Machine.execCreateIoSq 1 (one hostNs (adm 0x01 (65536 * 15 + 2) (65536 + 1)))) (fun t => decide (t.outbox.head? = some (.cqe 0 0 (State.cqOf (one hostNs (adm 0x01 (65536 * 15 + 2) (65536 + 1))) 0 0) 0 (stOk) (dnrOf (stOk)) (crdOf (stOk)) (0) 0 ([])) ∧ (t.cmd 1).isNone ∧ (t.ctrl 0).sqs.get none 2 = some { size := 16, cq := 1 })) = true := by decide

theorem test_deleteCqUsed : nextIs (Sys2Proof.Machine.execDeleteIoCq 1 (one hostNs (adm 0x04 1 0))) (fun t => decide (t.outbox.head? = some (.cqe 0 0 (State.cqOf (one hostNs (adm 0x04 1 0)) 0 0) 0 (stQueueDeletion) (dnrOf (stQueueDeletion)) (crdOf (stQueueDeletion)) (0) 0 ([])) ∧ (t.cmd 1).isNone)) = true := by decide

theorem test_deleteSq : nextIs (Sys2Proof.Machine.execDeleteIoSq 1 (one hostNs (adm 0x00 1 0))) (fun t => decide (t.outbox.head? = some (.cqe 0 0 (State.cqOf (one hostNs (adm 0x00 1 0)) 0 0) 0 (stOk) (dnrOf (stOk)) (crdOf (stOk)) (0) 0 ([])) ∧ (t.cmd 1).isNone ∧ (t.ctrl 0).sqs.get none 1 = none)) = true := by decide

theorem test_setBad : nextIs (Sys2Proof.Machine.execSetFeatures 1 (one hostNs (adm 0x09 0x13 0))) (fun t => decide (t.outbox.head? = some (.cqe 0 0 (State.cqOf (one hostNs (adm 0x09 0x13 0)) 0 0) 0 (stInvalidField) (dnrOf (stInvalidField)) (crdOf (stInvalidField)) (0) 0 ([])) ∧ (t.cmd 1).isNone)) = true := by decide

theorem test_getFeature : nextIs (Sys2Proof.Machine.execGetFeatures 1 (one hostNs (adm 0x0A 0x02 0))) (fun t => decide (t.outbox.head? = some (.cqe 0 0 (State.cqOf (one hostNs (adm 0x0A 0x02 0)) 0 0) 0 (stOk) (dnrOf (stOk)) (crdOf (stOk)) (State.featNow (one hostNs (adm 0x0A 0x02 0)) (adm 0x0A 0x02 0)) 0 (State.featData (one hostNs (adm 0x0A 0x02 0)) (adm 0x0A 0x02 0) (State.feat (one hostNs (adm 0x0A 0x02 0)) (featFn 2 0) (Cmd.featKey (adm 0x0A 0x02 0))))) ∧ (t.cmd 1).isNone)) = true := by decide

theorem test_aer : nextIs (Sys2Proof.Machine.execAsynchronousEventRequest 1 (one hostNs (adm 0x0C 0 0))) (fun t => decide ((t.ctrl 0).aers = [1] ∧ (t.cmd 1).isSome ∧ t.outbox = [])) = true := by decide

theorem test_abortNone : nextIs (Sys2Proof.Machine.execAbort 1 (one hostNs (adm 0x08 65537 0))) (fun t => decide (t.outbox.head? = some (.cqe 0 0 (State.cqOf (one hostNs (adm 0x08 65537 0)) 0 0) 0 (stOk) (dnrOf (stOk)) (crdOf (stOk)) (1) 0 ([])) ∧ (t.cmd 1).isNone)) = true := by decide

theorem test_selfTestStop : nextIs (Sys2Proof.Machine.execDeviceSelfTest 1 (one { hostNs with hif := { hostNs.hif with dst := 2 } } (adm 0x14 15 0))) (fun t => decide (t.outbox.head? = some (.cqe 0 0 (State.cqOf (one { hostNs with hif := { hostNs.hif with dst := 2 } } (adm 0x14 15 0)) 0 0) 0 (stOk) (dnrOf (stOk)) (crdOf (stOk)) (0) 0 ([])) ∧ (t.cmd 1).isNone ∧ t.hif.dst = 0)) = true := by decide

theorem test_directiveSend : nextIs (Sys2Proof.Machine.execDirectiveSend 1 (one hostNs (adm 0x19 0 1))) (fun t => decide (t.outbox.head? = some (.cqe 0 0 (State.cqOf (one hostNs (adm 0x19 0 1)) 0 0) 0 (stOk) (dnrOf (stOk)) (crdOf (stOk)) (0) 0 ([])) ∧ (t.cmd 1).isNone)) = true := by decide

theorem test_virt : nextIs (Sys2Proof.Machine.execVirtualizationManagement 1 (one flexed (adm 0x1C (65536 * 2 + 9) 0))) (fun t => decide (t.outbox.head? = some (.cqe 0 0 (State.cqOf (one flexed (adm 0x1C (65536 * 2 + 9) 0)) 0 0) 0 (stOk) (dnrOf (stOk)) (crdOf (stOk)) (0) 0 ([])) ∧ (t.cmd 1).isNone ∧ t.hif.online.get false 2)) = true := by decide

theorem test_logPage : nextIs (Sys2Proof.Machine.execGetLogPage 1 (one hostNs ({ adm 0x02 (65536 * 3 + 4) 0 with sqe := { opc := 2, cdw10 := 65536 * 3 + 4, sgl := 16 } }))) (fun t => decide (t.outbox.head? = some (.cqe 0 0 (State.cqOf (one hostNs ({ adm 0x02 (65536 * 3 + 4) 0 with sqe := { opc := 2, cdw10 := 65536 * 3 + 4, sgl := 16 } })) 0 0) 0 (stOk) (dnrOf (stOk)) (crdOf (stOk)) (0) 0 (((State.logPage (one hostNs ({ adm 0x02 (65536 * 3 + 4) 0 with sqe := { opc := 2, cdw10 := 65536 * 3 + 4, sgl := 16 } })) ({ adm 0x02 (65536 * 3 + 4) 0 with sqe := { opc := 2, cdw10 := 65536 * 3 + 4, sgl := 16 } }) 4).drop 0).take 16)) ∧ (t.cmd 1).isNone ∧ (t.ctrl 0).changedNs = [])) = true := by decide

theorem test_nsCreate : nextIs (Sys2Proof.Machine.execNamespaceManagement 1 (one (shaped hostNs) (createCmd))) (fun t => decide (t.outbox.head? = some (.cqe 0 0 (State.cqOf (one (shaped hostNs) (createCmd)) 0 0) 0 (stOk) (dnrOf (stOk)) (crdOf (stOk)) (2) 0 ([])) ∧ (t.cmd 1).isNone ∧ (t.ns 2).map (·.nsze) = some 4096 ∧ t.ns 1 = some ns1)) = true := by decide

theorem test_attach : nextIs (Sys2Proof.Machine.execNamespaceAttachment 1 (one hostNs ({ adm 0x15 0 0 with sqe := { opc := 0x15, nsid := 1, data := [2, 0, 1, 0, 2, 0] } }))) (fun t => decide ((t.cmd 1).isNone ∧ t.ns 1 = some { ns1 with attach := [0, 1, 2] })) = true := by decide

theorem test_format : nextIs (Sys2Proof.Machine.execFormatNvm 1 (one (shaped hostNs) ({ adm 0x80 0 0 with sqe := { opc := 0x80, nsid := 1, cdw10 := 0 } }))) (fun t => decide (t.locks.any (fun l => l.fsn == 1 && l.ns == 1 && l.excl && l.lo == 0))) = true := by decide

theorem test_crypto : nextIs (Sys2Proof.Machine.execSanitizeCryptoErase 1 (one (shaped hostNs) ({ adm 0x84 4 0 with sqe := { opc := 0x84, nsid := 1, cdw10 := 4 } }))) (fun t => decide (t.locks.any (fun l => l.fsn == 1 && l.ns == 1 && l.excl && l.lo == 0))) = true := by decide

theorem test_block : nextIs (Sys2Proof.Machine.execSanitizeBlockErase 1 (one (shaped hostNs) ({ adm 0x84 2 0 with sqe := { opc := 0x84, nsid := 1, cdw10 := 2 } }))) (fun t => decide (t.locks.any (fun l => l.fsn == 1 && l.ns == 1 && l.excl && l.lo == 0))) = true := by decide

theorem test_read : nextIs (Sys2Proof.Machine.execRead 1 [] [] (one keyed (io 0x02 0 0 .fetched))) (fun t => decide (t.locks = [{ Cmd.ownLock (io 0x02 0 0 .fetched) false with held := true }] ∧ (t.cmd 1).map (·.ph) = some .reading)) = true := by decide

theorem test_compare : nextIs (Sys2Proof.Machine.execCompare 1 [] [] (one keyed (io 0x05 0 0 .fetched))) (fun t => decide (t.locks = [{ Cmd.ownLock (io 0x05 0 0 .fetched) false with held := true }] ∧ (t.cmd 1).map (·.ph) = some .reading)) = true := by decide

theorem test_verify : nextIs (Sys2Proof.Machine.execVerify 1 [] [] (one keyed (io 0x0C 0 0 .fetched))) (fun t => decide (t.locks = [{ Cmd.ownLock (io 0x0C 0 0 .fetched) false with held := true }] ∧ (t.cmd 1).map (·.ph) = some .reading)) = true := by decide

theorem test_writeZoned : nextIs (Sys2Proof.Machine.execWrite 1 (one (zoned {}) (io 0x01 0 0 .fetched))) (fun t => decide ((t.cmd 1).map (·.ph) = some .admitWait ∧ t.locks = [])) = true := by decide

theorem test_append : nextIs (Sys2Proof.Machine.execZoneAppend 1 (one (zoned {}) (io 0x7D 0 0 .fetched))) (fun t => decide ((t.cmd 1).map (·.ph) = some .admitWait)) = true := by decide

theorem test_writeZeroes : nextIs (Sys2Proof.Machine.execWriteZeroes 1 (one keyed (io 0x08 16 15 .fetched))) (fun t => decide (t.outbox.head? = some (.cqe 0 1 (State.cqOf (one keyed (io 0x08 16 15 .fetched)) 0 1) 0 (stOk) (dnrOf (stOk)) (crdOf (stOk)) (0) 0 ([])) ∧ (t.cmd 1).isNone ∧ t.coarse 1 = .zero ∧ t.lnd.wsn = 2)) = true := by decide

theorem test_deallocate : nextIs (Sys2Proof.Machine.execDatasetManagement 1 (one keyed ({ io 0x09 0 0 .fetched with sqe := { opc := 9, nsid := 1, cdw11 := 4, data := dsmData } }))) (fun t => decide (t.outbox.head? = some (.cqe 0 1 (State.cqOf (one keyed ({ io 0x09 0 0 .fetched with sqe := { opc := 9, nsid := 1, cdw11 := 4, data := dsmData } })) 0 1) 0 (stOk) (dnrOf (stOk)) (crdOf (stOk)) (0) 0 ([])) ∧ (t.cmd 1).isNone ∧ t.coarse 1 = .unmapped)) = true := by decide

theorem test_copy : nextIs (Sys2Proof.Machine.execCopy 1 [] [] (one keyed ({ io 0x19 0 0 .fetched with sqe := { opc := 0x19, nsid := 1, cdw10 := 0, data := copyData } }))) (fun t => decide ((t.cmd 1).map (·.ph) = some .admitWait ∧ t.locks = [⟨1, 1, 0, 15, true, true⟩, ⟨1, 1, 32, 47, false, true⟩])) = true := by decide

theorem test_flush : nextIs (Sys2Proof.Machine.execFlush 1 (one absent (io 0x00 0 0 .fetched))) (fun t => decide (t.outbox.head? = some (.cqe 0 1 (State.cqOf (one absent (io 0x00 0 0 .fetched)) 0 1) 0 (stOk) (dnrOf (stOk)) (crdOf (stOk)) (0) 0 ([])) ∧ (t.cmd 1).isNone)) = true := by decide

theorem test_zoneClose : nextIs (Sys2Proof.Machine.execZoneClose 1 (one (zoned { st := .impOpen, wp := 5 }) ({ io 0x79 0 0 .fetched with sqe := { opc := 0x79, nsid := 1, cdw13 := 1 } }))) (fun t => decide ((t.zone 1 0).st = .closed ∧ (t.zone 1 0).wp = 5)) = true := by decide

theorem test_zoneFinish : nextIs (Sys2Proof.Machine.execZoneFinish 1 (one (zoned { st := .empty, wp := 0 }) ({ io 0x79 0 0 .fetched with sqe := { opc := 0x79, nsid := 1, cdw13 := 2 } }))) (fun t => decide ((t.zone 1 0).st = .full)) = true := by decide

theorem test_zoneOpen : nextIs (Sys2Proof.Machine.execZoneOpen 1 (one (zoned { st := .closed, wp := 5 }) ({ io 0x79 0 0 .fetched with sqe := { opc := 0x79, nsid := 1, cdw13 := 3 } }))) (fun t => decide ((t.zone 1 0).st = .expOpen)) = true := by decide

theorem test_zoneOffline : nextIs (Sys2Proof.Machine.execZoneOffline 1 (one (zoned { st := .full, wp := 5 }) ({ io 0x79 0 0 .fetched with sqe := { opc := 0x79, nsid := 1, cdw13 := 5 } }))) (fun t => decide (t.outbox.head? = some (.cqe 0 1 (State.cqOf (one (zoned { st := .full, wp := 5 }) ({ io 0x79 0 0 .fetched with sqe := { opc := 0x79, nsid := 1, cdw13 := 5 } })) 0 1) 0 (stZoneTransition) (dnrOf (stZoneTransition)) (crdOf (stZoneTransition)) (0) 0 ([])) ∧ (t.cmd 1).isNone)) = true := by decide

theorem test_zoneReport : nextIs (Sys2Proof.Machine.execZoneManagementReceive 1 (one (zoned {}) (io 0x7A 0 15 .fetched))) (fun t => decide ((t.outbox.head?.map fun o => match o with | .cqe _ _ _ _ st _ _ _ _ d => decide (st = 0 ∧ d.take 8 = leBytes 8 3) | _ => false) = some true)) = true := by decide

theorem test_lockGrant : nextIs (Sys2Proof.Machine.execRangeLockGrant 1 (waiting)) (fun t => decide ((t.cmd 1).map (·.ph) = some .admitWait ∧ t.locks.map (·.held) = [true])) = true := by decide

theorem test_admit : nextIs (Sys2Proof.Machine.execLandingAdmit 1 none none (admits)) (fun t => decide ((t.cmd 1).map (·.ph) = some .landing ∧ (t.ns 1).map (·.resv) = some 1 ∧ (t.cmd 1).map (·.left) = some 1)) = true := by decide

theorem test_commit : nextIs (Sys2Proof.Machine.execLandingCommit 1 (one keyed (arrived 15))) (fun t => decide (t.outbox.head? = some (.cqe 0 1 (State.cqOf (one keyed (arrived 15)) 0 1) 0 (stOk) (dnrOf (stOk)) (crdOf (stOk)) (0) 0 ([])) ∧ (t.cmd 1).isNone ∧ t.lnd.wsn = 2 ∧ t.coarse 0 = .landing 2 0)) = true := by decide

theorem test_groupCloses : nextIs (Sys2Proof.Machine.execJournalGroupClose 4 (closing (0))) (fun t => decide (t.jnl.groups = [] ∧ t.jnl.ring = 3)) = true := by decide

theorem test_hold : nextIs (Sys2Proof.Machine.execUnitHoldGrant 1 (holding)) (fun t => decide (t.map.holds = [(1, [7], true)])) = true := by decide

theorem test_zoneRoReset : nextIs (Sys2Proof.Machine.execZoneReset 1 (one zonedRo ({ io 0x79 0 0 .fetched with sqe := { opc := 0x79, nsid := 1, cdw13 := 4 } }))) (fun t => decide (t.outbox.head? = some (.cqe 0 1 (State.cqOf (one zonedRo ({ io 0x79 0 0 .fetched with sqe := { opc := 0x79, nsid := 1, cdw13 := 4 } })) 0 1) 0 (stWriteProtected) (dnrOf (stWriteProtected)) (crdOf (stWriteProtected)) (0) 0 ([])) ∧ (t.cmd 1).isNone)) = true := by decide

theorem test_listRead : nextIs (Sys2Proof.Machine.execListRead 127 0 (listed (ent 0x01))) (fun t => decide ((t.lun 127 15).run.length = 1 ∧ (t.lun 127 15).stream = none)) = true := by decide

theorem test_streamOpen : nextIs (Sys2Proof.Machine.execStreamOpen 127 0 (listed (ent 0x02))) (fun t => decide ((t.lun 127 15).stream = some (5, 1))) = true := by decide

theorem test_streamExt : nextIs (Sys2Proof.Machine.execStreamExt 127 0 (listed (ent 0x03))) (fun t => decide ((t.lun 127 15).stream = some (5, 1) ∧ (t.lun 127 15).run.length = 1)) = true := by decide

theorem test_streamClose : nextIs (Sys2Proof.Machine.execStreamClose 127 0 (listed (ent 0x04))) (fun t => decide ((t.lun 127 15).stream = none)) = true := by decide

theorem test_progSlc : nextIs (Sys2Proof.Machine.execProgSlc 127 0 (listed (ent 0x10))) (fun t => decide ((t.lun 127 15).run.length = 1)) = true := by decide

theorem test_progQlc : nextIs (Sys2Proof.Machine.execProgQlc 127 0 (listed (ent 0x11))) (fun t => decide ((t.lun 127 15).run.length = 1)) = true := by decide

theorem test_eraseSlc : nextIs (Sys2Proof.Machine.execEraseSlc 127 0 (listed (ent 0x20))) (fun t => decide ((t.chunk (pageChunk 127 15 5)).intent)) = true := by decide

theorem test_eraseQlc : nextIs (Sys2Proof.Machine.execEraseQlc 127 0 (listed (ent 0x21))) (fun t => decide ((t.chunk (pageChunk 127 15 5)).intent)) = true := by decide

theorem test_getFeat : nextIs (Sys2Proof.Machine.execGetFeat 127 0 (listed (ent 0x40))) (fun t => decide ((t.lun 127 15).run.length = 1)) = true := by decide

theorem test_setFeat : nextIs (Sys2Proof.Machine.execSetFeat 127 0 (listed (ent 0x41))) (fun t => decide ((t.lun 127 15).run.length = 1)) = true := by decide

theorem test_streams : nextIs (Sys2Proof.Machine.execEndEntry 127 (listed (ent 0))) (fun t => decide ((t.chan 127).list = [])) = true := by decide

theorem test_entryEnd : nextIs (Sys2Proof.Machine.execEntryCompletion 127 3 false 0 (running 0x21 1)) (fun t => decide ((t.lun 127 15).run = [] ∧ t.sched = (running 0x21 1).sched ∧ (t.chunk (pageChunk 127 15 5)).qe = 1)) = true := by decide

theorem test_parity : nextIs (Sys2Proof.Machine.execCaParityError 127 0 (tried 2)) (fun t => decide ((t.chan 127).caTries = 3)) = true := by decide

theorem test_suspend : nextIs (Sys2Proof.Machine.execProgramSuspend 127 15 false (suspendable 2)) (fun t => decide ((t.lun 127 15).run.map (·.susp) = [1])) = true := by decide

theorem test_suspendEnds : nextIs (Sys2Proof.Machine.execSuspendResume 127 15 (resumable)) (fun t => decide ((t.lun 127 15).run.map (·.since) = [none])) = true := by decide

theorem test_calibrate : nextIs (Sys2Proof.Machine.execRecalibration 127 0 true false (calib none)) (fun t => decide ((t.chan 127).cal = some 0 ∧ (t.chan 127).due = none)) = true := by decide

theorem test_decode : nextIs (Sys2Proof.Machine.execCodewordDecode 127 15 0 0 0 0 16383 none 0 0 (up)) (fun t => decide (t.getF F.GRP_LDPC_EVT_FAIL 15 = 1 ∧ t.getF F.GRP_LDPC_CNT0_FAIL_CNT 15 = 1)) = true := by decide

theorem test_slcLine : nextIs (Sys2Proof.Machine.execSlcLineClose 3 0 0 (slcLine)) (fun t => decide (t.med.slcLines = [])) = true := by decide

theorem test_relocate : nextIs (Sys2Proof.Machine.execChunkRelocation 127 15 2 0 false (chunks { used := true, st := 2 })) (fun t => decide ((t.chunk (chunkKey 127 15 0)).used ∧ (t.chunk (chunkKey 127 15 2)).used = false)) = true := by decide

theorem test_relocate_2 : nextIs (Sys2Proof.Machine.execRefresh 127 15 2 0 (chunks { used := true, queued := true })) (fun t => decide ((t.chunk (chunkKey 127 15 0)).used ∧ (t.chunk (chunkKey 127 15 2)).queued = false)) = true := by decide

theorem test_wear : nextIs (Sys2Proof.Machine.execWearLevelCheck 3 (worn)) (fun t => decide (3 * 2 ^ 20 ∈ t.med.offer)) = true := by decide

theorem test_entryLoads_2 : nextIs (Sys2Proof.Machine.execOperationTimeout 127 3 (running 0x21 1)) (fun t => decide (t = running 0x21 1)) = true := by decide

theorem test_readOnly : nextIs (Sys2Proof.Machine.execReadOnlyTransition 3 (shrunk 16)) (fun t => decide (t.lvl.rdonly = false ∧ t.lvl.roPend.testBit 3 ∧ t.readOnlyNow.lvl.rdonly ∧ t.readOnlyNow.hif.smart.testBit 3)) = true := by decide

theorem test_demote : nextIs (Sys2Proof.Machine.execFineDemotion 0 (demotable 1)) (fun t => decide (t.map.coarse = (demotable 1).map.coarse ∧ t.map.fine = (demotable 1).map.fine ∧ t.jnl.nextId = 2 ∧ t.jnl.groups.map (fun g => (g.kind, g.src, g.id)) = [(3, 7, 1)])) = true := by decide

theorem test_fold : nextIs (Sys2Proof.Machine.execFold 3 (folding)) (fun t => decide (t.med.staged = [] ∧ t.med.slcUnits.get 0 3 = 1 ∧ t.jnl.groups.map (·.kind) = [2])) = true := by decide

theorem test_victim : nextIs (Sys2Proof.Machine.execGcVictimSelection 3 none (gcState false)) (fun t => decide (t.med.segs.get none (3 * 2 ^ 20) = some { gcSeg false with isOpen := false, dead := true } ∧ t.med.offer = [])) = true := by decide

theorem test_victimErase : nextIs (Sys2Proof.Machine.execVictimErase (3 * 2 ^ 20) (gcState true)) (fun t => decide (t.med.segs.get none (3 * 2 ^ 20) = none)) = true := by decide

theorem test_gcKeys : nextIs (Sys2Proof.Machine.execGcCopy 5 none none [] (gcUnit)) (fun t => decide (t.jnl.groups.map (fun g => (g.kind, g.src, g.moves.length)) = [(1, 3 * 2 ^ 20, 16)])) = true := by decide

theorem test_pageFlush : nextIs (Sys2Proof.Machine.execJournalPageFlush  (ringed 1024)) (fun t => decide (t.jnl.ring = 0 ∧ t.jnl.pages = [0])) = true := by decide

theorem test_rebuild : nextIs (Sys2Proof.Machine.execRebuildByScan 3 0 (up)) (fun t => decide (t.map.rebuild ∧ t.getF F.FRM_MAP_EVT_REBUILD = 1)) = true := by decide

theorem test_pageRebuild : nextIs (Sys2Proof.Machine.execMapPageRebuild 0 (badPage)) (fun t => decide (t.coarse 7 = .zero ∧ t.map.bad.get false 0 = false)) = true := by decide

theorem test_run_add : nextIs (Sys2Proof.Machine.execAdd 0x2F (at0 0x2F 0x00611001 { vw := ⟨[(1, 0xFFFFFFFFFFFFFFFF#64), (2, 2)]⟩ })) (fun t => decide ((t.eng 0x2F).w 3 = 1 ∧ (t.eng 0x2F).vpc = 4 ∧ (t.eng 0x2F).cyc = 1)) = true := by decide

theorem test_run_sub : nextIs (Sys2Proof.Machine.execSub 0x2F (at0 0x2F 0x00611002 { vw := ⟨[(1, 1), (2, 2)]⟩ })) (fun t => decide ((t.eng 0x2F).w 3 = 0xFFFFFFFFFFFFFFFF#64 ∧ (t.eng 0x2F).vpc = 4 ∧ (t.eng 0x2F).cyc = 1)) = true := by decide

theorem test_run_and : nextIs (Sys2Proof.Machine.execAnd 0x2F (at0 0x2F 0x00611003 { vw := ⟨[(1, 6), (2, 3)]⟩ })) (fun t => decide ((t.eng 0x2F).w 3 = 2 ∧ (t.eng 0x2F).vpc = 4 ∧ (t.eng 0x2F).cyc = 1)) = true := by decide

theorem test_run_or : nextIs (Sys2Proof.Machine.execOr 0x2F (at0 0x2F 0x00611004 { vw := ⟨[(1, 6), (2, 3)]⟩ })) (fun t => decide ((t.eng 0x2F).w 3 = 7 ∧ (t.eng 0x2F).vpc = 4 ∧ (t.eng 0x2F).cyc = 1)) = true := by decide

theorem test_run_xor : nextIs (Sys2Proof.Machine.execXor 0x2F (at0 0x2F 0x00611005 { vw := ⟨[(1, 6), (2, 3)]⟩ })) (fun t => decide ((t.eng 0x2F).w 3 = 5 ∧ (t.eng 0x2F).vpc = 4 ∧ (t.eng 0x2F).cyc = 1)) = true := by decide

theorem test_run_andn : nextIs (Sys2Proof.Machine.execAndn 0x2F (at0 0x2F 0x00611006 { vw := ⟨[(1, 6), (2, 3)]⟩ })) (fun t => decide ((t.eng 0x2F).w 3 = 4 ∧ (t.eng 0x2F).vpc = 4 ∧ (t.eng 0x2F).cyc = 1)) = true := by decide

theorem test_run_sll : nextIs (Sys2Proof.Machine.execSll 0x2F (at0 0x2F 0x00611008 { vw := ⟨[(1, 1), (2, 127)]⟩ })) (fun t => decide ((t.eng 0x2F).w 3 = 0x8000000000000000#64 ∧ (t.eng 0x2F).vpc = 4 ∧ (t.eng 0x2F).cyc = 1)) = true := by decide

theorem test_run_srl : nextIs (Sys2Proof.Machine.execSrl 0x2F (at0 0x2F 0x00611009 { vw := ⟨[(1, 0x8000000000000000#64), (2, 127)]⟩ })) (fun t => decide ((t.eng 0x2F).w 3 = 1 ∧ (t.eng 0x2F).vpc = 4 ∧ (t.eng 0x2F).cyc = 1)) = true := by decide

theorem test_run_sra : nextIs (Sys2Proof.Machine.execSra 0x2F (at0 0x2F 0x0061100A { vw := ⟨[(1, 0x8000000000000000#64), (2, 63)]⟩ })) (fun t => decide ((t.eng 0x2F).w 3 = 0xFFFFFFFFFFFFFFFF#64 ∧ (t.eng 0x2F).vpc = 4 ∧ (t.eng 0x2F).cyc = 1)) = true := by decide

theorem test_run_ror : nextIs (Sys2Proof.Machine.execRor 0x2F (at0 0x2F 0x0061100B { vw := ⟨[(1, 1), (2, 1)]⟩ })) (fun t => decide ((t.eng 0x2F).w 3 = 0x8000000000000000#64 ∧ (t.eng 0x2F).vpc = 4 ∧ (t.eng 0x2F).cyc = 1)) = true := by decide

theorem test_run_slt : nextIs (Sys2Proof.Machine.execSlt 0x2F (at0 0x2F 0x00611010 { vw := ⟨[(1, 0xFFFFFFFFFFFFFFFF#64)]⟩ })) (fun t => decide ((t.eng 0x2F).w 3 = 1 ∧ (t.eng 0x2F).vpc = 4 ∧ (t.eng 0x2F).cyc = 1)) = true := by decide

theorem test_run_sltu : nextIs (Sys2Proof.Machine.execSltu 0x2F (at0 0x2F 0x00611011 { vw := ⟨[(1, 0xFFFFFFFFFFFFFFFF#64), (2, 1)]⟩ })) (fun t => decide ((t.eng 0x2F).w 3 = 0 ∧ (t.eng 0x2F).vpc = 4 ∧ (t.eng 0x2F).cyc = 1)) = true := by decide

theorem test_run_min : nextIs (Sys2Proof.Machine.execMin 0x2F (at0 0x2F 0x00611012 { vw := ⟨[(1, 0xFFFFFFFFFFFFFFFF#64), (2, 1)]⟩ })) (fun t => decide ((t.eng 0x2F).w 3 = 0xFFFFFFFFFFFFFFFF#64 ∧ (t.eng 0x2F).vpc = 4 ∧ (t.eng 0x2F).cyc = 1)) = true := by decide

theorem test_run_max : nextIs (Sys2Proof.Machine.execMax 0x2F (at0 0x2F 0x00611013 { vw := ⟨[(1, 0xFFFFFFFFFFFFFFFF#64), (2, 1)]⟩ })) (fun t => decide ((t.eng 0x2F).w 3 = 1 ∧ (t.eng 0x2F).vpc = 4 ∧ (t.eng 0x2F).cyc = 1)) = true := by decide

theorem test_run_minu : nextIs (Sys2Proof.Machine.execMinu 0x2F (at0 0x2F 0x00611014 { vw := ⟨[(1, 0xFFFFFFFFFFFFFFFF#64), (2, 1)]⟩ })) (fun t => decide ((t.eng 0x2F).w 3 = 1 ∧ (t.eng 0x2F).vpc = 4 ∧ (t.eng 0x2F).cyc = 1)) = true := by decide

theorem test_run_maxu : nextIs (Sys2Proof.Machine.execMaxu 0x2F (at0 0x2F 0x00611015 { vw := ⟨[(1, 0xFFFFFFFFFFFFFFFF#64), (2, 1)]⟩ })) (fun t => decide ((t.eng 0x2F).w 3 = 0xFFFFFFFFFFFFFFFF#64 ∧ (t.eng 0x2F).vpc = 4 ∧ (t.eng 0x2F).cyc = 1)) = true := by decide

theorem test_run_addw : nextIs (Sys2Proof.Machine.execAddw 0x2F (at0 0x2F 0x00611018 { vw := ⟨[(1, 0x7FFFFFFF), (2, 1)]⟩ })) (fun t => decide ((t.eng 0x2F).w 3 = 0xFFFFFFFF80000000#64 ∧ (t.eng 0x2F).vpc = 4 ∧ (t.eng 0x2F).cyc = 1)) = true := by decide

theorem test_run_subw : nextIs (Sys2Proof.Machine.execSubw 0x2F (at0 0x2F 0x00611019 { vw := ⟨[(2, 1)]⟩ })) (fun t => decide ((t.eng 0x2F).w 3 = 0xFFFFFFFFFFFFFFFF#64 ∧ (t.eng 0x2F).vpc = 4 ∧ (t.eng 0x2F).cyc = 1)) = true := by decide

theorem test_run_mul : nextIs (Sys2Proof.Machine.execMul 0x2F (at0 0x2F 0x00611020 { vw := ⟨[(1, 0xFFFFFFFFFFFFFFFF#64), (2, 0xFFFFFFFFFFFFFFFF#64)]⟩ })) (fun t => decide ((t.eng 0x2F).w 3 = 1 ∧ (t.eng 0x2F).vpc = 4 ∧ (t.eng 0x2F).cyc = 3)) = true := by decide

theorem test_run_mulh : nextIs (Sys2Proof.Machine.execMulh 0x2F (at0 0x2F 0x00611021 { vw := ⟨[(1, 0xFFFFFFFFFFFFFFFF#64), (2, 0xFFFFFFFFFFFFFFFF#64)]⟩ })) (fun t => decide ((t.eng 0x2F).w 3 = 0 ∧ (t.eng 0x2F).vpc = 4 ∧ (t.eng 0x2F).cyc = 3)) = true := by decide

theorem test_run_mulhu : nextIs (Sys2Proof.Machine.execMulhu 0x2F (at0 0x2F 0x00611022 { vw := ⟨[(1, 0xFFFFFFFFFFFFFFFF#64), (2, 0xFFFFFFFFFFFFFFFF#64)]⟩ })) (fun t => decide ((t.eng 0x2F).w 3 = 0xFFFFFFFFFFFFFFFE#64 ∧ (t.eng 0x2F).vpc = 4 ∧ (t.eng 0x2F).cyc = 3)) = true := by decide

theorem test_run_div : nextIs (Sys2Proof.Machine.execDiv 0x2F (at0 0x2F 0x00611028 { vw := ⟨[(1, 0x8000000000000000#64), (2, 0xFFFFFFFFFFFFFFFF#64)]⟩ })) (fun t => decide ((t.eng 0x2F).w 3 = 0x8000000000000000#64 ∧ (t.eng 0x2F).vpc = 4 ∧ (t.eng 0x2F).cyc = 36)) = true := by decide

theorem test_run_divu : nextIs (Sys2Proof.Machine.execDivu 0x2F (at0 0x2F 0x00611029 { vw := ⟨[(1, 7)]⟩ })) (fun t => decide ((t.eng 0x2F).w 3 = 0xFFFFFFFFFFFFFFFF#64 ∧ (t.eng 0x2F).vpc = 4 ∧ (t.eng 0x2F).cyc = 36)) = true := by decide

theorem test_run_rem : nextIs (Sys2Proof.Machine.execRem 0x2F (at0 0x2F 0x0061102A { vw := ⟨[(1, 0x8000000000000000#64), (2, 0xFFFFFFFFFFFFFFFF#64)]⟩ })) (fun t => decide ((t.eng 0x2F).w 3 = 0 ∧ (t.eng 0x2F).vpc = 4 ∧ (t.eng 0x2F).cyc = 36)) = true := by decide

theorem test_run_remu : nextIs (Sys2Proof.Machine.execRemu 0x2F (at0 0x2F 0x0061102B { vw := ⟨[(1, 7)]⟩ })) (fun t => decide ((t.eng 0x2F).w 3 = 7 ∧ (t.eng 0x2F).vpc = 4 ∧ (t.eng 0x2F).cyc = 36)) = true := by decide

theorem test_run_clz : nextIs (Sys2Proof.Machine.execClz 0x2F (at0 0x2F 0x00610030 { vw := ⟨[(1, 1)]⟩ })) (fun t => decide ((t.eng 0x2F).w 3 = 63 ∧ (t.eng 0x2F).vpc = 4 ∧ (t.eng 0x2F).cyc = 1)) = true := by decide

theorem test_run_ctz : nextIs (Sys2Proof.Machine.execCtz 0x2F (at0 0x2F 0x00610031 { vw := ⟨[(1, 0x8000000000000000#64)]⟩ })) (fun t => decide ((t.eng 0x2F).w 3 = 63 ∧ (t.eng 0x2F).vpc = 4 ∧ (t.eng 0x2F).cyc = 1)) = true := by decide

theorem test_run_popc : nextIs (Sys2Proof.Machine.execPopc 0x2F (at0 0x2F 0x00610032 { vw := ⟨[(1, 0xFFFFFFFFFFFFFFFF#64)]⟩ })) (fun t => decide ((t.eng 0x2F).w 3 = 64 ∧ (t.eng 0x2F).vpc = 4 ∧ (t.eng 0x2F).cyc = 1)) = true := by decide

theorem test_run_bswap : nextIs (Sys2Proof.Machine.execBswap 0x2F (at0 0x2F 0x00610033 { vw := ⟨[(1, 1)]⟩ })) (fun t => decide ((t.eng 0x2F).w 3 = 0x0100000000000000#64 ∧ (t.eng 0x2F).vpc = 4 ∧ (t.eng 0x2F).cyc = 1)) = true := by decide

theorem test_run_crc32c : nextIs (Sys2Proof.Machine.execCrc32c 0x2F (at0 0x2F 0x00611038 { vw := ⟨[(1, 0xFFFFFFFF)]⟩ })) (fun t => decide ((t.eng 0x2F).w 3 = BitVec.ofNat 64 ((zeros 8).foldl crcByte 0xFFFFFFFF) ∧ (t.eng 0x2F).vpc = 4 ∧ (t.eng 0x2F).cyc = 2)) = true := by decide

theorem test_run_addi : nextIs (Sys2Proof.Machine.execAddi 0x2F (at0 0x2F 0x0861FFFF { vw := ⟨[]⟩ })) (fun t => decide ((t.eng 0x2F).w 3 = 0xFFFFFFFFFFFFFFFF#64 ∧ (t.eng 0x2F).vpc = 4 ∧ (t.eng 0x2F).cyc = 1)) = true := by decide

theorem test_run_andi : nextIs (Sys2Proof.Machine.execAndi 0x2F (at0 0x2F 0x0C61FFFF { vw := ⟨[(1, 0xFFFFFFFFFFFFFFFF#64)]⟩ })) (fun t => decide ((t.eng 0x2F).w 3 = 0xFFFF ∧ (t.eng 0x2F).vpc = 4 ∧ (t.eng 0x2F).cyc = 1)) = true := by decide

theorem test_run_ori : nextIs (Sys2Proof.Machine.execOri 0x2F (at0 0x2F 0x1061FFFF { vw := ⟨[]⟩ })) (fun t => decide ((t.eng 0x2F).w 3 = 0xFFFF ∧ (t.eng 0x2F).vpc = 4 ∧ (t.eng 0x2F).cyc = 1)) = true := by decide

theorem test_run_xori : nextIs (Sys2Proof.Machine.execXori 0x2F (at0 0x2F 0x1461FFFF { vw := ⟨[(1, 0xFFFF)]⟩ })) (fun t => decide ((t.eng 0x2F).w 3 = 0 ∧ (t.eng 0x2F).vpc = 4 ∧ (t.eng 0x2F).cyc = 1)) = true := by decide

theorem test_run_slti : nextIs (Sys2Proof.Machine.execSlti 0x2F (at0 0x2F 0x1861FFFF { vw := ⟨[]⟩ })) (fun t => decide ((t.eng 0x2F).w 3 = 0 ∧ (t.eng 0x2F).vpc = 4 ∧ (t.eng 0x2F).cyc = 1)) = true := by decide

theorem test_run_sltiu : nextIs (Sys2Proof.Machine.execSltiu 0x2F (at0 0x2F 0x1C61FFFF { vw := ⟨[]⟩ })) (fun t => decide ((t.eng 0x2F).w 3 = 1 ∧ (t.eng 0x2F).vpc = 4 ∧ (t.eng 0x2F).cyc = 1)) = true := by decide

theorem test_run_shi : nextIs (Sys2Proof.Machine.execShi 0x2F (at0 0x2F 0x20610085 { vw := ⟨[(1, 0x8000000000000000#64)]⟩ })) (fun t => decide ((t.eng 0x2F).w 3 = 0xFC00000000000000#64 ∧ (t.eng 0x2F).vpc = 4 ∧ (t.eng 0x2F).cyc = 1)) = true := by decide

theorem test_run_lui : nextIs (Sys2Proof.Machine.execLui 0x2F (at0 0x2F 0x24608000 { vw := ⟨[]⟩ })) (fun t => decide ((t.eng 0x2F).w 3 = 0xFFFFFFFF80000000#64 ∧ (t.eng 0x2F).vpc = 4 ∧ (t.eng 0x2F).cyc = 1)) = true := by decide

theorem test_run_shlori : nextIs (Sys2Proof.Machine.execShlori 0x2F (at0 0x2F 0x2861FFFF { vw := ⟨[(1, 1)]⟩ })) (fun t => decide ((t.eng 0x2F).w 3 = 0x1FFFF ∧ (t.eng 0x2F).vpc = 4 ∧ (t.eng 0x2F).cyc = 1)) = true := by decide

theorem test_run_beq : nextIs (Sys2Proof.Machine.execBeq 0x2F (at0 0x2F 0x8022FFFE { vw := ⟨[(1, 1), (2, 1)]⟩, vpc := 0 })) (fun t => decide ((t.eng 0x2F).vpc = 0xFFFFFFFFFFFFFFF8 ∧ (t.eng 0x2F).cyc = 2)) = true := by decide

theorem test_run_bne : nextIs (Sys2Proof.Machine.execBne 0x2F (at0 0x2F 0x8422FFFE { vw := ⟨[(1, 1), (2, 1)]⟩ })) (fun t => decide ((t.eng 0x2F).vpc = 4 ∧ (t.eng 0x2F).cyc = 1)) = true := by decide

theorem test_run_blt : nextIs (Sys2Proof.Machine.execBlt 0x2F (at0 0x2F 0x8822FFFE { vw := ⟨[(1, 0xFFFFFFFFFFFFFFFF#64), (2, 1)]⟩ })) (fun t => decide ((t.eng 0x2F).vpc = 0xFFFFFFFFFFFFFFF8)) = true := by decide

theorem test_run_bge : nextIs (Sys2Proof.Machine.execBge 0x2F (at0 0x2F 0x8C22FFFE { vw := ⟨[(1, 0xFFFFFFFFFFFFFFFF#64), (2, 1)]⟩ })) (fun t => decide ((t.eng 0x2F).vpc = 4)) = true := by decide

theorem test_run_bltu : nextIs (Sys2Proof.Machine.execBltu 0x2F (at0 0x2F 0x9022FFFE { vw := ⟨[(1, 0xFFFFFFFFFFFFFFFF#64), (2, 1)]⟩ })) (fun t => decide ((t.eng 0x2F).vpc = 4)) = true := by decide

theorem test_run_bgeu : nextIs (Sys2Proof.Machine.execBgeu 0x2F (at0 0x2F 0x9422FFFE { vw := ⟨[(1, 0xFFFFFFFFFFFFFFFF#64), (2, 1)]⟩ })) (fun t => decide ((t.eng 0x2F).vpc = 0xFFFFFFFFFFFFFFF8)) = true := by decide

theorem test_run_j : nextIs (Sys2Proof.Machine.execJ 0x2F (at0 0x2F 0xA3FFFFFF { vw := ⟨[(1, 1)]⟩ })) (fun t => decide ((t.eng 0x2F).vpc = 0xFFFFFFFFFFFFFFFC)) = true := by decide

theorem test_run_jal : nextIs (Sys2Proof.Machine.execJal 0x2F (at0 0x2F 0xA4000002 { vw := ⟨[(1, 1)]⟩ })) (fun t => decide ((t.eng 0x2F).vpc = 8 ∧ (t.eng 0x2F).w 31 = 4)) = true := by decide

theorem test_run_jalr : nextIs (Sys2Proof.Machine.execJalr 0x2F (at0 0x2F 0xA8610000 { vw := ⟨[(1, 64)]⟩ })) (fun t => decide ((t.eng 0x2F).vpc = 64 ∧ (t.eng 0x2F).w 3 = 4)) = true := by decide

theorem test_run_loopi : nextIs (Sys2Proof.Machine.execLoopi 0x2F (at0 0x2F 0xB0050FFF { vw := ⟨[(1, 1)]⟩ })) (fun t => decide ((t.eng 0x2F).v0 = { start := 4, fin := 20, remain := 4095 })) = true := by decide

theorem test_run_loop : nextIs (Sys2Proof.Machine.execLoop 0x2F (at0 0x2F 0xB4200005 { vw := ⟨[(1, 16777215)]⟩ })) (fun t => decide ((t.eng 0x2F).v0 = { start := 4, fin := 20, remain := 16777215 })) = true := by decide

theorem test_run_lb : nextIs (Sys2Proof.Machine.execLb 0x2F (mem64 0x40610008 { vw := ⟨[(1, (2 ^ 32 + 56))]⟩ })) (fun t => decide ((t.eng 0x2F).w 3 = 0xFFFFFFFFFFFFFF88#64)) = true := by decide

theorem test_run_lbu : nextIs (Sys2Proof.Machine.execLbu 0x2F (mem64 0x44610008 { vw := ⟨[(1, (2 ^ 32 + 56))]⟩ })) (fun t => decide ((t.eng 0x2F).w 3 = 0x88)) = true := by decide

theorem test_run_lh : nextIs (Sys2Proof.Machine.execLh 0x2F (mem64 0x48610008 { vw := ⟨[(1, (2 ^ 32 + 56))]⟩ })) (fun t => decide ((t.eng 0x2F).w 3 = 0xFFFFFFFFFFFF8788#64)) = true := by decide

theorem test_run_lhu : nextIs (Sys2Proof.Machine.execLhu 0x2F (mem64 0x4C610008 { vw := ⟨[(1, (2 ^ 32 + 56))]⟩ })) (fun t => decide ((t.eng 0x2F).w 3 = 0x8788)) = true := by decide

theorem test_run_lw : nextIs (Sys2Proof.Machine.execLw 0x2F (mem64 0x50610008 { vw := ⟨[(1, (2 ^ 32 + 56))]⟩ })) (fun t => decide ((t.eng 0x2F).w 3 = 0xFFFFFFFF85868788#64)) = true := by decide

theorem test_run_lwu : nextIs (Sys2Proof.Machine.execLwu 0x2F (mem64 0x54610008 { vw := ⟨[(1, (2 ^ 32 + 56))]⟩ })) (fun t => decide ((t.eng 0x2F).w 3 = 0x85868788)) = true := by decide

theorem test_run_ld : nextIs (Sys2Proof.Machine.execLd 0x2F (mem64 0x58610008 { vw := ⟨[(1, (2 ^ 32 + 56))]⟩ })) (fun t => decide ((t.eng 0x2F).w 3 = 0x8182838485868788#64)) = true := by decide

theorem test_run_sb : nextIs (Sys2Proof.Machine.execSb 0x2F (mem64 0x60610008 { vw := ⟨[(1, (2 ^ 32 + 56)), (3, 0xFFFFFFFFFFFFFFFF#64)]⟩ })) (fun t => decide (t.word (sramLoc (uEng 0x2F) 64) = protect 0x81828384858687FF)) = true := by decide

theorem test_run_sh : nextIs (Sys2Proof.Machine.execSh 0x2F (mem64 0x64610008 { vw := ⟨[(1, (2 ^ 32 + 56)), (3, 0xFFFFFFFFFFFFFFFF#64)]⟩ })) (fun t => decide (t.word (sramLoc (uEng 0x2F) 64) = protect 0x818283848586FFFF)) = true := by decide

theorem test_run_sw : nextIs (Sys2Proof.Machine.execSw 0x2F (mem64 0x68610008 { vw := ⟨[(1, (2 ^ 32 + 56)), (3, 0xFFFFFFFFFFFFFFFF#64)]⟩ })) (fun t => decide (t.word (sramLoc (uEng 0x2F) 64) = protect 0x81828384FFFFFFFF)) = true := by decide

theorem test_run_sd : nextIs (Sys2Proof.Machine.execSd 0x2F (mem64 0x6C610008 { vw := ⟨[(1, (2 ^ 32 + 56)), (3, 0xFFFFFFFFFFFFFFFF#64)]⟩ })) (fun t => decide (t.word (sramLoc (uEng 0x2F) 64) = protect 0xFFFFFFFFFFFFFFFF)) = true := by decide

theorem test_run_vld : nextIs (Sys2Proof.Machine.execVld 0x2F (mem64 0xF8C00204 { vw := ⟨[(1, (2 ^ 32 + 64))]⟩ })) (fun t => decide ((t.eng 0x2F).uv 3 = 0x8182838485868788#256)) = true := by decide

theorem test_run_vst : nextIs (Sys2Proof.Machine.execVst 0x2F (mem64 0xF8040208 { vw := ⟨[(1, (2 ^ 32 + 64))]⟩, u := ⟨[(1, 7)]⟩ })) (fun t => decide (t.word (sramLoc (uEng 0x2F) 64) = protect 7 ∧ t.word (sramLoc (uEng 0x2F) 72) = protect 0)) = true := by decide

theorem test_run_sin : nextIs (Sys2Proof.Machine.execSin 0x2F (at0 0x2F 0xD0600008 { vw := ⟨[(1, 1)]⟩, inAtt := true, inp := (List.range 8).map fun k => BitVec.ofNat 8 (k + 1), outAtt := true, room := 0, u := ⟨[(1, 0x0201), (2, 0x8080)]⟩ })) (fun t => decide ((t.eng 0x2F).w 3 = 0x0807060504030201 ∧ (t.eng 0x2F).inp = [] ∧ (t.eng 0x2F).strpos = 8)) = true := by decide

theorem test_run_sskip : nextIs (Sys2Proof.Machine.execSskip 0x2F (at0 0x2F 0xD8010004 { vw := ⟨[(1, 1)]⟩, inAtt := true, inp := (List.range 5).map fun k => BitVec.ofNat 8 (k + 1), outAtt := true, room := 0, u := ⟨[(1, 0x0201), (2, 0x8080)]⟩ })) (fun t => decide ((t.eng 0x2F).inp = [] ∧ (t.eng 0x2F).strpos = 5)) = true := by decide

theorem test_run_sout : nextIs (Sys2Proof.Machine.execSout 0x2F (at0 0x2F 0xD4010008 { vw := ⟨[(1, 1)]⟩, inAtt := true, inp := (List.range 0).map fun k => BitVec.ofNat 8 (k + 1), outAtt := true, room := 8, u := ⟨[(1, 0x0201), (2, 0x8080)]⟩ })) (fun t => decide ((t.eng 0x2F).outp = [1, 0, 0, 0, 0, 0, 0, 0] ∧ (t.eng 0x2F).room = 0)) = true := by decide

theorem test_run_vsin : nextIs (Sys2Proof.Machine.execVsin 0x2F (at0 0x2F 0xF8C0000C { vw := ⟨[(1, 1)]⟩, inAtt := true, inp := (List.range 32).map fun k => BitVec.ofNat 8 (k + 1), outAtt := true, room := 0, u := ⟨[(1, 0x0201), (2, 0x8080)]⟩ })) (fun t => decide ((t.eng 0x2F).inp = [] ∧ (t.eng 0x2F).uv 3 = BitVec.ofNat 256 (ofLe ((List.range 32).map fun k => BitVec.ofNat 8 (k + 1))))) = true := by decide

theorem test_run_vsout : nextIs (Sys2Proof.Machine.execVsout 0x2F (at0 0x2F 0xF8040010 { vw := ⟨[(1, 1)]⟩, inAtt := true, inp := (List.range 0).map fun k => BitVec.ofNat 8 (k + 1), outAtt := true, room := 32, u := ⟨[(1, 0x0201), (2, 0x8080)]⟩ })) (fun t => decide ((t.eng 0x2F).outp.take 2 = [1, 2] ∧ (t.eng 0x2F).room = 0)) = true := by decide

theorem test_run_vsoutm : nextIs (Sys2Proof.Machine.execVsoutm 0x2F (at0 0x2F 0xF8048014 { vw := ⟨[(1, 1)]⟩, inAtt := true, inp := (List.range 0).map fun k => BitVec.ofNat 8 (k + 1), outAtt := true, room := 2, u := ⟨[(1, 0x0201), (2, 0x8080)]⟩ })) (fun t => decide ((t.eng 0x2F).outp = [1, 2] ∧ (t.eng 0x2F).room = 0)) = true := by decide

theorem test_run_vand : nextIs (Sys2Proof.Machine.execVand 0x2F (at0 0x2F 0xF0C48004 { vw := ⟨[(1, 0x1FF)]⟩, u := ⟨[(1, 0x80FF00010203), (2, 0x02800102FF04), (3, 0x00FF00FF)]⟩ })) (fun t => decide ((t.eng 0x2F).uv 3 = 0x80FF00010203#256 &&& 0x02800102FF04#256)) = true := by decide

theorem test_run_vandn : nextIs (Sys2Proof.Machine.execVandn 0x2F (at0 0x2F 0xF0C48010 { vw := ⟨[(1, 0x1FF)]⟩, u := ⟨[(1, 0x80FF00010203), (2, 0x02800102FF04), (3, 0x00FF00FF)]⟩ })) (fun t => decide ((t.eng 0x2F).uv 3 = 0x80FF00010203#256 &&& ~~~0x02800102FF04#256)) = true := by decide

theorem test_run_vor : nextIs (Sys2Proof.Machine.execVor 0x2F (at0 0x2F 0xF0C48008 { vw := ⟨[(1, 0x1FF)]⟩, u := ⟨[(1, 0x80FF00010203), (2, 0x02800102FF04), (3, 0x00FF00FF)]⟩ })) (fun t => decide ((t.eng 0x2F).uv 3 = 0x80FF00010203#256 ||| 0x02800102FF04#256)) = true := by decide

theorem test_run_vxor : nextIs (Sys2Proof.Machine.execVxor 0x2F (at0 0x2F 0xF0C4800C { vw := ⟨[(1, 0x1FF)]⟩, u := ⟨[(1, 0x80FF00010203), (2, 0x02800102FF04), (3, 0x00FF00FF)]⟩ })) (fun t => decide ((t.eng 0x2F).uv 3 = 0x80FF00010203#256 ^^^ 0x02800102FF04#256)) = true := by decide

theorem test_run_vbsl : nextIs (Sys2Proof.Machine.execVbsl 0x2F (at0 0x2F 0xF0C48050 { vw := ⟨[(1, 0x1FF)]⟩, u := ⟨[(1, 0x80FF00010203), (2, 0x02800102FF04), (3, 0x00FF00FF)]⟩ })) (fun t => decide ((t.eng 0x2F).uv 3 = (0x00FF00FF#256 &&& 0x80FF00010203#256) ||| (~~~0x00FF00FF#256 &&& 0x02800102FF04#256))) = true := by decide

theorem test_run_vadd : nextIs (Sys2Proof.Machine.execVadd 0x2F (at0 0x2F 0xF0C48022 { vw := ⟨[(1, 0x1FF)]⟩, u := ⟨[(1, 0x80FF00010203), (2, 0x02800102FF04), (3, 0x00FF00FF)]⟩ })) (fun t => decide (lane 2 0 ((t.eng 0x2F).uv 3) = (0x00010203 + 0x0102FF04) % 2 ^ 32)) = true := by decide

theorem test_run_vsub : nextIs (Sys2Proof.Machine.execVsub 0x2F (at0 0x2F 0xF0C48026 { vw := ⟨[(1, 0x1FF)]⟩, u := ⟨[(1, 0x80FF00010203), (2, 0x02800102FF04), (3, 0x00FF00FF)]⟩ })) (fun t => decide (lane 2 0 ((t.eng 0x2F).uv 3) = 0x00010203 + 2 ^ 32 - 0x0102FF04)) = true := by decide

theorem test_run_vminu : nextIs (Sys2Proof.Machine.execVminu 0x2F (at0 0x2F 0xF0C4802A { vw := ⟨[(1, 0x1FF)]⟩, u := ⟨[(1, 0x80FF00010203), (2, 0x02800102FF04), (3, 0x00FF00FF)]⟩ })) (fun t => decide (lane 2 0 ((t.eng 0x2F).uv 3) = 0x00010203)) = true := by decide

theorem test_run_vmaxu : nextIs (Sys2Proof.Machine.execVmaxu 0x2F (at0 0x2F 0xF0C4802E { vw := ⟨[(1, 0x1FF)]⟩, u := ⟨[(1, 0x80FF00010203), (2, 0x02800102FF04), (3, 0x00FF00FF)]⟩ })) (fun t => decide (lane 2 1 ((t.eng 0x2F).uv 3) = 0x80FF)) = true := by decide

theorem test_run_vcmpeq : nextIs (Sys2Proof.Machine.execVcmpeq 0x2F (at0 0x2F 0xF0C48032 { vw := ⟨[(1, 0x1FF)]⟩, u := ⟨[(1, 0x80FF00010203), (2, 0x02800102FF04), (3, 0x00FF00FF)]⟩ })) (fun t => decide (lane 2 7 ((t.eng 0x2F).uv 3) = 0xFFFFFFFF)) = true := by decide

theorem test_run_vcmpgtu : nextIs (Sys2Proof.Machine.execVcmpgtu 0x2F (at0 0x2F 0xF0C48036 { vw := ⟨[(1, 0x1FF)]⟩, u := ⟨[(1, 0x80FF00010203), (2, 0x02800102FF04), (3, 0x00FF00FF)]⟩ })) (fun t => decide (lane 2 1 ((t.eng 0x2F).uv 3) = 0xFFFFFFFF)) = true := by decide

theorem test_run_vcmpgt : nextIs (Sys2Proof.Machine.execVcmpgt 0x2F (at0 0x2F 0xF0C4803A { vw := ⟨[(1, 0x1FF)]⟩, u := ⟨[(1, 0x80FF00010203), (2, 0x02800102FF04), (3, 0x00FF00FF)]⟩ })) (fun t => decide (lane 2 0 ((t.eng 0x2F).uv 3) = 0)) = true := by decide

theorem test_run_vshuf : nextIs (Sys2Proof.Machine.execVshuf 0x2F (at0 0x2F 0xF0C48040 { vw := ⟨[(1, 0x1FF)]⟩, u := ⟨[(1, 0x80FF00010203), (2, 0x02800102FF04), (3, 0x00FF00FF)]⟩ })) (fun t => decide (lane 0 0 ((t.eng 0x2F).uv 3) = 0xFF ∧ lane 0 1 ((t.eng 0x2F).uv 3) = 0)) = true := by decide

theorem test_run_vsplat : nextIs (Sys2Proof.Machine.execVsplat 0x2F (at0 0x2F 0xF4C00205 { vw := ⟨[(1, 0x1FF)]⟩, u := ⟨[(1, 0x80FF00010203), (2, 0x02800102FF04), (3, 0x00FF00FF)]⟩ })) (fun t => decide (lane 1 15 ((t.eng 0x2F).uv 3) = 0x1FF)) = true := by decide

theorem test_run_vins : nextIs (Sys2Proof.Machine.execVins 0x2F (at0 0x2F 0xF4C0020F { vw := ⟨[(1, 0x1FF)]⟩, u := ⟨[(1, 0x80FF00010203), (2, 0x02800102FF04), (3, 0x00FF00FF)]⟩ })) (fun t => decide (lane 3 3 ((t.eng 0x2F).uv 3) = 0x1FF ∧ lane 3 0 ((t.eng 0x2F).uv 3) = 0x00FF00FF)) = true := by decide

theorem test_run_vmovw : nextIs (Sys2Proof.Machine.execVmovw 0x2F (at0 0x2F 0xF404020B { vw := ⟨[(1, 0x1FF)]⟩, u := ⟨[(1, 0x80FF00010203), (2, 0x02800102FF04), (3, 0x00FF00FF)]⟩ })) (fun t => decide ((t.eng 0x2F).w 1 = 0)) = true := by decide

theorem test_run_vmask : nextIs (Sys2Proof.Machine.execVmask 0x2F (at0 0x2F 0xF4040210 { vw := ⟨[(1, 0x1FF)]⟩, u := ⟨[(1, 0x80FF00010203), (2, 0x02800102FF04), (3, 0x00FF00FF)]⟩ })) (fun t => decide ((t.eng 0x2F).w 1 = 0x30)) = true := by decide

theorem test_run_vpopc : nextIs (Sys2Proof.Machine.execVpopc 0x2F (at0 0x2F 0xF4040214 { vw := ⟨[(1, 0x1FF)]⟩, u := ⟨[(1, 0x80FF00010203), (2, 0x02800102FF04), (3, 0x00FF00FF)]⟩ })) (fun t => decide ((t.eng 0x2F).w 1 = 13)) = true := by decide

theorem test_run_vfirst : nextIs (Sys2Proof.Machine.execVfirst 0x2F (at0 0x2F 0xF4040218 { vw := ⟨[(1, 0x1FF)]⟩, u := ⟨[(1, 0x80FF00010203), (2, 0x02800102FF04), (3, 0x00FF00FF)]⟩ })) (fun t => decide ((t.eng 0x2F).w 1 = 4)) = true := by decide

theorem test_run_vcrc : nextIs (Sys2Proof.Machine.execVcrc 0x2F (at0 0x2F 0xF404021C { vw := ⟨[(1, 0x1FF)]⟩, u := ⟨[(1, 0x80FF00010203), (2, 0x02800102FF04), (3, 0x00FF00FF)]⟩ })) (fun t => decide ((t.eng 0x2F).w 1 ≠ 0x1FF)) = true := by decide

theorem test_run_yield : nextIs (Sys2Proof.Machine.execYield 0x2F (at0 0x2F 0x04000001 { ring := 2, budget := 1, codel := 8, tvec := 128 })) (fun t => decide ((t.eng 0x2F).ring = 0 ∧ (t.eng 0x2F).tring = 2 ∧ (t.eng 0x2F).vpc = 128 ∧ (t.eng 0x2F).cause = 0)) = true := by decide

theorem test_run_exit : nextIs (Sys2Proof.Machine.execExit 0x2F (at0 0x2F 0x04010002 { ring := 1, budget := 1, codel := 8, pw := ⟨[(1, 9)]⟩ })) (fun t => decide ((t.eng 0x2F).cause = 1 ∧ (t.eng 0x2F).trapval = 9)) = true := by decide

theorem test_run_fenceV : nextIs (Sys2Proof.Machine.execBalufFence 0x2F (at0 0x2F 0x04000003 {})) (fun t => decide ((t.eng 0x2F).vpc = 4 ∧ (t.eng 0x2F).xfers = [])) = true := by decide

theorem test_run_xwaitV : nextIs (Sys2Proof.Machine.execXwait 0x2F (at0 0x2F 0x04000004 {})) (fun t => decide ((t.eng 0x2F).vpc = 4 ∧ (t.eng 0x2F).xfers = [])) = true := by decide

theorem test_run_enter : nextIs (Sys2Proof.Machine.execEnter 0x2F (at0 0x2F 0x04010005 { vw := ⟨[(1, 64)]⟩, pring := 2 })) (fun t => decide ((t.eng 0x2F).ring = 2 ∧ (t.eng 0x2F).ppc = 64 ∧ (t.eng 0x2F).budget = 4000)) = true := by decide

theorem test_run_tret : nextIs (Sys2Proof.Machine.execTret 0x2F (at0 0x2F 0x04000006 { nest := true, trappc := 12 })) (fun t => decide ((t.eng 0x2F).vpc = 12 ∧ (t.eng 0x2F).nest = false)) = true := by decide

theorem test_run_mfp : nextIs (Sys2Proof.Machine.execMfp 0x2F (at0 0x2F 0x04610007 { pw := ⟨[(1, 5)]⟩ })) (fun t => decide ((t.eng 0x2F).w 3 = 5)) = true := by decide

theorem test_run_mtp : nextIs (Sys2Proof.Machine.execMtp 0x2F (at0 0x2F 0x04610008 { vw := ⟨[(1, 5)]⟩ })) (fun t => decide ((t.eng 0x2F).pw.get 0 3 = 5)) = true := by decide

theorem test_run_xfer : nextIs (Sys2Proof.Machine.execXfer 0x2F (dramUp (at0 0x2F 0x04611009 { vw := ⟨[(1, 2 ^ 32), (2, 2 ^ 38), (3, 64)]⟩ }))) (fun t => decide ((t.eng 0x2F).xfers = [⟨2 ^ 32, 2 ^ 38, 64⟩])) = true := by decide

theorem test_run_cas : nextIs (Sys2Proof.Machine.execCas 0x2F (mem64 0x0461100A { vw := ⟨[(1, 2 ^ 32 + 64), (2, 1), (3, 0x8182838485868788)]⟩ })) (fun t => decide (t.word (sramLoc (uEng 0x2F) 64) = protect 1 ∧ (t.eng 0x2F).w 3 = 0x8182838485868788)) = true := by decide

theorem test_run_amoadd : nextIs (Sys2Proof.Machine.execAmoadd 0x2F (mem64 0x0461100B { vw := ⟨[(1, 2 ^ 32 + 64), (2, 1), (3, 0x8182838485868788)]⟩ })) (fun t => decide (t.word (sramLoc (uEng 0x2F) 64) = protect 0x8182838485868789 ∧ (t.eng 0x2F).w 3 = 0x8182838485868788)) = true := by decide

theorem test_run_csrr : nextIs (Sys2Proof.Machine.execCsrr 0x2F (at0 0x2F 0xC0600001 { tid := 7 })) (fun t => decide ((t.eng 0x2F).w 3 = 7)) = true := by decide

theorem test_run_csrw : nextIs (Sys2Proof.Machine.execCsrw 0x2F (at0 0x2F 0xC4010004 { vw := ⟨[(1, 500)]⟩ })) (fun t => decide ((t.eng 0x2F).stepmax = 500)) = true := by decide

theorem test_fwDownload : nextIs (Sys2Proof.Machine.execFirmwareImageDownload 1 (one hostNs ({ adm 0x11 1 1 with sqe := { opc := 0x11, cdw10 := 1, cdw11 := 1, data := [1, 2, 3, 4, 5, 6, 7, 8], sgl := 8 } }))) (fun t => decide (t.outbox.head? = some (.cqe 0 0 (State.cqOf (one hostNs ({ adm 0x11 1 1 with sqe := { opc := 0x11, cdw10 := 1, cdw11 := 1, data := [1, 2, 3, 4, 5, 6, 7, 8], sgl := 8 } })) 0 0) 0 (stOk) (dnrOf (stOk)) (crdOf (stOk)) (0) 0 ([])) ∧ (t.cmd 1).isNone ∧ t.lvl.fwOwner = 0 ∧ t.lvl.fwLen = 12 ∧ t.lvl.fwBuf.getRange 0 4 8 = [1, 2, 3, 4, 5, 6, 7, 8])) = true := by decide

theorem test_commitSlot : nextIs (Sys2Proof.Machine.execFirmwareCommit 1 (one hostNs (adm 0x10 5 0))) (fun t => decide (t.outbox.head? = some (.cqe 0 0 (State.cqOf (one hostNs (adm 0x10 5 0)) 0 0) 0 (stFwSlot) (dnrOf (stFwSlot)) (crdOf (stFwSlot)) (0) 0 ([])) ∧ (t.cmd 1).isNone)) = true := by decide

theorem test_swapSkips : nextIs (Sys2Proof.Machine.execEngineSwap false (swapping { todo := [0x2F, 0x30] } .fenced)) (fun t => decide (t.lvl.act = some { todo := [0x30], skipped := 1 } ∧ t.getF F.SYS_EVT_ACT_SKIP = 1)) = true := by decide

theorem test_resetActivates : nextIs (Sys2Proof.Machine.execNvmSubsystemReset  (pends 0)) (fun t => decide (t.lvl.act = some { todo := swapOrder } ∧ t.lvl.active = 2 ∧ t.lvl.pendFw = none)) = true := by decide

theorem test_warmRestart : nextIs (Sys2Proof.Machine.execWarmRestart  (warming)) (fun t => decide (t.lvl.core = false ∧ t.lvl.warm = true ∧ t.jnl.clean = true)) = true := by decide

theorem test_ucBad : nextIs (Sys2Proof.Machine.execUnitCommand 1 (one hostNs (adm 0xCC 1 0xFFFF))) (fun t => decide (t.outbox.head? = some (.cqe 0 0 (State.cqOf (one hostNs (adm 0xCC 1 0xFFFF)) 0 0) 0 (stInvalidField) (dnrOf (stInvalidField)) (crdOf (stInvalidField)) (0) 0 ([])) ∧ (t.cmd 1).isNone)) = true := by decide

theorem test_drowse : nextIs (Sys2Proof.Machine.execDrowseEntry 15 (grp15 2 (up.get2 F.PWR_DROWSE_IDLE))) (fun t => decide ((t.unit (uGroup 15)).cur = 1)) = true := by decide

theorem test_wake : nextIs (Sys2Proof.Machine.execGroupWake 15 [] true (sleeping true)) (fun t => decide ((t.unit (uGroup 15)).cur = 2 ∧ t.getF F.PWR_EVT_WAKE_ENTRY = 1 ∧ (t.chan 127).re ∧ (t.chan 127).mode = 3)) = true := by decide

theorem test_apst3 : nextIs (Sys2Proof.Machine.execAutonomousPowerStateTransition  (dozing 2 3)) (fun t => decide (t.pwr.cur = 3 ∧ (t.unit (uEng (eHE 11))).cur = 1 ∧ (t.unit uFront).cur = 2)) = true := by decide

theorem test_powerExit : nextIs (Sys2Proof.Machine.execPowerStateExit 3 true 7 (dozing 4 3)) (fun t => decide (t.pwr.cur = 2 ∧ t.pwr.wakeSrc = 8 ∧ t.pwr.wakeLow ∧ (t.unit (uGroup 15)).cur = 2 ∧ t.time.frame = 875 ∧ t.getF F.PWR_EVT_WAKE_ENTRY = 1)) = true := by decide

theorem test_wakeN : nextIs (Sys2Proof.Machine.execWakeNDeassert  ({ up with pwr := { wakeLow := true } })) (fun t => decide (t.pwr.wakeLow = false)) = true := by decide

theorem test_housekeeping : nextIs (Sys2Proof.Machine.execHousekeepingExcursion  (keeps)) (fun t => decide (t.pwr.cur = 2 ∧ t.pwr.hk = some 3)) = true := by decide

theorem test_pfail : nextIs (Sys2Proof.Machine.execPfail  (inPs 2)) (fun t => decide (t.pwr.pfail ∧ t.getF F.PWR_EVT_PFAIL = 1)) = true := by decide

theorem test_brownOut : nextIs (Sys2Proof.Machine.execBrownOut  (cycling)) (fun t => decide (t.lvl.core = false ∧ t.pwr.cold ∧ (t.port 0).up = false ∧ t.flt.regcFell)) = true := by decide

theorem test_brownOut_2 : nextIs (Sys2Proof.Machine.execRefclkLoss  (cycling)) (fun t => decide (t.lvl.core = false ∧ t.pwr.cold ∧ (t.port 0).up = false ∧ t.flt.regcFell)) = true := by decide

theorem test_restart : nextIs (Sys2Proof.Machine.execPowerRestart  ({ linked with pwr := { drained := true } })) (fun t => decide (t.pwr.drained = false ∧ t.pwr.cold ∧ (t.port 0).up = false)) = true := by decide

theorem test_holdUp : nextIs (Sys2Proof.Machine.execHoldUpTestStart  (up)) (fun t => decide (t.pwr.test.isSome ∧ t.outbox = [.pin 2 true])) = true := by decide

theorem test_holdUp_2 : nextIs (Sys2Proof.Machine.execHoldUpTest  (steady)) (fun t => decide (t.pwr.test.isSome ∧ t.outbox = [.pin 2 true])) = true := by decide

theorem test_holdUpEnd : nextIs (Sys2Proof.Machine.execHoldUpTestEnd  (testing (tested 29701 true))) (fun t => decide (t.pwr.test = none ∧ t.pwr.result = 2 ∧ (.pin 2 false) ∈ t.outbox ∧ t.getF F.PWR_EVT_HU_INVALID = 1 ∧ ∃ e ∈ t.flt.queue, e.code = 0x010C ∧ e.unit = uSvc 5)) = true := by decide

theorem test_holdUpLow : nextIs (Sys2Proof.Machine.execHoldUpVoltageLow  (sags)) (fun t => decide (t.pwr.present ∧ t.getF F.PWR_EVT_HU_DEG = 1 ∧ (t.lsec 7).map (·.catchup) = some true)) = true := by decide

theorem test_miUp : nextIs (Sys2Proof.Machine.execNvmSubsystemHealthStatusPoll 0 true (linked)) (fun t => decide (t.hif.mhs = 0 ∧ t.outbox = [.mi 0x01 miOk linked.miHealth])) = true := by decide

theorem test_miStruct : nextIs (Sys2Proof.Machine.execReadNvmeMiDataStructure 0 0 0 0 (linked)) (fun t => decide (t.outbox = [.mi 0x00 miOk (padTo 32 [2, 1, 2])])) = true := by decide

theorem test_miConfig : nextIs (Sys2Proof.Machine.execConfigurationGet 0 3 2 (linked)) (fun t => decide (t.outbox = [.mi 0x04 miOk [64, 0, 0, 0]])) = true := by decide

theorem test_miConfig_2 : nextIs (Sys2Proof.Machine.execConfigurationSet 0 3 0 250 (linked)) (fun t => decide (t.hif.mtu.get 64 0 = 250 ∧ t.outbox = [.mi 0x03 miOk []])) = true := by decide

theorem test_vpd : nextIs (Sys2Proof.Machine.execVpdWrite 0 1021 [1, 2, 3] (linked)) (fun t => decide (t.hif.vpd.getRange 0 1021 3 = [1, 2, 3] ∧ t.outbox = [.mi 0x06 miOk []])) = true := by decide

theorem test_vpd_2 : nextIs (Sys2Proof.Machine.execVpdRead 0 1023 1 (linked)) (fun t => decide (t.outbox = [.mi 0x05 miOk [0]])) = true := by decide

theorem test_miShutdown : nextIs (Sys2Proof.Machine.execNvmeMiShutdown 0 (host)) (fun t => decide ((t.ctrl 0).shst = 2)) = true := by decide

theorem test_miShutdown_2 : nextIs (Sys2Proof.Machine.execNvmeMiReset 0 (linked)) (fun t => decide ((t.port 0).up = false ∧ t.outbox.head? = some (.mi 0x07 miOk []))) = true := by decide

theorem test_tunnel : nextIs (Sys2Proof.Machine.execAdminCommandTunnel 0 0 ⟨0x06, 0, 0, 1, 0, 0, 0, 0, 0, [], 4096, 1⟩ (host)) (fun t => decide (t.hif.cmds.map (·.tunnel) = [true] ∧ t.outbox = [])) = true := by decide

theorem test_registerAccess : nextIs (Sys2Proof.Machine.execRegisterRead 0 1 0x700000 1 (up)) (fun t => decide (t.outbox = [.mi 0xC1 miDenied []])) = true := by decide

theorem test_registerAccess_2 : nextIs (Sys2Proof.Machine.execRegisterWrite 0 1 0x700000 5 (up)) (fun t => decide (t.outbox = [.mi 0xC2 miDenied []])) = true := by decide

theorem test_pollHeld : nextIs (Sys2Proof.Machine.execControllerHealthStatusPoll 0 0 0 (dozed 3)) (fun t => decide (t.hif.held = [(0, .ctrlPoll 0 0)] ∧ t.outbox = [])) = true := by decide

theorem test_coldReset : nextIs (Sys2Proof.Machine.execColdResetConfirm 0 (wired)) (fun t => decide (t.flt.armed ∧ t.outbox = [.mi 0xC0 miOk []])) = true := by decide

theorem test_smbusWake : nextIs (Sys2Proof.Machine.execSmbusWakePacket 0x20 (.healthPoll false) false 7 (dozed 3)) (fun t => decide (t.pwr.cur = (dozed 3).pwr.lastOp ∧ t.outbox.length = 1)) = true := by decide

theorem test_smbusWake_2 : nextIs (Sys2Proof.Machine.execMalformedMctpPacket  (dozed 3)) (fun t => decide (t.getF F.HIF_EVT_MI_ERR = 1)) = true := by decide

theorem test_miSend : nextIs (Sys2Proof.Machine.execNvmeMiSend 1 (one hostNs ({ adm 0x1D 0 6 with sqe := { opc := 0x1D, cdw11 := 6, cdw12 := 1022, data := [8, 9] } }))) (fun t => decide (t.outbox.head? = some (.cqe 0 0 (State.cqOf (one hostNs ({ adm 0x1D 0 6 with sqe := { opc := 0x1D, cdw11 := 6, cdw12 := 1022, data := [8, 9] } })) 0 0) 0 (stOk) (dnrOf (stOk)) (crdOf (stOk)) (miOk) 0 ([])) ∧ (t.cmd 1).isNone ∧ t.hif.vpd.getRange 0 1022 2 = [8, 9])) = true := by decide

theorem test_miReceive : nextIs (Sys2Proof.Machine.execNvmeMiReceive 1 (one hostNs ({ adm 0x1E 0 5 with sqe := { opc := 0x1E, cdw11 := 5, cdw12 := 1022, cdw13 := 2, sgl := 2 } }))) (fun t => decide (t.outbox.head? = some (.cqe 0 0 (State.cqOf (one hostNs ({ adm 0x1E 0 5 with sqe := { opc := 0x1E, cdw11 := 5, cdw12 := 1022, cdw13 := 2, sgl := 2 } })) 0 0) 0 (stOk) (dnrOf (stOk)) (crdOf (stOk)) (miOk) 0 ([0, 0])) ∧ (t.cmd 1).isNone)) = true := by decide

theorem test_debugHalted : nextIs (Sys2Proof.Machine.execDebugAccessPort 0x700000 (some 5) (halted 4)) (fun t => decide (t = (halted 4).send (.busErr 0xFFF 0x700000))) = true := by decide

theorem test_rekeyEnds : nextIs (Sys2Proof.Machine.execRekeyPass 1 (slotted { cur := some 1, prev := some 3, rekey := true } 1 hostNs)) (fun t => decide (t.slot 1 = { cur := some 1 })) = true := by decide

theorem test_zeroise : nextIs (Sys2Proof.Machine.execKeySlotZeroise 1 (one (slotted { cur := some 1, kind := 2, ctr := 6 } 4097 hostNs) (adm 0xC9 0 (2 * 65536 + 4097)))) (fun t => decide (t.outbox.head? = some (.cqe 0 0 (State.cqOf (one (slotted { cur := some 1, kind := 2, ctr := 6 } 4097 hostNs) (adm 0xC9 0 (2 * 65536 + 4097))) 0 0) 0 (stOk) (dnrOf (stOk)) (crdOf (stOk)) (4097) 0 ([])) ∧ (t.cmd 1).isNone ∧ t.slot 4097 = { ctr := 6 })) = true := by decide

theorem test_blobBad : nextIs (Sys2Proof.Machine.execKeyBlobInstall 1 (one hostNs (adm 0xC9 0 1))) (fun t => decide (t.outbox.head? = some (.cqe 0 0 (State.cqOf (one hostNs (adm 0xC9 0 1)) 0 0) 0 (stInvalidField) (dnrOf (stInvalidField)) (crdOf (stInvalidField)) (1) 0 ([])) ∧ (t.cmd 1).isNone ∧ t.getF F.SEC_EVT_BLOB_REJ = 1)) = true := by decide

theorem test_rotateBusy : nextIs (Sys2Proof.Machine.execKeyRotation 1 (one hostNs (adm 0xC9 0 (65536 + 1)))) (fun t => decide ((t.cmd 1).isNone)) = true := by decide

theorem test_secSendBad : nextIs (Sys2Proof.Machine.execSecuritySend 1 (one hostNs ({ adm 0x81 0 0 with sqe := { opc := 0x81 } }))) (fun t => decide (t.outbox.head? = some (.cqe 0 0 (State.cqOf (one hostNs ({ adm 0x81 0 0 with sqe := { opc := 0x81 } })) 0 0) 0 (stInvalidField) (dnrOf (stInvalidField)) (crdOf (stInvalidField)) (0) 0 ([])) ∧ (t.cmd 1).isNone)) = true := by decide

theorem test_secList : nextIs (Sys2Proof.Machine.execSecurityReceive 1 (one hostNs ({ adm 0x82 0 10 with sqe := { opc := 0x82, cdw11 := 10, sgl := 10 } }))) (fun t => decide (t.outbox.head? = some (.cqe 0 0 (State.cqOf (one hostNs ({ adm 0x82 0 10 with sqe := { opc := 0x82, cdw11 := 10, sgl := 10 } })) 0 0) 0 (stOk) (dnrOf (stOk)) (crdOf (stOk)) (0) 0 ([0, 0, 0, 0, 0, 0, 0, 2, 0, 0xE8])) ∧ (t.cmd 1).isNone)) = true := by decide

theorem test_spdm : nextIs (Sys2Proof.Machine.execGetVersion  (connected 3)) (fun t => decide (t.sec.conn.get 0 0 = 1 ∧ t.sec.sessions = [])) = true := by decide

theorem test_spdm_2 : nextIs (Sys2Proof.Machine.execGetCapabilities  (connected 1)) (fun t => decide (t.sec.conn.get 0 0 = 2)) = true := by decide

theorem test_sessionEnds : nextIs (Sys2Proof.Machine.execEndSession 1 (owned)) (fun t => decide (t.session 0 1 = none)) = true := by decide

theorem test_sessionEnds_2 : nextIs (Sys2Proof.Machine.execHeartbeat 1 (owned)) (fun t => decide (t.outbox = [.spdm 0xE8 (spdmMsg 0x68 0 0 [])])) = true := by decide

theorem test_provisionDenied : nextIs (Sys2Proof.Machine.execSetKik 1 (zeros 32) (connected 3)) (fun t => decide (t.outbox = [.mi 0xFE miDenied []])) = true := by decide

theorem test_provisionDenied_2 : nextIs (Sys2Proof.Machine.execClearKik 1 (connected 3)) (fun t => decide (t.outbox = [.mi 0xFE miDenied []])) = true := by decide

theorem test_cipherJob : nextIs (Sys2Proof.Machine.execCipherJob 3 [] (some { prio := 3, slot := 1, blocks := 4096 }) 0 0 (withCc {})) (fun t => decide (((t.cc 3).pipes.get {} 0).run.isSome ∧ (t.cc 3).jobs = 1 ∧ t.sched.ccUsed.get 0 3 = 65536)) = true := by decide

theorem test_kat : nextIs (Sys2Proof.Machine.execKnownAnswerTest 3 15 true (withCc {})) (fun t => decide (t = withCc {})) = true := by decide

theorem test_entropy : nextIs (Sys2Proof.Machine.execDrbgReseed 3 (withCc { gens := 4095 })) (fun t => decide (t = withCc { gens := 4095 })) = true := by decide

theorem test_alarms : nextIs (Sys2Proof.Machine.execAlarm 7 (up)) (fun t => decide (t.sec.stopped ∧ t.sec.alarm = 128 ∧ (∃ e ∈ t.flt.queue, e.code = 0x0301 ∧ e.unit = uSvc 6 ∧ e.detail = 128))) = true := by decide

theorem test_alarms_2 : nextIs (Sys2Proof.Machine.execForce (.eng 0) 1 (up)) (fun t => decide (t.sec.alarm = 128)) = true := by decide

theorem test_load : nextIs (Sys2Proof.Machine.execProgramLoad 1 (one hostNs (loadCmd))) (fun t => decide (t.outbox.head? = some (.cqe 0 0 (State.cqOf (one hostNs (loadCmd)) 0 0) 0 (stOk) (dnrOf (stOk)) (crdOf (stOk)) (1) 0 ([])) ∧ (t.cmd 1).isNone ∧ (t.prog 1).map (·.tid) = some 5 ∧ (t.prog 1).map (·.entries) = some [(2, 0)])) = true := by decide

theorem test_bind : nextIs (Sys2Proof.Machine.execProgramBind 1 (one (withProg [] hostNs) ({ adm 0xC4 1 1 with sqe := { opc := 0xC4, nsid := 1, cdw10 := 1, cdw11 := 1 } }))) (fun t => decide (t.outbox.head? = some (.cqe 0 0 (State.cqOf (one (withProg [] hostNs) ({ adm 0xC4 1 1 with sqe := { opc := 0xC4, nsid := 1, cdw10 := 1, cdw11 := 1 } })) 0 0) 0 (stOk) (dnrOf (stOk)) (crdOf (stOk)) (0) 0 ([])) ∧ (t.cmd 1).isNone ∧ t.prg.binds = [{ handle := 1, target := 1, nsid := 1, scope := 0 }] ∧ t.prg.osvn = 3)) = true := by decide

theorem test_unbind : nextIs (Sys2Proof.Machine.execProgramUnbind 1 (one (withProg [{ handle := 1, target := 1, nsid := 1, scope := 0 }] hostNs) ({ adm 0xC4 1 (65536 + 1) with sqe := { opc := 0xC4, nsid := 1, cdw10 := 1, cdw11 := (65536 + 1) } }))) (fun t => decide (t.outbox.head? = some (.cqe 0 0 (State.cqOf (one (withProg [{ handle := 1, target := 1, nsid := 1, scope := 0 }] hostNs) ({ adm 0xC4 1 (65536 + 1) with sqe := { opc := 0xC4, nsid := 1, cdw10 := 1, cdw11 := (65536 + 1) } })) 0 0) 0 (stOk) (dnrOf (stOk)) (crdOf (stOk)) (0) 0 ([])) ∧ (t.cmd 1).isNone ∧ t.prg.binds = [])) = true := by decide

theorem test_replace : nextIs (Sys2Proof.Machine.execProgramReplace 1 (one (tenantProg hostNs) ({ adm 0xC5 112 1 with sqe := { opc := 0xC5, cdw10 := 112, cdw11 := 1, data := smallest, sgl := 112 } }))) (fun t => decide (t.outbox.head? = some (.cqe 0 0 (State.cqOf (one (tenantProg hostNs) ({ adm 0xC5 112 1 with sqe := { opc := 0xC5, cdw10 := 112, cdw11 := 1, data := smallest, sgl := 112 } })) 0 0) 0 (stOk) (dnrOf (stOk)) (crdOf (stOk)) (1) 0 ([])) ∧ (t.cmd 1).isNone ∧ (t.prog 1).map (·.svn) = some 0)) = true := by decide

theorem test_unloadBound : nextIs (Sys2Proof.Machine.execProgramUnload 1 (one (withProg [{ handle := 1, target := 1, nsid := 1, scope := 0 }] hostNs) (adm 0xC8 1 0))) (fun t => decide (t.outbox.head? = some (.cqe 0 0 (State.cqOf (one (withProg [{ handle := 1, target := 1, nsid := 1, scope := 0 }] hostNs) (adm 0xC8 1 0)) 0 0) 0 (stSequence) (dnrOf (stSequence)) (crdOf (stSequence)) (0) 0 ([])) ∧ (t.cmd 1).isNone)) = true := by decide

theorem test_inventory : nextIs (Sys2Proof.Machine.execProgramInventoryRead 1 (one (withProg [] hostNs) ({ adm 0xCA 15 0 with sqe := { opc := 0xCA, cdw10 := 15, sgl := 64 } }))) (fun t => decide (t.outbox.length = 1 ∧ (t.cmd 1).isNone)) = true := by decide

theorem test_scan : nextIs (Sys2Proof.Machine.execScan 1 (scanSt (scanCmd 4095 1))) (fun t => decide ((t.cmd 1).map (·.ph) = some .running ∧ t.prg.scans.map (fun x => (x.fsn, x.rlen, x.room, x.stage)) = [(1, 4096, 8, 1)])) = true := by decide

theorem test_resident : nextIs (Sys2Proof.Machine.execScanResident 1 (roomy)) (fun t => decide ((t.scanOf 1).map (fun x => (x.resident, x.region, x.scratch)) = some (true, 0, 0))) = true := by decide

theorem test_scanStep : nextIs (Sys2Proof.Machine.execScanStep 1 [] [] (scanning (theScan true []))) (fun t => decide ((t.eng (eFE 15)).ring = 1 ∧ (t.eng (eFE 15)).budget = 500 ∧ (t.eng (eFE 15)).scan = some 1 ∧ (t.eng (eFE 15)).outAtt)) = true := by decide

theorem test_cancel : nextIs (Sys2Proof.Machine.execScanCancel 2 (cancelling 7)) (fun t => decide (t.scanOf 1 = none ∧ (t.cmd 1).map (·.fin) = some (some (stOk, 0, 3)) ∧ t.cmd 2 = none)) = true := by decide

theorem test_qosHook : nextIs (Sys2Proof.Machine.execQosHook (some (0, [(4095, 65535)])) (qos 1024)) (fun t => decide (t.sched.pendW.get none 4095 = some (65535, 1) ∧ t.prg.qosStart = 1024)) = true := by decide

theorem test_hookLate : nextIs (Sys2Proof.Machine.execHookDeadlineMiss 3 2 (hooked)) (fun t => decide (t.getF F.PRG_EVT_LATE = 1 ∧ t.getF F.PRG_EVT_REPL = 1 ∧ (∃ e ∈ t.flt.queue, e.code = 0x0104 ∧ e.detail = 9))) = true := by decide

theorem test_patrol : nextIs (Sys2Proof.Machine.execSramPatrol  (flagOff F.MEMP_CTL_SRAM_EN)) (fun t => decide (t = flagOff F.MEMP_CTL_SRAM_EN)) = true := by decide

theorem test_patrol_2 : nextIs (Sys2Proof.Machine.execDramPatrol  (flagOff F.MEMP_CTL_DRAM_EN)) (fun t => decide (t = flagOff F.MEMP_CTL_DRAM_EN)) = true := by decide

theorem test_declare : nextIs (Sys2Proof.Machine.execDeclare 0x87900010 (up)) (fun t => decide (t.memp.failed.get 0 7 = 10 ∧ t.getF F.MEMP_EVT_DEVFAIL = 1)) = true := by decide

theorem test_passGated : nextIs (Sys2Proof.Machine.execPassDone  (gated)) (fun t => decide (t.memp.passCode = 2 ∧ t.memp.pass = none ∧ t.getF F.MEMP_EVT_PASS_DONE = 1)) = true := by decide

theorem test_pass : nextIs (Sys2Proof.Machine.execPassStart  (passing 1)) (fun t => decide (t.getF F.MEMP_EVT_PASS_REJ = 1)) = true := by decide

theorem test_pass_2 : nextIs (Sys2Proof.Machine.execPassStop  (passing 1)) (fun t => decide (t.memp.pass = none ∧ t.memp.passCode = 1)) = true := by decide

theorem test_dramRequest : nextIs (Sys2Proof.Machine.execDramRequest 5 (some (11, 64, 1, 0)) none (dramUp up)) (fun t => decide (t.dram.reqs.map (·.lines) = [1])) = true := by decide

theorem test_dramRefresh : nextIs (Sys2Proof.Machine.execDramRefresh 4 0 (queued 0 4 5)) (fun t => decide ((t.sub 4).owed0 = 0)) = true := by decide

theorem test_selfRefresh : nextIs (Sys2Proof.Machine.execSelfRefreshEntry 4 (quietSub)) (fun t => decide ((t.sub 4).phase = 5 ∧ (t.sub 4).owed0 = 0)) = true := by decide

theorem test_selfRefresh_2 : nextIs (Sys2Proof.Machine.execDramTracking 4 [(9, 3)] (quietSub)) (fun t => decide ((t.sub 4).phase = 4)) = true := by decide

theorem test_setPoint : nextIs (Sys2Proof.Machine.execSetPointRequest 1 (up)) (fun t => decide (t.getF F.DRC_EVT_FSP_DONE = 1)) = true := by decide

theorem test_ppr : nextIs (Sys2Proof.Machine.execPostPackageRepair true (ppr)) (fun t => decide (t.dram.repairs = [8192] ∧ t.dram.repaired = [4096])) = true := by decide

theorem test_evacRefused : nextIs (Sys2Proof.Machine.execEvacuationStart (some 0x80000007) (dramUp up)) (fun t => decide (t.dram.evac = none ∧ t.dram.evacCode = 5)) = true := by decide

theorem test_evacEnds : nextIs (Sys2Proof.Machine.execEvacuationFirstPhaseEnd  (eight (some { sub := 7 }))) (fun t => decide (t.dram.evac.map (·.phase) = some 2)) = true := by decide

theorem test_evacEnds_2 : nextIs (Sys2Proof.Machine.execEvacDone  (eight (some { sub := 7, phase := 2 }))) (fun t => decide (t.dram.active = [0, 1, 2, 3, 4, 5, 6] ∧ t.dram.evac = none ∧ t.dram.evacCode = 2 ∧ (t.unit (uDram 7)).st = .retired)) = true := by decide

theorem test_powerMean : nextIs (Sys2Proof.Machine.execPowerMeanCheck  (gov { cap := 700 })) (fun t => decide (t = gov { cap := 700 })) = true := by decide

theorem test_thermal : nextIs (Sys2Proof.Machine.execThermalLoop  (hot 500 0)) (fun t => decide (500 ≤ t.gov.therm ∧ t.gov.thermAt = 125000)) = true := by decide

theorem test_fallback : nextIs (Sys2Proof.Machine.execGovernorFallback  (gov { miss := 8 })) (fun t => decide (t.gov.fallback ∧ t.getF F.PWR_GOV_EVT_MISS = 1)) = true := by decide

theorem test_revert : nextIs (Sys2Proof.Machine.execGovernorRevert  (gov { satN := 125, iin := 3 })) (fun t => decide (t.gov.reverted ∧ t.gov.x1 = 3 ∧ t.gov.act = {} ∧ (∃ e ∈ t.flt.queue, e.code = 0x010D))) = true := by decide

theorem test_banks : nextIs (Sys2Proof.Machine.execSwap  (up)) (fun t => decide (t.gov.swap)) = true := by decide

theorem test_banks_2 : nextIs (Sys2Proof.Machine.execSave  (up)) (fun t => decide (t.gov.saved = some {})) = true := by decide

theorem test_trace : nextIs (Sys2Proof.Machine.execTraceStart  (gov { wptr := 5, done := true })) (fun t => decide (t.gov.armed ∧ t.gov.wptr = 0 ∧ t.gov.done = false)) = true := by decide

theorem test_trace_2 : nextIs (Sys2Proof.Machine.execTraceStop  (gov { armed := true })) (fun t => decide (t.gov.trig)) = true := by decide

theorem test_collect : nextIs (Sys2Proof.Machine.execFaultCollect  (faulty 0x0001)) (fun t => decide ((t.unit (uEng 2)).own0 ∧ t.getF F.FLT_EVT_F0 = 1 ∧ t.flt.hist = [] ∧ t.flt.queue = [])) = true := by decide

theorem test_pulse : nextIs (Sys2Proof.Machine.execFaultPulseEnd  (fltS { pulse := true, f3pin := true })) (fun t => decide (t.flt.pulse = false ∧ t.outbox = [.pin 0 true])) = true := by decide

theorem test_junction : nextIs (Sys2Proof.Machine.execJunctionOverTemperature 4 (fltS { tjF2 := ⟨[(4, 124)]⟩, tjF3 := ⟨[(4, 1249)]⟩ })) (fun t => decide (t.flt.queue = [])) = true := by decide

theorem test_regCycle : nextIs (Sys2Proof.Machine.execRegCycleAssert  (armed)) (fun t => decide (t.flt.regc ∧ t.outbox = [.pin 1 true])) = true := by decide

theorem test_submit : nextIs (Sys2Proof.Machine.execLogRecordSubmit (.eng 2) 0x10204 (up)) (fun t => decide (t.log.subs.map (fun b => (b.acc, b.typ, b.unit, b.body.length)) = [(2, 2, uEng 2, 4)])) = true := by decide

theorem test_logs : nextIs (Sys2Proof.Machine.execRepeatRecord  (rated)) (fun t => decide (t.log.f0n = {} ∧ rated.log.seq < t.log.seq)) = true := by decide

theorem test_logs_2 : nextIs (Sys2Proof.Machine.execLogRdDataRead .mgmt (up)) (fun t => decide (t.getF F.LOG_RD_OFF_OFF 0xFFF = 4 ∧ t.outbox.length = 1)) = true := by decide

theorem test_startUp : nextIs (Sys2Proof.Machine.execStartUp {} (up)) (fun t => decide (t = up)) = true := by decide

theorem test_levels : nextIs (Sys2Proof.Machine.execLevelRise 1 (ladder { core := true, perst0 := some 0 })) (fun t => decide (t.lvl.level = 1)) = true := by decide

theorem test_levelBound : nextIs (Sys2Proof.Machine.execLevelBoundMissed  (late 1001)) (fun t => decide (t.lvl.lateB ∧ t.getF F.SYS_EVT_LATE_BRONZE = 1)) = true := by decide

theorem test_jtag : nextIs (Sys2Proof.Machine.execBypass  (up)) (fun t => decide (t.lvl.jtag = 0)) = true := by decide

end Sys2Proof.Tests
end

section
/-! PROOFS. R6, R7: what a write stored in a register gives each of its fields, and what it leaves as it was. -/
namespace Sys2Proof.Machine

/-! ### The key of a field -/

/-- Fields of different registers, indices or low bits have different keys: the index takes 12 bits and the low bit 5. -/
theorem fkey_inj {f g : Fld} {u w : Nat} (hu : u < 4096) (hw : w < 4096) (hf : f.lo < 32) (hg : g.lo < 32)
    (h : fkey g w = fkey f u) : g.reg = f.reg ∧ w = u ∧ g.lo = f.lo := by
  unfold fkey at h
  omega

/-! ### One field stored by its type (R6, Table 0.3) -/

section field
variable (s : State) {f : Fld} (u v : Nat)

theorem getF_storeFld_rw (h : f.ty = .rw) : (s.storeFld f u v).getF f u = f.of v % 2 ^ f.width := by
  simp [State.storeFld, h]

theorem storeFld_w1c_zero (h : f.ty = .w1c) (hv : f.of v = 0) : s.storeFld f u v = s := by
  simp [State.storeFld, h, hv]

theorem getF_storeFld_w1c (h : f.ty = .w1c) (hv : f.of v ≠ 0) :
    (s.storeFld f u v).getF f u = (s.getF f u &&& (2 ^ f.width - 1 - f.of v)) % 2 ^ f.width := by
  simp [State.storeFld, h, hv]

theorem getF_storeFld_w1s (h : f.ty = .w1s) :
    (s.storeFld f u v).getF f u = (s.getF f u ||| f.of v) % 2 ^ f.width := by
  simp [State.storeFld, h]

theorem storeFld_unwritable (h : f.ty = .ro ∨ f.ty = .rc ∨ f.ty = .wo) : s.storeFld f u v = s := by
  rcases h with h | h | h <;> simp [State.storeFld, h]

end field

/-- A stored field keeps its value or is set: the two effects a write can have on it. -/
theorem storeFld_cases (s : State) (f : Fld) (u v : Nat) : s.storeFld f u v = s ∨ ∃ x, s.storeFld f u v = s.setF f x u := by
  cases h : f.ty with
  | rw => exact .inr ⟨f.of v, by simp [State.storeFld, h]⟩
  | w1s => exact .inr ⟨s.getF f u ||| f.of v, by simp [State.storeFld, h]⟩
  | w1c =>
    by_cases hv : f.of v = 0
    · exact .inl (storeFld_w1c_zero s u v h hv)
    · exact .inr ⟨s.getF f u &&& (2 ^ f.width - 1 - f.of v), by simp [State.storeFld, h, hv]⟩
  | ro | rc | wo => exact .inl (storeFld_unwritable s u v (by simp [h]))

/-- Storing a field leaves the fields at other keys as they were. -/
theorem getF_storeFld_ne (s : State) {f g : Fld} {u w : Nat} (v : Nat) (h : fkey g w ≠ fkey f u) :
    (s.storeFld f u v).getF g w = s.getF g w := by
  obtain hs | ⟨x, hs⟩ := storeFld_cases s f u v <;> rw [hs]
  exact getF_setF_ne s f g x u w h

/-- Storing a field changes the register fields alone. -/
theorem storeFld_frame (s : State) (f : Fld) (u v : Nat) : { s.storeFld f u v with fields := s.fields } = s := by
  obtain hs | ⟨x, hs⟩ := storeFld_cases s f u v <;> rw [hs]
  exact setF_frame s f x u

/-- What a stored field reads as follows from what it read as before. -/
theorem getF_storeFld_congr {s t : State} {f : Fld} {u : Nat} (v : Nat) (h : s.getF f u = t.getF f u) :
    (s.storeFld f u v).getF f u = (t.storeFld f u v).getF f u := by
  cases hty : f.ty with
  | rw => rw [getF_storeFld_rw s u v hty, getF_storeFld_rw t u v hty]
  | w1s => rw [getF_storeFld_w1s s u v hty, getF_storeFld_w1s t u v hty, h]
  | w1c =>
    by_cases hv : f.of v = 0
    · rw [storeFld_w1c_zero s u v hty hv, storeFld_w1c_zero t u v hty hv, h]
    · rw [getF_storeFld_w1c s u v hty hv, getF_storeFld_w1c t u v hty hv, h]
  | ro | rc | wo =>
    have hno : f.ty = .ro ∨ f.ty = .rc ∨ f.ty = .wo := by simp [hty]
    rw [storeFld_unwritable s u v hno, storeFld_unwritable t u v hno, h]

/-! ### A list of fields stored one after another -/

/-- Storing fields leaves a field whose key is none of theirs as it was. -/
theorem getF_foldl_storeFld_ne (l : List Fld) (s : State) {g : Fld} {u w : Nat} (v : Nat)
    (h : ∀ f ∈ l, fkey g w ≠ fkey f u) : (l.foldl (fun s f => s.storeFld f u v) s).getF g w = s.getF g w := by
  induction l generalizing s with
  | nil => rfl
  | cons f l ih =>
    obtain ⟨hf, hl⟩ := List.forall_mem_cons.1 h
    rw [List.foldl_cons, ih _ hl, getF_storeFld_ne s v hf]

/-- Where the keys differ, each of the fields reads as if it alone had been stored. -/
theorem getF_foldl_storeFld_mem {l : List Fld} (s : State) {f : Fld} {u : Nat} (v : Nat) (hf : f ∈ l)
    (hl : l.Pairwise fun f g => fkey f u ≠ fkey g u) :
    (l.foldl (fun s f => s.storeFld f u v) s).getF f u = (s.storeFld f u v).getF f u := by
  induction l generalizing s with
  | nil => cases hf
  | cons g l ih =>
    obtain ⟨hg, hl⟩ := List.pairwise_cons.1 hl
    rw [List.foldl_cons]
    rcases List.mem_cons.1 hf with rfl | hf
    · exact getF_foldl_storeFld_ne l _ v hg
    · rw [ih _ hf hl]
      exact getF_storeFld_congr v (getF_storeFld_ne s v (hg f hf).symm)

/-- Storing fields changes the register fields alone. -/
theorem foldl_storeFld_frame (l : List Fld) (s : State) (u v : Nat) :
    { l.foldl (fun s f => s.storeFld f u v) s with fields := s.fields } = s := by
  induction l generalizing s with
  | nil => rfl
  | cons f l ih =>
    have hrest := congrArg (fun t : State => { t with fields := s.fields }) (ih (s.storeFld f u v))
    exact hrest.trans (storeFld_frame s f u v)

/-! ### A register written -/

/-- A write is stored when each RW field's value lies in its range; each field is then stored in turn. -/
theorem storeReg_eq_some_iff {s t : State} {r : Reg} {u v : Nat} :
    s.storeReg r u v = some t ↔
      (∀ f ∈ r.flds, f.ty = .rw → f.fits v = true) ∧ r.flds.foldl (fun s f => s.storeFld f u v) s = t := by
  simp [State.storeReg, Decidable.imp_iff_not_or]

/-- The fields of one register have different keys. -/
theorem pairwise_fkey_ne {r : Reg} {u : Nat} (hlo : ∀ f ∈ r.flds, f.lo < 32) (hpw : r.flds.Pairwise fun f g => f.lo ≠ g.lo)
    (hu : u < 4096) : r.flds.Pairwise fun f g => fkey f u ≠ fkey g u :=
  hpw.imp_of_mem fun hf hg hne hkey => hne (fkey_inj hu hu (hlo _ hg) (hlo _ hf) hkey).2.2

/-- Settles O3: the fields of a register have keys of their own, so each reads as if it alone had been stored, and a
field of another register has none of their keys. -/
theorem fieldTypes : Obligations.FieldTypes := by
  intro s t r u v hst hreg hlo hpw hu
  obtain ⟨hfits, rfl⟩ := storeReg_eq_some_iff.1 hst
  have hkeys := pairwise_fkey_ne hlo hpw hu
  refine ⟨fun f hf => ?_, fun g w hg hglo hw => ?_, foldl_storeFld_frame r.flds s u v⟩
  · rw [getF_foldl_storeFld_mem s v hf hkeys]
    exact ⟨fun h => ⟨hfits f hf h, getF_storeFld_rw s u v h⟩,
      fun h hv => by rw [storeFld_w1c_zero s u v h hv],
      fun h hv => getF_storeFld_w1c s u v h hv,
      fun h => getF_storeFld_w1s s u v h,
      fun h => by rw [storeFld_unwritable s u v h]⟩
  · refine getF_foldl_storeFld_ne r.flds s v fun f hf hkey => hg ?_
    obtain ⟨hsame, -, -⟩ := fkey_inj hu hw (hlo f hf) hglo hkey
    exact hsame.trans (hreg f hf)

end Sys2Proof.Machine
end

section
/-! PROOFS. Chapter 8, R232 to R257: what a failed decode, the close of an SLC line, relocation, patrol, refresh and the wear
check do. -/
namespace Sys2Proof.Machine

/-! ### Maps changed value by value -/

/-- A key of a map changed value by value reads as its changed value. -/
theorem SMap.find_mapV {α : Type} (m : SMap α) (f : Nat → α → α) (k : Nat) : (m.mapV f).find k = (m.find k).map (f k) := by
  obtain ⟨l⟩ := m
  show lookupL k (l.map fun e => (e.1, f e.1 e.2)) = (lookupL k l).map (f k)
  induction l with
  | nil => rfl
  | cons e l ih =>
    by_cases h : k = e.1
    · subst h
      simp [lookupL]
    · simpa [lookupL, h] using ih

/-- A listed sector of a map of optional values changed within each of them. -/
theorem SMap.get_mapV_option {α : Type} (m : SMap (Option α)) (f : α → α) (k : Nat) :
    (m.mapV fun _ o => o.map f).get none k = (m.get none k).map f := by
  unfold SMap.get
  rw [SMap.find_mapV]
  cases m.find k <;> rfl

/-! ### Chunk records -/

@[simp] theorem chunk_onChunk_same (s : State) (k : Nat) (f : Chunk → Chunk) : (s.onChunk k f).chunk k = f (s.chunk k) := by
  simp [State.chunk, State.onChunk]

theorem chunk_onChunk_ne (s : State) {j k : Nat} (f : Chunk → Chunk) (h : j ≠ k) : (s.onChunk k f).chunk j = s.chunk j := by
  simp [State.chunk, State.onChunk, SMap.get_upd_ne _ _ _ h]

/-- What a chunk record holds follows from the chunk records alone. -/
theorem chunk_congr {s t : State} (h : t.med.chunks = s.med.chunks) (j : Nat) : t.chunk j = s.chunk j := by
  unfold State.chunk
  rw [h]

/-! ### The journal leaves the media alone -/

theorem jnlGroup_med (s : State) (rs : List JRec) : (s.jnlGroup rs).med = s.med :=
  (upd_jnlGroup (B := 4194320) rs .refl (Nat.and_self _)).med (by decide)

theorem jnlSystem_med (s : State) (rs : List JRec) : (s.jnlSystem rs).med = s.med := jnlGroup_med s _

theorem jnlSystem_chunk (s : State) (rs : List JRec) (j : Nat) : (s.jnlSystem rs).chunk j = s.chunk j :=
  chunk_congr (congrArg MedSt.chunks (jnlSystem_med s rs)) j

theorem foldl_jnlGroup_med {α : Type} (l : List α) (f : α → List JRec) (s : State) :
    (l.foldl (fun s r => s.jnlGroup (f r)) s).med = s.med := by
  induction l generalizing s with
  | nil => rfl
  | cons r l ih => rw [List.foldl_cons, ih, jnlGroup_med]

/-! ### Erases (R252) -/

section erase
variable (s : State) (ch lun chunk : Nat)

/-- An erase changes the record of its own chunk alone. -/
theorem chunk_eraseBlocks_ne (bs : List Nat) (slc : Bool) {j : Nat} (h : j ≠ chunkKey ch lun chunk) :
    (s.eraseBlocks ch lun chunk bs slc).chunk j = s.chunk j :=
  (chunk_onChunk_ne _ _ h).trans (jnlSystem_chunk s _ j)

/-- A chunk erased is fresh, and queued for refresh as before. -/
theorem chunk_eraseBlocks_same (bs : List Nat) (slc : Bool) :
    ((s.eraseBlocks ch lun chunk bs slc).chunk (chunkKey ch lun chunk)).fresh = true ∧
    ((s.eraseBlocks ch lun chunk bs slc).chunk (chunkKey ch lun chunk)).queued = (s.chunk (chunkKey ch lun chunk)).queued := by
  unfold State.eraseBlocks
  dsimp only
  rw [chunk_onChunk_same]
  exact ⟨rfl, (congrArg Chunk.queued (jnlSystem_chunk s _ _) :)⟩

theorem chunk_eraseAs_ne (slc : Bool) {j : Nat} (h : j ≠ chunkKey ch lun chunk) :
    (s.eraseAs ch lun chunk slc).chunk j = s.chunk j :=
  (chunk_eraseBlocks_ne _ ch lun chunk _ slc h).trans (jnlSystem_chunk s _ j)

theorem chunk_eraseAs_same (slc : Bool) :
    ((s.eraseAs ch lun chunk slc).chunk (chunkKey ch lun chunk)).fresh = true ∧
    ((s.eraseAs ch lun chunk slc).chunk (chunkKey ch lun chunk)).queued = (s.chunk (chunkKey ch lun chunk)).queued := by
  obtain ⟨hfresh, hqueued⟩ := chunk_eraseBlocks_same ((s.jnlSystem [s.eraseRec 6 ch lun chunk]).takeStamp (uChan ch)) ch lun chunk
    ((List.range (chunkPages / s.blockPages)).map (chunk * (chunkPages / s.blockPages) + ·)) slc
  exact ⟨hfresh, hqueued.trans (congrArg Chunk.queued (jnlSystem_chunk s _ _))⟩

theorem chunk_eraseFree_ne {j : Nat} (h : j ≠ chunkKey ch lun chunk) : (s.eraseFree ch lun chunk).chunk j = s.chunk j :=
  (chunk_onChunk_ne _ _ h).trans (chunk_eraseAs_ne s ch lun chunk _ h)

theorem chunk_eraseFree_same :
    ((s.eraseFree ch lun chunk).chunk (chunkKey ch lun chunk)).fresh = true ∧
    ((s.eraseFree ch lun chunk).chunk (chunkKey ch lun chunk)).queued = (s.chunk (chunkKey ch lun chunk)).queued := by
  unfold State.eraseFree
  rw [chunk_onChunk_same]
  exact chunk_eraseAs_same s ch lun chunk _

end erase

/-! ### Retirement (R248) -/

/-- Making room in the grown ring changes no chunk's record. -/
theorem grownRoom_chunk (s : State) (j : Nat) : s.grownRoom.chunk j = s.chunk j := by
  unfold State.grownRoom
  split <;> rfl

/-- Retirement leaves every chunk in use or free as it was. -/
theorem retireChunk_used (s : State) (ch lun chunk reason j : Nat) :
    ((s.retireChunk ch lun chunk reason).chunk j).used = (s.chunk j).used := by
  rw [← grownRoom_chunk s j]
  unfold State.retireChunk
  dsimp only
  split
  · rw [grownRoom_chunk]
  · by_cases hj : j = chunkKey ch lun chunk
    · subst hj
      exact (congrArg Chunk.used (chunk_onChunk_same _ _ _) :)
    · exact (congrArg Chunk.used (chunk_onChunk_ne _ _ hj) :)

theorem grownDone_chunk (s : State) (ch lun chunk j : Nat) : (s.grownDone ch lun chunk).chunk j = s.chunk j := rfl

/-! ### Relocation and refresh (R245, R248, R256) -/

/-- The chunk moved to is in use; the one moved from is not, and is no longer queued. -/
theorem chunk_moveChunk (s : State) {k k2 : Nat} (h : k2 ≠ k) :
    ((s.moveChunk k k2).chunk k2).used = true ∧
    (s.moveChunk k k2).chunk k = { s.chunk k with used := false, queued := false } := by
  unfold State.moveChunk
  dsimp only
  refine ⟨?_, ?_⟩
  · rw [chunk_onChunk_ne _ _ h, chunk_onChunk_same]
  · rw [chunk_onChunk_same, chunk_onChunk_ne _ _ h.symm]
    refine congrArg (fun c : Chunk => { c with used := false, queued := false }) (chunk_congr ?_ k)
    exact (congrArg MedSt.chunks (foldl_jnlGroup_med _ _ s) :)

/-- With a free chunk on the channel and no program failure the chunk moves at the first try. -/
theorem relocate_of_pick {s : State} {ch l k : Nat} (lun chunk n : Nat) (h : s.pickChunkCh ch = some (l, k)) :
    s.relocate ch lun chunk 0 (n + 1) = (true, s.moveChunk (chunkKey ch lun chunk) (chunkKey ch l k)) := by
  simp [State.relocate, h]

section move
variable {s : State} {ch lun chunk l k : Nat} (hp : s.pickChunkCh ch = some (l, k)) (hk : chunkKey ch l k ≠ chunkKey ch lun chunk)
include hp hk

/-- A chunk that must move does: the free chunk is taken, and a retired one is no longer in use. -/
theorem chunkReloc_moves (op : Bool) (hm : s.needsMove ch lun chunk = true) :
    ((s.chunkReloc ch lun chunk 0 op).chunk (chunkKey ch l k)).used = true ∧
    ((s.chunk (chunkKey ch lun chunk)).st = 2 → ((s.chunkReloc ch lun chunk 0 op).chunk (chunkKey ch lun chunk)).used = false) := by
  obtain ⟨hdest, hsrc⟩ := chunk_moveChunk s hk
  unfold State.chunkReloc
  simp only [hm, Bool.not_true, Bool.false_eq_true, if_false, relocate_of_pick lun chunk 3 hp, if_true]
  split
  · rw [grownDone_chunk, grownDone_chunk, retireChunk_used, retireChunk_used, hsrc]
    exact ⟨hdest, fun _ => rfl⟩
  · split
    · rw [grownDone_chunk, grownDone_chunk, hsrc]
      exact ⟨hdest, fun _ => rfl⟩
    · rename_i hst
      rw [chunk_eraseFree_ne _ _ _ _ hk]
      exact ⟨hdest, fun h => absurd h hst⟩

/-- A queued good chunk that no refresh of the lap has moved yet moves and is erased. -/
theorem refresh_moves (hq : (s.chunk (chunkKey ch lun chunk)).queued = true) (hst : (s.chunk (chunkKey ch lun chunk)).st = 0)
    (hr : (s.chunk (chunkKey ch lun chunk)).refr = 0) :
    s.refresh ch lun chunk 0 =
      ((s.moveChunk (chunkKey ch lun chunk) (chunkKey ch l k)).onChunk (chunkKey ch lun chunk) fun c =>
        { c with refr := c.refr + 1, queued := false }).eraseFree ch lun chunk := by
  obtain ⟨-, hsrc⟩ := chunk_moveChunk s hk
  unfold State.refresh
  simp [hq, hst, relocate_of_pick lun chunk 3 hp, hsrc, hr]

theorem refresh_chunks (hq : (s.chunk (chunkKey ch lun chunk)).queued = true) (hst : (s.chunk (chunkKey ch lun chunk)).st = 0)
    (hr : (s.chunk (chunkKey ch lun chunk)).refr = 0) :
    ((s.refresh ch lun chunk 0).chunk (chunkKey ch lun chunk)).queued = false ∧
    ((s.refresh ch lun chunk 0).chunk (chunkKey ch lun chunk)).fresh = true ∧
    ((s.refresh ch lun chunk 0).chunk (chunkKey ch l k)).used = true := by
  obtain ⟨hdest, -⟩ := chunk_moveChunk s hk
  rw [refresh_moves hp hk hq hst hr]
  refine ⟨?_, (chunk_eraseFree_same _ ch lun chunk).1, ?_⟩
  · rw [(chunk_eraseFree_same _ ch lun chunk).2, chunk_onChunk_same]
  · rw [chunk_eraseFree_ne _ _ _ _ hk, chunk_onChunk_ne _ _ hk, hdest]

end move

/-! ### The wear check (R257) -/

/-- One channel's part of the wear check. -/
def State.offerChan (s : State) (ch : Nat) : State :=
  match s.wearOffer ch with
  | some g => s.onMed fun m => { m with offer := if g ∈ m.offer then m.offer else m.offer ++ [g] }
  | none => s

theorem wearCheck_eq (s : State) (q : Nat) : s.wearCheck q = ((List.range 32).map (32 * q + ·)).foldl State.offerChan s := rfl

/-- One channel's part changes the segments offered alone. -/
theorem offerChan_frame (s : State) (ch : Nat) : { s.offerChan ch with med := s.med } = s := by
  unfold State.offerChan
  split <;> rfl

theorem wearOffer_offerChan (s : State) (c ch : Nat) : (s.offerChan c).wearOffer ch = s.wearOffer ch := by
  unfold State.offerChan
  split <;> rfl

theorem mem_offerChan_of_mem {s : State} {g : Nat} (ch : Nat) (h : g ∈ s.med.offer) : g ∈ (s.offerChan ch).med.offer := by
  unfold State.offerChan
  split
  · rw [State.onMed_med]
    dsimp only
    split
    · exact h
    · exact List.mem_append_left _ h
  · exact h

theorem mem_offerChan {s : State} {ch g : Nat} (h : s.wearOffer ch = some g) : g ∈ (s.offerChan ch).med.offer := by
  unfold State.offerChan
  rw [h]
  dsimp only [State.onMed_med]
  split
  · assumption
  · exact List.mem_append_right _ (List.mem_singleton_self g)

theorem mem_foldl_offerChan_of_mem (l : List Nat) {s : State} {g : Nat} (h : g ∈ s.med.offer) :
    g ∈ (l.foldl State.offerChan s).med.offer := by
  induction l generalizing s with
  | nil => exact h
  | cons c l ih => exact ih (mem_offerChan_of_mem c h)

/-- What a channel of the list offers at first is offered at the end: no channel's part changes what another offers. -/
theorem mem_foldl_offerChan {l : List Nat} {s : State} {ch g : Nat} (hch : ch ∈ l) (h : s.wearOffer ch = some g) :
    g ∈ (l.foldl State.offerChan s).med.offer := by
  induction l generalizing s with
  | nil => cases hch
  | cons c l ih =>
    rcases List.mem_cons.1 hch with rfl | hch
    · exact mem_foldl_offerChan_of_mem l (mem_offerChan h)
    · exact ih hch ((wearOffer_offerChan s c ch).trans h)

theorem foldl_offerChan_frame (l : List Nat) (s : State) : { l.foldl State.offerChan s with med := s.med } = s := by
  induction l generalizing s with
  | nil => rfl
  | cons c l ih => exact (congrArg (fun t : State => { t with med := s.med }) (ih (s.offerChan c))).trans (offerChan_frame s c)

section wear
variable {s : State} {q : Nat}

theorem mem_wearCheck_of_mem {g : Nat} (h : g ∈ s.med.offer) : g ∈ (s.wearCheck q).med.offer := by
  rw [wearCheck_eq]
  exact mem_foldl_offerChan_of_mem _ h

theorem mem_wearCheck {c g : Nat} (hc : c < 32) (h : s.wearOffer (32 * q + c) = some g) : g ∈ (s.wearCheck q).med.offer := by
  rw [wearCheck_eq]
  exact mem_foldl_offerChan (List.mem_map.2 ⟨c, List.mem_range.2 hc, rfl⟩) h

theorem wearCheck_frame : { s.wearCheck q with med := s.med } = s := by
  rw [wearCheck_eq]
  exact foldl_offerChan_frame _ s

end wear

/-! ### The close of an SLC line (R241, R242) -/

/-- The parity of an SLC line programmed, where its accumulator is still held. -/
def State.slcParity (s : State) (q stripe line : Nat) : State :=
  match s.accOf q stripe line true with
  | some a => s.putParity line a fun p n => mloc (32 * q + p) (stripe / 65536) (stripe % 65536 * chunkPages + line + n / 4 * s.blockPages) (n % 4)
  | none => s

/-- A landing sector once its SLC line has closed. -/
def State.slcClosed (s : State) (q stripe line : Nat) (y : LSec) : LSec :=
  match y.loc with
  | some loc => if s.inSlcLine q stripe line loc then { y with prog := true } else y
  | none => y

/-- Programming a line's parity changes the parity on the media alone. -/
theorem slcParity_frame (s : State) (q stripe line : Nat) :
    (s.slcParity q stripe line).onMed (fun m => { m with parity := s.med.parity }) = s := by
  unfold State.slcParity
  split <;> rfl

theorem slcParity_slcLines (s : State) (q stripe line : Nat) : (s.slcParity q stripe line).med.slcLines = s.med.slcLines :=
  (congrArg (fun t : State => t.med.slcLines) (slcParity_frame s q stripe line) :)

theorem slcParity_lsec (s : State) (q stripe line k : Nat) : (s.slcParity q stripe line).lsec k = s.lsec k :=
  (congrArg (fun t : State => t.lsec k) (slcParity_frame s q stripe line) :)

theorem slcParity_inSlcLine (s : State) (q stripe line loc : Nat) :
    (s.slcParity q stripe line).inSlcLine q stripe line loc = s.inSlcLine q stripe line loc :=
  (congrArg (fun t : State => t.inSlcLine q stripe line loc) (slcParity_frame s q stripe line) :)

/-- A line whose 30 positions are programmed closes: parity, the line and its accumulator gone, its sectors programmed. -/
theorem closeSlcLine_full {s : State} {q a b f : Nat}
    (h : s.med.slcLines.find? (fun x => x.1 == q && x.2.1 == a && x.2.2.1 == b) = some (q, a, b, f, 30)) :
    s.closeSlcLine q a b =
      ((s.slcParity q a b).onMed fun m => { m with slcLines := m.slcLines.erase (q, a, b, f, 30),
                                                   accs := m.accs.filter (fun x => !(x.quad == q && x.slc && x.seg == a && x.line == b)) }).onLnd
        fun l => { l with secs := l.secs.mapV fun _ o => o.map ((s.slcParity q a b).slcClosed q a b) } := by
  unfold State.closeSlcLine
  rw [h]
  dsimp only
  rw [if_neg (by omega)]
  rfl

theorem closeSlcLine_slcLines {s : State} {q a b f : Nat}
    (h : s.med.slcLines.find? (fun x => x.1 == q && x.2.1 == a && x.2.2.1 == b) = some (q, a, b, f, 30)) :
    (s.closeSlcLine q a b).med.slcLines = s.med.slcLines.erase (q, a, b, f, 30) := by
  rw [closeSlcLine_full h, State.onLnd_med, State.onMed_med, slcParity_slcLines]

theorem closeSlcLine_prog {s : State} {q a b f k loc : Nat} {x : LSec}
    (h : s.med.slcLines.find? (fun x => x.1 == q && x.2.1 == a && x.2.2.1 == b) = some (q, a, b, f, 30))
    (hx : s.lsec k = some x) (hloc : x.loc = some loc) (hin : s.inSlcLine q a b loc = true) :
    ((s.closeSlcLine q a b).lsec k).map (·.prog) = some true := by
  have hsec : (s.closeSlcLine q a b).lsec k = (s.lsec k).map ((s.slcParity q a b).slcClosed q a b) := by
    rw [closeSlcLine_full h, ← slcParity_lsec s q a b k]
    exact SMap.get_mapV_option _ _ k
  have hprog : ((s.slcParity q a b).slcClosed q a b x).prog = true := by
    simp [State.slcClosed, hloc, slcParity_inSlcLine, hin]
  rw [hsec, hx]
  exact congrArg some hprog

/-! ### A codeword that does not decode (R232, R236) -/

/-- A field's value follows from the register fields alone. -/
theorem getF_congr_fields {s t : State} (h : t.fields = s.fields) (f : Fld) (u : Nat) : t.getF f u = s.getF f u := by
  unfold State.getF
  rw [h]

/-- A field of another register reads as before. -/
theorem getF_setF_reg_ne (s : State) {f g : Fld} {u w : Nat} (v : Nat) (hu : u < 4096) (hw : w < 4096) (hf : f.lo < 32)
    (hg : g.lo < 32) (h : g.reg ≠ f.reg) : (s.setF f v u).getF g w = s.getF g w :=
  getF_setF_ne s f g v u w fun e => h (fkey_inj hu hw hf hg e).1

/-- An event counted in another register leaves a field's value. -/
theorem getF_raiseEvt_reg_ne (s : State) {f c g : Fld} {u w : Nat} (hu : u < 4096) (hw : w < 4096) (hf : f.lo < 32)
    (hc : c.lo < 32) (hg : g.lo < 32) (h : g.reg ≠ f.reg) (h' : g.reg ≠ c.reg) : (s.raiseEvt f c u).getF g w = s.getF g w :=
  (getF_setF_reg_ne _ _ hu hw hc hg h').trans (getF_setF_reg_ne _ _ hu hw hf hg h)

theorem getF_onChunk (s : State) (k : Nat) (h : Chunk → Chunk) (f : Fld) (u : Nat) : (s.onChunk k h).getF f u = s.getF f u := rfl

/-- An erase changes register fields through its journal group alone. -/
theorem getF_eraseBlocks (s : State) (ch lun chunk : Nat) (bs : List Nat) (slc : Bool) (f : Fld) (u : Nat) :
    (s.eraseBlocks ch lun chunk bs slc).getF f u = (s.jnlSystem [s.eraseRec 7 ch lun chunk]).getF f u := by
  unfold State.eraseBlocks
  dsimp only
  rw [getF_onChunk]
  rfl

/-- What the erased-state check can do (R254): nothing, note the codeword in the chunk's record, erase the chunk once more, or
retire it. -/
theorem eraseCheck_cases (s : State) (ch lun page cw status : Nat) :
    s.eraseCheck ch lun page cw status = s ∨ (∃ k f, s.eraseCheck ch lun page cw status = s.onChunk k f) ∨
    (∃ chunk k f, s.eraseCheck ch lun page cw status = (s.eraseFree ch lun chunk).onChunk k f) ∨
    ∃ chunk, s.eraseCheck ch lun page cw status = (s.retireChunk ch lun chunk 3).grownDone ch lun chunk := by
  unfold State.eraseCheck
  dsimp only
  generalize (if (s.chunk (chunkKey ch lun (page / chunkPages))).slc = true then s.slcPages else s.blockPages) - 1 = last
  split
  · exact .inl rfl
  · split
    · exact .inr (.inl ⟨_, _, rfl⟩)
    · split
      · exact .inr (.inr (.inl ⟨_, _, _, rfl⟩))
      · exact .inr (.inr (.inr ⟨_, rfl⟩))

section failCount
variable {g : Nat} (hg : g < 4096)
include hg

/-- The records written to the decode ring lie in the ring's own registers, whatever its tail. -/
theorem failCnt_pumpRing (l : List (Nat × Nat)) (s : State) :
    (s.pumpRing 0x930000 F.GRP_DR_HEAD_HEAD F.GRP_DR_TAIL_TAIL g l).1.getF F.GRP_LDPC_CNT0_FAIL_CNT g =
      s.getF F.GRP_LDPC_CNT0_FAIL_CNT g := by
  induction l generalizing s with
  | nil => rfl
  | cons r l ih =>
    have hmem (t : State) (i v : Nat) :
        (t.setF (memFld 0x930000 i) v g).getF F.GRP_LDPC_CNT0_FAIL_CNT g = t.getF F.GRP_LDPC_CNT0_FAIL_CNT g :=
      getF_setF_reg_ne t v hg hg (by decide : 0 < 32) (by decide) (by show 9437224 ≠ 0x930000 + 4 * i; omega)
    have htail (t : State) (v : Nat) :
        (t.setF F.GRP_DR_TAIL_TAIL v g).getF F.GRP_LDPC_CNT0_FAIL_CNT g = t.getF F.GRP_LDPC_CNT0_FAIL_CNT g :=
      getF_setF_reg_ne t v hg hg (by decide) (by decide) (by decide)
    unfold State.pumpRing
    split
    · rfl
    · exact (ih _).trans ((htail _ _).trans ((hmem _ _ _).trans (hmem _ _ _)))

theorem failCnt_pumpDr (s : State) : (s.pumpDr g).getF F.GRP_LDPC_CNT0_FAIL_CNT g = s.getF F.GRP_LDPC_CNT0_FAIL_CNT g :=
  failCnt_pumpRing hg _ s

/-- A group written to the journal raises FULL at most. -/
theorem failCnt_jnlSystem (s : State) (rs : List JRec) :
    (s.jnlSystem rs).getF F.GRP_LDPC_CNT0_FAIL_CNT g = s.getF F.GRP_LDPC_CNT0_FAIL_CNT g := by
  unfold State.jnlSystem State.jnlGroup
  split
  · rfl
  · exact getF_raiseEvt_reg_ne _ (by decide) hg (by decide) (by decide) (by decide) (by decide) (by decide)

theorem failCnt_eraseFree (s : State) (ch lun chunk : Nat) :
    (s.eraseFree ch lun chunk).getF F.GRP_LDPC_CNT0_FAIL_CNT g = s.getF F.GRP_LDPC_CNT0_FAIL_CNT g := by
  unfold State.eraseFree State.eraseAs
  dsimp only
  rw [getF_onChunk, getF_eraseBlocks, failCnt_jnlSystem hg]
  exact failCnt_jnlSystem hg s _

theorem failCnt_retireChunk (s : State) {ch : Nat} (lun chunk reason : Nat) (hch : ch < 128) :
    (s.retireChunk ch lun chunk reason).getF F.GRP_LDPC_CNT0_FAIL_CNT g = s.getF F.GRP_LDPC_CNT0_FAIL_CNT g := by
  have hroom : s.grownRoom.fields = s.fields := by
    unfold State.grownRoom
    split <;> rfl
  unfold State.retireChunk
  dsimp only
  split
  · rfl
  · exact (getF_raiseEvt_reg_ne _ (by omega) hg (by decide) (by decide) (by decide) (by decide) (by decide)).trans
      (getF_congr_fields hroom _ _)

/-- The erased-state check erases or retires its chunk at most. -/
theorem failCnt_eraseCheck (s : State) {ch : Nat} (lun page cw status : Nat) (hch : ch < 128) :
    (s.eraseCheck ch lun page cw status).getF F.GRP_LDPC_CNT0_FAIL_CNT g = s.getF F.GRP_LDPC_CNT0_FAIL_CNT g := by
  obtain h | ⟨k, f, h⟩ | ⟨chunk, k, f, h⟩ | ⟨chunk, h⟩ := eraseCheck_cases s ch lun page cw status <;> rw [h]
  · rw [getF_onChunk]
  · rw [getF_onChunk, failCnt_eraseFree hg]
  · exact failCnt_retireChunk hg s lun chunk 3 hch

end failCount

/-- The ladder's next read is listed on the channel; no register field changes. -/
theorem climb_fields (s : State) (ch lun page cw retry : Nat) : (s.climb ch lun page cw retry).fields = s.fields :=
  (upd_climb (B := 134217728) ch lun page cw retry .refl (Nat.and_self _)).fields (by decide)

/-- A decode failure raised in a group: its flag is set and its count advances by one, modulo 65,536 (R8). -/
theorem getF_raiseEvt_fail (s : State) (g : Nat) :
    (s.raiseEvt F.GRP_LDPC_EVT_FAIL F.GRP_LDPC_CNT0_FAIL_CNT g).getF F.GRP_LDPC_EVT_FAIL g = 1 ∧
    (s.raiseEvt F.GRP_LDPC_EVT_FAIL F.GRP_LDPC_CNT0_FAIL_CNT g).getF F.GRP_LDPC_CNT0_FAIL_CNT g =
      (s.getF F.GRP_LDPC_CNT0_FAIL_CNT g + 1) % 65536 := by
  have hkey : fkey F.GRP_LDPC_EVT_FAIL g ≠ fkey F.GRP_LDPC_CNT0_FAIL_CNT g := by
    unfold fkey
    show (9437220 * 4096 + g) * 32 + 1 ≠ (9437224 * 4096 + g) * 32 + 16
    omega
  unfold State.raiseEvt
  refine ⟨?_, ?_⟩
  · rw [getF_setF_ne _ _ _ _ _ _ hkey, getF_setF_same]
    rfl
  · rw [getF_setF_same]
    exact Nat.mod_mod _ _

/-- A codeword with more zeros than an erased one that the decoder does not correct is FAIL. -/
theorem decodeResult_fail {s : State} {g z : Nat} (h : s.getF F.GRP_LDPC_CFG_ERS_MAX g < z) : s.decodeResult g z none = (2, 0x3FF) := by
  simp [State.decodeResult, h]

/-- A first decode that fails: its record goes to the ring, the failure is counted, and the ladder's next read is listed. -/
theorem codeword_fail {s : State} {ch z : Nat} (lun page cw tag iter er : Nat) (h : s.getF F.GRP_LDPC_CFG_ERS_MAX (ch / 8) < z) :
    s.codeword ch lun page cw 0 tag z none iter er =
      (((((s.onMed fun m => { m with drWait := m.drWait.upd [] (ch / 8) fun l =>
        l ++ [decodeRec tag cw (s.pagePlane page) 2 0x3FF iter 0 (ch % 8)] }).pumpDr (ch / 8)).eraseCheck ch lun page cw 2).raiseEvt
          F.GRP_LDPC_EVT_FAIL F.GRP_LDPC_CNT0_FAIL_CNT (ch / 8)).climb ch lun page cw 0) := by
  unfold State.codeword
  simp [decodeResult_fail h]

theorem codeword_fail_counts {s : State} {ch z : Nat} (lun page cw tag iter er : Nat) (hch : ch < 128)
    (h : s.getF F.GRP_LDPC_CFG_ERS_MAX (ch / 8) < z) :
    (s.codeword ch lun page cw 0 tag z none iter er).getF F.GRP_LDPC_EVT_FAIL (ch / 8) = 1 ∧
    (s.codeword ch lun page cw 0 tag z none iter er).getF F.GRP_LDPC_CNT0_FAIL_CNT (ch / 8) =
      (s.getF F.GRP_LDPC_CNT0_FAIL_CNT (ch / 8) + 1) % 65536 := by
  have hg : ch / 8 < 4096 := by omega
  rw [codeword_fail lun page cw tag iter er h, getF_congr_fields (climb_fields ..), getF_congr_fields (climb_fields ..)]
  refine ⟨(getF_raiseEvt_fail _ _).1, ?_⟩
  rw [(getF_raiseEvt_fail _ _).2, failCnt_eraseCheck hg _ _ _ _ _ hch, failCnt_pumpDr hg]
  rfl

/-! ### The obligation -/

/-- Settles O24, clause by clause: a failed decode, a full SLC line, a chunk that must move and one that need not, a patrol
lap, a refresh and a wear check. That a patrol lap is one step is the model's choice (assumption 75). -/
theorem mediaAreKept : Obligations.MediaAreKept := by
  unfold Obligations.MediaAreKept
  refine ⟨?decode, ?slcLine, ?moves, ?stays, ?patrol, ?refresh, ?wear⟩
  case decode =>
    intro s ch lun page cw tag z iter er hch hz
    exact ⟨_, rfl, codeword_fail_counts lun page cw tag iter er hch hz⟩
  case slcLine =>
    intro s q a b f h
    exact ⟨_, rfl, closeSlcLine_slcLines h, fun k x loc hx hloc hin => closeSlcLine_prog h hx hloc hin⟩
  case moves =>
    intro s ch lun chunk l k op hm hp hk
    exact ⟨_, rfl, chunkReloc_moves hp hk op hm⟩
  case stays =>
    intro s ch lun chunk fails op hm
    show Host.Outcome.next (s.chunkReloc ch lun chunk fails op) = .next s
    simp [State.chunkReloc, hm]
  case patrol =>
    intro s q hq
    refine ⟨s.patrol q, ?_, SMap.get_upd_same _ _ _ _, rfl, rfl⟩
    show Host.Outcome.next (if q < 4 then s.patrol q else s) = .next (s.patrol q)
    rw [if_pos hq]
  case refresh =>
    intro s ch lun chunk l k hq hst hr hp hk
    exact ⟨_, rfl, refresh_chunks hp hk hq hst hr⟩
  case wear =>
    intro s q hq
    refine ⟨s.wearCheck q, ?_, fun g => mem_wearCheck_of_mem, fun c g => mem_wearCheck, wearCheck_frame⟩
    show Host.Outcome.next (if q < 4 then s.wearCheck q else s) = .next (s.wearCheck q)
    rw [if_pos hq]

end Sys2Proof.Machine
end
